-- ==== Sys2Proof/Word.lean ====
section
/-! DEFINITION. The widths the spec moves data in: bytes, and the 32-bit words of the register ports (R674, R691). -/

namespace Sys2Proof

/-- A byte of a message, a block or a host buffer. -/
abbrev Byte := BitVec 8

/-- One register word (R674: every access is one aligned 32-bit word). -/
abbrev Word := BitVec 32

end Sys2Proof
end

