-- ==== Sys2Proof/Messages.lean ====
section
/-! DEFINITION. The messages of the links, and the operands and payloads the commands carry (R294 to R303, R465,
R571 to R582). -/

namespace Sys2Proof

/-! ### Messages and pairs of the links (R283, R297) -/

/-- The link ends: the KTU's two, Naloder's sixteen Fife ports and its eight Horn ports. -/
inductive LinkId where
  | ktuUp
  | ktuDn
  | nldFife (p : Fin 16)
  | nldHorn (p : Fin 8)
  deriving DecidableEq, Repr

/-- The two timed clocks of a KTU (R71). -/
inductive TbId where
  | baseA
  | baseB
  deriving DecidableEq, Repr

/-- The clock a time command acts on: a KTU base or a Naloder domain. -/
inductive ClockId where
  | ktu (b : TbId)
  | nld (d : Fin 8)
  deriving DecidableEq, Repr

/-- Which side of the macro reaches a register: the local port under an owner, or Naloder's requests. -/
inductive Path where
  | loc
  | remote
  deriving DecidableEq, Repr

/-- The straps of R107, as the pins hold them. -/
structure Straps where
  leaf : Bool
  profile : Fin 4
  domEn : BitVec 4
  tbIncr : BitVec 40
  trcDom : BitVec 32
  dbgDom : Fin 4
  patDom : Fin 4
  digDom : Fin 4
  nCores : Fin 9
  uid : BitVec 64
  deriving DecidableEq, Repr

/-- Who writes a KTU register: the local port under a reg_owner (R110), or an issuer's REG_WR (R303). -/
inductive Writer where
  | loc (owner : Fin 16)
  | remote (issuer : Fin 17)
  deriving DecidableEq, Repr

/-- A write of a clock's register: of a KTU base by a writer, or of a Naloder domain. -/
inductive ClockWrite where
  | ktu (w : Writer) (b : TbId)
  | nld (d : Fin 8)
  deriving DecidableEq, Repr

/-- The state of a KTU whose uncorrectable error R687 handles. -/
inductive KtuFault where
  | timeBase (b : TbId)
  | upLink
  | dnLink
  | history
  | address
  deriving DecidableEq, Repr

/-- SYNC (R297): `t1` in units of 2^-16 ns, `corr` the signed correction. -/
structure SyncMsg where
  domain : Fin 8
  seq : BitVec 16
  t1 : BitVec 80
  corr : Int
  deriving DecidableEq, Repr

/-- DELAY_REQ (R297). -/
structure DelayReqMsg where
  domain : Fin 8
  seq : BitVec 16
  addr : BitVec 20
  stateA : BitVec 3
  stateB : BitVec 3
  offset : Int
  corr : Int
  deriving DecidableEq, Repr

/-- DELAY_RESP (R297). -/
structure DelayRespMsg where
  domain : Fin 8
  seq : BitVec 16
  addr : BitVec 20
  t4 : BitVec 80
  corr : Int
  deriving DecidableEq, Repr

/-- A trace record (R182). -/
structure TraceRec where
  payload : BitVec 64
  source : Fin 16
  prio : Fin 4
  type : BitVec 3
  owner : BitVec 5
  time : BitVec 48
  deriving DecidableEq, Repr

/-- The header and payload words of one Tail ring (R172). -/
structure TailImage where
  unit : BitVec 11
  hdr0 : BitVec 64
  hdr1 : BitVec 64
  recs : List (BitVec 64)
  deriving DecidableEq, Repr

/-- What heads a CMD (R299): `route` 0 names one KTU, 1 the chain. -/
structure CmdHdr where
  addr : BitVec 20
  route : Fin 2
  id : BitVec 32
  issuer : BitVec 5
  scope : BitVec 17
  scopeSet : Bool
  deriving DecidableEq, Repr

/-- TABLE_LOAD's payload (R246). -/
structure TableLoad where
  table : BitVec 8
  reserved : Bool
  gen : BitVec 16
  lens : List (BitVec 4)
  deriving DecidableEq, Repr

/-- PATTERN_RUN's payload (R548). -/
structure PatternRun where
  patternId : BitVec 32
  domain : Fin 4
  compare : Bool
  start : BitVec 48
  report : BitVec 48
  timeout : BitVec 16
  reservedZero : Bool
  k0 : BitVec 64
  s0 : BitVec 64
  k1 : BitVec 64
  s1 : BitVec 64
  expected : BitVec 128
  words : List (BitVec 64)
  deriving DecidableEq, Repr

/-- DIGEST_CTRL's payload for an open (R536). -/
structure DigestOpen where
  region : BitVec 8
  reservedZero : Bool
  epoch : BitVec 32
  close : BitVec 48
  k0 : BitVec 64
  s0 : BitVec 64
  k1 : BitVec 64
  s1 : BitVec 64
  deriving DecidableEq, Repr

/-- The payload of a CMD, by opcode (R299). -/
inductive CmdBody where
  | tableLoad (p : TableLoad)
  | tailDump (first last : BitVec 16) (frozenOnly release freeze : Bool)
  | resend (first last : BitVec 48)
  | halt (scope : BitVec 8) (h : BitVec 48)
  | resume (scope : BitVec 8) (r : BitVec 48)
  | timeStep (bases : BitVec 2) (acceptPending : Bool) (amount : BitVec 48) (stepAt : BitVec 64)
  | patternRun (p : PatternRun)
  | digestOpen (p : DigestOpen)
  | digestAbandon (region : BitVec 8) (reservedZero : Bool)
  | slotAssign (slots : BitVec 8)
  | unknown (opcode : BitVec 8)
  deriving DecidableEq, Repr

/-- An ENUM response (R297). -/
structure EnumInfo where
  addr : BitVec 20
  revision : BitVec 16
  profile : BitVec 2
  leaf : Bool
  downstream : BitVec 2
  overlong : Bool
  slots : BitVec 2
  uid : BitVec 64
  schema : BitVec 16
  deriving DecidableEq, Repr

/-- A REG_RD or REG_WR request (R303). -/
structure RegReq where
  addr : BitVec 20
  tag : BitVec 16
  issuer : BitVec 5
  count : BitVec 8
  offset : BitVec 16
  words : List Word
  deriving DecidableEq, Repr

/-- A REG_RD or REG_WR response (R303). -/
structure RegResp where
  addr : BitVec 20
  tag : BitVec 16
  code : BitVec 8
  mask : BitVec 8
  count : BitVec 8
  offset : BitVec 16
  words : List Word
  deriving DecidableEq, Repr

/-- A CMD_ACK (R302). -/
structure CmdAckMsg where
  addr : BitVec 20
  id : BitVec 32
  opcode : BitVec 8
  status : BitVec 8
  repeated : Bool
  detail : BitVec 64
  deriving DecidableEq, Repr

/-- A PATTERN_RESULT (R297). -/
structure PatternResultMsg where
  addr : BitVec 20
  cmdId : BitVec 32
  patternId : BitVec 32
  status : BitVec 8
  domain : Fin 4
  digest : BitVec 128
  tick : BitVec 48
  deriving DecidableEq, Repr

/-- A DIGEST (R297, R539). -/
structure DigestMsg where
  addr : BitVec 20
  region : BitVec 6
  epoch : BitVec 32
  tick : BitVec 48
  lines : BitVec 48
  digest : BitVec 128
  deriving DecidableEq, Repr

/-- A signed Bugle command (R665): the CMD, the key that signed it, its last tick; `good`: the signature verifies under the
public key of that key_id. `raw` is the command from byte 4 on, as it was signed and is sent on. -/
structure BugleMsg where
  hdr : CmdHdr
  body : CmdBody
  key : Word
  notAfter : BitVec 48
  good : Bool
  raw : List Byte
  deriving DecidableEq, Repr

/-- A message that travels in flits on a Fife or Horn link (R296, R465). -/
inductive Msg where
  | frame (addr : BitVec 20) (bytes : List Byte)
  | trace (addr : BitVec 20) (seq : BitVec 32) (hi : BitVec 16) (recs : List TraceRec)
  | tailDump (addr : BitVec 20) (t : TailImage)
  | cmd (h : CmdHdr) (b : CmdBody)
  | cmdAck (m : CmdAckMsg)
  | sync (m : SyncMsg)
  | delayReq (m : DelayReqMsg)
  | delayResp (m : DelayRespMsg)
  | enumReq (addr : BitVec 20)
  | enumResp (e : EnumInfo)
  | regRd (r : RegReq)
  | regWr (r : RegReq)
  | regRdResp (r : RegResp)
  | regWrResp (r : RegResp)
  | patternResult (m : PatternResultMsg)
  | digest (m : DigestMsg)
  | sleepPropose (phase target : BitVec 8) (tick : BitVec 48)
  | sleepAgree (addr : BitVec 20) (refuse : Bool) (sources : BitVec 8) (tick : BitVec 48)
  | wake (addr : BitVec 20) (sources : BitVec 8) (tick : BitVec 48)
  | horn (bytes : List Byte)
  | bugle (b : BugleMsg)
  deriving DecidableEq, Repr

/-- A flit as its link layer sees it (R271): header fields, whether its CRC holds, and whether it is stomped (R274). -/
structure Flit where
  ftype : BitVec 2
  vc : Fin 4
  sop : Bool
  eop : Bool
  crVc : Fin 4
  crCnt : BitVec 16
  nak : Bool
  gc : Bool
  ack : BitVec 16
  seq : BitVec 16
  crcOk : Bool
  stomped : Bool
  deriving DecidableEq, Repr

/-- Where a timed message arrives: a KTU (SYNC from upstream, DELAY_REQ from downstream), or a Fife or Horn port of
Naloder. -/
inductive TimeSite where
  | ktu
  | fife (p : Fin 16)
  | horn (p : Fin 8)
  deriving DecidableEq, Repr

/-- What a software write of the tick source names: KTU_TIME_SEL.tick_src, or NLD_TDd_SRC whole. -/
inductive TickSrc where
  | ktu (w : Writer) (src : Fin 4)
  | nld (d : Fin 8) (word : BitVec 12)
  deriving DecidableEq, Repr

/-- What one host_clkd edge presents on the tap ports of a domain (R137, R141, R144, R147). -/
structure TapSample where
  evt : BitVec 256
  occ : List (BitVec 16)
  ret : List (BitVec 6)
  waste : List (BitVec 6)
  sfe : List (BitVec 6)
  sbe : List (BitVec 6)
  util : BitVec 16
  err : BitVec 16
  deriving DecidableEq, Repr

/-- A counter of a KTU (R142, R144, R147). -/
inductive CounterRef where
  | util (k : Fin 64)
  | error (k : Fin 64)
  | pmu (i : Fin 256) (c : Fin 9)
  | slot (g : Fin 32) (c : Fin 7)
  deriving DecidableEq, Repr

/-! ### What model programs are made of (R427 to R436) -/

/-- The modes of R380. -/
inductive ArrMode where
  | fp8
  | int8
  | int4
  | t2
  | b1
  | bf16
  deriving DecidableEq, Repr

/-- The operations of ELEM (R434). -/
inductive ElemOp where
  | add
  | sub
  | mul
  | min
  | max
  | abs
  | shift (by_ : Int)
  | selectStatus
  | selectMask
  | convert
  | extract (hi lo : Nat)
  | lookup (table : Nat)
  deriving DecidableEq, Repr

/-- The statistics of WSTAT (R434). -/
inductive WStat where
  | sum
  | mean
  | min
  | max
  | countNonzero
  | lastNonzero
  | median
  | raw
  deriving DecidableEq, Repr

/-- The comparisons of CMP (R434). -/
inductive CmpOp where
  | gt
  | ge
  | eq
  | crossing
  deriving DecidableEq, Repr

/-- The parameters of an op (R434). The spec gives their meaning and not their places in bytes 10 to 31 of the
descriptor, so whoever sends the command says what they are. -/
inductive OpParams where
  | gemm (mode : ArrMode) (outFmt arrays : Nat)
  | conv (mode : ArrMode) (outFmt arrays width stride dilation : Nat)
  | elem (op : ElemOp)
  | norm (medianMad : Bool) (row aux : Nat)
  | softmax (row : Nat)
  | wstat (binding window : Nat) (stat : WStat)
  | gather (again : Bool) (binding : Nat)
  | tree (ensemble samples status : Nat) (fromHbm toHbm : Bool)
  | reduce (output base : Nat) (byRank : Bool)
  | cmp (op : CmpOp) (imm : Option Int)
  | emit (kind stype subject mask score arg0 arg1 : Nat)
  | copy (fromHbm : Bool) (cursor : Nat)
  | tap (binding : Nat)
  | bar
  | stop
  deriving DecidableEq, Repr

/-- The kinds of run (R433). -/
inductive RunKind where
  | sealed
  | provisional
  | fleetStage
  deriving DecidableEq, Repr

/-- What goes wrong in the arrays during a run (R395, R396): in an op of a logical cluster's schedule, for an output tile and
column, a weight parity error in the pass of the chunk that holds a row, or an uncorrectable accumulator error of that row. -/
structure ArrFault where
  cluster : Fin 10
  op : Nat
  array : Fin 4
  row : Nat
  ntile : Nat
  column : Fin 128
  acc : Bool
  deriving DecidableEq, Repr

/-- What a host ring's descriptor starts with (R571): the function and ring it came by, its slot, generation, tag and
irq flag. -/
structure DescHdr where
  fn : Fin 17
  ring : Fin 32
  slot : Nat
  gen : BitVec 16
  tag : BitVec 32
  irq : Bool
  deriving DecidableEq, Repr

/-- A descriptor as the queue engine reads it from a ring (R571). -/
structure FetchedDesc where
  opcode : BitVec 8
  gen : BitVec 16
  tag : BitVec 32
  irq : Bool
  deriving DecidableEq, Repr

/-- What a poll finds of one ring (R568, R569): the host's index words, and the descriptors posted, in slot order. -/
structure RingPoll where
  ring : Fin 32
  subProd : Word
  compCons : Word
  dataCons : Word
  descs : List FetchedDesc
  deriving DecidableEq, Repr

/-- What a poll finds of one function. -/
structure FnPoll where
  fn : Fin 17
  rings : List RingPoll
  deriving DecidableEq, Repr

/-- The fields of a bulk codec descriptor (R260, R580) with the input it reads; `poisonAt` the input byte that carries the
poison tag. -/
structure BulkOperands where
  cont : Bool
  input : List Byte
  poisonAt : Option Nat
  dst : Nat
  origLen : Nat
  dstLen : Nat
  crcState : Word
  table : Fin 16
  gen : BitVec 16
  deriving DecidableEq, Repr

/-- A read of host memory that is poisoned or times out (R566): of a doorbell page, a descriptor, a command's operand buffer,
a content-tap sequence, or the input of the job on a bulk lane. -/
inductive HostReadFault where
  | doorbell (fn : Fin 17)
  | descriptor (h : DescHdr)
  | operands (h : DescHdr)
  | sequence (h : DescHdr) (tap : Fin 16) (seq : BitVec 28) (bytes : List Byte)
  | bulkInput (lane : Fin 2) (at_ : Nat)
  deriving DecidableEq, Repr

/-- Where a message of the group exchange arrives: a Horn port, or a queue pair of a peer root (R464, R613). -/
inductive Site where
  | horn (p : Fin 8)
  | qp (q : Fin 4096)
  deriving DecidableEq, Repr

/-- A clear token (R660): its 136 bytes; `good`: its signature verifies under the public key of its key_id. -/
structure ClearToken where
  bytes : List Byte
  good : Bool
  deriving DecidableEq, Repr

/-- An enrolment or revocation blob (R664). `shape`: its magic and version are right. -/
structure EnrolBlob where
  shape : Bool
  serial : BitVec 64
  nonce : BitVec 128
  revoke : Bool
  key : Word
  owner : BitVec 5
  uses : BitVec 8
  signer : Word
  good : Bool
  deriving DecidableEq, Repr

/-- A provisioning bundle (R669): the serial and the first *fleet* key it names, and the Carivo key that signed it. -/
structure ProvBundle where
  shape : Bool
  serial : BitVec 64
  key : Word
  carivo : Fin 8
  keyOk : Bool
  good : Bool
  deriving DecidableEq, Repr

/-- A request of NLD_SEC_REQ_CMD (R668, R669, R671). A chain names the enrolled root it leads to. -/
inductive SecRequest where
  | attest (nonce : BitVec 256)
  | enrol (b : EnrolBlob)
  | bundle (b : ProvBundle)
  | generate
  | chain (root : Word) (good : Bool)
  deriving DecidableEq, Repr

/-- A KEYX (R609, R610): `shape`: its body is well formed; `root` the root its chain leads to, `names` whom its certificate
names, `good`: chain and signature verify. `answer` is the role, `share` the public key. -/
structure KeyxMsg where
  shape : Bool
  answer : Bool
  gen : BitVec 16
  qpn : BitVec 24
  switchPsn : BitVec 24
  nonce : BitVec 256
  share : Nat
  root : Word
  names : Nat
  good : Bool
  deriving DecidableEq, Repr

/-- A control image as a load reads it (R627, R628): its 64-byte header, the manifest's words, what the checks of the read, the
key and the signature find, and the SHA-384 digest of its bytes. -/
structure FwBlob where
  header : List Byte
  manifest : List Word
  readOk : Bool
  keyIndex : Fin 8
  keyOk : Bool
  signOk : Bool
  digest : List Byte
  deriving DecidableEq, Repr

/-- The negative acknowledgements of R593. -/
inductive NakCode where
  | sequence
  | invalid
  | remoteOp
  deriving DecidableEq, Repr

/-- A SEND packet as it is received (R593, R606): `tagOk`: its tag verifies under the keys of its PSN; `ce`: it is marked CE;
`bytes` its payload in the clear. -/
structure SendPkt where
  psn : BitVec 24
  first : Bool
  last : Bool
  sealed : Bool
  tagOk : Bool
  ce : Bool
  bytes : List Byte
  deriving DecidableEq, Repr

/-- A RoCEv2 packet (R593, R594). `other`: an unsupported opcode, or a packet with a RETH or AtomicETH. -/
inductive RocePkt where
  | send (p : SendPkt)
  | ack (psn : BitVec 24)
  | rnrNak (psn : BitVec 24)
  | nak (psn : BitVec 24) (code : NakCode)
  | cnp
  | other (psn : BitVec 24)
  deriving DecidableEq, Repr

/-- What an uncorrectable HBM granule held (R325, R326): nothing the model keeps, some series of a tick's position record in
the tick store, a tier-0 segment of a context's history, a granule of the model pool by its number, or a staged sequence by its
order. -/
inductive HbmHit where
  | other
  | tick (t pos : Nat) (series : List Nat)
  | history (ctx seg : Nat)
  | pool (granule : Nat)
  | staged (order : Nat)
  deriving DecidableEq, Repr

/-- How a boot stage ends (R335): well, or with a fail code of R338. -/
inductive StageEnd where
  | ok
  | failed (code : BitVec 8)
  deriving DecidableEq, Repr

/-- The reference clocks of the ports (R697). -/
inductive PortRef where
  | pcie
  | eth
  | horn
  | fife
  deriving DecidableEq, Repr

/-- Where a correctable error of Naloder is corrected (R702). -/
inductive NldMem where
  | sram
  | network
  | hbm
  deriving DecidableEq, Repr

/-- A tensor of a self-check vector (R552): format, binary point, columns, and each element's bits, status and poison tag. -/
structure VecTensor where
  fmt : Nat
  bp : Nat
  cols : Nat
  elems : List (Nat × Nat × Bool)
  deriving DecidableEq, Repr

/-- A self-check vector (R552): the op, its operands, format, binary point and columns of its destination, and its stored set
digest. -/
structure VecOp where
  params : OpParams
  srcs : List VecTensor
  fmt : Nat
  bp : Nat
  cols : Nat
  digest : BitVec 128
  deriving DecidableEq, Repr

/-- A signed vector set (R552): the key that signed it, whether the signature verifies, the set's four digest keys, its
vectors. -/
structure VecSet where
  key : Word
  good : Bool
  keys : List (BitVec 64)
  vectors : List VecOp
  deriving DecidableEq, Repr

/-- What a VOTE command asks (R542): to write a slot, its replicas as addresses and regions, or to arm a round. -/
inductive VoteOp where
  | slot (owner : Fin 17) (slot : BitVec 8) (replicas : List (BitVec 20 × BitVec 6)) (expel : Bool)
  | round (owner : Fin 17) (slot : BitVec 8) (epoch : BitVec 32) (tick : BitVec 48)
  deriving DecidableEq, Repr

/-- A staged word of the position table (R353, R376): position, word 0 to 32, value. -/
structure TrackWord where
  pos : Fin 512
  word : Fin 33
  value : Word
  deriving DecidableEq, Repr

/-- What every IEEE 1588 message carries (R93): transport (0 UDP over IPv4, 1 UDP over IPv6, 2 IEEE 802.3), domain number, the
sender's port identity and address, sequence number, and correction in 2^-16 ns. -/
structure PtpHdr where
  transport : Fin 3
  domain : BitVec 8
  clock : BitVec 64
  port : BitVec 16
  source : BitVec 128
  seq : BitVec 16
  corr : Int
  deriving DecidableEq, Repr

/-- The IEEE 1588 messages a port takes (R93), with their timestamps in ns. `mine`: a Delay_Resp that names this port as the
requester. -/
inductive PtpBody where
  | sync (twoStep : Bool) (origin : Nat)
  | followUp (precise : Nat)
  | delayReq
  | delayResp (received : Nat) (mine : Bool)
  | announce
  | other
  deriving DecidableEq, Repr

/-- The IEEE 1588 messages a port sends at its intervals (R93). -/
inductive PtpSend where
  | sync
  | announce
  | delayReq
  deriving DecidableEq, Repr

/-- A register read: through the KTU's local port under an owner (R110), or through a function's BAR0 of Naloder (R591). -/
inductive RegRead where
  | ktu (owner : Fin 16) (offset : BitVec 16)
  | nld (fn : Fin 17) (offset : BitVec 24)
  deriving DecidableEq, Repr

/-- A register write: through the KTU's local port, through a function's BAR0 of Naloder with all byte enables or not (R691), or by
the control firmware. -/
inductive RegWrite where
  | ktu (owner : Fin 16) (offset : BitVec 16) (v : Word)
  | nld (fn : Fin 17) (offset : BitVec 24) (v : Word) (full : Bool)
  | firmware (offset : BitVec 24) (v : Word)
  deriving DecidableEq, Repr

/-- A queue by its ID (R229, R230). -/
inductive QueueRef where
  | ktu (id : Fin 64)
  | nld (id : BitVec 16)
  deriving DecidableEq, Repr

/-- A reduction output that a full summary declares (R488). -/
structure OutDecl where
  owner : Nat
  output : Nat
  op : Nat
  bp : Nat
  cols : Nat
  image : Nat
  size : Nat
  deriving DecidableEq, Repr

end Sys2Proof
end

