-- ==== Sys2Proof/Syntax.lean ====
section
/-! DEFINITION. The commands of the block: one constructor for each row of spec/opcode_table.json. -/

namespace Sys2Proof

/-- One constructor for each row of the operation table. -/
inductive Instr where
  /-- TICK_FIRE: A KTU fires a tick when its tick-source time base crosses a boundary, snapshots its counters, applies staged changes and starts coding the frame (R21) -/
  | tickFire
  /-- FRAME_CODED: The coder finishes the frame and places it in the frame store for sending (R255) -/
  | frameCoded (ue : List (Fin 1024))
  /-- KTU_TICK_RUN: A write of KTU_TICK_CTRL.run starts or stops a KTU's tick firing and forgets the last tick fired on a rise (R24) -/
  | ktuTickRun (w : Writer) (v : Bool)
  /-- KTU_TICK_PERIOD_WRITE: A write of KTU_TICK_PERIOD takes effect, or is ignored and sets period_wr_ignored when run = 1 or out of range (R68) -/
  | ktuTickPeriodWrite (w : Writer) (us : BitVec 16)
  /-- NLD_TICK_RUN: A write of NLD_TICK_CTRL.run validates set points and windows on a rise, or abandons open ticks on a fall (R61) -/
  | nldTickRun (v : Bool)
  /-- TICK_SETPOINT_WRITE: A write of the period or of P, L, G or S is applied, or ignored with cfg_refused while run = 1 (R63) -/
  | tickSetpointWrite (i : Fin 5) (us : BitVec 18)
  /-- TICK_OPEN: Naloder opens a tick when time domain 0 reaches its boundary, fixing its expected set and arming the seal objects (R27) -/
  | tickOpen
  /-- PROVISIONAL_POINT: At T + P the coverage is frozen and provisional runs become due (R45) -/
  | provisionalPoint (t : BitVec 48)
  /-- TRAY_SEAL: At T + L the tray seal marks missing frames absent, updates liveness, checks overrun and sends the PARTIAL to both parents (R39) -/
  | traySeal (t : BitVec 48)
  /-- GROUP_SEAL: At T + G the group root closes the tray set, marks absent trays and completes and sends the group summary (R41) -/
  | groupSeal (t : BitVec 48)
  /-- FLEET_SEAL: At T + S each group root closes the group set and completes the fleet-sealed view (R42) -/
  | fleetSeal (t : BitVec 48)
  /-- FRAME: A FRAME message taken whole passes the ingest steps and is merged, or discarded and counted (R342) -/
  | frame (p : Fin 16) (bytes : List Byte) (poisoned : Bool) (lag : Nat)
  /-- SEAL_DRAIN_END: When every frame that arrived before the seal edge has left the pipeline the presence map closes and the sweep starts (R345) -/
  | sealDrainEnd (t : BitVec 48) (ns : Nat)
  /-- SEAL_SWEEP_END: The seal sweep completes and the tick's sealed runs may start (R356) -/
  | sealSweepEnd (t : BitVec 48) (ns : Nat)
  /-- HISTORY_COMPRESS_DONE: The history compressor finishes coding the closed staging side into the context areas (R365) -/
  | historyCompressDone
  /-- PROVISIONAL_DRAIN_END: Frames that arrived before T + P are merged and the provisional runs may start (R346) -/
  | provisionalDrainEnd (t : BitVec 48)
  /-- SYNC_SEND: A Naloder port sends SYNC each time domain 0 passes a multiple of the sync interval (R75) -/
  | syncSend (l : LinkId)
  /-- SYNC: A received SYNC is forwarded as a transparent clock and yields an offset sample for the servo (R79) -/
  | sync (site : TimeSite) (m : SyncMsg) (dt residence : Nat)
  /-- DELAY_REQ_SEND: A KTU base sends a DELAY_REQ on its scheduled instant each interval (R78) -/
  | delayReqSend (b : TbId) (dt : Nat)
  /-- DOMAIN_DELAY_REQ_SEND: A Naloder domain disciplined over Horn or Ezcia sends a DELAY_REQ on its 100 µs schedule (R727) -/
  | domainDelayReqSend (d : Fin 8) (dt : Nat)
  /-- DELAY_REQ: A master port receives a DELAY_REQ, records its state report and answers with DELAY_RESP (R75) -/
  | delayReq (site : TimeSite) (m : DelayReqMsg) (dt residence : Nat)
  /-- DELAY_RESP: A received DELAY_RESP forms a delay sample that updates d_filt through the gate (R79) -/
  | delayResp (site : TimeSite) (m : DelayRespMsg)
  /-- DELAY_REQ_TIMEOUT: A DELAY_REQ without a matching DELAY_RESP within four sync intervals is dropped (R79) -/
  | delayReqTimeout (c : ClockId) (seq : BitVec 16) (second : Bool)
  /-- DELAY_VALID_EXPIRY: d_filt without update for 64 sync intervals clears delay_valid (R79) -/
  | delayValidExpiry (c : ClockId) (second : Bool)
  /-- HOLDOVER_TIMEOUT: No accepted sample for 8 sync intervals takes a Converging or Locked base to Holdover (R82) -/
  | holdoverTimeout (c : ClockId)
  /-- REVERT_TIMER: With revertive set, the original source Locked for 1 s after a switch causes a switch back (R92) -/
  | revertTimer (d : Option (Fin 8))
  /-- TIME_BASE_HOLD: A write of the hold bit takes a Converging or Locked base to Holdover on the next edge (R82) -/
  | timeBaseHold (c : ClockWrite) (v : Bool)
  /-- TIME_BASE_ENABLE: A write of the enable bit to 0 returns a base or domain to Free (R82) -/
  | timeBaseEnable (c : ClockWrite) (v : Bool)
  /-- STEP_APPLY: A write of STEP_CMD.apply schedules a step of STEP_AMT at STEP_AT (R85) -/
  | stepApply (c : ClockWrite)
  /-- STEP_ACCEPT_PENDING: A write of STEP_CMD.accept_pending schedules a step of the negated pending offset, or is ignored (R85) -/
  | stepAcceptPending (c : ClockWrite)
  /-- STEP_ACT: A scheduled step is applied when the base reads at least STEP_AT, with tick effects under R87 (R85) -/
  | stepAct (c : ClockId)
  /-- TICK_SRC_WRITE: A software write of tick_src or NLD_TDd_SRC switches the tick source seamlessly (R91) -/
  | tickSrcWrite (t : TickSrc)
  /-- PTP_MESSAGE: An IEEE 1588 message on an Ethernet port is timestamped and yields a sample for its bound domain (R93) -/
  | ptpMessage (e : Fin 2) (h : PtpHdr) (b : PtpBody) (dt : Nat)
  /-- TS_CAP: A rising edge on ts_cap captures both time bases and raises ts_val (R126) -/
  | tsCap (d : Fin 4)
  /-- KTU_POR_ASSERT: Asserting ktu_por_n resets the whole macro and breaks the chain downstream (R103) -/
  | ktuPorAssert
  /-- KTU_POR_DEASSERT: Deasserting ktu_por_n captures straps, clears SRAM and locks the PHY PLLs (R130) -/
  | ktuPorDeassert (straps : Straps) (clockRan : Bool)
  /-- KTU_READY: Internal initialisation completes and ktu_ready rises (R130) -/
  | ktuReady
  /-- HOST_DOMAIN_CHANGE: A change of host_dom_rst_n or host_dom_pgood masks or unmasks a domain, counts, emits a context record and may freeze Tail rings (R117) -/
  | hostDomainChange (d : Fin 4) (rst pg : Bool)
  /-- UNIT_STAT_UPDATE: A unit status update sets a host unit present or not and may freeze its Tail ring (R119) -/
  | unitStatUpdate (u : Fin 2048) (present : Bool)
  /-- HOST_WAKE_REQ: A rising host_wake_req sets the wake latch and forces exit from L0q or L1 (R121) -/
  | hostWakeReq (d : Fin 4)
  /-- HOST_ALARM: A rising host_alarm line makes the KTU originate an ALARM of kind 0 (R113) -/
  | hostAlarm (d : Fin 4) (code : BitVec 8)
  /-- ABORT_ACK: A rising ktu_abort_ack lowers ktu_abort and clears ktu_abort_part (R114) -/
  | abortAck
  /-- ABORT_ACK_FALL: A falling ktu_abort_ack releases a held abort onto ktu_abort (R114) -/
  | abortAckFall
  /-- ABORT_FORCE_CLEAR: A fleet write of KTU_ABORT.force_clear lowers ktu_abort without acknowledgement (R135) -/
  | abortForceClear (w : Writer)
  /-- TAIL_EVENT: A Tail event word is taken into its domain queue and stored as a ring record (R170) -/
  | tailEvent (d : Fin 4) (word : BitVec 64) (edges : Nat)
  /-- TAIL_FREEZE: KTU_TAIL_CMD op freeze freezes the named rings with cause 6 (R175) -/
  | tailFreeze (w : Writer) (first last : Fin 2048)
  /-- TAIL_RELEASE: KTU_TAIL_CMD op release clears frozen, cause and lost of the named rings (R175) -/
  | tailRelease (w : Writer) (first last : Fin 2048)
  /-- TAIL_CLEAR: KTU_TAIL_CMD op clear empties the named rings (R175) -/
  | tailClear (w : Writer) (first last : Fin 2048)
  /-- TAIL_ECC_UE: An uncorrectable ring SRAM error zeroes the damaged record or empties the ring and sets ue (R180) -/
  | tailEccUe (u : Fin 2048) (slot : Option (Fin 32))
  /-- TRACE_RECORD: A trace record from a host source enters its input queue, or is dropped when the queue is full (R181) -/
  | traceRecord (s : Fin 16) (payload : BitVec 64) (prio : Fin 4) (ctx : Bool)
  /-- TRACE_FUNNEL_ADMIT: The arbiter moves one record per edge into the funnel buffer under the priority thresholds, dropping refused records (R184) -/
  | traceFunnelAdmit
  /-- TRACE_RESYNC_TIMER: Every resync interval an owner resync record is emitted for every enabled source (R183) -/
  | traceResyncTimer
  /-- TRACE_RESYNC_CMD: KTU_TRC_CMD.resync emits an owner resync for every enabled source (R183) -/
  | traceResyncCmd (w : Writer)
  /-- FUNNEL_ECC_UE: An uncorrectable funnel error drops the record and forces a resync (R189) -/
  | funnelEccUe (i : Fin 4096)
  /-- BREAKPOINT: A rising dbg_bkpt computes H, halts the core locally and sends a halt ALARM (R192) -/
  | breakpoint (c : Fin 8)
  /-- HALT_REQ: A write of KTU_HALT_CMD.req starts a halt of the reg_owner scope (R192) -/
  | haltReq (w : Writer)
  /-- DRAIN_COMPLETE: When every participating core is halted and domain drained the context enters Halted and sends its CMD_ACK (R198) -/
  | drainComplete (halted : BitVec 8) (drained : BitVec 4)
  /-- HALT_TIMEOUT: The halt timeout takes Halting to Incomplete, or ends Resuming with resume_incomplete (R198) -/
  | haltTimeout (scope : Fin 17)
  /-- RESUME_COMPLETE: When every participating dbg_halted falls the Resuming context returns to Idle (R198) -/
  | resumeComplete (halted : BitVec 8)
  /-- QUEUE_FLUSH: A KTU_QFLUSH request flushes the named queue at its next packet boundary (R214) -/
  | queueFlush (w : Writer) (id : Fin 64)
  /-- QUEUE_CHECK_FAILURE: A pointer or occupancy mismatch starts a check reset that discards the queue's entries (R217) -/
  | queueCheckFailure (q : QueueRef)
  /-- PMU_CLEAR: KTU_PMUi_CMD.clear stages a clear of the instance at the next boundary (R160) -/
  | pmuClear (w : Writer) (i : Fin 256)
  /-- COUNTER_ECC_UE: An uncorrectable counter storage error zeroes the counter and base and poisons its series in the next frame (R162) -/
  | counterEccUe (c : CounterRef)
  /-- TABLE_LOAD: A TABLE_LOAD command stages a dynamic code table, or is refused with status 1 (R246) -/
  | tableLoad (h : CmdHdr) (p : TableLoad)
  /-- TAIL_DUMP: A TAIL_DUMP command queues a dump of a range of rings as TAILDUMP messages (R177) -/
  | tailDump (h : CmdHdr) (first last : BitVec 16) (frozenOnly release freeze : Bool)
  /-- RESEND: A RESEND command sends again every frame of the range still in the frame store (R302) -/
  | resend (h : CmdHdr) (first last : BitVec 48)
  /-- HALT: A HALT command takes a halt request at tick H into the scope's context (R195) -/
  | halt (h : CmdHdr) (scope : BitVec 8) (t : BitVec 48)
  /-- RESUME: A RESUME command sets the resume tick R of a scope's halt context (R199) -/
  | resume (h : CmdHdr) (scope : BitVec 8) (t : BitVec 48)
  /-- TIME_STEP: A TIME_STEP command schedules a step of base A or B (R85) -/
  | timeStep (h : CmdHdr) (bases : BitVec 2) (accept : Bool) (amount : BitVec 48) (at_ : BitVec 64)
  /-- PATTERN_RUN: A PATTERN_RUN command queues a pattern run, or is refused or answered busy (R548) -/
  | patternRun (h : CmdHdr) (p : PatternRun)
  /-- DIGEST_OPEN: DIGEST_CTRL op open opens a digest epoch at the next tick, or is refused (R537) -/
  | digestOpen (h : CmdHdr) (p : DigestOpen)
  /-- DIGEST_ABANDON: DIGEST_CTRL op abandon discards a pending or open epoch without a DIGEST (R537) -/
  | digestAbandon (h : CmdHdr) (r : BitVec 8) (z : Bool)
  /-- SLOT_ASSIGN: A SLOT_ASSIGN command stages the number of frame slots into KTU_FIFE_ALLOW.slots (R299) -/
  | slotAssign (h : CmdHdr) (slots : BitVec 8)
  /-- DIGEST_LINE: A line on a digest tap is hashed into its region's open epoch, or counted as idle (R538) -/
  | digestLine (tap : Fin 4) (r : BitVec 6) (offset : BitVec 48) (data : BitVec 512)
  /-- PATTERN_RESPONSE: A pattern response enters the result digest and the next command word is issued, or the run ends (R549) -/
  | patternResponse (rsp : BitVec 64)
  /-- PATTERN_WORD_TIMEOUT: No response within word_timeout_us ends the run with status refused by the hook (R550) -/
  | patternWordTimeout
  /-- SIGNAL_DETECT: Signal detect takes a Down link end into Training (R277) -/
  | signalDetect (l : LinkId)
  /-- LINK_UP: Exchange of link-up records makes a Fife link Active, resuming or resetting link state (R270) -/
  | linkUp (l : LinkId) (partnerNext : BitVec 8) (resume : Bool)
  /-- TRAINING_TIMEOUT: 1 ms in Training without link-up takes the link end to Down (R277) -/
  | trainingTimeout (l : LinkId)
  /-- RETRAIN_TIMEOUT: A Retrain not complete within 1 ms takes the link to Reset (R277) -/
  | retrainTimeout (l : LinkId)
  /-- RESET_SLOT_END: After one block slot of idle in Reset the link state is cleared and the link enters Training (R279) -/
  | resetSlotEnd (l : LinkId)
  /-- LOSS_OF_SIGNAL: Electrical idle or no block lock on both lanes for 1 µs takes the link to Down (R279) -/
  | lossOfSignal (l : LinkId)
  /-- HI_BER: The BER monitor sets hi_ber and an Active link enters Retrain (R267) -/
  | hiBer (l : LinkId)
  /-- FLIT_RECEIVE: A received Fife flit is accepted, discarded with a NAK, or discarded as stomped or replayed, and its ack, nak and credit fields are used (R275) -/
  | flitReceive (l : LinkId) (f : Flit) (m : Option Msg)
  /-- ACK_TIMEOUT: 0.5 µs without ack progress starts a replay and a retry episode (R276) -/
  | ackTimeout (l : LinkId)
  /-- NAK_RESEND_TIMEOUT: 0.5 µs without the expected flit after a NAK sends the NAK again (R275) -/
  | nakResendTimeout (l : LinkId)
  /-- RETRY_EPISODE_TIMEOUT: A retry episode reaching 2 µs or a ninth replay takes the link to Retrain (R276) -/
  | retryEpisodeTimeout (l : LinkId)
  /-- CONTROL_FLIT_TIMER: A transmitter with no data flit sends a control flit at least every 1 µs (R273) -/
  | controlFlitTimer (l : LinkId)
  /-- TRAINING_PAIR: Training pairs received on an Active link start a Retrain (R277) -/
  | trainingPair (l : LinkId)
  /-- ALARM: An arriving alarm pair is checked and de-duplicated, acted on if new, and forwarded or fanned out (R285) -/
  | alarm (l : LinkId) (pair : BitVec 112)
  /-- ALARM_REPEAT: An alarm unit sends an ALARM it originated again at 10 µs and 20 µs (R521) -/
  | alarmRepeat
  /-- LINK_STATE_PAIR: A received enter or stay pair puts the link into the target power state or returns it and the chain to L0 (R309) -/
  | linkStatePair (l : LinkId) (code : Fin 3)
  /-- ENUM: A KTU receiving ENUM takes its address, answers, resends stored frames and enumerates downstream (R291) -/
  | enum (addr : BitVec 20)
  /-- ENUM_RESPONSE: Naloder records an ENUM response in its position table and may remove positions from the expected set (R293) -/
  | enumResponse (p : Fin 16) (e : EnumInfo)
  /-- TRACE: Naloder receives a TRACE message and delivers its records to subscribers of their owners (R187) -/
  | trace (addr : BitVec 20) (seq : Word) (recs : List TraceRec)
  /-- TAILDUMP: Naloder receives a TAILDUMP and delivers it to subscribers of the block's owner (R178) -/
  | taildump (addr : BitVec 20) (t : TailImage) (owner : Fin 17)
  /-- CMD_ACK: Naloder receives a CMD_ACK and completes the requesting command or gathers a halt report (R302) -/
  | cmdAck (p : Fin 16) (m : CmdAckMsg)
  /-- REG_RD: A REG_RD reads 1 to 8 words in one cycle under owner checks and returns a response (R303) -/
  | regRd (r : RegReq)
  /-- REG_WR: A REG_WR writes 1 to 8 words in one cycle under owner checks and returns a refusal mask (R303) -/
  | regWr (r : RegReq)
  /-- REQUEST_TIMEOUT: A CMD, REG_RD or REG_WR without response within 100 µs completes with a timeout status (R304) -/
  | requestTimeout (reg : Bool) (p : Fin 16) (id : Word) (addr : BitVec 20)
  /-- SLEEP_GO: A write of NLD_FIFEp_SLEEP.go proposes a link power state at the next tick (R307) -/
  | sleepGo (p : Fin 16) (target : Fin 4)
  /-- SLEEP_PROPOSE: A KTU receiving SLEEP_PROPOSE agrees, refuses, holds the commit or cancels by phase (R307) -/
  | sleepPropose (phase target : BitVec 8) (tick : BitVec 48)
  /-- SLEEP_AGREE: Naloder records a KTU's agreement or refusal to sleep (R307) -/
  | sleepAgree (p : Fin 16) (addr : BitVec 20) (refuse : Bool) (tick : BitVec 48)
  /-- SLEEP_DECISION: At T(n) + 50 µs Naloder sends commit if every position agreed and no WAKE arrived, and cancel otherwise (R307) -/
  | sleepDecision (p : Fin 16)
  /-- WAKE: Naloder receives a WAKE, records its sender and sources and cancels a pending proposal (R309) -/
  | wake (p : Fin 16) (addr : BitVec 20) (sources : BitVec 8) (tick : BitVec 48)
  /-- FIFE_UP_RESET: KTU_FIFE_CTRL.up_reset resets the upstream link (R313) -/
  | fifeUpReset (w : Writer)
  /-- FIFE_DN_RESET: KTU_FIFE_CTRL.dn_reset resets the downstream link (R313) -/
  | fifeDnReset (w : Writer)
  /-- FIFE_UP_RETRAIN: KTU_FIFE_CTRL.up_retrain retrains the upstream link (R313) -/
  | fifeUpRetrain (w : Writer)
  /-- FIFE_DN_RETRAIN: KTU_FIFE_CTRL.dn_retrain retrains the downstream link (R313) -/
  | fifeDnRetrain (w : Writer)
  /-- FIFE_WAKE: KTU_FIFE_CTRL.wake raises a one-time wake source (R306) -/
  | fifeWake (w : Writer)
  /-- FIFE_DN_ENABLE: A write of KTU_FIFE_CTRL.dn_enable holds the downstream link in Down or releases it (R313) -/
  | fifeDnEnable (w : Writer) (v : Bool)
  /-- NLD_FIFE_RESET: NLD_FIFEp_CTRL.reset resets a Naloder Fife link (R315) -/
  | nldFifeReset (p : Fin 16)
  /-- NLD_FIFE_RETRAIN: NLD_FIFEp_CTRL.retrain retrains a Naloder Fife link (R315) -/
  | nldFifeRetrain (p : Fin 16)
  /-- NLD_FIFE_WAKE: NLD_FIFEp_CTRL.wake returns a chain to L0 (R309) -/
  | nldFifeWake (p : Fin 16)
  /-- NLD_FIFE_ENABLE: A write of NLD_FIFEp_CTRL.enable holds a Fife port in Down or releases it (R315) -/
  | nldFifeEnable (p : Fin 16) (v : Bool)
  /-- D2D_REPLAY_LIMIT: Eight failed replays or 1 µs of replay delivers the die-to-die transfer poisoned (R323) -/
  | d2dReplayLimit
  /-- POWER_EVALUATION: Every 10 µs the power controller raises or lowers the throttle level (R333) -/
  | powerEvaluation (watts tj : Nat)
  /-- DROOP_TRIP: The droop detector raises the throttle level by 2 at once (R333) -/
  | droopTrip
  /-- THERMAL_TRIP: A junction at 115 °C writes a trip record and stops the package clocks (R334) -/
  | thermalTrip (sensor temp : BitVec 8)
  /-- NLD_POR: Deasserting nld_por_n starts the boot sequence at stage 0 (R335) -/
  | nldPor
  /-- BOOT_STAGE_COMPLETE: A boot stage completes and the sequence moves to the next stage, or stops in stage 14 or 15 (R335) -/
  | bootStageComplete (e : StageEnd)
  /-- HBM_UE: An uncorrectable HBM error returns poisoned data and the scrubber marks the granule (R325) -/
  | hbmUe (addr : BitVec 37) (hit : HbmHit)
  /-- SCRUB_PASS_COMPLETE: The patrol scrubber completes a pass over HBM (R325) -/
  | scrubPassComplete
  /-- OWN_MAP_ARM: NLD_ING_OWN_CMD.arm arms the staged owner map of a position (R350) -/
  | ownMapArm (pos : Fin 512)
  /-- POSITION_TABLE_COMMIT: NLD_SER_POS_CMD.commit checks the staged position table and commits it for the next seal, or refuses it (R353) -/
  | positionTableCommit
  /-- CTX_CFG_APPLY: NLD_SER_CTX_CFG.go applies bp and k to a context from the next sweep (R361) -/
  | ctxCfgApply (c : BitVec 18) (bp : BitVec 7) (k : BitVec 4)
  /-- CTX_EPOCH_START: NLD_SER_CTX_CFG.epoch starts a statistics epoch of a context at the next sweep (R361) -/
  | ctxEpochStart (c : BitVec 18)
  /-- CODEC_TABLE_COMMIT: NLD_CODEC_TBL_CMD.commit validates staged lengths and installs a new table generation (R265) -/
  | codecTableCommit (t : Fin 16) (gen : BitVec 16)
  /-- BULK_LANE_ENABLE: A write of NLD_BULK_CTRL.lane_en stops a lane after its current job or enables it (R266) -/
  | bulkLaneEnable (v : BitVec 2)
  /-- ROUND_START: A scheduler round starts, applying a committed window table and starting the owners' runs in their windows (R437) -/
  | roundStart (r : BitVec 48)
  /-- RUN_COMPLETE: A program run ends and publishes its result record, verdicts and state, or its fault (R448) -/
  | runComplete (owner : Fin 17) (image : BitVec 64) (t : BitVec 48) (kind : RunKind) (cycles : Nat) (faults : List ArrFault) (clocks : List (Nat × Nat))
  /-- SEALED_RUN_BUDGET_EXHAUSTED: A run reaching its declared budget is stopped and faulted (R60) -/
  | sealedRunBudgetExhausted (owner : Fin 17) (image : BitVec 64) (t : BitVec 48) (clocks : List (Nat × Nat))
  /-- TREE_CALL_START: A tree-ensemble call leaves the call queue and runs its waves (R410) -/
  | treeCallStart (owner : Fin 17) (addr : Nat) (samples : List (List (Nat × Bool))) (waited : Bool)
  /-- SCHED_TABLE_COMMIT: NLD_SCHED_CMD.commit validates the staged window table for the next round, or sets win_refused (R454) -/
  | schedTableCommit
  /-- HORN_LINK_UP: A Horn link becomes Active once ENUMs are exchanged with the configured peer (R461) -/
  | hornLinkUp (p : Fin 8)
  /-- HORN_ENUM: A Horn ENUM is received and checked against NLD_HORNp_PEER (R461) -/
  | hornEnum (p : Fin 8) (origin : BitVec 11) (end_ role : BitVec 8) (resume : Bool) (next : BitVec 16) (profile : BitVec 32)
  /-- HORN_FLIT_RECEIVE: A received Horn flit is accepted or discarded with a NAK under 16-bit sequence numbers (R460) -/
  | hornFlitReceive (p : Fin 8) (f : Flit) (corrected bad : Nat)
  /-- HORN_ACK_TIMEOUT: 2 µs without ack progress on Horn starts a replay (R460) -/
  | hornAckTimeout (p : Fin 8)
  /-- HORN_RETRY_TIMEOUT: A Horn retry episode reaching 10 µs or a ninth replay enters Retrain (R460) -/
  | hornRetryTimeout (p : Fin 8)
  /-- HORN_RETRAIN_TIMEOUT: A Horn Retrain not complete within 200 µs leads to Reset and Training (R461) -/
  | hornRetrainTimeout (p : Fin 8)
  /-- HORN_RESET: NLD_HORNp_CTRL.reset resets a Horn link (R493) -/
  | hornReset (p : Fin 8)
  /-- HORN_RETRAIN: NLD_HORNp_CTRL.retrain retrains a Horn link (R493) -/
  | hornRetrain (p : Fin 8)
  /-- HORN_CMD: A Bugle CMD on Horn or from a root peer is verified, de-duplicated, forwarded and executed (R466) -/
  | hornCmd (site : Site) (m : BugleMsg)
  /-- PARTIAL: A PARTIAL is forwarded by a relay or accepted and merged by a root (R483) -/
  | partialMsg (site : Site) (b : List Byte)
  /-- SEAL: A SEAL is forwarded to child ports and delivered to subscribed rings (R475) -/
  | sealMsg (p : Fin 8) (b : List Byte)
  /-- GROUP_SUMMARY: A root accepts a group summary into its fleet seal object and compares view checks (R486) -/
  | groupSummary (site : Site) (b : List Byte)
  /-- FULL_SUMMARY_SEND: Each acting root sends a full summary every 1 ms of domain 0 (R488) -/
  | fullSummarySend
  /-- FULL_SUMMARY: A root compares a received full summary's declarations with its own (R488) -/
  | fullSummary (site : Site) (gt : BitVec 11) (tick : BitVec 48) (check : Word) (decls : List OutDecl)
  /-- FABRIC_ALARM: An ALARM arriving from another group root is accepted and fanned out (R489) -/
  | fabricAlarm (site : Site) (pair : BitVec 112)
  /-- SEAL_MISSING_TIMEOUT: A SEAL not received by its deadline yields a seal-missing record (R475) -/
  | sealMissingTimeout (kind : Fin 3) (t : BitVec 48) (owner : Fin 17) (image : BitVec 64)
  /-- RDV_DEADLINE: An armed object reaching its deadline expires (R477) -/
  | rdvDeadline (k : Fin 16384)
  /-- CORROBORATION_QUERY: Firmware sends a liveness query to the tray controller for a Suspect, Unresolved or Telemetry-blind position (R504) -/
  | corroborationQuery (pos : Fin 512)
  /-- CORROBORATION_REPLY: An accepted reply moves a position to Telemetry-blind or Dead, or is discarded as stale (R504) -/
  | corroborationReply (b : List Byte)
  /-- WITNESS_REPORT: An unsolicited witness report acts as a reply or raises a witness conflict (R504) -/
  | witnessReport (b : List Byte)
  /-- CORROBORATION_TIMEOUT: corr_ms without an alive or gone reply takes a Suspect position to Unresolved (R501) -/
  | corroborationTimeout (pos : Fin 512)
  /-- LIVE_CLEAR: NLD_LIVE_CMD op 1 returns a position to Live and clears returned (R529) -/
  | liveClear (pos : Fin 512)
  /-- LIVE_QUERY: NLD_LIVE_CMD op 2 sends a corroboration query at once (R529) -/
  | liveQuery (pos : Fin 512)
  /-- ABORT_CMD: NLD_ABT_CMD.go originates an abort with code 5 (R519) -/
  | abortCmd (scope : BitVec 17)
  /-- DIGEST: Naloder accepts a DIGEST into an armed vote round or discards it as late (R543) -/
  | digest (m : DigestMsg)
  /-- PATTERN_RESULT: Naloder enters a PATTERN_RESULT into its tally slot or counts it late (R551) -/
  | patternResult (m : PatternResultMsg)
  /-- SELF_CHECK_VECTOR: A self-check vector runs on a cluster in uncovered array time and is compared with its digest (R552) -/
  | selfCheckVector (flips : List (Nat × Nat))
  /-- DOORBELL_POLL: Every poll interval the queue engine reads doorbell pages and fetches posted descriptors (R569) -/
  | doorbellPoll (fs : List FnPoll)
  /-- QUERY: The QUERY command returns firmware version, boot stage and newest tick (R577) -/
  | query (h : DescHdr)
  /-- LOAD: The LOAD command copies a buffer into the owner's model-pool share (R577) -/
  | load (h : DescHdr) (offset : Nat) (bytes : List Byte)
  /-- ADMIT: The ADMIT command checks a model image and admits it or refuses it with a code (R445) -/
  | admitImage (h : DescHdr) (offset len : Nat) (params : List OpParams) (signed : Bool)
  /-- WITHDRAW: The WITHDRAW command withdraws a program from the next round start (R444) -/
  | withdraw (h : DescHdr) (image : BitVec 64)
  /-- TRACK: The TRACK command stages position-table words for the owner's series (R353) -/
  | track (h : DescHdr) (ws : List TrackWord)
  /-- CTX_CFG: The CTX_CFG command sets bp, k or an epoch start of an owned context (R361) -/
  | ctxCfg (h : DescHdr) (c : Nat) (bp k : BitVec 8) (epoch : Option (BitVec 48))
  /-- JOB_REPORT: The JOB_REPORT command records a job's judgement of a die and compares it with liveness (R508) -/
  | jobReport (h : DescHdr) (part : Fin 16) (addr : BitVec 20) (dead : Bool)
  /-- MEMBERSHIP: The MEMBERSHIP command declares a partition bitmap and job epoch, or is refused as rejoin (R511) -/
  | membership (h : DescHdr) (part : Fin 16) (epoch : Word) (tick : BitVec 48) (bitmap : List (BitVec 18))
  /-- CHECKPOINT: The CHECKPOINT command declares a boundary and releases eligible swap advisories (R514) -/
  | checkpoint (h : DescHdr) (part : Fin 16) (epoch : Word) (c : BitVec 48)
  /-- VOTE: The VOTE command writes a vote slot or arms a round (R542) -/
  | vote (h : DescHdr) (v : VoteOp)
  /-- TALLY: The TALLY command arms a tally slot with a pattern_id and report tick (R551) -/
  | tally (h : DescHdr) (slot : BitVec 8) (patternId : Word) (tick : BitVec 48)
  /-- VECTOR_SET: The VECTOR_SET command installs a signed self-check vector set or refuses it (R552) -/
  | vectorSet (h : DescHdr) (s : VecSet)
  /-- KTU_CMD: The KTU_CMD command sends a CMD to a KTU or chain and completes with its CMD_ACK (R577) -/
  | ktuCmd (d : DescHdr) (p : Fin 16) (addr : BitVec 20) (route : Fin 2) (scope : BitVec 17) (scopeSet : Bool) (b : CmdBody)
  /-- KTU_REG: The KTU_REG command performs a REG_RD or REG_WR on a KTU (R577) -/
  | ktuReg (d : DescHdr) (write : Bool) (addr : BitVec 20) (offset : BitVec 16) (count : BitVec 8) (words : List Word)
  /-- BUGLE: The BUGLE command verifies a signed Bugle command and fans it out (R665) -/
  | bugle (d : DescHdr) (m : BugleMsg)
  /-- ABORT: The ABORT command originates an abort with code 5 or 6 (R519) -/
  | abort (h : DescHdr) (scope : BitVec 17)
  /-- TAP_OWNER: The TAP_OWNER command sets the owner of a content tap (R579) -/
  | tapOwner (h : DescHdr) (tap : Fin 16) (owner : BitVec 8)
  /-- CONTENT_TAP_SUBMIT: A content-tap descriptor copies a sequence into staging for binding (R579) -/
  | contentTapSubmit (h : DescHdr) (tap : Fin 16) (seq : BitVec 28) (bytes : List Byte)
  /-- TAP_SEQUENCE_EXPIRY: A staged sequence not taken within 1,024 ticks is discarded (R579) -/
  | tapSequenceExpiry (order : Nat)
  /-- BULK_COMPRESS: A compress descriptor codes a host buffer into a bulk stream part (R261) -/
  | bulkCompress (h : DescHdr) (o : BulkOperands)
  /-- BULK_DECOMPRESS: A decompress descriptor decodes a bulk stream under out_limit (R262) -/
  | bulkDecompress (h : DescHdr) (o : BulkOperands)
  /-- HISTORY_READ: A history-read descriptor writes a context's values for a tick range (R580) -/
  | historyRead (h : DescHdr) (ctx : Nat) (first : BitVec 48) (count : Nat) (dst : BitVec 64) (dstLen : Nat)
  /-- DELIVERY_RECORD_WRITE: The queue engine writes a record into a delivery ring, or holds it in overflow, or discards it with a later loss record (R581) -/
  | deliveryRecordWrite (fn : Fin 17) (ring : Fin 32)
  /-- RING_ENABLE: NLD_HQ_RINGCMD op enable checks a ring context and starts the ring (R576) -/
  | ringEnable (fn : Fin 17) (ring : Fin 32)
  /-- RING_DISABLE: NLD_HQ_RINGCMD op disable stops fetching and discards unwritten records (R576) -/
  | ringDisable (fn : Fin 17) (ring : Fin 32)
  /-- FUNCTION_LEVEL_RESET: An FLR disables a function's rings and clears their contexts (R565) -/
  | functionLevelReset (fn : Fin 17)
  /-- HOST_READ_ERROR: A poisoned or timed-out host read is reported and its descriptor completes with status 9 (R566) -/
  | hostReadError (f : HostReadFault)
  /-- IRQ_TIMER: An unsignalled completion irq_us old raises the ring's MSI-X vector (R588) -/
  | irqTimer (fn : Fin 17) (ring : Fin 32)
  /-- EMULATED_READ: A read of the emulated window is handed to firmware and completes when answered (R589) -/
  | emulatedRead (fn : Fin 17) (a : BitVec 24)
  /-- EMULATED_READ_TIMEOUT: An emulated read unanswered for 250 µs completes with 0xFFFF_FFFF (R589) -/
  | emulatedReadTimeout (fn : Fin 17) (a : BitVec 24)
  /-- EMULATED_WRITE: An emulated write is queued for firmware or discarded when the queue is full (R589) -/
  | emulatedWrite (fn : Fin 17) (a : BitVec 24) (v : Word)
  /-- ROCE_PACKET_RECEIVE: A RoCEv2 packet is decrypted, checked and delivered, acknowledged or NAKed (R593) -/
  | rocePacketReceive (e : Fin 2) (qpn : BitVec 24) (p : RocePkt)
  /-- PACKET_TRANSMIT: A port sends the next ready packet allowed by its shaper under class priority (R614) -/
  | packetTransmit (e : Fin 2)
  /-- QP_ACK_TIMEOUT: A QP's local ACK timeout starts go-back-N retransmission or enters Error (R602) -/
  | qpAckTimeout (q : Fin 4096)
  /-- RNR_TIMER: The RNR timer expires and the requester retries the SEND (R602) -/
  | rnrTimer (q : Fin 4096)
  /-- KEYX: A received KEYX is verified and keys are derived, or it is discarded (R610) -/
  | keyx (q : Fin 4096) (k : KeyxMsg)
  /-- KEYOK: A received KEYOK completes keying and the QP enters RTS (R611) -/
  | keyok (q : Fin 4096)
  /-- KEYX_RESEND_TIMER: An initiator without an answer resends its offer every 10 ms (R611) -/
  | keyxResendTimer (q : Fin 4096)
  /-- KEYING_TIMEOUT: 1 s without KEYOK sends the QP to Error with cause 6 (R611) -/
  | keyingTimeout (q : Fin 4096)
  /-- REKEY_TIMER: Every rekey_s seconds the initiator starts a rekey with a new generation (R612) -/
  | rekeyTimer (q : Fin 4096)
  /-- QP_RECREATE_TIMER: A failed protected QP is reset and created again after 10 ms (R599) -/
  | qpRecreateTimer (q : Fin 4096)
  /-- QP_ALLOC: NLD_RDMA_QP_CMD op alloc allocates a consumer QP or refuses (R621) -/
  | qpAlloc
  /-- QP_INIT: NLD_RDMA_QP_CMD op init checks the context and moves the QP to Init (R600) -/
  | qpInit (q : Fin 4096)
  /-- QP_ERROR_CMD: NLD_RDMA_QP_CMD op error sends the QP to Error with cause 7 (R607) -/
  | qpErrorCmd (q : Fin 4096)
  /-- QP_RESET_FREE: NLD_RDMA_QP_CMD op reset returns the QP to Reset and frees it (R600) -/
  | qpResetFree (q : Fin 4096)
  /-- SHAPER_REFILL: Every 1 µs each shaper takes its staged configuration and refills its level (R616) -/
  | shaperRefill
  /-- ETH_LINK_CHANGE: An Ethernet port link change moves QPs to the other port at a packet boundary (R595) -/
  | ethLinkChange (e : Fin 2) (up : Bool)
  /-- FW_LOAD: NLD_FW_LOAD_CMD.go starts a firmware load for a start (R629) -/
  | fwLoad (b : FwBlob)
  /-- FW_UPDATE: NLD_FW_LOAD_CMD with update starts a live update into the unused slot (R644) -/
  | fwUpdate (b : FwBlob)
  /-- FW_LOAD_COMPLETE: The image copy and checks complete and the load reports done or a failure code (R628) -/
  | fwLoadComplete
  /-- FW_TAKEOVER: At T(n_u) the control cores restart from the new slot, which takes over or is refused (R644) -/
  | fwTakeover (accepted : Bool)
  /-- WATCHDOG_KICK: A write of NLD_FW_WDT marks control cores alive (R638) -/
  | watchdogKick (mask : BitVec 4)
  /-- WATCHDOG_FIRE: A control core silent for 10 ms halts the control cores and starts a restart or falls to absent (R638) -/
  | watchdogFire (core : Fin 4)
  /-- CONTROL_CORE_RESTART: Restarted control cores load the state copy and handle held command descriptors (R637) -/
  | controlCoreRestart (verified : Bool)
  /-- SECURITY_WATCHDOG_FIRE: The security core's watchdog restarts it from the boot ROM warm entry (R640) -/
  | securityWatchdogFire
  /-- RECORD_COMMIT: A queued recorder record commits to the non-volatile die (R656) -/
  | recordCommit
  /-- RECORDER_CLEAR: NLD_REC_CLR_CMD.go checks a clear token and starts erasure, or refuses it (R662) -/
  | recorderClear (t : ClearToken)
  /-- RECORDER_CLEAR_DONE: Erasure of the named areas up to the bound completes (R662) -/
  | recorderClearDone
  /-- TEST_ACCESS_OPEN: A test request zeroises keys, increments the opened count and disables the PUF path (R666) -/
  | testAccessOpen
  /-- ATTEST: NLD_SEC_REQ op 1 returns an attestation quote (R668) -/
  | attest (nonce : BitVec 256)
  /-- ENROL_REVOKE: NLD_SEC_REQ op 2 enrols or revokes a key under a signed blob (R664) -/
  | enrolRevoke (b : EnrolBlob)
  /-- PROVISIONING_BUNDLE: NLD_SEC_REQ op 3 accepts a signed bundle enrolling the first fleet key (R669) -/
  | provisioningBundle (b : ProvBundle)
  /-- GENERATE_IDENTITY: NLD_SEC_REQ op 4 generates a new identity key pair (R669) -/
  | generateIdentity
  /-- INSTALL_CHAIN: NLD_SEC_REQ op 5 installs the identity certificate chain and completes provisioning (R669) -/
  | installChain (root : Word) (good : Bool)
  /-- KTU_RESET_COUNTERS: KTU_RESET_CMD.counters stages a clear of every PMU instance and slot group (R682) -/
  | ktuResetCounters (w : Writer)
  /-- KTU_RESET_OWNERS: KTU_RESET_CMD.owners stages every owner field to fleet (R682) -/
  | ktuResetOwners (w : Writer)
  /-- KTU_RESET_TIME: KTU_RESET_CMD.time returns both time bases to Free (R682) -/
  | ktuResetTime (w : Writer)
  /-- KTU_RESET_FIFE: KTU_RESET_CMD.fife resets both Fife links (R682) -/
  | ktuResetFife (w : Writer)
  /-- HIST_REVALIDATE: KTU_ERR_CMD.hist_revalidate clears hist_invalid so commands execute again (R688) -/
  | histRevalidate (w : Writer)
  /-- KTU_STATE_UE: An uncorrectable error in time, link, history or address state resets that state and originates a kind 3 ALARM (R687) -/
  | ktuStateUe (f : KtuFault)
  /-- PACKAGE_RESET: NLD_RST_CMD.pkg_reset resets the package except the always-on domain and PCIe (R696) -/
  | packageReset
  /-- CLEAR_FAULT: NLD_RST_CMD.clear_fault clears NLD_RST_CAUSE.last_fault (R694) -/
  | clearFault
  /-- PLL_LOCK_LOSS: A core PLL losing lock stops the package with last_fault 2 (R697) -/
  | pllLockLoss (pll : Option (Fin 3))
  /-- REFERENCE_LOSS: Loss of a port reference takes its links Down and sets ref_lost (R697) -/
  | referenceLoss (r : PortRef)
  /-- SUPPLY_MONITOR_TRIP: A supply outside range for 10 µs stops the package with last_fault 3 (R694) -/
  | supplyMonitorTrip
  /-- NLD_IRQ_WRITE: A write to NLD_IRQ_PEND or NLD_IRQ_EN updates them and re-arms vector 0 (R700) -/
  | nldIrqWrite (toEn : Bool) (v : Word)
  /-- VF_IRQ_WRITE: A write to NLD_VF_EVT or NLD_VF_EN updates them and re-arms the VF's vector 0 (R708) -/
  | vfIrqWrite (p : Fin 16) (toEn : Bool) (v : Word)
  /-- KTU_IRQ_PEND_WRITE: The interrupt owner's write of KTU_IRQ_PEND or KTU_IRQ_EN changes ktu_irq (R684) -/
  | ktuIrqPendWrite (w : Writer) (toEn : Bool) (v : Word)
  /-- READ_CLEAR: A read of an RC field returns its value and clears it (R14) -/
  | readClear (r : RegRead)
  /-- LO_READ_LATCH: A read of a _LO word latches the matching _HI word for the same path (R156) -/
  | loReadLatch (r : RegRead)
  /-- REGISTER_WRITE: A write to a register without a row of its own acts by its access codes under the owner and stage checks (R14) -/
  | registerWrite (w : RegWrite)
  /-- FLIT_TRANSMIT: A Fife or Horn transmit port wins arbitration with a credit and sends a data flit, consuming a credit, setting gc and keeping it for replay (R288) -/
  | flitTransmit (l : LinkId) (dt : Nat)
  /-- TAP_SAMPLE: On a host_clkd edge the KTU samples event, occupancy, slot and always-on lines and adds the counts to their counters, wrapping where they pass 2^48 − 1 (R137) -/
  | tapSample (d : Fin 4) (t : TapSample)
  /-- NLD_POR_ASSERT: Assertion of nld_por_n puts the whole package into reset, taking every link Down (R714) -/
  | nldPorAssert
  /-- PTP_TRANSMIT: An Ethernet port sends its IEEE 1588 Sync, Announce or Delay_Req at the configured message interval (R93) -/
  | ptpTransmit (e : Fin 2) (m : PtpSend) (dt : Nat)
  /-- REG_RESPONSE: Naloder receives a REG_RD or REG_WR response and completes the requesting KTU_REG descriptor (R303) -/
  | regResponse (p : Fin 16) (write : Bool) (r : RegResp)
  /-- LANE_RELOCK: The lane-1 receivers of a link leaving L1 regain lock, and a KTU with a pending wake then sends WAKE (R309) -/
  | laneRelock (l : LinkId)
  /-- TRC_SRC_PGOOD_CHANGE: A change of trc_src_pgood masks or unmasks a trace source and emits a source-state record (R183) -/
  | trcSrcPgoodChange (s : Fin 16) (v : Bool)
  /-- TS_CAPTURE_COMPLETE: A timestamp capture completes, KTU_TSCAPd holds the values and ts_val rises (R126) -/
  | tsCaptureComplete (d : Fin 4)
  /-- TS_CAP_FALL: A falling ts_cap lowers ts_val (R126) -/
  | tsCapFall (d : Fin 4)
  /-- DIGEST_ECC_UE: An uncorrectable error in a digest accumulator abandons the epoch without a DIGEST and sets ecc_ue (R540) -/
  | digestEccUe (r : Fin 64)
  /-- D2D_REPLAY: A die-to-die transfer fails its CRC-32C and is replayed, setting NLD_D2D_EVT.replay and counting (R323) -/
  | d2dReplay (ns : Nat)
  /-- BULK_JOB_COMPLETE: A bulk lane ends its job with a status of R263, writes the completion and, if disabled, passes its queued jobs to the other lane (R266) -/
  | bulkJobComplete (l : Fin 2)
  /-- WINDOW_START: At a_o compute clocks into a round an owner's window opens and its sealed, fleet-stage and provisional runs may start (R438) -/
  | windowStart (o : Fin 17)
  /-- OBSERVE_ONLY_RECHECK: Once per second firmware reads an observe-only KTU's halt registers and writes them to zero again if set (R631) -/
  | observeOnlyRecheck (pos : Fin 512)
  /-- SECURITY_CORE_RESTART: The security core finishes its warm restart and resumes held signature checks and keying (R640) -/
  | securityCoreRestart
  /-- REFERENCE_RETURN: A lost port reference clock returns, its NLD_CLK_STATUS bit sets and the ports' links train again (R697) -/
  | referenceReturn (r : PortRef)
  /-- KTU_CLOCK_STOP: ktu_clk or fife_refclk stops while ktu_por_n is high, the time bases stop and the KTU's behaviour is undefined until ktu_por_n is next asserted (R104) -/
  | ktuClockStop
  /-- PCIE_RESET: pcie_perst_n or a hot reset resets the PCIe port, which then trains and answers configuration requests (R561) -/
  | pcieReset
  /-- UNKNOWN_OPCODE: A KTU executes a CMD whose opcode it does not know and answers CMD_ACK status 4 (R302) -/
  | unknownOpcode (h : CmdHdr) (op : BitVec 8)
  /-- UPDATE_HOLD_END: 100 ms after a live update takes over, the new image starts fetching command descriptors and writing state copies, and the fallback to the old slot ends (R645) -/
  | updateHoldEnd
  /-- CORRECTABLE_ERROR: A correctable error in KTU or Naloder SRAM, state or network words is corrected, counted and sets its ce bit (R687) -/
  | correctableError (m : Option NldMem)
  deriving DecidableEq, Repr

end Sys2Proof
end

