-- ==== Sys2Proof/Decode.lean ====
section
/-! DEFINITION. The block decodes no words: the operation table gives none of its rows any bits, and a command comes whole. -/

namespace Sys2Proof

/-- The command that a word spells by the table's bits: no row has any, so none. -/
def decodeTableWord (_nbits _w : Nat) : Option Instr := none

end Sys2Proof
end

