-- ==== Sys2Proof/Machine/Bits.lean ====
section
/-! DEFINITION. Bytes, bit streams and the three checks of the links and frames (R239, R254, R272, R729). -/

namespace Sys2Proof.Machine

/-- The low `n` bytes of a number, least significant first (R11). -/
def leBytes : Nat → Nat → List Byte
  | 0, _ => []
  | n + 1, v => BitVec.ofNat 8 v :: leBytes n (v / 256)

/-- The number a list of bytes stands for, least significant first (R11). -/
def leNat : List Byte → Nat
  | [] => 0
  | b :: t => b.toNat + 256 * leNat t

/-- `n` bytes of a list from an offset, as a number; bytes past the end read as zero. -/
def fieldAt (bs : List Byte) (off n : Nat) : Nat := leNat ((bs.drop off).take n)

/-- The bits of a number, least significant first. -/
def natBits : Nat → Nat → List Bool
  | 0, _ => []
  | n + 1, v => (v % 2 == 1) :: natBits n (v / 2)

/-- The bits of a number, most significant first: how a prefix code is written (R239). -/
def natBitsMsb (n v : Nat) : List Bool := (natBits n v).reverse

/-- The number whose bits, least significant first, are given. -/
def bitsNat : List Bool → Nat
  | [] => 0
  | b :: t => (if b then 1 else 0) + 2 * bitsNat t

/-- The bit stream of a list of bytes (R239). -/
def byteBits (bs : List Byte) : List Bool := bs.flatMap (fun b => natBits 8 b.toNat)

/-- `n` bytes of a bit stream, zero padded (R239). -/
def bitBytes : Nat → List Bool → List Byte
  | 0, _ => []
  | n + 1, s => BitVec.ofNat 8 (bitsNat (s.take 8)) :: bitBytes n (s.drop 8)

/-- One step of a reflected CRC register. -/
def crcStep (poly : Nat) (r : Nat) (b : Bool) : Nat :=
  let x := (r % 2 == 1) != b
  if x then (r / 2) ^^^ poly else r / 2

/-- A reflected 32-bit CRC with initial value and final exclusive-or 0xFFFF_FFFF; `poly` is bit-reversed. -/
def crc32r (poly : Nat) (bs : List Byte) : Nat :=
  ((byteBits bs).foldl (crcStep poly) 0xFFFFFFFF) ^^^ 0xFFFFFFFF

/-- R254: CRC-32C, polynomial 0x1EDC_6F41 (bit-reversed 0x82F6_3B78). -/
def crc32c (bs : List Byte) : Nat := crc32r 0x82F63B78 bs

/-- R272: CRC-32, polynomial 0x04C1_1DB7 (bit-reversed 0xEDB8_8320). -/
def crc32 (bs : List Byte) : Nat := crc32r 0xEDB88320 bs

/-- R729: one step of the alarm pair's register. -/
def crc12Step (r : Nat) (b : Bool) : Nat :=
  let f := (r / 2048 % 2 == 1) != b
  let r' := r * 2 % 4096
  if f then r' ^^^ 0x80F else r'

/-- R729: the CRC-12 over pair bits 0 to 99. -/
def crc12 (body : Nat) : Nat := (natBits 100 body).foldl crc12Step 0xFFF

/-- The signed number an `n`-bit field holds. -/
def signedOf (n v : Nat) : Int :=
  let u := v % 2 ^ n
  if u < 2 ^ (n - 1) then (u : Int) else (u : Int) - (2 ^ n : Nat)

/-- The `n`-bit field a signed number fills, modulo 2^n. -/
def fieldOf (n : Nat) (v : Int) : Nat := (v % ((2 ^ n : Nat) : Int)).toNat

/-- A signed number held within an `n`-bit field: it saturates. -/
def satInt (n : Nat) (v : Int) : Int :=
  if v > (2 ^ (n - 1) : Nat) - 1 then (2 ^ (n - 1) : Nat) - 1
  else if v < -((2 ^ (n - 1) : Nat) : Int) then -((2 ^ (n - 1) : Nat) : Int) else v

/-- An exact quotient rounded to nearest, halves to even (R81). -/
def divHalfEven (n : Int) (d : Nat) : Int :=
  let q := n / (d : Int)
  let r := n % (d : Int)
  if 2 * r < d then q
  else if 2 * r > d then q + 1
  else if q % 2 = 0 then q else q + 1

/-- Bit `i` of a number. -/
def bitOf (v i : Nat) : Bool := v / 2 ^ i % 2 == 1

/-- A number with bit `i` set. -/
def setBit (v i : Nat) : Nat := v ||| 2 ^ i

/-- How many of the low `n` bits of a number are set. -/
def popCount : Nat → Nat → Nat
  | 0, _ => 0
  | n + 1, v => v % 2 + popCount n (v / 2)

/-- The indexes below `n` of the bits that are set, rising. -/
def bitList (n v : Nat) : List Nat := (List.range n).filter (fun i => bitOf v i)

/-- Split a list into pieces of `n` (`fuel` bounds the pieces). -/
def chunks {α : Type} (n : Nat) : Nat → List α → List (List α)
  | 0, _ => []
  | _ + 1, [] => []
  | fuel + 1, l => l.take n :: chunks n fuel (l.drop n)

end Sys2Proof.Machine
end

