-- ==== Sys2Proof/Machine/BlockCode.lean ====
section
/-! DEFINITION. The block coder that KTUs, ingest and the bulk engine share (R235 to R262): code tables, encoding,
decoding, and the frame's bytes. -/

namespace Sys2Proof.Machine

/-! ### Code tables (R242 to R245) -/

/-- R242: the length class of q, its number of significant bits, for q below 2^n. -/
def classUpTo : Nat → Nat → Nat
  | 0, _ => 0
  | n + 1, q => if q = 0 then 0 else 1 + classUpTo n (q / 2)

/-- R242: the length class of a 32-bit quotient. -/
def lengthClass (q : Nat) : Nat := classUpTo 40 q

/-- R245: the lengths of static table 0. -/
def sparseTable : List Nat :=
  [1, 3, 4, 4, 5, 5, 5, 6, 6] ++ List.replicate 8 7 ++ List.replicate 16 8

/-- R245: the lengths of static table 1. -/
def busyTable : List Nat :=
  [2] ++ List.replicate 9 7 ++ List.replicate 4 6 ++ List.replicate 8 4 ++ List.replicate 4 6 ++ List.replicate 7 7

/-- The number of classes of a code length. -/
def lenCount (lens : List Nat) (l : Nat) : Nat := lens.countP (· = l)

/-- R244: the table is valid: lengths at most 15, some non-zero, Kraft sum at most 1. -/
def tableValid (lens : List Nat) : Bool :=
  lens.all (· ≤ 15) && lens.any (· ≠ 0) &&
  decide ((lens.map (fun l => if l = 0 then 0 else 2 ^ (15 - l))).foldl (· + ·) 0 ≤ 2 ^ 15)

/-- The first canonical code of a length (RFC 1951, section 3.2.2, as R244 names it). -/
def firstCode (lens : List Nat) : Nat → Nat
  | 0 => 0
  | l + 1 => (firstCode lens l + (if l = 0 then 0 else lenCount lens l)) * 2

/-- The code of a class: its length and its value. -/
def codeOf (lens : List Nat) (c : Nat) : Nat × Nat :=
  let l := lens.getD c 0
  (l, firstCode lens l + lenCount (lens.take c) l)

/-- The class whose code a length and a value are, if any. -/
def codeClass (lens : List Nat) (l v : Nat) : Option Nat :=
  let f := firstCode lens l
  if v < f ∨ f + lenCount lens l ≤ v then none
  else ((List.range lens.length).filter (fun c => lens.getD c 0 = l))[v - f]?

/-! ### Encoding (R239 to R249) -/

/-- R249: the cost in bits of a quotient; `none` where its class has no code. -/
def costOf (lens : List Nat) (q : Nat) : Option Nat :=
  let c := lengthClass q
  let l := lens.getD c 0
  if l = 0 then none else some (l + (c - 1))

/-- The cost of a list of quotients. -/
def costAll (lens : List Nat) : List Nat → Option Nat
  | [] => some 0
  | q :: t =>
    match costOf lens q, costAll lens t with
    | some a, some b => some (a + b)
    | _, _ => none

/-- R241: a quotient in table mode. -/
def tableBits (lens : List Nat) (q : Nat) : List Bool :=
  let c := lengthClass q
  let (l, v) := codeOf lens c
  natBitsMsb l v ++ natBits (c - 1) q

/-- A block coded: its bytes, shift, rebuilt values and the carries left; whether a carry saturated (R251). -/
structure BlockOut where
  bytes : List Byte
  shift : Nat
  marked : Bool
  xhat : List Nat
  carry : List Nat
  sat : Bool
  deriving DecidableEq, Repr

/-- R240: the block header. -/
def blockHeader (mode shift : Nat) (marked : Bool) (width : Nat) : Nat :=
  mode + shift * 4 + (if marked then 128 else 0) + width * 256

/-- R249: code one block of `nb` bytes from its deltas, carries and marks. -/
def encodeBlock (nb : Nat) (lens : List Nat) (ds cs : List Nat) (ms : List Bool) : BlockOut :=
  let budget := 8 * nb
  let marked := ms.any id
  let h := if marked then 80 else 16
  let sums := List.zipWith (· + ·) ds cs
  let xs := List.zipWith (fun (m : Bool) x => if m then 0 else min x 0xFFFFFFFF) ms sums
  let fits (s : Nat) : Bool := match costAll lens (xs.map (· / 2 ^ s)) with
    | some t => decide (h + t ≤ budget)
    | none => false
  let st := (List.range 27).find? fits
  let w := (budget - h) / 64
  let sf := lengthClass (xs.foldl max 0) - w
  let zero := xs.all (· = 0)
  let (mode, s) := if zero then (0, 0) else
    match st with
    | some s => if s ≤ sf then (1, s) else (2, sf)
    | none => (2, sf)
  let qs := xs.map (· / 2 ^ s)
  let vals : List Bool :=
    if mode = 0 then [] else if mode = 1 then qs.flatMap (tableBits lens) else qs.flatMap (natBits w)
  let head := natBits 16 (blockHeader mode s marked (if mode = 2 then w else 0))
  let stream := head ++ (if marked then ms else []) ++ vals
  let xhat := qs.map (· * 2 ^ s)
  let left := List.zipWith (fun (m : Bool) p => if m then 0 else p) ms (List.zipWith (· - ·) sums xhat)
  { bytes := bitBytes nb stream, shift := s, marked := marked, xhat := xhat,
    carry := left.map (fun c => min c (2 ^ 34 - 1)), sat := left.any (fun c => decide (c > 2 ^ 34 - 1)) }

/-! ### Decoding (R257) -/

/-- Read one prefix code: the bits so far, `fuel` more at most. -/
def readCode (lens : List Nat) : Nat → Nat → Nat → List Bool → Option (Nat × List Bool)
  | 0, _, _, _ => none
  | _, _, _, [] => none
  | fuel + 1, l, v, b :: rest =>
    let v := 2 * v + (if b then 1 else 0)
    match codeClass lens (l + 1) v with
    | some c => some (c, rest)
    | none => readCode lens fuel (l + 1) v rest

/-- Read `n` bits, least significant first; `none` past the end. -/
def readBits (n : Nat) (s : List Bool) : Option (Nat × List Bool) :=
  if s.length < n then none else some (bitsNat (s.take n), s.drop n)

/-- Read one quotient in table mode. -/
def readTable (lens : List Nat) (s : List Bool) : Option (Nat × List Bool) :=
  match readCode lens 15 0 0 s with
  | none => none
  | some (c, rest) =>
    if c = 0 then some (0, rest)
    else
      match readBits (c - 1) rest with
      | none => none
      | some (m, rest) => some (2 ^ (c - 1) + m, rest)

/-- Read `n` quotients. -/
def readMany (f : List Bool → Option (Nat × List Bool)) : Nat → List Bool → Option (List Nat × List Bool)
  | 0, s => some ([], s)
  | n + 1, s =>
    match f s with
    | none => none
    | some (q, s) =>
      match readMany f n s with
      | none => none
      | some (qs, s) => some (q :: qs, s)

/-- A decoded block. -/
structure BlockIn where
  shift : Nat
  marked : Bool
  marks : List Bool
  xhat : List Nat
  rest : List Bool
  deriving DecidableEq, Repr

/-- R240, R257: read the header of a block: mode, shift, marked bit and width; `none` if a reserved bit is set. -/
def readHeader (s : List Bool) : Option (Nat × Nat × Bool × Nat × List Bool) :=
  match readBits 16 s with
  | none => none
  | some (h, s) =>
    if h / 8192 ≠ 0 then none else some (h % 4, h / 4 % 32, bitOf h 7, h / 256 % 32, s)

/-- R257: decode a frame block of `nb` bytes; the error is the cause, 4 for syntax and 5 for padding. -/
def decodeBlock (nb : Nat) (lens : List Nat) (bs : List Byte) : Except Nat BlockIn :=
  let budget := 8 * nb
  match readHeader (byteBits bs) with
  | none => .error 4
  | some (mode, shift, marked, width, s) =>
    let h := if marked then 80 else 16
    let w := (budget - h) / 64
    let (ms, s) := if marked then (s.take 64, s.drop 64) else (List.replicate 64 false, s)
    if mode = 3 ∨ shift > 26 ∨ (mode = 0 ∧ shift ≠ 0) ∨ width ≠ (if mode = 2 then w else 0) then .error 4
    else
      let body := if mode = 0 then some (List.replicate 64 0, s)
        else if mode = 1 then readMany (readTable lens) 64 s
        else readMany (readBits w) 64 s
      match body with
      | none => .error 4
      | some (qs, rest) =>
        let xs := qs.map (· * 2 ^ shift)
        if xs.any (fun x => decide (x ≥ 2 ^ 32)) then .error 4
        else if rest.any id then .error 5
        else .ok { shift := shift, marked := marked, marks := ms, xhat := xs, rest := rest }

/-- Decode the blocks of a body in order. -/
def decodeBlocks (nb : Nat) (lens : List Nat) : List (List Byte) → Except Nat (List BlockIn)
  | [] => .ok []
  | b :: t =>
    match decodeBlock nb lens b with
    | .error c => .error c
    | .ok x =>
      match decodeBlocks nb lens t with
      | .error c => .error c
      | .ok xs => .ok (x :: xs)

/-! ### The frame (R235, R236, R254) -/

/-- R235: a frame's header. -/
structure FrameHeader where
  magic : Nat := 0x4B46
  version : Nat := 1
  table : Nat
  ratio : Nat
  resv3 : Nat := 0
  addr : Nat
  tick : Nat
  period : Nat
  partMask : Nat
  schema : Nat
  flags : Nat
  span : Nat
  tableGen : Nat
  seq : Nat
  deriving DecidableEq, Repr

/-- R235: the 32 header bytes. -/
def FrameHeader.bytes (h : FrameHeader) : List Byte :=
  leBytes 2 h.magic ++ leBytes 1 h.version ++ leBytes 1 (h.resv3 + h.ratio * 4 + h.table * 16) ++ leBytes 4 h.addr ++
  leBytes 6 h.tick ++ leBytes 2 h.period ++ leBytes 4 h.partMask ++ leBytes 2 h.schema ++ leBytes 2 h.flags ++
  leBytes 2 h.span ++ leBytes 2 h.tableGen ++ leBytes 4 h.seq

/-- R235: read a header. -/
def frameHeader (bs : List Byte) : FrameHeader :=
  let b3 := fieldAt bs 3 1
  { magic := fieldAt bs 0 2, version := fieldAt bs 2 1, table := b3 / 16, ratio := b3 / 4 % 4, resv3 := b3 % 4,
    addr := fieldAt bs 4 4, tick := fieldAt bs 8 6, period := fieldAt bs 14 2, partMask := fieldAt bs 16 4,
    schema := fieldAt bs 20 2, flags := fieldAt bs 22 2, span := fieldAt bs 24 2, tableGen := fieldAt bs 26 2,
    seq := fieldAt bs 28 4 }

/-- R237: the bytes of a block at a ratio. -/
def blockBytes (ratio : Nat) : Nat := if ratio = 1 then 128 else 64

/-- R235: the length of a frame at a ratio. -/
def frameLength (ratio : Nat) : Nat := 36 + 16 * blockBytes ratio

/-- R254: the entry CRC over the uncoded frame. -/
def entryCrc (header : List Byte) (xhat : List Nat) : Nat :=
  crc32c (header ++ xhat.flatMap (leBytes 4))

/-- R236: the flag word of a frame. -/
def frameFlags (overflow reconfigured lossy poison absent carryHeld : Bool) : Nat :=
  let b (x : Bool) (i : Nat) : Nat := if x then 2 ^ i else 0
  b overflow 0 + b reconfigured 1 + b lossy 2 + b poison 3 + b absent 4 + b carryHeld 5

/-- A decoded frame: header, values, marks and trailer. -/
structure DecodedFrame where
  header : FrameHeader
  xhat : List Nat
  marks : List Bool
  trailer : Nat
  deriving DecidableEq, Repr

/-- R257, cause 1: magic, version, span, reserved header fields, ratio, or length wrong. -/
def headerBad (bs : List Byte) (h : FrameHeader) : Bool :=
  h.magic ≠ 0x4B46 || h.version ≠ 1 || h.span = 0 || h.resv3 ≠ 0 || h.ratio ≥ 2 || decide (h.addr ≥ 2 ^ 20) ||
  decide (h.period ≥ 2 ^ 14) || decide (h.partMask ≥ 2 ^ 17) || decide (h.flags ≥ 64) ||
  bs.length ≠ frameLength h.ratio

/-- R257: decode a frame under a ratio record and a table lookup. The error is the cause, 0 for an entry CRC alone. -/
def decodeFrame (accepts : Nat → Bool) (table : Nat → Nat → Option (List Nat)) (bs : List Byte) :
    Except Nat DecodedFrame :=
  let h := frameHeader bs
  if headerBad bs h then .error 1
  else if ¬ accepts h.ratio then .error 2
  else
    match table h.table h.tableGen with
    | none => .error 3
    | some lens =>
      let nb := blockBytes h.ratio
      match decodeBlocks nb lens (chunks nb 16 ((bs.drop 32).take (16 * nb))) with
      | .error c => .error c
      | .ok blocks =>
        let lossy := blocks.any (fun b => decide (b.shift > 0))
        let absent := blocks.any (·.marked)
        let marks := blocks.flatMap (·.marks)
        let xs := blocks.flatMap (·.xhat)
        if bitOf h.flags 2 ≠ lossy ∨ bitOf h.flags 4 ≠ absent then .error 4
        else
          let vals := List.zipWith (fun (m : Bool) x => if m then 0 else x) marks xs
          let t := fieldAt bs (32 + 16 * nb) 4
          if entryCrc (bs.take 32) vals ≠ t then .error 0
          else .ok { header := h, xhat := vals, marks := marks, trailer := t }

end Sys2Proof.Machine
end

