-- ==== Sys2Proof/Config.lean ====
section
/-! DEFINITION. What the spec leaves open: one opaque constant for each value it does not state. No proof can see a value
of them; a counter of the state makes each use fresh where the spec says the outcome may differ from use to use. -/

namespace Sys2Proof.Config

/-- R79: the delay filter divides by 2 and by 16 and no rounding is stated: whether an inexact quotient goes up. -/
opaque filterUp : Int → Bool

/-- R91: the filter that forms D from the differences of two Locked clocks is not stated: old D, new difference. -/
opaque diffFilter : Int → Int → Int

/-- R81 with a sync interval of 0: the rate a servo sample then yields is not stated. -/
opaque zeroIntervalAdj : Int → Int

/-- R172, R182: the fixed synchroniser latency a record time subtracts, in 2^-32 ns; its value is not stated. -/
opaque syncLatency : Int

/-- R283, R284: the scope of a kind 3 ALARM; none is stated. -/
opaque faultScope : Nat

/-- A fresh value for each use, by the state's counter of uses (R112, R138 and every other outcome "not fixed"). -/
opaque freeValue : Nat → Nat

/-- R415: the link functions of the tree engine are stated to within 2 units in the last place only: function code and
argument bits to result bits. -/
opaque linkFunction : Nat → Nat → Nat

/-- R435, R392: results of array arithmetic the spec does not state: operation code and operand bits. -/
opaque arithOpen : Nat → List Nat → Nat

/-- R610: the key that a key exchange derives for one direction: the count of the drawn ephemeral key, the peer's share, the
nonces of initiator and answerer, their QPNs, the generation, the direction. -/
opaque sessionKey : List Nat → Nat

/-- R609: what of a KEYX the spec does not fix the value of: the ephemeral public key, by the count of those drawn, in 97 bytes. -/
opaque keyShare : Nat → List Byte

/-- R609: the certificate chain of an identity. -/
opaque certChain : Nat → List Byte

/-- R603: the base address that firmware gives a registered region, by its entry. -/
opaque regionBase : Nat → Nat

/-- R593, R606: the transport's authenticated encryption: key, nonce, plain bytes to sealed bytes. -/
opaque aead : Nat → Nat → List Byte → List Byte

/-- R661: a fresh random number, by the count of those drawn. -/
opaque randomNonce : Nat → Nat

/-- R669: the identity key pair drawn by the security core, by the count of those drawn. -/
opaque identityKey : Nat → Nat

/-- R668: the signature of a quote under an identity key. -/
opaque signature : Nat → List Byte → List Byte

/-- R653: which items a record's payload holds is stated, their places in its 28 bytes are not: record type and items to
bytes. -/
opaque recPayload : Nat → List Nat → List Byte

/-- R194, R486, R488: events that go to the *fleet* verdict ring under no event code of R506: 0 a halt ALARM of an
observe-only position, 1 a full summary that differs, 2 fleet views that differ; 3 argument 1 of a record of entry into
Unresolved, which no reply caused; 4 and 5 a halt that all reported, and one that expired (R478). 6: the tick in the header of a
record for which none is stated (R582). -/
opaque openEvent : Nat → Nat

/-- R669: the public key of a new identity, signed with its private key, as the response of op 4 lays it out. -/
opaque identityReply : Nat → List Byte

/-- R573, R577: which items a command's result holds is stated, their places in its 16 bytes are not: opcode and items to
bytes. -/
opaque resultBytes : Nat → List Nat → List Byte

/-- R578: the detail code of a refusal for which no code is stated, by opcode. -/
opaque refusalDetail : Nat → Nat

/-- R302, R577: which of several CMD_ACKs the one completion of a command sent to a chain reports: whether a later one, of a
cmd_id and with that many still to answer, takes the place of an earlier one. -/
opaque keepsAnswer : Nat → Nat → Bool

/-- R647: the trace point number and the arguments of a log record are the firmware's: sequence number and word to bits. -/
opaque logWord : Nat → Nat → Nat

/-- R93: what of an IEEE 1588 message the spec does not fix: the port's own identity (80 bits, field 0), and of an Announce the
bytes of the grandmaster's description (160 bits, field 1), by port. -/
opaque ptpField : Nat → Nat → Nat

end Sys2Proof.Config
end

