-- ==== Sys2Proof/Machine/Store.lean ====
section
/-! DEFINITION. Sparse tables in one canonical form: keys strictly rising, and no entry equal to what an unlisted key
reads as. Register files, position tables, contexts and memories are all kept so, and equal tables are equal data. -/

namespace Sys2Proof.Machine

/-- A sparse table; an unlisted key reads as the default its reader names. -/
abbrev Tbl (β : Type) := List (Nat × β)

/-- The value at a key, `d` where none is listed. -/
def Tbl.get {β : Type} (d : β) (k : Nat) : Tbl β → β
  | [] => d
  | (k', v) :: t => if k = k' then v else Tbl.get d k t

/-- The value listed at a key, if one is. -/
def Tbl.find? {β : Type} (k : Nat) : Tbl β → Option β
  | [] => none
  | (k', v) :: t => if k = k' then some v else Tbl.find? k t

/-- Remove a key. -/
def Tbl.erase {β : Type} (k : Nat) : Tbl β → Tbl β
  | [] => []
  | (k', v) :: t => if k = k' then Tbl.erase k t else (k', v) :: Tbl.erase k t

/-- List a key with a value, in order. -/
def Tbl.insert {β : Type} (k : Nat) (v : β) : Tbl β → Tbl β
  | [] => [(k, v)]
  | (k', v') :: t =>
    if k = k' then (k, v) :: t
    else if k < k' then (k, v) :: (k', v') :: t
    else (k', v') :: Tbl.insert k v t

/-- Write a key: a value equal to the default removes the entry, so the form stays canonical. -/
def Tbl.set {β : Type} [DecidableEq β] (d : β) (k : Nat) (v : β) (t : Tbl β) : Tbl β :=
  if v = d then Tbl.erase k t else Tbl.insert k v t

/-- Every key of the table is above `k`. -/
def Tbl.above {β : Type} (k : Nat) : Tbl β → Bool
  | [] => true
  | (k', _) :: _ => decide (k < k')

/-- Keys strictly rising. -/
def Tbl.sorted {β : Type} : Tbl β → Bool
  | [] => true
  | (k, _) :: t => Tbl.above k t && Tbl.sorted t

/-- The canonical form for a default `d`. -/
def Tbl.wf {β : Type} [DecidableEq β] (d : β) (t : Tbl β) : Bool :=
  Tbl.sorted t && t.all (fun e => decide (e.2 ≠ d))

end Sys2Proof.Machine
end

