-- ==== Sys2Proof/Machine/Fld.lean ====
section
/-! DEFINITION. What a register field is (R14, R16): where it lies, which access code it has, and its reset value; and the
register file, one stored value for each field of each register. -/

namespace Sys2Proof.Machine

/-- The access codes of R14. -/
inductive Acc where
  | ro | rw | w1c | w1s | wo | rc | rwt
  deriving DecidableEq, Repr

/-- A register field. An indexed register has `count` copies, `stride` bytes apart; `special` names the one copy
whose reset value differs. -/
structure Fld where
  base : Nat
  stride : Nat := 0
  count : Nat := 1
  hi : Nat
  lo : Nat
  acc : Acc
  rst : Nat
  special : Option (Nat × Nat) := none
  deriving DecidableEq, Repr

/-- The field's width in bits. -/
def Fld.width (f : Fld) : Nat := f.hi - f.lo + 1

/-- The address of copy `i`. -/
def Fld.addr (f : Fld) (i : Nat) : Nat := f.base + f.stride * i

/-- The key of copy `i` in a register file: its address and lowest bit. -/
def Fld.key (f : Fld) (i : Nat) : Nat := f.addr i * 32 + f.lo

/-- The reset value of copy `i` (R679, R692). -/
def Fld.reset (f : Fld) (i : Nat) : Nat :=
  match f.special with
  | some (j, v) => if i = j then v else f.rst
  | none => f.rst

/-- The copy of the register that lies at an address, if any does. -/
def Fld.indexAt (f : Fld) (a : Nat) : Option Nat :=
  if f.stride = 0 then (if a = f.base then some 0 else none)
  else if f.base ≤ a ∧ (a - f.base) % f.stride = 0 ∧ (a - f.base) / f.stride < f.count then
    some ((a - f.base) / f.stride)
  else none

/-- The largest value a field holds. -/
def Fld.max (f : Fld) : Nat := 2 ^ f.width - 1

/-- A register file: the fields that do not hold their reset value, by key. -/
abbrev Regs := Tbl Nat

/-- The value of a field. -/
def Regs.get (r : Regs) (f : Fld) (i : Nat := 0) : Nat := Tbl.get (f.reset i) (f.key i) r

/-- Set a field, within its width. -/
def Regs.set (r : Regs) (f : Fld) (v : Nat) (i : Nat := 0) : Regs :=
  Tbl.set (f.reset i) (f.key i) (v % 2 ^ f.width) r

/-- Count once in a field that holds its maximum rather than wrapping (R66). -/
def Regs.bump (r : Regs) (f : Fld) (n : Nat := 1) (i : Nat := 0) : Regs :=
  r.set f (min (r.get f i + n) f.max) i

/-- A one-bit field as a truth value. -/
def Regs.bit (r : Regs) (f : Fld) (i : Nat := 0) : Bool := r.get f i != 0

/-- The part of a word that a field takes. -/
def Fld.part (f : Fld) (w : Nat) : Nat := w / 2 ^ f.lo % 2 ^ f.width

/-- The fields of a map that lie at an address, with the copy they belong to. -/
def Fld.at (a : Nat) : List Fld → List (Fld × Nat)
  | [] => []
  | f :: t =>
    match f.indexAt a with
    | some i => (f, i) :: Fld.at a t
    | none => Fld.at a t

/-- The word that the stored fields of a map give at an address. -/
def Regs.word (r : Regs) (table : List Fld) (a : Nat) : Nat :=
  (Fld.at a table).foldl (fun (acc : Nat) x => acc + r.get x.1 x.2 * 2 ^ x.1.lo) 0

/-- Write the RW fields of a map at an address from a word. -/
def Regs.writePlain (r : Regs) (table : List Fld) (a w : Nat) : Regs :=
  (Fld.at a table).foldl (fun (acc : Regs) x => if x.1.acc = .rw then acc.set x.1 (x.1.part w) x.2 else acc) r

end Sys2Proof.Machine
end

