-- ==== Sys2Proof/Machine/StateKtu.lean ====
section
/-! DEFINITION. The state of one KTU, as plain data, and the clocks and link ends that it shares with Naloder. -/

namespace Sys2Proof.Machine

open Sys2Proof

/-! ### Clocks (R69 to R92) -/

/-- The states of a time base or domain (R82), in the order of the state field. -/
inductive ServoState where
  | free
  | converging
  | locked
  | holdover
  | refusing
  deriving DecidableEq, Repr

/-- A SYNC a clock has received: what the later pairing and the straddle test need (R79, R80). -/
structure SyncSample where
  t1 : Int
  t2 : Int
  path : Int
  deriving DecidableEq, Repr

/-- An outstanding DELAY_REQ: its sequence ID, its transmit time, and the SYNC it is paired with, if any (R79). -/
structure DelayReqOut where
  seq : Nat
  t3 : Int
  paired : Option SyncSample
  deriving DecidableEq, Repr

/-- A step instant (R80): the instant in 2^-16 ns, and the base's reading when the step acted, once it has. -/
structure StepInstant where
  instant : Int
  acted : Option Nat
  deriving DecidableEq, Repr

/-- The delay measurement of one path to a master (R79). -/
structure PathFilter where
  dFilt : Int := 0
  delayValid : Bool := false
  loadNext : Bool := true
  lastSync : Option SyncSample := none
  reqs : List DelayReqOut := []
  nextSeq : Nat := 0
  deriving DecidableEq, Repr

/-- A time base of a KTU or a time domain of Naloder (R69, R82). `value` counts 2^-32 ns, of which the clock shows
2^-16 ns; `integ` counts 2^-32 ns and `adj` 2^-32 ns per clock. `main` is the path to the source in use, `second`
the path to the secondary source of a domain (R727). -/
structure TimeBase where
  value : Nat := 0
  state : ServoState := .free
  everLocked : Bool := false
  wasLocked : Bool := false
  integ : Int := 0
  adj : Int := 0
  offset : Int := 0
  lockRun : Nat := 0
  unlockRun : Nat := 0
  refuseRun : Nat := 0
  pending : Option Int := none
  sched : Option (Int × Nat) := none
  instants : List StepInstant := []
  main : PathFilter := {}
  second : PathFilter := {}
  offset2 : Int := 0
  deriving DecidableEq, Repr

/-- The KTU's clocks: bases A and B, D of R91 (2^-16 ns), what tick time subtracts from the current source (2^-32 ns),
the source a revertive switch goes back to, and the tick state of R22 and R24: the last tick fired since run rose, the
highest boundary passed, the tick of the last snapshot. -/
structure KTime where
  a : TimeBase := {}
  b : TimeBase := {}
  diff : Int := 0
  tickOffset : Int := 0
  reverting : Bool := false
  elapsed : Nat := 0
  lastFired : Option Nat := none
  crossed : Nat := 0
  prevSnapshot : Nat := 0
  baselinePending : Bool := true
  deriving DecidableEq, Repr

/-! ### The boundary of the macro (R102 to R136) -/

/-- Reset, clock and sideband pins, and the latches behind them. -/
structure KPins where
  porLow : Bool := false
  clkStopped : Bool := false
  ready : Bool := false
  straps : Straps
  rstN : BitVec 4 := 0
  pgood : BitVec 4 := 0
  trcPgood : BitVec 16 := 0
  units : Tbl Bool := []
  wakeLatch : Bool := false
  wakeOnce : Bool := false
  hostAlarm : BitVec 4 := 0
  abort : Bool := false
  abortPart : BitVec 17 := 0
  abortHeld : BitVec 17 := 0
  abortAck : Bool := false
  bkpt : BitVec 8 := 0
  dbgHalted : BitVec 8 := 0
  engDrained : BitVec 4 := 0
  tsCap : BitVec 4 := 0
  tsVal : BitVec 4 := 0
  tsBusy : BitVec 4 := 0
  tsPulse : BitVec 4 := 0
  tsLatch : Tbl Nat := []
  deriving DecidableEq, Repr

/-! ### Counters (R137 to R167) -/

/-- Counters by number (`CntId` of Machine/Ops.lean), each 48 bits; series bases and remainders; the staged values of
RWT fields; and what the counting needs between edges. -/
structure KCounters where
  cnt : Tbl Nat := []
  base : Tbl Nat := []
  rem : Tbl Nat := []
  wrapped : List Nat := []
  poisoned : List Nat := []
  smap : Tbl Nat := []
  smapStaged : Tbl Nat := []
  staged : Tbl Nat := []
  clears : List Nat := []
  prevOcc : Tbl Nat := []
  fresh : List Nat := []
  slotClears : List Nat := []
  deriving DecidableEq, Repr

/-! ### Tail rings and trace (R168 to R190) -/

/-- A Tail ring with its header (R172). -/
structure TailRing where
  newestNs : Nat := 0
  lost : Nat := 0
  cause : Nat := 0
  frozen : Bool := false
  wrapped : Bool := false
  count : Nat := 0
  ue : Bool := false
  next : Nat := 0
  recs : Tbl Nat := []
  deriving DecidableEq, Repr

/-- A Tail dump command (R177). -/
structure TailDumpJob where
  first : Nat
  last : Nat
  frozenOnly : Bool
  release : Bool
  cmdId : Nat
  deriving DecidableEq, Repr

/-- The Tail unit: the rings, the four domain queues with their arbiter pointers, the dump queue, and the rings whose
TAILDUMP releases them once sent. -/
structure KTail where
  rings : Tbl TailRing := []
  queues : Tbl (List (Nat × Nat)) := []
  rr : Tbl Nat := []
  dumps : List TailDumpJob := []
  releasing : List Nat := []
  deriving DecidableEq, Repr

/-- A record in a trace input queue (R181): payload, priority, context flag, time. -/
structure TraceItem where
  payload : BitVec 64
  prio : Fin 4
  ctx : Bool
  time : BitVec 48
  deriving DecidableEq, Repr

/-- One trace source: its queue, the generated records ahead of it, its pending drops and its last context. -/
structure TraceSource where
  queue : List TraceItem := []
  gen : List TraceRec := []
  drops : Tbl Nat := []
  firstDrop : Nat := 0
  lastCtx : BitVec 64 := 0
  deriving DecidableEq, Repr

/-- The trace funnel (R181 to R189). -/
structure KTrace where
  srcs : Tbl TraceSource := []
  funnel : List TraceRec := []
  rr : Tbl Nat := []
  seq : Nat := 0
  resyncDue : Bool := false
  deriving DecidableEq, Repr

/-! ### Halt contexts (R191 to R201) -/

/-- The states of a halt context (R198), in the order of the state field. -/
inductive HaltState where
  | idle
  | armed
  | halting
  | halted
  | incomplete
  | resuming
  deriving DecidableEq, Repr

/-- One halt context: H and its origin, the resume tick, the cores its own breakpoints halted, a request held over a
resume, and whether the halted answer has been sent. -/
structure HaltCtx where
  state : HaltState := .idle
  h : Nat := 0
  origin : Nat := 0
  originCore : Nat := 0x1F
  resumeAt : Option Nat := none
  localCores : Nat := 0
  held : Option (Nat × Nat × Nat) := none
  heldCores : Nat := 0
  acked : Bool := false
  deriving DecidableEq, Repr

/-! ### Queues (R205 to R219) -/

/-- The state of one queue instance beside its entries: a flush that waits for a packet boundary (R214), and whether a
check reset has cut the packet being written (R218). -/
structure QueueCtl where
  flushPending : Bool := false
  awaitStart : Bool := false
  deriving DecidableEq, Repr

/-! ### Frames and the coder (R235 to R256) -/

/-- A code table: its generation (0: never loaded) and the 33 code lengths (R244). -/
structure CodeTable where
  gen : Nat := 0
  lens : List Nat := []
  deriving DecidableEq, Repr

/-- The frame being coded: what TICK_FIRE fixed for it (R151, R154, R255). -/
structure CodeJob where
  tick : Nat
  span : Nat
  ratio : Nat
  table : Nat
  overflow : Bool
  reconfigured : Bool
  partMask : Nat
  period : Nat
  deltas : Tbl Nat
  poisoned : List Nat
  schema : Nat
  discard : List Nat
  deriving DecidableEq, Repr

/-- A frame in the frame store (R256): its bytes, and whether its last flit has been sent and acknowledged. -/
structure StoredFrame where
  tick : Nat
  ratio : Nat
  bytes : List Byte
  sent : Bool := false
  acked : Bool := false
  deriving DecidableEq, Repr

/-- The coder: carries, tables in force and staged, the frame being coded, the store, the sequence number. -/
structure KCodec where
  carry : Tbl Nat := []
  tables : Tbl CodeTable := []
  stagedTables : Tbl CodeTable := []
  job : Option CodeJob := none
  store : List StoredFrame := []
  seq : Nat := 0
  deriving DecidableEq, Repr

/-! ### Links (R267 to R315) -/

/-- The states of a link end (R277), in the order of the state field; `off` is a disabled or absent end. -/
inductive LinkState where
  | down
  | training
  | active
  | retry
  | retrain
  | reset
  | off
  deriving DecidableEq, Repr

/-- A flit kept for replay (R276), with the frame whose last flit it is. -/
structure SentFlit where
  seq : Nat
  vc : Nat
  gc : Bool
  eop : Bool
  frameTick : Option Nat
  deriving DecidableEq, Repr

/-- The messages waiting in one virtual channel of a transmit port, the flits of the first already sent, and whether
each is the port's own or forwarded. -/
structure TxVc where
  msgs : List (Bool × Msg) := []
  sent : Nat := 0
  deriving DecidableEq, Repr

/-- One end of a Fife or Horn link. `used` counts credits taken and `freed` units freed, per virtual channel. -/
structure LinkEnd where
  state : LinkState := .down
  role : Nat := 0
  txSeq : Nat := 0
  rxExp : Nat := 0
  ackDue : Bool := false
  nakOut : Bool := false
  nakDue : Bool := false
  replay : List SentFlit := []
  resend : List SentFlit := []
  episode : Option (Nat × Nat) := none
  used : Tbl Nat := []
  lastRep : Tbl Nat := []
  freed : Tbl Nat := []
  reported : Tbl Nat := []
  rrVc : Nat := 0
  partialRx : List Nat := []
  rxHeld : Tbl Nat := []
  tx : Tbl TxVc := []
  rrTx : Tbl Nat := []
  alarms : List (BitVec 112) := []
  lp : Nat := 0
  sentEnter : Option Nat := none
  gotEnter : Option Nat := none
  relocking : Bool := false
  pairs : List Nat := []
  deriving DecidableEq, Repr

/-- A pair seen in the last millisecond of elapsed time (R285): what it was and when. -/
structure AlarmSeen where
  kind : Nat
  origin : Nat
  scope : Nat
  arg : Nat
  at_ : Nat
  deriving DecidableEq, Repr

/-- The KTU's own side of its links: address, allowances left, alarms, command history, sleep handshake. -/
structure KFife where
  up : LinkEnd := {}
  dn : LinkEnd := {}
  addr : Nat := 0
  addrValid : Bool := false
  addrEver : Bool := false
  overlong : Bool := false
  mayForward : Bool := false
  frameLeft : Nat := 0
  traceLeft : Nat := 0
  cmdLeft : Nat := 0
  alarmCount : Nat := 0
  seen : List AlarmSeen := []
  heldAlarms : List (BitVec 112) := []
  history : List (Nat × Nat) := []
  running : List Nat := []
  sleepPhase : Nat := 0
  sleepTarget : Nat := 0
  sleepTick : Nat := 0
  wakeOwed : Bool := false
  deriving DecidableEq, Repr

/-! ### Digests and patterns of a KTU (R534 to R551) -/

/-- A digest region (R537): its last epoch number, and its pending or open epoch. -/
structure DigRegion where
  lastEpoch : Nat := 0
  phase : Nat := 0
  epoch : Nat := 0
  close : Nat := 0
  k0 : Nat := 0
  s0 : Nat := 0
  k1 : Nat := 0
  s1 : Nat := 0
  lines : Nat := 0
  d0 : Nat := 0
  d1 : Nat := 0
  deriving DecidableEq, Repr

/-- A pattern run (R548, R549): waiting, due to start once another ends, or active since a tick; the index of the word
in progress and the lanes of its result digest. -/
structure PatRun where
  cmdId : Nat
  run : PatternRun
  active : Bool := false
  due : Bool := false
  startedAt : Nat := 0
  index : Nat := 0
  d0 : Nat := 0
  d1 : Nat := 0
  deriving DecidableEq, Repr

/-- The digest and pattern units. `win` holds the windows in force and `winNext` those written since the last boundary. -/
structure KCheck where
  regions : Tbl DigRegion := []
  runs : List PatRun := []
  winNext : List Nat := []
  win : Tbl Nat := []
  deriving DecidableEq, Repr

/-- A Keluf telemetry unit. `regs` holds the stored fields of its register map; `remoteIdx` the remote path's copies of
the index registers (R676); `latchL` and `latchR` the _LO to _HI latches of the two paths (R156): the latched
words by address. -/
structure Ktu where
  pins : KPins
  regs : Regs := []
  remoteIdx : Regs := []
  latchL : Tbl Nat := []
  latchR : Tbl Nat := []
  time : KTime := {}
  cnt : KCounters := {}
  tail : KTail := {}
  trace : KTrace := {}
  halts : Tbl HaltCtx := []
  queues : Tbl QueueCtl := []
  codec : KCodec := {}
  fife : KFife := {}
  check : KCheck := {}
  resetPending : Nat := 0
  errHeld : Bool := false
  lastRead : Option (Word × Bool) := none
  deriving DecidableEq, Repr

end Sys2Proof.Machine
end

