-- ==== Sys2Proof/Machine/Clock.lean ====
section
/-! DEFINITION. A time base or time domain (R69 to R88): its advance, its delay filter, its servo, its state machine and
its steps. KTU bases and Naloder domains are built the same way. -/

namespace Sys2Proof.Machine

/-- What the registers set for one clock: increment (2^-32 ns), gains, thresholds, limits, gate and sync interval. -/
structure ServoCfg where
  incr : Nat
  kp : Nat
  ki : Nat
  stepThrNs : Nat
  lockThrPs : Nat
  refuseLimit : Nat
  lockCount : Nat
  gateNs : Nat
  syncUs : Nat
  hold : Bool
  enable : Bool
  deriving DecidableEq, Repr

/-- What a clock operation did that its status register reports. -/
structure ClockActs where
  holdoverEntered : Bool := false
  stepApplied : Bool := false
  stepRefused : Bool := false
  lockLost : Bool := false
  deriving DecidableEq, Repr

/-- The state as its register field numbers it (R97). -/
def ServoState.num : ServoState → Nat
  | .free => 0
  | .converging => 1
  | .locked => 2
  | .holdover => 3
  | .refusing => 4

/-- Merge the reports of two operations in a row. -/
def ClockActs.and (a b : ClockActs) : ClockActs :=
  { holdoverEntered := a.holdoverEntered || b.holdoverEntered, stepApplied := a.stepApplied || b.stepApplied,
    stepRefused := a.stepRefused || b.stepRefused, lockLost := a.lockLost || b.lockLost }

/-- The reading in units of 2^-16 ns (R12, R69). -/
def TimeBase.reading (b : TimeBase) : Int := ((b.value / 65536 : Nat) : Int)

/-- The reading in whole nanoseconds. -/
def TimeBase.ns (b : TimeBase) : Nat := b.value / 2 ^ 32

/-- Set the value, modulo its 64 bits of nanoseconds. -/
def TimeBase.load (b : TimeBase) (v : Int) : TimeBase := { b with value := fieldOf 96 v }

/-- R69: one clock edge. -/
def TimeBase.edge (incr : Nat) (b : TimeBase) : TimeBase :=
  b.load ((b.value : Int) + incr + (if b.state = .free then 0 else b.adj))

/-- Leave a state for another: leaving Locked is reported, and the runs of samples start again. -/
def TimeBase.enter (b : TimeBase) (st : ServoState) : TimeBase × ClockActs :=
  if b.state = st then (b, {})
  else ({ b with state := st, lockRun := 0, unlockRun := 0, everLocked := b.everLocked || st = .locked },
        { lockLost := b.state = .locked, holdoverEntered := st = .holdover })

/-- R82: to Free, by the enable bit, a reset command or an error in the clock's state. -/
def TimeBase.toFree (b : TimeBase) : TimeBase × ClockActs :=
  let (b', a) := b.enter .free
  ({ b' with everLocked := false, wasLocked := false, adj := 0, refuseRun := 0, pending := none,
             main := { b'.main with loadNext := true } }, a)

/-- R82: to Holdover from Converging or Locked; the last adjustment stays in force. -/
def TimeBase.toHoldover (b : TimeBase) : TimeBase × ClockActs :=
  if b.state = .converging ∨ b.state = .locked then
    let was := b.state = .locked
    let (b', a) := b.enter .holdover
    ({ b' with wasLocked := was }, a)
  else (b, {})

/-- R82: the hold bit acts on a base in Converging or Locked. -/
def TimeBase.holdNow (c : ServoCfg) (b : TimeBase) : TimeBase × ClockActs :=
  if c.hold then b.toHoldover else (b, {})

/-- R81: one servo update: integral, rate, rounding to the nearest 2^-32 ns per clock with halves to even, clamp. -/
def servoUpdate (c : ServoCfg) (b : TimeBase) (offset : Int) : TimeBase :=
  let integ := b.integ + c.ki * offset
  let u := c.kp * offset + integ
  let lim : Int := ((c.incr * 100 / 1000000 : Nat) : Int)
  let raw := if c.syncUs = 0 then Config.zeroIntervalAdj u
    else divHalfEven (-(u * c.incr)) (2 ^ 32 * (c.syncUs * 1000))
  { b with integ := integ, adj := max (-lim) (min lim raw) }

/-- |offset| at most the lock threshold: offset in 2^-16 ns, threshold in ps. -/
def withinLock (c : ServoCfg) (offset : Int) : Bool := decide (offset.natAbs * 1000 ≤ c.lockThrPs * 65536)

/-- R82, R84: one offset sample of a clock that is not Free. -/
def TimeBase.sample (c : ServoCfg) (b : TimeBase) (offset : Int) : TimeBase × ClockActs :=
  let b := { b with offset := satInt 32 offset }
  if offset.natAbs > c.stepThrNs * 65536 then
    let b := { b with refuseRun := b.refuseRun + 1, lockRun := 0, pending := some offset }
    if b.refuseRun ≥ c.refuseLimit ∧ ¬ (b.state = .holdover ∧ c.hold) then
      let (b, a) := b.enter .refusing
      (b, { a with stepRefused := true })
    else (b, { stepRefused := true })
  else
    let b := { b with refuseRun := 0, pending := none }
    let inside := withinLock c offset
    match b.state with
    | .free => (b, {})
    | .converging =>
      let b := servoUpdate c b offset
      let run := if inside then b.lockRun + 1 else 0
      if inside ∧ run ≥ c.lockCount then b.enter .locked else ({ b with lockRun := run }, {})
    | .locked =>
      let b := servoUpdate c b offset
      let run := if inside then 0 else b.unlockRun + 1
      if ¬ inside ∧ run ≥ c.lockCount then b.enter .converging else ({ b with unlockRun := run }, {})
    | .holdover =>
      if c.hold then (b, {})
      else
        let b := servoUpdate c b offset
        if inside ∧ b.wasLocked then b.enter .locked
        else
          let (b, a) := b.enter .converging
          ({ b with lockRun := if inside then 1 else 0 }, a)
    | .refusing =>
      let run := if inside then b.lockRun + 1 else 0
      if inside ∧ run ≥ c.lockCount then b.enter .locked else ({ b with lockRun := run }, {})

/-- R80: a step instant is live until 64 sync intervals after its step acted. -/
def StepInstant.live (c : ServoCfg) (now : Nat) (i : StepInstant) : Bool :=
  match i.acted with
  | none => true
  | some r => decide (((now : Int) - r).natAbs ≤ 64 * c.syncUs * 1000 * 2 ^ 32)

/-- R80: some live step instant lies between two readings, inclusive. -/
def TimeBase.straddles (c : ServoCfg) (b : TimeBase) (from_ to_ : Int) : Bool :=
  b.instants.any (fun i => i.live c b.value && decide (from_ ≤ i.instant) && decide (i.instant ≤ to_))

/-- R79: a quotient by a power of two of the delay filter; how an inexact one rounds is not stated. -/
def filterDiv (n : Int) (d : Nat) : Int :=
  if n % d = 0 then n / d else n / d + (if Config.filterUp n then 1 else 0)

/-- R79: take a delay sample, given as the sum of the two paths (twice the sample). -/
def PathFilter.delaySample (gateNs : Nat) (f : PathFilter) (sum : Int) : PathFilter :=
  if f.loadNext || !f.delayValid then
    { f with dFilt := filterDiv sum 2, delayValid := true, loadNext := false }
  else if (sum - 2 * f.dFilt).natAbs > 2 * gateNs * 65536 then f
  else { f with dFilt := f.dFilt + filterDiv (sum - 2 * f.dFilt) 32 }

/-- R79, R80: a SYNC received: the path it shows, kept for the pairing of later requests. -/
def PathFilter.sync (f : PathFilter) (t1 t2 corr : Int) : PathFilter :=
  { f with lastSync := some { t1 := t1, t2 := t2, path := t2 - t1 - corr } }

/-- R78, R79: a DELAY_REQ leaves at t3, paired with the latest SYNC received before it. -/
def PathFilter.request (f : PathFilter) (t3 : Int) : PathFilter :=
  { f with nextSeq := (f.nextSeq + 1) % 65536,
           reqs := f.reqs ++ [{ seq := f.nextSeq, t3 := t3, paired := f.lastSync }] }

/-- R79: a DELAY_RESP matches a request: the request is taken, and with its paired SYNC it is a delay sample unless a
step instant lies between t3 and t4 or between the SYNC's t2 and t3. -/
def TimeBase.response (c : ServoCfg) (b : TimeBase) (f : PathFilter) (seq : Nat) (t4 corr : Int) : PathFilter :=
  match f.reqs.find? (fun r => r.seq = seq) with
  | none => f
  | some r =>
    let f := { f with reqs := f.reqs.filter (fun x => x.seq ≠ seq) }
    match r.paired with
    | none => f
    | some s =>
      if b.straddles c r.t3 t4 || b.straddles c s.t2 r.t3 then f
      else f.delaySample c.gateNs (s.path + (t4 - r.t3 - corr))

/-- R79: a request without its answer in four sync intervals is dropped. -/
def PathFilter.dropRequest (f : PathFilter) (seq : Nat) : PathFilter :=
  { f with reqs := f.reqs.filter (fun x => x.seq ≠ seq) }

/-- R79: 64 sync intervals without an update. -/
def PathFilter.expire (f : PathFilter) : PathFilter := { f with delayValid := false }

/-- R79, R80, R82: a SYNC of the source in use. In Free the first sample with a valid delay loads the clock; otherwise
it is one offset sample, less `shift`, the difference a switch to the secondary source froze (R91). -/
def TimeBase.takeSync (c : ServoCfg) (b : TimeBase) (t1 t2 corr shift : Int) : TimeBase × ClockActs :=
  let b := { b with main := b.main.sync t1 t2 corr }
  if !c.enable || !b.main.delayValid then (b, {})
  else if b.straddles c t1 t2 then (b, {})
  else if b.state = .free then
    let b := (b.load ((t1 + corr + b.main.dFilt - shift) * 65536))
    let (b, a) := TimeBase.enter { b with integ := 0 } .converging
    let (b, a') := TimeBase.holdNow c b
    (b, ClockActs.and a a')
  else b.sample c (t2 - t1 - corr - b.main.dFilt + shift)

/-- R85: schedule a step of an amount in 2^-16 ns, replacing one not yet acted; its instant is its STEP_AT, unless that
is zero. -/
def TimeBase.schedule (b : TimeBase) (amount : Int) (at_ : Nat) : TimeBase :=
  { b with sched := some (amount, at_),
           instants := (b.instants.filter (fun i => i.acted.isSome)) ++
             (if at_ = 0 then [] else [{ instant := (at_ : Int) * 65536, acted := none }]) }

/-- R85: schedule the negated pending offset; without one the command is ignored. -/
def TimeBase.acceptPending (b : TimeBase) (at_ : Nat) : TimeBase :=
  match b.pending with
  | none => b
  | some p => b.schedule (-p) at_

/-- R85: a scheduled step is due once the base reads at least STEP_AT. -/
def TimeBase.stepDue (b : TimeBase) : Bool :=
  match b.sched with
  | none => false
  | some (_, at_) => decide (at_ ≤ b.ns)

/-- R80, R84, R85: the step acts. A base in Refusing goes to Converging; the pending offset is dropped. -/
def TimeBase.stepAct (c : ServoCfg) (b : TimeBase) : TimeBase × ClockActs :=
  match b.sched with
  | none => (b, {})
  | some (amt, at_) =>
    if at_ ≤ b.ns then
      let inst := if at_ = 0 then b.reading else (at_ : Int) * 65536
      let others := b.instants.filter (fun i => i.acted.isSome)
      let stepped := b.load ((b.value : Int) + amt * 65536)
      let mine : StepInstant := { instant := inst, acted := some stepped.value }
      let b1 : TimeBase :=
        { stepped with sched := none, pending := none, refuseRun := 0, instants := others ++ [mine] }
      let r := if b1.state = .refusing then b1.enter .converging else (b1, ({} : ClockActs))
      let h := r.1.holdNow c
      (h.1, (r.2.and h.2).and { stepApplied := true })
    else (b, {})

end Sys2Proof.Machine
end

