-- ==== Sys2Proof/Machine/RegsKtu.lean ====
section
/-! DEFINITION. The KTU register map (21_ktu_register_map.md). Each field is written out of the field table of the rule named above its register: address,
stride and count of an indexed register, bits, access code and reset value. -/

namespace Sys2Proof.Machine.KReg

/-! KTU_ID (R680, 21_ktu_register_map.md) -/
def ID_part : Fld := { base := 0x0, hi := 31, lo := 16, acc := .ro, rst := 0x4B54 }
def ID_revision : Fld := { base := 0x0, hi := 15, lo := 0, acc := .ro, rst := 0x0 }
/-! KTU_UID_LO (R680, 21_ktu_register_map.md) -/
def UID_LO_uid_lo : Fld := { base := 0x4, hi := 31, lo := 0, acc := .ro, rst := 0x0 }
/-! KTU_UID_HI (R680, 21_ktu_register_map.md) -/
def UID_HI_uid_hi : Fld := { base := 0x8, hi := 31, lo := 0, acc := .ro, rst := 0x0 }
/-! KTU_CAP0 (R680, 21_ktu_register_map.md) -/
def CAP0_tail_units : Fld := { base := 0xC, hi := 31, lo := 20, acc := .ro, rst := 0x800 }
def CAP0_pmu : Fld := { base := 0xC, hi := 19, lo := 11, acc := .ro, rst := 0x100 }
def CAP0_slot_groups : Fld := { base := 0xC, hi := 10, lo := 5, acc := .ro, rst := 0x20 }
def CAP0_trace_src : Fld := { base := 0xC, hi := 4, lo := 0, acc := .ro, rst := 0x10 }
/-! KTU_CAP1 (R680, 21_ktu_register_map.md) -/
def CAP1_regions : Fld := { base := 0x10, hi := 31, lo := 25, acc := .ro, rst := 0x40 }
def CAP1_domains : Fld := { base := 0x10, hi := 24, lo := 21, acc := .ro, rst := 0x4 }
def CAP1_fstore : Fld := { base := 0x10, hi := 20, lo := 16, acc := .ro, rst := 0x8 }
def CAP1_replay : Fld := { base := 0x10, hi := 15, lo := 8, acc := .ro, rst := 0x40 }
def CAP1_dyn_tables : Fld := { base := 0x10, hi := 7, lo := 4, acc := .ro, rst := 0xE }
def CAP1_ratios : Fld := { base := 0x10, hi := 3, lo := 0, acc := .ro, rst := 0x3 }
/-! KTU_CAP2 (R680, 21_ktu_register_map.md) -/
def CAP2_cores : Fld := { base := 0x14, hi := 27, lo := 24, acc := .ro, rst := 0x8 }
def CAP2_cmd_hist : Fld := { base := 0x14, hi := 22, lo := 16, acc := .ro, rst := 0x40 }
def CAP2_series : Fld := { base := 0x14, hi := 10, lo := 0, acc := .ro, rst := 0x400 }
/-! KTU_RESET_CMD (R681, 21_ktu_register_map.md) -/
def RESET_CMD_key : Fld := { base := 0x400, hi := 31, lo := 24, acc := .wo, rst := 0x0 }
def RESET_CMD_fife : Fld := { base := 0x400, hi := 3, lo := 3, acc := .wo, rst := 0x0 }
def RESET_CMD_time : Fld := { base := 0x400, hi := 2, lo := 2, acc := .wo, rst := 0x0 }
def RESET_CMD_owners : Fld := { base := 0x400, hi := 1, lo := 1, acc := .wo, rst := 0x0 }
def RESET_CMD_counters : Fld := { base := 0x400, hi := 0, lo := 0, acc := .wo, rst := 0x0 }
/-! KTU_RESET_STATUS (R681, 21_ktu_register_map.md) -/
def RESET_STATUS_done : Fld := { base := 0x404, hi := 1, lo := 1, acc := .w1c, rst := 0x0 }
def RESET_STATUS_pending : Fld := { base := 0x404, hi := 0, lo := 0, acc := .ro, rst := 0x0 }
/-! KTU_SCRATCH (R681, 21_ktu_register_map.md) -/
def SCRATCH_data : Fld := { base := 0x408, hi := 31, lo := 0, acc := .rw, rst := 0x0 }
/-! KTU_STRAP (R133, 03_ktu_integration.md) -/
def STRAP_ncores : Fld := { base := 0x480, hi := 19, lo := 16, acc := .ro, rst := 0x0 }
def STRAP_dig_dom : Fld := { base := 0x480, hi := 15, lo := 14, acc := .ro, rst := 0x0 }
def STRAP_pat_dom : Fld := { base := 0x480, hi := 13, lo := 12, acc := .ro, rst := 0x0 }
def STRAP_dbg_dom : Fld := { base := 0x480, hi := 11, lo := 10, acc := .ro, rst := 0x0 }
def STRAP_dom_en : Fld := { base := 0x480, hi := 9, lo := 6, acc := .ro, rst := 0x0 }
def STRAP_profile : Fld := { base := 0x480, hi := 3, lo := 2, acc := .ro, rst := 0x0 }
def STRAP_leaf : Fld := { base := 0x480, hi := 0, lo := 0, acc := .ro, rst := 0x0 }
/-! KTU_HOSTDOM (R134, 03_ktu_integration.md) -/
def HOSTDOM_cap_overrun : Fld := { base := 0x484, hi := 27, lo := 24, acc := .w1c, rst := 0x0 }
def HOSTDOM_pg_event : Fld := { base := 0x484, hi := 23, lo := 20, acc := .w1c, rst := 0x0 }
def HOSTDOM_rst_event : Fld := { base := 0x484, hi := 19, lo := 16, acc := .w1c, rst := 0x0 }
def HOSTDOM_wake_seen : Fld := { base := 0x484, hi := 15, lo := 12, acc := .w1c, rst := 0x0 }
def HOSTDOM_masked : Fld := { base := 0x484, hi := 11, lo := 8, acc := .ro, rst := 0x0 }
def HOSTDOM_pg_state : Fld := { base := 0x484, hi := 7, lo := 4, acc := .ro, rst := 0x0 }
def HOSTDOM_rst_state : Fld := { base := 0x484, hi := 3, lo := 0, acc := .ro, rst := 0x0 }
/-! KTU_ABORT (R135, 03_ktu_integration.md) -/
def ABORT_force_clear : Fld := { base := 0x488, hi := 31, lo := 31, acc := .wo, rst := 0x0 }
def ABORT_pending : Fld := { base := 0x488, hi := 17, lo := 17, acc := .ro, rst := 0x0 }
def ABORT_part : Fld := { base := 0x488, hi := 16, lo := 0, acc := .ro, rst := 0x0 }
/-! KTU_TSCAPd_A_LO (R136, 03_ktu_integration.md) -/
def TSCAPd_A_LO_ns : Fld := { base := 0x490, stride := 0x10, count := 4, hi := 31, lo := 0, acc := .ro, rst := 0x0 }
/-! KTU_TSCAPd_A_HI (R136, 03_ktu_integration.md) -/
def TSCAPd_A_HI_ns : Fld := { base := 0x494, stride := 0x10, count := 4, hi := 31, lo := 0, acc := .ro, rst := 0x0 }
/-! KTU_TSCAPd_B_LO (R136, 03_ktu_integration.md) -/
def TSCAPd_B_LO_ns : Fld := { base := 0x498, stride := 0x10, count := 4, hi := 31, lo := 0, acc := .ro, rst := 0x0 }
/-! KTU_TSCAPd_B_HI (R136, 03_ktu_integration.md) -/
def TSCAPd_B_HI_ns : Fld := { base := 0x49C, stride := 0x10, count := 4, hi := 31, lo := 0, acc := .ro, rst := 0x0 }
/-! KTU_TBx_CTRL (R97, 02_time_and_servo.md) -/
def TBx_CTRL_hold : Fld := { base := 0x1000, stride := 0x80, count := 2, hi := 4, lo := 4, acc := .rw, rst := 0x0 }
def TBx_CTRL_domain : Fld := { base := 0x1000, stride := 0x80, count := 2, hi := 3, lo := 1, acc := .rw, rst := 0x1, special := some (0, 0x0) }
def TBx_CTRL_enable : Fld := { base := 0x1000, stride := 0x80, count := 2, hi := 0, lo := 0, acc := .rw, rst := 0x0, special := some (0, 0x1) }
/-! KTU_TBx_STATUS (R97, 02_time_and_servo.md) -/
def TBx_STATUS_holdover_entered : Fld := { base := 0x1004, stride := 0x80, count := 2, hi := 11, lo := 11, acc := .w1c, rst := 0x0 }
def TBx_STATUS_step_applied : Fld := { base := 0x1004, stride := 0x80, count := 2, hi := 10, lo := 10, acc := .w1c, rst := 0x0 }
def TBx_STATUS_step_refused : Fld := { base := 0x1004, stride := 0x80, count := 2, hi := 9, lo := 9, acc := .w1c, rst := 0x0 }
def TBx_STATUS_lock_lost : Fld := { base := 0x1004, stride := 0x80, count := 2, hi := 8, lo := 8, acc := .w1c, rst := 0x0 }
def TBx_STATUS_step_pending : Fld := { base := 0x1004, stride := 0x80, count := 2, hi := 7, lo := 7, acc := .ro, rst := 0x0 }
def TBx_STATUS_delay_valid : Fld := { base := 0x1004, stride := 0x80, count := 2, hi := 6, lo := 6, acc := .ro, rst := 0x0 }
def TBx_STATUS_state : Fld := { base := 0x1004, stride := 0x80, count := 2, hi := 2, lo := 0, acc := .ro, rst := 0x0 }
/-! KTU_TBx_TIME_LO (R97, 02_time_and_servo.md) -/
def TBx_TIME_LO_ns_lo : Fld := { base := 0x1008, stride := 0x80, count := 2, hi := 31, lo := 0, acc := .ro, rst := 0x0 }
/-! KTU_TBx_TIME_HI (R97, 02_time_and_servo.md) -/
def TBx_TIME_HI_ns_hi : Fld := { base := 0x100C, stride := 0x80, count := 2, hi := 31, lo := 0, acc := .ro, rst := 0x0 }
/-! KTU_TBx_TIME_FRAC (R97, 02_time_and_servo.md) -/
def TBx_TIME_FRAC_frac : Fld := { base := 0x1010, stride := 0x80, count := 2, hi := 15, lo := 0, acc := .ro, rst := 0x0 }
/-! KTU_TBx_INCR_FRAC (R97, 02_time_and_servo.md) -/
def TBx_INCR_FRAC_incr_frac : Fld := { base := 0x1014, stride := 0x80, count := 2, hi := 31, lo := 0, acc := .rw, rst := 0x0 }
/-! KTU_TBx_INCR_INT (R97, 02_time_and_servo.md) -/
def TBx_INCR_INT_incr_int : Fld := { base := 0x1018, stride := 0x80, count := 2, hi := 7, lo := 0, acc := .rw, rst := 0x1 }
/-! KTU_TBx_ADJ (R97, 02_time_and_servo.md) -/
def TBx_ADJ_adj : Fld := { base := 0x101C, stride := 0x80, count := 2, hi := 31, lo := 0, acc := .ro, rst := 0x0 }
/-! KTU_TBx_GAIN (R97, 02_time_and_servo.md) -/
def TBx_GAIN_kp : Fld := { base := 0x1020, stride := 0x80, count := 2, hi := 31, lo := 16, acc := .rw, rst := 0x4000 }
def TBx_GAIN_ki : Fld := { base := 0x1020, stride := 0x80, count := 2, hi := 15, lo := 0, acc := .rw, rst := 0x400 }
/-! KTU_TBx_STEP_THR (R97, 02_time_and_servo.md) -/
def TBx_STEP_THR_step_thr_ns : Fld := { base := 0x1024, stride := 0x80, count := 2, hi := 19, lo := 0, acc := .rw, rst := 0x3E8 }
/-! KTU_TBx_LOCK_THR (R97, 02_time_and_servo.md) -/
def TBx_LOCK_THR_lock_thr_ps : Fld := { base := 0x1028, stride := 0x80, count := 2, hi := 15, lo := 0, acc := .rw, rst := 0xFA0 }
/-! KTU_TBx_OFFSET (R97, 02_time_and_servo.md) -/
def TBx_OFFSET_offset : Fld := { base := 0x102C, stride := 0x80, count := 2, hi := 31, lo := 0, acc := .ro, rst := 0x0 }
/-! KTU_TBx_DELAY (R97, 02_time_and_servo.md) -/
def TBx_DELAY_d_filt : Fld := { base := 0x1030, stride := 0x80, count := 2, hi := 31, lo := 0, acc := .ro, rst := 0x0 }
/-! KTU_TBx_REFUSED (R97, 02_time_and_servo.md) -/
def TBx_REFUSED_refused : Fld := { base := 0x1034, stride := 0x80, count := 2, hi := 31, lo := 0, acc := .rc, rst := 0x0 }
/-! KTU_TBx_STEP_AMT_LO (R97, 02_time_and_servo.md) -/
def TBx_STEP_AMT_LO_amt_lo : Fld := { base := 0x1038, stride := 0x80, count := 2, hi := 31, lo := 0, acc := .rw, rst := 0x0 }
/-! KTU_TBx_STEP_AMT_HI (R97, 02_time_and_servo.md) -/
def TBx_STEP_AMT_HI_amt_hi : Fld := { base := 0x103C, stride := 0x80, count := 2, hi := 15, lo := 0, acc := .rw, rst := 0x0 }
/-! KTU_TBx_STEP_AT_LO (R97, 02_time_and_servo.md) -/
def TBx_STEP_AT_LO_at_lo : Fld := { base := 0x1040, stride := 0x80, count := 2, hi := 31, lo := 0, acc := .rw, rst := 0x0 }
/-! KTU_TBx_STEP_AT_HI (R97, 02_time_and_servo.md) -/
def TBx_STEP_AT_HI_at_hi : Fld := { base := 0x1044, stride := 0x80, count := 2, hi := 31, lo := 0, acc := .rw, rst := 0x0 }
/-! KTU_TBx_STEP_CMD (R97, 02_time_and_servo.md) -/
def TBx_STEP_CMD_accept_pending : Fld := { base := 0x1048, stride := 0x80, count := 2, hi := 1, lo := 1, acc := .wo, rst := 0x0 }
def TBx_STEP_CMD_apply : Fld := { base := 0x1048, stride := 0x80, count := 2, hi := 0, lo := 0, acc := .wo, rst := 0x0 }
/-! KTU_TBx_LIMITS (R97, 02_time_and_servo.md) -/
def TBx_LIMITS_refuse_limit : Fld := { base := 0x104C, stride := 0x80, count := 2, hi := 15, lo := 8, acc := .rw, rst := 0x8 }
def TBx_LIMITS_lock_count : Fld := { base := 0x104C, stride := 0x80, count := 2, hi := 7, lo := 0, acc := .rw, rst := 0x10 }
/-! KTU_TIME_SEL (R98, 02_time_and_servo.md) -/
def TIME_SEL_revertive : Fld := { base := 0x1100, hi := 3, lo := 3, acc := .rw, rst := 0x0 }
def TIME_SEL_ezcia_mode : Fld := { base := 0x1100, hi := 2, lo := 2, acc := .rw, rst := 0x0 }
def TIME_SEL_tick_src : Fld := { base := 0x1100, hi := 1, lo := 0, acc := .rw, rst := 0x0 }
/-! KTU_TIME_SW (R98, 02_time_and_servo.md) -/
def TIME_SW_switches : Fld := { base := 0x1104, hi := 31, lo := 16, acc := .ro, rst := 0x0 }
def TIME_SW_switch_event : Fld := { base := 0x1104, hi := 8, lo := 8, acc := .w1c, rst := 0x0 }
def TIME_SW_current_src : Fld := { base := 0x1104, hi := 0, lo := 0, acc := .ro, rst := 0x0 }
/-! KTU_TIME_DIFF (R98, 02_time_and_servo.md) -/
def TIME_DIFF_diff : Fld := { base := 0x1108, hi := 31, lo := 0, acc := .ro, rst := 0x0 }
/-! KTU_FIFE_ASYM (R98, 02_time_and_servo.md) -/
def FIFE_ASYM_asym : Fld := { base := 0x1110, hi := 31, lo := 0, acc := .rw, rst := 0x0 }
/-! KTU_TIME_DREQ (R98, 02_time_and_servo.md) -/
def TIME_DREQ_delay_gate_ns : Fld := { base := 0x1114, hi := 23, lo := 16, acc := .rw, rst := 0x14 }
def TIME_DREQ_interval_us : Fld := { base := 0x1114, hi := 15, lo := 0, acc := .rw, rst := 0x64 }
/-! KTU_TIME_SYNCIV (R98, 02_time_and_servo.md) -/
def TIME_SYNCIV_sync_iv_us : Fld := { base := 0x1118, hi := 15, lo := 0, acc := .rw, rst := 0x19 }
/-! KTU_TICK_CTRL (R68, 01_tick_contract.md) -/
def TICK_CTRL_period_wr_ignored : Fld := { base := 0x1800, hi := 31, lo := 31, acc := .w1c, rst := 0x0 }
def TICK_CTRL_run : Fld := { base := 0x1800, hi := 0, lo := 0, acc := .rw, rst := 0x0 }
/-! KTU_TICK_PERIOD (R68, 01_tick_contract.md) -/
def TICK_PERIOD_period_us : Fld := { base := 0x1804, hi := 13, lo := 0, acc := .rw, rst := 0x64 }
/-! KTU_TICK_NUM_LO (R68, 01_tick_contract.md) -/
def TICK_NUM_LO_tick_lo : Fld := { base := 0x1808, hi := 31, lo := 0, acc := .ro, rst := 0x0 }
/-! KTU_TICK_NUM_HI (R68, 01_tick_contract.md) -/
def TICK_NUM_HI_tick_hi : Fld := { base := 0x180C, hi := 15, lo := 0, acc := .ro, rst := 0x0 }
/-! KTU_TICK_SKIP (R68, 01_tick_contract.md) -/
def TICK_SKIP_skipped : Fld := { base := 0x1810, hi := 31, lo := 0, acc := .rc, rst := 0x0 }
/-! KTU_AON_U_LOk (R164, 04_ktu_counters.md) -/
def AON_U_LOk_val_lo : Fld := { base := 0x2000, stride := 0x8, count := 64, hi := 31, lo := 0, acc := .ro, rst := 0x0 }
/-! KTU_AON_U_HIk (R164, 04_ktu_counters.md) -/
def AON_U_HIk_val_hi : Fld := { base := 0x2004, stride := 0x8, count := 64, hi := 15, lo := 0, acc := .ro, rst := 0x0 }
/-! KTU_AON_E_LOk (R164, 04_ktu_counters.md) -/
def AON_E_LOk_val_lo : Fld := { base := 0x2200, stride := 0x8, count := 64, hi := 31, lo := 0, acc := .ro, rst := 0x0 }
/-! KTU_AON_E_HIk (R164, 04_ktu_counters.md) -/
def AON_E_HIk_val_hi : Fld := { base := 0x2204, stride := 0x8, count := 64, hi := 15, lo := 0, acc := .ro, rst := 0x0 }
/-! KTU_AON_SHARE (R164, 04_ktu_counters.md) -/
def AON_SHARE_read_grant : Fld := { base := 0x2400, hi := 15, lo := 0, acc := .rw, rst := 0x0 }
/-! KTU_AON_OVFm (R164, 04_ktu_counters.md) -/
def AON_OVFm_ovf : Fld := { base := 0x2410, stride := 0x4, count := 4, hi := 31, lo := 0, acc := .w1c, rst := 0x0 }
/-! KTU_SLOTg_CTRL (R165, 04_ktu_counters.md) -/
def SLOTg_CTRL_owner : Fld := { base := 0x2800, stride := 0x40, count := 32, hi := 26, lo := 22, acc := .rwt, rst := 0x10 }
def SLOTg_CTRL_width : Fld := { base := 0x2800, stride := 0x40, count := 32, hi := 5, lo := 0, acc := .rwt, rst := 0x0 }
/-! KTU_SLOTg_STATUS (R165, 04_ktu_counters.md) -/
def SLOTg_STATUS_excess_seen : Fld := { base := 0x2804, stride := 0x40, count := 32, hi := 8, lo := 8, acc := .w1c, rst := 0x0 }
def SLOTg_STATUS_ovf : Fld := { base := 0x2804, stride := 0x40, count := 32, hi := 6, lo := 0, acc := .w1c, rst := 0x0 }
/-! KTU_SLOTg_LO0 (R165, 04_ktu_counters.md) -/
def SLOTg_LO0_val_lo : Fld := { base := 0x2808, stride := 0x40, count := 32, hi := 31, lo := 0, acc := .ro, rst := 0x0 }
/-! KTU_SLOTg_HI0 (R165, 04_ktu_counters.md) -/
def SLOTg_HI0_val_hi : Fld := { base := 0x280C, stride := 0x40, count := 32, hi := 15, lo := 0, acc := .ro, rst := 0x0 }
/-! KTU_SLOTg_LO1 (R165, 04_ktu_counters.md) -/
def SLOTg_LO1_val_lo : Fld := { base := 0x2810, stride := 0x40, count := 32, hi := 31, lo := 0, acc := .ro, rst := 0x0 }
/-! KTU_SLOTg_HI1 (R165, 04_ktu_counters.md) -/
def SLOTg_HI1_val_hi : Fld := { base := 0x2814, stride := 0x40, count := 32, hi := 15, lo := 0, acc := .ro, rst := 0x0 }
/-! KTU_SLOTg_LO2 (R165, 04_ktu_counters.md) -/
def SLOTg_LO2_val_lo : Fld := { base := 0x2818, stride := 0x40, count := 32, hi := 31, lo := 0, acc := .ro, rst := 0x0 }
/-! KTU_SLOTg_HI2 (R165, 04_ktu_counters.md) -/
def SLOTg_HI2_val_hi : Fld := { base := 0x281C, stride := 0x40, count := 32, hi := 15, lo := 0, acc := .ro, rst := 0x0 }
/-! KTU_SLOTg_LO3 (R165, 04_ktu_counters.md) -/
def SLOTg_LO3_val_lo : Fld := { base := 0x2820, stride := 0x40, count := 32, hi := 31, lo := 0, acc := .ro, rst := 0x0 }
/-! KTU_SLOTg_HI3 (R165, 04_ktu_counters.md) -/
def SLOTg_HI3_val_hi : Fld := { base := 0x2824, stride := 0x40, count := 32, hi := 15, lo := 0, acc := .ro, rst := 0x0 }
/-! KTU_SLOTg_LO4 (R165, 04_ktu_counters.md) -/
def SLOTg_LO4_val_lo : Fld := { base := 0x2828, stride := 0x40, count := 32, hi := 31, lo := 0, acc := .ro, rst := 0x0 }
/-! KTU_SLOTg_HI4 (R165, 04_ktu_counters.md) -/
def SLOTg_HI4_val_hi : Fld := { base := 0x282C, stride := 0x40, count := 32, hi := 15, lo := 0, acc := .ro, rst := 0x0 }
/-! KTU_SLOTg_LO5 (R165, 04_ktu_counters.md) -/
def SLOTg_LO5_val_lo : Fld := { base := 0x2830, stride := 0x40, count := 32, hi := 31, lo := 0, acc := .ro, rst := 0x0 }
/-! KTU_SLOTg_HI5 (R165, 04_ktu_counters.md) -/
def SLOTg_HI5_val_hi : Fld := { base := 0x2834, stride := 0x40, count := 32, hi := 15, lo := 0, acc := .ro, rst := 0x0 }
/-! KTU_SLOTg_LO6 (R165, 04_ktu_counters.md) -/
def SLOTg_LO6_val_lo : Fld := { base := 0x2838, stride := 0x40, count := 32, hi := 31, lo := 0, acc := .ro, rst := 0x0 }
/-! KTU_SLOTg_HI6 (R165, 04_ktu_counters.md) -/
def SLOTg_HI6_val_hi : Fld := { base := 0x283C, stride := 0x40, count := 32, hi := 15, lo := 0, acc := .ro, rst := 0x0 }
/-! KTU_SMAP_IDX (R164, 04_ktu_counters.md) -/
def SMAP_IDX_series : Fld := { base := 0x3000, hi := 9, lo := 0, acc := .rw, rst := 0x80 }
/-! KTU_SMAP_DATA (R164, 04_ktu_counters.md) -/
def SMAP_DATA_class : Fld := { base := 0x3004, hi := 15, lo := 14, acc := .rwt, rst := 0x0 }
def SMAP_DATA_source : Fld := { base := 0x3004, hi := 13, lo := 0, acc := .rwt, rst := 0x0 }
/-! KTU_SCHEMA (R164, 04_ktu_counters.md) -/
def SCHEMA_profile : Fld := { base := 0x3008, hi := 15, lo := 14, acc := .ro, rst := 0x0 }
def SCHEMA_schema_id : Fld := { base := 0x3008, hi := 13, lo := 0, acc := .rwt, rst := 0x0 }
/-! KTU_CNT_STATUS (R164, 04_ktu_counters.md) -/
def CNT_STATUS_ecc_ue : Fld := { base := 0x300C, hi := 3, lo := 3, acc := .w1c, rst := 0x0 }
def CNT_STATUS_carry : Fld := { base := 0x300C, hi := 2, lo := 2, acc := .ro, rst := 0x0 }
def CNT_STATUS_reconfig_frame : Fld := { base := 0x300C, hi := 1, lo := 1, acc := .w1c, rst := 0x0 }
def CNT_STATUS_ovf_frame : Fld := { base := 0x300C, hi := 0, lo := 0, acc := .w1c, rst := 0x0 }
/-! KTU_CNT_ERRSRC (R164, 04_ktu_counters.md) -/
def CNT_ERRSRC_class : Fld := { base := 0x3010, hi := 15, lo := 14, acc := .ro, rst := 0x0 }
def CNT_ERRSRC_source : Fld := { base := 0x3010, hi := 13, lo := 0, acc := .ro, rst := 0x0 }
/-! KTU_PMU_DOMGRANT_LO (R164, 04_ktu_counters.md) -/
def PMU_DOMGRANT_LO_grant : Fld := { base := 0x3014, hi := 31, lo := 0, acc := .rw, rst := 0x0 }
/-! KTU_PMU_DOMGRANT_HI (R164, 04_ktu_counters.md) -/
def PMU_DOMGRANT_HI_grant : Fld := { base := 0x3018, hi := 31, lo := 0, acc := .rw, rst := 0x0 }
/-! KTU_PMUi_CTRL (R166, 04_ktu_counters.md) -/
def PMUi_CTRL_owner : Fld := { base := 0x4000, stride := 0x40, count := 256, hi := 26, lo := 22, acc := .rwt, rst := 0x10 }
def PMUi_CTRL_domain : Fld := { base := 0x4000, stride := 0x40, count := 256, hi := 21, lo := 20, acc := .rwt, rst := 0x0 }
def PMUi_CTRL_enable : Fld := { base := 0x4000, stride := 0x40, count := 256, hi := 0, lo := 0, acc := .rwt, rst := 0x0 }
/-! KTU_PMUi_STATUS (R166, 04_ktu_counters.md) -/
def PMUi_STATUS_denied : Fld := { base := 0x4004, stride := 0x40, count := 256, hi := 18, lo := 18, acc := .ro, rst := 0x0 }
def PMUi_STATUS_staged : Fld := { base := 0x4004, stride := 0x40, count := 256, hi := 17, lo := 17, acc := .ro, rst := 0x0 }
def PMUi_STATUS_cfg_applied : Fld := { base := 0x4004, stride := 0x40, count := 256, hi := 16, lo := 16, acc := .w1c, rst := 0x0 }
def PMUi_STATUS_cyc_ovf : Fld := { base := 0x4004, stride := 0x40, count := 256, hi := 8, lo := 8, acc := .w1c, rst := 0x0 }
def PMUi_STATUS_ovf : Fld := { base := 0x4004, stride := 0x40, count := 256, hi := 7, lo := 0, acc := .w1c, rst := 0x0 }
/-! KTU_PMUi_CYC_LO (R166, 04_ktu_counters.md) -/
def PMUi_CYC_LO_val_lo : Fld := { base := 0x4008, stride := 0x40, count := 256, hi := 31, lo := 0, acc := .ro, rst := 0x0 }
/-! KTU_PMUi_CYC_HI (R166, 04_ktu_counters.md) -/
def PMUi_CYC_HI_val_hi : Fld := { base := 0x400C, stride := 0x40, count := 256, hi := 15, lo := 0, acc := .ro, rst := 0x0 }
/-! KTU_PMUi_SEL0 (R166, 04_ktu_counters.md) -/
def PMUi_SEL0_threshold : Fld := { base := 0x4010, stride := 0x40, count := 256, hi := 31, lo := 16, acc := .rwt, rst := 0x0 }
def PMUi_SEL0_mode : Fld := { base := 0x4010, stride := 0x40, count := 256, hi := 15, lo := 13, acc := .rwt, rst := 0x0 }
def PMUi_SEL0_source : Fld := { base := 0x4010, stride := 0x40, count := 256, hi := 8, lo := 0, acc := .rwt, rst := 0x0 }
/-! KTU_PMUi_SEL1 (R166, 04_ktu_counters.md) -/
def PMUi_SEL1_threshold : Fld := { base := 0x4014, stride := 0x40, count := 256, hi := 31, lo := 16, acc := .rwt, rst := 0x0 }
def PMUi_SEL1_mode : Fld := { base := 0x4014, stride := 0x40, count := 256, hi := 15, lo := 13, acc := .rwt, rst := 0x0 }
def PMUi_SEL1_source : Fld := { base := 0x4014, stride := 0x40, count := 256, hi := 8, lo := 0, acc := .rwt, rst := 0x0 }
/-! KTU_PMUi_SEL2 (R166, 04_ktu_counters.md) -/
def PMUi_SEL2_threshold : Fld := { base := 0x4018, stride := 0x40, count := 256, hi := 31, lo := 16, acc := .rwt, rst := 0x0 }
def PMUi_SEL2_mode : Fld := { base := 0x4018, stride := 0x40, count := 256, hi := 15, lo := 13, acc := .rwt, rst := 0x0 }
def PMUi_SEL2_source : Fld := { base := 0x4018, stride := 0x40, count := 256, hi := 8, lo := 0, acc := .rwt, rst := 0x0 }
/-! KTU_PMUi_SEL3 (R166, 04_ktu_counters.md) -/
def PMUi_SEL3_threshold : Fld := { base := 0x401C, stride := 0x40, count := 256, hi := 31, lo := 16, acc := .rwt, rst := 0x0 }
def PMUi_SEL3_mode : Fld := { base := 0x401C, stride := 0x40, count := 256, hi := 15, lo := 13, acc := .rwt, rst := 0x0 }
def PMUi_SEL3_source : Fld := { base := 0x401C, stride := 0x40, count := 256, hi := 8, lo := 0, acc := .rwt, rst := 0x0 }
/-! KTU_PMUi_SEL4 (R166, 04_ktu_counters.md) -/
def PMUi_SEL4_threshold : Fld := { base := 0x4020, stride := 0x40, count := 256, hi := 31, lo := 16, acc := .rwt, rst := 0x0 }
def PMUi_SEL4_mode : Fld := { base := 0x4020, stride := 0x40, count := 256, hi := 15, lo := 13, acc := .rwt, rst := 0x0 }
def PMUi_SEL4_source : Fld := { base := 0x4020, stride := 0x40, count := 256, hi := 8, lo := 0, acc := .rwt, rst := 0x0 }
/-! KTU_PMUi_SEL5 (R166, 04_ktu_counters.md) -/
def PMUi_SEL5_threshold : Fld := { base := 0x4024, stride := 0x40, count := 256, hi := 31, lo := 16, acc := .rwt, rst := 0x0 }
def PMUi_SEL5_mode : Fld := { base := 0x4024, stride := 0x40, count := 256, hi := 15, lo := 13, acc := .rwt, rst := 0x0 }
def PMUi_SEL5_source : Fld := { base := 0x4024, stride := 0x40, count := 256, hi := 8, lo := 0, acc := .rwt, rst := 0x0 }
/-! KTU_PMUi_SEL6 (R166, 04_ktu_counters.md) -/
def PMUi_SEL6_threshold : Fld := { base := 0x4028, stride := 0x40, count := 256, hi := 31, lo := 16, acc := .rwt, rst := 0x0 }
def PMUi_SEL6_mode : Fld := { base := 0x4028, stride := 0x40, count := 256, hi := 15, lo := 13, acc := .rwt, rst := 0x0 }
def PMUi_SEL6_source : Fld := { base := 0x4028, stride := 0x40, count := 256, hi := 8, lo := 0, acc := .rwt, rst := 0x0 }
/-! KTU_PMUi_SEL7 (R166, 04_ktu_counters.md) -/
def PMUi_SEL7_threshold : Fld := { base := 0x402C, stride := 0x40, count := 256, hi := 31, lo := 16, acc := .rwt, rst := 0x0 }
def PMUi_SEL7_mode : Fld := { base := 0x402C, stride := 0x40, count := 256, hi := 15, lo := 13, acc := .rwt, rst := 0x0 }
def PMUi_SEL7_source : Fld := { base := 0x402C, stride := 0x40, count := 256, hi := 8, lo := 0, acc := .rwt, rst := 0x0 }
/-! KTU_PMUi_IDX (R166, 04_ktu_counters.md) -/
def PMUi_IDX_counter : Fld := { base := 0x4030, stride := 0x40, count := 256, hi := 2, lo := 0, acc := .rw, rst := 0x0 }
/-! KTU_PMUi_VAL_LO (R166, 04_ktu_counters.md) -/
def PMUi_VAL_LO_val_lo : Fld := { base := 0x4034, stride := 0x40, count := 256, hi := 31, lo := 0, acc := .ro, rst := 0x0 }
/-! KTU_PMUi_VAL_HI (R166, 04_ktu_counters.md) -/
def PMUi_VAL_HI_val_hi : Fld := { base := 0x4038, stride := 0x40, count := 256, hi := 15, lo := 0, acc := .ro, rst := 0x0 }
/-! KTU_PMUi_CMD (R166, 04_ktu_counters.md) -/
def PMUi_CMD_clear : Fld := { base := 0x403C, stride := 0x40, count := 256, hi := 0, lo := 0, acc := .wo, rst := 0x0 }
/-! KTU_TAIL_CTRL (R202, 05_ktu_tails_trace_halt.md) -/
def TAIL_CTRL_arm : Fld := { base := 0x8000, hi := 7, lo := 1, acc := .rw, rst := 0x7F }
def TAIL_CTRL_enable : Fld := { base := 0x8000, hi := 0, lo := 0, acc := .rw, rst := 0x1 }
/-! KTU_TAIL_STATUS (R202, 05_ktu_tails_trace_halt.md) -/
def TAIL_STATUS_ecc_ue : Fld := { base := 0x8004, hi := 2, lo := 2, acc := .w1c, rst := 0x0 }
def TAIL_STATUS_bad_unit : Fld := { base := 0x8004, hi := 0, lo := 0, acc := .w1c, rst := 0x0 }
/-! KTU_TAIL_IDX (R202, 05_ktu_tails_trace_halt.md) -/
def TAIL_IDX_unit : Fld := { base := 0x8008, hi := 16, lo := 6, acc := .rw, rst := 0x0 }
def TAIL_IDX_hdr : Fld := { base := 0x8008, hi := 5, lo := 5, acc := .rw, rst := 0x0 }
def TAIL_IDX_slot : Fld := { base := 0x8008, hi := 4, lo := 0, acc := .rw, rst := 0x0 }
/-! KTU_TAIL_DATA_LO (R202, 05_ktu_tails_trace_halt.md) -/
def TAIL_DATA_LO_data_lo : Fld := { base := 0x800C, hi := 31, lo := 0, acc := .ro, rst := 0x0 }
/-! KTU_TAIL_DATA_HI (R202, 05_ktu_tails_trace_halt.md) -/
def TAIL_DATA_HI_data_hi : Fld := { base := 0x8010, hi := 31, lo := 0, acc := .ro, rst := 0x0 }
/-! KTU_TAIL_CMD (R202, 05_ktu_tails_trace_halt.md) -/
def TAIL_CMD_op : Fld := { base := 0x8014, hi := 31, lo := 30, acc := .wo, rst := 0x0 }
def TAIL_CMD_last : Fld := { base := 0x8014, hi := 26, lo := 16, acc := .wo, rst := 0x0 }
def TAIL_CMD_first : Fld := { base := 0x8014, hi := 10, lo := 0, acc := .wo, rst := 0x0 }
/-! KTU_TAIL_OWNb (R202, 05_ktu_tails_trace_halt.md) -/
def TAIL_OWNb_owner : Fld := { base := 0x8020, stride := 0x4, count := 32, hi := 4, lo := 0, acc := .rwt, rst := 0x10 }
/-! KTU_TAIL_LOSTd (R202, 05_ktu_tails_trace_halt.md) -/
def TAIL_LOSTd_lost : Fld := { base := 0x80A0, stride := 0x4, count := 4, hi := 31, lo := 0, acc := .rc, rst := 0x0 }
/-! KTU_TRC_CTRL (R203, 05_ktu_tails_trace_halt.md) -/
def TRC_CTRL_resync_ticks : Fld := { base := 0x9000, hi := 16, lo := 1, acc := .rw, rst := 0x400 }
def TRC_CTRL_enable : Fld := { base := 0x9000, hi := 0, lo := 0, acc := .rw, rst := 0x1 }
/-! KTU_TRC_STATUS (R203, 05_ktu_tails_trace_halt.md) -/
def TRC_STATUS_ecc_ue : Fld := { base := 0x9004, hi := 13, lo := 13, acc := .w1c, rst := 0x0 }
def TRC_STATUS_ctx_lost : Fld := { base := 0x9004, hi := 12, lo := 12, acc := .w1c, rst := 0x0 }
def TRC_STATUS_occupancy : Fld := { base := 0x9004, hi := 11, lo := 0, acc := .ro, rst := 0x0 }
/-! KTU_TRC_THR (R203, 05_ktu_tails_trace_halt.md) -/
def TRC_THR_thr3 : Fld := { base := 0x9008, hi := 29, lo := 24, acc := .rw, rst := 0x3F }
def TRC_THR_thr2 : Fld := { base := 0x9008, hi := 21, lo := 16, acc := .rw, rst := 0x38 }
def TRC_THR_thr1 : Fld := { base := 0x9008, hi := 13, lo := 8, acc := .rw, rst := 0x30 }
def TRC_THR_thr0 : Fld := { base := 0x9008, hi := 5, lo := 0, acc := .rw, rst := 0x20 }
/-! KTU_TRC_SRCs (R203, 05_ktu_tails_trace_halt.md) -/
def TRC_SRCs_owner : Fld := { base := 0x9010, stride := 0x4, count := 16, hi := 5, lo := 1, acc := .rwt, rst := 0x10 }
def TRC_SRCs_enable : Fld := { base := 0x9010, stride := 0x4, count := 16, hi := 0, lo := 0, acc := .rwt, rst := 0x0 }
/-! KTU_TRC_DROPs (R203, 05_ktu_tails_trace_halt.md) -/
def TRC_DROPs_drops : Fld := { base := 0x9050, stride := 0x4, count := 16, hi := 31, lo := 0, acc := .rc, rst := 0x0 }
/-! KTU_TRC_CMD (R203, 05_ktu_tails_trace_halt.md) -/
def TRC_CMD_resync : Fld := { base := 0x9090, hi := 0, lo := 0, acc := .wo, rst := 0x0 }
/-! KTU_HALT_CFG (R204, 05_ktu_tails_trace_halt.md) -/
def HALT_CFG_timeout_us : Fld := { base := 0xA000, hi := 23, lo := 8, acc := .rw, rst := 0x3E8 }
def HALT_CFG_lead_ticks : Fld := { base := 0xA000, hi := 7, lo := 0, acc := .rw, rst := 0x8 }
/-! KTU_HALT_COREc (R204, 05_ktu_tails_trace_halt.md) -/
def HALT_COREc_owner : Fld := { base := 0xA004, stride := 0x4, count := 8, hi := 7, lo := 3, acc := .rwt, rst := 0x10 }
def HALT_COREc_bkpt_en : Fld := { base := 0xA004, stride := 0x4, count := 8, hi := 1, lo := 1, acc := .rw, rst := 0x0 }
def HALT_COREc_halt_en : Fld := { base := 0xA004, stride := 0x4, count := 8, hi := 0, lo := 0, acc := .rw, rst := 0x0 }
/-! KTU_HALT_DOMd (R204, 05_ktu_tails_trace_halt.md) -/
def HALT_DOMd_part : Fld := { base := 0xA030, stride := 0x4, count := 4, hi := 16, lo := 0, acc := .rwt, rst := 0x0 }
/-! KTU_HALT_BKPT (R204, 05_ktu_tails_trace_halt.md) -/
def HALT_BKPT_no_tick : Fld := { base := 0xA040, hi := 9, lo := 9, acc := .w1c, rst := 0x0 }
def HALT_BKPT_ignored : Fld := { base := 0xA040, hi := 8, lo := 8, acc := .w1c, rst := 0x0 }
def HALT_BKPT_bkpt_seen : Fld := { base := 0xA040, hi := 7, lo := 0, acc := .w1c, rst := 0x0 }
/-! KTU_HALT_Sk_STATE (R204, 05_ktu_tails_trace_halt.md) -/
def HALT_Sk_STATE_origin_core : Fld := { base := 0xA100, stride := 0x10, count := 17, hi := 27, lo := 23, acc := .ro, rst := 0x0 }
def HALT_Sk_STATE_origin : Fld := { base := 0xA100, stride := 0x10, count := 17, hi := 22, lo := 3, acc := .ro, rst := 0x0 }
def HALT_Sk_STATE_state : Fld := { base := 0xA100, stride := 0x10, count := 17, hi := 2, lo := 0, acc := .ro, rst := 0x0 }
/-! KTU_HALT_Sk_H_LO (R204, 05_ktu_tails_trace_halt.md) -/
def HALT_Sk_H_LO_h_lo : Fld := { base := 0xA104, stride := 0x10, count := 17, hi := 31, lo := 0, acc := .ro, rst := 0x0 }
/-! KTU_HALT_Sk_H_HI (R204, 05_ktu_tails_trace_halt.md) -/
def HALT_Sk_H_HI_h_hi : Fld := { base := 0xA108, stride := 0x10, count := 17, hi := 15, lo := 0, acc := .ro, rst := 0x0 }
/-! KTU_HALT_Sk_MISSING (R204, 05_ktu_tails_trace_halt.md) -/
def HALT_Sk_MISSING_resume_incomplete : Fld := { base := 0xA10C, stride := 0x10, count := 17, hi := 14, lo := 14, acc := .w1c, rst := 0x0 }
def HALT_Sk_MISSING_late : Fld := { base := 0xA10C, stride := 0x10, count := 17, hi := 13, lo := 13, acc := .w1c, rst := 0x0 }
def HALT_Sk_MISSING_domains : Fld := { base := 0xA10C, stride := 0x10, count := 17, hi := 11, lo := 8, acc := .ro, rst := 0x0 }
def HALT_Sk_MISSING_cores : Fld := { base := 0xA10C, stride := 0x10, count := 17, hi := 7, lo := 0, acc := .ro, rst := 0x0 }
/-! KTU_HALT_CMD (R204, 05_ktu_tails_trace_halt.md) -/
def HALT_CMD_req : Fld := { base := 0xA200, hi := 0, lo := 0, acc := .wo, rst := 0x0 }
/-! KTU_CODEC_CTRL (R264, 07_fixed_ratio_codec.md) -/
def CODEC_CTRL_table_id : Fld := { base := 0xB000, hi := 7, lo := 4, acc := .rwt, rst := 0x0 }
def CODEC_CTRL_ratio : Fld := { base := 0xB000, hi := 0, lo := 0, acc := .rwt, rst := 0x0 }
/-! KTU_CODEC_STATUS (R264, 07_fixed_ratio_codec.md) -/
def CODEC_STATUS_ecc_ue : Fld := { base := 0xB004, hi := 11, lo := 11, acc := .w1c, rst := 0x0 }
def CODEC_STATUS_carry_sat : Fld := { base := 0xB004, hi := 10, lo := 10, acc := .w1c, rst := 0x0 }
def CODEC_STATUS_tbl_refused : Fld := { base := 0xB004, hi := 9, lo := 9, acc := .w1c, rst := 0x0 }
def CODEC_STATUS_lossy_frame : Fld := { base := 0xB004, hi := 8, lo := 8, acc := .w1c, rst := 0x0 }
def CODEC_STATUS_carry_held : Fld := { base := 0xB004, hi := 5, lo := 5, acc := .ro, rst := 0x0 }
def CODEC_STATUS_ratio_now : Fld := { base := 0xB004, hi := 4, lo := 4, acc := .ro, rst := 0x0 }
def CODEC_STATUS_table_now : Fld := { base := 0xB004, hi := 3, lo := 0, acc := .ro, rst := 0x0 }
/-! KTU_CODEC_LOSSY (R264, 07_fixed_ratio_codec.md) -/
def CODEC_LOSSY_frames : Fld := { base := 0xB008, hi := 31, lo := 0, acc := .rc, rst := 0x0 }
/-! KTU_CODEC_CDROP (R264, 07_fixed_ratio_codec.md) -/
def CODEC_CDROP_drops : Fld := { base := 0xB00C, hi := 31, lo := 0, acc := .rc, rst := 0x0 }
/-! KTU_CODEC_HELD (R264, 07_fixed_ratio_codec.md) -/
def CODEC_HELD_held : Fld := { base := 0xB010, hi := 31, lo := 0, acc := .rc, rst := 0x0 }
/-! KTU_CODEC_LAST (R264, 07_fixed_ratio_codec.md) -/
def CODEC_LAST_max_shift : Fld := { base := 0xB014, hi := 20, lo := 16, acc := .ro, rst := 0x0 }
def CODEC_LAST_lossy_blocks : Fld := { base := 0xB014, hi := 4, lo := 0, acc := .ro, rst := 0x0 }
/-! KTU_FRAME_SEQ (R264, 07_fixed_ratio_codec.md) -/
def FRAME_SEQ_seq : Fld := { base := 0xB018, hi := 31, lo := 0, acc := .ro, rst := 0x0 }
/-! KTU_CODEC_TBL_IDX (R264, 07_fixed_ratio_codec.md) -/
def CODEC_TBL_IDX_table : Fld := { base := 0xB020, hi := 7, lo := 4, acc := .rw, rst := 0x0 }
def CODEC_TBL_IDX_staged : Fld := { base := 0xB020, hi := 3, lo := 3, acc := .rw, rst := 0x0 }
def CODEC_TBL_IDX_word : Fld := { base := 0xB020, hi := 2, lo := 0, acc := .rw, rst := 0x0 }
/-! KTU_CODEC_TBL_DATA (R264, 07_fixed_ratio_codec.md) -/
def CODEC_TBL_DATA_lengths : Fld := { base := 0xB024, hi := 31, lo := 0, acc := .ro, rst := 0x0 }
/-! KTU_CODEC_TBL_GEN (R264, 07_fixed_ratio_codec.md) -/
def CODEC_TBL_GEN_gen : Fld := { base := 0xB028, hi := 15, lo := 0, acc := .ro, rst := 0x0 }
/-! KTU_FIFE_CTRL (R313, 08_fife_link.md) -/
def FIFE_CTRL_up_reset : Fld := { base := 0xC000, hi := 5, lo := 5, acc := .wo, rst := 0x0 }
def FIFE_CTRL_dn_reset : Fld := { base := 0xC000, hi := 4, lo := 4, acc := .wo, rst := 0x0 }
def FIFE_CTRL_up_retrain : Fld := { base := 0xC000, hi := 3, lo := 3, acc := .wo, rst := 0x0 }
def FIFE_CTRL_dn_retrain : Fld := { base := 0xC000, hi := 2, lo := 2, acc := .wo, rst := 0x0 }
def FIFE_CTRL_wake : Fld := { base := 0xC000, hi := 1, lo := 1, acc := .wo, rst := 0x0 }
def FIFE_CTRL_dn_enable : Fld := { base := 0xC000, hi := 0, lo := 0, acc := .rw, rst := 0x1 }
/-! KTU_FIFE_STATUS (R313, 08_fife_link.md) -/
def FIFE_STATUS_chain_overlong : Fld := { base := 0xC004, hi := 18, lo := 18, acc := .ro, rst := 0x0 }
def FIFE_STATUS_addr_valid : Fld := { base := 0xC004, hi := 17, lo := 17, acc := .ro, rst := 0x0 }
def FIFE_STATUS_wake_pending : Fld := { base := 0xC004, hi := 16, lo := 16, acc := .ro, rst := 0x0 }
def FIFE_STATUS_lp_state : Fld := { base := 0xC004, hi := 15, lo := 14, acc := .ro, rst := 0x0 }
def FIFE_STATUS_sleep_phase : Fld := { base := 0xC004, hi := 13, lo := 12, acc := .ro, rst := 0x0 }
def FIFE_STATUS_dn_state : Fld := { base := 0xC004, hi := 7, lo := 4, acc := .ro, rst := 0x0 }
def FIFE_STATUS_up_state : Fld := { base := 0xC004, hi := 3, lo := 0, acc := .ro, rst := 0x0 }
/-! KTU_FIFE_ADDR (R313, 08_fife_link.md) -/
def FIFE_ADDR_addr : Fld := { base := 0xC008, hi := 19, lo := 0, acc := .ro, rst := 0x0 }
/-! KTU_FIFE_MEMBER (R313, 08_fife_link.md) -/
def FIFE_MEMBER_member : Fld := { base := 0xC00C, hi := 16, lo := 0, acc := .rw, rst := 0x0 }
/-! KTU_FIFE_ALLOW (R313, 08_fife_link.md) -/
def FIFE_ALLOW_slots : Fld := { base := 0xC010, hi := 17, lo := 16, acc := .rwt, rst := 0x1 }
def FIFE_ALLOW_trace_flits : Fld := { base := 0xC010, hi := 15, lo := 8, acc := .rw, rst := 0x40 }
def FIFE_ALLOW_cmd_flits : Fld := { base := 0xC010, hi := 7, lo := 0, acc := .rw, rst := 0x8 }
/-! KTU_FIFE_EVT (R313, 08_fife_link.md) -/
def FIFE_EVT_addr_changed : Fld := { base := 0xC014, hi := 9, lo := 9, acc := .w1c, rst := 0x0 }
def FIFE_EVT_trunc : Fld := { base := 0xC014, hi := 8, lo := 8, acc := .w1c, rst := 0x0 }
def FIFE_EVT_alarm_bad : Fld := { base := 0xC014, hi := 7, lo := 7, acc := .w1c, rst := 0x0 }
def FIFE_EVT_malformed : Fld := { base := 0xC014, hi := 6, lo := 6, acc := .w1c, rst := 0x0 }
def FIFE_EVT_reset : Fld := { base := 0xC014, hi := 5, lo := 4, acc := .w1c, rst := 0x0 }
def FIFE_EVT_retrain : Fld := { base := 0xC014, hi := 3, lo := 2, acc := .w1c, rst := 0x0 }
def FIFE_EVT_retry : Fld := { base := 0xC014, hi := 1, lo := 0, acc := .w1c, rst := 0x0 }
/-! KTU_FIFE_CRCERR_UP (R314, 08_fife_link.md) -/
def FIFE_CRCERR_UP_count : Fld := { base := 0xC020, hi := 31, lo := 0, acc := .rc, rst := 0x0 }
/-! KTU_FIFE_CRCERR_DN (R314, 08_fife_link.md) -/
def FIFE_CRCERR_DN_count : Fld := { base := 0xC024, hi := 31, lo := 0, acc := .rc, rst := 0x0 }
/-! KTU_FIFE_REPLAY_UP (R314, 08_fife_link.md) -/
def FIFE_REPLAY_UP_count : Fld := { base := 0xC028, hi := 31, lo := 0, acc := .rc, rst := 0x0 }
/-! KTU_FIFE_REPLAY_DN (R314, 08_fife_link.md) -/
def FIFE_REPLAY_DN_count : Fld := { base := 0xC02C, hi := 31, lo := 0, acc := .rc, rst := 0x0 }
/-! KTU_FIFE_RETRAIN (R314, 08_fife_link.md) -/
def FIFE_RETRAIN_up : Fld := { base := 0xC030, hi := 31, lo := 16, acc := .rc, rst := 0x0 }
def FIFE_RETRAIN_dn : Fld := { base := 0xC030, hi := 15, lo := 0, acc := .rc, rst := 0x0 }
/-! KTU_FIFE_RESETS (R314, 08_fife_link.md) -/
def FIFE_RESETS_up : Fld := { base := 0xC034, hi := 31, lo := 16, acc := .rc, rst := 0x0 }
def FIFE_RESETS_dn : Fld := { base := 0xC034, hi := 15, lo := 0, acc := .rc, rst := 0x0 }
/-! KTU_FIFE_ALARM_DUP (R314, 08_fife_link.md) -/
def FIFE_ALARM_DUP_count : Fld := { base := 0xC038, hi := 31, lo := 0, acc := .rc, rst := 0x0 }
/-! KTU_FIFE_MSGDROP (R314, 08_fife_link.md) -/
def FIFE_MSGDROP_count : Fld := { base := 0xC03C, hi := 31, lo := 0, acc := .rc, rst := 0x0 }
/-! KTU_FIFE_CMDDUP (R314, 08_fife_link.md) -/
def FIFE_CMDDUP_count : Fld := { base := 0xC040, hi := 31, lo := 0, acc := .rc, rst := 0x0 }
/-! KTU_FIFE_COAL (R314, 08_fife_link.md) -/
def FIFE_COAL_count : Fld := { base := 0xC044, hi := 31, lo := 0, acc := .rc, rst := 0x0 }
/-! KTU_Q_STATUS (R231, 06_queues_and_arbiters.md) -/
def Q_STATUS_chk_err : Fld := { base := 0xD000, hi := 31, lo := 31, acc := .w1c, rst := 0x0 }
def Q_STATUS_ovr_any : Fld := { base := 0xD000, hi := 30, lo := 30, acc := .ro, rst := 0x0 }
def Q_STATUS_chk_id : Fld := { base := 0xD000, hi := 5, lo := 0, acc := .ro, rst := 0x0 }
/-! KTU_Q_CHKCNT (R231, 06_queues_and_arbiters.md) -/
def Q_CHKCNT_count : Fld := { base := 0xD004, hi := 31, lo := 0, acc := .rc, rst := 0x0 }
/-! KTU_QOVR_LO (R231, 06_queues_and_arbiters.md) -/
def QOVR_LO_ovr : Fld := { base := 0xD008, hi := 31, lo := 0, acc := .w1c, rst := 0x0 }
/-! KTU_QOVR_HI (R231, 06_queues_and_arbiters.md) -/
def QOVR_HI_ovr : Fld := { base := 0xD00C, hi := 31, lo := 0, acc := .w1c, rst := 0x0 }
/-! KTU_QOCC_IDX (R231, 06_queues_and_arbiters.md) -/
def QOCC_IDX_id : Fld := { base := 0xD010, hi := 5, lo := 0, acc := .rw, rst := 0x0 }
/-! KTU_QOCC_DATA (R231, 06_queues_and_arbiters.md) -/
def QOCC_DATA_flush_pending : Fld := { base := 0xD014, hi := 19, lo := 19, acc := .ro, rst := 0x0 }
def QOCC_DATA_full : Fld := { base := 0xD014, hi := 18, lo := 18, acc := .ro, rst := 0x0 }
def QOCC_DATA_empty : Fld := { base := 0xD014, hi := 17, lo := 17, acc := .ro, rst := 0x1 }
def QOCC_DATA_occupancy : Fld := { base := 0xD014, hi := 16, lo := 0, acc := .ro, rst := 0x0 }
/-! KTU_QFLUSH (R231, 06_queues_and_arbiters.md) -/
def QFLUSH_go : Fld := { base := 0xD018, hi := 31, lo := 31, acc := .wo, rst := 0x0 }
def QFLUSH_id : Fld := { base := 0xD018, hi := 5, lo := 0, acc := .wo, rst := 0x0 }
/-! KTU_ARB_TAIL (R234, 06_queues_and_arbiters.md) -/
def ARB_TAIL_pri3 : Fld := { base := 0xD020, hi := 7, lo := 6, acc := .rw, rst := 0x0 }
def ARB_TAIL_pri2 : Fld := { base := 0xD020, hi := 5, lo := 4, acc := .rw, rst := 0x0 }
def ARB_TAIL_pri1 : Fld := { base := 0xD020, hi := 3, lo := 2, acc := .rw, rst := 0x0 }
def ARB_TAIL_pri0 : Fld := { base := 0xD020, hi := 1, lo := 0, acc := .rw, rst := 0x0 }
/-! KTU_DIG_CTRL (R558, 16_silent_error_defences.md) -/
def DIG_CTRL_tap_en : Fld := { base := 0xE000, hi := 3, lo := 0, acc := .rw, rst := 0xF }
/-! KTU_DIG_EVT (R558, 16_silent_error_defences.md) -/
def DIG_EVT_ecc_ue : Fld := { base := 0xE004, hi := 3, lo := 3, acc := .w1c, rst := 0x0 }
def DIG_EVT_interrupted : Fld := { base := 0xE004, hi := 2, lo := 2, acc := .w1c, rst := 0x0 }
def DIG_EVT_refused : Fld := { base := 0xE004, hi := 1, lo := 1, acc := .w1c, rst := 0x0 }
def DIG_EVT_closed : Fld := { base := 0xE004, hi := 0, lo := 0, acc := .w1c, rst := 0x0 }
/-! KTU_DIG_IDX (R558, 16_silent_error_defences.md) -/
def DIG_IDX_word : Fld := { base := 0xE008, hi := 8, lo := 6, acc := .rw, rst := 0x0 }
def DIG_IDX_region : Fld := { base := 0xE008, hi := 5, lo := 0, acc := .rw, rst := 0x0 }
/-! KTU_DIG_DATA (R558, 16_silent_error_defences.md) -/
def DIG_DATA_data : Fld := { base := 0xE00C, hi := 31, lo := 0, acc := .ro, rst := 0x0 }
/-! KTU_DIG_IDLE (R558, 16_silent_error_defences.md) -/
def DIG_IDLE_lines : Fld := { base := 0xE010, hi := 31, lo := 0, acc := .rc, rst := 0x0 }
/-! KTU_DIG_OWNr (R558, 16_silent_error_defences.md) -/
def DIG_OWNr_owner : Fld := { base := 0xE100, stride := 0x4, count := 64, hi := 4, lo := 0, acc := .rwt, rst := 0x10 }
/-! KTU_PAT_DOMd (R559, 16_silent_error_defences.md) -/
def PAT_DOMd_approver : Fld := { base := 0xE200, stride := 0x4, count := 4, hi := 4, lo := 0, acc := .rwt, rst := 0x10 }
/-! KTU_PAT_WINd_LO (R559, 16_silent_error_defences.md) -/
def PAT_WINd_LO_first_lo : Fld := { base := 0xE210, stride := 0x8, count := 4, hi := 31, lo := 0, acc := .rw, rst := 0x0 }
/-! KTU_PAT_WINd_HI (R559, 16_silent_error_defences.md) -/
def PAT_WINd_HI_length : Fld := { base := 0xE214, stride := 0x8, count := 4, hi := 31, lo := 16, acc := .rw, rst := 0x0 }
def PAT_WINd_HI_first_hi : Fld := { base := 0xE214, stride := 0x8, count := 4, hi := 15, lo := 0, acc := .rw, rst := 0x0 }
/-! KTU_PAT_STATUS (R559, 16_silent_error_defences.md) -/
def PAT_STATUS_running : Fld := { base := 0xE240, hi := 31, lo := 31, acc := .ro, rst := 0x0 }
def PAT_STATUS_domain : Fld := { base := 0xE240, hi := 30, lo := 29, acc := .ro, rst := 0x0 }
def PAT_STATUS_queued : Fld := { base := 0xE240, hi := 28, lo := 27, acc := .ro, rst := 0x0 }
def PAT_STATUS_word : Fld := { base := 0xE240, hi := 26, lo := 16, acc := .ro, rst := 0x0 }
/-! KTU_PAT_ID (R559, 16_silent_error_defences.md) -/
def PAT_ID_pattern_id : Fld := { base := 0xE244, hi := 31, lo := 0, acc := .ro, rst := 0x0 }
/-! KTU_PAT_EVT (R559, 16_silent_error_defences.md) -/
def PAT_EVT_ended : Fld := { base := 0xE248, hi := 4, lo := 0, acc := .w1c, rst := 0x0 }
/-! KTU_PAT_RUNS (R559, 16_silent_error_defences.md) -/
def PAT_RUNS_count : Fld := { base := 0xE24C, hi := 31, lo := 0, acc := .rc, rst := 0x0 }
/-! KTU_IRQ_SRC (R686, 21_ktu_register_map.md) -/
def IRQ_SRC_src : Fld := { base := 0xF000, hi := 14, lo := 0, acc := .ro, rst := 0x0 }
/-! KTU_IRQ_PEND (R686, 21_ktu_register_map.md) -/
def IRQ_PEND_pend : Fld := { base := 0xF004, hi := 14, lo := 0, acc := .w1c, rst := 0x0 }
/-! KTU_IRQ_EN (R686, 21_ktu_register_map.md) -/
def IRQ_EN_en : Fld := { base := 0xF008, hi := 14, lo := 0, acc := .rw, rst := 0x0 }
/-! KTU_IRQ_CFG (R686, 21_ktu_register_map.md) -/
def IRQ_CFG_mode : Fld := { base := 0xF00C, hi := 5, lo := 5, acc := .rw, rst := 0x0 }
def IRQ_CFG_owner : Fld := { base := 0xF00C, hi := 4, lo := 0, acc := .rw, rst := 0x10 }
/-! KTU_ERR_STATUS (R688, 21_ktu_register_map.md) -/
def ERR_STATUS_hist_invalid : Fld := { base := 0xF010, hi := 8, lo := 8, acc := .ro, rst := 0x0 }
def ERR_STATUS_addr_ue : Fld := { base := 0xF010, hi := 4, lo := 4, acc := .w1c, rst := 0x0 }
def ERR_STATUS_cmdhist_ue : Fld := { base := 0xF010, hi := 3, lo := 3, acc := .w1c, rst := 0x0 }
def ERR_STATUS_link_ue : Fld := { base := 0xF010, hi := 2, lo := 2, acc := .w1c, rst := 0x0 }
def ERR_STATUS_time_ue : Fld := { base := 0xF010, hi := 1, lo := 1, acc := .w1c, rst := 0x0 }
def ERR_STATUS_ce_seen : Fld := { base := 0xF010, hi := 0, lo := 0, acc := .w1c, rst := 0x0 }
/-! KTU_ERR_FIRST (R688, 21_ktu_register_map.md) -/
def ERR_FIRST_code : Fld := { base := 0xF014, hi := 7, lo := 0, acc := .ro, rst := 0x0 }
/-! KTU_ERR_CECNT (R688, 21_ktu_register_map.md) -/
def ERR_CECNT_count : Fld := { base := 0xF018, hi := 31, lo := 0, acc := .rc, rst := 0x0 }
/-! KTU_ERR_REGREF (R688, 21_ktu_register_map.md) -/
def ERR_REGREF_remote : Fld := { base := 0xF01C, hi := 31, lo := 16, acc := .rc, rst := 0x0 }
def ERR_REGREF_local : Fld := { base := 0xF01C, hi := 15, lo := 0, acc := .rc, rst := 0x0 }
/-! KTU_ERR_CMD (R688, 21_ktu_register_map.md) -/
def ERR_CMD_hist_revalidate : Fld := { base := 0xF020, hi := 0, lo := 0, acc := .wo, rst := 0x0 }
/-! KTU_ERR_ALARMS (R688, 21_ktu_register_map.md) -/
def ERR_ALARMS_count : Fld := { base := 0xF024, hi := 31, lo := 0, acc := .rc, rst := 0x0 }

/-- Fields 0 and on of the map, by address. -/
def part0 : List Fld :=
  [ID_part, ID_revision, UID_LO_uid_lo,
   UID_HI_uid_hi, CAP0_tail_units, CAP0_pmu,
   CAP0_slot_groups, CAP0_trace_src, CAP1_regions,
   CAP1_domains, CAP1_fstore, CAP1_replay,
   CAP1_dyn_tables, CAP1_ratios, CAP2_cores,
   CAP2_cmd_hist, CAP2_series, RESET_CMD_key,
   RESET_CMD_fife, RESET_CMD_time, RESET_CMD_owners,
   RESET_CMD_counters, RESET_STATUS_done, RESET_STATUS_pending,
   SCRATCH_data, STRAP_ncores, STRAP_dig_dom,
   STRAP_pat_dom, STRAP_dbg_dom, STRAP_dom_en,
   STRAP_profile, STRAP_leaf, HOSTDOM_cap_overrun,
   HOSTDOM_pg_event, HOSTDOM_rst_event, HOSTDOM_wake_seen,
   HOSTDOM_masked, HOSTDOM_pg_state, HOSTDOM_rst_state,
   ABORT_force_clear]

/-- Fields 40 and on of the map, by address. -/
def part1 : List Fld :=
  [ABORT_pending, ABORT_part, TSCAPd_A_LO_ns,
   TSCAPd_A_HI_ns, TSCAPd_B_LO_ns, TSCAPd_B_HI_ns,
   TBx_CTRL_hold, TBx_CTRL_domain, TBx_CTRL_enable,
   TBx_STATUS_holdover_entered, TBx_STATUS_step_applied, TBx_STATUS_step_refused,
   TBx_STATUS_lock_lost, TBx_STATUS_step_pending, TBx_STATUS_delay_valid,
   TBx_STATUS_state, TBx_TIME_LO_ns_lo, TBx_TIME_HI_ns_hi,
   TBx_TIME_FRAC_frac, TBx_INCR_FRAC_incr_frac, TBx_INCR_INT_incr_int,
   TBx_ADJ_adj, TBx_GAIN_kp, TBx_GAIN_ki,
   TBx_STEP_THR_step_thr_ns, TBx_LOCK_THR_lock_thr_ps, TBx_OFFSET_offset,
   TBx_DELAY_d_filt, TBx_REFUSED_refused, TBx_STEP_AMT_LO_amt_lo,
   TBx_STEP_AMT_HI_amt_hi, TBx_STEP_AT_LO_at_lo, TBx_STEP_AT_HI_at_hi,
   TBx_STEP_CMD_accept_pending, TBx_STEP_CMD_apply, TBx_LIMITS_refuse_limit,
   TBx_LIMITS_lock_count, TIME_SEL_revertive, TIME_SEL_ezcia_mode,
   TIME_SEL_tick_src]

/-- Fields 80 and on of the map, by address. -/
def part2 : List Fld :=
  [TIME_SW_switches, TIME_SW_switch_event, TIME_SW_current_src,
   TIME_DIFF_diff, FIFE_ASYM_asym, TIME_DREQ_delay_gate_ns,
   TIME_DREQ_interval_us, TIME_SYNCIV_sync_iv_us, TICK_CTRL_period_wr_ignored,
   TICK_CTRL_run, TICK_PERIOD_period_us, TICK_NUM_LO_tick_lo,
   TICK_NUM_HI_tick_hi, TICK_SKIP_skipped, AON_U_LOk_val_lo,
   AON_U_HIk_val_hi, AON_E_LOk_val_lo, AON_E_HIk_val_hi,
   AON_SHARE_read_grant, AON_OVFm_ovf, SLOTg_CTRL_owner,
   SLOTg_CTRL_width, SLOTg_STATUS_excess_seen, SLOTg_STATUS_ovf,
   SLOTg_LO0_val_lo, SLOTg_HI0_val_hi, SLOTg_LO1_val_lo,
   SLOTg_HI1_val_hi, SLOTg_LO2_val_lo, SLOTg_HI2_val_hi,
   SLOTg_LO3_val_lo, SLOTg_HI3_val_hi, SLOTg_LO4_val_lo,
   SLOTg_HI4_val_hi, SLOTg_LO5_val_lo, SLOTg_HI5_val_hi,
   SLOTg_LO6_val_lo, SLOTg_HI6_val_hi, SMAP_IDX_series,
   SMAP_DATA_class]

/-- Fields 120 and on of the map, by address. -/
def part3 : List Fld :=
  [SMAP_DATA_source, SCHEMA_profile, SCHEMA_schema_id,
   CNT_STATUS_ecc_ue, CNT_STATUS_carry, CNT_STATUS_reconfig_frame,
   CNT_STATUS_ovf_frame, CNT_ERRSRC_class, CNT_ERRSRC_source,
   PMU_DOMGRANT_LO_grant, PMU_DOMGRANT_HI_grant, PMUi_CTRL_owner,
   PMUi_CTRL_domain, PMUi_CTRL_enable, PMUi_STATUS_denied,
   PMUi_STATUS_staged, PMUi_STATUS_cfg_applied, PMUi_STATUS_cyc_ovf,
   PMUi_STATUS_ovf, PMUi_CYC_LO_val_lo, PMUi_CYC_HI_val_hi,
   PMUi_SEL0_threshold, PMUi_SEL0_mode, PMUi_SEL0_source,
   PMUi_SEL1_threshold, PMUi_SEL1_mode, PMUi_SEL1_source,
   PMUi_SEL2_threshold, PMUi_SEL2_mode, PMUi_SEL2_source,
   PMUi_SEL3_threshold, PMUi_SEL3_mode, PMUi_SEL3_source,
   PMUi_SEL4_threshold, PMUi_SEL4_mode, PMUi_SEL4_source,
   PMUi_SEL5_threshold, PMUi_SEL5_mode, PMUi_SEL5_source,
   PMUi_SEL6_threshold]

/-- Fields 160 and on of the map, by address. -/
def part4 : List Fld :=
  [PMUi_SEL6_mode, PMUi_SEL6_source, PMUi_SEL7_threshold,
   PMUi_SEL7_mode, PMUi_SEL7_source, PMUi_IDX_counter,
   PMUi_VAL_LO_val_lo, PMUi_VAL_HI_val_hi, PMUi_CMD_clear,
   TAIL_CTRL_arm, TAIL_CTRL_enable, TAIL_STATUS_ecc_ue,
   TAIL_STATUS_bad_unit, TAIL_IDX_unit, TAIL_IDX_hdr,
   TAIL_IDX_slot, TAIL_DATA_LO_data_lo, TAIL_DATA_HI_data_hi,
   TAIL_CMD_op, TAIL_CMD_last, TAIL_CMD_first,
   TAIL_OWNb_owner, TAIL_LOSTd_lost, TRC_CTRL_resync_ticks,
   TRC_CTRL_enable, TRC_STATUS_ecc_ue, TRC_STATUS_ctx_lost,
   TRC_STATUS_occupancy, TRC_THR_thr3, TRC_THR_thr2,
   TRC_THR_thr1, TRC_THR_thr0, TRC_SRCs_owner,
   TRC_SRCs_enable, TRC_DROPs_drops, TRC_CMD_resync,
   HALT_CFG_timeout_us, HALT_CFG_lead_ticks, HALT_COREc_owner,
   HALT_COREc_bkpt_en]

/-- Fields 200 and on of the map, by address. -/
def part5 : List Fld :=
  [HALT_COREc_halt_en, HALT_DOMd_part, HALT_BKPT_no_tick,
   HALT_BKPT_ignored, HALT_BKPT_bkpt_seen, HALT_Sk_STATE_origin_core,
   HALT_Sk_STATE_origin, HALT_Sk_STATE_state, HALT_Sk_H_LO_h_lo,
   HALT_Sk_H_HI_h_hi, HALT_Sk_MISSING_resume_incomplete, HALT_Sk_MISSING_late,
   HALT_Sk_MISSING_domains, HALT_Sk_MISSING_cores, HALT_CMD_req,
   CODEC_CTRL_table_id, CODEC_CTRL_ratio, CODEC_STATUS_ecc_ue,
   CODEC_STATUS_carry_sat, CODEC_STATUS_tbl_refused, CODEC_STATUS_lossy_frame,
   CODEC_STATUS_carry_held, CODEC_STATUS_ratio_now, CODEC_STATUS_table_now,
   CODEC_LOSSY_frames, CODEC_CDROP_drops, CODEC_HELD_held,
   CODEC_LAST_max_shift, CODEC_LAST_lossy_blocks, FRAME_SEQ_seq,
   CODEC_TBL_IDX_table, CODEC_TBL_IDX_staged, CODEC_TBL_IDX_word,
   CODEC_TBL_DATA_lengths, CODEC_TBL_GEN_gen, FIFE_CTRL_up_reset,
   FIFE_CTRL_dn_reset, FIFE_CTRL_up_retrain, FIFE_CTRL_dn_retrain,
   FIFE_CTRL_wake]

/-- Fields 240 and on of the map, by address. -/
def part6 : List Fld :=
  [FIFE_CTRL_dn_enable, FIFE_STATUS_chain_overlong, FIFE_STATUS_addr_valid,
   FIFE_STATUS_wake_pending, FIFE_STATUS_lp_state, FIFE_STATUS_sleep_phase,
   FIFE_STATUS_dn_state, FIFE_STATUS_up_state, FIFE_ADDR_addr,
   FIFE_MEMBER_member, FIFE_ALLOW_slots, FIFE_ALLOW_trace_flits,
   FIFE_ALLOW_cmd_flits, FIFE_EVT_addr_changed, FIFE_EVT_trunc,
   FIFE_EVT_alarm_bad, FIFE_EVT_malformed, FIFE_EVT_reset,
   FIFE_EVT_retrain, FIFE_EVT_retry, FIFE_CRCERR_UP_count,
   FIFE_CRCERR_DN_count, FIFE_REPLAY_UP_count, FIFE_REPLAY_DN_count,
   FIFE_RETRAIN_up, FIFE_RETRAIN_dn, FIFE_RESETS_up,
   FIFE_RESETS_dn, FIFE_ALARM_DUP_count, FIFE_MSGDROP_count,
   FIFE_CMDDUP_count, FIFE_COAL_count, Q_STATUS_chk_err,
   Q_STATUS_ovr_any, Q_STATUS_chk_id, Q_CHKCNT_count,
   QOVR_LO_ovr, QOVR_HI_ovr, QOCC_IDX_id,
   QOCC_DATA_flush_pending]

/-- Fields 280 and on of the map, by address. -/
def part7 : List Fld :=
  [QOCC_DATA_full, QOCC_DATA_empty, QOCC_DATA_occupancy,
   QFLUSH_go, QFLUSH_id, ARB_TAIL_pri3,
   ARB_TAIL_pri2, ARB_TAIL_pri1, ARB_TAIL_pri0,
   DIG_CTRL_tap_en, DIG_EVT_ecc_ue, DIG_EVT_interrupted,
   DIG_EVT_refused, DIG_EVT_closed, DIG_IDX_word,
   DIG_IDX_region, DIG_DATA_data, DIG_IDLE_lines,
   DIG_OWNr_owner, PAT_DOMd_approver, PAT_WINd_LO_first_lo,
   PAT_WINd_HI_length, PAT_WINd_HI_first_hi, PAT_STATUS_running,
   PAT_STATUS_domain, PAT_STATUS_queued, PAT_STATUS_word,
   PAT_ID_pattern_id, PAT_EVT_ended, PAT_RUNS_count,
   IRQ_SRC_src, IRQ_PEND_pend, IRQ_EN_en,
   IRQ_CFG_mode, IRQ_CFG_owner, ERR_STATUS_hist_invalid,
   ERR_STATUS_addr_ue, ERR_STATUS_cmdhist_ue, ERR_STATUS_link_ue,
   ERR_STATUS_time_ue]

/-- Fields 320 and on of the map, by address. -/
def part8 : List Fld :=
  [ERR_STATUS_ce_seen, ERR_FIRST_code, ERR_CECNT_count,
   ERR_REGREF_remote, ERR_REGREF_local, ERR_CMD_hist_revalidate,
   ERR_ALARMS_count]

/-- Every field of the map, by address. -/
def table : List Fld :=
  part0 ++ part1 ++ part2 ++ part3 ++ part4 ++ part5 ++ part6 ++ part7 ++ part8

end Sys2Proof.Machine.KReg
end

