-- ==== Sys2Proof/Machine/RegsNld.lean ====
section
/-! DEFINITION. The Naloder register map (22_naloder_register_map.md); VF n of BAR space lies at 0x100_0000 + 0x1_0000 n. Each field is written out of the field table of the rule named above its register: address,
stride and count of an indexed register, bits, access code and reset value. -/

namespace Sys2Proof.Machine.NReg

/-! NLD_ID (R693, 22_naloder_register_map.md) -/
def ID_part : Fld := { base := 0x0, hi := 31, lo := 16, acc := .ro, rst := 0x4E4C }
def ID_revision : Fld := { base := 0x0, hi := 15, lo := 0, acc := .ro, rst := 0x0 }
/-! NLD_SERIAL_LO (R693, 22_naloder_register_map.md) -/
def SERIAL_LO_serial_lo : Fld := { base := 0x4, hi := 31, lo := 0, acc := .ro, rst := 0x0 }
/-! NLD_SERIAL_HI (R693, 22_naloder_register_map.md) -/
def SERIAL_HI_serial_hi : Fld := { base := 0x8, hi := 31, lo := 0, acc := .ro, rst := 0x0 }
/-! NLD_CAP0 (R693, 22_naloder_register_map.md) -/
def CAP0_fife_ports : Fld := { base := 0xC, hi := 31, lo := 27, acc := .ro, rst := 0x10 }
def CAP0_horn_ports : Fld := { base := 0xC, hi := 26, lo := 23, acc := .ro, rst := 0x8 }
def CAP0_eth_ports : Fld := { base := 0xC, hi := 22, lo := 21, acc := .ro, rst := 0x2 }
def CAP0_vfs : Fld := { base := 0xC, hi := 20, lo := 16, acc := .ro, rst := 0x10 }
def CAP0_arrays : Fld := { base := 0xC, hi := 15, lo := 10, acc := .ro, rst := 0x28 }
def CAP0_clusters : Fld := { base := 0xC, hi := 9, lo := 6, acc := .ro, rst := 0xA }
def CAP0_open_ticks : Fld := { base := 0xC, hi := 5, lo := 3, acc := .ro, rst := 0x4 }
/-! NLD_CAP1 (R693, 22_naloder_register_map.md) -/
def CAP1_rdv : Fld := { base := 0x10, hi := 31, lo := 17, acc := .ro, rst := 0x4000 }
def CAP1_qps : Fld := { base := 0x10, hi := 16, lo := 4, acc := .ro, rst := 0x1000 }
/-! NLD_CAP2 (R693, 22_naloder_register_map.md) -/
def CAP2_hbm_gib : Fld := { base := 0x14, hi := 31, lo := 24, acc := .ro, rst := 0x48 }
def CAP2_sram_mib : Fld := { base := 0x14, hi := 23, lo := 16, acc := .ro, rst := 0x60 }
def CAP2_nv_mib : Fld := { base := 0x14, hi := 15, lo := 0, acc := .ro, rst := 0x100 }
/-! NLD_RST_CAUSE (R694, 22_naloder_register_map.md) -/
def RST_CAUSE_last_fault : Fld := { base := 0x10000, hi := 31, lo := 24, acc := .ro, rst := 0x0 }
def RST_CAUSE_pkg_resets : Fld := { base := 0x10000, hi := 15, lo := 8, acc := .ro, rst := 0x0 }
def RST_CAUSE_by_cmd : Fld := { base := 0x10000, hi := 1, lo := 1, acc := .ro, rst := 0x0 }
def RST_CAUSE_por : Fld := { base := 0x10000, hi := 0, lo := 0, acc := .ro, rst := 0x1 }
/-! NLD_RST_CMD (R695, 22_naloder_register_map.md) -/
def RST_CMD_key : Fld := { base := 0x10004, hi := 31, lo := 24, acc := .wo, rst := 0x0 }
def RST_CMD_clear_fault : Fld := { base := 0x10004, hi := 1, lo := 1, acc := .wo, rst := 0x0 }
def RST_CMD_pkg_reset : Fld := { base := 0x10004, hi := 0, lo := 0, acc := .wo, rst := 0x0 }
/-! NLD_CLK_STATUS (R697, 22_naloder_register_map.md) -/
def CLK_STATUS_pll_io : Fld := { base := 0x10010, hi := 31, lo := 31, acc := .ro, rst := 0x0 }
def CLK_STATUS_pll_cmp : Fld := { base := 0x10010, hi := 30, lo := 30, acc := .ro, rst := 0x0 }
def CLK_STATUS_pll_hbm : Fld := { base := 0x10010, hi := 29, lo := 29, acc := .ro, rst := 0x0 }
def CLK_STATUS_ref_sys : Fld := { base := 0x10010, hi := 4, lo := 4, acc := .ro, rst := 0x0 }
def CLK_STATUS_ref_pcie : Fld := { base := 0x10010, hi := 3, lo := 3, acc := .ro, rst := 0x0 }
def CLK_STATUS_ref_eth : Fld := { base := 0x10010, hi := 2, lo := 2, acc := .ro, rst := 0x0 }
def CLK_STATUS_ref_horn : Fld := { base := 0x10010, hi := 1, lo := 1, acc := .ro, rst := 0x0 }
def CLK_STATUS_ref_fife : Fld := { base := 0x10010, hi := 0, lo := 0, acc := .ro, rst := 0x0 }
/-! NLD_PKG_EVT (R698, 22_naloder_register_map.md) -/
def PKG_EVT_ref_lost : Fld := { base := 0x10014, hi := 2, lo := 2, acc := .w1c, rst := 0x0 }
def PKG_EVT_fw_state : Fld := { base := 0x10014, hi := 1, lo := 1, acc := .w1c, rst := 0x0 }
def PKG_EVT_reset_refused : Fld := { base := 0x10014, hi := 0, lo := 0, acc := .w1c, rst := 0x0 }
/-! NLD_BOOT_STATUS (R338, 09_naloder_organisation.md) -/
def BOOT_STATUS_fail_code : Fld := { base := 0x10100, hi := 31, lo := 24, acc := .ro, rst := 0x0 }
def BOOT_STATUS_hbm_ok : Fld := { base := 0x10100, hi := 15, lo := 15, acc := .ro, rst := 0x0 }
def BOOT_STATUS_nv_ok : Fld := { base := 0x10100, hi := 14, lo := 14, acc := .ro, rst := 0x0 }
def BOOT_STATUS_compute_on : Fld := { base := 0x10100, hi := 13, lo := 13, acc := .ro, rst := 0x0 }
def BOOT_STATUS_puf_ok : Fld := { base := 0x10100, hi := 12, lo := 12, acc := .ro, rst := 0x0 }
def BOOT_STATUS_stage : Fld := { base := 0x10100, hi := 3, lo := 0, acc := .ro, rst := 0x0 }
/-! NLD_PWR_STATUS (R339, 09_naloder_organisation.md) -/
def PWR_STATUS_thr_event : Fld := { base := 0x10200, hi := 31, lo := 31, acc := .w1c, rst := 0x0 }
def PWR_STATUS_cause : Fld := { base := 0x10200, hi := 30, lo := 28, acc := .ro, rst := 0x0 }
def PWR_STATUS_level : Fld := { base := 0x10200, hi := 26, lo := 24, acc := .ro, rst := 0x0 }
def PWR_STATUS_power_w : Fld := { base := 0x10200, hi := 23, lo := 14, acc := .ro, rst := 0x0 }
def PWR_STATUS_tj_c : Fld := { base := 0x10200, hi := 7, lo := 0, acc := .ro, rst := 0x0 }
/-! NLD_PWR_LIMIT (R340, 09_naloder_organisation.md) -/
def PWR_LIMIT_power_limit_w : Fld := { base := 0x10204, hi := 25, lo := 16, acc := .rw, rst := 0x208 }
def PWR_LIMIT_tj_throttle_c : Fld := { base := 0x10204, hi := 7, lo := 0, acc := .rw, rst := 0x64 }
/-! NLD_FW_LOAD_ADDR_LO (R649, 19_firmware.md) -/
def FW_LOAD_ADDR_LO_addr_lo : Fld := { base := 0x10300, hi := 31, lo := 12, acc := .rw, rst := 0x0 }
/-! NLD_FW_LOAD_ADDR_HI (R649, 19_firmware.md) -/
def FW_LOAD_ADDR_HI_addr_hi : Fld := { base := 0x10304, hi := 31, lo := 0, acc := .rw, rst := 0x0 }
/-! NLD_FW_LOAD_LEN (R649, 19_firmware.md) -/
def FW_LOAD_LEN_len : Fld := { base := 0x10308, hi := 31, lo := 0, acc := .rw, rst := 0x0 }
/-! NLD_FW_LOAD_CMD (R649, 19_firmware.md) -/
def FW_LOAD_CMD_go : Fld := { base := 0x1030C, hi := 31, lo := 31, acc := .wo, rst := 0x0 }
def FW_LOAD_CMD_update : Fld := { base := 0x1030C, hi := 30, lo := 30, acc := .wo, rst := 0x0 }
/-! NLD_FW_LOAD_STAT (R649, 19_firmware.md) -/
def FW_LOAD_STAT_busy : Fld := { base := 0x10310, hi := 31, lo := 31, acc := .ro, rst := 0x0 }
def FW_LOAD_STAT_restored : Fld := { base := 0x10310, hi := 30, lo := 30, acc := .ro, rst := 0x0 }
def FW_LOAD_STAT_code : Fld := { base := 0x10310, hi := 7, lo := 0, acc := .ro, rst := 0x0 }
/-! NLD_FW_STATUS (R649, 19_firmware.md) -/
def FW_STATUS_restarts : Fld := { base := 0x10320, hi := 31, lo := 16, acc := .ro, rst := 0x0 }
def FW_STATUS_last_cause : Fld := { base := 0x10320, hi := 15, lo := 12, acc := .ro, rst := 0x0 }
def FW_STATUS_slot : Fld := { base := 0x10320, hi := 8, lo := 8, acc := .ro, rst := 0x0 }
def FW_STATUS_state : Fld := { base := 0x10320, hi := 1, lo := 0, acc := .ro, rst := 0x0 }
/-! NLD_FW_WDT (R649, 19_firmware.md) -/
def FW_WDT_kick : Fld := { base := 0x10324, hi := 3, lo := 0, acc := .wo, rst := 0x0 }
/-! NLD_HWERR_PROD (R649, 19_firmware.md) -/
def HWERR_PROD_seq : Fld := { base := 0x10330, hi := 31, lo := 0, acc := .ro, rst := 0x0 }
/-! NLD_HWERR_CONS (R649, 19_firmware.md) -/
def HWERR_CONS_seq : Fld := { base := 0x10334, hi := 31, lo := 0, acc := .rw, rst := 0x0 }
/-! NLD_HWERR_LOST (R649, 19_firmware.md) -/
def HWERR_LOST_count : Fld := { base := 0x10338, hi := 31, lo := 0, acc := .rc, rst := 0x0 }
/-! NLD_FW_OBSVw (R649, 19_firmware.md) -/
def FW_OBSVw_obsv : Fld := { base := 0x10340, stride := 0x4, count := 16, hi := 31, lo := 0, acc := .rw, rst := 0x0 }
/-! NLD_FWE_VERSION (R590, 17_host_interface.md) -/
def FWE_VERSION_major : Fld := { base := 0x20000, hi := 31, lo := 24, acc := .ro, rst := 0x0 }
def FWE_VERSION_minor : Fld := { base := 0x20000, hi := 23, lo := 16, acc := .ro, rst := 0x0 }
def FWE_VERSION_patch : Fld := { base := 0x20000, hi := 15, lo := 0, acc := .ro, rst := 0x0 }
/-! NLD_FWE_STATE (R590, 17_host_interface.md) -/
def FWE_STATE_restarts : Fld := { base := 0x20004, hi := 31, lo := 16, acc := .ro, rst := 0x0 }
def FWE_STATE_state : Fld := { base := 0x20004, hi := 1, lo := 0, acc := .ro, rst := 0x1 }
/-! NLD_FWE_HIST (R590, 17_host_interface.md) -/
def FWE_HIST_gib : Fld := { base := 0x20010, hi := 5, lo := 0, acc := .rw, rst := 0x26 }
/-! NLD_FWE_POOL_IDX (R590, 17_host_interface.md) -/
def FWE_POOL_IDX_owner : Fld := { base := 0x20014, hi := 4, lo := 0, acc := .rw, rst := 0x10 }
/-! NLD_FWE_POOL_DATA (R590, 17_host_interface.md) -/
def FWE_POOL_DATA_base : Fld := { base := 0x20018, hi := 31, lo := 16, acc := .ro, rst := 0x0 }
def FWE_POOL_DATA_units : Fld := { base := 0x20018, hi := 15, lo := 0, acc := .rw, rst := 0x0 }
/-! NLD_FWE_HBMWAIT_LOc (R590, 17_host_interface.md) -/
def FWE_HBMWAIT_LOc_val_lo : Fld := { base := 0x20100, stride := 0x8, count := 5, hi := 31, lo := 0, acc := .ro, rst := 0x0 }
/-! NLD_FWE_HBMWAIT_HIc (R590, 17_host_interface.md) -/
def FWE_HBMWAIT_HIc_val_hi : Fld := { base := 0x20104, stride := 0x8, count := 5, hi := 31, lo := 0, acc := .ro, rst := 0x0 }
/-! NLD_FWE_PTPe_CLK0 (R590, 17_host_interface.md) -/
def FWE_PTPe_CLK0_clock_id : Fld := { base := 0x20200, stride := 0x20, count := 2, hi := 31, lo := 0, acc := .rw, rst := 0x0 }
/-! NLD_FWE_PTPe_CLK1 (R590, 17_host_interface.md) -/
def FWE_PTPe_CLK1_clock_id : Fld := { base := 0x20204, stride := 0x20, count := 2, hi := 31, lo := 0, acc := .rw, rst := 0x0 }
/-! NLD_FWE_PTPe_PORT (R590, 17_host_interface.md) -/
def FWE_PTPe_PORT_port_number : Fld := { base := 0x20208, stride := 0x20, count := 2, hi := 15, lo := 0, acc := .rw, rst := 0x0 }
/-! NLD_FWE_PTPe_SRC0 (R590, 17_host_interface.md) -/
def FWE_PTPe_SRC0_source : Fld := { base := 0x2020C, stride := 0x20, count := 2, hi := 31, lo := 0, acc := .rw, rst := 0x0 }
/-! NLD_FWE_PTPe_SRC1 (R590, 17_host_interface.md) -/
def FWE_PTPe_SRC1_source : Fld := { base := 0x20210, stride := 0x20, count := 2, hi := 31, lo := 0, acc := .rw, rst := 0x0 }
/-! NLD_FWE_PTPe_SRC2 (R590, 17_host_interface.md) -/
def FWE_PTPe_SRC2_source : Fld := { base := 0x20214, stride := 0x20, count := 2, hi := 31, lo := 0, acc := .rw, rst := 0x0 }
/-! NLD_FWE_PTPe_SRC3 (R590, 17_host_interface.md) -/
def FWE_PTPe_SRC3_source : Fld := { base := 0x20218, stride := 0x20, count := 2, hi := 31, lo := 0, acc := .rw, rst := 0x0 }
/-! NLD_FWE_LOGCTL (R650, 19_firmware.md) -/
def FWE_LOGCTL_level : Fld := { base := 0x20300, hi := 17, lo := 16, acc := .rw, rst := 0x2 }
def FWE_LOGCTL_trace_en : Fld := { base := 0x20300, hi := 15, lo := 0, acc := .rw, rst := 0x0 }
/-! NLD_FWE_LOGSEL (R650, 19_firmware.md) -/
def FWE_LOGSEL_word : Fld := { base := 0x20304, hi := 17, lo := 14, acc := .rw, rst := 0x0 }
def FWE_LOGSEL_index : Fld := { base := 0x20304, hi := 13, lo := 0, acc := .rw, rst := 0x0 }
/-! NLD_FWE_LOGDATA (R650, 19_firmware.md) -/
def FWE_LOGDATA_data : Fld := { base := 0x20308, hi := 31, lo := 0, acc := .ro, rst := 0x0 }
/-! NLD_FWE_LOGHEAD (R650, 19_firmware.md) -/
def FWE_LOGHEAD_seq : Fld := { base := 0x2030C, hi := 31, lo := 0, acc := .ro, rst := 0x0 }
/-! NLD_HQ_CTRL (R591, 17_host_interface.md) -/
def HQ_CTRL_ro : Fld := { base := 0x40000, hi := 8, lo := 8, acc := .rw, rst := 0x0 }
def HQ_CTRL_poll : Fld := { base := 0x40000, hi := 7, lo := 0, acc := .rw, rst := 0x4 }
/-! NLD_HQ_EVT (R591, 17_host_interface.md) -/
def HQ_EVT_emul_drop : Fld := { base := 0x40004, hi := 3, lo := 3, acc := .w1c, rst := 0x0 }
def HQ_EVT_emul_timeout : Fld := { base := 0x40004, hi := 2, lo := 2, acc := .w1c, rst := 0x0 }
def HQ_EVT_loss : Fld := { base := 0x40004, hi := 1, lo := 1, acc := .w1c, rst := 0x0 }
def HQ_EVT_ring_err : Fld := { base := 0x40004, hi := 0, lo := 0, acc := .w1c, rst := 0x0 }
/-! NLD_HQ_DBPAGE_LO (R591, 17_host_interface.md) -/
def HQ_DBPAGE_LO_addr_lo : Fld := { base := 0x40008, hi := 31, lo := 12, acc := .rw, rst := 0x0 }
/-! NLD_HQ_DBPAGE_HI (R591, 17_host_interface.md) -/
def HQ_DBPAGE_HI_addr_hi : Fld := { base := 0x4000C, hi := 31, lo := 0, acc := .rw, rst := 0x0 }
/-! NLD_HQ_RINGSEL (R591, 17_host_interface.md) -/
def HQ_RINGSEL_word : Fld := { base := 0x40010, hi := 9, lo := 5, acc := .rw, rst := 0x0 }
def HQ_RINGSEL_ring : Fld := { base := 0x40010, hi := 4, lo := 0, acc := .rw, rst := 0x0 }
/-! NLD_HQ_RINGDATA (R591, 17_host_interface.md) -/
def HQ_RINGDATA_data : Fld := { base := 0x40014, hi := 31, lo := 0, acc := .rw, rst := 0x0 }
/-! NLD_HQ_RINGCMD (R591, 17_host_interface.md) -/
def HQ_RINGCMD_op : Fld := { base := 0x40018, hi := 31, lo := 30, acc := .wo, rst := 0x0 }
def HQ_RINGCMD_refused : Fld := { base := 0x40018, hi := 29, lo := 29, acc := .ro, rst := 0x0 }
def HQ_RINGCMD_ring : Fld := { base := 0x40018, hi := 4, lo := 0, acc := .wo, rst := 0x0 }
/-! NLD_HQ_RINGSTAT (R591, 17_host_interface.md) -/
def HQ_RINGSTAT_enabled : Fld := { base := 0x4001C, hi := 31, lo := 0, acc := .ro, rst := 0x0 }
/-! NLD_HQ_HOSTERR (R592, 17_host_interface.md) -/
def HQ_HOSTERR_count : Fld := { base := 0x40020, hi := 31, lo := 0, acc := .rc, rst := 0x0 }
/-! NLD_HQ_LOST (R592, 17_host_interface.md) -/
def HQ_LOST_count : Fld := { base := 0x40024, hi := 31, lo := 0, acc := .rc, rst := 0x0 }
/-! NLD_HQ_TAPDROP (R592, 17_host_interface.md) -/
def HQ_TAPDROP_count : Fld := { base := 0x40028, hi := 31, lo := 0, acc := .rc, rst := 0x0 }
/-! NLD_HQ_EMULDROP (R592, 17_host_interface.md) -/
def HQ_EMULDROP_count : Fld := { base := 0x4002C, hi := 31, lo := 0, acc := .rc, rst := 0x0 }
/-! NLD_ARB_FETCH0 (R234, 06_queues_and_arbiters.md) -/
def ARB_FETCH0_pri15 : Fld := { base := 0x40040, hi := 31, lo := 30, acc := .rw, rst := 0x0 }
def ARB_FETCH0_pri14 : Fld := { base := 0x40040, hi := 29, lo := 28, acc := .rw, rst := 0x0 }
def ARB_FETCH0_pri13 : Fld := { base := 0x40040, hi := 27, lo := 26, acc := .rw, rst := 0x0 }
def ARB_FETCH0_pri12 : Fld := { base := 0x40040, hi := 25, lo := 24, acc := .rw, rst := 0x0 }
def ARB_FETCH0_pri11 : Fld := { base := 0x40040, hi := 23, lo := 22, acc := .rw, rst := 0x0 }
def ARB_FETCH0_pri10 : Fld := { base := 0x40040, hi := 21, lo := 20, acc := .rw, rst := 0x0 }
def ARB_FETCH0_pri9 : Fld := { base := 0x40040, hi := 19, lo := 18, acc := .rw, rst := 0x0 }
def ARB_FETCH0_pri8 : Fld := { base := 0x40040, hi := 17, lo := 16, acc := .rw, rst := 0x0 }
def ARB_FETCH0_pri7 : Fld := { base := 0x40040, hi := 15, lo := 14, acc := .rw, rst := 0x0 }
def ARB_FETCH0_pri6 : Fld := { base := 0x40040, hi := 13, lo := 12, acc := .rw, rst := 0x0 }
def ARB_FETCH0_pri5 : Fld := { base := 0x40040, hi := 11, lo := 10, acc := .rw, rst := 0x0 }
def ARB_FETCH0_pri4 : Fld := { base := 0x40040, hi := 9, lo := 8, acc := .rw, rst := 0x0 }
def ARB_FETCH0_pri3 : Fld := { base := 0x40040, hi := 7, lo := 6, acc := .rw, rst := 0x0 }
def ARB_FETCH0_pri2 : Fld := { base := 0x40040, hi := 5, lo := 4, acc := .rw, rst := 0x0 }
def ARB_FETCH0_pri1 : Fld := { base := 0x40040, hi := 3, lo := 2, acc := .rw, rst := 0x0 }
def ARB_FETCH0_pri0 : Fld := { base := 0x40040, hi := 1, lo := 0, acc := .rw, rst := 0x0 }
/-! NLD_ARB_FETCH1 (R234, 06_queues_and_arbiters.md) -/
def ARB_FETCH1_pri16 : Fld := { base := 0x40044, hi := 1, lo := 0, acc := .rw, rst := 0x0 }
/-! NLD_XCHK_EXPFAIL (R560, 16_silent_error_defences.md) -/
def XCHK_EXPFAIL_count : Fld := { base := 0x40100, hi := 31, lo := 0, acc := .rc, rst := 0x0 }
/-! NLD_XCHK_EVT (R560, 16_silent_error_defences.md) -/
def XCHK_EVT_pos : Fld := { base := 0x40104, hi := 16, lo := 8, acc := .ro, rst := 0x0 }
def XCHK_EVT_exp_fail : Fld := { base := 0x40104, hi := 0, lo := 0, acc := .w1c, rst := 0x0 }
/-! NLD_FIFEp_CTRL (R315, 08_fife_link.md) -/
def FIFEp_CTRL_reset : Fld := { base := 0x80000, stride := 0x1000, count := 16, hi := 3, lo := 3, acc := .wo, rst := 0x0 }
def FIFEp_CTRL_retrain : Fld := { base := 0x80000, stride := 0x1000, count := 16, hi := 2, lo := 2, acc := .wo, rst := 0x0 }
def FIFEp_CTRL_wake : Fld := { base := 0x80000, stride := 0x1000, count := 16, hi := 1, lo := 1, acc := .wo, rst := 0x0 }
def FIFEp_CTRL_enable : Fld := { base := 0x80000, stride := 0x1000, count := 16, hi := 0, lo := 0, acc := .rw, rst := 0x1 }
/-! NLD_FIFEp_STATUS (R315, 08_fife_link.md) -/
def FIFEp_STATUS_lp_state : Fld := { base := 0x80004, stride := 0x1000, count := 16, hi := 21, lo := 20, acc := .ro, rst := 0x0 }
def FIFEp_STATUS_link_state : Fld := { base := 0x80004, stride := 0x1000, count := 16, hi := 19, lo := 16, acc := .ro, rst := 0x0 }
def FIFEp_STATUS_end_leaf : Fld := { base := 0x80004, stride := 0x1000, count := 16, hi := 12, lo := 12, acc := .ro, rst := 0x0 }
def FIFEp_STATUS_chain_len : Fld := { base := 0x80004, stride := 0x1000, count := 16, hi := 5, lo := 0, acc := .ro, rst := 0x0 }
/-! NLD_FIFEp_SLEEP (R315, 08_fife_link.md) -/
def FIFEp_SLEEP_go : Fld := { base := 0x80008, stride := 0x1000, count := 16, hi := 31, lo := 31, acc := .wo, rst := 0x0 }
def FIFEp_SLEEP_target : Fld := { base := 0x80008, stride := 0x1000, count := 16, hi := 9, lo := 8, acc := .rw, rst := 0x0 }
def FIFEp_SLEEP_phase : Fld := { base := 0x80008, stride := 0x1000, count := 16, hi := 1, lo := 0, acc := .ro, rst := 0x0 }
/-! NLD_FIFEp_ENUM_IDX (R315, 08_fife_link.md) -/
def FIFEp_ENUM_IDX_word : Fld := { base := 0x8000C, stride := 0x1000, count := 16, hi := 7, lo := 5, acc := .rw, rst := 0x0 }
def FIFEp_ENUM_IDX_pos : Fld := { base := 0x8000C, stride := 0x1000, count := 16, hi := 4, lo := 0, acc := .rw, rst := 0x0 }
/-! NLD_FIFEp_ENUM_DATA (R315, 08_fife_link.md) -/
def FIFEp_ENUM_DATA_data : Fld := { base := 0x80010, stride := 0x1000, count := 16, hi := 31, lo := 0, acc := .ro, rst := 0x0 }
/-! NLD_FIFEp_CRCERR (R315, 08_fife_link.md) -/
def FIFEp_CRCERR_count : Fld := { base := 0x80020, stride := 0x1000, count := 16, hi := 31, lo := 0, acc := .rc, rst := 0x0 }
/-! NLD_FIFEp_REPLAY (R315, 08_fife_link.md) -/
def FIFEp_REPLAY_count : Fld := { base := 0x80024, stride := 0x1000, count := 16, hi := 31, lo := 0, acc := .rc, rst := 0x0 }
/-! NLD_FIFEp_RETRAIN (R315, 08_fife_link.md) -/
def FIFEp_RETRAIN_resets : Fld := { base := 0x80028, stride := 0x1000, count := 16, hi := 31, lo := 16, acc := .rc, rst := 0x0 }
def FIFEp_RETRAIN_retrains : Fld := { base := 0x80028, stride := 0x1000, count := 16, hi := 15, lo := 0, acc := .rc, rst := 0x0 }
/-! NLD_FIFEp_MSGDROP (R315, 08_fife_link.md) -/
def FIFEp_MSGDROP_count : Fld := { base := 0x8002C, stride := 0x1000, count := 16, hi := 31, lo := 0, acc := .rc, rst := 0x0 }
/-! NLD_FIFEp_GCX (R315, 08_fife_link.md) -/
def FIFEp_GCX_count : Fld := { base := 0x80030, stride := 0x1000, count := 16, hi := 31, lo := 0, acc := .rc, rst := 0x0 }
/-! NLD_FIFEp_EVT (R315, 08_fife_link.md) -/
def FIFEp_EVT_wake_seen : Fld := { base := 0x80040, stride := 0x1000, count := 16, hi := 5, lo := 5, acc := .w1c, rst := 0x0 }
def FIFEp_EVT_gc_excess : Fld := { base := 0x80040, stride := 0x1000, count := 16, hi := 4, lo := 4, acc := .w1c, rst := 0x0 }
def FIFEp_EVT_enum_change : Fld := { base := 0x80040, stride := 0x1000, count := 16, hi := 3, lo := 3, acc := .w1c, rst := 0x0 }
def FIFEp_EVT_reset : Fld := { base := 0x80040, stride := 0x1000, count := 16, hi := 2, lo := 2, acc := .w1c, rst := 0x0 }
def FIFEp_EVT_retrain : Fld := { base := 0x80040, stride := 0x1000, count := 16, hi := 1, lo := 1, acc := .w1c, rst := 0x0 }
def FIFEp_EVT_retry : Fld := { base := 0x80040, stride := 0x1000, count := 16, hi := 0, lo := 0, acc := .w1c, rst := 0x0 }
/-! NLD_ING_CTRL (R374, 10_ingest_and_series.md) -/
def ING_CTRL_own_check : Fld := { base := 0x90000, hi := 0, lo := 0, acc := .rw, rst := 0x1 }
/-! NLD_ING_EVT (R374, 10_ingest_and_series.md) -/
def ING_EVT_drain_slow : Fld := { base := 0x90004, hi := 4, lo := 4, acc := .w1c, rst := 0x0 }
def ING_EVT_own_mismatch : Fld := { base := 0x90004, hi := 3, lo := 3, acc := .w1c, rst := 0x0 }
def ING_EVT_per_mismatch : Fld := { base := 0x90004, hi := 2, lo := 2, acc := .w1c, rst := 0x0 }
def ING_EVT_addr_mismatch : Fld := { base := 0x90004, hi := 1, lo := 1, acc := .w1c, rst := 0x0 }
def ING_EVT_in_poison : Fld := { base := 0x90004, hi := 0, lo := 0, acc := .w1c, rst := 0x0 }
/-! NLD_ING_DRAIN (R374, 10_ingest_and_series.md) -/
def ING_DRAIN_max_ns : Fld := { base := 0x90008, hi := 15, lo := 0, acc := .rc, rst := 0x0 }
/-! NLD_ING_MERGED (R375, 10_ingest_and_series.md) -/
def ING_MERGED_count : Fld := { base := 0x90010, hi := 31, lo := 0, acc := .rc, rst := 0x0 }
/-! NLD_ING_ADDRMIS (R375, 10_ingest_and_series.md) -/
def ING_ADDRMIS_count : Fld := { base := 0x90014, hi := 31, lo := 0, acc := .rc, rst := 0x0 }
/-! NLD_ING_PERMIS (R375, 10_ingest_and_series.md) -/
def ING_PERMIS_count : Fld := { base := 0x90018, hi := 31, lo := 0, acc := .rc, rst := 0x0 }
/-! NLD_ING_OWNMIS (R375, 10_ingest_and_series.md) -/
def ING_OWNMIS_count : Fld := { base := 0x9001C, hi := 31, lo := 0, acc := .rc, rst := 0x0 }
/-! NLD_ING_SPAN (R375, 10_ingest_and_series.md) -/
def ING_SPAN_count : Fld := { base := 0x90020, hi := 31, lo := 0, acc := .rc, rst := 0x0 }
/-! NLD_ING_POISONED (R375, 10_ingest_and_series.md) -/
def ING_POISONED_count : Fld := { base := 0x90024, hi := 31, lo := 0, acc := .rc, rst := 0x0 }
/-! NLD_ING_OWN_IDX (R374, 10_ingest_and_series.md) -/
def ING_OWN_IDX_staged : Fld := { base := 0x90040, hi := 20, lo := 20, acc := .rw, rst := 0x0 }
def ING_OWN_IDX_series : Fld := { base := 0x90040, hi := 19, lo := 10, acc := .rw, rst := 0x0 }
def ING_OWN_IDX_pos : Fld := { base := 0x90040, hi := 8, lo := 0, acc := .rw, rst := 0x0 }
/-! NLD_ING_OWN_DATA (R374, 10_ingest_and_series.md) -/
def ING_OWN_DATA_pending : Fld := { base := 0x90044, hi := 5, lo := 5, acc := .ro, rst := 0x0 }
def ING_OWN_DATA_owner : Fld := { base := 0x90044, hi := 4, lo := 0, acc := .rw, rst := 0x10 }
/-! NLD_ING_OWN_CMD (R374, 10_ingest_and_series.md) -/
def ING_OWN_CMD_arm : Fld := { base := 0x90048, hi := 31, lo := 31, acc := .wo, rst := 0x0 }
def ING_OWN_CMD_pos : Fld := { base := 0x90048, hi := 8, lo := 0, acc := .wo, rst := 0x0 }
/-! NLD_HORNp_CTRL (R493, 14_horn_links_and_fleet_reduction.md) -/
def HORNp_CTRL_role : Fld := { base := 0xA0000, stride := 0x1000, count := 8, hi := 7, lo := 5, acc := .rw, rst := 0x0 }
def HORNp_CTRL_pmd : Fld := { base := 0xA0000, stride := 0x1000, count := 8, hi := 4, lo := 4, acc := .rw, rst := 0x0 }
def HORNp_CTRL_reset : Fld := { base := 0xA0000, stride := 0x1000, count := 8, hi := 3, lo := 3, acc := .wo, rst := 0x0 }
def HORNp_CTRL_retrain : Fld := { base := 0xA0000, stride := 0x1000, count := 8, hi := 2, lo := 2, acc := .wo, rst := 0x0 }
def HORNp_CTRL_enable : Fld := { base := 0xA0000, stride := 0x1000, count := 8, hi := 0, lo := 0, acc := .rw, rst := 0x0 }
/-! NLD_HORNp_STATUS (R493, 14_horn_links_and_fleet_reduction.md) -/
def HORNp_STATUS_link_state : Fld := { base := 0xA0004, stride := 0x1000, count := 8, hi := 19, lo := 16, acc := .ro, rst := 0x0 }
def HORNp_STATUS_peer_ok : Fld := { base := 0xA0004, stride := 0x1000, count := 8, hi := 11, lo := 11, acc := .ro, rst := 0x0 }
def HORNp_STATUS_peer : Fld := { base := 0xA0004, stride := 0x1000, count := 8, hi := 10, lo := 0, acc := .ro, rst := 0x0 }
/-! NLD_HORNp_PEER (R493, 14_horn_links_and_fleet_reduction.md) -/
def HORNp_PEER_expected : Fld := { base := 0xA0008, stride := 0x1000, count := 8, hi := 10, lo := 0, acc := .rw, rst := 0x0 }
/-! NLD_HORNp_CRCERR (R493, 14_horn_links_and_fleet_reduction.md) -/
def HORNp_CRCERR_count : Fld := { base := 0xA0020, stride := 0x1000, count := 8, hi := 31, lo := 0, acc := .rc, rst := 0x0 }
/-! NLD_HORNp_REPLAY (R493, 14_horn_links_and_fleet_reduction.md) -/
def HORNp_REPLAY_count : Fld := { base := 0xA0024, stride := 0x1000, count := 8, hi := 31, lo := 0, acc := .rc, rst := 0x0 }
/-! NLD_HORNp_RETRAIN (R493, 14_horn_links_and_fleet_reduction.md) -/
def HORNp_RETRAIN_resets : Fld := { base := 0xA0028, stride := 0x1000, count := 8, hi := 31, lo := 16, acc := .rc, rst := 0x0 }
def HORNp_RETRAIN_retrains : Fld := { base := 0xA0028, stride := 0x1000, count := 8, hi := 15, lo := 0, acc := .rc, rst := 0x0 }
/-! NLD_HORNp_FECCORR (R493, 14_horn_links_and_fleet_reduction.md) -/
def HORNp_FECCORR_count : Fld := { base := 0xA002C, stride := 0x1000, count := 8, hi := 31, lo := 0, acc := .rc, rst := 0x0 }
/-! NLD_HORNp_FECUNC (R493, 14_horn_links_and_fleet_reduction.md) -/
def HORNp_FECUNC_count : Fld := { base := 0xA0030, stride := 0x1000, count := 8, hi := 31, lo := 0, acc := .rc, rst := 0x0 }
/-! NLD_HORNp_MSGDROP (R493, 14_horn_links_and_fleet_reduction.md) -/
def HORNp_MSGDROP_count : Fld := { base := 0xA0034, stride := 0x1000, count := 8, hi := 31, lo := 0, acc := .rc, rst := 0x0 }
/-! NLD_HORNp_EVT (R493, 14_horn_links_and_fleet_reduction.md) -/
def HORNp_EVT_fec_unc : Fld := { base := 0xA0040, stride := 0x1000, count := 8, hi := 4, lo := 4, acc := .w1c, rst := 0x0 }
def HORNp_EVT_peer_mismatch : Fld := { base := 0xA0040, stride := 0x1000, count := 8, hi := 3, lo := 3, acc := .w1c, rst := 0x0 }
def HORNp_EVT_reset : Fld := { base := 0xA0040, stride := 0x1000, count := 8, hi := 2, lo := 2, acc := .w1c, rst := 0x0 }
def HORNp_EVT_retrain : Fld := { base := 0xA0040, stride := 0x1000, count := 8, hi := 1, lo := 1, acc := .w1c, rst := 0x0 }
def HORNp_EVT_retry : Fld := { base := 0xA0040, stride := 0x1000, count := 8, hi := 0, lo := 0, acc := .w1c, rst := 0x0 }
/-! NLD_TDd_CTRL (R99, 02_time_and_servo.md) -/
def TDd_CTRL_hold : Fld := { base := 0xC0000, stride := 0x100, count := 8, hi := 4, lo := 4, acc := .rw, rst := 0x0 }
def TDd_CTRL_enable : Fld := { base := 0xC0000, stride := 0x100, count := 8, hi := 0, lo := 0, acc := .rw, rst := 0x0, special := some (0, 0x1) }
/-! NLD_TDd_STATUS (R99, 02_time_and_servo.md) -/
def TDd_STATUS_holdover_entered : Fld := { base := 0xC0004, stride := 0x100, count := 8, hi := 11, lo := 11, acc := .w1c, rst := 0x0 }
def TDd_STATUS_step_applied : Fld := { base := 0xC0004, stride := 0x100, count := 8, hi := 10, lo := 10, acc := .w1c, rst := 0x0 }
def TDd_STATUS_step_refused : Fld := { base := 0xC0004, stride := 0x100, count := 8, hi := 9, lo := 9, acc := .w1c, rst := 0x0 }
def TDd_STATUS_lock_lost : Fld := { base := 0xC0004, stride := 0x100, count := 8, hi := 8, lo := 8, acc := .w1c, rst := 0x0 }
def TDd_STATUS_step_pending : Fld := { base := 0xC0004, stride := 0x100, count := 8, hi := 7, lo := 7, acc := .ro, rst := 0x0 }
def TDd_STATUS_delay_valid : Fld := { base := 0xC0004, stride := 0x100, count := 8, hi := 6, lo := 6, acc := .ro, rst := 0x0 }
def TDd_STATUS_state : Fld := { base := 0xC0004, stride := 0x100, count := 8, hi := 2, lo := 0, acc := .ro, rst := 0x0 }
/-! NLD_TDd_TIME_LO (R99, 02_time_and_servo.md) -/
def TDd_TIME_LO_ns_lo : Fld := { base := 0xC0008, stride := 0x100, count := 8, hi := 31, lo := 0, acc := .ro, rst := 0x0 }
/-! NLD_TDd_TIME_HI (R99, 02_time_and_servo.md) -/
def TDd_TIME_HI_ns_hi : Fld := { base := 0xC000C, stride := 0x100, count := 8, hi := 31, lo := 0, acc := .ro, rst := 0x0 }
/-! NLD_TDd_TIME_FRAC (R99, 02_time_and_servo.md) -/
def TDd_TIME_FRAC_frac : Fld := { base := 0xC0010, stride := 0x100, count := 8, hi := 15, lo := 0, acc := .ro, rst := 0x0 }
/-! NLD_TDd_INCR_FRAC (R99, 02_time_and_servo.md) -/
def TDd_INCR_FRAC_incr_frac : Fld := { base := 0xC0014, stride := 0x100, count := 8, hi := 31, lo := 0, acc := .rw, rst := 0x0 }
/-! NLD_TDd_INCR_INT (R99, 02_time_and_servo.md) -/
def TDd_INCR_INT_incr_int : Fld := { base := 0xC0018, stride := 0x100, count := 8, hi := 7, lo := 0, acc := .rw, rst := 0x1 }
/-! NLD_TDd_ADJ (R99, 02_time_and_servo.md) -/
def TDd_ADJ_adj : Fld := { base := 0xC001C, stride := 0x100, count := 8, hi := 31, lo := 0, acc := .ro, rst := 0x0 }
/-! NLD_TDd_GAIN (R99, 02_time_and_servo.md) -/
def TDd_GAIN_kp : Fld := { base := 0xC0020, stride := 0x100, count := 8, hi := 31, lo := 16, acc := .rw, rst := 0x4000 }
def TDd_GAIN_ki : Fld := { base := 0xC0020, stride := 0x100, count := 8, hi := 15, lo := 0, acc := .rw, rst := 0x400 }
/-! NLD_TDd_STEP_THR (R99, 02_time_and_servo.md) -/
def TDd_STEP_THR_step_thr_ns : Fld := { base := 0xC0024, stride := 0x100, count := 8, hi := 19, lo := 0, acc := .rw, rst := 0x3E8 }
/-! NLD_TDd_LOCK_THR (R99, 02_time_and_servo.md) -/
def TDd_LOCK_THR_lock_thr_ps : Fld := { base := 0xC0028, stride := 0x100, count := 8, hi := 15, lo := 0, acc := .rw, rst := 0xFA0 }
/-! NLD_TDd_OFFSET (R99, 02_time_and_servo.md) -/
def TDd_OFFSET_offset : Fld := { base := 0xC002C, stride := 0x100, count := 8, hi := 31, lo := 0, acc := .ro, rst := 0x0 }
/-! NLD_TDd_DELAY (R99, 02_time_and_servo.md) -/
def TDd_DELAY_d_filt : Fld := { base := 0xC0030, stride := 0x100, count := 8, hi := 31, lo := 0, acc := .ro, rst := 0x0 }
/-! NLD_TDd_REFUSED (R99, 02_time_and_servo.md) -/
def TDd_REFUSED_refused : Fld := { base := 0xC0034, stride := 0x100, count := 8, hi := 31, lo := 0, acc := .rc, rst := 0x0 }
/-! NLD_TDd_STEP_AMT_LO (R99, 02_time_and_servo.md) -/
def TDd_STEP_AMT_LO_amt_lo : Fld := { base := 0xC0038, stride := 0x100, count := 8, hi := 31, lo := 0, acc := .rw, rst := 0x0 }
/-! NLD_TDd_STEP_AMT_HI (R99, 02_time_and_servo.md) -/
def TDd_STEP_AMT_HI_amt_hi : Fld := { base := 0xC003C, stride := 0x100, count := 8, hi := 15, lo := 0, acc := .rw, rst := 0x0 }
/-! NLD_TDd_STEP_AT_LO (R99, 02_time_and_servo.md) -/
def TDd_STEP_AT_LO_at_lo : Fld := { base := 0xC0040, stride := 0x100, count := 8, hi := 31, lo := 0, acc := .rw, rst := 0x0 }
/-! NLD_TDd_STEP_AT_HI (R99, 02_time_and_servo.md) -/
def TDd_STEP_AT_HI_at_hi : Fld := { base := 0xC0044, stride := 0x100, count := 8, hi := 31, lo := 0, acc := .rw, rst := 0x0 }
/-! NLD_TDd_STEP_CMD (R99, 02_time_and_servo.md) -/
def TDd_STEP_CMD_accept_pending : Fld := { base := 0xC0048, stride := 0x100, count := 8, hi := 1, lo := 1, acc := .wo, rst := 0x0 }
def TDd_STEP_CMD_apply : Fld := { base := 0xC0048, stride := 0x100, count := 8, hi := 0, lo := 0, acc := .wo, rst := 0x0 }
/-! NLD_TDd_LIMITS (R99, 02_time_and_servo.md) -/
def TDd_LIMITS_refuse_limit : Fld := { base := 0xC004C, stride := 0x100, count := 8, hi := 15, lo := 8, acc := .rw, rst := 0x8 }
def TDd_LIMITS_lock_count : Fld := { base := 0xC004C, stride := 0x100, count := 8, hi := 7, lo := 0, acc := .rw, rst := 0x10 }
/-! NLD_TDd_SRC (R99, 02_time_and_servo.md) -/
def TDd_SRC_revertive : Fld := { base := 0xC0050, stride := 0x100, count := 8, hi := 11, lo := 11, acc := .rw, rst := 0x0 }
def TDd_SRC_ref_domain : Fld := { base := 0xC0050, stride := 0x100, count := 8, hi := 10, lo := 8, acc := .rw, rst := 0x0 }
def TDd_SRC_secondary : Fld := { base := 0xC0050, stride := 0x100, count := 8, hi := 7, lo := 4, acc := .rw, rst := 0x0 }
def TDd_SRC_primary : Fld := { base := 0xC0050, stride := 0x100, count := 8, hi := 3, lo := 0, acc := .rw, rst := 0x0 }
/-! NLD_TDd_SRCSTAT (R99, 02_time_and_servo.md) -/
def TDd_SRCSTAT_failover : Fld := { base := 0xC0054, stride := 0x100, count := 8, hi := 8, lo := 8, acc := .w1c, rst := 0x0 }
def TDd_SRCSTAT_current : Fld := { base := 0xC0054, stride := 0x100, count := 8, hi := 3, lo := 0, acc := .ro, rst := 0x0 }
/-! NLD_TIME_CFG (R99, 02_time_and_servo.md) -/
def TIME_CFG_ezcia_port : Fld := { base := 0xC1000, hi := 20, lo := 17, acc := .rw, rst := 0x0 }
def TIME_CFG_ezcia_mode : Fld := { base := 0xC1000, hi := 16, lo := 16, acc := .rw, rst := 0x0 }
def TIME_CFG_sync_iv_us : Fld := { base := 0xC1000, hi := 15, lo := 0, acc := .rw, rst := 0x19 }
/-! NLD_TIME_KTU_IDX (R99, 02_time_and_servo.md) -/
def TIME_KTU_IDX_pos : Fld := { base := 0xC1010, hi := 8, lo := 0, acc := .rw, rst := 0x0 }
/-! NLD_TIME_KTU_DATA (R99, 02_time_and_servo.md) -/
def TIME_KTU_DATA_state_b : Fld := { base := 0xC1014, hi := 25, lo := 23, acc := .ro, rst := 0x0 }
def TIME_KTU_DATA_state_a : Fld := { base := 0xC1014, hi := 22, lo := 20, acc := .ro, rst := 0x0 }
def TIME_KTU_DATA_offset_q : Fld := { base := 0xC1014, hi := 19, lo := 0, acc := .ro, rst := 0x0 }
/-! NLD_HORN_ASYMp (R99, 02_time_and_servo.md) -/
def HORN_ASYMp_asym : Fld := { base := 0xC1020, stride := 0x4, count := 8, hi := 31, lo := 0, acc := .rw, rst := 0x0 }
/-! NLD_PTP_CFGe (R101, 02_time_and_servo.md) -/
def PTP_CFGe_domain_number : Fld := { base := 0xC2000, stride := 0x100, count := 2, hi := 31, lo := 24, acc := .rw, rst := 0x0 }
def PTP_CFGe_bound_domain : Fld := { base := 0xC2000, stride := 0x100, count := 2, hi := 23, lo := 21, acc := .rw, rst := 0x0 }
def PTP_CFGe_log_announce : Fld := { base := 0xC2000, stride := 0x100, count := 2, hi := 20, lo := 18, acc := .rw, rst := 0x0 }
def PTP_CFGe_log_sync : Fld := { base := 0xC2000, stride := 0x100, count := 2, hi := 17, lo := 14, acc := .rw, rst := 0xA }
def PTP_CFGe_transport : Fld := { base := 0xC2000, stride := 0x100, count := 2, hi := 13, lo := 12, acc := .rw, rst := 0x0 }
def PTP_CFGe_one_step : Fld := { base := 0xC2000, stride := 0x100, count := 2, hi := 11, lo := 11, acc := .rw, rst := 0x0 }
def PTP_CFGe_master : Fld := { base := 0xC2000, stride := 0x100, count := 2, hi := 10, lo := 10, acc := .rw, rst := 0x0 }
def PTP_CFGe_enable : Fld := { base := 0xC2000, stride := 0x100, count := 2, hi := 0, lo := 0, acc := .rw, rst := 0x0 }
/-! NLD_TICK_CTRL (R61, 01_tick_contract.md) -/
def TICK_CTRL_prov_en : Fld := { base := 0xC8000, hi := 1, lo := 1, acc := .rw, rst := 0x1 }
def TICK_CTRL_run : Fld := { base := 0xC8000, hi := 0, lo := 0, acc := .rw, rst := 0x0 }
/-! NLD_TICK_PERIOD (R62, 01_tick_contract.md) -/
def TICK_PERIOD_period_us : Fld := { base := 0xC8004, hi := 13, lo := 0, acc := .rw, rst := 0x64 }
/-! NLD_TICK_P (R63, 01_tick_contract.md) -/
def TICK_P_offset_us : Fld := { base := 0xC8008, hi := 17, lo := 0, acc := .rw, rst := 0x1E }
/-! NLD_TICK_L (R63, 01_tick_contract.md) -/
def TICK_L_offset_us : Fld := { base := 0xC800C, hi := 17, lo := 0, acc := .rw, rst := 0x12C }
/-! NLD_TICK_G (R63, 01_tick_contract.md) -/
def TICK_G_offset_us : Fld := { base := 0xC8010, hi := 17, lo := 0, acc := .rw, rst := 0x258 }
/-! NLD_TICK_S (R63, 01_tick_contract.md) -/
def TICK_S_offset_us : Fld := { base := 0xC8014, hi := 17, lo := 0, acc := .rw, rst := 0x3E8 }
/-! NLD_TICK_NOW_LO (R64, 01_tick_contract.md) -/
def TICK_NOW_LO_tick_lo : Fld := { base := 0xC8020, hi := 31, lo := 0, acc := .ro, rst := 0x0 }
/-! NLD_TICK_NOW_HI (R64, 01_tick_contract.md) -/
def TICK_NOW_HI_tick_hi : Fld := { base := 0xC8024, hi := 15, lo := 0, acc := .ro, rst := 0x0 }
/-! NLD_TICK_OPEN (R65, 01_tick_contract.md) -/
def TICK_OPEN_open_count : Fld := { base := 0xC8028, hi := 18, lo := 16, acc := .ro, rst := 0x0 }
def TICK_OPEN_oldest_open : Fld := { base := 0xC8028, hi := 15, lo := 0, acc := .ro, rst := 0x0 }
/-! NLD_TICK_LATE (R66, 01_tick_contract.md) -/
def TICK_LATE_count : Fld := { base := 0xC8040, hi := 31, lo := 0, acc := .rc, rst := 0x0 }
/-! NLD_TICK_DUP (R66, 01_tick_contract.md) -/
def TICK_DUP_count : Fld := { base := 0xC8044, hi := 31, lo := 0, acc := .rc, rst := 0x0 }
/-! NLD_TICK_CRCFAIL (R66, 01_tick_contract.md) -/
def TICK_CRCFAIL_count : Fld := { base := 0xC8048, hi := 31, lo := 0, acc := .rc, rst := 0x0 }
/-! NLD_TICK_EARLY (R66, 01_tick_contract.md) -/
def TICK_EARLY_count : Fld := { base := 0xC804C, hi := 31, lo := 0, acc := .rc, rst := 0x0 }
/-! NLD_TICK_UNEXP (R66, 01_tick_contract.md) -/
def TICK_UNEXP_count : Fld := { base := 0xC8050, hi := 31, lo := 0, acc := .rc, rst := 0x0 }
/-! NLD_TICK_PROFMIS (R66, 01_tick_contract.md) -/
def TICK_PROFMIS_count : Fld := { base := 0xC8054, hi := 31, lo := 0, acc := .rc, rst := 0x0 }
/-! NLD_TICK_SKIP (R66, 01_tick_contract.md) -/
def TICK_SKIP_count : Fld := { base := 0xC8058, hi := 31, lo := 0, acc := .rc, rst := 0x0 }
/-! NLD_TICK_ERR (R67, 01_tick_contract.md) -/
def TICK_ERR_skip : Fld := { base := 0xC8060, hi := 5, lo := 5, acc := .w1c, rst := 0x0 }
def TICK_ERR_profile_mismatch : Fld := { base := 0xC8060, hi := 4, lo := 4, acc := .w1c, rst := 0x0 }
def TICK_ERR_overrun : Fld := { base := 0xC8060, hi := 3, lo := 3, acc := .w1c, rst := 0x0 }
def TICK_ERR_early_frame : Fld := { base := 0xC8060, hi := 2, lo := 2, acc := .w1c, rst := 0x0 }
def TICK_ERR_window_full : Fld := { base := 0xC8060, hi := 1, lo := 1, acc := .w1c, rst := 0x0 }
def TICK_ERR_cfg_refused : Fld := { base := 0xC8060, hi := 0, lo := 0, acc := .w1c, rst := 0x0 }
/-! NLD_LIVE_CFG (R529, 15_verdicts_and_abort.md) -/
def LIVE_CFG_corr_ms : Fld := { base := 0xC9000, hi := 31, lo := 24, acc := .rw, rst := 0x32 }
def LIVE_CFG_corrupt_ticks : Fld := { base := 0xC9000, hi := 23, lo := 16, acc := .rw, rst := 0x14 }
def LIVE_CFG_suspect_ticks : Fld := { base := 0xC9000, hi := 7, lo := 0, acc := .rw, rst := 0x14 }
/-! NLD_LIVE_IDX (R529, 15_verdicts_and_abort.md) -/
def LIVE_IDX_pos : Fld := { base := 0xC9004, hi := 8, lo := 0, acc := .rw, rst := 0x0 }
/-! NLD_LIVE_DATA (R529, 15_verdicts_and_abort.md) -/
def LIVE_DATA_state : Fld := { base := 0xC9008, hi := 27, lo := 25, acc := .ro, rst := 0x0 }
def LIVE_DATA_returned : Fld := { base := 0xC9008, hi := 24, lo := 24, acc := .ro, rst := 0x0 }
def LIVE_DATA_corrupt_run : Fld := { base := 0xC9008, hi := 23, lo := 16, acc := .ro, rst := 0x0 }
def LIVE_DATA_silent_run : Fld := { base := 0xC9008, hi := 15, lo := 0, acc := .ro, rst := 0x0 }
/-! NLD_LIVE_CMD (R529, 15_verdicts_and_abort.md) -/
def LIVE_CMD_go : Fld := { base := 0xC900C, hi := 31, lo := 31, acc := .wo, rst := 0x0 }
def LIVE_CMD_op : Fld := { base := 0xC900C, hi := 30, lo := 28, acc := .wo, rst := 0x0 }
def LIVE_CMD_pos : Fld := { base := 0xC900C, hi := 8, lo := 0, acc := .wo, rst := 0x0 }
/-! NLD_LIVE_EVT (R529, 15_verdicts_and_abort.md) -/
def LIVE_EVT_corrupt_alert : Fld := { base := 0xC9010, hi := 6, lo := 6, acc := .w1c, rst := 0x0 }
def LIVE_EVT_witness_conflict : Fld := { base := 0xC9010, hi := 5, lo := 5, acc := .w1c, rst := 0x0 }
def LIVE_EVT_disagree : Fld := { base := 0xC9010, hi := 4, lo := 4, acc := .w1c, rst := 0x0 }
def LIVE_EVT_unresolved : Fld := { base := 0xC9010, hi := 3, lo := 3, acc := .w1c, rst := 0x0 }
def LIVE_EVT_dead : Fld := { base := 0xC9010, hi := 2, lo := 2, acc := .w1c, rst := 0x0 }
def LIVE_EVT_blind : Fld := { base := 0xC9010, hi := 1, lo := 1, acc := .w1c, rst := 0x0 }
def LIVE_EVT_suspect : Fld := { base := 0xC9010, hi := 0, lo := 0, acc := .w1c, rst := 0x0 }
/-! NLD_LIVE_SUSPECTS (R530, 15_verdicts_and_abort.md) -/
def LIVE_SUSPECTS_count : Fld := { base := 0xC9020, hi := 31, lo := 0, acc := .rc, rst := 0x0 }
/-! NLD_LIVE_DEADS (R530, 15_verdicts_and_abort.md) -/
def LIVE_DEADS_count : Fld := { base := 0xC9024, hi := 31, lo := 0, acc := .rc, rst := 0x0 }
/-! NLD_LIVE_QUERIES (R530, 15_verdicts_and_abort.md) -/
def LIVE_QUERIES_count : Fld := { base := 0xC9028, hi := 31, lo := 0, acc := .rc, rst := 0x0 }
/-! NLD_LIVE_QTIMEOUT (R530, 15_verdicts_and_abort.md) -/
def LIVE_QTIMEOUT_count : Fld := { base := 0xC902C, hi := 31, lo := 0, acc := .rc, rst := 0x0 }
/-! NLD_LIVE_STALE (R530, 15_verdicts_and_abort.md) -/
def LIVE_STALE_count : Fld := { base := 0xC9030, hi := 31, lo := 0, acc := .rc, rst := 0x0 }
/-! NLD_LIVE_BADMSG (R530, 15_verdicts_and_abort.md) -/
def LIVE_BADMSG_count : Fld := { base := 0xC9034, hi := 31, lo := 0, acc := .rc, rst := 0x0 }
/-! NLD_LIVE_DISAGREE (R530, 15_verdicts_and_abort.md) -/
def LIVE_DISAGREE_count : Fld := { base := 0xC9038, hi := 31, lo := 0, acc := .rc, rst := 0x0 }
/-! NLD_SER_CTRL (R376, 10_ingest_and_series.md) -/
def SER_CTRL_hist_en : Fld := { base := 0x100000, hi := 0, lo := 0, acc := .rw, rst := 0x1 }
/-! NLD_SER_STATUS (R376, 10_ingest_and_series.md) -/
def SER_STATUS_sweep_ns : Fld := { base := 0x100004, hi := 31, lo := 16, acc := .ro, rst := 0x0 }
def SER_STATUS_hist_busy : Fld := { base := 0x100004, hi := 15, lo := 15, acc := .ro, rst := 0x0 }
/-! NLD_SER_ALLOCATED (R376, 10_ingest_and_series.md) -/
def SER_ALLOCATED_count : Fld := { base := 0x100008, hi := 18, lo := 0, acc := .ro, rst := 0x0 }
/-! NLD_SER_EVT (R376, 10_ingest_and_series.md) -/
def SER_EVT_alloc_refused : Fld := { base := 0x10000C, hi := 3, lo := 3, acc := .w1c, rst := 0x0 }
def SER_EVT_hist_drop : Fld := { base := 0x10000C, hi := 2, lo := 2, acc := .w1c, rst := 0x0 }
def SER_EVT_sweep_late : Fld := { base := 0x10000C, hi := 1, lo := 1, acc := .w1c, rst := 0x0 }
def SER_EVT_gap : Fld := { base := 0x10000C, hi := 0, lo := 0, acc := .w1c, rst := 0x0 }
/-! NLD_SER_GAPCNT (R376, 10_ingest_and_series.md) -/
def SER_GAPCNT_count : Fld := { base := 0x100010, hi := 31, lo := 0, acc := .rc, rst := 0x0 }
/-! NLD_SER_HISTDROP (R376, 10_ingest_and_series.md) -/
def SER_HISTDROP_count : Fld := { base := 0x100014, hi := 31, lo := 0, acc := .rc, rst := 0x0 }
/-! NLD_SER_POS_IDX (R376, 10_ingest_and_series.md) -/
def SER_POS_IDX_staged : Fld := { base := 0x100020, hi := 15, lo := 15, acc := .rw, rst := 0x0 }
def SER_POS_IDX_word : Fld := { base := 0x100020, hi := 13, lo := 9, acc := .rw, rst := 0x0 }
def SER_POS_IDX_pos : Fld := { base := 0x100020, hi := 8, lo := 0, acc := .rw, rst := 0x0 }
/-! NLD_SER_POS_DATA (R376, 10_ingest_and_series.md) -/
def SER_POS_DATA_data : Fld := { base := 0x100024, hi := 31, lo := 0, acc := .rw, rst := 0x0 }
/-! NLD_SER_POS_CMD (R376, 10_ingest_and_series.md) -/
def SER_POS_CMD_commit : Fld := { base := 0x100028, hi := 31, lo := 31, acc := .wo, rst := 0x0 }
/-! NLD_SER_CTX_IDX (R376, 10_ingest_and_series.md) -/
def SER_CTX_IDX_word : Fld := { base := 0x100030, hi := 21, lo := 18, acc := .rw, rst := 0x0 }
def SER_CTX_IDX_ctx : Fld := { base := 0x100030, hi := 17, lo := 0, acc := .rw, rst := 0x0 }
/-! NLD_SER_CTX_DATA (R376, 10_ingest_and_series.md) -/
def SER_CTX_DATA_data : Fld := { base := 0x100034, hi := 31, lo := 0, acc := .ro, rst := 0x0 }
/-! NLD_SER_CTX_CFG (R376, 10_ingest_and_series.md) -/
def SER_CTX_CFG_go : Fld := { base := 0x100038, hi := 31, lo := 31, acc := .wo, rst := 0x0 }
def SER_CTX_CFG_epoch : Fld := { base := 0x100038, hi := 30, lo := 30, acc := .wo, rst := 0x0 }
def SER_CTX_CFG_bp : Fld := { base := 0x100038, hi := 10, lo := 4, acc := .wo, rst := 0x0 }
def SER_CTX_CFG_k : Fld := { base := 0x100038, hi := 3, lo := 0, acc := .wo, rst := 0x0 }
/-! NLD_SER_QUOTAn (R376, 10_ingest_and_series.md) -/
def SER_QUOTAn_quota : Fld := { base := 0x100040, stride := 0x4, count := 17, hi := 18, lo := 0, acc := .rw, rst := 0x0, special := some (16, 0x40000) }
/-! NLD_ARR_CTRL (R399, 11_tensor_arrays.md) -/
def ARR_CTRL_cluster_en : Fld := { base := 0x140000, hi := 9, lo := 0, acc := .rw, rst := 0x3FF }
/-! NLD_ARR_EVT (R399, 11_tensor_arrays.md) -/
def ARR_EVT_acc_ue : Fld := { base := 0x140004, hi := 3, lo := 3, acc := .w1c, rst := 0x0 }
def ARR_EVT_t2_reserved : Fld := { base := 0x140004, hi := 2, lo := 2, acc := .w1c, rst := 0x0 }
def ARR_EVT_poison_out : Fld := { base := 0x140004, hi := 1, lo := 1, acc := .w1c, rst := 0x0 }
def ARR_EVT_wpar : Fld := { base := 0x140004, hi := 0, lo := 0, acc := .w1c, rst := 0x0 }
/-! NLD_ARR_FIRST (R399, 11_tensor_arrays.md) -/
def ARR_FIRST_cause : Fld := { base := 0x140008, hi := 31, lo := 28, acc := .ro, rst := 0x0 }
def ARR_FIRST_array : Fld := { base := 0x140008, hi := 27, lo := 22, acc := .ro, rst := 0x0 }
def ARR_FIRST_column : Fld := { base := 0x140008, hi := 21, lo := 15, acc := .ro, rst := 0x0 }
def ARR_FIRST_owner : Fld := { base := 0x140008, hi := 14, lo := 10, acc := .ro, rst := 0x0 }
/-! NLD_ARR_WPARCNT (R400, 11_tensor_arrays.md) -/
def ARR_WPARCNT_count : Fld := { base := 0x140010, hi := 31, lo := 0, acc := .rc, rst := 0x0 }
/-! NLD_ARR_ACCUECNT (R400, 11_tensor_arrays.md) -/
def ARR_ACCUECNT_count : Fld := { base := 0x140014, hi := 31, lo := 0, acc := .rc, rst := 0x0 }
/-! NLD_ARR_POISONCNT (R400, 11_tensor_arrays.md) -/
def ARR_POISONCNT_count : Fld := { base := 0x140018, hi := 31, lo := 0, acc := .rc, rst := 0x0 }
/-! NLD_ARR_INVALIDCNT (R400, 11_tensor_arrays.md) -/
def ARR_INVALIDCNT_count : Fld := { base := 0x14001C, hi := 31, lo := 0, acc := .rc, rst := 0x0 }
/-! NLD_ARR_T2RSVCNT (R400, 11_tensor_arrays.md) -/
def ARR_T2RSVCNT_count : Fld := { base := 0x140020, hi := 31, lo := 0, acc := .rc, rst := 0x0 }
/-! NLD_CLc_STATUS (R401, 11_tensor_arrays.md) -/
def CLc_STATUS_clearing : Fld := { base := 0x141000, stride := 0x40, count := 10, hi := 9, lo := 9, acc := .ro, rst := 0x0 }
def CLc_STATUS_owner : Fld := { base := 0x141000, stride := 0x40, count := 10, hi := 8, lo := 4, acc := .ro, rst := 0x0 }
def CLc_STATUS_busy : Fld := { base := 0x141000, stride := 0x40, count := 10, hi := 3, lo := 0, acc := .ro, rst := 0x0 }
/-! NLD_CLc_ISSUE_LO (R401, 11_tensor_arrays.md) -/
def CLc_ISSUE_LO_val_lo : Fld := { base := 0x141008, stride := 0x40, count := 10, hi := 31, lo := 0, acc := .ro, rst := 0x0 }
/-! NLD_CLc_ISSUE_HI (R401, 11_tensor_arrays.md) -/
def CLc_ISSUE_HI_val_hi : Fld := { base := 0x14100C, stride := 0x40, count := 10, hi := 15, lo := 0, acc := .ro, rst := 0x0 }
/-! NLD_CLc_THR_LO (R401, 11_tensor_arrays.md) -/
def CLc_THR_LO_val_lo : Fld := { base := 0x141010, stride := 0x40, count := 10, hi := 31, lo := 0, acc := .ro, rst := 0x0 }
/-! NLD_CLc_THR_HI (R401, 11_tensor_arrays.md) -/
def CLc_THR_HI_val_hi : Fld := { base := 0x141014, stride := 0x40, count := 10, hi := 15, lo := 0, acc := .ro, rst := 0x0 }
/-! NLD_CLc_CLEARS (R401, 11_tensor_arrays.md) -/
def CLc_CLEARS_count : Fld := { base := 0x141018, stride := 0x40, count := 10, hi := 31, lo := 0, acc := .rc, rst := 0x0 }
/-! NLD_SCHED_WINo_OFF (R453, 13_model_programs.md) -/
def SCHED_WINo_OFF_offset : Fld := { base := 0x142000, stride := 0x10, count := 17, hi := 23, lo := 0, acc := .rw, rst := 0x0 }
/-! NLD_SCHED_WINo_LEN (R453, 13_model_programs.md) -/
def SCHED_WINo_LEN_length : Fld := { base := 0x142004, stride := 0x10, count := 17, hi := 23, lo := 0, acc := .rw, rst := 0x0 }
/-! NLD_SCHED_WINo_SRAM (R453, 13_model_programs.md) -/
def SCHED_WINo_SRAM_base : Fld := { base := 0x142008, stride := 0x10, count := 17, hi := 12, lo := 8, acc := .rw, rst := 0x0 }
def SCHED_WINo_SRAM_units : Fld := { base := 0x142008, stride := 0x10, count := 17, hi := 4, lo := 0, acc := .rw, rst := 0x0 }
/-! NLD_SCHED_WINo_RUNS (R453, 13_model_programs.md) -/
def SCHED_WINo_RUNS_faulted : Fld := { base := 0x14200C, stride := 0x10, count := 17, hi := 31, lo := 16, acc := .rc, rst := 0x0 }
def SCHED_WINo_RUNS_skipped : Fld := { base := 0x14200C, stride := 0x10, count := 17, hi := 15, lo := 0, acc := .rc, rst := 0x0 }
/-! NLD_SCHED_CMD (R454, 13_model_programs.md) -/
def SCHED_CMD_commit : Fld := { base := 0x142200, hi := 31, lo := 31, acc := .wo, rst := 0x0 }
/-! NLD_SCHED_STATUS (R454, 13_model_programs.md) -/
def SCHED_STATUS_pending : Fld := { base := 0x142204, hi := 31, lo := 31, acc := .ro, rst := 0x0 }
def SCHED_STATUS_owner : Fld := { base := 0x142204, hi := 20, lo := 16, acc := .ro, rst := 0x1F }
def SCHED_STATUS_round : Fld := { base := 0x142204, hi := 15, lo := 0, acc := .ro, rst := 0x0 }
/-! NLD_SCHED_EVT (R454, 13_model_programs.md) -/
def SCHED_EVT_fleet_skip : Fld := { base := 0x142208, hi := 3, lo := 3, acc := .w1c, rst := 0x0 }
def SCHED_EVT_prov_drop : Fld := { base := 0x142208, hi := 2, lo := 2, acc := .w1c, rst := 0x0 }
def SCHED_EVT_run_fault : Fld := { base := 0x142208, hi := 1, lo := 1, acc := .w1c, rst := 0x0 }
def SCHED_EVT_win_refused : Fld := { base := 0x142208, hi := 0, lo := 0, acc := .w1c, rst := 0x0 }
/-! NLD_SCHED_PROVDROP (R454, 13_model_programs.md) -/
def SCHED_PROVDROP_count : Fld := { base := 0x142210, hi := 31, lo := 0, acc := .rc, rst := 0x0 }
/-! NLD_CHK_CTRL (R560, 16_silent_error_defences.md) -/
def CHK_CTRL_interval_ms : Fld := { base := 0x143000, hi := 31, lo := 16, acc := .rw, rst := 0x2710 }
def CHK_CTRL_enable : Fld := { base := 0x143000, hi := 0, lo := 0, acc := .rw, rst := 0x1 }
/-! NLD_CHK_STATUS (R560, 16_silent_error_defences.md) -/
def CHK_STATUS_cause : Fld := { base := 0x143004, hi := 31, lo := 28, acc := .ro, rst := 0x0 }
def CHK_STATUS_cluster : Fld := { base := 0x143004, hi := 27, lo := 24, acc := .ro, rst := 0x0 }
def CHK_STATUS_vector : Fld := { base := 0x143004, hi := 23, lo := 16, acc := .ro, rst := 0x0 }
/-! NLD_CHK_EVT (R560, 16_silent_error_defences.md) -/
def CHK_EVT_set_refused : Fld := { base := 0x143008, hi := 1, lo := 1, acc := .w1c, rst := 0x0 }
def CHK_EVT_fail : Fld := { base := 0x143008, hi := 0, lo := 0, acc := .w1c, rst := 0x0 }
/-! NLD_CHK_RUNS (R560, 16_silent_error_defences.md) -/
def CHK_RUNS_count : Fld := { base := 0x14300C, hi := 31, lo := 0, acc := .rc, rst := 0x0 }
/-! NLD_TREE_CTRL (R425, 12_tree_engine.md) -/
def TREE_CTRL_enable : Fld := { base := 0x180000, hi := 0, lo := 0, acc := .rw, rst := 0x1 }
/-! NLD_TREE_STATUS (R425, 12_tree_engine.md) -/
def TREE_STATUS_inflight : Fld := { base := 0x180004, hi := 29, lo := 16, acc := .ro, rst := 0x0 }
def TREE_STATUS_queued : Fld := { base := 0x180004, hi := 15, lo := 13, acc := .ro, rst := 0x0 }
def TREE_STATUS_owner : Fld := { base := 0x180004, hi := 12, lo := 8, acc := .ro, rst := 0x1F }
def TREE_STATUS_clearing : Fld := { base := 0x180004, hi := 1, lo := 1, acc := .ro, rst := 0x0 }
def TREE_STATUS_busy : Fld := { base := 0x180004, hi := 0, lo := 0, acc := .ro, rst := 0x0 }
/-! NLD_TREE_EVT (R425, 12_tree_engine.md) -/
def TREE_EVT_queue_wait : Fld := { base := 0x180008, hi := 4, lo := 4, acc := .w1c, rst := 0x0 }
def TREE_EVT_poison_out : Fld := { base := 0x180008, hi := 3, lo := 3, acc := .w1c, rst := 0x0 }
def TREE_EVT_window : Fld := { base := 0x180008, hi := 2, lo := 2, acc := .w1c, rst := 0x0 }
def TREE_EVT_struct_err : Fld := { base := 0x180008, hi := 1, lo := 1, acc := .w1c, rst := 0x0 }
def TREE_EVT_node_ue : Fld := { base := 0x180008, hi := 0, lo := 0, acc := .w1c, rst := 0x0 }
/-! NLD_TREE_FIRST (R425, 12_tree_engine.md) -/
def TREE_FIRST_cause : Fld := { base := 0x18000C, hi := 31, lo := 28, acc := .ro, rst := 0x0 }
def TREE_FIRST_owner : Fld := { base := 0x18000C, hi := 27, lo := 23, acc := .ro, rst := 0x0 }
def TREE_FIRST_tree : Fld := { base := 0x18000C, hi := 22, lo := 9, acc := .ro, rst := 0x0 }
def TREE_FIRST_level : Fld := { base := 0x18000C, hi := 8, lo := 4, acc := .ro, rst := 0x0 }
/-! NLD_TREE_CALLS (R426, 12_tree_engine.md) -/
def TREE_CALLS_count : Fld := { base := 0x180010, hi := 31, lo := 0, acc := .rc, rst := 0x0 }
/-! NLD_TREE_WAVES (R426, 12_tree_engine.md) -/
def TREE_WAVES_count : Fld := { base := 0x180014, hi := 31, lo := 0, acc := .rc, rst := 0x0 }
/-! NLD_TREE_POISONCNT (R426, 12_tree_engine.md) -/
def TREE_POISONCNT_count : Fld := { base := 0x180018, hi := 31, lo := 0, acc := .rc, rst := 0x0 }
/-! NLD_TREE_STRUCTCNT (R426, 12_tree_engine.md) -/
def TREE_STRUCTCNT_count : Fld := { base := 0x18001C, hi := 31, lo := 0, acc := .rc, rst := 0x0 }
/-! NLD_TREE_NODEUECNT (R426, 12_tree_engine.md) -/
def TREE_NODEUECNT_count : Fld := { base := 0x180020, hi := 31, lo := 0, acc := .rc, rst := 0x0 }
/-! NLD_TREE_WAITCNT (R426, 12_tree_engine.md) -/
def TREE_WAITCNT_count : Fld := { base := 0x180024, hi := 31, lo := 0, acc := .rc, rst := 0x0 }
/-! NLD_TREE_STEPS_LO (R425, 12_tree_engine.md) -/
def TREE_STEPS_LO_val_lo : Fld := { base := 0x180030, hi := 31, lo := 0, acc := .ro, rst := 0x0 }
/-! NLD_TREE_STEPS_HI (R425, 12_tree_engine.md) -/
def TREE_STEPS_HI_val_hi : Fld := { base := 0x180034, hi := 15, lo := 0, acc := .ro, rst := 0x0 }
/-! NLD_GRP_CFG (R494, 14_horn_links_and_fleet_reduction.md) -/
def GRP_CFG_role : Fld := { base := 0x1C0000, hi := 15, lo := 14, acc := .rw, rst := 0x0 }
def GRP_CFG_level : Fld := { base := 0x1C0000, hi := 13, lo := 12, acc := .rw, rst := 0x0 }
def GRP_CFG_name : Fld := { base := 0x1C0000, hi := 10, lo := 0, acc := .rw, rst := 0x0 }
/-! NLD_GRP_TRAYS (R494, 14_horn_links_and_fleet_reduction.md) -/
def GRP_TRAYS_trays : Fld := { base := 0x1C0004, hi := 31, lo := 0, acc := .rw, rst := 0x0 }
/-! NLD_GRP_ROOTPEER (R494, 14_horn_links_and_fleet_reduction.md) -/
def GRP_ROOTPEER_peer : Fld := { base := 0x1C0008, hi := 10, lo := 0, acc := .rw, rst := 0x0 }
/-! NLD_GRP_GROUPS_LO (R494, 14_horn_links_and_fleet_reduction.md) -/
def GRP_GROUPS_LO_groups : Fld := { base := 0x1C000C, hi := 31, lo := 0, acc := .rw, rst := 0x0 }
/-! NLD_GRP_GROUPS_HI (R494, 14_horn_links_and_fleet_reduction.md) -/
def GRP_GROUPS_HI_groups : Fld := { base := 0x1C0010, hi := 31, lo := 0, acc := .rw, rst := 0x0 }
/-! NLD_GRP_PROMOTE_LO (R494, 14_horn_links_and_fleet_reduction.md) -/
def GRP_PROMOTE_LO_tick_lo : Fld := { base := 0x1C0014, hi := 31, lo := 0, acc := .rw, rst := 0x0 }
/-! NLD_GRP_PROMOTE_HI (R494, 14_horn_links_and_fleet_reduction.md) -/
def GRP_PROMOTE_HI_arm : Fld := { base := 0x1C0018, hi := 31, lo := 31, acc := .rw, rst := 0x0 }
def GRP_PROMOTE_HI_tick_hi : Fld := { base := 0x1C0018, hi := 15, lo := 0, acc := .rw, rst := 0x0 }
/-! NLD_RED_EVT (R495, 14_horn_links_and_fleet_reduction.md) -/
def RED_EVT_rdv_refused : Fld := { base := 0x1C0020, hi := 5, lo := 5, acc := .w1c, rst := 0x0 }
def RED_EVT_seal_missing : Fld := { base := 0x1C0020, hi := 4, lo := 4, acc := .w1c, rst := 0x0 }
def RED_EVT_group_conflict : Fld := { base := 0x1C0020, hi := 3, lo := 3, acc := .w1c, rst := 0x0 }
def RED_EVT_decl_mismatch : Fld := { base := 0x1C0020, hi := 2, lo := 2, acc := .w1c, rst := 0x0 }
def RED_EVT_view_mismatch : Fld := { base := 0x1C0020, hi := 1, lo := 1, acc := .w1c, rst := 0x0 }
def RED_EVT_seg_mismatch : Fld := { base := 0x1C0020, hi := 0, lo := 0, acc := .w1c, rst := 0x0 }
/-! NLD_RED_PLATE (R495, 14_horn_links_and_fleet_reduction.md) -/
def RED_PLATE_count : Fld := { base := 0x1C0040, hi := 31, lo := 0, acc := .rc, rst := 0x0 }
/-! NLD_RED_PDUP (R495, 14_horn_links_and_fleet_reduction.md) -/
def RED_PDUP_count : Fld := { base := 0x1C0044, hi := 31, lo := 0, acc := .rc, rst := 0x0 }
/-! NLD_RED_PCRC (R495, 14_horn_links_and_fleet_reduction.md) -/
def RED_PCRC_count : Fld := { base := 0x1C0048, hi := 31, lo := 0, acc := .rc, rst := 0x0 }
/-! NLD_RED_SEGMIS (R495, 14_horn_links_and_fleet_reduction.md) -/
def RED_SEGMIS_count : Fld := { base := 0x1C004C, hi := 31, lo := 0, acc := .rc, rst := 0x0 }
/-! NLD_RED_GLATE (R495, 14_horn_links_and_fleet_reduction.md) -/
def RED_GLATE_count : Fld := { base := 0x1C0050, hi := 31, lo := 0, acc := .rc, rst := 0x0 }
/-! NLD_RED_GDUP (R495, 14_horn_links_and_fleet_reduction.md) -/
def RED_GDUP_count : Fld := { base := 0x1C0054, hi := 31, lo := 0, acc := .rc, rst := 0x0 }
/-! NLD_RED_GCRC (R495, 14_horn_links_and_fleet_reduction.md) -/
def RED_GCRC_count : Fld := { base := 0x1C0058, hi := 31, lo := 0, acc := .rc, rst := 0x0 }
/-! NLD_RED_RANKDROP (R495, 14_horn_links_and_fleet_reduction.md) -/
def RED_RANKDROP_count : Fld := { base := 0x1C005C, hi := 31, lo := 0, acc := .rc, rst := 0x0 }
/-! NLD_RDV_IDX (R496, 14_horn_links_and_fleet_reduction.md) -/
def RDV_IDX_word : Fld := { base := 0x1C0100, hi := 18, lo := 14, acc := .rw, rst := 0x0 }
def RDV_IDX_object : Fld := { base := 0x1C0100, hi := 13, lo := 0, acc := .rw, rst := 0x0 }
/-! NLD_RDV_DATA (R496, 14_horn_links_and_fleet_reduction.md) -/
def RDV_DATA_data : Fld := { base := 0x1C0104, hi := 31, lo := 0, acc := .ro, rst := 0x0 }
/-! NLD_RDV_FREE (R496, 14_horn_links_and_fleet_reduction.md) -/
def RDV_FREE_free : Fld := { base := 0x1C0108, hi := 14, lo := 0, acc := .ro, rst := 0x3FC0 }
/-! NLD_ABT_ON_HOST (R531, 15_verdicts_and_abort.md) -/
def ABT_ON_HOST_scope : Fld := { base := 0x1C0200, hi := 16, lo := 0, acc := .rw, rst := 0x0 }
/-! NLD_ABT_ON_KTU (R531, 15_verdicts_and_abort.md) -/
def ABT_ON_KTU_scope : Fld := { base := 0x1C0204, hi := 16, lo := 0, acc := .rw, rst := 0x0 }
/-! NLD_ABT_ON_VERDICT (R531, 15_verdicts_and_abort.md) -/
def ABT_ON_VERDICT_scope : Fld := { base := 0x1C0208, hi := 16, lo := 0, acc := .rw, rst := 0x0 }
/-! NLD_ABT_ON_DEAD (R531, 15_verdicts_and_abort.md) -/
def ABT_ON_DEAD_scope : Fld := { base := 0x1C020C, hi := 16, lo := 0, acc := .rw, rst := 0x0 }
/-! NLD_ABT_CMD (R531, 15_verdicts_and_abort.md) -/
def ABT_CMD_go : Fld := { base := 0x1C0210, hi := 31, lo := 31, acc := .wo, rst := 0x0 }
def ABT_CMD_scope : Fld := { base := 0x1C0210, hi := 16, lo := 0, acc := .wo, rst := 0x0 }
/-! NLD_ABT_EVT (R531, 15_verdicts_and_abort.md) -/
def ABT_EVT_obsv_alarm : Fld := { base := 0x1C0214, hi := 3, lo := 3, acc := .w1c, rst := 0x0 }
def ABT_EVT_suppressed : Fld := { base := 0x1C0214, hi := 2, lo := 2, acc := .w1c, rst := 0x0 }
def ABT_EVT_accepted : Fld := { base := 0x1C0214, hi := 1, lo := 1, acc := .w1c, rst := 0x0 }
def ABT_EVT_originated : Fld := { base := 0x1C0214, hi := 0, lo := 0, acc := .w1c, rst := 0x0 }
/-! NLD_ABT_LAST (R531, 15_verdicts_and_abort.md) -/
def ABT_LAST_code : Fld := { base := 0x1C0218, hi := 31, lo := 24, acc := .ro, rst := 0x0 }
def ABT_LAST_origin : Fld := { base := 0x1C0218, hi := 19, lo := 0, acc := .ro, rst := 0x0 }
/-! NLD_ABT_LAST_SCOPE (R531, 15_verdicts_and_abort.md) -/
def ABT_LAST_SCOPE_scope : Fld := { base := 0x1C021C, hi := 16, lo := 0, acc := .ro, rst := 0x0 }
/-! NLD_ALM_ACCEPT (R532, 15_verdicts_and_abort.md) -/
def ALM_ACCEPT_count : Fld := { base := 0x1C0220, hi := 31, lo := 0, acc := .rc, rst := 0x0 }
/-! NLD_ALM_DUP (R532, 15_verdicts_and_abort.md) -/
def ALM_DUP_count : Fld := { base := 0x1C0224, hi := 31, lo := 0, acc := .rc, rst := 0x0 }
/-! NLD_ALM_BAD (R532, 15_verdicts_and_abort.md) -/
def ALM_BAD_count : Fld := { base := 0x1C0228, hi := 31, lo := 0, acc := .rc, rst := 0x0 }
/-! NLD_ABT_ORIG (R532, 15_verdicts_and_abort.md) -/
def ABT_ORIG_count : Fld := { base := 0x1C022C, hi := 31, lo := 0, acc := .rc, rst := 0x0 }
/-! NLD_ALM_OBSV (R532, 15_verdicts_and_abort.md) -/
def ALM_OBSV_count : Fld := { base := 0x1C0230, hi := 31, lo := 0, acc := .rc, rst := 0x0 }
/-! NLD_ADV_CFG (R533, 15_verdicts_and_abort.md) -/
def ADV_CFG_lead_ticks : Fld := { base := 0x1C0300, hi := 15, lo := 0, acc := .rw, rst := 0x3E8 }
/-! NLD_ADV_EVT (R533, 15_verdicts_and_abort.md) -/
def ADV_EVT_delivered : Fld := { base := 0x1C0304, hi := 1, lo := 1, acc := .w1c, rst := 0x0 }
def ADV_EVT_table_full : Fld := { base := 0x1C0304, hi := 0, lo := 0, acc := .w1c, rst := 0x0 }
/-! NLD_ADV_DROP (R533, 15_verdicts_and_abort.md) -/
def ADV_DROP_count : Fld := { base := 0x1C0308, hi := 31, lo := 0, acc := .rc, rst := 0x0 }
/-! NLD_ADV_MERGED (R533, 15_verdicts_and_abort.md) -/
def ADV_MERGED_count : Fld := { base := 0x1C030C, hi := 31, lo := 0, acc := .rc, rst := 0x0 }
/-! NLD_JOB_IDX (R533, 15_verdicts_and_abort.md) -/
def JOB_IDX_word : Fld := { base := 0x1C0310, hi := 6, lo := 5, acc := .rw, rst := 0x0 }
def JOB_IDX_part : Fld := { base := 0x1C0310, hi := 4, lo := 0, acc := .rw, rst := 0x0 }
/-! NLD_JOB_DATA (R533, 15_verdicts_and_abort.md) -/
def JOB_DATA_data : Fld := { base := 0x1C0314, hi := 31, lo := 0, acc := .ro, rst := 0x0 }
/-! NLD_VOTE_EVT (R560, 16_silent_error_defences.md) -/
def VOTE_EVT_late : Fld := { base := 0x1C0400, hi := 3, lo := 3, acc := .w1c, rst := 0x0 }
def VOTE_EVT_expel : Fld := { base := 0x1C0400, hi := 2, lo := 2, acc := .w1c, rst := 0x0 }
def VOTE_EVT_tie : Fld := { base := 0x1C0400, hi := 1, lo := 1, acc := .w1c, rst := 0x0 }
def VOTE_EVT_minority : Fld := { base := 0x1C0400, hi := 0, lo := 0, acc := .w1c, rst := 0x0 }
/-! NLD_VOTE_DECIDED (R560, 16_silent_error_defences.md) -/
def VOTE_DECIDED_count : Fld := { base := 0x1C0404, hi := 31, lo := 0, acc := .rc, rst := 0x0 }
/-! NLD_VOTE_LATE (R560, 16_silent_error_defences.md) -/
def VOTE_LATE_count : Fld := { base := 0x1C0408, hi := 31, lo := 0, acc := .rc, rst := 0x0 }
/-! NLD_PAT_LATE (R560, 16_silent_error_defences.md) -/
def PAT_LATE_count : Fld := { base := 0x1C040C, hi := 31, lo := 0, acc := .rc, rst := 0x0 }
/-! NLD_PAT_ACCEPT (R560, 16_silent_error_defences.md) -/
def PAT_ACCEPT_count : Fld := { base := 0x1C0410, hi := 31, lo := 0, acc := .rc, rst := 0x0 }
/-! NLD_CODEC_DECCNT (R265, 07_fixed_ratio_codec.md) -/
def CODEC_DECCNT_count : Fld := { base := 0x200000, hi := 31, lo := 0, acc := .rc, rst := 0x0 }
/-! NLD_CODEC_DECSTAT (R265, 07_fixed_ratio_codec.md) -/
def CODEC_DECSTAT_err : Fld := { base := 0x200004, hi := 31, lo := 31, acc := .w1c, rst := 0x0 }
def CODEC_DECSTAT_tbl_refused : Fld := { base := 0x200004, hi := 30, lo := 30, acc := .w1c, rst := 0x0 }
def CODEC_DECSTAT_cause : Fld := { base := 0x200004, hi := 19, lo := 16, acc := .ro, rst := 0x0 }
def CODEC_DECSTAT_pos : Fld := { base := 0x200004, hi := 8, lo := 0, acc := .ro, rst := 0x0 }
/-! NLD_CODEC_TBL_IDX (R265, 07_fixed_ratio_codec.md) -/
def CODEC_TBL_IDX_table : Fld := { base := 0x200010, hi := 7, lo := 4, acc := .rw, rst := 0x0 }
def CODEC_TBL_IDX_prev : Fld := { base := 0x200010, hi := 3, lo := 3, acc := .rw, rst := 0x0 }
def CODEC_TBL_IDX_word : Fld := { base := 0x200010, hi := 2, lo := 0, acc := .rw, rst := 0x0 }
/-! NLD_CODEC_TBL_DATA (R265, 07_fixed_ratio_codec.md) -/
def CODEC_TBL_DATA_lengths : Fld := { base := 0x200014, hi := 31, lo := 0, acc := .ro, rst := 0x0 }
/-! NLD_CODEC_TBL_GEN (R265, 07_fixed_ratio_codec.md) -/
def CODEC_TBL_GEN_gen : Fld := { base := 0x200018, hi := 15, lo := 0, acc := .ro, rst := 0x0 }
/-! NLD_CODEC_TBL_STAGEw (R265, 07_fixed_ratio_codec.md) -/
def CODEC_TBL_STAGEw_lengths : Fld := { base := 0x200020, stride := 0x4, count := 5, hi := 31, lo := 0, acc := .rw, rst := 0x0 }
/-! NLD_CODEC_TBL_CMD (R265, 07_fixed_ratio_codec.md) -/
def CODEC_TBL_CMD_commit : Fld := { base := 0x200034, hi := 31, lo := 31, acc := .wo, rst := 0x0 }
def CODEC_TBL_CMD_table : Fld := { base := 0x200034, hi := 19, lo := 16, acc := .wo, rst := 0x0 }
def CODEC_TBL_CMD_gen : Fld := { base := 0x200034, hi := 15, lo := 0, acc := .wo, rst := 0x0 }
/-! NLD_BULK_CTRL (R265, 07_fixed_ratio_codec.md) -/
def BULK_CTRL_lane_en : Fld := { base := 0x200100, hi := 1, lo := 0, acc := .rw, rst := 0x3 }
/-! NLD_BULK_STATUS (R265, 07_fixed_ratio_codec.md) -/
def BULK_STATUS_busy : Fld := { base := 0x200104, hi := 17, lo := 16, acc := .ro, rst := 0x0 }
def BULK_STATUS_failed : Fld := { base := 0x200104, hi := 15, lo := 0, acc := .rc, rst := 0x0 }
/-! NLD_ARB_BULK0 (R234, 06_queues_and_arbiters.md) -/
def ARB_BULK0_pri15 : Fld := { base := 0x200110, hi := 31, lo := 30, acc := .rw, rst := 0x0 }
def ARB_BULK0_pri14 : Fld := { base := 0x200110, hi := 29, lo := 28, acc := .rw, rst := 0x0 }
def ARB_BULK0_pri13 : Fld := { base := 0x200110, hi := 27, lo := 26, acc := .rw, rst := 0x0 }
def ARB_BULK0_pri12 : Fld := { base := 0x200110, hi := 25, lo := 24, acc := .rw, rst := 0x0 }
def ARB_BULK0_pri11 : Fld := { base := 0x200110, hi := 23, lo := 22, acc := .rw, rst := 0x0 }
def ARB_BULK0_pri10 : Fld := { base := 0x200110, hi := 21, lo := 20, acc := .rw, rst := 0x0 }
def ARB_BULK0_pri9 : Fld := { base := 0x200110, hi := 19, lo := 18, acc := .rw, rst := 0x0 }
def ARB_BULK0_pri8 : Fld := { base := 0x200110, hi := 17, lo := 16, acc := .rw, rst := 0x0 }
def ARB_BULK0_pri7 : Fld := { base := 0x200110, hi := 15, lo := 14, acc := .rw, rst := 0x0 }
def ARB_BULK0_pri6 : Fld := { base := 0x200110, hi := 13, lo := 12, acc := .rw, rst := 0x0 }
def ARB_BULK0_pri5 : Fld := { base := 0x200110, hi := 11, lo := 10, acc := .rw, rst := 0x0 }
def ARB_BULK0_pri4 : Fld := { base := 0x200110, hi := 9, lo := 8, acc := .rw, rst := 0x0 }
def ARB_BULK0_pri3 : Fld := { base := 0x200110, hi := 7, lo := 6, acc := .rw, rst := 0x0 }
def ARB_BULK0_pri2 : Fld := { base := 0x200110, hi := 5, lo := 4, acc := .rw, rst := 0x0 }
def ARB_BULK0_pri1 : Fld := { base := 0x200110, hi := 3, lo := 2, acc := .rw, rst := 0x0 }
def ARB_BULK0_pri0 : Fld := { base := 0x200110, hi := 1, lo := 0, acc := .rw, rst := 0x0 }
/-! NLD_ARB_BULK1 (R234, 06_queues_and_arbiters.md) -/
def ARB_BULK1_pri16 : Fld := { base := 0x200114, hi := 1, lo := 0, acc := .rw, rst := 0x0 }
/-! NLD_ETHe_CFG (R621, 18_rdma_and_shaping.md) -/
def ETHe_CFG_link_up : Fld := { base := 0x240000, stride := 0x100, count := 2, hi := 17, lo := 17, acc := .ro, rst := 0x0 }
def ETHe_CFG_enable : Fld := { base := 0x240000, stride := 0x100, count := 2, hi := 16, lo := 16, acc := .rw, rst := 0x0 }
def ETHe_CFG_vlan_id : Fld := { base := 0x240000, stride := 0x100, count := 2, hi := 11, lo := 0, acc := .rw, rst := 0x0 }
/-! NLD_ETHe_NH_LO (R621, 18_rdma_and_shaping.md) -/
def ETHe_NH_LO_mac_lo : Fld := { base := 0x240004, stride := 0x100, count := 2, hi := 31, lo := 0, acc := .rw, rst := 0x0 }
/-! NLD_ETHe_NH_HI (R621, 18_rdma_and_shaping.md) -/
def ETHe_NH_HI_mac_hi : Fld := { base := 0x240008, stride := 0x100, count := 2, hi := 15, lo := 0, acc := .rw, rst := 0x0 }
/-! NLD_RDMA_CTRL (R621, 18_rdma_and_shaping.md) -/
def RDMA_CTRL_dscp : Fld := { base := 0x240200, hi := 31, lo := 26, acc := .rw, rst := 0x2E }
def RDMA_CTRL_pcp : Fld := { base := 0x240200, hi := 25, lo := 23, acc := .rw, rst := 0x5 }
def RDMA_CTRL_ipv6 : Fld := { base := 0x240200, hi := 22, lo := 22, acc := .rw, rst := 0x0 }
def RDMA_CTRL_ack_to : Fld := { base := 0x240200, hi := 20, lo := 16, acc := .rw, rst := 0x4 }
def RDMA_CTRL_retry_cnt : Fld := { base := 0x240200, hi := 15, lo := 13, acc := .rw, rst := 0x7 }
def RDMA_CTRL_rnr_retry : Fld := { base := 0x240200, hi := 12, lo := 10, acc := .rw, rst := 0x7 }
def RDMA_CTRL_min_rnr : Fld := { base := 0x240200, hi := 9, lo := 5, acc := .rw, rst := 0x1 }
/-! NLD_RDMA_LOCALw (R621, 18_rdma_and_shaping.md) -/
def RDMA_LOCALw_addr : Fld := { base := 0x240204, stride := 0x4, count := 4, hi := 31, lo := 0, acc := .rw, rst := 0x0 }
/-! NLD_RDMA_REKEY (R621, 18_rdma_and_shaping.md) -/
def RDMA_REKEY_rekey_s : Fld := { base := 0x240214, hi := 15, lo := 0, acc := .rw, rst := 0xE10 }
/-! NLD_RDMA_PEER_IDX (R621, 18_rdma_and_shaping.md) -/
def RDMA_PEER_IDX_slot : Fld := { base := 0x240220, hi := 9, lo := 3, acc := .rw, rst := 0x0 }
def RDMA_PEER_IDX_word : Fld := { base := 0x240220, hi := 2, lo := 0, acc := .rw, rst := 0x0 }
/-! NLD_RDMA_PEER_DATA (R621, 18_rdma_and_shaping.md) -/
def RDMA_PEER_DATA_data : Fld := { base := 0x240224, hi := 31, lo := 0, acc := .rw, rst := 0x0 }
/-! NLD_RDMA_QP_IDX (R621, 18_rdma_and_shaping.md) -/
def RDMA_QP_IDX_qp : Fld := { base := 0x240230, hi := 16, lo := 5, acc := .rw, rst := 0x0 }
def RDMA_QP_IDX_word : Fld := { base := 0x240230, hi := 4, lo := 0, acc := .rw, rst := 0x0 }
/-! NLD_RDMA_QP_DATA (R621, 18_rdma_and_shaping.md) -/
def RDMA_QP_DATA_data : Fld := { base := 0x240234, hi := 31, lo := 0, acc := .rw, rst := 0x0 }
/-! NLD_RDMA_QP_CMD (R621, 18_rdma_and_shaping.md) -/
def RDMA_QP_CMD_op : Fld := { base := 0x240238, hi := 31, lo := 29, acc := .wo, rst := 0x0 }
def RDMA_QP_CMD_status : Fld := { base := 0x240238, hi := 28, lo := 25, acc := .ro, rst := 0x0 }
def RDMA_QP_CMD_qp : Fld := { base := 0x240238, hi := 11, lo := 0, acc := .rw, rst := 0x0 }
/-! NLD_RDMA_SRQ (R621, 18_rdma_and_shaping.md) -/
def RDMA_SRQ_limit : Fld := { base := 0x240240, hi := 25, lo := 16, acc := .rw, rst := 0x40 }
def RDMA_SRQ_free : Fld := { base := 0x240240, hi := 9, lo := 0, acc := .ro, rst := 0x200 }
/-! NLD_RDMA_EVT (R621, 18_rdma_and_shaping.md) -/
def RDMA_EVT_create_refused : Fld := { base := 0x240244, hi := 5, lo := 5, acc := .w1c, rst := 0x0 }
def RDMA_EVT_port_failover : Fld := { base := 0x240244, hi := 4, lo := 4, acc := .w1c, rst := 0x0 }
def RDMA_EVT_key_fail : Fld := { base := 0x240244, hi := 3, lo := 3, acc := .w1c, rst := 0x0 }
def RDMA_EVT_tag_fail : Fld := { base := 0x240244, hi := 2, lo := 2, acc := .w1c, rst := 0x0 }
def RDMA_EVT_srq_limit : Fld := { base := 0x240244, hi := 1, lo := 1, acc := .w1c, rst := 0x0 }
def RDMA_EVT_qp_error : Fld := { base := 0x240244, hi := 0, lo := 0, acc := .w1c, rst := 0x0 }
/-! NLD_RDMA_ERRQP (R621, 18_rdma_and_shaping.md) -/
def RDMA_ERRQP_cause : Fld := { base := 0x240248, hi := 31, lo := 28, acc := .ro, rst := 0x0 }
def RDMA_ERRQP_qp : Fld := { base := 0x240248, hi := 11, lo := 0, acc := .ro, rst := 0x0 }
/-! NLD_RDMA_TAGFAIL (R623, 18_rdma_and_shaping.md) -/
def RDMA_TAGFAIL_count : Fld := { base := 0x240260, hi := 31, lo := 0, acc := .rc, rst := 0x0 }
/-! NLD_RDMA_INVREQ (R623, 18_rdma_and_shaping.md) -/
def RDMA_INVREQ_count : Fld := { base := 0x240264, hi := 31, lo := 0, acc := .rc, rst := 0x0 }
/-! NLD_RDMA_RNRSENT (R623, 18_rdma_and_shaping.md) -/
def RDMA_RNRSENT_count : Fld := { base := 0x240268, hi := 31, lo := 0, acc := .rc, rst := 0x0 }
/-! NLD_RDMA_RETX (R623, 18_rdma_and_shaping.md) -/
def RDMA_RETX_count : Fld := { base := 0x24026C, hi := 31, lo := 0, acc := .rc, rst := 0x0 }
/-! NLD_RDMA_CNPRX (R623, 18_rdma_and_shaping.md) -/
def RDMA_CNPRX_count : Fld := { base := 0x240270, hi := 31, lo := 0, acc := .rc, rst := 0x0 }
/-! NLD_RDMA_KEYXFAIL (R623, 18_rdma_and_shaping.md) -/
def RDMA_KEYXFAIL_count : Fld := { base := 0x240274, hi := 31, lo := 0, acc := .rc, rst := 0x0 }
/-! NLD_RDMA_PLAINDROP (R623, 18_rdma_and_shaping.md) -/
def RDMA_PLAINDROP_count : Fld := { base := 0x240278, hi := 31, lo := 0, acc := .rc, rst := 0x0 }
/-! NLD_RDMA_MIRRORDROP (R623, 18_rdma_and_shaping.md) -/
def RDMA_MIRRORDROP_count : Fld := { base := 0x24027C, hi := 31, lo := 0, acc := .rc, rst := 0x0 }
/-! NLD_SHP_IDX (R624, 18_rdma_and_shaping.md) -/
def SHP_IDX_shaper : Fld := { base := 0x280000, hi := 7, lo := 0, acc := .rw, rst := 0x0 }
/-! NLD_SHP_RATE (R624, 18_rdma_and_shaping.md) -/
def SHP_RATE_rate : Fld := { base := 0x280004, hi := 23, lo := 0, acc := .rw, rst := 0x0 }
/-! NLD_SHP_BURST (R624, 18_rdma_and_shaping.md) -/
def SHP_BURST_burst : Fld := { base := 0x280008, hi := 23, lo := 0, acc := .rw, rst := 0xFFFFFF }
/-! NLD_SHP_OVH (R624, 18_rdma_and_shaping.md) -/
def SHP_OVH_overhead : Fld := { base := 0x28000C, hi := 7, lo := 0, acc := .rw, rst := 0x14 }
/-! NLD_SHP_LEVEL (R624, 18_rdma_and_shaping.md) -/
def SHP_LEVEL_level : Fld := { base := 0x280010, hi := 31, lo := 0, acc := .ro, rst := 0x0 }
/-! NLD_SHP_WAIT (R624, 18_rdma_and_shaping.md) -/
def SHP_WAIT_count : Fld := { base := 0x280014, hi := 31, lo := 0, acc := .rc, rst := 0x0 }
/-! NLD_SHP_STATUS (R624, 18_rdma_and_shaping.md) -/
def SHP_STATUS_refused : Fld := { base := 0x280018, hi := 0, lo := 0, acc := .w1c, rst := 0x0 }
/-! NLD_REC_STATUS (R670, 20_recorder_and_security.md) -/
def REC_STATUS_clearing : Fld := { base := 0x2C0000, hi := 31, lo := 31, acc := .ro, rst := 0x0 }
def REC_STATUS_torn : Fld := { base := 0x2C0000, hi := 30, lo := 30, acc := .w1c, rst := 0x0 }
def REC_STATUS_queue_full : Fld := { base := 0x2C0000, hi := 29, lo := 29, acc := .w1c, rst := 0x0 }
def REC_STATUS_queued : Fld := { base := 0x2C0000, hi := 8, lo := 0, acc := .ro, rst := 0x0 }
/-! NLD_REC_IDX (R670, 20_recorder_and_security.md) -/
def REC_IDX_area : Fld := { base := 0x2C0004, hi := 31, lo := 31, acc := .rw, rst := 0x0 }
def REC_IDX_word : Fld := { base := 0x2C0004, hi := 25, lo := 22, acc := .rw, rst := 0x0 }
def REC_IDX_slot : Fld := { base := 0x2C0004, hi := 21, lo := 0, acc := .rw, rst := 0x0 }
/-! NLD_REC_DATA (R670, 20_recorder_and_security.md) -/
def REC_DATA_data : Fld := { base := 0x2C0008, hi := 31, lo := 0, acc := .ro, rst := 0x0 }
/-! NLD_REC_SEQ_LO (R670, 20_recorder_and_security.md) -/
def REC_SEQ_LO_seq_lo : Fld := { base := 0x2C000C, hi := 31, lo := 0, acc := .ro, rst := 0x0 }
/-! NLD_REC_SEQ_HI (R670, 20_recorder_and_security.md) -/
def REC_SEQ_HI_seq_hi : Fld := { base := 0x2C0010, hi := 31, lo := 0, acc := .ro, rst := 0x0 }
/-! NLD_REC_WPTR_ORD (R670, 20_recorder_and_security.md) -/
def REC_WPTR_ORD_wrapped : Fld := { base := 0x2C0014, hi := 31, lo := 31, acc := .ro, rst := 0x0 }
def REC_WPTR_ORD_slot : Fld := { base := 0x2C0014, hi := 21, lo := 0, acc := .ro, rst := 0x0 }
/-! NLD_REC_WPTR_PRIV (R670, 20_recorder_and_security.md) -/
def REC_WPTR_PRIV_wrapped : Fld := { base := 0x2C0018, hi := 31, lo := 31, acc := .ro, rst := 0x0 }
def REC_WPTR_PRIV_slot : Fld := { base := 0x2C0018, hi := 15, lo := 0, acc := .ro, rst := 0x0 }
/-! NLD_REC_LOST (R670, 20_recorder_and_security.md) -/
def REC_LOST_count : Fld := { base := 0x2C001C, hi := 31, lo := 0, acc := .rc, rst := 0x0 }
/-! NLD_REC_NONCEw (R670, 20_recorder_and_security.md) -/
def REC_NONCEw_nonce : Fld := { base := 0x2C0020, stride := 0x4, count := 4, hi := 31, lo := 0, acc := .ro, rst := 0x0 }
/-! NLD_REC_CLR_ADDR_LO (R670, 20_recorder_and_security.md) -/
def REC_CLR_ADDR_LO_addr_lo : Fld := { base := 0x2C0030, hi := 31, lo := 6, acc := .rw, rst := 0x0 }
/-! NLD_REC_CLR_ADDR_HI (R670, 20_recorder_and_security.md) -/
def REC_CLR_ADDR_HI_addr_hi : Fld := { base := 0x2C0034, hi := 31, lo := 0, acc := .rw, rst := 0x0 }
/-! NLD_REC_CLR_CMD (R670, 20_recorder_and_security.md) -/
def REC_CLR_CMD_go : Fld := { base := 0x2C0038, hi := 31, lo := 31, acc := .wo, rst := 0x0 }
/-! NLD_REC_CLR_STAT (R670, 20_recorder_and_security.md) -/
def REC_CLR_STAT_busy : Fld := { base := 0x2C003C, hi := 31, lo := 31, acc := .ro, rst := 0x0 }
def REC_CLR_STAT_erased : Fld := { base := 0x2C003C, hi := 29, lo := 8, acc := .ro, rst := 0x0 }
def REC_CLR_STAT_code : Fld := { base := 0x2C003C, hi := 7, lo := 0, acc := .ro, rst := 0x0 }
/-! NLD_SEC_STATUS (R671, 20_recorder_and_security.md) -/
def SEC_STATUS_opened : Fld := { base := 0x300000, hi := 31, lo := 31, acc := .ro, rst := 0x0 }
def SEC_STATUS_puf_off : Fld := { base := 0x300000, hi := 30, lo := 30, acc := .ro, rst := 0x0 }
def SEC_STATUS_provisioned : Fld := { base := 0x300000, hi := 29, lo := 29, acc := .ro, rst := 0x0 }
def SEC_STATUS_keys : Fld := { base := 0x300000, hi := 22, lo := 16, acc := .ro, rst := 0x0 }
/-! NLD_SEC_OPENCNT (R671, 20_recorder_and_security.md) -/
def SEC_OPENCNT_provisioned : Fld := { base := 0x300004, hi := 31, lo := 16, acc := .ro, rst := 0x0 }
def SEC_OPENCNT_opened : Fld := { base := 0x300004, hi := 15, lo := 0, acc := .ro, rst := 0x0 }
/-! NLD_SEC_REQ_ADDR_LO (R671, 20_recorder_and_security.md) -/
def SEC_REQ_ADDR_LO_addr_lo : Fld := { base := 0x300010, hi := 31, lo := 6, acc := .rw, rst := 0x0 }
/-! NLD_SEC_REQ_ADDR_HI (R671, 20_recorder_and_security.md) -/
def SEC_REQ_ADDR_HI_addr_hi : Fld := { base := 0x300014, hi := 31, lo := 0, acc := .rw, rst := 0x0 }
/-! NLD_SEC_RSP_ADDR_LO (R671, 20_recorder_and_security.md) -/
def SEC_RSP_ADDR_LO_addr_lo : Fld := { base := 0x300018, hi := 31, lo := 6, acc := .rw, rst := 0x0 }
/-! NLD_SEC_RSP_ADDR_HI (R671, 20_recorder_and_security.md) -/
def SEC_RSP_ADDR_HI_addr_hi : Fld := { base := 0x30001C, hi := 31, lo := 0, acc := .rw, rst := 0x0 }
/-! NLD_SEC_REQ_CMD (R671, 20_recorder_and_security.md) -/
def SEC_REQ_CMD_go : Fld := { base := 0x300020, hi := 31, lo := 31, acc := .wo, rst := 0x0 }
def SEC_REQ_CMD_op : Fld := { base := 0x300020, hi := 30, lo := 28, acc := .wo, rst := 0x0 }
def SEC_REQ_CMD_length : Fld := { base := 0x300020, hi := 15, lo := 0, acc := .wo, rst := 0x0 }
/-! NLD_SEC_REQ_STAT (R671, 20_recorder_and_security.md) -/
def SEC_REQ_STAT_busy : Fld := { base := 0x300024, hi := 31, lo := 31, acc := .ro, rst := 0x0 }
def SEC_REQ_STAT_rsp_len : Fld := { base := 0x300024, hi := 23, lo := 8, acc := .ro, rst := 0x0 }
def SEC_REQ_STAT_code : Fld := { base := 0x300024, hi := 7, lo := 0, acc := .ro, rst := 0x0 }
/-! NLD_SEC_SIGFAIL (R671, 20_recorder_and_security.md) -/
def SEC_SIGFAIL_count : Fld := { base := 0x300030, hi := 31, lo := 0, acc := .rc, rst := 0x0 }
/-! NLD_IRQ_SRC (R701, 22_naloder_register_map.md) -/
def IRQ_SRC_src : Fld := { base := 0x340000, hi := 17, lo := 0, acc := .ro, rst := 0x0 }
/-! NLD_IRQ_PEND (R701, 22_naloder_register_map.md) -/
def IRQ_PEND_pend : Fld := { base := 0x340004, hi := 17, lo := 0, acc := .w1c, rst := 0x0 }
/-! NLD_IRQ_EN (R701, 22_naloder_register_map.md) -/
def IRQ_EN_en : Fld := { base := 0x340008, hi := 17, lo := 0, acc := .rw, rst := 0x0 }
/-! NLD_IRQ_CFG (R701, 22_naloder_register_map.md) -/
def IRQ_CFG_mode : Fld := { base := 0x34000C, hi := 0, lo := 0, acc := .rw, rst := 0x0 }
/-! NLD_MEM_EVT (R702, 22_naloder_register_map.md) -/
def MEM_EVT_scrub_pass : Fld := { base := 0x340100, hi := 3, lo := 3, acc := .w1c, rst := 0x0 }
def MEM_EVT_marked : Fld := { base := 0x340100, hi := 2, lo := 2, acc := .w1c, rst := 0x0 }
def MEM_EVT_ue : Fld := { base := 0x340100, hi := 1, lo := 1, acc := .w1c, rst := 0x0 }
def MEM_EVT_ce : Fld := { base := 0x340100, hi := 0, lo := 0, acc := .w1c, rst := 0x0 }
/-! NLD_MEM_FIRST (R702, 22_naloder_register_map.md) -/
def MEM_FIRST_structure : Fld := { base := 0x340104, hi := 31, lo := 28, acc := .ro, rst := 0x0 }
/-! NLD_MEM_ADDR_LO (R702, 22_naloder_register_map.md) -/
def MEM_ADDR_LO_addr_lo : Fld := { base := 0x340108, hi := 31, lo := 0, acc := .ro, rst := 0x0 }
/-! NLD_MEM_ADDR_HI (R702, 22_naloder_register_map.md) -/
def MEM_ADDR_HI_addr_hi : Fld := { base := 0x34010C, hi := 31, lo := 0, acc := .ro, rst := 0x0 }
/-! NLD_MEM_CE_SRAM (R702, 22_naloder_register_map.md) -/
def MEM_CE_SRAM_count : Fld := { base := 0x340110, hi := 31, lo := 0, acc := .rc, rst := 0x0 }
/-! NLD_MEM_UE_SRAM (R702, 22_naloder_register_map.md) -/
def MEM_UE_SRAM_count : Fld := { base := 0x340114, hi := 31, lo := 0, acc := .rc, rst := 0x0 }
/-! NLD_MEM_CE_NOC (R702, 22_naloder_register_map.md) -/
def MEM_CE_NOC_count : Fld := { base := 0x340118, hi := 31, lo := 0, acc := .rc, rst := 0x0 }
/-! NLD_MEM_UE_NOC (R702, 22_naloder_register_map.md) -/
def MEM_UE_NOC_count : Fld := { base := 0x34011C, hi := 31, lo := 0, acc := .rc, rst := 0x0 }
/-! NLD_MEM_CE_HBM (R702, 22_naloder_register_map.md) -/
def MEM_CE_HBM_count : Fld := { base := 0x340120, hi := 31, lo := 0, acc := .rc, rst := 0x0 }
/-! NLD_MEM_UE_HBM (R702, 22_naloder_register_map.md) -/
def MEM_UE_HBM_count : Fld := { base := 0x340124, hi := 31, lo := 0, acc := .rc, rst := 0x0 }
/-! NLD_HBM_MARKED (R702, 22_naloder_register_map.md) -/
def HBM_MARKED_granules : Fld := { base := 0x340128, hi := 21, lo := 0, acc := .ro, rst := 0x0 }
/-! NLD_HBM_SCRUB (R702, 22_naloder_register_map.md) -/
def HBM_SCRUB_enable : Fld := { base := 0x34012C, hi := 31, lo := 31, acc := .rw, rst := 0x1 }
def HBM_SCRUB_progress : Fld := { base := 0x34012C, hi := 9, lo := 0, acc := .ro, rst := 0x0 }
/-! NLD_D2D_EVT (R703, 22_naloder_register_map.md) -/
def D2D_EVT_unc : Fld := { base := 0x340200, hi := 1, lo := 1, acc := .w1c, rst := 0x0 }
def D2D_EVT_replay : Fld := { base := 0x340200, hi := 0, lo := 0, acc := .w1c, rst := 0x0 }
/-! NLD_D2D_REPLAY (R703, 22_naloder_register_map.md) -/
def D2D_REPLAY_count : Fld := { base := 0x340204, hi := 31, lo := 0, acc := .rc, rst := 0x0 }
/-! NLD_D2D_UNC (R703, 22_naloder_register_map.md) -/
def D2D_UNC_count : Fld := { base := 0x340208, hi := 31, lo := 0, acc := .rc, rst := 0x0 }
/-! NLD_D2D_MAXNS (R703, 22_naloder_register_map.md) -/
def D2D_MAXNS_max_ns : Fld := { base := 0x34020C, hi := 15, lo := 0, acc := .rc, rst := 0x0 }
/-! NLD_ACC_EVT (R704, 22_naloder_register_map.md) -/
def ACC_EVT_reason : Fld := { base := 0x340300, hi := 17, lo := 16, acc := .ro, rst := 0x0 }
def ACC_EVT_early_write : Fld := { base := 0x340300, hi := 1, lo := 1, acc := .w1c, rst := 0x0 }
def ACC_EVT_partial_write : Fld := { base := 0x340300, hi := 0, lo := 0, acc := .w1c, rst := 0x0 }
/-! NLD_ACC_IGNORED (R704, 22_naloder_register_map.md) -/
def ACC_IGNORED_count : Fld := { base := 0x340304, hi := 31, lo := 0, acc := .rc, rst := 0x0 }
/-! NLD_QCHK_STATUS (R233, 06_queues_and_arbiters.md) -/
def QCHK_STATUS_chk_err : Fld := { base := 0x340400, hi := 31, lo := 31, acc := .w1c, rst := 0x0 }
def QCHK_STATUS_ovr : Fld := { base := 0x340400, hi := 30, lo := 30, acc := .w1c, rst := 0x0 }
def QCHK_STATUS_first_id : Fld := { base := 0x340400, hi := 15, lo := 0, acc := .ro, rst := 0x0 }
/-! NLD_QCHK_COUNT (R233, 06_queues_and_arbiters.md) -/
def QCHK_COUNT_count : Fld := { base := 0x340404, hi := 31, lo := 0, acc := .rc, rst := 0x0 }
/-! NLD_QOVR_FIRST (R233, 06_queues_and_arbiters.md) -/
def QOVR_FIRST_id : Fld := { base := 0x340408, hi := 15, lo := 0, acc := .ro, rst := 0x0 }
/-! NLD_QOVR_COUNT (R233, 06_queues_and_arbiters.md) -/
def QOVR_COUNT_count : Fld := { base := 0x34040C, hi := 31, lo := 0, acc := .rc, rst := 0x0 }
/-! NLD_VHQ_CTRL (R591, 17_host_interface.md) -/
def VHQ_CTRL_ro : Fld := { base := 0x1010000, stride := 0x10000, count := 16, hi := 8, lo := 8, acc := .ro, rst := 0x0 }
def VHQ_CTRL_poll : Fld := { base := 0x1010000, stride := 0x10000, count := 16, hi := 7, lo := 0, acc := .ro, rst := 0x4 }
/-! NLD_VHQ_EVT (R591, 17_host_interface.md) -/
def VHQ_EVT_emul_drop : Fld := { base := 0x1010004, stride := 0x10000, count := 16, hi := 3, lo := 3, acc := .w1c, rst := 0x0 }
def VHQ_EVT_emul_timeout : Fld := { base := 0x1010004, stride := 0x10000, count := 16, hi := 2, lo := 2, acc := .w1c, rst := 0x0 }
def VHQ_EVT_loss : Fld := { base := 0x1010004, stride := 0x10000, count := 16, hi := 1, lo := 1, acc := .w1c, rst := 0x0 }
def VHQ_EVT_ring_err : Fld := { base := 0x1010004, stride := 0x10000, count := 16, hi := 0, lo := 0, acc := .w1c, rst := 0x0 }
/-! NLD_VHQ_DBPAGE_LO (R591, 17_host_interface.md) -/
def VHQ_DBPAGE_LO_addr_lo : Fld := { base := 0x1010008, stride := 0x10000, count := 16, hi := 31, lo := 12, acc := .rw, rst := 0x0 }
/-! NLD_VHQ_DBPAGE_HI (R591, 17_host_interface.md) -/
def VHQ_DBPAGE_HI_addr_hi : Fld := { base := 0x101000C, stride := 0x10000, count := 16, hi := 31, lo := 0, acc := .rw, rst := 0x0 }
/-! NLD_VHQ_RINGSEL (R591, 17_host_interface.md) -/
def VHQ_RINGSEL_word : Fld := { base := 0x1010010, stride := 0x10000, count := 16, hi := 9, lo := 5, acc := .rw, rst := 0x0 }
def VHQ_RINGSEL_ring : Fld := { base := 0x1010010, stride := 0x10000, count := 16, hi := 4, lo := 0, acc := .rw, rst := 0x0 }
/-! NLD_VHQ_RINGDATA (R591, 17_host_interface.md) -/
def VHQ_RINGDATA_data : Fld := { base := 0x1010014, stride := 0x10000, count := 16, hi := 31, lo := 0, acc := .rw, rst := 0x0 }
/-! NLD_VHQ_RINGCMD (R591, 17_host_interface.md) -/
def VHQ_RINGCMD_op : Fld := { base := 0x1010018, stride := 0x10000, count := 16, hi := 31, lo := 30, acc := .wo, rst := 0x0 }
def VHQ_RINGCMD_refused : Fld := { base := 0x1010018, stride := 0x10000, count := 16, hi := 29, lo := 29, acc := .ro, rst := 0x0 }
def VHQ_RINGCMD_ring : Fld := { base := 0x1010018, stride := 0x10000, count := 16, hi := 4, lo := 0, acc := .wo, rst := 0x0 }
/-! NLD_VHQ_RINGSTAT (R591, 17_host_interface.md) -/
def VHQ_RINGSTAT_enabled : Fld := { base := 0x101001C, stride := 0x10000, count := 16, hi := 31, lo := 0, acc := .ro, rst := 0x0 }
/-! NLD_VHQ_HOSTERR (R592, 17_host_interface.md) -/
def VHQ_HOSTERR_count : Fld := { base := 0x1010020, stride := 0x10000, count := 16, hi := 31, lo := 0, acc := .rc, rst := 0x0 }
/-! NLD_VHQ_LOST (R592, 17_host_interface.md) -/
def VHQ_LOST_count : Fld := { base := 0x1010024, stride := 0x10000, count := 16, hi := 31, lo := 0, acc := .rc, rst := 0x0 }
/-! NLD_VHQ_TAPDROP (R592, 17_host_interface.md) -/
def VHQ_TAPDROP_count : Fld := { base := 0x1010028, stride := 0x10000, count := 16, hi := 31, lo := 0, acc := .rc, rst := 0x0 }
/-! NLD_VHQ_EMULDROP (R592, 17_host_interface.md) -/
def VHQ_EMULDROP_count : Fld := { base := 0x101002C, stride := 0x10000, count := 16, hi := 31, lo := 0, acc := .rc, rst := 0x0 }
/-! NLD_VF_PART (R707, 22_naloder_register_map.md) -/
def VF_PART_part : Fld := { base := 0x1011000, stride := 0x10000, count := 16, hi := 4, lo := 0, acc := .ro, rst := 0x0 }
/-! NLD_VF_STATUS (R707, 22_naloder_register_map.md) -/
def VF_STATUS_fw_running : Fld := { base := 0x1011004, stride := 0x10000, count := 16, hi := 31, lo := 31, acc := .ro, rst := 0x0 }
def VF_STATUS_tick_run : Fld := { base := 0x1011004, stride := 0x10000, count := 16, hi := 30, lo := 30, acc := .ro, rst := 0x0 }
def VF_STATUS_programs : Fld := { base := 0x1011004, stride := 0x10000, count := 16, hi := 29, lo := 23, acc := .ro, rst := 0x0 }
def VF_STATUS_members : Fld := { base := 0x1011004, stride := 0x10000, count := 16, hi := 9, lo := 0, acc := .ro, rst := 0x0 }
/-! NLD_VF_EPOCH (R707, 22_naloder_register_map.md) -/
def VF_EPOCH_epoch : Fld := { base := 0x1011008, stride := 0x10000, count := 16, hi := 31, lo := 0, acc := .ro, rst := 0x0 }
/-! NLD_VF_NOW_LO (R707, 22_naloder_register_map.md) -/
def VF_NOW_LO_tick_lo : Fld := { base := 0x101100C, stride := 0x10000, count := 16, hi := 31, lo := 0, acc := .ro, rst := 0x0 }
/-! NLD_VF_NOW_HI (R707, 22_naloder_register_map.md) -/
def VF_NOW_HI_tick_hi : Fld := { base := 0x1011010, stride := 0x10000, count := 16, hi := 15, lo := 0, acc := .ro, rst := 0x0 }
/-! NLD_VF_WINDOW (R707, 22_naloder_register_map.md) -/
def VF_WINDOW_length : Fld := { base := 0x1011014, stride := 0x10000, count := 16, hi := 23, lo := 0, acc := .ro, rst := 0x0 }
/-! NLD_VF_SHARE (R707, 22_naloder_register_map.md) -/
def VF_SHARE_units : Fld := { base := 0x1011018, stride := 0x10000, count := 16, hi := 15, lo := 0, acc := .ro, rst := 0x0 }
/-! NLD_VF_CTX (R707, 22_naloder_register_map.md) -/
def VF_CTX_tracked : Fld := { base := 0x101101C, stride := 0x10000, count := 16, hi := 18, lo := 0, acc := .ro, rst := 0x0 }
/-! NLD_VF_EVT (R707, 22_naloder_register_map.md) -/
def VF_EVT_hq : Fld := { base := 0x1011020, stride := 0x10000, count := 16, hi := 6, lo := 6, acc := .ro, rst := 0x0 }
def VF_EVT_run_fault : Fld := { base := 0x1011020, stride := 0x10000, count := 16, hi := 5, lo := 5, acc := .w1c, rst := 0x0 }
def VF_EVT_abort : Fld := { base := 0x1011020, stride := 0x10000, count := 16, hi := 4, lo := 4, acc := .w1c, rst := 0x0 }
def VF_EVT_fw_state : Fld := { base := 0x1011020, stride := 0x10000, count := 16, hi := 3, lo := 3, acc := .w1c, rst := 0x0 }
def VF_EVT_window : Fld := { base := 0x1011020, stride := 0x10000, count := 16, hi := 2, lo := 2, acc := .w1c, rst := 0x0 }
def VF_EVT_epoch : Fld := { base := 0x1011020, stride := 0x10000, count := 16, hi := 1, lo := 1, acc := .w1c, rst := 0x0 }
def VF_EVT_members : Fld := { base := 0x1011020, stride := 0x10000, count := 16, hi := 0, lo := 0, acc := .w1c, rst := 0x0 }
/-! NLD_VF_EN (R707, 22_naloder_register_map.md) -/
def VF_EN_en : Fld := { base := 0x1011024, stride := 0x10000, count := 16, hi := 6, lo := 0, acc := .rw, rst := 0x0 }

/-- Fields 0 and on of the map, by address. -/
def part0 : List Fld :=
  [ID_part, ID_revision, SERIAL_LO_serial_lo,
   SERIAL_HI_serial_hi, CAP0_fife_ports, CAP0_horn_ports,
   CAP0_eth_ports, CAP0_vfs, CAP0_arrays,
   CAP0_clusters, CAP0_open_ticks, CAP1_rdv,
   CAP1_qps, CAP2_hbm_gib, CAP2_sram_mib,
   CAP2_nv_mib, RST_CAUSE_last_fault, RST_CAUSE_pkg_resets,
   RST_CAUSE_by_cmd, RST_CAUSE_por, RST_CMD_key,
   RST_CMD_clear_fault, RST_CMD_pkg_reset, CLK_STATUS_pll_io,
   CLK_STATUS_pll_cmp, CLK_STATUS_pll_hbm, CLK_STATUS_ref_sys,
   CLK_STATUS_ref_pcie, CLK_STATUS_ref_eth, CLK_STATUS_ref_horn,
   CLK_STATUS_ref_fife, PKG_EVT_ref_lost, PKG_EVT_fw_state,
   PKG_EVT_reset_refused, BOOT_STATUS_fail_code, BOOT_STATUS_hbm_ok,
   BOOT_STATUS_nv_ok, BOOT_STATUS_compute_on, BOOT_STATUS_puf_ok,
   BOOT_STATUS_stage]

/-- Fields 40 and on of the map, by address. -/
def part1 : List Fld :=
  [PWR_STATUS_thr_event, PWR_STATUS_cause, PWR_STATUS_level,
   PWR_STATUS_power_w, PWR_STATUS_tj_c, PWR_LIMIT_power_limit_w,
   PWR_LIMIT_tj_throttle_c, FW_LOAD_ADDR_LO_addr_lo, FW_LOAD_ADDR_HI_addr_hi,
   FW_LOAD_LEN_len, FW_LOAD_CMD_go, FW_LOAD_CMD_update,
   FW_LOAD_STAT_busy, FW_LOAD_STAT_restored, FW_LOAD_STAT_code,
   FW_STATUS_restarts, FW_STATUS_last_cause, FW_STATUS_slot,
   FW_STATUS_state, FW_WDT_kick, HWERR_PROD_seq,
   HWERR_CONS_seq, HWERR_LOST_count, FW_OBSVw_obsv,
   FWE_VERSION_major, FWE_VERSION_minor, FWE_VERSION_patch,
   FWE_STATE_restarts, FWE_STATE_state, FWE_HIST_gib,
   FWE_POOL_IDX_owner, FWE_POOL_DATA_base, FWE_POOL_DATA_units,
   FWE_HBMWAIT_LOc_val_lo, FWE_HBMWAIT_HIc_val_hi, FWE_PTPe_CLK0_clock_id,
   FWE_PTPe_CLK1_clock_id, FWE_PTPe_PORT_port_number, FWE_PTPe_SRC0_source,
   FWE_PTPe_SRC1_source]

/-- Fields 80 and on of the map, by address. -/
def part2 : List Fld :=
  [FWE_PTPe_SRC2_source, FWE_PTPe_SRC3_source, FWE_LOGCTL_level,
   FWE_LOGCTL_trace_en, FWE_LOGSEL_word, FWE_LOGSEL_index,
   FWE_LOGDATA_data, FWE_LOGHEAD_seq, HQ_CTRL_ro,
   HQ_CTRL_poll, HQ_EVT_emul_drop, HQ_EVT_emul_timeout,
   HQ_EVT_loss, HQ_EVT_ring_err, HQ_DBPAGE_LO_addr_lo,
   HQ_DBPAGE_HI_addr_hi, HQ_RINGSEL_word, HQ_RINGSEL_ring,
   HQ_RINGDATA_data, HQ_RINGCMD_op, HQ_RINGCMD_refused,
   HQ_RINGCMD_ring, HQ_RINGSTAT_enabled, HQ_HOSTERR_count,
   HQ_LOST_count, HQ_TAPDROP_count, HQ_EMULDROP_count,
   ARB_FETCH0_pri15, ARB_FETCH0_pri14, ARB_FETCH0_pri13,
   ARB_FETCH0_pri12, ARB_FETCH0_pri11, ARB_FETCH0_pri10,
   ARB_FETCH0_pri9, ARB_FETCH0_pri8, ARB_FETCH0_pri7,
   ARB_FETCH0_pri6, ARB_FETCH0_pri5, ARB_FETCH0_pri4,
   ARB_FETCH0_pri3]

/-- Fields 120 and on of the map, by address. -/
def part3 : List Fld :=
  [ARB_FETCH0_pri2, ARB_FETCH0_pri1, ARB_FETCH0_pri0,
   ARB_FETCH1_pri16, XCHK_EXPFAIL_count, XCHK_EVT_pos,
   XCHK_EVT_exp_fail, FIFEp_CTRL_reset, FIFEp_CTRL_retrain,
   FIFEp_CTRL_wake, FIFEp_CTRL_enable, FIFEp_STATUS_lp_state,
   FIFEp_STATUS_link_state, FIFEp_STATUS_end_leaf, FIFEp_STATUS_chain_len,
   FIFEp_SLEEP_go, FIFEp_SLEEP_target, FIFEp_SLEEP_phase,
   FIFEp_ENUM_IDX_word, FIFEp_ENUM_IDX_pos, FIFEp_ENUM_DATA_data,
   FIFEp_CRCERR_count, FIFEp_REPLAY_count, FIFEp_RETRAIN_resets,
   FIFEp_RETRAIN_retrains, FIFEp_MSGDROP_count, FIFEp_GCX_count,
   FIFEp_EVT_wake_seen, FIFEp_EVT_gc_excess, FIFEp_EVT_enum_change,
   FIFEp_EVT_reset, FIFEp_EVT_retrain, FIFEp_EVT_retry,
   ING_CTRL_own_check, ING_EVT_drain_slow, ING_EVT_own_mismatch,
   ING_EVT_per_mismatch, ING_EVT_addr_mismatch, ING_EVT_in_poison,
   ING_DRAIN_max_ns]

/-- Fields 160 and on of the map, by address. -/
def part4 : List Fld :=
  [ING_MERGED_count, ING_ADDRMIS_count, ING_PERMIS_count,
   ING_OWNMIS_count, ING_SPAN_count, ING_POISONED_count,
   ING_OWN_IDX_staged, ING_OWN_IDX_series, ING_OWN_IDX_pos,
   ING_OWN_DATA_pending, ING_OWN_DATA_owner, ING_OWN_CMD_arm,
   ING_OWN_CMD_pos, HORNp_CTRL_role, HORNp_CTRL_pmd,
   HORNp_CTRL_reset, HORNp_CTRL_retrain, HORNp_CTRL_enable,
   HORNp_STATUS_link_state, HORNp_STATUS_peer_ok, HORNp_STATUS_peer,
   HORNp_PEER_expected, HORNp_CRCERR_count, HORNp_REPLAY_count,
   HORNp_RETRAIN_resets, HORNp_RETRAIN_retrains, HORNp_FECCORR_count,
   HORNp_FECUNC_count, HORNp_MSGDROP_count, HORNp_EVT_fec_unc,
   HORNp_EVT_peer_mismatch, HORNp_EVT_reset, HORNp_EVT_retrain,
   HORNp_EVT_retry, TDd_CTRL_hold, TDd_CTRL_enable,
   TDd_STATUS_holdover_entered, TDd_STATUS_step_applied, TDd_STATUS_step_refused,
   TDd_STATUS_lock_lost]

/-- Fields 200 and on of the map, by address. -/
def part5 : List Fld :=
  [TDd_STATUS_step_pending, TDd_STATUS_delay_valid, TDd_STATUS_state,
   TDd_TIME_LO_ns_lo, TDd_TIME_HI_ns_hi, TDd_TIME_FRAC_frac,
   TDd_INCR_FRAC_incr_frac, TDd_INCR_INT_incr_int, TDd_ADJ_adj,
   TDd_GAIN_kp, TDd_GAIN_ki, TDd_STEP_THR_step_thr_ns,
   TDd_LOCK_THR_lock_thr_ps, TDd_OFFSET_offset, TDd_DELAY_d_filt,
   TDd_REFUSED_refused, TDd_STEP_AMT_LO_amt_lo, TDd_STEP_AMT_HI_amt_hi,
   TDd_STEP_AT_LO_at_lo, TDd_STEP_AT_HI_at_hi, TDd_STEP_CMD_accept_pending,
   TDd_STEP_CMD_apply, TDd_LIMITS_refuse_limit, TDd_LIMITS_lock_count,
   TDd_SRC_revertive, TDd_SRC_ref_domain, TDd_SRC_secondary,
   TDd_SRC_primary, TDd_SRCSTAT_failover, TDd_SRCSTAT_current,
   TIME_CFG_ezcia_port, TIME_CFG_ezcia_mode, TIME_CFG_sync_iv_us,
   TIME_KTU_IDX_pos, TIME_KTU_DATA_state_b, TIME_KTU_DATA_state_a,
   TIME_KTU_DATA_offset_q, HORN_ASYMp_asym, PTP_CFGe_domain_number,
   PTP_CFGe_bound_domain]

/-- Fields 240 and on of the map, by address. -/
def part6 : List Fld :=
  [PTP_CFGe_log_announce, PTP_CFGe_log_sync, PTP_CFGe_transport,
   PTP_CFGe_one_step, PTP_CFGe_master, PTP_CFGe_enable,
   TICK_CTRL_prov_en, TICK_CTRL_run, TICK_PERIOD_period_us,
   TICK_P_offset_us, TICK_L_offset_us, TICK_G_offset_us,
   TICK_S_offset_us, TICK_NOW_LO_tick_lo, TICK_NOW_HI_tick_hi,
   TICK_OPEN_open_count, TICK_OPEN_oldest_open, TICK_LATE_count,
   TICK_DUP_count, TICK_CRCFAIL_count, TICK_EARLY_count,
   TICK_UNEXP_count, TICK_PROFMIS_count, TICK_SKIP_count,
   TICK_ERR_skip, TICK_ERR_profile_mismatch, TICK_ERR_overrun,
   TICK_ERR_early_frame, TICK_ERR_window_full, TICK_ERR_cfg_refused,
   LIVE_CFG_corr_ms, LIVE_CFG_corrupt_ticks, LIVE_CFG_suspect_ticks,
   LIVE_IDX_pos, LIVE_DATA_state, LIVE_DATA_returned,
   LIVE_DATA_corrupt_run, LIVE_DATA_silent_run, LIVE_CMD_go,
   LIVE_CMD_op]

/-- Fields 280 and on of the map, by address. -/
def part7 : List Fld :=
  [LIVE_CMD_pos, LIVE_EVT_corrupt_alert, LIVE_EVT_witness_conflict,
   LIVE_EVT_disagree, LIVE_EVT_unresolved, LIVE_EVT_dead,
   LIVE_EVT_blind, LIVE_EVT_suspect, LIVE_SUSPECTS_count,
   LIVE_DEADS_count, LIVE_QUERIES_count, LIVE_QTIMEOUT_count,
   LIVE_STALE_count, LIVE_BADMSG_count, LIVE_DISAGREE_count,
   SER_CTRL_hist_en, SER_STATUS_sweep_ns, SER_STATUS_hist_busy,
   SER_ALLOCATED_count, SER_EVT_alloc_refused, SER_EVT_hist_drop,
   SER_EVT_sweep_late, SER_EVT_gap, SER_GAPCNT_count,
   SER_HISTDROP_count, SER_POS_IDX_staged, SER_POS_IDX_word,
   SER_POS_IDX_pos, SER_POS_DATA_data, SER_POS_CMD_commit,
   SER_CTX_IDX_word, SER_CTX_IDX_ctx, SER_CTX_DATA_data,
   SER_CTX_CFG_go, SER_CTX_CFG_epoch, SER_CTX_CFG_bp,
   SER_CTX_CFG_k, SER_QUOTAn_quota, ARR_CTRL_cluster_en,
   ARR_EVT_acc_ue]

/-- Fields 320 and on of the map, by address. -/
def part8 : List Fld :=
  [ARR_EVT_t2_reserved, ARR_EVT_poison_out, ARR_EVT_wpar,
   ARR_FIRST_cause, ARR_FIRST_array, ARR_FIRST_column,
   ARR_FIRST_owner, ARR_WPARCNT_count, ARR_ACCUECNT_count,
   ARR_POISONCNT_count, ARR_INVALIDCNT_count, ARR_T2RSVCNT_count,
   CLc_STATUS_clearing, CLc_STATUS_owner, CLc_STATUS_busy,
   CLc_ISSUE_LO_val_lo, CLc_ISSUE_HI_val_hi, CLc_THR_LO_val_lo,
   CLc_THR_HI_val_hi, CLc_CLEARS_count, SCHED_WINo_OFF_offset,
   SCHED_WINo_LEN_length, SCHED_WINo_SRAM_base, SCHED_WINo_SRAM_units,
   SCHED_WINo_RUNS_faulted, SCHED_WINo_RUNS_skipped, SCHED_CMD_commit,
   SCHED_STATUS_pending, SCHED_STATUS_owner, SCHED_STATUS_round,
   SCHED_EVT_fleet_skip, SCHED_EVT_prov_drop, SCHED_EVT_run_fault,
   SCHED_EVT_win_refused, SCHED_PROVDROP_count, CHK_CTRL_interval_ms,
   CHK_CTRL_enable, CHK_STATUS_cause, CHK_STATUS_cluster,
   CHK_STATUS_vector]

/-- Fields 360 and on of the map, by address. -/
def part9 : List Fld :=
  [CHK_EVT_set_refused, CHK_EVT_fail, CHK_RUNS_count,
   TREE_CTRL_enable, TREE_STATUS_inflight, TREE_STATUS_queued,
   TREE_STATUS_owner, TREE_STATUS_clearing, TREE_STATUS_busy,
   TREE_EVT_queue_wait, TREE_EVT_poison_out, TREE_EVT_window,
   TREE_EVT_struct_err, TREE_EVT_node_ue, TREE_FIRST_cause,
   TREE_FIRST_owner, TREE_FIRST_tree, TREE_FIRST_level,
   TREE_CALLS_count, TREE_WAVES_count, TREE_POISONCNT_count,
   TREE_STRUCTCNT_count, TREE_NODEUECNT_count, TREE_WAITCNT_count,
   TREE_STEPS_LO_val_lo, TREE_STEPS_HI_val_hi, GRP_CFG_role,
   GRP_CFG_level, GRP_CFG_name, GRP_TRAYS_trays,
   GRP_ROOTPEER_peer, GRP_GROUPS_LO_groups, GRP_GROUPS_HI_groups,
   GRP_PROMOTE_LO_tick_lo, GRP_PROMOTE_HI_arm, GRP_PROMOTE_HI_tick_hi,
   RED_EVT_rdv_refused, RED_EVT_seal_missing, RED_EVT_group_conflict,
   RED_EVT_decl_mismatch]

/-- Fields 400 and on of the map, by address. -/
def part10 : List Fld :=
  [RED_EVT_view_mismatch, RED_EVT_seg_mismatch, RED_PLATE_count,
   RED_PDUP_count, RED_PCRC_count, RED_SEGMIS_count,
   RED_GLATE_count, RED_GDUP_count, RED_GCRC_count,
   RED_RANKDROP_count, RDV_IDX_word, RDV_IDX_object,
   RDV_DATA_data, RDV_FREE_free, ABT_ON_HOST_scope,
   ABT_ON_KTU_scope, ABT_ON_VERDICT_scope, ABT_ON_DEAD_scope,
   ABT_CMD_go, ABT_CMD_scope, ABT_EVT_obsv_alarm,
   ABT_EVT_suppressed, ABT_EVT_accepted, ABT_EVT_originated,
   ABT_LAST_code, ABT_LAST_origin, ABT_LAST_SCOPE_scope,
   ALM_ACCEPT_count, ALM_DUP_count, ALM_BAD_count,
   ABT_ORIG_count, ALM_OBSV_count, ADV_CFG_lead_ticks,
   ADV_EVT_delivered, ADV_EVT_table_full, ADV_DROP_count,
   ADV_MERGED_count, JOB_IDX_word, JOB_IDX_part,
   JOB_DATA_data]

/-- Fields 440 and on of the map, by address. -/
def part11 : List Fld :=
  [VOTE_EVT_late, VOTE_EVT_expel, VOTE_EVT_tie,
   VOTE_EVT_minority, VOTE_DECIDED_count, VOTE_LATE_count,
   PAT_LATE_count, PAT_ACCEPT_count, CODEC_DECCNT_count,
   CODEC_DECSTAT_err, CODEC_DECSTAT_tbl_refused, CODEC_DECSTAT_cause,
   CODEC_DECSTAT_pos, CODEC_TBL_IDX_table, CODEC_TBL_IDX_prev,
   CODEC_TBL_IDX_word, CODEC_TBL_DATA_lengths, CODEC_TBL_GEN_gen,
   CODEC_TBL_STAGEw_lengths, CODEC_TBL_CMD_commit, CODEC_TBL_CMD_table,
   CODEC_TBL_CMD_gen, BULK_CTRL_lane_en, BULK_STATUS_busy,
   BULK_STATUS_failed, ARB_BULK0_pri15, ARB_BULK0_pri14,
   ARB_BULK0_pri13, ARB_BULK0_pri12, ARB_BULK0_pri11,
   ARB_BULK0_pri10, ARB_BULK0_pri9, ARB_BULK0_pri8,
   ARB_BULK0_pri7, ARB_BULK0_pri6, ARB_BULK0_pri5,
   ARB_BULK0_pri4, ARB_BULK0_pri3, ARB_BULK0_pri2,
   ARB_BULK0_pri1]

/-- Fields 480 and on of the map, by address. -/
def part12 : List Fld :=
  [ARB_BULK0_pri0, ARB_BULK1_pri16, ETHe_CFG_link_up,
   ETHe_CFG_enable, ETHe_CFG_vlan_id, ETHe_NH_LO_mac_lo,
   ETHe_NH_HI_mac_hi, RDMA_CTRL_dscp, RDMA_CTRL_pcp,
   RDMA_CTRL_ipv6, RDMA_CTRL_ack_to, RDMA_CTRL_retry_cnt,
   RDMA_CTRL_rnr_retry, RDMA_CTRL_min_rnr, RDMA_LOCALw_addr,
   RDMA_REKEY_rekey_s, RDMA_PEER_IDX_slot, RDMA_PEER_IDX_word,
   RDMA_PEER_DATA_data, RDMA_QP_IDX_qp, RDMA_QP_IDX_word,
   RDMA_QP_DATA_data, RDMA_QP_CMD_op, RDMA_QP_CMD_status,
   RDMA_QP_CMD_qp, RDMA_SRQ_limit, RDMA_SRQ_free,
   RDMA_EVT_create_refused, RDMA_EVT_port_failover, RDMA_EVT_key_fail,
   RDMA_EVT_tag_fail, RDMA_EVT_srq_limit, RDMA_EVT_qp_error,
   RDMA_ERRQP_cause, RDMA_ERRQP_qp, RDMA_TAGFAIL_count,
   RDMA_INVREQ_count, RDMA_RNRSENT_count, RDMA_RETX_count,
   RDMA_CNPRX_count]

/-- Fields 520 and on of the map, by address. -/
def part13 : List Fld :=
  [RDMA_KEYXFAIL_count, RDMA_PLAINDROP_count, RDMA_MIRRORDROP_count,
   SHP_IDX_shaper, SHP_RATE_rate, SHP_BURST_burst,
   SHP_OVH_overhead, SHP_LEVEL_level, SHP_WAIT_count,
   SHP_STATUS_refused, REC_STATUS_clearing, REC_STATUS_torn,
   REC_STATUS_queue_full, REC_STATUS_queued, REC_IDX_area,
   REC_IDX_word, REC_IDX_slot, REC_DATA_data,
   REC_SEQ_LO_seq_lo, REC_SEQ_HI_seq_hi, REC_WPTR_ORD_wrapped,
   REC_WPTR_ORD_slot, REC_WPTR_PRIV_wrapped, REC_WPTR_PRIV_slot,
   REC_LOST_count, REC_NONCEw_nonce, REC_CLR_ADDR_LO_addr_lo,
   REC_CLR_ADDR_HI_addr_hi, REC_CLR_CMD_go, REC_CLR_STAT_busy,
   REC_CLR_STAT_erased, REC_CLR_STAT_code, SEC_STATUS_opened,
   SEC_STATUS_puf_off, SEC_STATUS_provisioned, SEC_STATUS_keys,
   SEC_OPENCNT_provisioned, SEC_OPENCNT_opened, SEC_REQ_ADDR_LO_addr_lo,
   SEC_REQ_ADDR_HI_addr_hi]

/-- Fields 560 and on of the map, by address. -/
def part14 : List Fld :=
  [SEC_RSP_ADDR_LO_addr_lo, SEC_RSP_ADDR_HI_addr_hi, SEC_REQ_CMD_go,
   SEC_REQ_CMD_op, SEC_REQ_CMD_length, SEC_REQ_STAT_busy,
   SEC_REQ_STAT_rsp_len, SEC_REQ_STAT_code, SEC_SIGFAIL_count,
   IRQ_SRC_src, IRQ_PEND_pend, IRQ_EN_en,
   IRQ_CFG_mode, MEM_EVT_scrub_pass, MEM_EVT_marked,
   MEM_EVT_ue, MEM_EVT_ce, MEM_FIRST_structure,
   MEM_ADDR_LO_addr_lo, MEM_ADDR_HI_addr_hi, MEM_CE_SRAM_count,
   MEM_UE_SRAM_count, MEM_CE_NOC_count, MEM_UE_NOC_count,
   MEM_CE_HBM_count, MEM_UE_HBM_count, HBM_MARKED_granules,
   HBM_SCRUB_enable, HBM_SCRUB_progress, D2D_EVT_unc,
   D2D_EVT_replay, D2D_REPLAY_count, D2D_UNC_count,
   D2D_MAXNS_max_ns, ACC_EVT_reason, ACC_EVT_early_write,
   ACC_EVT_partial_write, ACC_IGNORED_count, QCHK_STATUS_chk_err,
   QCHK_STATUS_ovr]

/-- Fields 600 and on of the map, by address. -/
def part15 : List Fld :=
  [QCHK_STATUS_first_id, QCHK_COUNT_count, QOVR_FIRST_id,
   QOVR_COUNT_count, VHQ_CTRL_ro, VHQ_CTRL_poll,
   VHQ_EVT_emul_drop, VHQ_EVT_emul_timeout, VHQ_EVT_loss,
   VHQ_EVT_ring_err, VHQ_DBPAGE_LO_addr_lo, VHQ_DBPAGE_HI_addr_hi,
   VHQ_RINGSEL_word, VHQ_RINGSEL_ring, VHQ_RINGDATA_data,
   VHQ_RINGCMD_op, VHQ_RINGCMD_refused, VHQ_RINGCMD_ring,
   VHQ_RINGSTAT_enabled, VHQ_HOSTERR_count, VHQ_LOST_count,
   VHQ_TAPDROP_count, VHQ_EMULDROP_count, VF_PART_part,
   VF_STATUS_fw_running, VF_STATUS_tick_run, VF_STATUS_programs,
   VF_STATUS_members, VF_EPOCH_epoch, VF_NOW_LO_tick_lo,
   VF_NOW_HI_tick_hi, VF_WINDOW_length, VF_SHARE_units,
   VF_CTX_tracked, VF_EVT_hq, VF_EVT_run_fault,
   VF_EVT_abort, VF_EVT_fw_state, VF_EVT_window,
   VF_EVT_epoch]

/-- Fields 640 and on of the map, by address. -/
def part16 : List Fld :=
  [VF_EVT_members, VF_EN_en]

/-- Every field of the map, by address. -/
def table : List Fld :=
  part0 ++ part1 ++ part2 ++ part3 ++ part4 ++ part5 ++ part6 ++ part7 ++ part8 ++ part9 ++ part10 ++ part11 ++ part12 ++ part13 ++ part14 ++ part15 ++ part16

end Sys2Proof.Machine.NReg
end

