-- ==== Sys2Proof/Machine/Operands.lean ====
section
/-! DEFINITION. The operand forms the spec names things by: KTU addresses (R3), tray positions (R315), owners (R9),
scopes, counters and series sources (R142, R153, R164). -/

namespace Sys2Proof

/-- The number of a base in its registers. -/
def TbId.ix : TbId → Nat
  | .baseA => 0
  | .baseB => 1

/-- The other base. -/
def TbId.other : TbId → TbId
  | .baseA => .baseB
  | .baseB => .baseA

/-- The virtual channel of a message (R296). -/
def Msg.vc : Msg → Nat
  | .frame _ _ => 2
  | .trace _ _ _ _ => 3
  | .tailDump _ _ => 3
  | .cmd _ _ => 1
  | .cmdAck _ => 1
  | .sync _ => 1
  | .delayReq _ => 1
  | .delayResp _ => 1
  | .enumReq _ => 1
  | .enumResp _ => 1
  | .regRd _ => 1
  | .regWr _ => 1
  | .regRdResp _ => 1
  | .regWrResp _ => 1
  | .patternResult _ => 1
  | .digest _ => 1
  | .sleepPropose _ _ _ => 1
  | .sleepAgree _ _ _ _ => 1
  | .wake _ _ _ => 1
  | .bugle _ => 1
  | .horn b => if b.getD 0 0 = 0x12 then 3 else if b.getD 0 0 = 0x13 then 2 else 1

/-- R295, R296: the messages that travel upstream, route 3. -/
def Msg.upstream : Msg → Bool
  | .frame _ _ => true
  | .trace _ _ _ _ => true
  | .tailDump _ _ => true
  | .cmdAck _ => true
  | .delayReq _ => true
  | .enumResp _ => true
  | .regRdResp _ => true
  | .regWrResp _ => true
  | .patternResult _ => true
  | .digest _ => true
  | .sleepAgree _ _ _ _ => true
  | .wake _ _ _ => true
  | _ => false

/-- The transmit requester of a message of the port's own; a TAILDUMP is one of its own, so that it alternates with
TRACE (R179). -/
def Msg.ownReq (m : Msg) : Nat :=
  match m with
  | .tailDump _ _ => 8
  | _ => 2 * m.vc

end Sys2Proof

namespace Sys2Proof.Machine

/-! ### Addresses and owners -/

/-- R3: the address G.T.P.N. -/
def ktuAddr (g t p n : Nat) : Nat := g * 16384 + t * 512 + p * 32 + n

/-- R3: the chain position N of an address. -/
def addrN (a : Nat) : Nat := a % 32

/-- R3: the Fife port P of an address. -/
def addrP (a : Nat) : Nat := a / 32 % 16

/-- R7: the Naloder name G.T of an address, as an 11-bit number. -/
def addrGT (a : Nat) : Nat := a / 512 % 2048

/-- The tray position 32 × P + N of an address. -/
def addrPos (a : Nat) : Nat := a % 512

/-- R9: the owner number of *fleet*. -/
def fleet : Nat := 16

/-- Whether a number names an owner (R9): 0 to 15 Pn, 16 *fleet*. -/
def isOwner (o : Nat) : Bool := o ≤ 16

/-- The scope mask of one owner. -/
def scopeOf (o : Nat) : Nat := 2 ^ o

/-! ### Counters (R142, R144, R147) -/

/-- Utilisation counter Uk. -/
def cntU (k : Nat) : Nat := k

/-- Error counter Ek. -/
def cntE (k : Nat) : Nat := 64 + k

/-- Counter c of PMU instance i; 8 is the cycle counter. -/
def cntPmu (i c : Nat) : Nat := 0x1000 + 16 * i + c

/-- Category k of slot group g. -/
def cntSlot (g k : Nat) : Nat := 0x8000 + 8 * g + k

/-- The counter a series-map entry names (R164): class in bits 15:14, source in bits 13:0. -/
def entryCounter (e : Nat) : Option Nat :=
  let cls := e / 16384 % 4
  let src := e % 16384
  if cls = 1 then
    (if src / 4096 = 0 ∧ src % 16 ≤ 8 then some (cntPmu (src / 16 % 256) (src % 16)) else none)
  else if cls = 2 then
    (if src / 256 = 0 ∧ src % 8 ≤ 6 then some (cntSlot (src / 8 % 32) (src % 8)) else none)
  else none

/-- Whether a counter belongs to PMU instance i. -/
def inPmu (i id : Nat) : Bool := cntPmu i 0 ≤ id && id ≤ cntPmu i 8

/-- Whether a counter belongs to slot group g. -/
def inSlot (g id : Nat) : Bool := cntSlot g 0 ≤ id && id ≤ cntSlot g 6

/-- The class and source of a counter, as KTU_CNT_ERRSRC reports it (R164). -/
def counterSource (id : Nat) : Nat × Nat :=
  if id < 0x1000 then (3, id)
  else if id < 0x8000 then (1, id - 0x1000)
  else (2, id - 0x8000)

end Sys2Proof.Machine
end

