-- ==== Sys2Proof/Machine/FlagsKtu.lean ====
section
/-! DEFINITION. The KTU's event bits and interrupt sources (R683 to R685): how an event bit is set, and what setting it
does to the pending bits and to ktu_irq. -/

namespace Sys2Proof.Machine

/-- A field of the KTU's register map. -/
def Ktu.get (k : Ktu) (f : Fld) (i : Nat := 0) : Nat := k.regs.get f i

/-- A one-bit field. -/
def Ktu.bit (k : Ktu) (f : Fld) (i : Nat := 0) : Bool := k.regs.bit f i

/-- Set a field. -/
def Ktu.put (k : Ktu) (f : Fld) (v : Nat) (i : Nat := 0) : Ktu := { k with regs := k.regs.set f v i }

/-- Count in a saturating counter field. -/
def Ktu.count (k : Ktu) (f : Fld) (n : Nat := 1) (i : Nat := 0) : Ktu := { k with regs := k.regs.bump f n i }

/-- R683: the interrupt source that the event bits at an address and bit position belong to. -/
def ktuEventSource (addr lo : Nat) : Option Nat :=
  if addr = 0x484 then (if 12 ≤ lo then some 0 else none)
  else if addr = 0x1004 ∨ addr = 0x1084 then (if 8 ≤ lo ∧ lo ≤ 11 then some 1 else none)
  else if addr = 0x1104 then (if lo = 8 then some 1 else none)
  else if addr = 0x1800 then (if lo = 31 then some 1 else none)
  else if addr = 0x300C then (if lo = 0 ∨ lo = 1 ∨ lo = 3 then some 2 else none)
  else if 0x2410 ≤ addr ∧ addr ≤ 0x241C then some 2
  else if 0x4000 ≤ addr ∧ addr ≤ 0x7FFF then
    (if addr % 64 = 4 ∧ lo ≠ 17 ∧ lo ≠ 18 then some 3 else none)
  else if 0x2800 ≤ addr ∧ addr ≤ 0x2FFF then (if addr % 64 = 4 then some 3 else none)
  else if addr = 0x8004 then (if lo = 0 ∨ lo = 2 then some 4 else none)
  else if addr = 0x9004 then (if lo = 12 ∨ lo = 13 then some 5 else none)
  else if addr = 0xA040 then some 6
  else if 0xA100 ≤ addr ∧ addr ≤ 0xA20F then
    (if addr % 16 = 12 ∧ (lo = 13 ∨ lo = 14) then some 6 else none)
  else if addr = 0xB004 then (if 8 ≤ lo ∧ lo ≤ 11 then some 7 else none)
  else if addr = 0xC014 then some 8
  else if addr = 0xD000 then (if lo = 31 then some 9 else none)
  else if addr = 0xD008 ∨ addr = 0xD00C then some 9
  else if addr = KReg.DIG_EVT_closed.base then some 10
  else if addr = KReg.PAT_EVT_ended.base then some 11
  else if addr = 0xF010 then (if lo ≤ 4 then some 12 else none)
  else if addr = 0x404 then (if lo = 1 then some 14 else none)
  else none

/-- The sources that the stored event bits raise. -/
def regsSources : Regs → Nat
  | [] => 0
  | (key, v) :: t =>
    match (if v = 0 then none else ktuEventSource (key / 32) (key % 32)) with
    | some s => setBit (regsSources t) s
    | none => regsSources t

/-- KTU_IRQ_SRC (R683): the sources at 1; source 13 is the ktu_abort output. -/
def Ktu.irqSrc (k : Ktu) : Nat :=
  if k.pins.abort then setBit (regsSources k.regs) 13 else regsSources k.regs

/-- R684: a source that a change takes from 0 to 1 sets its pending bit. -/
def Ktu.pend (before k : Ktu) : Ktu :=
  let rise := k.irqSrc &&& (before.irqSrc ^^^ 0x7FFF)
  if rise = 0 then k else k.put KReg.IRQ_PEND_pend (k.get KReg.IRQ_PEND_pend ||| rise)

/-- Set bits of an event field, and the pending bit of its source when the source rises. -/
def Ktu.raise (k : Ktu) (f : Fld) (v : Nat := 1) (i : Nat := 0) : Ktu :=
  Ktu.pend k (k.put f (k.get f i ||| v) i)

/-- The ktu_irq output (R684). -/
def Ktu.irq (k : Ktu) : Bool :=
  let m := if k.bit KReg.IRQ_CFG_mode then k.irqSrc else k.get KReg.IRQ_PEND_pend
  m &&& k.get KReg.IRQ_EN_en != 0

end Sys2Proof.Machine
end

