-- ==== Sys2Proof/Machine/Link.lean ====
section
/-! DEFINITION. The link layer that a Fife end and a Horn end share (R268 to R282, R457 to R461): sequence numbers,
acknowledgement, replay, credits, and the state machine of R277. -/

namespace Sys2Proof.Machine

/-- What differs between the two kinds of link: the sequence modulus, the replay depth, the initial credits, and the
modulus of the freed counts. -/
structure LinkKind where
  modulus : Nat
  replayMax : Nat
  credits : List Nat
  creditMod : Nat
  deriving DecidableEq, Repr

/-- Fife: 8-bit sequence numbers, 64 flits of replay, the receive buffers of R281. -/
def fifeKind : LinkKind := { modulus := 256, replayMax := 64, credits := [16, 16, 48, 24], creditMod := 16 }

/-- Horn: 16-bit sequence numbers, 512 flits of replay, the receive buffers of R462 (R458, R460). -/
def hornKind : LinkKind := { modulus := 65536, replayMax := 512, credits := [32, 64, 1024, 512], creditMod := 65536 }

/-- The initial credits of a virtual channel. -/
def LinkKind.init (lk : LinkKind) (vc : Nat) : Nat := lk.credits.getD vc 0

/-- What a link operation did that its port reports. -/
structure LinkActs where
  crcErr : Bool := false
  accepted : Bool := false
  retry : Bool := false
  replays : Nat := 0
  retrain : Bool := false
  reset : Bool := false
  trunc : Bool := false
  ackedTicks : List Nat := []
  deriving DecidableEq, Repr

/-- The link end carries flits (R277). -/
def LinkEnd.carries (e : LinkEnd) : Bool := e.state = .active || e.state = .retry

/-- R279: what a Reset, and an entry into Down from a running state, clears. Messages handed to the port but not sent
stay with it; those in the replay buffer are lost. -/
def LinkEnd.clear (e : LinkEnd) : LinkEnd :=
  { e with txSeq := 0, rxExp := 0, ackDue := false, nakOut := false, nakDue := false, replay := [], resend := [],
           episode := none, used := [], lastRep := [], freed := [], reported := [], rrVc := 0, partialRx := [] }

/-- The message cut in transmission is not sent on: it went with the replay buffer. -/
def LinkEnd.dropCut (e : LinkEnd) : LinkEnd :=
  { e with tx := e.tx.map (fun p =>
      (p.1, if p.2.sent = 0 then p.2 else { msgs := p.2.msgs.drop 1, sent := 0 })) }

/-- Enter Reset (R277, R279). -/
def LinkEnd.toReset (e : LinkEnd) : LinkEnd × LinkActs :=
  ({ e.clear.dropCut with state := .reset, lp := 0, sentEnter := none, gotEnter := none },
   { reset := true, trunc := !e.partialRx.isEmpty })

/-- Enter Down (R277, R279): from Active, Retry or Retrain the link state is cleared as by a Reset. -/
def LinkEnd.toDown (e : LinkEnd) : LinkEnd × LinkActs :=
  if e.state = .active ∨ e.state = .retry ∨ e.state = .retrain then
    ({ e.clear.dropCut with state := .down, lp := 0, sentEnter := none, gotEnter := none },
     { trunc := !e.partialRx.isEmpty })
  else ({ e with state := .down }, {})

/-- Enter Retrain from Active or Retry (R277): the link-layer state is kept. -/
def LinkEnd.toRetrain (e : LinkEnd) : LinkEnd × LinkActs :=
  if e.carries then ({ e with state := .retrain, episode := none, resend := [] }, { retrain := true })
  else (e, {})

/-- R276: start a replay from the first unacknowledged flit; the ninth of an episode enters Retrain instead. -/
def LinkEnd.startReplay (e : LinkEnd) : LinkEnd × LinkActs :=
  match e.replay with
  | [] => (e, {})
  | r :: _ =>
    match e.episode with
    | none =>
      ({ e with state := .retry, episode := some (r.seq, 1), resend := e.replay }, { retry := true, replays := 1 })
    | some (first, n) =>
      if n ≥ 8 then e.toRetrain
      else ({ e with episode := some (first, n + 1), resend := e.replay }, { replays := 1 })

/-- Drop the flits an acknowledgement covers: up to and including the one with that number, if it is there. -/
def coveredBy (ack : Nat) (l : List SentFlit) : List SentFlit × List SentFlit :=
  match l.findIdx? (fun f => f.seq = ack) with
  | some i => (l.take (i + 1), l.drop (i + 1))
  | none => ([], l)

/-- Use the ack field of a good flit (R275, R276): the episode closes when the first flit replayed is covered. -/
def LinkEnd.takeAck (e : LinkEnd) (ack : Nat) : LinkEnd × List Nat :=
  let (done, rest) := coveredBy ack e.replay
  let (_, resend) := coveredBy ack e.resend
  let closes := match e.episode with
    | some (first, _) => done.any (fun f => f.seq = first)
    | none => false
  let e := { e with replay := rest, resend := if done.isEmpty then e.resend else resend }
  let e := if closes then { e with episode := none, state := if e.state = .retry then .active else e.state } else e
  (e, done.filterMap (fun f => if f.eop then f.frameTick else none))

/-- R282: add the freed units a flit reports to the credits of their channel. -/
def LinkEnd.takeCredit (lk : LinkKind) (e : LinkEnd) (vc cnt : Nat) : LinkEnd :=
  let gain := (cnt + lk.creditMod - Tbl.get 0 vc e.lastRep) % lk.creditMod
  { e with lastRep := Tbl.set 0 vc cnt e.lastRep, used := Tbl.set 0 vc (Tbl.get 0 vc e.used - gain) e.used }

/-- Count a unit freed in a receive buffer (R282). -/
def LinkEnd.free (e : LinkEnd) (vc : Nat) : LinkEnd :=
  { e with freed := Tbl.set 0 vc (Tbl.get 0 vc e.freed + 1) e.freed }

/-- Where a received number lies from the expected one: 0 equal, 1 ahead, 2 behind. -/
def seqPlace (m exp seq : Nat) : Nat :=
  let d := (seq + m - exp % m) % m
  if d = 0 then 0 else if d < m / 2 then 1 else 2

/-- Ask for a replay once (R275): one NAK until the expected flit arrives or the resend timer passes. -/
def LinkEnd.askNak (e : LinkEnd) : LinkEnd :=
  if e.nakOut then e else { e with nakOut := true, nakDue := true }

/-- R275: take a data flit by its sequence number. A unit taken is freed as its message is consumed. -/
def LinkEnd.takeData (lk : LinkKind) (e : LinkEnd) (f : Flit) : LinkEnd × LinkActs :=
  match seqPlace lk.modulus e.rxExp f.seq.toNat with
  | 0 =>
    let part := if f.eop then e.partialRx.filter (· ≠ f.vc.val)
      else if e.partialRx.contains f.vc.val then e.partialRx else f.vc.val :: e.partialRx
    let e := { e with rxExp := (e.rxExp + 1) % lk.modulus, ackDue := true, nakOut := false, partialRx := part }
    ((LinkEnd.takeCredit lk e f.crVc.val f.crCnt.toNat).free f.vc.val, { accepted := true })
  | 1 => (e.askNak, {})
  | _ => ({ e with ackDue := true }, {})

/-- Merge the reports of two operations in a row. -/
def LinkActs.and (a b : LinkActs) : LinkActs :=
  { crcErr := a.crcErr || b.crcErr, accepted := a.accepted || b.accepted, retry := a.retry || b.retry,
    replays := a.replays + b.replays, retrain := a.retrain || b.retrain, reset := a.reset || b.reset,
    trunc := a.trunc || b.trunc, ackedTicks := a.ackedTicks ++ b.ackedTicks }

/-- A flit arrives (R271 to R275, R280, R282). -/
def LinkEnd.receive (lk : LinkKind) (e : LinkEnd) (f : Flit) : LinkEnd × LinkActs :=
  if !e.carries then (e, {})
  else if f.stomped then (e.free f.vc.val, {})
  else if !f.crcOk || f.ftype.toNat ≥ 2 then (e.askNak, { crcErr := true })
  else
    let (e, acked) := e.takeAck f.ack.toNat
    let (e, a1) := if f.nak then e.startReplay else (e, {})
    let (e, a2) :=
      if f.ftype.toNat = 0 then e.takeData lk f
      else
        let e := LinkEnd.takeCredit lk e f.crVc.val f.crCnt.toNat
        (if seqPlace lk.modulus e.rxExp f.seq.toNat = 1 then e.askNak else e, {})
    (e, (a1.and a2).and { ackedTicks := acked })

/-- R282: the channel the next flit reports: the first changed after the one last reported, else the next in order. -/
def LinkEnd.reportVc (e : LinkEnd) : Nat :=
  let order := (List.range 4).map (fun i => (e.rrVc + 1 + i) % 4)
  (order.find? (fun vc => Tbl.get 0 vc e.freed ≠ Tbl.get 0 vc e.reported)).getD ((e.rrVc + 1) % 4)

/-- R282: report a channel's freed count, at most one unit less than the modulus beyond the last
report of it. -/
def LinkEnd.report (lk : LinkKind) (e : LinkEnd) : LinkEnd × Nat × Nat :=
  let vc := e.reportVc
  let old := Tbl.get 0 vc e.reported
  let now := min (Tbl.get 0 vc e.freed) (old + (lk.creditMod - 1))
  ({ e with rrVc := vc, reported := Tbl.set 0 vc now e.reported }, vc, now % lk.creditMod)

/-- The header of the flit an end sends now (R271). -/
def LinkEnd.header (lk : LinkKind) (e : LinkEnd) (ftype : BitVec 2) (vc : Fin 4) (sop eop gc : Bool) (seq : Nat) :
    LinkEnd × Flit :=
  let (e', rv, rc) := e.report lk
  ({ e' with ackDue := false, nakDue := false },
   { ftype := ftype, vc := vc, sop := sop, eop := eop, crVc := Fin.ofNat 4 rv, crCnt := BitVec.ofNat 16 rc,
     nak := e.nakDue, gc := gc, ack := BitVec.ofNat 16 ((e.rxExp + lk.modulus - 1) % lk.modulus),
     seq := BitVec.ofNat 16 seq, crcOk := true, stomped := false })

/-- R273: send a control flit: it reports ack, nak and credits, consumes no number and is not kept. -/
def LinkEnd.control (lk : LinkKind) (e : LinkEnd) : LinkEnd × Flit :=
  e.header lk 1 0 false false false e.txSeq

/-- R275: the NAK is sent again. -/
def LinkEnd.nakAgain (e : LinkEnd) : LinkEnd := if e.nakOut then { e with nakDue := true } else e

/-- R277: signal detect takes Down to Training. -/
def LinkEnd.signal (e : LinkEnd) : LinkEnd := if e.state = .down then { e with state := .training } else e

/-- R277: 1 ms in Training without link-up leads to Down. -/
def LinkEnd.trainTimeout (e : LinkEnd) : LinkEnd := if e.state = .training then { e with state := .down } else e

/-- R277: 1 ms in Retrain without link-up leads to Reset. -/
def LinkEnd.retrainTimeout (e : LinkEnd) : LinkEnd × LinkActs := if e.state = .retrain then e.toReset else (e, {})

/-- R277: the block slot of Reset ends. -/
def LinkEnd.resetEnd (e : LinkEnd) : LinkEnd := if e.state = .reset then { e with state := .training } else e

/-- R279: loss of signal. -/
def LinkEnd.lossOfSignal (e : LinkEnd) : LinkEnd × LinkActs :=
  if e.state = .active ∨ e.state = .retry ∨ e.state = .retrain then e.toDown else (e, {})

/-- R270, R277, R278: link-up records exchanged. From Training the link starts anew; from Retrain it resumes from the
next number the partner expects if both records say so, and otherwise enters Reset. -/
def LinkEnd.linkUp (e : LinkEnd) (partnerNext : Nat) (resumeMine resumeTheirs : Bool) : LinkEnd × LinkActs :=
  if e.state = .training then ({ e with state := .active }, {})
  else if e.state = .retrain then
    if resumeMine && resumeTheirs then
      let rest := match e.replay.findIdx? (fun f => f.seq = partnerNext) with
        | some i => e.replay.drop i
        | none => []
      ({ e with state := .active, replay := rest, resend := rest, nakOut := false },
       { ackedTicks := (e.replay.take (e.replay.length - rest.length)).filterMap
           (fun f => if f.eop then f.frameTick else none) })
    else e.toReset
  else (e, {})

/-- Hand a message to a transmit port: requester 2 × vc for the port's own traffic, 2 × vc + 1 for forwarded. The flag
is the gc of a forwarded flit (R289: a forwarding KTU never changes it). -/
def LinkEnd.queue (e : LinkEnd) (req : Nat) (gc : Bool) (m : Msg) : LinkEnd :=
  let q := Tbl.get ({} : TxVc) req e.tx
  { e with tx := Tbl.set ({} : TxVc) req { q with msgs := q.msgs ++ [(gc, m)] } e.tx }

end Sys2Proof.Machine
end

