-- ==== Sys2Proof/Machine/OpsKtu.lean ====
section
/-! DEFINITION. The named operations over a KTU that its commands share: its clocks, its host domains, what it sends, the
ALARMs it originates, and what a link operation reports. -/

namespace Sys2Proof.Machine

/-! ### Clocks -/

/-- A time base. -/
def Ktu.tb (k : Ktu) : TbId → TimeBase
  | .baseA => k.time.a
  | .baseB => k.time.b

/-- Replace a time base. -/
def Ktu.setTb (k : Ktu) (x : TbId) (b : TimeBase) : Ktu :=
  match x with
  | .baseA => { k with time := { k.time with a := b } }
  | .baseB => { k with time := { k.time with b := b } }

/-- R69, R97, R98: what the registers set for a base. -/
def Ktu.servoCfg (k : Ktu) (x : TbId) : ServoCfg :=
  let i := x.ix
  { incr := k.get KReg.TBx_INCR_INT_incr_int i * 2 ^ 32 + k.get KReg.TBx_INCR_FRAC_incr_frac i,
    kp := k.get KReg.TBx_GAIN_kp i, ki := k.get KReg.TBx_GAIN_ki i,
    stepThrNs := k.get KReg.TBx_STEP_THR_step_thr_ns i, lockThrPs := k.get KReg.TBx_LOCK_THR_lock_thr_ps i,
    refuseLimit := k.get KReg.TBx_LIMITS_refuse_limit i, lockCount := k.get KReg.TBx_LIMITS_lock_count i,
    gateNs := k.get KReg.TIME_DREQ_delay_gate_ns, syncUs := k.get KReg.TIME_SYNCIV_sync_iv_us,
    hold := k.bit KReg.TBx_CTRL_hold i, enable := k.bit KReg.TBx_CTRL_enable i }

/-- R98: the source tick time follows. -/
def Ktu.source (k : Ktu) : TbId := if k.bit KReg.TIME_SW_current_src then .baseB else .baseA

/-- R91: tick time, in 2^-32 ns: the current source less the difference frozen at the switches. -/
def Ktu.tickTime (k : Ktu) : Nat := fieldOf 96 (((k.tb k.source).value : Int) - k.time.tickOffset)

/-- Tick time in whole nanoseconds. -/
def Ktu.tickNs (k : Ktu) : Nat := k.tickTime / 2 ^ 32

/-- The tick period in nanoseconds (R68). -/
def Ktu.periodNs (k : Ktu) : Nat := k.get KReg.TICK_PERIOD_period_us * 1000

/-- The last tick fired, 0 where none has been since run rose. -/
def Ktu.firedNum (k : Ktu) : Nat := k.time.lastFired.getD 0

/-- R82, R97: report what a clock operation did. -/
def Ktu.clockActs (k : Ktu) (x : TbId) (a : ClockActs) : Ktu :=
  let i := x.ix
  let k := if a.holdoverEntered then k.raise KReg.TBx_STATUS_holdover_entered 1 i else k
  let k := if a.stepApplied then k.raise KReg.TBx_STATUS_step_applied 1 i else k
  let k := if a.stepRefused then (k.raise KReg.TBx_STATUS_step_refused 1 i).count KReg.TBx_REFUSED_refused 1 i else k
  if a.lockLost then k.raise KReg.TBx_STATUS_lock_lost 1 i else k

/-- R91: switch the tick source: tick time takes the new source less a difference that leaves it without a step. -/
def Ktu.switchTo (k : Ktu) (x : TbId) : Ktu :=
  if k.source = x then k
  else
    let d : Int := match x with
      | .baseB => k.time.tickOffset + k.time.diff * 65536
      | .baseA => k.time.tickOffset - k.time.diff * 65536
    let k := { k with time := { k.time with tickOffset := d } }
    ((k.put KReg.TIME_SW_current_src x.ix).count KReg.TIME_SW_switches).raise KReg.TIME_SW_switch_event

/-- R98: automatic switching is on. -/
def Ktu.autoSource (k : Ktu) : Bool := k.get KReg.TIME_SEL_tick_src = 2 && k.bit KReg.TIME_SEL_ezcia_mode

/-- R13: the highest tick number whose boundary tick time has reached. -/
def Ktu.boundary (k : Ktu) : Nat := k.tickNs / k.periodNs

/-- R24, R83: forget the last tick fired; the first boundary crossed from now on takes a baseline. -/
def Ktu.runRise (k : Ktu) : Ktu :=
  { k with time := { k.time with lastFired := none, baselinePending := true, crossed := k.boundary } }

/-- R22, R24: with no tick fired, a boundary that tick time has gone back below can be crossed again. -/
def Ktu.uncross (k : Ktu) : Ktu :=
  if k.time.lastFired = none then { k with time := { k.time with crossed := min k.time.crossed k.boundary } } else k

/-- What follows a change of a base's state: the switch of R92 when the current source leaves Locked while the other is
Locked, and R83 when the source first enters Locked with run = 1. -/
def Ktu.afterClock (old k : Ktu) : Ktu :=
  let cur := old.source
  let left := (old.tb cur).state = .locked ∧ (k.tb cur).state ≠ .locked
  let k := if k.autoSource ∧ left ∧ (k.tb cur.other).state = .locked then k.switchTo cur.other else k
  let src := k.source
  if ¬ (old.tb src).everLocked ∧ (k.tb src).everLocked ∧ k.bit KReg.TICK_CTRL_run then k.runRise else k

/-- R91: D follows the two bases while both are Locked. -/
def Ktu.updateDiff (k : Ktu) : Ktu :=
  if k.time.a.state = .locked ∧ k.time.b.state = .locked then
    { k with time := { k.time with diff := Config.diffFilter k.time.diff (k.time.b.reading - k.time.a.reading) } }
  else k

/-- Run a clock operation on a base and report it. -/
def Ktu.onTb (k : Ktu) (x : TbId) (f : ServoCfg → TimeBase → TimeBase × ClockActs) : Ktu :=
  let r := f (k.servoCfg x) (k.tb x)
  (Ktu.afterClock k ((k.setTb x r.1).clockActs x r.2)).uncross

/-! ### Host domains (R108, R116) -/

/-- R116: domain d is masked: disabled by its strap, in reset or not powered. -/
def Ktu.masked (k : Ktu) (d : Fin 4) : Bool :=
  !(k.pins.straps.domEn.getLsbD d.val && k.pins.rstN.getLsbD d.val && k.pins.pgood.getLsbD d.val)

/-- R181: the host domain of a trace source. -/
def Ktu.trcDom (k : Ktu) (s : Fin 16) : Fin 4 := Fin.ofNat 4 (k.pins.straps.trcDom.toNat / 4 ^ s.val % 4)

/-! ### Sending -/

/-- Hand the upstream port a message of the KTU's own. -/
def Ktu.sendUp (k : Ktu) (m : Msg) : Ktu :=
  { k with fife := { k.fife with up := k.fife.up.queue m.ownReq false m } }

/-- Hand the downstream port a message of the KTU's own. -/
def Ktu.sendDn (k : Ktu) (m : Msg) : Ktu :=
  { k with fife := { k.fife with dn := k.fife.dn.queue m.ownReq false m } }

/-- Forward a message to the upstream port with the gc it came with (R287, R289). -/
def Ktu.forwardUp (k : Ktu) (gc : Bool) (m : Msg) : Ktu :=
  { k with fife := { k.fife with up := k.fife.up.queue (2 * m.vc + 1) gc m } }

/-- Forward a message to the downstream port: everything Naloder sends has gc = 1 (R289). In leaf mode there is no
port to forward to (R76, R287). -/
def Ktu.forwardDn (k : Ktu) (m : Msg) : Ktu :=
  if k.pins.straps.leaf then k
  else { k with fife := { k.fife with dn := k.fife.dn.queue (2 * m.vc + 1) true m } }

/-- The KTU's address as messages carry it. -/
def Ktu.addr (k : Ktu) : BitVec 20 := BitVec.ofNat 20 k.fife.addr

/-! ### Alarm pairs (R283 to R286) -/

/-- R283: the 112 bits of a pair, its CRC-12 in place. -/
def alarmPair (kind origin scope sub code arg : Nat) : BitVec 112 :=
  let body := kind % 16 + origin % 2 ^ 20 * 2 ^ 4 + scope % 2 ^ 17 * 2 ^ 24 + sub % 8 * 2 ^ 41 +
    code % 256 * 2 ^ 44 + arg % 2 ^ 48 * 2 ^ 52
  BitVec.ofNat 112 (body + crc12 body * 2 ^ 100)

/-- The fields of a pair (R283). -/
structure AlarmFields where
  kind : Nat
  origin : Nat
  scope : Nat
  sub : Nat
  code : Nat
  arg : Nat
  crcOk : Bool
  deriving DecidableEq, Repr

/-- R283, R729: read a pair. -/
def alarmFields (p : BitVec 112) : AlarmFields :=
  let v := p.toNat
  { kind := v % 16, origin := v / 2 ^ 4 % 2 ^ 20, scope := v / 2 ^ 24 % 2 ^ 17, sub := v / 2 ^ 41 % 8,
    code := v / 2 ^ 44 % 256, arg := v / 2 ^ 52 % 2 ^ 48, crcOk := crc12 (v % 2 ^ 100) == v / 2 ^ 100 }

/-- R285: a transmitter sends each pair twice. -/
def LinkEnd.sendPair (e : LinkEnd) (p : BitVec 112) : LinkEnd := { e with alarms := e.alarms ++ [p, p] }

/-- R284: send a pair the KTU originates: upstream, and downstream in chain mode; before its address is valid the pair
is held. -/
def Ktu.sendAlarm (k : Ktu) (p : BitVec 112) : Ktu :=
  if k.fife.addrValid then
    { k with fife := { k.fife with up := k.fife.up.sendPair p,
                                   dn := if k.pins.straps.leaf then k.fife.dn else k.fife.dn.sendPair p } }
  else { k with fife := { k.fife with heldAlarms := k.fife.heldAlarms ++ [p] } }

/-- R283: the argument of a kind 0 or 3 ALARM: the originator's counter and the last tick it fired. -/
def Ktu.alarmArg (k : Ktu) : Nat := k.fife.alarmCount % 65536 + k.firedNum % 2 ^ 32 * 65536

/-- R283, R284: originate an ALARM of kind 0 or 3; the counter advances. A pair raised before the address is valid takes
the address it is sent under. -/
def Ktu.originate (k : Ktu) (kind scope sub code : Nat) : Ktu :=
  let k := k.sendAlarm (alarmPair kind k.fife.addr scope sub code k.alarmArg)
  { k with fife := { k.fife with alarmCount := (k.fife.alarmCount + 1) % 65536 } }

/-! ### Wake sources (R306) -/

/-- The halt context of a scope. -/
def Ktu.halt (k : Ktu) (scope : Nat) : HaltCtx := Tbl.get ({} : HaltCtx) scope k.halts

/-- Replace a halt context. -/
def Ktu.setHalt (k : Ktu) (scope : Nat) (c : HaltCtx) : Ktu :=
  { k with halts := Tbl.set ({} : HaltCtx) scope c k.halts }

/-- R306: the pending wake sources, bit by bit. -/
def Ktu.wakeSources (k : Ktu) : Nat :=
  let b (i : Nat) (x : Bool) : Nat := if x then 2 ^ i else 0
  b 0 k.pins.wakeLatch +
  b 1 (k.halts.any (fun p => p.2.state = .armed || p.2.state = .halting || p.2.state = .resuming)) +
  b 2 (!k.tail.dumps.isEmpty) +
  b 3 (k.check.runs.any (·.active)) +
  b 4 (k.fife.up.lp ≠ 0 && (Tbl.get ({} : TxVc) 2 k.fife.up.tx).msgs.any (fun m => match m.2 with
      | .cmdAck _ => true
      | .regRdResp _ => true
      | .regWrResp _ => true
      | .patternResult _ => true
      | .digest _ => true
      | .enumResp _ => true
      | _ => false)) +
  b 5 k.pins.wakeOnce

/-! ### What a link operation reports (R280, R313, R314) -/

/-- Raise the events and count the counts of an operation on a KTU link end. -/
def Ktu.linkActs (k : Ktu) (up : Bool) (a : LinkActs) : Ktu :=
  let bit := if up then 1 else 2
  let k := if a.crcErr then k.count (if up then KReg.FIFE_CRCERR_UP_count else KReg.FIFE_CRCERR_DN_count) else k
  let k := if a.replays > 0 then
      k.count (if up then KReg.FIFE_REPLAY_UP_count else KReg.FIFE_REPLAY_DN_count) a.replays else k
  let k := if a.retry then k.raise KReg.FIFE_EVT_retry bit else k
  let k := if a.retrain then
      (k.raise KReg.FIFE_EVT_retrain bit).count (if up then KReg.FIFE_RETRAIN_up else KReg.FIFE_RETRAIN_dn) else k
  let k := if a.reset then
      (k.raise KReg.FIFE_EVT_reset bit).count (if up then KReg.FIFE_RESETS_up else KReg.FIFE_RESETS_dn) else k
  let k := if a.trunc then (k.raise KReg.FIFE_EVT_trunc).count KReg.FIFE_MSGDROP_count else k
  if up ∧ ¬ a.ackedTicks.isEmpty then
    { k with codec := { k.codec with store := k.codec.store.filter (fun f => !a.ackedTicks.contains f.tick) } }
  else k

/-- A link end of the KTU. -/
def Ktu.link (k : Ktu) (up : Bool) : LinkEnd := if up then k.fife.up else k.fife.dn

/-- Replace a link end. -/
def Ktu.setLink (k : Ktu) (up : Bool) (e : LinkEnd) : Ktu :=
  if up then { k with fife := { k.fife with up := e } } else { k with fife := { k.fife with dn := e } }

/-- Run a link operation on a link end and report it. An upstream end that leaves its running states must be
enumerated again before the KTU sends upstream (R279). -/
def Ktu.onLink (k : Ktu) (up : Bool) (f : LinkEnd → LinkEnd × LinkActs) : Ktu :=
  let r := f (k.link up)
  let k := (k.setLink up r.1).linkActs up r.2
  if up ∧ (r.2.reset ∨ r.1.state = .down) then { k with fife := { k.fife with mayForward := false } } else k

end Sys2Proof.Machine
end

