-- ==== Sys2Proof/Machine/KtuCounters.lean ====
section
/-! DEFINITION. The KTU's counters: what a host edge adds (R137 to R148), wraps (R161), storage errors (R162), the series
they feed and the deltas a snapshot forms (R151 to R154), and what a staged change clears (R150, R158). -/

namespace Sys2Proof.Machine

/-- The number of a counter. -/
def counterId : CounterRef → Nat
  | .util k => cntU k.val
  | .error k => cntE k.val
  | .pmu i c => cntPmu i.val c.val
  | .slot g c => cntSlot g.val c.val

/-- R161: set the sticky overflow bit of a counter. -/
def Ktu.overflowed (k : Ktu) (id : Nat) : Ktu :=
  if id < 128 then k.raise KReg.AON_OVFm_ovf (2 ^ (id % 32)) (id / 32)
  else if id < 0x8000 then
    let i := (id - 0x1000) / 16
    let c := (id - 0x1000) % 16
    if c = 8 then k.raise KReg.PMUi_STATUS_cyc_ovf 1 i else k.raise KReg.PMUi_STATUS_ovf (2 ^ c) i
  else k.raise KReg.SLOTg_STATUS_ovf (2 ^ ((id - 0x8000) % 8)) ((id - 0x8000) / 8)

/-- R137, R161: add to a counter, wrapping at 2^48; a wrap belongs to the interval it lies in. -/
def Ktu.addCount (k : Ktu) (id n : Nat) : Ktu :=
  let v := Tbl.get 0 id k.cnt.cnt + n
  let k' := { k with cnt := { k.cnt with cnt := Tbl.set 0 id (v % 2 ^ 48) k.cnt.cnt } }
  if v ≥ 2 ^ 48 then { k'.overflowed id with cnt := { k'.cnt with wrapped := id :: k'.cnt.wrapped } } else k'

/-- R146: the domains an owner is granted. -/
def Ktu.granted (k : Ktu) (owner d : Nat) : Bool :=
  if owner = fleet then true
  else if owner < 8 then bitOf (k.get KReg.PMU_DOMGRANT_LO_grant) (4 * owner + d)
  else bitOf (k.get KReg.PMU_DOMGRANT_HI_grant) (4 * (owner - 8) + d)

/-- The threshold, mode and source of counter c of instance i (R166). -/
def Ktu.selector (k : Ktu) (i c : Nat) : Nat × Nat × Nat :=
  let f (a b d : Fld) := (k.get a i, k.get b i, k.get d i)
  match c with
  | 0 => f KReg.PMUi_SEL0_threshold KReg.PMUi_SEL0_mode KReg.PMUi_SEL0_source
  | 1 => f KReg.PMUi_SEL1_threshold KReg.PMUi_SEL1_mode KReg.PMUi_SEL1_source
  | 2 => f KReg.PMUi_SEL2_threshold KReg.PMUi_SEL2_mode KReg.PMUi_SEL2_source
  | 3 => f KReg.PMUi_SEL3_threshold KReg.PMUi_SEL3_mode KReg.PMUi_SEL3_source
  | 4 => f KReg.PMUi_SEL4_threshold KReg.PMUi_SEL4_mode KReg.PMUi_SEL4_source
  | 5 => f KReg.PMUi_SEL5_threshold KReg.PMUi_SEL5_mode KReg.PMUi_SEL5_source
  | 6 => f KReg.PMUi_SEL6_threshold KReg.PMUi_SEL6_mode KReg.PMUi_SEL6_source
  | _ => f KReg.PMUi_SEL7_threshold KReg.PMUi_SEL7_mode KReg.PMUi_SEL7_source

/-- R144, R145: whether a selector adds on an edge; `prev` is the occupancy on the previous edge where there is one. -/
def selectorAdds (t : TapSample) (prev : Nat → Option Nat) (n mode src : Nat) : Bool :=
  let occ := (t.occ.getD src 0).toNat
  if mode = 1 then
    (if src < 256 then t.evt.getLsbD src
     else if src < 271 then t.util.getLsbD (src - 256)
     else if src = 271 then false
     else if src < 287 then t.err.getLsbD (src - 272)
     else false)
  else if src ≥ 32 then false
  else if mode = 2 then decide (n < occ)
  else if mode = 3 then decide (n ≤ occ)
  else if mode = 4 then occ == n
  else if mode = 5 then
    (match prev src with
     | some p => decide (n ≤ occ) && decide (p < n)
     | none => false)
  else false

/-- R144 to R146: one edge of an instance: cycle counter and the eight programmable counters. -/
def Ktu.pmuEdge (t : TapSample) (d : Nat) (k : Ktu) (i : Nat) : Ktu :=
  if k.get KReg.PMUi_CTRL_domain i = d ∧ k.granted (k.get KReg.PMUi_CTRL_owner i) d then
    let isFresh := k.cnt.fresh.contains i
    let prev (s : Nat) : Option Nat := if isFresh then none else Tbl.find? (32 * d + s) k.cnt.prevOcc
    let k := k.addCount (cntPmu i 8) 1
    let k := (List.range 8).foldl (fun k c =>
      let (n, mode, src) := k.selector i c
      if selectorAdds t prev n mode src then k.addCount (cntPmu i c) 1 else k) k
    { k with cnt := { k.cnt with fresh := k.cnt.fresh.filter (· ≠ i) } }
  else k

/-- R147, R148: one edge of a slot group of width W > 0. -/
def Ktu.slotEdge (t : TapSample) (d : Nat) (k : Ktu) (j : Nat) : Ktu :=
  let g := 8 * d + j
  let w := k.get KReg.SLOTg_CTRL_width g
  if w = 0 then k
  else
    let r := (t.ret.getD j 0).toNat
    let x := (t.waste.getD j 0).toNat
    let f := (t.sfe.getD j 0).toNat
    let b := (t.sbe.getD j 0).toNat
    let s := r + x + f + b
    let k := ((((k.addCount (cntSlot g 0) 1).addCount (cntSlot g 1) r).addCount (cntSlot g 2) x).addCount
      (cntSlot g 3) f).addCount (cntSlot g 4) b
    let k := (k.addCount (cntSlot g 5) (w - s)).addCount (cntSlot g 6) (s - w)
    if s > w then k.raise KReg.SLOTg_STATUS_excess_seen 1 g else k

/-- The instances whose enable bit is set, rising. -/
def Ktu.enabledPmus (k : Ktu) : List Nat := (List.range 256).filter (fun i => k.bit KReg.PMUi_CTRL_enable i)

/-- R137, R141: the hand-off of one host_clkd edge arrives. R140: a masked domain's counters hold. -/
def Ktu.tapSample (k : Ktu) (d : Fin 4) (t : TapSample) : Ktu :=
  if k.masked d then k
  else
    let k := (List.range 15).foldl (fun k i =>
      let k := if t.util.getLsbD i then k.addCount (cntU (16 * d.val + i)) 1 else k
      if t.err.getLsbD i then k.addCount (cntE (16 * d.val + i)) 1 else k) k
    let k := k.addCount (cntU (16 * d.val + 15)) 1
    let k := k.enabledPmus.foldl (Ktu.pmuEdge t d.val) k
    let k := (List.range 8).foldl (Ktu.slotEdge t d.val) k
    let occ := (List.range 32).foldl
      (fun o s => Tbl.insert (32 * d.val + s) (t.occ.getD s 0).toNat o) k.cnt.prevOcc
    { k with cnt := { k.cnt with prevOcc := occ } }

/-- R145: after a domain is unmasked there is no previous occupancy. -/
def Ktu.forgetOcc (k : Ktu) (d : Nat) : Ktu :=
  { k with cnt := { k.cnt with prevOcc := k.cnt.prevOcc.filter (fun p => p.1 / 32 ≠ d) } }

/-! ### Series (R142, R153, R154) -/

/-- The counter that feeds a series. -/
def Ktu.seriesCounter (k : Ktu) (s : Nat) : Option Nat :=
  if s < 64 then some (cntU s)
  else if s < 128 then some (cntE (s - 64))
  else if s < 1024 then entryCounter (Tbl.get 0 s k.cnt.smap)
  else none

/-- The series that may carry a value: the always-on set and the mapped ones. -/
def Ktu.seriesList (k : Ktu) : List Nat := List.range 128 ++ (k.cnt.smap.map Prod.fst).filter (fun s => 128 ≤ s)

/-- The series a counter feeds. -/
def Ktu.seriesOf (k : Ktu) (id : Nat) : List Nat := k.seriesList.filter (fun s => k.seriesCounter s = some id)

/-- R149, R154: the owner of a counter, and so of the series it feeds. -/
def Ktu.counterOwner (k : Ktu) (id : Nat) : Nat :=
  if id < 0x1000 then fleet
  else if id < 0x8000 then k.get KReg.PMUi_CTRL_owner ((id - 0x1000) / 16)
  else k.get KReg.SLOTg_CTRL_owner ((id - 0x8000) / 8)

/-- R151: the delta of one series against its reported base: what the frame carries, the new base, the remainder. -/
def seriesDelta (snap base : Nat) : Nat × Nat × Nat :=
  let d := (snap + 2 ^ 48 - base) % 2 ^ 48
  if d ≤ 0xFFFFFFFF then (d, snap, 0)
  else (0xFFFFFFFF, (base + 0xFFFFFFFF) % 2 ^ 48, d - 0xFFFFFFFF)

/-- R151: form the deltas of every mapped series and advance the bases. -/
def Ktu.formDeltas (k : Ktu) : Ktu × Tbl Nat :=
  k.seriesList.foldl (fun acc s =>
    match acc.1.seriesCounter s with
    | none => acc
    | some id =>
      let k := acc.1
      let (d, b, r) := seriesDelta (Tbl.get 0 id k.cnt.cnt) (Tbl.get 0 s k.cnt.base)
      ({ k with cnt := { k.cnt with base := Tbl.set 0 s b k.cnt.base, rem := Tbl.set 0 s r k.cnt.rem } },
       Tbl.set 0 s d acc.2)) (k, [])

/-- R24: a baseline: every mapped series takes its source's snapshot as base. -/
def Ktu.baseline (k : Ktu) : Ktu :=
  k.seriesList.foldl (fun k s =>
    match k.seriesCounter s with
    | none => k
    | some id => { k with cnt := { k.cnt with base := Tbl.set 0 s (Tbl.get 0 id k.cnt.cnt) k.cnt.base,
                                              rem := Tbl.erase s k.cnt.rem } }) k

/-- R152: some series holds a remainder. -/
def Ktu.remainderHeld (k : Ktu) : Bool := !k.cnt.rem.isEmpty

/-- R159: a counter of a set holds a remainder. -/
def Ktu.holdsRemainder (k : Ktu) (inSet : Nat → Bool) : Bool :=
  k.cnt.rem.any (fun p => match k.seriesCounter p.1 with
    | some id => inSet id
    | none => false)

/-- R150, R158: clear the counters of a set, with the bases of the series they feed. Answers those series, whose codec
carries the coder discards after this boundary's frame (R252). -/
def Ktu.clearSet (k : Ktu) (inSet : Nat → Bool) : Ktu × List Nat :=
  let fed := k.seriesList.filter (fun s => match k.seriesCounter s with
    | some id => inSet id
    | none => false)
  ({ k with cnt := { k.cnt with
      cnt := k.cnt.cnt.filter (fun p => !inSet p.1),
      base := k.cnt.base.filter (fun p => !fed.contains p.1),
      rem := k.cnt.rem.filter (fun p => !fed.contains p.1) } }, fed)

/-- R160: stage a clear of instance i. -/
def Ktu.stageClear (k : Ktu) (i : Nat) : Ktu :=
  if k.cnt.clears.contains i then k else { k with cnt := { k.cnt with clears := k.cnt.clears ++ [i] } }

/-- R162: an uncorrectable error in a counter's storage. -/
def Ktu.counterUe (k : Ktu) (id : Nat) : Ktu :=
  let fed := k.seriesOf id
  let first := !k.bit KReg.CNT_STATUS_ecc_ue
  let k := { k with cnt := { k.cnt with
    cnt := Tbl.erase id k.cnt.cnt,
    base := k.cnt.base.filter (fun p => !fed.contains p.1),
    rem := k.cnt.rem.filter (fun p => !fed.contains p.1),
    poisoned := k.cnt.poisoned ++ fed.filter (fun s => !k.cnt.poisoned.contains s) } }
  let (cls, src) := counterSource id
  let k := if first then (k.put KReg.CNT_ERRSRC_class cls).put KReg.CNT_ERRSRC_source src else k
  k.raise KReg.CNT_STATUS_ecc_ue

end Sys2Proof.Machine
end

