-- ==== Sys2Proof/Machine/Queue.lean ====
section
/-! DEFINITION. The arbiter every contended point is an instance of (R220 to R223). -/

namespace Sys2Proof.Machine

/-- R221: the first requester at or after a pointer, with wrap-around, among those that satisfy a test. -/
def roundRobin (n ptr : Nat) (ok : Nat → Bool) : Option Nat :=
  ((List.range n).map (fun i => (ptr + i) % n)).find? ok

/-- R221: among `n` requesters grant the highest priority present and, at that priority, the first at or after the
level's pointer; the level's pointer moves to one past the winner. `req` says which request and are eligible;
a priority is two bits. -/
def arbitrate (n : Nat) (prio : Nat → Nat) (req : Nat → Bool) (rr : Tbl Nat) : Option (Nat × Tbl Nat) :=
  let at_ (l : Nat) : Option (Nat × Tbl Nat) :=
    (roundRobin n (Tbl.get 0 l rr) (fun i => req i && prio i % 4 == l)).map
      (fun i => (i, Tbl.set 0 l ((i + 1) % n) rr))
  match at_ 3 with
  | some r => some r
  | none =>
    match at_ 2 with
    | some r => some r
    | none =>
      match at_ 1 with
      | some r => some r
      | none => at_ 0

end Sys2Proof.Machine
end

