-- ==== Sys2Proof/Machine/KtuTail.lean ====
section
/-! DEFINITION. The Tail rings of a KTU (R168 to R180): events, records, freezing, release, errors and dumps. -/

namespace Sys2Proof.Machine

/-- R119: unit u is present and powered; a unit of a domain disabled by its strap never is. -/
def Ktu.unitPresent (k : Ktu) (u : Nat) : Bool :=
  Tbl.get false u k.pins.units && k.pins.straps.domEn.getLsbD (u / 512)

/-- A ring. -/
def Ktu.ring (k : Ktu) (u : Nat) : TailRing := Tbl.get ({} : TailRing) u k.tail.rings

/-- Replace a ring. -/
def Ktu.setRing (k : Ktu) (u : Nat) (r : TailRing) : Ktu :=
  { k with tail := { k.tail with rings := Tbl.set ({} : TailRing) u r k.tail.rings } }

/-- R173: the first armed trigger freezes a ring; a frozen ring keeps its first cause. -/
def TailRing.freeze (r : TailRing) (cause : Nat) : TailRing :=
  if r.frozen then r else { r with frozen := true, cause := cause }

/-- R173: freeze a ring if the cause is armed. -/
def Ktu.freezeRing (cause : Nat) (k : Ktu) (u : Nat) : Ktu :=
  if bitOf (k.get KReg.TAIL_CTRL_arm) (cause - 1) then k.setRing u ((k.ring u).freeze cause) else k

/-- Freeze every ring of a list. -/
def Ktu.freezeRings (k : Ktu) (cause : Nat) (us : List Nat) : Ktu := us.foldl (Ktu.freezeRing cause) k

/-- The rings of a host domain (R168). -/
def domainUnits (d : Nat) : List Nat := (List.range 512).map (fun i => 512 * d + i)

/-- R169: the owner of the block of a unit. -/
def Ktu.tailOwner (k : Ktu) (u : Nat) : Nat := k.get KReg.TAIL_OWNb_owner (u / 64)

/-- R173: the rings that a halt of a scope freezes. -/
def Ktu.scopeUnits (k : Ktu) (scope : Nat) : List Nat :=
  (List.range 2048).filter (fun u => scope == fleet || k.tailOwner u == scope)

/-- R175: a release clears frozen, cause and lost. -/
def TailRing.release (r : TailRing) : TailRing := { r with frozen := false, cause := 0, lost := 0 }

/-- R175: a clear releases, and sets count, next, wrapped and ue to zero; the records are gone. -/
def TailRing.clear (r : TailRing) : TailRing :=
  { newestNs := r.newestNs }

/-- R172: write one record into a ring at tick time `t`. -/
def TailRing.store (r : TailRing) (t word : Nat) : TailRing :=
  let gap := if r.count = 0 ∨ t ≥ r.newestNs + 2 ^ 30 then 1 else 0
  let rec_ := gap * 2 ^ 63 + t / 256 % 2 ^ 23 * 2 ^ 40 + word % 2 ^ 40
  { r with newestNs := t % 2 ^ 64, next := (r.next + 1) % 32, count := min (r.count + 1) 32,
           wrapped := r.wrapped || decide (r.count ≥ 31), recs := Tbl.set 0 r.next rec_ r.recs }

/-- R171, R173, R174: the head of a domain queue is written to its ring. A frozen ring discards and counts it; an
event of code 0xFF freezes its ring after it is stored. -/
def Ktu.tailWrite (k : Ktu) (t word : Nat) : Ktu :=
  let u := word / 2 ^ 53
  let r := k.ring u
  if r.frozen then k.setRing u { r with lost := min (r.lost + 1) 0xFFFF }
  else
    let k := k.setRing u (r.store t word)
    if word / 2 ^ 32 % 256 = 0xFF then k.freezeRing 7 u else k

/-- The events waiting in a domain queue. -/
def Ktu.tailQueue (k : Ktu) (d : Nat) : List (Nat × Nat) := Tbl.get [] d k.tail.queues

/-- R171, R234: the priority of a domain queue at the record writer. -/
def Ktu.tailPrio (k : Ktu) (d : Nat) : Nat :=
  match d with
  | 0 => k.get KReg.ARB_TAIL_pri0
  | 1 => k.get KReg.ARB_TAIL_pri1
  | 2 => k.get KReg.ARB_TAIL_pri2
  | _ => k.get KReg.ARB_TAIL_pri3

/-- R171, R224: one ktu_clk edge of the record writer. Masked domains take no part. -/
def Ktu.tailServe (k : Ktu) : Ktu :=
  match arbitrate 4 k.tailPrio (fun d => !(k.tailQueue d).isEmpty && !k.masked (Fin.ofNat 4 d)) k.tail.rr with
  | none => k
  | some (d, rr) =>
    match k.tailQueue d with
    | [] => k
    | (t, w) :: rest =>
      Ktu.tailWrite { k with tail := { k.tail with rr := rr, queues := Tbl.set [] d rest k.tail.queues } } t w

/-- Repeat an operation. -/
def Ktu.times (f : Ktu → Ktu) : Nat → Ktu → Ktu
  | 0, k => k
  | n + 1, k => Ktu.times f n (f k)

/-- R172: the time of a record: tick time less the synchroniser latency, whose value the spec does not state. -/
def Ktu.sampledNs (k : Ktu) : Nat := fieldOf 96 ((k.tickTime : Int) - Config.syncLatency) / 2 ^ 32

/-- R211, R231: a write into a full queue sets its overrun bit. -/
def Ktu.overrun (k : Ktu) (id : Nat) : Ktu :=
  if id < 32 then k.raise KReg.QOVR_LO_ovr (2 ^ id) else k.raise KReg.QOVR_HI_ovr (2 ^ (id - 32))

/-- R168, R170, R171: a Tail event word on taild_word of domain d. -/
def Ktu.tailTake (k : Ktu) (d : Fin 4) (word : BitVec 64) : Ktu :=
  let w := word.toNat
  let u := w / 2 ^ 53
  if k.masked d ∨ ¬ k.bit KReg.TAIL_CTRL_enable then k
  else if u / 512 ≠ d.val ∨ w / 2 ^ 32 % 256 = 0 then k.raise KReg.TAIL_STATUS_bad_unit
  else if ¬ k.unitPresent u then k
  else
    let q := k.tailQueue d.val
    if q.length ≥ 8 then (k.count KReg.TAIL_LOSTd_lost 1 d.val).overrun d.val
    else { k with tail := { k.tail with queues := Tbl.set [] d.val (q ++ [(k.sampledNs, w)]) k.tail.queues } }

/-- R170, R171: an event is taken and the record writer then runs for `edges` ktu_clk edges. -/
def Ktu.tailEvent (k : Ktu) (d : Fin 4) (word : BitVec 64) (edges : Nat) : Ktu :=
  Ktu.times Ktu.tailServe edges (k.tailTake d word)

/-- R202: the units a KTU_TAIL_CMD names that belong to the writer's blocks. -/
def Ktu.cmdUnits (k : Ktu) (owner first last : Nat) : List Nat :=
  (List.range 2048).filter (fun u =>
    decide (first ≤ u) && decide (u ≤ last) && (owner == fleet || k.tailOwner u == owner))

/-- R202: KTU_TAIL_CMD op 1. -/
def Ktu.tailFreeze (k : Ktu) (owner first last : Nat) : Ktu := k.freezeRings 6 (k.cmdUnits owner first last)

/-- R202: KTU_TAIL_CMD op 2. -/
def Ktu.tailRelease (k : Ktu) (owner first last : Nat) : Ktu :=
  (k.cmdUnits owner first last).foldl (fun k u => k.setRing u (k.ring u).release) k

/-- R202: KTU_TAIL_CMD op 3. -/
def Ktu.tailClear (k : Ktu) (owner first last : Nat) : Ktu :=
  (k.cmdUnits owner first last).foldl (fun k u => k.setRing u (k.ring u).clear) k

/-- R169: an owner change of block b takes effect: every ring of the block is cleared and released. -/
def Ktu.tailOwnerChange (k : Ktu) (b owner : Nat) : Ktu :=
  let k := (List.range 64).foldl (fun k i => k.setRing (64 * b + i) (k.ring (64 * b + i)).clear) k
  k.put KReg.TAIL_OWNb_owner owner b

/-- R180: an uncorrectable error in ring u: a record (`some slot`) reads as zero, a header is rewritten as empty. -/
def Ktu.tailUe (k : Ktu) (u : Nat) (slot : Option (Fin 32)) : Ktu :=
  let r := k.ring u
  let r' : TailRing := match slot with
    | some i => { r with ue := true, recs := Tbl.erase i.val r.recs }
    | none => { ue := true }
  (k.setRing u r').raise KReg.TAIL_STATUS_ecc_ue

/-- R172: header word 1 of a ring. -/
def TailRing.header1 (r : TailRing) : Nat :=
  r.lost * 2 ^ 48 + r.cause * 2 ^ 32 + (if r.frozen then 2 ^ 15 else 0) + (if r.wrapped then 2 ^ 14 else 0) +
    r.count * 2 ^ 8 + (if r.ue then 2 ^ 7 else 0) + r.next

/-- R172: the records of a ring, oldest first. -/
def TailRing.records (r : TailRing) : List Nat :=
  (List.range r.count).map (fun i => Tbl.get 0 ((r.next + 32 - r.count + i) % 32) r.recs)

/-- R177: the image of a ring that a TAILDUMP carries. -/
def Ktu.tailImage (k : Ktu) (u : Nat) : TailImage :=
  let r := k.ring u
  { unit := BitVec.ofNat 11 u, hdr0 := BitVec.ofNat 64 r.newestNs, hdr1 := BitVec.ofNat 64 r.header1,
    recs := r.records.map (BitVec.ofNat 64) }

/-- R177: the next ring of the dump at the head of the dump queue, and what is left of the queue after it. -/
def Ktu.nextDump (k : Ktu) : Option (Nat × Bool) × List TailDumpJob :=
  match k.tail.dumps with
  | [] => (none, [])
  | j :: rest =>
    match ((List.range 2048).filter (fun u => decide (j.first ≤ u) && decide (u ≤ j.last))).find?
        (fun u => !j.frozenOnly || (k.ring u).frozen) with
    | none => (none, rest)
    | some u => (some (u, j.release), if u < j.last then { j with first := u + 1 } :: rest else rest)

/-- R177, R232: copy the next ring of the running dump into a TAILDUMP and hand it to the upstream port. The
release follows the message's last flit (`Ktu.dumpSent`). -/
def Ktu.dumpStep (k : Ktu) : Ktu :=
  let r := k.nextDump
  let k' := { k with tail := { k.tail with dumps := r.2 } }
  match r.1 with
  | none => k'
  | some (u, rel) =>
    { k'.sendUp (.tailDump k.addr (k.tailImage u)) with
        tail := { k'.tail with releasing := if rel then u :: k'.tail.releasing else k'.tail.releasing } }

/-- R177: the last flit of the TAILDUMP of a ring has entered the replay buffer: it is released if the dump asked. -/
def Ktu.dumpSent (k : Ktu) (u : Nat) : Ktu :=
  if k.tail.releasing.contains u then
    let k := { k with tail := { k.tail with releasing := k.tail.releasing.filter (· ≠ u) } }
    k.setRing u (k.ring u).release
  else k

end Sys2Proof.Machine
end

