-- ==== Sys2Proof/Machine/KtuCheck.lean ====
section
/-! DEFINITION. The digest engine and the pattern unit of a KTU (R534 to R551). -/

namespace Sys2Proof.Machine

/-! ### The set digest (R534, R535) -/

/-- R534: the prime 2^61 − 1. -/
def digestP : Nat := 2 ^ 61 - 1

/-- R534: the ten 56-bit chunks of a line and its offset. -/
def lineChunks (data : BitVec 512) (offset : BitVec 48) : List Nat :=
  let v := data.toNat + offset.toNat * 2 ^ 512
  (List.range 10).map (fun i => v / 2 ^ (56 * i) % 2 ^ 56)

/-- R534: the sum of c_i k^(i+1) modulo p. -/
def lanePoly (key : Nat) (cs : List Nat) : Nat := cs.foldr (fun c y => (c + y) * key % digestP) 0

/-- R534: what a line adds to a lane. -/
def laneAdd (key s : Nat) (cs : List Nat) : Nat :=
  let z := (lanePoly key cs + s) % digestP
  z * z % digestP * z % digestP

/-- R535: the four key words lie in their ranges. -/
def keysOk (k0 s0 k1 s1 : Nat) : Bool :=
  let ok (lo v : Nat) : Bool := decide (lo ≤ v) && decide (v ≤ digestP - 1)
  ok 2 k0 && ok 1 s0 && ok 2 k1 && ok 1 s1

/-! ### Digest epochs (R536 to R540) -/

/-- A digest region. -/
def Ktu.region (k : Ktu) (r : Nat) : DigRegion := Tbl.get ({} : DigRegion) r k.check.regions

/-- Replace a digest region. -/
def Ktu.setRegion (k : Ktu) (r : Nat) (g : DigRegion) : Ktu :=
  { k with check := { k.check with regions := Tbl.set ({} : DigRegion) r g k.check.regions } }

/-- The epoch of a region ends without a DIGEST (R540). -/
def DigRegion.idle (g : DigRegion) : DigRegion := { g with phase := 0 }

/-- The tick at which an epoch accepted now would open: the first fired after. -/
def Ktu.nextTick (k : Ktu) : Nat :=
  match k.time.lastFired with
  | some n => n + 1
  | none => k.tickNs / max k.periodNs 1 + 1

/-- R537: DIGEST_CTRL op open, from an issuer; answers the command's status. -/
def Ktu.digestOpen (k : Ktu) (issuer : Nat) (p : DigestOpen) : Ktu × Nat :=
  let r := p.region.toNat
  if p.region.toNat ≥ 64 ∨ ¬ p.reservedZero then (k.raise KReg.DIG_EVT_refused, 1)
  else if issuer ≠ fleet ∧ issuer ≠ k.get KReg.DIG_OWNr_owner r then (k.raise KReg.DIG_EVT_refused, 3)
  else
    let g := k.region r
    if ¬ keysOk p.k0.toNat p.s0.toNat p.k1.toNat p.s1.toNat ∨ p.epoch.toNat ≤ g.lastEpoch ∨ g.phase ≠ 0 ∨
        p.close.toNat ≤ k.nextTick then (k.raise KReg.DIG_EVT_refused, 1)
    else
      (k.setRegion r { g with phase := 1, epoch := p.epoch.toNat, close := p.close.toNat, k0 := p.k0.toNat,
                              s0 := p.s0.toNat, k1 := p.k1.toNat, s1 := p.s1.toNat, lines := 0, d0 := 0, d1 := 0 }, 7)

/-- R537: DIGEST_CTRL op abandon, from an issuer; answers the command's status. -/
def Ktu.digestAbandon (k : Ktu) (issuer : Nat) (region : BitVec 8) (reservedZero : Bool) : Ktu × Nat :=
  let r := region.toNat
  if r ≥ 64 ∨ ¬ reservedZero then (k.raise KReg.DIG_EVT_refused, 1)
  else if issuer ≠ fleet ∧ issuer ≠ k.get KReg.DIG_OWNr_owner r then (k.raise KReg.DIG_EVT_refused, 3)
  else (k.setRegion r (k.region r).idle, 0)

/-- R534, R538: a line on a tap. -/
def Ktu.digestLine (k : Ktu) (tap : Fin 4) (r : BitVec 6) (offset : BitVec 48) (data : BitVec 512) : Ktu :=
  if k.masked k.pins.straps.digDom ∨ ¬ bitOf (k.get KReg.DIG_CTRL_tap_en) tap.val then k
  else
    let g := k.region r.toNat
    if g.phase = 2 then
      let cs := lineChunks data offset
      k.setRegion r.toNat { g with d0 := (g.d0 + laneAdd g.k0 g.s0 cs) % digestP,
                                   d1 := (g.d1 + laneAdd g.k1 g.s1 cs) % digestP, lines := (g.lines + 1) % 2 ^ 48 }
    else k.count KReg.DIG_IDLE_lines

/-- R539: an epoch closes on the firing edge of tick n: its DIGEST is sent. -/
def Ktu.closeRegion (n : Nat) (k : Ktu) (r : Nat) : Ktu :=
  let g := k.region r
  if g.phase = 2 ∧ g.close ≤ n then
    let m : DigestMsg :=
      { addr := k.addr, region := BitVec.ofNat 6 r, epoch := BitVec.ofNat 32 g.epoch, tick := BitVec.ofNat 48 n,
        lines := BitVec.ofNat 48 g.lines, digest := BitVec.ofNat 128 (g.d0 + g.d1 * 2 ^ 64) }
    ((k.setRegion r g.idle).sendUp (.digest m)).raise KReg.DIG_EVT_closed
  else k

/-- R537: a pending epoch opens on the firing edge of a tick. -/
def Ktu.openRegion (k : Ktu) (r : Nat) : Ktu :=
  let g := k.region r
  if g.phase = 1 then k.setRegion r { g with phase := 2, lastEpoch := g.epoch, lines := 0, d0 := 0, d1 := 0 } else k

/-- R540: an open epoch is abandoned without a command. -/
def Ktu.interruptRegion (k : Ktu) (r : Nat) : Ktu :=
  if (k.region r).phase = 2 then (k.setRegion r (k.region r).idle).raise KReg.DIG_EVT_interrupted else k

/-- R540: an uncorrectable error in the accumulator of region r. -/
def Ktu.digestUe (k : Ktu) (r : Nat) : Ktu :=
  (if (k.region r).phase = 2 then k.setRegion r (k.region r).idle else k).raise KReg.DIG_EVT_ecc_ue

/-- R540: the owner of region r changes at a boundary. -/
def Ktu.regionOwnerChange (k : Ktu) (r new : Nat) : Ktu := (k.interruptRegion r).put KReg.DIG_OWNr_owner new r

/-! ### Patterns (R547 to R550) -/

/-- Replace the pattern runs. -/
def Ktu.setRuns (k : Ktu) (l : List PatRun) : Ktu := { k with check := { k.check with runs := l } }

/-- Replace the run of a command. -/
def Ktu.updateRun (k : Ktu) (r : PatRun) : Ktu :=
  k.setRuns (k.check.runs.map (fun x => if x.cmdId = r.cmdId then r else x))

/-- R549: end a run with a status and send its PATTERN_RESULT; the digest is zero for statuses 2 to 4. -/
def Ktu.endRun (k : Ktu) (r : PatRun) (status : Nat) : Ktu :=
  let dig := if status ≤ 1 then r.d0 + r.d1 * 2 ^ 64 else 0
  let m : PatternResultMsg :=
    { addr := k.addr, cmdId := BitVec.ofNat 32 r.cmdId, patternId := r.run.patternId, status := BitVec.ofNat 8 status,
      domain := r.run.domain, digest := BitVec.ofNat 128 dig,
      tick := if r.startedAt = 0 then r.run.start else BitVec.ofNat 48 r.startedAt }
  let k := k.setRuns (k.check.runs.filter (fun x => x.cmdId ≠ r.cmdId))
  ((k.sendUp (.patternResult m)).raise KReg.PAT_EVT_ended (2 ^ status)).count KReg.PAT_RUNS_count

/-- R547: the window of a domain in force: first tick and length. -/
def Ktu.window (k : Ktu) (d : Nat) : Nat × Nat := (Tbl.get 0 (2 * d) k.check.win, Tbl.get 0 (2 * d + 1) k.check.win)

/-- R547: a tick lies inside the window of a domain. -/
def Ktu.inWindow (k : Ktu) (d n : Nat) : Bool :=
  let (f, l) := k.window d
  decide (f ≤ n) && decide (n < f + l)

/-- R549: make a run active. -/
def Ktu.startRun (k : Ktu) (r : PatRun) : Ktu :=
  let r' := { r with active := true, due := false, startedAt := k.firedNum, index := 0, d0 := 0, d1 := 0 }
  (k.updateRun r').put KReg.PAT_ID_pattern_id r.run.patternId.toNat

/-- R549: with no run active, the first due run starts, or ends interrupted if its domain is masked. -/
def Ktu.startDue (k : Ktu) : Ktu :=
  if k.check.runs.any (·.active) then k
  else
    match k.check.runs.find? (·.due) with
    | none => k
    | some r => if k.masked r.run.domain then k.endRun r 2 else k.startRun r

/-- R547, R549: tick n fires, for a run that waits: it becomes due, or is not admitted. -/
def Ktu.dueRun (n : Nat) (k : Ktu) (r : PatRun) : Ktu :=
  if r.active ∨ r.due ∨ n < r.run.start.toNat then k
  else if k.inWindow r.run.domain.val r.run.start.toNat ∧ k.inWindow r.run.domain.val n then
    k.updateRun { r with due := true }
  else k.endRun r 4

/-- R547: a running pattern is stopped on the first tick outside its window. -/
def Ktu.stopRun (n : Nat) (k : Ktu) (r : PatRun) : Ktu :=
  if (r.active ∨ r.due) ∧ ¬ k.inWindow r.run.domain.val n then k.endRun r 4 else k

/-- R547: windows written since the last boundary take effect. -/
def Ktu.applyWindows (k : Ktu) : Ktu :=
  let k := k.check.winNext.foldl (fun k d =>
    let first := k.get KReg.PAT_WINd_LO_first_lo d + k.get KReg.PAT_WINd_HI_first_hi d * 2 ^ 32
    let w := Tbl.set 0 (2 * d) first k.check.win
    { k with check := { k.check with win := Tbl.set 0 (2 * d + 1) (k.get KReg.PAT_WINd_HI_length d) w } }) k
  { k with check := { k.check with winNext := [] } }

/-- R547, R549: what tick n does to pattern runs. -/
def Ktu.patternTick (n : Nat) (k : Ktu) : Ktu :=
  let k := k.applyWindows
  let k := k.check.runs.foldl (Ktu.stopRun n) k
  (k.check.runs.foldl (Ktu.dueRun n) k).startDue

/-- R550: interrupt every active run whose domain satisfies a test. -/
def Ktu.interruptRuns (k : Ktu) (hit : Nat → Bool) : Ktu :=
  (k.check.runs.foldl (fun k r => if r.active ∧ hit r.run.domain.val then k.endRun r 2 else k) k).startDue

/-- R548: the checks of a PATTERN_RUN payload. -/
def Ktu.runValid (k : Ktu) (p : PatternRun) : Bool :=
  p.patternId ≠ 0 && p.reservedZero && decide (1 ≤ p.words.length) && decide (p.words.length ≤ 1024) &&
  p.timeout ≠ 0 && keysOk p.k0.toNat p.s0.toNat p.k1.toNat p.s1.toNat &&
  (match k.time.lastFired with
   | some n => decide (n < p.start.toNat)
   | none => true)

/-- R548: a PATTERN_RUN command; answers its status. -/
def Ktu.patternRun (k : Ktu) (cmdId : Nat) (p : PatternRun) : Ktu × Nat :=
  if ¬ k.runValid p then (k, 1)
  else if k.check.runs.length ≥ 2 then (k, 2)
  else (k.setRuns (k.check.runs ++ [{ cmdId := cmdId, run := p }]), 7)

/-- R549, R550: a response on pat_rsp. -/
def Ktu.patternResponse (k : Ktu) (rsp : BitVec 64) : Ktu :=
  if k.masked k.pins.straps.patDom then k
  else
    match k.check.runs.find? (·.active) with
    | none => k
    | some r =>
      if rsp.getLsbD 63 then (k.endRun r 3).startDue
      else
        let cs := lineChunks (BitVec.ofNat 512 (rsp.toNat % 2 ^ 63)) (BitVec.ofNat 48 (64 * r.index))
        let r' := { r with index := r.index + 1,
                           d0 := (r.d0 + laneAdd r.run.k0.toNat r.run.s0.toNat cs) % digestP,
                           d1 := (r.d1 + laneAdd r.run.k1.toNat r.run.s1.toNat cs) % digestP }
        if r'.index < r.run.words.length then
          k.updateRun r'
        else
          let same := r'.d0 + r'.d1 * 2 ^ 64 = r.run.expected.toNat
          (k.endRun r' (if r.run.compare ∧ ¬ same then 1 else 0)).startDue

/-- R550: no response within word_timeout_us. -/
def Ktu.patternTimeout (k : Ktu) : Ktu :=
  match k.check.runs.find? (·.active) with
  | none => k
  | some r => (k.endRun r 3).startDue

end Sys2Proof.Machine
end

