-- ==== Sys2Proof/Machine/KtuTrace.lean ====
section
/-! DEFINITION. The trace funnel of a KTU (R181 to R190): sources, admission, drops, generated records, owner changes. -/

namespace Sys2Proof.Machine

/-- A trace source. -/
def Ktu.src (k : Ktu) (s : Nat) : TraceSource := Tbl.get ({} : TraceSource) s k.trace.srcs

/-- Replace a trace source. -/
def Ktu.setSrc (k : Ktu) (s : Nat) (t : TraceSource) : Ktu :=
  { k with trace := { k.trace with srcs := Tbl.set ({} : TraceSource) s t k.trace.srcs } }

/-- R188: the owner of a source. -/
def Ktu.srcOwner (k : Ktu) (s : Nat) : Nat := k.get KReg.TRC_SRCs_owner s

/-- R183: a source is enabled. -/
def Ktu.srcEnabled (k : Ktu) (s : Nat) : Bool := k.bit KReg.TRC_SRCs_enable s

/-- R181: a source is not masked by its domain. -/
def Ktu.srcUnmasked (k : Ktu) (s : Nat) : Bool := !k.masked (k.trcDom (Fin.ofNat 16 s))

/-- R182: a record the KTU generates: priority 3, at a time in ns. -/
def genRecord (s type owner payload time : Nat) : TraceRec :=
  { payload := BitVec.ofNat 64 payload, source := Fin.ofNat 16 s, prio := 3, type := BitVec.ofNat 3 type,
    owner := BitVec.ofNat 5 owner, time := BitVec.ofNat 48 time }

/-- R186: queue a generated record of a source; it goes ahead of the source's own queue. -/
def Ktu.generate (k : Ktu) (s type payload : Nat) : Ktu :=
  let t := k.src s
  k.setSrc s { t with gen := t.gen ++ [genRecord s type (k.srcOwner s) payload k.tickNs] }

/-- R185: count a dropped record of a source. -/
def Ktu.dropRecord (k : Ktu) (s prio time : Nat) : Ktu :=
  let t := k.src s
  let first := if t.drops.isEmpty then time else t.firstDrop
  let n := min (Tbl.get 0 prio t.drops + 1) 0xFFFF
  (k.setSrc s { t with drops := Tbl.set 0 prio n t.drops, firstDrop := first }).count KReg.TRC_DROPs_drops 1 s

/-- R183: the payload of a drop marker: the counts of priorities 3 to 0 from the top. -/
def dropPayload (d : Tbl Nat) : Nat :=
  Tbl.get 0 3 d * 2 ^ 48 + Tbl.get 0 2 d * 2 ^ 32 + Tbl.get 0 1 d * 2 ^ 16 + Tbl.get 0 0 d

/-- R183, R185: a source's pending drops as a marker. -/
def Ktu.dropMarker (k : Ktu) (s : Nat) : TraceRec :=
  let t := k.src s
  genRecord s 2 (k.srcOwner s) (dropPayload t.drops) t.firstDrop

/-- R185: queue a marker for pending drops and clear the counts. -/
def Ktu.markDrops (k : Ktu) (s : Nat) : Ktu :=
  let t := k.src s
  if t.drops.isEmpty then k
  else k.setSrc s { t with drops := [], gen := t.gen ++ [k.dropMarker s] }

/-- R185: a reserved record was lost: ctx_lost, and a resync as soon as space allows. -/
def Ktu.ctxLost (k : Ktu) : Ktu :=
  ({ k with trace := { k.trace with resyncDue := true } }).raise KReg.TRC_STATUS_ctx_lost

/-- R183: an owner resync for every enabled source. -/
def Ktu.resyncAll (k : Ktu) : Ktu :=
  (List.range 16).foldl (fun k s => if k.srcEnabled s then k.generate s 4 (k.src s).lastCtx.toNat else k) k

/-- R181, R185: a host record of source s is sampled. -/
def Ktu.traceRecord (k : Ktu) (s : Fin 16) (payload : BitVec 64) (prio : Fin 4) (ctx : Bool) : Ktu :=
  if ¬ k.srcEnabled s ∨ ¬ k.pins.trcPgood.getLsbD s.val ∨ ¬ k.srcUnmasked s then k
  else
    let t := k.src s
    let t := if ctx then { t with lastCtx := payload } else t
    let now := k.sampledNs
    if t.queue.length ≥ 8 then
      let k := ((k.setSrc s t).dropRecord s prio.val now).overrun (4 + s.val)
      if ctx then k.ctxLost else k
    else
      k.setSrc s { t with queue := t.queue ++
        [{ payload := payload, prio := prio, ctx := ctx, time := BitVec.ofNat 48 now }] }

/-- The funnel's capacity (R184). -/
def funnelSize : Nat := 4096

/-- R184: the threshold of a priority, in records. -/
def Ktu.funnelThr (k : Ktu) (prio : Fin 4) : Nat :=
  match prio with
  | 0 => k.get KReg.TRC_THR_thr0 * 64
  | 1 => k.get KReg.TRC_THR_thr1 * 64
  | 2 => k.get KReg.TRC_THR_thr2 * 64
  | 3 => k.get KReg.TRC_THR_thr3 * 64

/-- Put a record into the funnel buffer. -/
def Ktu.funnelPut (k : Ktu) (r : TraceRec) : Ktu :=
  { k with trace := { k.trace with funnel := k.trace.funnel ++ [r] } }

/-- R185: a generated record at the head of a source enters, or is lost; the counts of a lost marker stay pending. -/
def Ktu.admitGen (k : Ktu) (s : Nat) (r : TraceRec) (rest : List TraceRec) : Ktu :=
  let t := k.src s
  let k := k.setSrc s { t with gen := rest }
  if k.trace.funnel.length < funnelSize then k.funnelPut r
  else if r.type.toNat = 2 then
    let t := k.src s
    let back (p : Nat) : Nat := min (Tbl.get 0 p t.drops + r.payload.toNat / 2 ^ (16 * p) % 2 ^ 16) 0xFFFF
    let d := [0, 1, 2, 3].foldl (fun d p => Tbl.set 0 p (back p) d) t.drops
    (k.setSrc s { t with drops := d, firstDrop := r.time.toNat }).ctxLost
  else k.ctxLost

/-- R185: a pending drop marker goes ahead of an admitted record. -/
def Ktu.markerFirst (k : Ktu) (s : Nat) : Ktu :=
  let t := k.src s
  if t.drops.isEmpty then k
  else if k.trace.funnel.length < funnelSize then
    (k.setSrc s { t with drops := [] }).funnelPut (k.dropMarker s)
  else k.ctxLost

/-- R184, R185: a host record at the head of a source is admitted or dropped. -/
def Ktu.admitHost (k : Ktu) (s : Nat) (i : TraceItem) (rest : List TraceItem) : Ktu :=
  let t := k.src s
  let k := k.setSrc s { t with queue := rest }
  let occ := k.trace.funnel.length
  let r : TraceRec :=
    { payload := i.payload, source := Fin.ofNat 16 s, prio := i.prio, type := if i.ctx then 1 else 0,
      owner := BitVec.ofNat 5 (k.srcOwner s), time := i.time }
  if i.ctx then
    if occ < funnelSize then
      let k := k.markerFirst s
      if k.trace.funnel.length < funnelSize then k.funnelPut r
      else (k.dropRecord s i.prio.val i.time.toNat).ctxLost
    else (k.dropRecord s i.prio.val i.time.toNat).ctxLost
  else if occ < k.funnelThr i.prio then (k.markerFirst s).funnelPut r
  else k.dropRecord s i.prio.val i.time.toNat

/-- R186: what a source offers the arbiter: a generated record, else its queue's head unless its domain is masked. -/
def Ktu.srcOffers (k : Ktu) (s : Nat) : Bool :=
  let t := k.src s
  !t.gen.isEmpty || (!t.queue.isEmpty && k.srcUnmasked s)

/-- R186: the priority of what a source offers. -/
def Ktu.srcPrio (k : Ktu) (s : Nat) : Nat :=
  let t := k.src s
  if t.gen.isEmpty then (t.queue.head?.map (fun i => i.prio.val)).getD 0 else 3

/-- R184 to R186: one ktu_clk edge of the funnel's arbiter, after a resync that waits for space. -/
def Ktu.funnelAdmit (k : Ktu) : Ktu :=
  if ¬ k.bit KReg.TRC_CTRL_enable then k
  else
    let k := if k.trace.resyncDue ∧ k.trace.funnel.length < funnelSize then
        Ktu.resyncAll { k with trace := { k.trace with resyncDue := false } }
      else k
    match arbitrate 16 k.srcPrio k.srcOffers k.trace.rr with
    | none => k
    | some (s, rr) =>
      let k := { k with trace := { k.trace with rr := rr } }
      match (k.src s).gen, (k.src s).queue with
      | g :: rest, _ => k.admitGen s g rest
      | [], i :: rest => k.admitHost s i rest
      | [], [] => k

/-- R183: the payload of a source-state record. -/
def Ktu.statePayload (k : Ktu) (s cause : Nat) : Nat :=
  (if k.srcUnmasked s then 1 else 0) + (if k.pins.trcPgood.getLsbD s then 2 else 0) + 4 * cause

/-- R183: trc_src_pgood[s] changes. -/
def Ktu.trcPgood (k : Ktu) (s : Fin 16) (v : Bool) : Ktu :=
  if k.pins.trcPgood.getLsbD s.val = v then k
  else
    let bit := BitVec.ofNat 16 (2 ^ s.val)
    let k := { k with pins := { k.pins with
      trcPgood := if v then k.pins.trcPgood ||| bit else k.pins.trcPgood &&& ~~~bit } }
    k.generate s 5 (k.statePayload s 2)

/-- R117, R183: a source-state record for every source of a domain. -/
def Ktu.domainRecords (k : Ktu) (d : Fin 4) (cause : Nat) : Ktu :=
  (List.range 16).foldl (fun k s =>
    if k.trcDom (Fin.ofNat 16 s) = d then k.generate s 5 (k.statePayload s cause) else k) k

/-- R188: a change of a source's owner takes effect. -/
def Ktu.srcOwnerChange (k : Ktu) (s new : Nat) : Ktu :=
  let old := k.srcOwner s
  let flushed := (k.src s).queue
  let k := k.setSrc s { k.src s with queue := [] }
  let k := flushed.foldl (fun k i => k.dropRecord s i.prio.val i.time.toNat) k
  let k := k.markDrops s
  (k.put KReg.TRC_SRCs_owner new s).generate s 3 (new + 32 * old)

/-- R183: at a tick boundary a silent source's pending drops are marked. -/
def Ktu.markAllDrops (k : Ktu) : Ktu := (List.range 16).foldl Ktu.markDrops k

/-- R183: the halt markers of a scope. -/
def Ktu.haltMarkers (k : Ktu) (scope h : Nat) : Ktu :=
  (List.range 16).foldl (fun k s =>
    if scope = fleet ∨ k.srcOwner s = scope then k.generate s 6 (scope + 256 * h) else k) k

/-- R189: an uncorrectable error hits record i of the funnel buffer. -/
def Ktu.funnelUe (k : Ktu) (i : Nat) : Ktu :=
  let k := { k with trace := { k.trace with funnel := k.trace.funnel.eraseIdx i } }
  (k.raise KReg.TRC_STATUS_ecc_ue).ctxLost

/-- R187: bits 63:48 of tick time at a record, from its low 48 bits. -/
def Ktu.timeHigh (k : Ktu) (t : BitVec 48) : Nat :=
  let now := k.tickNs
  if t.toNat ≤ now % 2 ^ 48 then now / 2 ^ 48 else now / 2 ^ 48 - 1

/-- R187, R297: form the next TRACE message: up to six records if three wait, else up to two in one flit. -/
def Ktu.formTrace (k : Ktu) : Ktu :=
  match k.trace.funnel with
  | [] => k
  | r :: _ =>
    let n := if k.trace.funnel.length ≥ 3 then 6 else 2
    let recs := k.trace.funnel.take n
    let m := Msg.trace k.addr (BitVec.ofNat 32 k.trace.seq) (BitVec.ofNat 16 (k.timeHigh r.time)) recs
    let k := { k with trace := { k.trace with funnel := k.trace.funnel.drop n, seq := (k.trace.seq + 1) % 2 ^ 32 } }
    k.sendUp m

end Sys2Proof.Machine
end

