-- ==== Sys2Proof/Machine/KtuHalt.lean ====
section
/-! DEFINITION. Halt, drain and resume (R191 to R201). -/

namespace Sys2Proof.Machine

/-- R191: the cores that take part in halts of a scope. -/
def Ktu.haltCores (k : Ktu) (scope : Nat) : List Nat :=
  (List.range k.pins.straps.nCores.val).filter (fun c =>
    k.bit KReg.HALT_COREc_halt_en c && (scope == fleet || k.get KReg.HALT_COREc_owner c == scope))

/-- R191: the domains that drain for halts of a scope. -/
def Ktu.haltDomains (k : Ktu) (scope : Nat) : List Nat :=
  (List.range 4).filter (fun d =>
    let p := k.get KReg.HALT_DOMd_part d
    if scope = fleet then p != 0 else bitOf p scope)

/-- The mask of a list of numbers. -/
def maskOf (l : List Nat) : Nat := l.foldl setBit 0

/-- R200: dbg_halted, taken as 1 while the debug domain is masked. -/
def Ktu.coreHalted (k : Ktu) (c : Nat) : Bool := k.masked k.pins.straps.dbgDom || k.pins.dbgHalted.getLsbD c

/-- R200: eng_drained, taken as 1 while the domain is masked. -/
def Ktu.domDrained (k : Ktu) (d : Nat) : Bool := k.masked (Fin.ofNat 4 d) || k.pins.engDrained.getLsbD d

/-- R204: the participating cores not yet halted. -/
def Ktu.missingCores (k : Ktu) (scope : Nat) : Nat := maskOf ((k.haltCores scope).filter (fun c => !k.coreHalted c))

/-- R204: the participating domains not yet drained. -/
def Ktu.missingDomains (k : Ktu) (scope : Nat) : Nat :=
  maskOf ((k.haltDomains scope).filter (fun d => !k.domDrained d))

/-- R192: the dbg_halt_req lines. -/
def Ktu.haltReq (k : Ktu) : Nat :=
  (List.range 17).foldl (fun m s =>
    let c := k.halt s
    match c.state with
    | .halting => m ||| maskOf (k.haltCores s) ||| c.localCores
    | .halted => m ||| maskOf (k.haltCores s) ||| c.localCores
    | .incomplete => m ||| maskOf (k.haltCores s) ||| c.localCores
    | _ => m ||| c.localCores) 0

/-- R198: the eng_drain_req lines. -/
def Ktu.drainReq (k : Ktu) : Nat :=
  (List.range 17).foldl (fun m s =>
    match (k.halt s).state with
    | .halting => m ||| maskOf (k.haltDomains s)
    | .halted => m ||| maskOf (k.haltDomains s)
    | .incomplete => m ||| maskOf (k.haltDomains s)
    | _ => m) 0

/-- R198: the dbg_resume_req lines: high for each participating core of a Resuming scope while it is halted. -/
def Ktu.resumeReq (k : Ktu) : Nat :=
  (List.range 17).foldl (fun m s =>
    if (k.halt s).state = .resuming then
      m ||| maskOf ((k.haltCores s).filter (fun c => k.pins.dbgHalted.getLsbD c)) else m) 0

/-- R302: a CMD_ACK that reports on a halt context. -/
def Ktu.haltAck (k : Ktu) (scope status : Nat) : Ktu :=
  let detail := scope + k.missingCores scope * 2 ^ 8 + k.missingDomains scope * 2 ^ 16 + (k.halt scope).h % 2 ^ 32 * 2 ^ 32
  k.sendUp (.cmdAck { addr := k.addr, id := 0, opcode := 4, status := BitVec.ofNat 8 status, repeated := false,
                      detail := BitVec.ofNat 64 detail })

/-- R198, R550: a context enters Halting at tick h: its Tail blocks freeze with cause 5, its sources are marked, and
pattern runs of the domains it drains end interrupted. -/
def Ktu.enterHalting (k : Ktu) (scope h : Nat) : Ktu :=
  let k := k.setHalt scope { k.halt scope with state := .halting, h := h }
  let k := (k.freezeRings 5 (k.scopeUnits scope)).haltMarkers scope h
  k.interruptRuns (fun d => (k.haltDomains scope).contains d)

/-- R195: whether the KTU takes part in halts of a scope. -/
def Ktu.takesPart (k : Ktu) (scope : Nat) : Bool := !(k.haltCores scope).isEmpty || !(k.haltDomains scope).isEmpty

/-- R195, R197, R199: a halt request (H, origin, core) reaches the context of its scope. -/
def Ktu.takeHalt (k : Ktu) (scope h origin core : Nat) : Ktu :=
  if ¬ k.takesPart scope then k
  else
    let c := k.halt scope
    let put (k : Ktu) : Ktu :=
      let c := { k.halt scope with state := .armed, h := h, origin := origin, originCore := core }
      match k.time.lastFired with
      | some n =>
        if h ≤ n then (Ktu.enterHalting (k.setHalt scope c) scope n).raise KReg.HALT_Sk_MISSING_late 1 scope
        else k.setHalt scope c
      | none => k.setHalt scope c
    match c.state with
    | .idle => put k
    | .armed => if h < c.h then put k else k
    | .resuming =>
      let keep := match c.held with
        | some (h', _, _) => decide (h' ≤ h)
        | none => false
      if keep then k else k.setHalt scope { c with held := some (h, origin, core) }
    | .halting => k
    | .halted => k
    | .incomplete => k

/-- R192, R193: compute H, send the halt ALARM and take the request; before any tick only no_tick is set. The ALARM
carries the breakpointing core, or core 0 where there is none. -/
def Ktu.startHalt (k : Ktu) (scope core : Nat) : Ktu :=
  match k.time.lastFired with
  | none => k.raise KReg.HALT_BKPT_no_tick
  | some n =>
    let h := (n + max (k.get KReg.HALT_CFG_lead_ticks) 2) % 2 ^ 48
    let k := k.sendAlarm (alarmPair 2 k.fife.addr (scopeOf scope) (if core < 8 then core else 0) 0 h)
    k.takeHalt scope h k.fife.addr core

/-- R192, R193, R201: dbg_bkpt[c] rises. -/
def Ktu.breakpoint (k : Ktu) (c : Fin 8) : Ktu :=
  if k.masked k.pins.straps.dbgDom ∨ c.val ≥ k.pins.straps.nCores.val then k
  else
    let k := k.raise KReg.HALT_BKPT_bkpt_seen (2 ^ c.val)
    if ¬ (k.bit KReg.HALT_COREc_bkpt_en c ∧ k.bit KReg.HALT_COREc_halt_en c) then k
    else
      let scope := k.get KReg.HALT_COREc_owner c
      let ctx := k.halt scope
      match ctx.state with
      | .halting => k.raise KReg.HALT_BKPT_ignored
      | .halted => k.raise KReg.HALT_BKPT_ignored
      | .incomplete => k.raise KReg.HALT_BKPT_ignored
      | .resuming =>
        Ktu.startHalt (k.setHalt scope { ctx with heldCores := setBit ctx.heldCores c.val,
                                                  localCores := setBit ctx.localCores c.val }) scope c.val
      | .idle => Ktu.startHalt (k.setHalt scope { ctx with localCores := setBit ctx.localCores c.val }) scope c.val
      | .armed => Ktu.startHalt (k.setHalt scope { ctx with localCores := setBit ctx.localCores c.val }) scope c.val

/-- R198, R199: return to Idle; a request held over the resume is then taken. -/
def Ktu.toIdle (k : Ktu) (scope : Nat) : Ktu :=
  let c := k.halt scope
  let k := k.setHalt scope { ({} : HaltCtx) with localCores := c.heldCores }
  match c.held with
  | none => k
  | some (h, origin, core) => k.takeHalt scope h origin core

/-- R198, R199: tick R fires, or has fired, for a context. -/
def Ktu.actResume (k : Ktu) (scope : Nat) : Ktu :=
  let c := k.halt scope
  match c.state with
  | .idle => k
  | .resuming => k
  | .armed => k.setHalt scope {}
  | .halting => k.setHalt scope { c with state := .resuming, resumeAt := none, localCores := 0 }
  | .halted => k.setHalt scope { c with state := .resuming, resumeAt := none, localCores := 0 }
  | .incomplete => k.setHalt scope { c with state := .resuming, resumeAt := none, localCores := 0 }

/-- R199: a resume command of a scope with tick R. -/
def Ktu.takeResume (k : Ktu) (scope r : Nat) : Ktu :=
  let c := k.halt scope
  if c.state = .idle ∨ c.state = .resuming then k
  else
    match k.time.lastFired with
    | some n =>
      if r ≤ n then (k.raise KReg.HALT_Sk_MISSING_late 1 scope).actResume scope
      else k.setHalt scope { c with resumeAt := some r }
    | none => k.setHalt scope { c with resumeAt := some r }

/-- R198, R199: tick n fires, for one context. A jump over H or R acts at the tick that fires (DEDUCED). -/
def Ktu.haltTick (n : Nat) (k : Ktu) (scope : Nat) : Ktu :=
  let c := k.halt scope
  let resumes := match c.resumeAt with
    | some r => decide (r ≤ n)
    | none => false
  if resumes then k.actResume scope
  else if c.state = .armed ∧ c.h ≤ n then
    k.enterHalting scope n
  else k

/-- R198: a Halting or Incomplete context whose participants have all halted and drained enters Halted. -/
def Ktu.haltDone (k : Ktu) (scope : Nat) : Ktu :=
  let c := k.halt scope
  if (c.state = .halting ∨ c.state = .incomplete) ∧ k.missingCores scope = 0 ∧ k.missingDomains scope = 0 then
    (k.setHalt scope { c with state := .halted, acked := true }).haltAck scope 5
  else k

/-- R198: the host's dbg_halted and eng_drained lines as sampled; every context that they complete enters Halted. -/
def Ktu.drain (k : Ktu) (halted : BitVec 8) (drained : BitVec 4) : Ktu :=
  let k := { k with pins := { k.pins with dbgHalted := halted, engDrained := drained } }
  (List.range 17).foldl Ktu.haltDone k

/-- R198: the halt timeout of a scope. -/
def Ktu.haltTimeout (k : Ktu) (scope : Nat) : Ktu :=
  let c := k.halt scope
  if c.state = .halting then (k.setHalt scope { c with state := .incomplete, acked := true }).haltAck scope 6
  else if c.state = .resuming then (k.raise KReg.HALT_Sk_MISSING_resume_incomplete 1 scope).toIdle scope
  else k

/-- R198: a Resuming context whose participating dbg_halted lines are all 0 returns to Idle. -/
def Ktu.resumeDone (k : Ktu) (scope : Nat) : Ktu :=
  if (k.halt scope).state = .resuming ∧ (k.haltCores scope).all (fun c => !k.pins.dbgHalted.getLsbD c) then
    k.toIdle scope
  else k

/-- R198: the host's dbg_halted lines as sampled; every Resuming context that they complete returns to Idle. -/
def Ktu.resumed (k : Ktu) (halted : BitVec 8) : Ktu :=
  let k := { k with pins := { k.pins with dbgHalted := halted } }
  (List.range 17).foldl Ktu.resumeDone k

end Sys2Proof.Machine
end

