-- ==== Sys2Proof/Machine/KtuQueues.lean ====
section
/-! DEFINITION. The queue instances of a KTU by ID (R229, R312, R557): occupancy, flush and check reset (R214 to R218). -/

namespace Sys2Proof.Machine

/-- R229, R312, R557: an ID that names an instance. -/
def queueNamed (id : Nat) : Bool := id ≤ 34 || (40 ≤ id && id ≤ 43)

/-- The depth of an instance. -/
def queueDepth (id : Nat) : Nat :=
  if id < 20 then 8
  else if id = 20 then 4096
  else if id = 21 then 4
  else if id < 30 then ([16, 16, 48, 24] : List Nat).getD ((id - 22) % 4) 0
  else if id < 32 then 64
  else if id < 34 then 8
  else if id = 34 then 4
  else if id = 40 then 4
  else if id = 41 then 8
  else if id = 42 then 64
  else if id = 43 then 2
  else 0

/-- The link end and channel of a receive buffer. -/
def rxQueue (id : Nat) : Option (Bool × Nat) :=
  if 22 ≤ id ∧ id ≤ 25 then some (true, id - 22) else if 26 ≤ id ∧ id ≤ 29 then some (false, id - 26) else none

/-- The ID of a receive buffer. -/
def rxQueueId (up : Bool) (vc : Nat) : Nat := (if up then 22 else 26) + vc

/-- A DIGEST message. -/
def isDigest : Msg → Bool
  | .digest _ => true
  | _ => false

/-- The messages of the KTU's own that wait on VC1 upstream. -/
def Ktu.ownVc1 (k : Ktu) : List (Bool × Msg) := (Tbl.get ({} : TxVc) 2 k.fife.up.tx).msgs

/-- The units of frame store a stored frame takes (R256). -/
def StoredFrame.slots (f : StoredFrame) : Nat := if f.ratio = 1 then 2 else 1

/-- R231: the entries an instance holds. -/
def Ktu.queueLen (k : Ktu) (id : Nat) : Nat :=
  if id < 4 then (k.tailQueue id).length
  else if id < 20 then (k.src (id - 4)).queue.length
  else if id = 20 then k.trace.funnel.length
  else if id = 21 then k.tail.dumps.length
  else if id < 30 then
    match rxQueue id with
    | some (up, vc) => Tbl.get 0 vc (k.link up).rxHeld
    | none => 0
  else if id = 30 then k.fife.up.replay.length
  else if id = 31 then k.fife.dn.replay.length
  else if id = 32 then (k.codec.store.map StoredFrame.slots).foldl (· + ·) 0
  else if id = 33 then k.fife.up.alarms.length + k.fife.dn.alarms.length
  else if id = 42 then (k.ownVc1.filter (fun m => isDigest m.2)).length
  else if id = 43 then (k.check.runs.filter (fun r => !r.active)).length
  else 0

/-- Drop the own VC1 messages of the upstream port that satisfy a test and have not begun. -/
def Ktu.dropOwn (k : Ktu) (p : Msg → Bool) : Ktu :=
  let q := Tbl.get ({} : TxVc) 2 k.fife.up.tx
  let keep := q.msgs.take (if q.sent = 0 then 0 else 1) ++
    (q.msgs.drop (if q.sent = 0 then 0 else 1)).filter (fun m => !p m.2)
  k.setLink true { k.fife.up with tx := Tbl.set ({} : TxVc) 2 { q with msgs := keep } k.fife.up.tx }

/-- R214, R217, R232: discard every entry of an instance. Losing the funnel is losing a context record. -/
def Ktu.discardQueue (k : Ktu) (id : Nat) : Ktu :=
  if id < 4 then { k with tail := { k.tail with queues := Tbl.erase id k.tail.queues } }
  else if id < 20 then k.setSrc (id - 4) { k.src (id - 4) with queue := [] }
  else if id = 20 then Ktu.ctxLost { k with trace := { k.trace with funnel := [] } }
  else if id = 21 then { k with tail := { k.tail with dumps := [] } }
  else if id = 30 then k.setLink true { k.fife.up with replay := [], resend := [] }
  else if id = 31 then k.setLink false { k.fife.dn with replay := [], resend := [] }
  else if id = 32 then { k with codec := { k.codec with store := [] } }
  else if id = 33 then
    (k.setLink true { k.fife.up with alarms := [] }).setLink false { k.fife.dn with alarms := [] }
  else if id = 42 then k.dropOwn isDigest
  else if id = 43 then k.setRuns (k.check.runs.filter (·.active))
  else k

/-- A message is part-received in a receive buffer. -/
def Ktu.midPacket (k : Ktu) (id : Nat) : Bool :=
  match rxQueue id with
  | some (up, vc) => (k.link up).partialRx.contains vc
  | none => false

/-- The control state of an instance. -/
def Ktu.queueCtl (k : Ktu) (id : Nat) : QueueCtl := Tbl.get ({} : QueueCtl) id k.queues

/-- Replace it. -/
def Ktu.setQueueCtl (k : Ktu) (id : Nat) (c : QueueCtl) : Ktu :=
  { k with queues := Tbl.set ({} : QueueCtl) id c k.queues }

/-- R214, R231, R232: KTU_QFLUSH: at once between packets, else when the packet being written ends. -/
def Ktu.flushQueue (k : Ktu) (id : Nat) : Ktu :=
  if ¬ queueNamed id then k
  else if k.midPacket id then k.setQueueCtl id { k.queueCtl id with flushPending := true }
  else k.discardQueue id

/-- R217, R218, R231: a check failure of an instance; a check reset takes precedence over a waiting flush. -/
def Ktu.checkFailure (k : Ktu) (id : Nat) : Ktu :=
  if ¬ queueNamed id then k
  else
    let cut := k.midPacket id
    let k := k.discardQueue id
    let k := k.setQueueCtl id { flushPending := false, awaitStart := cut }
    let k := if cut then (k.raise KReg.FIFE_EVT_trunc).count KReg.FIFE_MSGDROP_count else k
    let k := if k.bit KReg.Q_STATUS_chk_err then k else k.put KReg.Q_STATUS_chk_id id
    (k.raise KReg.Q_STATUS_chk_err).count KReg.Q_CHKCNT_count

/-- R214, R218: the packet being written to a receive buffer ends: whether it is discarded. -/
def Ktu.packetEnd (k : Ktu) (id : Nat) : Ktu × Bool :=
  let c := k.queueCtl id
  (k.setQueueCtl id {}, c.flushPending || c.awaitStart)

end Sys2Proof.Machine
end

