-- ==== Sys2Proof/Machine/KtuCodec.lean ====
section
/-! DEFINITION. The KTU's coder and frame store (R244 to R256): tables, coding a frame, storing it, sending it again. -/

namespace Sys2Proof.Machine

/-- R245: a slot holds a static table, or the dynamic one loaded last. -/
def Ktu.table (k : Ktu) (t : Nat) : CodeTable :=
  if t = 0 then { gen := 0, lens := sparseTable }
  else if t = 1 then { gen := 0, lens := busyTable }
  else Tbl.get ({} : CodeTable) t k.codec.tables

/-- R246: a TABLE_LOAD command; answers its status. -/
def Ktu.tableLoad (k : Ktu) (p : TableLoad) : Ktu × Nat :=
  let t := p.table.toNat
  let lens := p.lens.map (·.toNat)
  if t < 2 ∨ t > 15 ∨ p.gen = 0 ∨ p.reserved ∨ lens.length ≠ 33 ∨ ¬ tableValid lens then
    (k.raise KReg.CODEC_STATUS_tbl_refused, 1)
  else
    let st := Tbl.set ({} : CodeTable) t { gen := p.gen.toNat, lens := lens } k.codec.stagedTables
    ({ k with codec := { k.codec with stagedTables := st } }, 0)

/-- R246: staged loads take effect at a boundary. -/
def Ktu.applyTables (k : Ktu) : Ktu :=
  { k with codec := { k.codec with
      tables := k.codec.stagedTables.foldl (fun t e => Tbl.set ({} : CodeTable) e.1 e.2 t) k.codec.tables,
      stagedTables := [] } }

/-- R252: discard the carries of a list of series; each non-zero one counts. -/
def Ktu.discardCarries (k : Ktu) (ss : List Nat) : Ktu :=
  ss.foldl (fun k s =>
    if Tbl.get 0 s k.codec.carry = 0 then k
    else Ktu.count { k with codec := { k.codec with carry := Tbl.erase s k.codec.carry } } KReg.CODEC_CDROP_drops) k

/-- R256: the slots of the frame store that are taken, by stored frames and by the one being coded. -/
def Ktu.slotsUsed (k : Ktu) : Nat :=
  (k.codec.store.map StoredFrame.slots).foldl (· + ·) 0 +
    (match k.codec.job with
     | some j => if j.ratio = 1 then 2 else 1
     | none => 0)

/-- Replace the frame store. -/
def Ktu.setStore (k : Ktu) (l : List StoredFrame) : Ktu := { k with codec := { k.codec with store := l } }

/-- R235, R249: the blocks of a job, in order. -/
def Ktu.jobBlocks (k : Ktu) (j : CodeJob) (marks : List Nat) : List BlockOut :=
  let lens := (k.table j.table).lens
  (List.range 16).map (fun b =>
    let ss := (List.range 64).map (fun i => 64 * b + i)
    encodeBlock (blockBytes j.ratio) lens (ss.map (fun s => Tbl.get 0 s j.deltas))
      (ss.map (fun s => Tbl.get 0 s k.codec.carry)) (ss.map (fun s => marks.contains s)))

/-- The non-zero entries of a list as a table from key `i` on. -/
def tblOfList : Nat → List Nat → Tbl Nat
  | _, [] => []
  | i, v :: t => if v = 0 then tblOfList (i + 1) t else (i, v) :: tblOfList (i + 1) t

/-- R253: the carry storage of series has failed: status, and the carries are gone. -/
def Ktu.carryUe (k : Ktu) (ss : List Nat) : Ktu :=
  if ss.isEmpty then k
  else
    let k := k.raise KReg.CODEC_STATUS_ecc_ue
    { k with codec := { k.codec with carry := k.codec.carry.filter (fun e => !ss.contains e.1) } }

/-- R235, R236, R249, R254, R255: code the frame of a job and place it in the frame store. `ue` names the series whose
carry storage is found in error (R253). -/
def Ktu.codeJob (k : Ktu) (j : CodeJob) (ue : List Nat) : Ktu :=
  let marks := j.poisoned ++ ue
  let k := k.carryUe ue
  let blocks := k.jobBlocks j marks
  let lossy := blocks.any (fun b => decide (b.shift > 0))
  let sat := blocks.any (·.sat)
  let carry := tblOfList 0 (blocks.flatMap (·.carry))
  let xhat := blocks.flatMap (·.xhat)
  let ovf := j.overflow || sat
  let h : FrameHeader :=
    { table := j.table, ratio := j.ratio, addr := k.fife.addr, tick := j.tick, period := j.period,
      partMask := j.partMask, schema := j.schema,
      flags := frameFlags ovf j.reconfigured lossy (!marks.isEmpty) (!marks.isEmpty)
        (!carry.isEmpty || k.remainderHeld),
      span := min j.span 0xFFFF, tableGen := (k.table j.table).gen, seq := k.codec.seq }
  let hb := h.bytes
  let bytes := hb ++ blocks.flatMap (·.bytes) ++ leBytes 4 (entryCrc hb xhat)
  let f : StoredFrame := { tick := j.tick, ratio := j.ratio, bytes := bytes }
  let k : Ktu := { k with codec := { k.codec with carry := carry, job := none, seq := (k.codec.seq + 1) % 2 ^ 32 } }
  let k := k.setStore (k.codec.store ++ [f])
  let k := (k.put KReg.CODEC_LAST_max_shift ((blocks.map (·.shift)).foldl max 0)).put
    KReg.CODEC_LAST_lossy_blocks (blocks.countP (fun b => decide (b.shift > 0)))
  let k := k.put KReg.FRAME_SEQ_seq h.seq
  let k := if lossy then (k.raise KReg.CODEC_STATUS_lossy_frame).count KReg.CODEC_LOSSY_frames else k
  let k := if sat then k.raise KReg.CODEC_STATUS_carry_sat else k
  let k := if ovf then k.raise KReg.CNT_STATUS_ovf_frame else k
  let k := if j.reconfigured then k.raise KReg.CNT_STATUS_reconfig_frame else k
  k.discardCarries j.discard

/-- R255: the coder finishes the frame it holds. -/
def Ktu.frameCoded (k : Ktu) (ue : List Nat) : Ktu :=
  match k.codec.job with
  | none => k
  | some j => k.codeJob j ue

/-- The transmit queue of the port's own frames. -/
def Ktu.frameTx (k : Ktu) : TxVc := Tbl.get ({} : TxVc) 4 k.fife.up.tx

/-- R256, R279: hand the oldest frame not yet sent to the upstream port, when the port holds none. -/
def Ktu.offerFrame (k : Ktu) : Ktu :=
  if k.frameTx.msgs.isEmpty then
    match k.codec.store.find? (fun f => !f.sent) with
    | none => k
    | some f =>
      let k := k.sendUp (.frame k.addr f.bytes)
      k.setStore (k.codec.store.map (fun x => if x.tick = f.tick then { x with sent := true } else x))
  else k

/-- R279: every frame whose last flit was not acknowledged is sent again from its first flit. -/
def Ktu.resendStored (k : Ktu) : Ktu :=
  let k := k.setStore (k.codec.store.map (fun f => { f with sent := false }))
  k.setLink true { k.fife.up with tx := Tbl.erase 4 k.fife.up.tx }

/-- R292: a change of address discards every stored frame, counted one by one. -/
def Ktu.discardFrames (k : Ktu) : Ktu :=
  let n := k.codec.store.length
  let k := k.setStore []
  let k := k.setLink true { k.fife.up with tx := Tbl.erase 4 k.fife.up.tx }
  (k.raise KReg.FIFE_EVT_addr_changed).count KReg.FIFE_MSGDROP_count n

/-- R302: RESEND: every frame of the range still in the store is sent again, in tick order; answers how many. -/
def Ktu.resend (k : Ktu) (first last : Nat) : Ktu × Nat :=
  let inRange (f : StoredFrame) : Bool := decide (first ≤ f.tick) && decide (f.tick ≤ last)
  let n := k.codec.store.countP inRange
  (k.setStore (k.codec.store.map (fun f => if inRange f then { f with sent := false } else f)), n)

end Sys2Proof.Machine
end

