-- ==== Sys2Proof/Machine/KtuPower.lean ====
section
/-! DEFINITION. Link power states of a KTU (R305 to R311): link-state pairs, wake sources and WAKE. -/

namespace Sys2Proof.Machine

/-- R308: an end sends a link-state pair: code 0 enter L0q, 1 enter L1, 2 stay. Both ends having sent enter with one
target puts the link into it; stay keeps or brings it back in L0, its lane 1 relocking after L1. -/
def LinkEnd.sendState (e : LinkEnd) (code : Nat) : LinkEnd :=
  let e := { e with pairs := e.pairs ++ [code] }
  if code = 2 then { e with lp := 0, relocking := e.relocking || e.lp == 2, sentEnter := none, gotEnter := none }
  else if e.gotEnter = some code then { e with lp := code + 1, sentEnter := none, gotEnter := none }
  else { e with sentEnter := some code }

/-- R308, R309: an end receives a link-state pair. -/
def LinkEnd.gotState (e : LinkEnd) (code : Nat) : LinkEnd :=
  if code = 2 then { e with lp := 0, relocking := e.relocking || e.lp == 2, sentEnter := none, gotEnter := none }
  else if e.sentEnter = some code then { e with lp := code + 1, sentEnter := none, gotEnter := none }
  else { e with gotEnter := some code }

/-- R309: the lane-1 receivers of a link have relocked. -/
def LinkEnd.relocked (e : LinkEnd) : LinkEnd := { e with relocking := false }

/-- Send a link-state pair on each link of the KTU; a leaf has no downstream link. -/
def Ktu.sendStates (k : Ktu) (code : Nat) : Ktu :=
  let k := k.setLink true (k.fife.up.sendState code)
  if k.pins.straps.leaf then k else k.setLink false (k.fife.dn.sendState code)

/-- R309: a stay pair on each link that is in L0q or L1. -/
def Ktu.stayAwake (k : Ktu) : Ktu :=
  let k := if k.fife.up.lp ≠ 0 then k.setLink true (k.fife.up.sendState 2) else k
  if k.fife.dn.lp ≠ 0 then k.setLink false (k.fife.dn.sendState 2) else k

/-- R121, R309: WAKE is sent once the upstream link is in L0; the wake latch and the one-time source are then cleared. -/
def Ktu.sendWake (k : Ktu) : Ktu :=
  if k.fife.wakeOwed ∧ k.fife.up.lp = 0 ∧ ¬ k.fife.up.relocking then
    let m := Msg.wake k.addr (BitVec.ofNat 8 k.wakeSources) (BitVec.ofNat 48 k.firedNum)
    let k := k.sendUp m
    { k with pins := { k.pins with wakeLatch := false, wakeOnce := false }, fife := { k.fife with wakeOwed := false } }
  else k

/-- R307, R309, R311: what a pending wake source does: it ends an agreed or committed phase, returns the links to L0 and
owes Naloder a WAKE. -/
def Ktu.wakeCheck (k : Ktu) : Ktu :=
  if k.wakeSources = 0 then k.sendWake
  else
    let owes := k.fife.up.lp ≠ 0 ∨ k.fife.dn.lp ≠ 0 ∨ k.fife.sleepPhase ≠ 0 ∨ k.pins.wakeLatch ∨ k.pins.wakeOnce
    let k := k.stayAwake
    let k := { k with fife := { k.fife with sleepPhase := 0, wakeOwed := k.fife.wakeOwed || decide owes } }
    k.sendWake

end Sys2Proof.Machine
end

