-- ==== Sys2Proof/Machine/KtuTime.lean ====
section
/-! DEFINITION. The KTU's part in time: SYNC and DELAY messages, its two bases, their steps, the tick source, and the
timestamp capture (R69 to R92, R97, R98, R126). -/

namespace Sys2Proof.Machine

/-- KTU_FIFE_ASYM, signed, 2^-16 ns (R77). -/
def Ktu.asym (k : Ktu) : Int := signedOf 32 (k.get KReg.FIFE_ASYM_asym)

/-- R79 to R84: one base takes a SYNC of its domain, received `dt` after the preceding clock edge (R72). -/
def Ktu.baseSync (k : Ktu) (x : TbId) (m : SyncMsg) (dt : Nat) : Ktu :=
  if k.get KReg.TBx_CTRL_domain x.ix = m.domain.val ∧ k.bit KReg.TBx_CTRL_enable x.ix then
    k.onTb x (fun c b => b.takeSync c (m.t1.toNat : Int) (b.reading + dt) (m.corr + k.asym) 0)
  else k

/-- R76, R77, R79: a KTU receives SYNC on its upstream port: forwarded downstream with its residence added, and a sample
for each base that follows its domain. -/
def Ktu.takeSync (k : Ktu) (m : SyncMsg) (dt residence : Nat) : Ktu :=
  let k := k.forwardDn (.sync { m with corr := m.corr + k.asym + residence })
  ((k.baseSync .baseA m dt).baseSync .baseB m dt).updateDiff

/-- R78, R79: a base sends its DELAY_REQ, leaving `dt` after the preceding clock edge. Nothing is sent with the base
disabled, with an interval of 0, or before the address is valid. -/
def Ktu.sendDelayReq (k : Ktu) (x : TbId) (dt : Nat) : Ktu :=
  if k.bit KReg.TBx_CTRL_enable x.ix ∧ k.get KReg.TIME_DREQ_interval_us ≠ 0 ∧ k.fife.addrValid then
    let b := k.tb x
    let st (b : TimeBase) : BitVec 3 := BitVec.ofNat 3 b.state.num
    let m : DelayReqMsg :=
      { domain := Fin.ofNat 8 (k.get KReg.TBx_CTRL_domain x.ix), seq := BitVec.ofNat 16 b.main.nextSeq, addr := k.addr,
        stateA := st k.time.a, stateB := st k.time.b, offset := b.offset, corr := -k.asym }
    (k.setTb x { b with main := b.main.request (b.reading + dt) }).sendUp (.delayReq m)
  else k

/-- R76, R77: a KTU forwards a DELAY_REQ from downstream, its residence added and its asymmetry taken off. -/
def Ktu.forwardDelayReq (k : Ktu) (m : DelayReqMsg) (residence : Nat) : Ktu :=
  if k.pins.straps.leaf then k
  else k.forwardUp true (.delayReq { m with corr := m.corr + residence - k.asym })

/-- R79: one base takes a DELAY_RESP of its domain. -/
def Ktu.baseResp (k : Ktu) (x : TbId) (m : DelayRespMsg) : Ktu :=
  if k.get KReg.TBx_CTRL_domain x.ix = m.domain.val then
    let b := k.tb x
    k.setTb x { b with main := b.response (k.servoCfg x) b.main m.seq.toNat (m.t4.toNat : Int) m.corr }
  else k

/-- R79, R295: a DELAY_RESP is used by the KTU it names and forwarded by the others. -/
def Ktu.takeDelayResp (k : Ktu) (m : DelayRespMsg) : Ktu :=
  if k.fife.addrValid ∧ m.addr = k.addr then (k.baseResp .baseA m).baseResp .baseB m
  else if k.pins.straps.leaf then k.count KReg.FIFE_MSGDROP_count
  else k.forwardDn (.delayResp m)

/-- R82: a write of the hold bit. -/
def Ktu.writeHold (k : Ktu) (x : TbId) (v : Bool) : Ktu :=
  let k := k.put KReg.TBx_CTRL_hold v.toNat x.ix
  k.onTb x (fun c b => b.holdNow c)

/-- R82: a write of the enable bit; 0 holds the base in Free. -/
def Ktu.writeEnable (k : Ktu) (x : TbId) (v : Bool) : Ktu :=
  let k := k.put KReg.TBx_CTRL_enable v.toNat x.ix
  if v then k else k.onTb x (fun _ b => b.toFree)

/-- KTU_TBx_STEP_AMT, signed, in 2^-16 ns. -/
def Ktu.stepAmt (k : Ktu) (x : TbId) : Int :=
  signedOf 48 (k.get KReg.TBx_STEP_AMT_LO_amt_lo x.ix + 2 ^ 32 * k.get KReg.TBx_STEP_AMT_HI_amt_hi x.ix) * 65536

/-- KTU_TBx_STEP_AT, in ns. -/
def Ktu.stepAt (k : Ktu) (x : TbId) : Nat :=
  k.get KReg.TBx_STEP_AT_LO_at_lo x.ix + 2 ^ 32 * k.get KReg.TBx_STEP_AT_HI_at_hi x.ix

/-- R85: STEP_CMD written: apply schedules STEP_AMT, accept_pending the negated pending offset, both together nothing. -/
def Ktu.stepCmd (k : Ktu) (x : TbId) (apply accept : Bool) : Ktu :=
  if apply && accept then k
  else if apply then k.setTb x ((k.tb x).schedule (k.stepAmt x) (k.stepAt x))
  else if accept then k.setTb x ((k.tb x).acceptPending (k.stepAt x))
  else k

/-- R91, R98: a software write of tick_src: 3 is ignored; a fixed source switches seamlessly, and automatic without
ezcia_mode acts as A. -/
def Ktu.writeTickSrc (k : Ktu) (v : Nat) : Ktu :=
  if v = 3 then k
  else
    let k := k.put KReg.TIME_SEL_tick_src v
    if v = 1 then k.switchTo .baseB
    else if v = 0 ∨ ¬ k.bit KReg.TIME_SEL_ezcia_mode then k.switchTo .baseA
    else k

/-- R92: revertive and the original source Locked for 1 s after a switch: switch back, and tick time slews to it. -/
def Ktu.revert (k : Ktu) : Ktu :=
  if k.autoSource ∧ k.bit KReg.TIME_SEL_revertive ∧ k.source = .baseB ∧ k.time.a.state = .locked then
    let k := k.switchTo .baseA
    { k with time := { k.time with reverting := true } }
  else k

/-- R69, R92, R285: one ktu_clk edge: the bases advance, elapsed time counts at the nominal increment, and a reverting
tick time slews to its source by 10 ns per ms. -/
def Ktu.clockEdge (k : Ktu) : Ktu :=
  let ia := (k.servoCfg .baseA).incr
  let ib := (k.servoCfg .baseB).incr
  let lim : Int := ((ia / 100000 : Nat) : Int)
  let o := k.time.tickOffset
  let o' : Int := if k.time.reverting then (if o > lim then o - lim else if o < -lim then o + lim else 0) else o
  { k with time := { k.time with a := k.time.a.edge ia, b := k.time.b.edge ib, tickOffset := o',
                                 reverting := k.time.reverting && o' != 0, elapsed := k.time.elapsed + ia } }

/-- R126: a rising edge on ts_cap[d]: the capture starts, or is ignored while one runs. -/
def Ktu.tsCapRise (k : Ktu) (d : Fin 4) : Ktu :=
  if k.masked d then k
  else if k.pins.tsBusy.getLsbD d.val then k.raise KReg.HOSTDOM_cap_overrun (2 ^ d.val)
  else
    let bit := BitVec.ofNat 4 (2 ^ d.val)
    let l := k.pins.tsLatch
    let l := Tbl.set 0 (2 * d.val) k.time.a.ns l
    let l := Tbl.set 0 (2 * d.val + 1) k.time.b.ns l
    { k with pins := { k.pins with tsBusy := k.pins.tsBusy ||| bit, tsCap := k.pins.tsCap ||| bit, tsLatch := l } }

/-- R126, R136: the capture completes: KTU_TSCAPd holds it and ts_val rises, for one period only if ts_cap has fallen. -/
def Ktu.tsDone (k : Ktu) (d : Fin 4) : Ktu :=
  if k.pins.tsBusy.getLsbD d.val then
    let a := Tbl.get 0 (2 * d.val) k.pins.tsLatch
    let b := Tbl.get 0 (2 * d.val + 1) k.pins.tsLatch
    let bit := BitVec.ofNat 4 (2 ^ d.val)
    let k := ((k.put KReg.TSCAPd_A_LO_ns a d.val).put KReg.TSCAPd_A_HI_ns (a / 2 ^ 32) d.val).put
      KReg.TSCAPd_B_LO_ns b d.val |>.put KReg.TSCAPd_B_HI_ns (b / 2 ^ 32) d.val
    let high := k.pins.tsCap.getLsbD d.val
    { k with pins := { k.pins with
        tsBusy := k.pins.tsBusy &&& ~~~bit,
        tsVal := if high then k.pins.tsVal ||| bit else k.pins.tsVal,
        tsPulse := if high then k.pins.tsPulse else k.pins.tsPulse ^^^ bit } }
  else k

/-- R126: ts_cap[d] falls, and ts_val[d] with it. -/
def Ktu.tsCapFall (k : Ktu) (d : Fin 4) : Ktu :=
  let bit := BitVec.ofNat 4 (2 ^ d.val)
  { k with pins := { k.pins with tsCap := k.pins.tsCap &&& ~~~bit, tsVal := k.pins.tsVal &&& ~~~bit } }

end Sys2Proof.Machine
end

