-- ==== Sys2Proof/Machine/KtuTick.lean ====
section
/-! DEFINITION. A KTU fires a tick (R21 to R24): the snapshot and its frame, the staged changes, the allowances, and what
else acts on the firing edge. -/

namespace Sys2Proof.Machine

/-! ### Staged changes (R150, R153, R158 to R160) -/

/-- The fields with staged access. -/
def rwtFields : List Fld := KReg.table.filter (fun f => f.acc = .rwt)

/-- The staged field that a key names, and its copy. -/
def stagedField (key : Nat) : Option (Fld × Nat) :=
  rwtFields.findSome? (fun f =>
    if f.lo = key % 32 then (f.indexAt (key / 32)).map (fun i => (f, i)) else none)

/-- The staged value of a field, if one waits. -/
def Ktu.staged? (k : Ktu) (f : Fld) (i : Nat) : Option Nat := Tbl.find? (f.key i) k.cnt.staged

/-- The keys of the staged values that lie in an address range. -/
def Ktu.stagedIn (k : Ktu) (lo hi : Nat) : List (Nat × Nat) :=
  k.cnt.staged.filter (fun e => decide (lo ≤ e.1 / 32) && decide (e.1 / 32 < hi))

/-- Forget the staged values of an address range. -/
def Ktu.unstage (k : Ktu) (lo hi : Nat) : Ktu :=
  let l := k.cnt.staged.filter (fun e => !(decide (lo ≤ e.1 / 32) && decide (e.1 / 32 < hi)))
  { k with cnt := { k.cnt with staged := l } }

/-- Put staged values in force. -/
def Ktu.putStaged (k : Ktu) (l : List (Nat × Nat)) : Ktu :=
  l.foldl (fun k e => match stagedField e.1 with
    | some (f, i) => k.put f e.2 i
    | none => k) k

/-- What applying staged changes has done: the reconfigured flag, and the series whose carries go (R252). -/
structure Applied where
  reconf : Bool := false
  discard : List Nat := []
  deriving DecidableEq, Repr

/-- R150, R158, R160: the staged changes and clear of PMU instance i, unless deferred (R159). -/
def Ktu.applyPmu (x : Ktu × Applied) (i : Nat) : Ktu × Applied :=
  let (k, a) := x
  let base := 0x4000 + 64 * i
  let l := k.stagedIn base (base + 64)
  let clear := k.cnt.clears.contains i
  if (l.isEmpty ∧ ¬ clear) ∨ k.holdsRemainder (inPmu i) then x
  else
    let owner := (k.staged? KReg.PMUi_CTRL_owner i).isSome
    let k := (k.putStaged l).unstage base (base + 64)
    let k := if owner then k.put KReg.PMUi_CTRL_enable 0 i else k
    let (k, fed) := k.clearSet (inPmu i)
    let k : Ktu := { k with cnt := { k.cnt with
      clears := k.cnt.clears.filter (· ≠ i), fresh := i :: k.cnt.fresh.filter (· ≠ i) } }
    (k.raise KReg.PMUi_STATUS_cfg_applied 1 i, { reconf := true, discard := a.discard ++ fed })

/-- R150, R158: the staged changes and clear of slot group g, unless deferred (R159). -/
def Ktu.applySlot (x : Ktu × Applied) (g : Nat) : Ktu × Applied :=
  let (k, a) := x
  let base := 0x2800 + 64 * g
  let l := k.stagedIn base (base + 64)
  let clear := k.cnt.slotClears.contains g
  if (l.isEmpty ∧ ¬ clear) ∨ k.holdsRemainder (inSlot g) then x
  else
    let owner := (k.staged? KReg.SLOTg_CTRL_owner g).isSome
    let k := (k.putStaged l).unstage base (base + 64)
    let k := if owner then k.put KReg.SLOTg_CTRL_width 0 g else k
    let (k, fed) := k.clearSet (inSlot g)
    let k : Ktu := { k with cnt := { k.cnt with slotClears := k.cnt.slotClears.filter (· ≠ g) } }
    (k, { reconf := true, discard := a.discard ++ fed })

/-- R153, R158: a staged series-map entry, unless the series still delivers a remainder (R159): the series takes its new
source's snapshot as base and loses its carry. -/
def Ktu.applyMap (x : Ktu × Applied) (e : Nat × Nat) : Ktu × Applied :=
  let (k, a) := x
  let (s, entry) := e
  if Tbl.get 0 s k.cnt.rem ≠ 0 then x
  else
    let base := match entryCounter entry with
      | some id => Tbl.get 0 id k.cnt.cnt
      | none => 0
    let k : Ktu := { k with cnt := { k.cnt with
      smap := Tbl.set 0 s entry k.cnt.smap, smapStaged := Tbl.erase s k.cnt.smapStaged,
      base := Tbl.set 0 s base k.cnt.base } }
    (k, { reconf := true, discard := a.discard ++ [s] })

/-- R158: a staged KTU_SCHEMA. -/
def Ktu.applySchema (x : Ktu × Applied) : Ktu × Applied :=
  let (k, a) := x
  let l := k.stagedIn 0x3008 0x3009
  if l.isEmpty then x else ((k.putStaged l).unstage 0x3008 0x3009, { a with reconf := true })

/-- One staged value outside the counters: owner changes have effects of their own (R169, R188, R540). -/
def Ktu.applyOther (k : Ktu) (e : Nat × Nat) : Ktu :=
  match stagedField e.1 with
  | none => k
  | some (f, i) =>
    if f = KReg.TAIL_OWNb_owner then k.tailOwnerChange i e.2
    else if f = KReg.TRC_SRCs_owner then k.srcOwnerChange i e.2
    else if f = KReg.DIG_OWNr_owner then k.regionOwnerChange i e.2
    else k.put f e.2 i

/-- R246, R247: table loads act first; a table_id that names a slot never loaded is refused. -/
def Ktu.applyCodec (k : Ktu) : Ktu :=
  let k := k.applyTables
  let k := match k.staged? KReg.CODEC_CTRL_table_id 0 with
    | none => k
    | some t =>
      if t ≥ 2 ∧ (k.table t).lens.isEmpty then k.raise KReg.CODEC_STATUS_tbl_refused
      else k.put KReg.CODEC_CTRL_table_id t
  let k := match k.staged? KReg.CODEC_CTRL_ratio 0 with
    | none => k
    | some r => k.put KReg.CODEC_CTRL_ratio r
  k.unstage 0xB000 0xB001

/-- R155, R158: every staged change takes effect, after the snapshot. -/
def Ktu.applyStaged (k : Ktu) : Ktu × Applied :=
  let k := k.applyCodec
  let others := k.cnt.staged.filter (fun e => decide (e.1 / 32 ≥ 0x8000))
  let k := (others.foldl Ktu.applyOther k).unstage 0x8000 0x10000
  let x : Ktu × Applied := (k, {})
  let x := Ktu.applySchema x
  let x := k.cnt.smapStaged.foldl Ktu.applyMap x
  let x := (List.range 256).foldl Ktu.applyPmu x
  (List.range 32).foldl Ktu.applySlot x

/-! ### The frame (R154, R255, R256, R310) -/

/-- The ratio of the frame formed at a boundary: a staged one takes effect with it. -/
def Ktu.nextRatio (k : Ktu) : Nat := (k.staged? KReg.CODEC_CTRL_ratio 0).getD (k.get KReg.CODEC_CTRL_ratio)

/-- R256: fewer slots of the frame store are free than the frame needs. -/
def Ktu.storeFull (k : Ktu) : Bool := decide (k.slotsUsed + (if k.nextRatio = 1 then 2 else 1) > 8)

/-- R154: the owners of the mapped series, with *fleet* for series 0 to 127. -/
def Ktu.partMask (k : Ktu) : Nat :=
  k.cnt.smap.foldl (fun m e => match entryCounter e.2 with
    | some id => setBit m (k.counterOwner id)
    | none => m) (2 ^ fleet)

/-- R154: a counter that feeds a mapped series wrapped in the interval. -/
def Ktu.wrapSeen (k : Ktu) : Bool :=
  k.seriesList.any (fun s => match k.seriesCounter s with
    | some id => k.cnt.wrapped.contains id
    | none => false)

/-- R235: the schema word of a frame. -/
def Ktu.schemaWord (k : Ktu) : Nat := k.pins.straps.profile.val * 2 ^ 14 + k.get KReg.SCHEMA_schema_id

/-- R151, R154, R158, R255: a tick that forms a frame: snapshot, staged changes, and the job of the coder. -/
def Ktu.formFrame (n : Nat) (k : Ktu) : Ktu :=
  let mask := k.partMask
  let ovf := k.wrapSeen
  let schema := k.schemaWord
  let (k, deltas) := k.formDeltas
  let (k, a) := k.applyStaged
  let job : CodeJob :=
    { tick := n, span := n - k.time.prevSnapshot, ratio := k.get KReg.CODEC_CTRL_ratio,
      table := k.get KReg.CODEC_CTRL_table_id, overflow := ovf, reconfigured := a.reconf, partMask := mask,
      period := k.get KReg.TICK_PERIOD_period_us, deltas := deltas, poisoned := k.cnt.poisoned, schema := schema,
      discard := a.discard }
  { k with cnt := { k.cnt with wrapped := [], poisoned := [] }, codec := { k.codec with job := some job },
           time := { k.time with prevSnapshot := n } }

/-- R24, R155: the baseline of a run: bases only, staged changes, and no frame. -/
def Ktu.takeBaseline (n : Nat) (k : Ktu) : Ktu :=
  let (k, a) := k.baseline.applyStaged
  let k := k.discardCarries a.discard
  { k with cnt := { k.cnt with wrapped := [] }, time := { k.time with prevSnapshot := n, baselinePending := false } }

/-- R289: the allowances of a tick. -/
def Ktu.renewAllowances (k : Ktu) : Ktu :=
  let per (f : Nat) : Nat := f * k.get KReg.TICK_PERIOD_period_us / 100
  { k with fife := { k.fife with
      frameLeft := 19 * k.get KReg.FIFE_ALLOW_slots, traceLeft := per (k.get KReg.FIFE_ALLOW_trace_flits),
      cmdLeft := per (k.get KReg.FIFE_ALLOW_cmd_flits) } }

/-- R308: the firing edge of the commit tick: enter pairs from a KTU that holds the commit and has no wake source, stay
pairs from every other. Answers whether the upstream link is now to be in L1. -/
def Ktu.sleepTick (n : Nat) (k : Ktu) : Ktu × Bool :=
  if k.fife.sleepTick = 0 ∨ n < k.fife.sleepTick then (k, k.fife.up.lp = 2)
  else
    let go := k.fife.sleepPhase = 2 ∧ k.wakeSources = 0
    let target := k.fife.sleepTarget
    let k := k.sendStates (if go then target - 1 else 2)
    ({ k with fife := { k.fife with sleepPhase := 0, sleepTick := 0 } }, k.fife.up.lp = 2 || (go && target == 2))

/-- The owner fields a staged write of which ignores a value that names no owner. -/
def ownerFields : List Fld :=
  [KReg.PMUi_CTRL_owner, KReg.SLOTg_CTRL_owner, KReg.TAIL_OWNb_owner, KReg.TRC_SRCs_owner, KReg.HALT_COREc_owner,
   KReg.DIG_OWNr_owner, KReg.PAT_DOMd_approver]

/-- Some owner field holds a staged value. -/
def Ktu.ownersStaged (k : Ktu) : Bool :=
  k.cnt.staged.any (fun e => match stagedField e.1 with
    | some (f, _) => ownerFields.contains f
    | none => false)

/-- R682: the parts of KTU_RESET_CMD that wait for a boundary are done. -/
def Ktu.resetsDone (k : Ktu) : Ktu :=
  if k.resetPending ≠ 0 ∧ k.cnt.clears.isEmpty ∧ k.cnt.slotClears.isEmpty ∧ ¬ k.ownersStaged then
    { k with resetPending := 0 }.raise KReg.RESET_STATUS_done
  else k

/-- R21: tick n fires. -/
def Ktu.fire (n : Nat) (k : Ktu) : Ktu :=
  let k := k.frameCoded []
  let k := k.count KReg.TICK_SKIP_skipped (n - k.time.crossed - 1)
  let k := { k with time := { k.time with lastFired := some n, crossed := n } }
  let k := (k.put KReg.TICK_NUM_LO_tick_lo n).put KReg.TICK_NUM_HI_tick_hi (n / 2 ^ 32)
  let k := (List.range 64).foldl (Ktu.closeRegion n) k
  let (k, inL1) := k.sleepTick n
  let k :=
    if k.time.baselinePending then k.takeBaseline n
    else if inL1 ∧ n % 16 ≠ 15 then k.count KReg.FIFE_COAL_count
    else if k.storeFull then k.count KReg.CODEC_HELD_held
    else k.formFrame n
  let k := k.renewAllowances
  let k := (List.range 64).foldl Ktu.openRegion k
  let k := (List.range 17).foldl (Ktu.haltTick n) k
  let k := k.patternTick n
  k.markAllDrops.resetsDone

/-- R21, R22, R83: the tick source has crossed a boundary: the highest tick number crossed fires. -/
def Ktu.tickFire (k : Ktu) : Ktu :=
  let n := k.boundary
  if k.bit KReg.TICK_CTRL_run ∧ (k.tb k.source).everLocked ∧ k.time.crossed < n then k.fire n else k

/-- R24: a write of KTU_TICK_CTRL.run. -/
def Ktu.writeRun (k : Ktu) (v : Bool) : Ktu :=
  let rise := v && !k.bit KReg.TICK_CTRL_run
  let k := k.put KReg.TICK_CTRL_run v.toNat
  if rise then k.runRise else k

/-- R68: a write of KTU_TICK_PERIOD. -/
def Ktu.writePeriod (k : Ktu) (us : Nat) : Ktu :=
  if k.bit KReg.TICK_CTRL_run ∨ us < 100 ∨ us > 10000 then k.raise KReg.TICK_CTRL_period_wr_ignored
  else k.put KReg.TICK_PERIOD_period_us us

end Sys2Proof.Machine
end

