-- ==== Sys2Proof/Machine/Transmit.lean ====
section
/-! DEFINITION. The transmit side of a link port (R276, R281, R282, R288): flits of a message, eligibility, arbitration. -/

namespace Sys2Proof.Machine

/-- R299: the opcode of a command. -/
def opcodeOf : CmdBody → Nat
  | .tableLoad _ => 1
  | .tailDump _ _ _ _ _ => 2
  | .resend _ _ => 3
  | .halt _ _ => 4
  | .resume _ _ => 5
  | .timeStep _ _ _ _ => 6
  | .patternRun _ => 7
  | .digestOpen _ => 8
  | .digestAbandon _ _ => 8
  | .slotAssign _ => 9
  | .unknown o => o.toNat

/-- The payload bytes of a command (R299, R246, R536, R548). -/
def cmdPayload : CmdBody → Nat
  | .tableLoad _ => 21
  | .tailDump _ _ _ _ _ => 5
  | .resend _ _ => 12
  | .halt _ _ => 8
  | .resume _ _ => 8
  | .timeStep _ _ _ _ => 16
  | .patternRun p => 72 + 8 * p.words.length
  | .digestOpen _ => 48
  | .digestAbandon _ _ => 48
  | .slotAssign _ => 1
  | .unknown _ => 0

/-- The bytes of a message (R297). -/
def msgBytes : Msg → Nat
  | .frame _ b => 4 + b.length
  | .trace _ _ _ r => 16 + 16 * r.length
  | .tailDump _ t => 24 + 8 * t.recs.length
  | .cmd _ b => 16 + cmdPayload b
  | .horn b => b.length
  | .bugle b => 8 + b.raw.length
  | _ => 56

/-- R271, R296: the flits of a message, 56 bytes of payload each. -/
def msgFlits (m : Msg) : Nat := max 1 ((msgBytes m + 55) / 56)

/-- R305: in L0q and L1 VC3 is suspended, and VC1 carries only time and power messages. -/
def lpCarries (m : Msg) : Bool :=
  match m with
  | .frame _ _ => true
  | .sync _ => true
  | .delayReq _ => true
  | .delayResp _ => true
  | .sleepAgree _ _ _ _ => true
  | .sleepPropose _ _ _ => true
  | .wake _ _ _ => true
  | .horn _ => true
  | _ => false

/-- The virtual channel of a requester of a transmit port; requester 8 is the port's own TAILDUMPs (R179). -/
def reqVc (r : Nat) : Nat := if r = 8 then 3 else r / 2

/-- The requester is the port's own traffic. -/
def reqOwn (r : Nat) : Bool := r == 8 || r % 2 == 0

/-- The queue of a requester. -/
def LinkEnd.txq (e : LinkEnd) (r : Nat) : TxVc := Tbl.get ({} : TxVc) r e.tx

/-- R282: the transmitter holds a credit of a channel. -/
def LinkEnd.credit (lk : LinkKind) (e : LinkEnd) (vc : Nat) : Bool := decide (Tbl.get 0 vc e.used < lk.init vc)

/-- R288: another requester of the channel is in the midst of a message. A TAILDUMP and a TRACE alternate (R179). -/
def LinkEnd.vcHeld (e : LinkEnd) (r : Nat) : Bool :=
  [2, 3, 4, 5, 6, 7, 8].any (fun x =>
    x != r && reqVc x == reqVc r && (e.txq x).sent != 0 && !((x == 6 && r == 8) || (x == 8 && r == 6)))

/-- R276, R282, R288: a requester may send a flit now. `may` is what the port's own rules allow. -/
def LinkEnd.eligible (lk : LinkKind) (e : LinkEnd) (may : Bool → Msg → Bool) (r : Nat) : Bool :=
  match (e.txq r).msgs with
  | [] => false
  | (_, m) :: _ =>
    e.credit lk (reqVc r) && decide (e.replay.length < lk.replayMax) && !e.vcHeld r &&
      (e.lp == 0 || lpCarries m) && may (reqOwn r) m

/-- R288: the priority of a channel's guaranteed flits. -/
def gcPrio (vc : Nat) : Nat := if vc = 1 then 3 else if vc = 2 then 2 else 1

/-- The tick of a frame message. -/
def frameTickOf : Msg → Option Nat
  | .frame _ b => some (fieldAt b 8 6)
  | _ => none

/-- What a transmit port sent: the flit, the message, whether this was its last flit, and its requester. -/
structure Sent where
  flit : Flit
  msg : Msg
  last : Bool
  req : Nat
  deriving DecidableEq, Repr

/-- R276, R282, R288: send the next flit of a requester's first message. -/
def LinkEnd.sendFlit (lk : LinkKind) (e : LinkEnd) (gc : Bool) (r : Nat) : LinkEnd × Option Sent :=
  let q := e.txq r
  match q.msgs with
  | [] => (e, none)
  | (_, m) :: rest =>
    let vc := reqVc r
    let last := decide (q.sent + 1 ≥ msgFlits m)
    let (e', f) := e.header lk 0 (Fin.ofNat 4 vc) (q.sent == 0) last gc e.txSeq
    let kept : SentFlit := { seq := e.txSeq, vc := vc, gc := gc, eop := last, frameTick := frameTickOf m }
    let q' : TxVc := if last then { msgs := rest, sent := 0 } else { q with sent := q.sent + 1 }
    ({ e' with txSeq := (e.txSeq + 1) % lk.modulus, replay := e.replay ++ [kept],
               used := Tbl.set 0 vc (Tbl.get 0 vc e.used + 1) e.used, tx := Tbl.set ({} : TxVc) r q' e.tx },
     some { flit := f, msg := m, last := last, req := r })

/-- R276: send the next flit of a replay. -/
def LinkEnd.sendReplay (lk : LinkKind) (e : LinkEnd) : LinkEnd × Option Flit :=
  match e.resend with
  | [] => (e, none)
  | x :: rest =>
    let (e', f) := e.header lk 0 (Fin.ofNat 4 x.vc) false x.eop x.gc x.seq
    ({ e' with resend := rest }, some f)

/-- R288: one data flit of a transmit port: a replay goes first, else the arbiter's winner. `gcOf` gives the gc of a
requester's next flit. -/
def LinkEnd.transmit (lk : LinkKind) (e : LinkEnd) (may : Bool → Msg → Bool) (gcOf : Nat → Bool) :
    LinkEnd × Option Sent :=
  if ¬ e.carries then (e, none)
  else
    match e.sendReplay lk with
    | (e', some _) => (e', none)
    | (_, none) =>
      let prio (r : Nat) : Nat := if gcOf r then gcPrio (reqVc r) else 0
      match arbitrate 9 prio (e.eligible lk may) e.rrTx with
      | none => (e, none)
      | some (r, rr) => LinkEnd.sendFlit lk { e with rrTx := rr } (gcOf r) r

end Sys2Proof.Machine
end

