-- ==== Sys2Proof/Machine/KtuFife.lean ====
section
/-! DEFINITION. A KTU on its chain (R267 to R315): its link ends, enumeration, forwarding, alarms, the sleep handshake. -/

namespace Sys2Proof.Machine

/-! ### Link ends -/

/-- Run a link operation; a link that leaves L0q or L1 by a Retrain brings the chain back to L0 (R311). -/
def Ktu.linkOp (k : Ktu) (up : Bool) (f : LinkEnd → LinkEnd × LinkActs) : Ktu :=
  let k := k.onLink up f
  let e := k.link up
  if e.state = .retrain ∧ e.lp ≠ 0 then
    let k := k.setLink up { e with lp := 0, sentEnter := none, gotEnter := none }
    if k.pins.straps.leaf then k else k.setLink (!up) ((k.link (!up)).sendState 2)
  else k

/-- A link operation that reports nothing. -/
def Ktu.linkDo (k : Ktu) (up : Bool) (f : LinkEnd → LinkEnd) : Ktu := k.linkOp up (fun e => (f e, {}))

/-- R291: send ENUM downstream with N + 1; at N = 31 the chain is too long. -/
def Ktu.enumDown (k : Ktu) : Ktu :=
  if k.pins.straps.leaf ∨ ¬ k.fife.addrValid ∨ ¬ k.fife.dn.carries then k
  else if addrN k.fife.addr = 31 then { k with fife := { k.fife with overlong := true } }
  else k.sendDn (.enumReq (BitVec.ofNat 20 (k.fife.addr + 1)))

/-- R270, R278, R279, R291, R183: link-up records exchanged. A retrained upstream link leads to a trace resync; a
downstream link that is Active after Training leads to ENUM. -/
def Ktu.linkUp (k : Ktu) (up : Bool) (partnerNext : Nat) (resume : Bool) : Ktu :=
  let was := (k.link up).state
  let k := k.linkOp up (fun e => e.linkUp partnerNext true resume)
  if (k.link up).state = .active then
    if up then (if was = .retrain then k.resyncAll else k)
    else if was = .training then k.enumDown else k
  else k

/-- R313: a write of dn_enable: 0 holds the downstream link in Down, reported as Off. -/
def Ktu.dnEnable (k : Ktu) (v : Bool) : Ktu :=
  let k := k.put KReg.FIFE_CTRL_dn_enable v.toNat
  if k.pins.straps.leaf then k
  else if v then k.linkDo false (fun e => if e.state = .off then { e with state := .down } else e)
  else (k.linkOp false (fun e => e.toDown)).linkDo false (fun e => { e with state := .off })

/-- R277, R313: a Reset command reaches a link that is not held in Down. -/
def Ktu.resetLink (k : Ktu) (up : Bool) : Ktu :=
  k.linkOp up (fun e => if e.state = .off ∨ e.state = .down then (e, {}) else e.toReset)

/-! ### Messages (R287, R295) -/

/-- R295: a message that is malformed, or goes the wrong way for its route, is discarded and counted. -/
def Ktu.malformed (k : Ktu) : Ktu := (k.raise KReg.FIFE_EVT_malformed).count KReg.FIFE_MSGDROP_count

/-- R275, R287: a flit arrives on a link of the KTU; `m` is the message it completes, if it does. What comes from
downstream for Naloder is forwarded; DELAY_REQ is forwarded by its own command, with its correction. -/
def Ktu.flitIn (k : Ktu) (up : Bool) (f : Flit) (m : Option Msg) : Ktu :=
  let acc := ((k.link up).receive fifeKind f).2.accepted
  let k := k.linkOp up (fun e => e.receive fifeKind f)
  if acc ∧ f.eop then
    let (k, drop) := k.packetEnd (rxQueueId up f.vc.val)
    if drop then k.count KReg.FIFE_MSGDROP_count
    else
      match m with
      | none => k
      | some (.delayReq _) => if up then k.malformed else k
      | some msg =>
        if up then (if msg.upstream then k.malformed else k)
        else if msg.upstream then k.forwardUp f.gc msg
        else k.malformed
  else k

/-- R279, R292: what the KTU may send upstream: until it has accepted ENUM, of its own only the ENUM response. -/
def Ktu.mayUp (k : Ktu) (own : Bool) (m : Msg) : Bool :=
  !own || k.fife.mayForward || (match m with
    | .enumResp _ => true
    | _ => false)

/-- R289: the gc of a requester's next upstream flit: its own while the allowance lasts, a forwarded one as it came. -/
def Ktu.gcUp (k : Ktu) (r : Nat) : Bool :=
  if reqOwn r then
    (if reqVc r = 1 then decide (k.fife.cmdLeft > 0) else if reqVc r = 2 then decide (k.fife.frameLeft > 0)
     else decide (k.fife.traceLeft > 0))
  else ((k.fife.up.txq r).msgs.head?.map Prod.fst).getD false

/-- R289: one flit of an allowance is used. -/
def Ktu.spend (k : Ktu) (r : Nat) : Ktu :=
  if ¬ reqOwn r then k
  else if reqVc r = 1 then { k with fife := { k.fife with cmdLeft := k.fife.cmdLeft - 1 } }
  else if reqVc r = 2 then { k with fife := { k.fife with frameLeft := k.fife.frameLeft - 1 } }
  else { k with fife := { k.fife with traceLeft := k.fife.traceLeft - 1 } }

/-- R177, R187, R256: what waits elsewhere is handed to the upstream port when the port has none of its kind. -/
def Ktu.offer (k : Ktu) : Ktu :=
  let k := k.offerFrame
  let k := if (k.fife.up.txq 6).msgs.isEmpty ∧ k.fife.up.lp = 0 then k.formTrace else k
  if (k.fife.up.txq 8).msgs.isEmpty ∧ k.fife.up.lp = 0 then k.dumpStep else k

/-- R288: the upstream port sends a data flit. -/
def Ktu.transmitUp (k : Ktu) : Ktu :=
  if ¬ k.fife.up.carries then k
  else
    let k := k.offer
    match k.fife.up.transmit fifeKind k.mayUp k.gcUp with
    | (e, none) => k.setLink true e
    | (e, some s) =>
      let k := (k.setLink true e).spend s.req
      match s.msg with
      | .tailDump _ t => if s.last then k.dumpSent t.unit.toNat else k
      | _ => k

/-- R288: the downstream port sends a data flit. Its own ENUM carries gc = 0. -/
def Ktu.transmitDn (k : Ktu) : Ktu :=
  let gc (r : Nat) : Bool := ((k.fife.dn.txq r).msgs.head?.map Prod.fst).getD false
  k.setLink false (k.fife.dn.transmit fifeKind (fun _ _ => true) gc).1

/-- A port of the KTU sends a data flit. -/
def Ktu.transmit (k : Ktu) (up : Bool) : Ktu :=
  if up then k.transmitUp else if k.pins.straps.leaf then k else k.transmitDn

/-! ### Enumeration (R291, R292, R297) -/

/-- R297: the downstream code of an ENUM response. -/
def Ktu.dnCode (k : Ktu) : Nat :=
  if k.pins.straps.leaf ∨ ¬ k.bit KReg.FIFE_CTRL_dn_enable then 3
  else match k.fife.dn.state with
    | .down => 0
    | .training => 1
    | .retrain => 1
    | .reset => 1
    | .active => 2
    | .retry => 2
    | .off => 3

/-- R297: the ENUM response. -/
def Ktu.enumInfo (k : Ktu) : EnumInfo :=
  { addr := k.addr, revision := BitVec.ofNat 16 (k.get KReg.ID_revision), profile := BitVec.ofNat 2 k.pins.straps.profile,
    leaf := k.pins.straps.leaf, downstream := BitVec.ofNat 2 k.dnCode, overlong := k.fife.overlong,
    slots := BitVec.ofNat 2 (k.get KReg.FIFE_ALLOW_slots), uid := k.pins.straps.uid,
    schema := BitVec.ofNat 16 k.schemaWord }

/-- R283, R284: a held pair is sent under the address that is now valid. -/
def Ktu.readdress (k : Ktu) (p : BitVec 112) : BitVec 112 :=
  let f := alarmFields p
  alarmPair f.kind k.fife.addr f.scope f.sub f.code f.arg

/-- R284: the pairs held for an address are sent. -/
def Ktu.releaseAlarms (k : Ktu) : Ktu :=
  let held := k.fife.heldAlarms
  held.foldl (fun k p => k.sendAlarm (k.readdress p)) { k with fife := { k.fife with heldAlarms := [] } }

/-- R279, R291, R292: the KTU accepts ENUM on its upstream port. -/
def Ktu.acceptEnum (k : Ktu) (addr : BitVec 20) : Ktu :=
  let a := addr.toNat
  let k := if k.fife.addrEver ∧ k.fife.addr ≠ a then k.discardFrames else k.resendStored
  let k := { k with fife := { k.fife with addr := a, addrValid := true, addrEver := true, mayForward := true } }
  (k.sendUp (.enumResp k.enumInfo)).releaseAlarms.enumDown

/-! ### Alarms (R114, R194, R195, R285) -/

/-- R114: an abort names partitions of this die. -/
def Ktu.abort (k : Ktu) (scope : Nat) : Ktu :=
  let bits := BitVec.ofNat 17 (scope &&& k.get KReg.FIFE_MEMBER_member)
  if bits = 0 then k
  else if k.pins.abortAck then { k with pins := { k.pins with abortHeld := k.pins.abortHeld ||| bits } }
  else Ktu.pend k { k with pins := { k.pins with abort := true, abortPart := k.pins.abortPart ||| bits } }

/-- The scope a halt pair names: its one bit (R283). -/
def scopeIndex (mask : Nat) : Nat := ((List.range 17).find? (fun i => bitOf mask i)).getD 0

/-- R285: the table of pairs accepted: those of the last millisecond of elapsed time, 32 at most. -/
def recentAlarms (now : Nat) (l : List AlarmSeen) : List AlarmSeen :=
  (l.filter (fun a => decide (now ≤ a.at_ + 1000000 * 2 ^ 32))).take 32

/-- R285: a pair arrives on a link of the KTU: checked, looked up, acted on and forwarded out of the other port. -/
def Ktu.alarmIn (k : Ktu) (up : Bool) (p : BitVec 112) : Ktu :=
  let f := alarmFields p
  if ¬ f.crcOk then k.raise KReg.FIFE_EVT_alarm_bad
  else if f.kind ≥ 4 then k
  else
    let l := recentAlarms k.time.elapsed k.fife.seen
    if l.any (fun a => a.kind = f.kind ∧ a.origin = f.origin ∧ a.scope = f.scope ∧ a.arg = f.arg) then
      k.count KReg.FIFE_ALARM_DUP_count
    else
      let a : AlarmSeen := { kind := f.kind, origin := f.origin, scope := f.scope, arg := f.arg, at_ := k.time.elapsed }
      let k := { k with fife := { k.fife with seen := (a :: l).take 32 } }
      let k := if f.kind = 1 then k.abort f.scope
        else if f.kind = 2 then k.takeHalt (scopeIndex f.scope) f.arg f.origin f.sub
        else k
      if up then (if k.pins.straps.leaf then k else k.setLink false (k.fife.dn.sendPair p))
      else k.setLink true (k.fife.up.sendPair p)

/-! ### Power states (R307 to R309) -/

/-- R307, R311: a SLEEP_PROPOSE reaches the KTU; it is forwarded along the chain. -/
def Ktu.sleepPropose (k : Ktu) (phase target : BitVec 8) (tick : BitVec 48) : Ktu :=
  let k := k.forwardDn (.sleepPropose phase target tick)
  if phase = 0 then
    let src := k.wakeSources
    let ok := decide (src = 0)
    let k := { k with fife := { k.fife with
      sleepPhase := if ok then 1 else 0, sleepTarget := target.toNat, sleepTick := tick.toNat } }
    k.sendUp (.sleepAgree k.addr (!ok) (BitVec.ofNat 8 src) tick)
  else if phase = 1 then
    if k.fife.sleepPhase = 1 ∧ k.fife.sleepTick = tick.toNat then
      { k with fife := { k.fife with sleepPhase := 2 } }
    else k
  else if phase = 2 then { k with fife := { k.fife with sleepPhase := 0, sleepTick := 0 } }
  else k.malformed

/-- R308, R309: a link-state pair arrives; stay is sent on over the other link. -/
def Ktu.statePair (k : Ktu) (up : Bool) (code : Nat) : Ktu :=
  let k := k.setLink up ((k.link up).gotState code)
  if code = 2 ∧ ¬ k.pins.straps.leaf then
    k.setLink (!up) ((k.link (!up)).sendState 2)
  else k

end Sys2Proof.Machine
end

