-- ==== Sys2Proof/Machine/KtuRegs.lean ====
section
/-! DEFINITION. Access to a KTU's registers on its two paths (R14, R110, R303, R672 to R688): what a word reads as, who may
read and write a field, and what a write does. -/

namespace Sys2Proof.Machine

/-! ### Indirect ports and latches (R156, R675, R676) -/

/-- R676: the index registers that each path keeps for itself. -/
def indexFields : List Fld :=
  [KReg.PMUi_IDX_counter, KReg.SMAP_IDX_series, KReg.TAIL_IDX_unit, KReg.TAIL_IDX_hdr, KReg.TAIL_IDX_slot,
   KReg.CODEC_TBL_IDX_table, KReg.CODEC_TBL_IDX_staged, KReg.CODEC_TBL_IDX_word, KReg.QOCC_IDX_id, KReg.DIG_IDX_word,
   KReg.DIG_IDX_region]

/-- R676: a path's copy of an index field. -/
def Ktu.pget (k : Ktu) (p : Path) (f : Fld) (i : Nat := 0) : Nat :=
  match p with
  | .loc => k.regs.get f i
  | .remote => k.remoteIdx.get f i

/-- R676: write a path's copy of an index field. -/
def Ktu.pput (k : Ktu) (p : Path) (f : Fld) (v : Nat) (i : Nat := 0) : Ktu :=
  match p with
  | .loc => k.put f v i
  | .remote => { k with remoteIdx := k.remoteIdx.set f v i }

/-- R97, R136, R156, R176: the words that a read of a _LO word latches. -/
def latchedBy (a : Nat) : List Nat :=
  if a = 0x1008 ∨ a = 0x1088 then [a + 4, a + 8]
  else if 0x490 ≤ a ∧ a < 0x4D0 ∧ a % 16 = 0 then [a + 4, a + 8, a + 12]
  else if a = 0x1808 ∨ a = 0x800C then [a + 4]
  else if 0x2000 ≤ a ∧ a < 0x2400 ∧ a % 8 = 0 then [a + 4]
  else if 0x2800 ≤ a ∧ a < 0x3000 ∧ a % 64 ≥ 8 ∧ a % 8 = 0 then [a + 4]
  else if 0x4000 ≤ a ∧ a < 0x8000 ∧ (a % 64 = 8 ∨ a % 64 = 0x34) then [a + 4]
  else if 0xA100 ≤ a ∧ a < 0xA210 ∧ a % 16 = 4 then [a + 4]
  else []

/-- R156: what identifies a latched word: its address, and the element that an index selects. -/
def Ktu.latchKey (k : Ktu) (p : Path) (a : Nat) : Nat :=
  let idx :=
    if 0x4000 ≤ a ∧ a < 0x8000 ∧ a % 64 = 0x38 then k.pget p KReg.PMUi_IDX_counter ((a - 0x4000) / 64)
    else if a = 0x8010 then
      k.pget p KReg.TAIL_IDX_unit * 64 + k.pget p KReg.TAIL_IDX_hdr * 32 + k.pget p KReg.TAIL_IDX_slot
    else 0
  a * 2 ^ 20 + idx

/-- The latch of a path. -/
def Ktu.latch (k : Ktu) : Path → Tbl Nat
  | .loc => k.latchL
  | .remote => k.latchR

/-! ### What a field reads as -/

/-- The value of a counter. -/
def Ktu.cntOf (k : Ktu) (id : Nat) : Nat := Tbl.get 0 id k.cnt.cnt

/-- R202: the word of a Tail ring that a path selects. -/
def Ktu.tailWord (k : Ktu) (p : Path) : Nat :=
  let r := k.ring (k.pget p KReg.TAIL_IDX_unit)
  let s := k.pget p KReg.TAIL_IDX_slot
  if k.pget p KReg.TAIL_IDX_hdr = 1 then (if s % 2 = 0 then r.newestNs else r.header1) else Tbl.get 0 s r.recs

/-- R264: the code table that a path selects. -/
def Ktu.tableSel (k : Ktu) (p : Path) : CodeTable :=
  let t := k.pget p KReg.CODEC_TBL_IDX_table
  if k.pget p KReg.CODEC_TBL_IDX_staged = 1 ∧ t ≥ 2 then Tbl.get ({} : CodeTable) t k.codec.stagedTables else k.table t

/-- R264, R265: a word of a table's lengths, 4 bits each, class 8w in the low bits. -/
def lengthsWord (lens : List Nat) (w : Nat) : Nat :=
  ((lens.drop (8 * w)).take 8).foldr (fun l acc => l % 16 + 16 * acc) 0

/-- R558: a word of the digest region that a path selects. -/
def Ktu.digWord (k : Ktu) (p : Path) : Nat :=
  let r := k.pget p KReg.DIG_IDX_region
  let g := k.region r
  match k.pget p KReg.DIG_IDX_word with
  | 0 => g.phase * 2 ^ 30 + k.get KReg.DIG_OWNr_owner r
  | 1 => g.epoch
  | 2 => g.close % 2 ^ 32
  | 3 => g.close / 2 ^ 32
  | 4 => g.lines % 2 ^ 32
  | 5 => g.lines / 2 ^ 32
  | _ => 0

/-- R153, R164: the series-map entry a path selects, as last written. -/
def Ktu.mapEntry (k : Ktu) (p : Path) : Nat :=
  let s := k.pget p KReg.SMAP_IDX_series
  if s < 128 then 0 else (Tbl.find? s k.cnt.smapStaged).getD (Tbl.get 0 s k.cnt.smap)

/-- The state field of a link end (R313). -/
def LinkState.num : LinkState → Nat
  | .down => 0
  | .training => 1
  | .active => 2
  | .retry => 3
  | .retrain => 4
  | .reset => 5
  | .off => 6

/-- The state field of a halt context (R204). -/
def HaltState.num : HaltState → Nat
  | .idle => 0
  | .armed => 1
  | .halting => 2
  | .halted => 3
  | .incomplete => 4
  | .resuming => 5

/-- One truth value as a bit. -/
def bit1 (b : Bool) : Nat := if b then 1 else 0

/-- Time registers (R97, R98): `none` for a field that is not one of those computed here. -/
def Ktu.viewTime (k : Ktu) (f : Fld) (i : Nat) : Option Nat :=
  let b := if i = 0 then k.time.a else k.time.b
  if f = KReg.TBx_STATUS_step_pending then some (bit1 (b.state = .refusing && b.pending.isSome))
  else if f = KReg.TBx_STATUS_delay_valid then some (bit1 b.main.delayValid)
  else if f = KReg.TBx_STATUS_state then some b.state.num
  else if f = KReg.TBx_TIME_LO_ns_lo then some b.ns
  else if f = KReg.TBx_TIME_HI_ns_hi then some (b.ns / 2 ^ 32)
  else if f = KReg.TBx_TIME_FRAC_frac then some (b.value / 65536 % 65536)
  else if f = KReg.TBx_ADJ_adj then some (fieldOf 32 b.adj)
  else if f = KReg.TBx_OFFSET_offset then some (fieldOf 32 b.offset)
  else if f = KReg.TBx_DELAY_d_filt then some (fieldOf 32 b.main.dFilt)
  else if f = KReg.TIME_DIFF_diff then some (fieldOf 32 k.time.diff)
  else none

/-- Identity, straps and integration registers (R133 to R136, R680). -/
def Ktu.viewPins (k : Ktu) (f : Fld) : Option Nat :=
  let s := k.pins.straps
  let dom (g : Fin 4 → Bool) : Nat := (List.range 4).foldl (fun m d => if g (Fin.ofNat 4 d) then setBit m d else m) 0
  if f = KReg.UID_LO_uid_lo then some s.uid.toNat
  else if f = KReg.UID_HI_uid_hi then some (s.uid.toNat / 2 ^ 32)
  else if f = KReg.STRAP_ncores then some s.nCores.val
  else if f = KReg.STRAP_dig_dom then some s.digDom.val
  else if f = KReg.STRAP_pat_dom then some s.patDom.val
  else if f = KReg.STRAP_dbg_dom then some s.dbgDom.val
  else if f = KReg.STRAP_dom_en then some s.domEn.toNat
  else if f = KReg.STRAP_profile then some s.profile.val
  else if f = KReg.STRAP_leaf then some (bit1 s.leaf)
  else if f = KReg.HOSTDOM_masked then some (dom k.masked)
  else if f = KReg.HOSTDOM_pg_state then some k.pins.pgood.toNat
  else if f = KReg.HOSTDOM_rst_state then some (~~~k.pins.rstN).toNat
  else if f = KReg.ABORT_pending then some (bit1 (k.pins.abortHeld != 0))
  else if f = KReg.ABORT_part then some k.pins.abortPart.toNat
  else if f = KReg.SCHEMA_profile then some s.profile.val
  else none

/-- Counter registers (R164 to R166). -/
def Ktu.viewCounters (k : Ktu) (p : Path) (f : Fld) (i : Nat) : Option Nat :=
  if f = KReg.AON_U_LOk_val_lo then some (k.cntOf (cntU i))
  else if f = KReg.AON_U_HIk_val_hi then some (k.cntOf (cntU i) / 2 ^ 32)
  else if f = KReg.AON_E_LOk_val_lo then some (k.cntOf (cntE i))
  else if f = KReg.AON_E_HIk_val_hi then some (k.cntOf (cntE i) / 2 ^ 32)
  else if 0x2808 ≤ f.base ∧ f.base < 0x2840 then
    let id := cntSlot i ((f.base - 0x2808) / 8)
    some (if f.base % 8 = 0 then k.cntOf id else k.cntOf id / 2 ^ 32)
  else if f = KReg.SMAP_DATA_class then some (k.mapEntry p / 2 ^ 14)
  else if f = KReg.SMAP_DATA_source then some (k.mapEntry p)
  else if f = KReg.CNT_STATUS_carry then some (bit1 k.remainderHeld)
  else if f = KReg.PMUi_STATUS_denied then
    some (bit1 (!k.granted (k.get KReg.PMUi_CTRL_owner i) (k.get KReg.PMUi_CTRL_domain i)))
  else if f = KReg.PMUi_STATUS_staged then
    some (bit1 (!(k.stagedIn (0x4000 + 64 * i) (0x4040 + 64 * i)).isEmpty || k.cnt.clears.contains i))
  else if f = KReg.PMUi_CYC_LO_val_lo then some (k.cntOf (cntPmu i 8))
  else if f = KReg.PMUi_CYC_HI_val_hi then some (k.cntOf (cntPmu i 8) / 2 ^ 32)
  else if f = KReg.PMUi_VAL_LO_val_lo then some (k.cntOf (cntPmu i (k.pget p KReg.PMUi_IDX_counter i)))
  else if f = KReg.PMUi_VAL_HI_val_hi then some (k.cntOf (cntPmu i (k.pget p KReg.PMUi_IDX_counter i)) / 2 ^ 32)
  else none

/-- Tail, trace and halt registers (R202 to R204). -/
def Ktu.viewHost (k : Ktu) (p : Path) (f : Fld) (i : Nat) : Option Nat :=
  let c := k.halt i
  if f = KReg.TAIL_DATA_LO_data_lo then some (k.tailWord p)
  else if f = KReg.TAIL_DATA_HI_data_hi then some (k.tailWord p / 2 ^ 32)
  else if f = KReg.TRC_STATUS_occupancy then some (min k.trace.funnel.length 0xFFF)
  else if f = KReg.HALT_Sk_STATE_origin_core then some (if c.state = .idle then 0 else c.originCore)
  else if f = KReg.HALT_Sk_STATE_origin then some c.origin
  else if f = KReg.HALT_Sk_STATE_state then some c.state.num
  else if f = KReg.HALT_Sk_H_LO_h_lo then some c.h
  else if f = KReg.HALT_Sk_H_HI_h_hi then some (c.h / 2 ^ 32)
  else if f = KReg.HALT_Sk_MISSING_domains then some (if c.state = .idle then 0 else k.missingDomains i)
  else if f = KReg.HALT_Sk_MISSING_cores then some (if c.state = .idle then 0 else k.missingCores i)
  else none

/-- Codec, link, queue, digest, pattern and error registers. -/
def Ktu.viewLink (k : Ktu) (p : Path) (f : Fld) : Option Nat :=
  let q := k.pget p KReg.QOCC_IDX_id
  let act := k.check.runs.find? (·.active)
  if f = KReg.RESET_STATUS_pending then some (bit1 (k.resetPending != 0))
  else if f = KReg.CODEC_STATUS_carry_held then some (bit1 (!k.codec.carry.isEmpty))
  else if f = KReg.CODEC_STATUS_ratio_now then some (k.get KReg.CODEC_CTRL_ratio)
  else if f = KReg.CODEC_STATUS_table_now then some (k.get KReg.CODEC_CTRL_table_id)
  else if f = KReg.CODEC_TBL_DATA_lengths then
    some (lengthsWord (k.tableSel p).lens (k.pget p KReg.CODEC_TBL_IDX_word))
  else if f = KReg.CODEC_TBL_GEN_gen then some (k.tableSel p).gen
  else if f = KReg.FIFE_STATUS_chain_overlong then some (bit1 k.fife.overlong)
  else if f = KReg.FIFE_STATUS_addr_valid then some (bit1 k.fife.addrValid)
  else if f = KReg.FIFE_STATUS_wake_pending then some (bit1 (k.wakeSources != 0))
  else if f = KReg.FIFE_STATUS_lp_state then some k.fife.up.lp
  else if f = KReg.FIFE_STATUS_sleep_phase then some k.fife.sleepPhase
  else if f = KReg.FIFE_STATUS_dn_state then some k.fife.dn.state.num
  else if f = KReg.FIFE_STATUS_up_state then some k.fife.up.state.num
  else if f = KReg.FIFE_ADDR_addr then some k.fife.addr
  else if f = KReg.Q_STATUS_ovr_any then
    some (bit1 (k.get KReg.QOVR_LO_ovr != 0 || k.get KReg.QOVR_HI_ovr != 0))
  else if f = KReg.QOCC_DATA_flush_pending then some (bit1 (k.queueCtl q).flushPending)
  else if f = KReg.QOCC_DATA_full then some (bit1 (queueNamed q && decide (k.queueLen q ≥ queueDepth q)))
  else if f = KReg.QOCC_DATA_empty then some (bit1 (k.queueLen q == 0))
  else if f = KReg.QOCC_DATA_occupancy then some (k.queueLen q)
  else if f = KReg.DIG_DATA_data then some (k.digWord p)
  else if f = KReg.PAT_STATUS_running then some (bit1 act.isSome)
  else if f = KReg.PAT_STATUS_domain then some ((act.map (fun r => r.run.domain.val)).getD 0)
  else if f = KReg.PAT_STATUS_queued then some (k.check.runs.countP (fun r => !r.active))
  else if f = KReg.PAT_STATUS_word then some ((act.map (·.index)).getD 0)
  else if f = KReg.IRQ_SRC_src then some k.irqSrc
  else none

/-- R14: what a field reads as on a path: staged values for RWT fields, zero for WO fields, index fields per path. -/
def Ktu.view (k : Ktu) (p : Path) (f : Fld) (i : Nat) : Nat :=
  let v :=
    match k.viewTime f i with
    | some v => v
    | none =>
      match k.viewPins f with
      | some v => v
      | none =>
        match k.viewCounters p f i with
        | some v => v
        | none =>
          match k.viewHost p f i with
          | some v => v
          | none =>
            match k.viewLink p f with
            | some v => v
            | none =>
              if indexFields.contains f then k.pget p f i
              else match f.acc with
                | .wo => 0
                | .rwt => (k.staged? f i).getD (k.get f i)
                | _ => k.get f i
  v % 2 ^ f.width

/-! ### Owners (R110, R303, R672, R685) -/

/-- R685: an owner is the interrupt owner. -/
def Ktu.irqOwner (k : Ktu) (o : Nat) : Bool :=
  let x := k.get KReg.IRQ_CFG_owner
  x == 17 || x == o

/-- R672, R675: an owner may read a field. -/
def Ktu.mayRead (k : Ktu) (p : Path) (o : Nat) (f : Fld) (i : Nat) : Bool :=
  if o = fleet then true
  else if 0x2000 ≤ f.base ∧ f.base < 0x2400 then bitOf (k.get KReg.AON_SHARE_read_grant) o
  else if 0x2800 ≤ f.base ∧ f.base < 0x3000 then
    f != KReg.SLOTg_CTRL_owner && k.get KReg.SLOTg_CTRL_owner i == o
  else if 0x2400 ≤ f.base ∧ f.base < 0x4000 then false
  else if 0x4000 ≤ f.base ∧ f.base < 0x8000 then
    f != KReg.PMUi_CTRL_owner && k.get KReg.PMUi_CTRL_owner i == o
  else if f.base = 0x800C ∨ f.base = 0x8010 then k.tailOwner (k.pget p KReg.TAIL_IDX_unit) == o
  else if f.base = 0xE00C then k.get KReg.DIG_OWNr_owner (k.pget p KReg.DIG_IDX_region) == o
  else if 0xA100 ≤ f.base ∧ f.base < 0xA110 then i == o
  else true

/-- R110, R203, R204, R559, R672, R685: an owner other than *fleet* may write a field. -/
def Ktu.mayWrite (k : Ktu) (o : Nat) (f : Fld) (i : Nat) : Bool :=
  if o = fleet then true
  else if f = KReg.SCRATCH_data then true
  else if f.base = 0x484 then k.irqOwner o
  else if f.base = 0xF004 ∨ f.base = 0xF008 ∨ f = KReg.IRQ_CFG_mode then k.irqOwner o
  else if 0x2800 ≤ f.base ∧ f.base < 0x3000 then
    f != KReg.SLOTg_CTRL_owner && k.get KReg.SLOTg_CTRL_owner i == o
  else if 0x4000 ≤ f.base ∧ f.base < 0x8000 then
    f != KReg.PMUi_CTRL_owner && k.get KReg.PMUi_CTRL_owner i == o
  else if f.base = 0x8008 ∨ f.base = 0x8014 ∨ f.base = 0xE008 then true
  else if f = KReg.TRC_SRCs_enable then k.srcOwner i == o
  else if f = KReg.HALT_COREc_halt_en ∨ f = KReg.HALT_COREc_bkpt_en then k.get KReg.HALT_COREc_owner i == o
  else if f = KReg.HALT_CMD_req then true
  else if f.base = 0xA10C then i == o
  else if f.base = 0xE210 ∨ f.base = 0xE214 then k.get KReg.PAT_DOMd_approver i == o
  else false

/-- R674: a write of a value to a field would have an effect. -/
def Ktu.writeEffect (k : Ktu) (p : Path) (f : Fld) (i v : Nat) : Bool :=
  match f.acc with
  | .ro => false
  | .rc => false
  | .rw => k.view p f i != v
  | .rwt => k.view p f i != v
  | .w1c => v != 0
  | .w1s => v != 0
  | .wo => v != 0

/-! ### Reads (R14, R110, R156, R303) -/

/-- The part of the word at an address that a field gives an owner, and whether it is refused. -/
def Ktu.readPart (k : Ktu) (p : Path) (o a : Nat) (x : Fld × Nat) : Nat × Bool :=
  let (f, i) := x
  if k.mayRead p o f i then
    (match Tbl.find? (k.latchKey p a) (k.latch p) with
     | some w => f.part w * 2 ^ f.lo
     | none => k.view p f i * 2 ^ f.lo, false)
  else (0, true)

/-- The fields of the word at an address. -/
def wordFields (a : Nat) : List (Fld × Nat) := Fld.at a KReg.table

/-- What the word at an address reads as for an owner on a path, and whether the read is refused. -/
def Ktu.peek (k : Ktu) (p : Path) (o a : Nat) : Nat × Bool :=
  (wordFields a).foldl (fun acc x =>
    let (v, r) := k.readPart p o a x
    (acc.1 + v, acc.2 || r)) (0, false)

/-- The word that every field at an address gives now, whatever the owner: what a latch takes. -/
def Ktu.live (k : Ktu) (p : Path) (a : Nat) : Nat :=
  (wordFields a).foldl (fun acc (x : Fld × Nat) => acc + k.view p x.1 x.2 * 2 ^ x.1.lo) 0

/-- R14: a read clears the RC fields it returns. -/
def Ktu.readClear (k : Ktu) (p : Path) (o a : Nat) : Ktu :=
  (wordFields a).foldl (fun k x => if x.1.acc = .rc ∧ k.mayRead p o x.1 x.2 then k.put x.1 0 x.2 else k) k

/-- R156: a read of a _LO word latches the words that belong to it. -/
def Ktu.readLatch (k : Ktu) (p : Path) (o a : Nat) : Ktu :=
  match latchedBy a with
  | [] => k
  | l =>
    if (k.peek p o a).2 then k
    else
      let t := l.foldl (fun t x => Tbl.insert (k.latchKey p x) (k.live p x) t) []
      match p with
      | .loc => { k with latchL := t }
      | .remote => { k with latchR := t }

/-- R677: count a refused access. -/
def Ktu.refusal (k : Ktu) (p : Path) (refused : Bool) : Ktu :=
  if ¬ refused then k
  else match p with
    | .loc => k.count KReg.ERR_REGREF_local
    | .remote => k.count KReg.ERR_REGREF_remote

/-- One word read: its value, whether it was refused, and what the read does. -/
def Ktu.readWord (k : Ktu) (p : Path) (o a : Nat) : Ktu × Nat × Bool :=
  let (v, r) := k.peek p o a
  (((k.readLatch p o a).readClear p o a).refusal p r, v, r)

/-! ### Writes (R14, R674, and the rules of the fields) -/

/-- R14: stage a value. -/
def Ktu.stage (k : Ktu) (f : Fld) (v : Nat) (i : Nat := 0) : Ktu :=
  { k with cnt := { k.cnt with staged := Tbl.insert (f.key i) (v % 2 ^ f.width) k.cnt.staged } }

/-- R153: stage a series-map entry; series 0 to 127 have none. -/
def Ktu.stageMap (k : Ktu) (s entry : Nat) : Ktu :=
  if s < 128 then k else { k with cnt := { k.cnt with smapStaged := Tbl.insert s entry k.cnt.smapStaged } }

/-- R547: a window of domain d was written. -/
def Ktu.markWindow (k : Ktu) (d : Nat) : Ktu :=
  { k with check := { k.check with winNext := d :: k.check.winNext.filter (· ≠ d) } }

/-- A write of an RW field. -/
def Ktu.writeRw (k : Ktu) (p : Path) (f : Fld) (v i : Nat) : Ktu :=
  if indexFields.contains f then k.pput p f v i
  else if f = KReg.TICK_CTRL_run then k.writeRun (v != 0)
  else if f = KReg.TICK_PERIOD_period_us then k.writePeriod v
  else if f = KReg.TBx_CTRL_hold then k.writeHold (if i = 0 then .baseA else .baseB) (v != 0)
  else if f = KReg.TBx_CTRL_enable then k.writeEnable (if i = 0 then .baseA else .baseB) (v != 0)
  else if f = KReg.TIME_SEL_tick_src then k.writeTickSrc v
  else if f = KReg.IRQ_CFG_owner then (if v ≤ 17 then k.put f v else k)
  else if f = KReg.FIFE_CTRL_dn_enable then k.dnEnable (v != 0)
  else if f.base = 0xE210 ∨ f.base = 0xE214 then (k.put f v i).markWindow i
  else k.put f v i

/-- A write of a field, by its access code. WO fields act with the rest of their word (`Ktu.writeCmd`). -/
def Ktu.writeField (k : Ktu) (p : Path) (f : Fld) (v i : Nat) : Ktu :=
  match f.acc with
  | .ro => k
  | .rc => k
  | .wo => k
  | .rw => k.writeRw p f v i
  | .w1c => k.put f (k.get f i - (k.get f i &&& v)) i
  | .w1s => k.put f (k.get f i ||| v) i
  | .rwt =>
    if f = KReg.SMAP_DATA_class then k.stageMap (k.pget p KReg.SMAP_IDX_series) (v * 2 ^ 14 + k.mapEntry p % 2 ^ 14)
    else if f = KReg.SMAP_DATA_source then
      k.stageMap (k.pget p KReg.SMAP_IDX_series) (k.mapEntry p / 2 ^ 14 * 2 ^ 14 + v)
    else if f = KReg.FIFE_ALLOW_slots ∧ v = 3 then k
    else if ownerFields.contains f ∧ v > 16 then k
    else k.stage f v i

/-- R682: bits 0 and 1 of a reset command stage the boundary parts. -/
def Ktu.resetCounters (k : Ktu) : Ktu :=
  { k with cnt := { k.cnt with clears := List.range 256, slotClears := List.range 32 },
           resetPending := k.resetPending ||| 1 }

/-- R682: an owner change to *fleet* is staged in every owner field. -/
def Ktu.resetOwners (k : Ktu) : Ktu :=
  let k := ownerFields.foldl (fun k f => (List.range f.count).foldl (fun k i => k.stage f fleet i) k) k
  { k with resetPending := k.resetPending ||| 2 }

/-- R682: both bases enter Free. -/
def Ktu.resetTime (k : Ktu) : Ktu :=
  (k.onTb .baseA (fun _ b => b.toFree)).onTb .baseB (fun _ b => b.toFree)

/-- R682: both links enter Reset. -/
def Ktu.resetFife (k : Ktu) : Ktu := (k.resetLink true).resetLink false

/-- R682: with no part waiting, the command is done. -/
def Ktu.resetFinish (k : Ktu) : Ktu := if k.resetPending = 0 then k.raise KReg.RESET_STATUS_done else k

/-- R681, R682: a write of KTU_RESET_CMD. -/
def Ktu.resetCmd (k : Ktu) (w : Nat) : Ktu :=
  if KReg.RESET_CMD_key.part w ≠ 0x5A ∨ w % 16 = 0 then k
  else
    let k := if bitOf w 0 then k.resetCounters else k
    let k := if bitOf w 1 then k.resetOwners else k
    let k := if bitOf w 2 then k.resetTime else k
    let k := if bitOf w 3 then k.resetFife else k
    k.resetFinish

/-- R135: force_clear lowers ktu_abort without an acknowledgement. -/
def Ktu.forceClear (k : Ktu) : Ktu := { k with pins := { k.pins with abort := false, abortPart := 0 } }

/-- R688: commands execute again. -/
def Ktu.revalidate (k : Ktu) : Ktu := k.put KReg.ERR_STATUS_hist_invalid 0

/-- R306: KTU_FIFE_CTRL.wake. -/
def Ktu.wakeOnce (k : Ktu) : Ktu := { k with pins := { k.pins with wakeOnce := true } }

/-- R202: KTU_TAIL_CMD. -/
def Ktu.tailCmd (k : Ktu) (o w : Nat) : Ktu :=
  let first := KReg.TAIL_CMD_first.part w
  let last := KReg.TAIL_CMD_last.part w
  match KReg.TAIL_CMD_op.part w with
  | 1 => k.tailFreeze o first last
  | 2 => k.tailRelease o first last
  | 3 => k.tailClear o first last
  | _ => k

/-- R313: the command bits of KTU_FIFE_CTRL. -/
def Ktu.fifeCtrl (k : Ktu) (w : Nat) : Ktu :=
  let k := if bitOf w 5 then k.resetLink true else k
  let k := if bitOf w 4 then k.resetLink false else k
  let k := if bitOf w 3 then k.linkOp true (fun e => e.toRetrain) else k
  let k := if bitOf w 2 then k.linkOp false (fun e => e.toRetrain) else k
  if bitOf w 1 then k.wakeOnce else k

/-- What the WO fields of a word do, for an owner that may write them. -/
def Ktu.writeCmd (k : Ktu) (o a w : Nat) : Ktu :=
  let may (f : Fld) (i : Nat) : Bool := k.mayWrite o f i
  if a = 0x400 then (if may KReg.RESET_CMD_key 0 then k.resetCmd w else k)
  else if a = 0x488 then (if may KReg.ABORT_force_clear 0 ∧ bitOf w 31 then k.forceClear else k)
  else if a = 0x1048 ∨ a = 0x10C8 then
    (if may KReg.TBx_STEP_CMD_apply 0 then
      k.stepCmd (if a = 0x1048 then .baseA else .baseB) (bitOf w 0) (bitOf w 1) else k)
  else if 0x4000 ≤ a ∧ a < 0x8000 ∧ a % 64 = 0x3C then
    let i := (a - 0x4000) / 64
    (if may KReg.PMUi_CMD_clear i ∧ bitOf w 0 then k.stageClear i else k)
  else if a = 0x8014 then k.tailCmd o w
  else if a = 0x9090 then (if may KReg.TRC_CMD_resync 0 ∧ bitOf w 0 then k.resyncAll else k)
  else if a = 0xA200 then (if bitOf w 0 then k.startHalt o 0x1F else k)
  else if a = 0xC000 then (if may KReg.FIFE_CTRL_wake 0 then k.fifeCtrl w else k)
  else if a = 0xD018 then
    (if may KReg.QFLUSH_go 0 ∧ bitOf w 31 then k.flushQueue (KReg.QFLUSH_id.part w) else k)
  else if a = 0xF020 then (if may KReg.ERR_CMD_hist_revalidate 0 ∧ bitOf w 0 then k.revalidate else k)
  else k

/-- R687: once every bit of KTU_ERR_STATUS is clear, the next error is again the first. -/
def Ktu.errRearm (k : Ktu) : Ktu :=
  if (wordFields 0xF010).all (fun x => k.get x.1 x.2 = 0) then { k with errHeld := false } else k

/-- R674: a write word is refused. -/
def Ktu.writeRefused (k : Ktu) (p : Path) (o a w : Nat) : Bool :=
  (wordFields a).any (fun x => !k.mayWrite o x.1 x.2 && k.writeEffect p x.1 x.2 (x.1.part w))

/-- One word written: the owned fields take effect whether or not the word is refused. -/
def Ktu.writeWord (k : Ktu) (p : Path) (o a w : Nat) : Ktu × Bool :=
  let r := k.writeRefused p o a w
  let owned := (wordFields a).filter (fun x => k.mayWrite o x.1 x.2)
  let k' := owned.foldl (fun k x => k.writeField p x.1 (x.1.part w) x.2) k
  ((k'.writeCmd o a w).errRearm.refusal p r, r)

/-! ### The local port (R110, R130) -/

/-- R110, R130: a local read under an owner. -/
def Ktu.localRead (k : Ktu) (o : Fin 16) (a : Nat) : Ktu :=
  if ¬ k.pins.ready then { k.count KReg.ERR_REGREF_local with lastRead := some (0, true) }
  else
    let (k, v, r) := k.readWord .loc o.val a
    { k with lastRead := some (BitVec.ofNat 32 v, r) }

/-- R110, R130: a local write under an owner. -/
def Ktu.localWrite (k : Ktu) (o : Fin 16) (a : Nat) (w : Word) : Ktu :=
  if ¬ k.pins.ready then { k.count KReg.ERR_REGREF_local with lastRead := some (0, true) }
  else
    let (k, r) := k.writeWord .loc o.val a w.toNat
    { k with lastRead := some (0, r) }

/-- The path of a writer. -/
def pathOf : Writer → Path
  | .loc _ => .loc
  | .remote _ => .remote

/-- The owner a writer acts as. -/
def ownerOf : Writer → Nat
  | .loc o => o.val
  | .remote o => o.val

/-- R110, R130, R303: a writer writes a word; before ktu_ready nothing is written. -/
def Ktu.writeBy (w : Writer) (a v : Nat) (k : Ktu) : Ktu :=
  if ¬ k.pins.ready then (match w with
    | .loc _ => k.count KReg.ERR_REGREF_local
    | .remote _ => k)
  else (k.writeWord (pathOf w) (ownerOf w) a v).1

/-- R110, R674: a writer writes one field, the others of its word keeping their values. -/
def Ktu.fieldBy (w : Writer) (f : Fld) (i v : Nat) (k : Ktu) : Ktu :=
  if ¬ k.pins.ready then (match w with
    | .loc _ => k.count KReg.ERR_REGREF_local
    | .remote _ => k)
  else if k.mayWrite (ownerOf w) f i then (k.writeField (pathOf w) f (v % 2 ^ f.width) i).errRearm
  else k.refusal (pathOf w) (k.writeEffect (pathOf w) f i (v % 2 ^ f.width))

/-- R313: a writer sets one command bit of KTU_FIFE_CTRL and leaves dn_enable as it is. -/
def Ktu.fifeCtrlBy (w : Writer) (bit : Nat) (k : Ktu) : Ktu :=
  Ktu.writeBy w 0xC000 (2 ^ bit + k.get KReg.FIFE_CTRL_dn_enable % 2) k

/-! ### REG_RD and REG_WR (R303) -/

/-- R303: a request is malformed. -/
def regBad (r : RegReq) : Bool :=
  r.count = 0 || decide (r.count.toNat > 8) || decide (r.offset.toNat % 4 ≠ 0) ||
  decide (r.offset.toNat + 4 * r.count.toNat > 0x10000)

/-- A response without data. -/
def regAnswer (r : RegReq) (code : Nat) : RegResp :=
  { addr := r.addr, tag := r.tag, code := BitVec.ofNat 8 code, mask := 0, count := r.count, offset := r.offset, words := [] }

/-- The words of a REG_RD, read in order; answers the words and the refusal mask. -/
def Ktu.readMany (o a : Nat) : Nat → Nat → Ktu → Ktu × List Word × Nat
  | 0, _, k => (k, [], 0)
  | n + 1, j, k =>
    let (k, v, r) := k.readWord .remote o (a + 4 * j)
    let (k, ws, m) := Ktu.readMany o a n (j + 1) k
    (k, BitVec.ofNat 32 v :: ws, m + (if r then 2 ^ j else 0))

/-- The words of a REG_WR, written in order; answers the refusal mask. -/
def Ktu.writeMany (o a : Nat) : List Word → Nat → Ktu → Ktu × Nat
  | [], _, k => (k, 0)
  | w :: ws, j, k =>
    let (k, r) := k.writeWord .remote o (a + 4 * j) w.toNat
    let (k, m) := Ktu.writeMany o a ws (j + 1) k
    (k, m + (if r then 2 ^ j else 0))

/-- R295: a route-0 message for another KTU goes on downstream, and is dropped and counted at the chain's end. -/
def Ktu.passOn (k : Ktu) (m : Msg) : Ktu :=
  if k.pins.straps.leaf then k.count KReg.FIFE_MSGDROP_count else k.forwardDn m

/-- R295: a message names this KTU. -/
def Ktu.isMe (k : Ktu) (addr : BitVec 20) : Bool := k.fife.addrValid && addr == k.addr

/-- R303: a REG_RD reaches the KTU. -/
def Ktu.regRd (k : Ktu) (r : RegReq) : Ktu :=
  if ¬ k.isMe r.addr then k.passOn (.regRd r)
  else if ¬ k.pins.ready then k.sendUp (.regRdResp (regAnswer r 2))
  else if regBad r then k.sendUp (.regRdResp (regAnswer r 1))
  else
    let (k, ws, m) := Ktu.readMany r.issuer.toNat r.offset.toNat r.count.toNat 0 k
    k.sendUp (.regRdResp { regAnswer r 0 with mask := BitVec.ofNat 8 m, words := ws })

/-- R303: a REG_WR reaches the KTU. -/
def Ktu.regWr (k : Ktu) (r : RegReq) : Ktu :=
  if ¬ k.isMe r.addr then k.passOn (.regWr r)
  else if ¬ k.pins.ready then k.sendUp (.regWrResp (regAnswer r 2))
  else if regBad r then k.sendUp (.regWrResp (regAnswer r 1))
  else
    let (k, m) := Ktu.writeMany r.issuer.toNat r.offset.toNat (r.words.take r.count.toNat) 0 k
    k.sendUp (.regWrResp { regAnswer r 0 with mask := BitVec.ofNat 8 m })

end Sys2Proof.Machine
end

