-- ==== Sys2Proof/Machine/Num.lean ====
section
/-! DEFINITION. The number formats of the arrays and their arithmetic (R379, R389 to R392, R402, R414, R435): every value is
exact, as an integer times a power of two, until it is rounded once. -/

namespace Sys2Proof.Machine

open Sys2Proof

/-! ### Values -/

/-- A number of a floating format: not a number, an infinity, or (−1)^neg × m × 2^e. -/
inductive FVal where
  | nan
  | inf (neg : Bool)
  | fin (neg : Bool) (m : Nat) (e : Int)
  deriving DecidableEq, Repr

/-- A floating format: exponent and mantissa bits; `ieee` when the largest exponent holds infinities and NaNs. -/
structure FFmt where
  eb : Nat
  mb : Nat
  ieee : Bool
  deriving DecidableEq, Repr

/-- FP8 E4M3 (R379). -/
def e4m3 : FFmt := { eb := 4, mb := 3, ieee := false }

/-- FP8 E5M2. -/
def e5m2 : FFmt := { eb := 5, mb := 2, ieee := true }

/-- BF16. -/
def bf16 : FFmt := { eb := 8, mb := 7, ieee := true }

/-- FP32. -/
def fp32 : FFmt := { eb := 8, mb := 23, ieee := true }

/-- The exponent bias. -/
def FFmt.bias (f : FFmt) : Nat := 2 ^ (f.eb - 1) - 1

/-- The bits of a value without its sign. -/
def FFmt.magBits (f : FFmt) : Nat := f.eb + f.mb

/-- The pattern of the largest finite value: 448 in E4M3 has mantissa 6. -/
def FFmt.maxFinite (f : FFmt) : Nat :=
  if f.ieee then (2 ^ f.eb - 1) * 2 ^ f.mb - 1 else 2 ^ f.magBits - 2

/-- The value of a pattern. -/
def FFmt.decode (f : FFmt) (bits : Nat) : FVal :=
  let neg := bitOf bits f.magBits
  let e := bits / 2 ^ f.mb % 2 ^ f.eb
  let m := bits % 2 ^ f.mb
  if f.ieee ∧ e = 2 ^ f.eb - 1 then (if m = 0 then .inf neg else .nan)
  else if ¬ f.ieee ∧ bits % 2 ^ f.magBits = 2 ^ f.magBits - 1 then .nan
  else if e = 0 then .fin neg m (1 - (f.bias : Int) - (f.mb : Int))
  else .fin neg (2 ^ f.mb + m) ((e : Int) - (f.bias : Int) - (f.mb : Int))

/-- A quotient rounded to nearest, halves to even. -/
def roundDiv (m d : Nat) : Nat :=
  let q := m / d
  let r := m % d
  if 2 * r < d then q else if 2 * r > d then q + 1 else if q % 2 = 0 then q else q + 1

/-- m × 2^s, rounded to an integer, halves to even. -/
def roundShift (m : Nat) (s : Int) : Nat := if s ≥ 0 then m * 2 ^ s.toNat else roundDiv m (2 ^ (-s).toNat)

/-- The pattern, without sign, of m × 2^e rounded once to nearest even through the subnormal range; it may lie above the
largest finite value. -/
def FFmt.roundMag (f : FFmt) (m : Nat) (e : Int) : Nat :=
  if m = 0 then 0
  else
    let top : Int := e + Nat.log2 m
    let q : Int := max top (1 - (f.bias : Int)) - f.mb
    let k := roundShift m (e - q)
    if k < 2 ^ f.mb then k else (q + f.mb + f.bias).toNat * 2 ^ f.mb + (k - 2 ^ f.mb)

/-- The pattern of a sign and magnitude. -/
def FFmt.signed (f : FFmt) (neg : Bool) (mag : Nat) : Nat := (if neg then 2 ^ f.magBits else 0) + mag

/-- R392: NaN of each format. -/
def FFmt.nan (f : FFmt) : Nat := if f.ieee then (2 ^ f.eb - 1) * 2 ^ f.mb + 2 ^ (f.mb - 1) else 2 ^ f.magBits - 1

/-- R392: an infinity; E4M3 has none and gives 448. -/
def FFmt.inf (f : FFmt) (neg : Bool) : Nat :=
  f.signed neg (if f.ieee then (2 ^ f.eb - 1) * 2 ^ f.mb else f.maxFinite)

/-- R391: round once and saturate: a finite value never becomes an infinity. -/
def FFmt.saturate (f : FFmt) (neg : Bool) (m : Nat) (e : Int) : Nat := f.signed neg (min (f.roundMag m e) f.maxFinite)

/-- IEEE 754 rounding: a value beyond the range becomes an infinity. -/
def FFmt.round (f : FFmt) (neg : Bool) (m : Nat) (e : Int) : Nat :=
  let r := f.roundMag m e
  if r > f.maxFinite then f.inf neg else f.signed neg r

/-- The pattern of a value, by IEEE 754 rounding. -/
def FFmt.encode (f : FFmt) : FVal → Nat
  | .nan => f.nan
  | .inf neg => f.inf neg
  | .fin neg m e => f.round neg m e

/-! ### binary32 arithmetic (R390, R414, R435) -/

/-- The signed integer that m × 2^e is at an exponent not above e. -/
def atExp (neg : Bool) (m : Nat) (e to_ : Int) : Int :=
  let v : Int := ((m * 2 ^ (e - to_).toNat : Nat) : Int)
  if neg then -v else v

/-- The exact sum of two finite values; an exact zero is +0 unless both are −0. -/
def addFin (n1 : Bool) (m1 : Nat) (e1 : Int) (n2 : Bool) (m2 : Nat) (e2 : Int) : FVal :=
  let e := min e1 e2
  let s := atExp n1 m1 e1 e + atExp n2 m2 e2 e
  if s = 0 then .fin (n1 && n2 && m1 == 0 && m2 == 0) 0 0 else .fin (decide (s < 0)) s.natAbs e

/-- Addition before rounding. -/
def FVal.add : FVal → FVal → FVal
  | .nan, _ => .nan
  | _, .nan => .nan
  | .inf a, .inf b => if a = b then .inf a else .nan
  | .inf a, .fin .. => .inf a
  | .fin .., .inf b => .inf b
  | .fin n1 m1 e1, .fin n2 m2 e2 => addFin n1 m1 e1 n2 m2 e2

/-- The other sign. -/
def FVal.neg : FVal → FVal
  | .nan => .nan
  | .inf a => .inf (!a)
  | .fin n m e => .fin (!n) m e

/-- Multiplication before rounding. -/
def FVal.mul : FVal → FVal → FVal
  | .nan, _ => .nan
  | _, .nan => .nan
  | .inf a, .inf b => .inf (a != b)
  | .inf a, .fin n m _ => if m = 0 then .nan else .inf (a != n)
  | .fin n m _, .inf b => if m = 0 then .nan else .inf (n != b)
  | .fin n1 m1 e1, .fin n2 m2 e2 => .fin (n1 != n2) (m1 * m2) (e1 + e2)

/-- A binary32 sum. -/
def add32 (a b : Nat) : Nat := fp32.encode ((fp32.decode a).add (fp32.decode b))

/-- A binary32 product. -/
def mul32 (a b : Nat) : Nat := fp32.encode ((fp32.decode a).mul (fp32.decode b))

/-- A value is less than another, as real numbers with infinities; false for NaN. -/
def FVal.lt : FVal → FVal → Bool
  | .nan, _ => false
  | _, .nan => false
  | .inf a, .inf b => a && !b
  | .inf a, .fin .. => a
  | .fin .., .inf b => !b
  | .fin n1 m1 e1, .fin n2 m2 e2 => let e := min e1 e2; decide (atExp n1 m1 e1 e < atExp n2 m2 e2 e)

/-- A value is at most another; false for NaN. -/
def FVal.le : FVal → FVal → Bool
  | .nan, _ => false
  | _, .nan => false
  | x, y => !y.lt x

/-! ### Element formats (R379, R430) -/

/-- The width of an element in bits: codes 0 to 8 of R379, 9 SF64, 10 status; 11 stands for a SUM output's SF128 (R479). -/
def fmtBits (f : Nat) : Nat :=
  if f ≤ 2 then 8 else if f = 3 then 4 else if f = 4 then 2 else if f = 5 then 1 else if f = 6 then 16
  else if f = 7 ∨ f = 8 then 32 else if f = 9 then 64 else if f = 10 then 8 else 128

/-- A format is a floating one. -/
def floatFmt (f : Nat) : Option FFmt :=
  if f = 0 then some e4m3 else if f = 1 then some e5m2 else if f = 6 then some bf16 else if f = 7 then some fp32 else none

/-- R379: the integer that an element of an integer format stands for. -/
def intOf (f bits : Nat) : Int :=
  if f = 2 then signedOf 8 bits
  else if f = 3 then signedOf 4 bits
  else if f = 4 then (if bits % 4 = 1 then 1 else if bits % 4 = 3 then -1 else 0)
  else if f = 5 then (if bits % 2 = 1 then 1 else -1)
  else if f = 8 then signedOf 32 bits
  else if f = 9 then signedOf 64 bits
  else if f = 10 then ((bits % 256 : Nat) : Int)
  else signedOf 128 bits

/-- The largest and smallest values of an integer format. -/
def intRange (f : Nat) : Int × Int :=
  if f = 4 ∨ f = 5 then (-1, 1)
  else if f = 10 then (0, 255)
  else
    let h : Int := ((2 ^ (fmtBits f - 1) : Nat) : Int)
    (-h, h - 1)

/-- The pattern of an integer within the range of a format. -/
def intBits (f : Nat) (v : Int) : Nat := if f = 5 then (if v > 0 then 1 else 0) else fieldOf (fmtBits f) v

/-! ### The output stage (R391, R392) -/

/-- R391: v = (−1)^neg × m × 2^e rounded once to an element of an output format, and saturated. -/
def outStage (f : Nat) (neg : Bool) (m : Nat) (e : Int) : Nat :=
  match floatFmt f with
  | some ff => ff.saturate neg m e
  | none =>
    let k : Int := ((roundShift m e : Nat) : Int)
    let v := if neg then -k else k
    let r := intRange f
    intBits f (max r.1 (min r.2 v))

/-- R392: the element for a NaN. -/
def outNan (f : Nat) : Nat :=
  match floatFmt f with
  | some ff => ff.nan
  | none => 0

/-- R392: the element for an infinity. -/
def outInf (f : Nat) (neg : Bool) : Nat :=
  match floatFmt f with
  | some ff => ff.inf neg
  | none => let r := intRange f; intBits f (if neg then r.1 else r.2)

/-- R391, R392: an accumulated value times two scales, to an element; whether it was invalid. Only the BF16 mode keeps the
sign of a zero. -/
def outElem (f : Nat) (keepSign : Bool) (x s1 s2 : FVal) : Nat × Bool :=
  match s1, s2 with
  | .fin n1 m1 e1, .fin n2 m2 e2 =>
    match x with
    | .nan => (outNan f, true)
    | .inf neg => (outInf f neg, false)
    | .fin n m e =>
      let v := m * m1 * m2
      let neg := ((n != n1) != n2) && (keepSign || v != 0)
      (outStage f neg v (e + e1 + e2), false)
  | _, _ => (outNan f, true)

/-! ### Signed fixed point (R367, R435) -/

/-- Move a value from one binary point to another, rounding towards −∞. -/
def alignBp (v : Int) (from_ to_ : Nat) : Int :=
  if from_ ≤ to_ then v * ((2 ^ (to_ - from_) : Nat) : Int) else v / ((2 ^ (from_ - to_) : Nat) : Int)

/-- R435: an SF64 result, with status 5 where it saturated. -/
def sf64 (v : Int) : Nat × Nat := let s := satInt 64 v; (fieldOf 64 s, if s = v then 0 else 5)

end Sys2Proof.Machine
end

