-- ==== Sys2Proof/Machine/StateNld.lean ====
section
/-! DEFINITION. The state of one Naloder, as plain data. -/

namespace Sys2Proof.Machine

open Sys2Proof

/-! ### The package (R316 to R340, R625 to R650, R689 to R704) -/

/-- Pins, clocks and power of the package. `porLow`: nld_por_n is asserted; `stopped`: the clocks outside the always-on
domain are stopped (R334, R697); `resetting`: a package reset has been written and stage 0 has not begun (R696).
`pllSeen`: the core PLLs have locked. `calm` counts the power evaluations without cause to raise L; `drooped`: the droop
detector has tripped since the last evaluation; `portsOn`: firmware has enabled the ports (stage 4). -/
structure NPkg where
  porLow : Bool := true
  stopped : Bool := false
  resetting : Bool := false
  pllSeen : Bool := false
  calm : Nat := 0
  drooped : Bool := false
  portsOn : Bool := false
  marked : List Nat := []
  elapsed : Nat := 0
  deriving DecidableEq, Repr

/-- A record of the hardware error ring (R642). -/
structure HwErr where
  time : Nat
  offset : Nat
  bits : Nat
  seq : Nat
  deriving DecidableEq, Repr

/-- A log record (R647): the core and level; what the firmware writes beside them is not stated. -/
structure LogRec where
  seq : Nat
  time : Nat
  core : Nat
  level : Nat
  deriving DecidableEq, Repr

/-- What Naloder has put out to its host, newest last: the model's own record of its outputs, which nothing reads. -/
inductive HostOut where
  | msix (fn vector : Nat)
  | readData (fn addr value : Nat)
  | write (fn ring slot : Nat) (words : List Nat)
  | buffer (addr : Nat) (bytes : List Byte)
  | mgmt (bytes : List Byte)
  | ether (port : Nat) (bytes : List Byte)
  | roce (port qp psn opcode : Nat) (imm : Option Nat) (body : List Byte)
  deriving DecidableEq, Repr

/-! ### Time (R71 to R101, R727) -/

/-- One time domain. `shift`: what the clock subtracts from its source in use, 2^-16 ns; `diff`: D, the secondary source
less the primary (R91); `onSecond`: the secondary is in use; `reverting`: the shift is being slewed away (R92). -/
structure NDomain where
  tb : TimeBase := {}
  shift : Int := 0
  diff : Int := 0
  onSecond : Bool := false
  reverting : Bool := false
  deriving DecidableEq, Repr

/-- What a KTU last reported in a DELAY_REQ (R99): the states of its bases and its last offset. -/
structure KtuTime where
  stateA : Nat := 0
  stateB : Nat := 0
  offset : Int := 0
  deriving DecidableEq, Repr

/-- One IEEE 1588 port (R93): a two-step Sync that waits for its Follow_Up, its sequence numbers, the Announces counted
and ignored. -/
structure PtpPort where
  waiting : Option (Nat × Int × Int) := none
  syncSeq : Nat := 0
  announceSeq : Nat := 0
  ignored : Nat := 0
  deriving DecidableEq, Repr

/-! ### The tick pipeline (R25 to R67, R341 to R352) -/

/-- The states of a tick (R27). -/
inductive TickPhase where
  | opened
  | provisional
  | traySealed
  | groupSealed
  | fleetSealed
  | retired
  | abandoned
  deriving DecidableEq, Repr

/-- A position record (R347): header, trailer, arrival less T in ns, marked and poisoned series, those lost in the
tick store since (R348), values; the owners in
force for the frame, and whether an owner mismatch gave series 128 and above to *fleet* (R351). -/
structure PosRec where
  header : FrameHeader
  trailer : Nat
  arrival : Int
  marks : List Nat
  poison : List Nat
  lost : List Nat := []
  xhat : Tbl Nat
  owners : Tbl Nat
  fleetOnly : Bool
  deriving DecidableEq, Repr

/-- One tick. Instants are in ns of elapsed time; `expected` and `obsv` are the positions fixed at the opening; `arrived`
the positions merged before T + P (R346); `presence` the closed tray presence map, 512 codes (R39), empty until the
drain ends; the counts are those of R40; `runs` the (owner, image, kind)
of the runs not ended, `skipped` the (owner, image) of the sealed runs skipped (R59). -/
structure TickRec where
  num : Nat
  phase : TickPhase := .opened
  openedAt : Nat
  provAt : Option Nat := none
  sealedAt : Option Nat := none
  droppedAt : Option Nat := none
  expected : List Nat
  obsv : List Nat
  seen : List Nat := []
  corrupt : List Nat := []
  arrived : List Nat := []
  pos : Tbl PosRec := []
  presence : List Nat := []
  dups : Nat := 0
  crcs : Nat := 0
  unexps : Nat := 0
  earlies : Nat := 0
  provReady : Bool := false
  swept : Bool := false
  sent : Bool := false
  runs : List (Nat × Nat × Nat) := []
  skipped : List (Nat × Nat) := []
  deriving DecidableEq, Repr

/-- The tick state machine: the ticks not yet retired, newest first; the newest opened since run rose; the highest
boundary passed; the members of the coming expected sets; the owner maps; early frames by tick; the first tick opened since reset (R52). -/
structure NTick where
  ticks : List TickRec := []
  newest : Option Nat := none
  crossed : Nat := 0
  everLocked : Bool := false
  members : List Nat := []
  early : Tbl Nat := []
  firstOpened : Option Nat := none
  newestSealed : Option Nat := none
  deriving DecidableEq, Repr

/-- The owner map of one position (R350): in force and staged owners by series, whether the staged copy is armed (and
when) or pending. -/
structure OwnMap where
  owners : Tbl Nat := []
  staged : Tbl Nat := []
  armedAt : Option Nat := none
  pending : Bool := false
  deriving DecidableEq, Repr

/-! ### The Fife ports (R291 to R315) -/

/-- A position's entry (R293, R315): what its latest ENUM response said, and the ratio record. -/
structure EnumEntry where
  valid : Bool := false
  ratio : Nat := 0
  slots : Nat := 0
  leaf : Bool := false
  profile : Nat := 0
  revision : Nat := 0
  uid : Nat := 0
  schema : Nat := 0
  deriving DecidableEq, Repr

/-- Who waits for the answer to a request to a KTU (R304). -/
inductive Requester where
  | desc (fn ring slot : Nat)
  | firmware
  | bugle (id : Nat)
  deriving DecidableEq, Repr

/-- A CMD, REG_RD or REG_WR that waits for its answer. `id` is the cmd_id or the tag; `left` the positions still to
answer a command sent to a chain; `ack` the CMD_ACK its completion will report. -/
structure PendReq where
  reg : Bool
  port : Nat
  addr : Nat
  id : Nat
  opcode : Nat
  who : Requester
  left : List Nat := []
  ack : Option CmdAckMsg := none
  msg : Msg
  deriving DecidableEq, Repr

/-- One Fife port of Naloder. -/
structure NFife where
  link : LinkEnd := {}
  table : Tbl EnumEntry := []
  gcNow : Tbl Nat := []
  gcLast : Tbl Nat := []
  sleepGo : Bool := false
  sleepTick : Nat := 0
  agreed : List Nat := []
  broken : Bool := false
  wakes : List (Nat × Nat × Nat) := []
  deriving DecidableEq, Repr

/-- The Fife ports with what firmware keeps for them: the requests that wait, and the last tag given. -/
structure NChains where
  ports : Tbl NFife := []
  reqs : List PendReq := []
  tag : Nat := 0
  deriving DecidableEq, Repr

/-! ### The series engine (R353 to R366) -/

/-- A position's row of the position table (R353): the track mask and the first context. -/
structure TrackRow where
  mask : Nat := 0
  base : Nat := 0
  deriving DecidableEq, Repr

/-- A series context (R355). `span` is the span of the frame that gave `last`. -/
structure SerCtx where
  last : Nat := 0
  lastTick : Nat := 0
  flags : Nat := 0
  total : Nat := 0
  n : Nat := 0
  s1 : Nat := 0
  s2 : Nat := 0
  min : Nat := 0
  max : Nat := 0
  base : Nat := 0
  owner : Nat := 16
  bp : Nat := 0
  k : Nat := 0
  absentRun : Nat := 0
  hadValue : Bool := false
  span : Nat := 0
  deriving DecidableEq, Repr

/-- A tier-0 segment of a context's history (R363): where it lies in the byte ring, and its content. -/
structure HistSeg where
  id : Nat
  table : Nat
  offset : Nat
  bytes : List Byte
  deriving DecidableEq, Repr

/-- A tier-1 or tier-2 entry (R364). -/
structure HistSum where
  id : Nat
  sum : Nat := 0
  count : Nat := 0
  poisoned : Bool := false
  min : Nat := 0
  max : Nat := 0
  deriving DecidableEq, Repr

/-- A context's history area (R362): the newest segment, the ring write offset, the segments whose directory entries are
valid, and the entries of tiers 1 and 2. -/
structure HistArea where
  newest : Option Nat := none
  wptr : Nat := 0
  segs : List HistSeg := []
  tier1 : Tbl HistSum := []
  tier2 : Tbl HistSum := []
  deriving DecidableEq, Repr

/-- One side of the staging buffer (R365): its segment, and the values of each context by tick number: a valid value, or
a poisoned one. -/
structure StageSide where
  seg : Nat
  vals : Tbl (List (Nat × Option Nat)) := []
  deriving DecidableEq, Repr

/-- The series engine. -/
structure NSeries where
  table : Tbl TrackRow := []
  staged : Tbl TrackRow := []
  committed : Option (Tbl TrackRow) := none
  ctx : Tbl SerCtx := []
  cfgs : List (Nat × Nat × Nat) := []
  epochs : List (Nat × Nat) := []
  dieChanged : List Nat := []
  hist : Tbl HistArea := []
  side : Option StageSide := none
  closing : Option StageSide := none
  periodUsed : Nat := 0
  deriving DecidableEq, Repr

/-! ### The host interface (R561 to R592) -/

/-- A record formed for a delivery ring (R582): type, provisional flag, tick, and the body after the header. -/
structure DelivRec where
  type : Nat
  prov : Bool := false
  tick : Nat := 0
  body : List Byte
  deriving DecidableEq, Repr

/-- What a loss record will say (R582, type 7). -/
structure LossInfo where
  count : Nat
  types : Nat
  first : Nat
  last : Nat
  deriving DecidableEq, Repr

/-- A completion of a submission ring (R573). -/
structure Completion where
  tag : Nat
  slot : Nat
  gen : Nat
  status : Nat
  flags : Nat := 0
  detail : Nat := 0
  result : List Byte := []
  deriving DecidableEq, Repr

/-- A descriptor fetched and not completed (R633) with its journal entry (R635): no phase before the command has had any
effect; `done` the completion recorded for it. `again`: an image has executed it again (R637). -/
structure HeldDesc where
  slot : Nat
  gen : Nat
  tag : Nat
  irq : Bool
  opcode : Nat
  again : Bool := false
  phase : Option Nat := none
  ids : List Nat := []
  done : Option Completion := none
  deriving DecidableEq, Repr

/-- One ring as the queue engine runs it. Indices are free-running. `retries` counts the polls that found the next slot
with its last generation; `formed` the records formed and not yet written, `overflow` those waiting in HBM; `unsignalled`
the completions without an interrupt. -/
structure RingRt where
  enabled : Bool := false
  error : Nat := 0
  lastGen : Tbl Nat := []
  retries : Nat := 0
  subProd : Nat := 0
  subCons : Nat := 0
  compProd : Nat := 0
  compCons : Nat := 0
  dataProd : Nat := 0
  dataCons : Nat := 0
  held : List HeldDesc := []
  formed : List DelivRec := []
  overflow : List DelivRec := []
  loss : Option LossInfo := none
  recSeq : Nat := 0
  unsignalled : Nat := 0
  restarted : Bool := false
  deriving DecidableEq, Repr

/-- A sequence in content-tap staging (R431, R579): `at_` the domain-0 time in ns at which it was complete, `order` its place in the order of submission. -/
structure StagedSeq where
  tap : Nat
  seq : Nat
  status : Nat
  at_ : Nat
  order : Nat
  words : List Nat
  deriving DecidableEq, Repr

/-- A bulk job (R259 to R263, R580) on a lane or waiting for one: the ring and slot it came from, and its fields. -/
structure BulkJob where
  fn : Nat
  ring : Nat
  hdr : HeldDesc
  decompress : Bool
  cont : Bool
  input : List Byte
  poisonAt : Option Nat
  dst : Nat
  origLen : Nat
  dstLen : Nat
  crcState : Nat
  table : Nat
  gen : Nat
  deriving DecidableEq, Repr

/-- The host queue engine. Ring r of function f has number 32 f + r; word w of its context key 32 (32 f + r) + w. `msix`
holds the words of the MSI-X tables, `pba` the pending vectors (64 f + v); `fetchRr` and `bulkRr` are the pointers of the two arbiters (R234). -/
structure NHost where
  ctx : Tbl Nat := []
  rings : Tbl RingRt := []
  msix : Tbl Nat := []
  pba : List Nat := []
  taps : Tbl Nat := []
  staged : List StagedSeq := []
  tapCount : Nat := 0
  reads : List (Nat × Nat) := []
  writes : List (Nat × Nat × Nat) := []
  lanes : Tbl (List BulkJob) := []
  waiting : List BulkJob := []
  streams : Tbl Nat := []
  latch : Tbl Nat := []
  fetchRr : Tbl Nat := []
  bulkRr : Tbl Nat := []
  deriving DecidableEq, Repr

/-! ### Horn ports, the group and the fleet (R456 to R496) -/

/-- A Horn port. `sentEnum` and `gotEnum`: the ENUMs of this training exchange have gone out and come in; `got` the last
one received: peer, its end, its group role, resume, next expected number, tick profile. -/
structure NHorn where
  link : LinkEnd := {}
  sentEnum : Bool := false
  gotEnum : Bool := false
  peerEnd : Nat := 0
  peerRole : Nat := 0
  peerResume : Bool := false
  peerNext : Nat := 0
  peerProfile : Nat := 0
  deriving DecidableEq, Repr

/-- A rendezvous object (R476). -/
structure RdvObj where
  state : Nat := 0
  kind : Nat := 0
  owner : Nat := 0
  scope : Nat := 0
  epoch : Nat := 0
  expected : Nat := 0
  count : Nat := 0
  dup : Nat := 0
  deadline : Nat := 0
  doneAt : Nat := 0
  stale : Nat := 0
  late : Nat := 0
  seen : Nat := 0
  deriving DecidableEq, Repr

/-- A segment (R473); `vals` are the bit patterns of its elements. -/
structure Segment where
  owner : Nat
  output : Nat
  op : Nat
  status : Nat
  image : Nat
  contributing : Nat
  missing : Nat
  vals : List Nat
  deriving DecidableEq, Repr

/-- A tick at the group root (R483, R484): the part of each tray (counts and map, 136 B), the merged segments, and the
completed group summary. -/
structure GroupTick where
  tick : Nat
  trays : Tbl (List Byte) := []
  segs : List Segment := []
  summary : Option (List Byte) := none
  deriving DecidableEq, Repr

/-- A tick at the fleet level (R486): the first accepted summary of each group, the merged segments, and the CRC of the
completed view. -/
structure FleetTick where
  tick : Nat
  groups : Tbl (List Byte) := []
  segs : List Segment := []
  crc : Option Nat := none
  deriving DecidableEq, Repr

/-- Reduction and rendezvous. `seals` names the SEALs delivered or given up, as (kind, tick, image); `bugles` the last
4,096 Bugle cmd_ids; `dropped` counts the Bugle commands discarded. -/
structure NGroup where
  horns : Tbl NHorn := []
  rdv : Tbl RdvObj := []
  groups : List GroupTick := []
  fleets : List FleetTick := []
  roles : Tbl Nat := []
  seals : List (Nat × Nat × Nat) := []
  bugles : List Nat := []
  dropped : Nat := 0
  memberCheck : Tbl (List (Nat × List Nat)) := []
  syncSeq : Tbl Nat := []
  deriving DecidableEq, Repr

/-! ### Liveness, jobs and aborts (R497 to R533) -/

/-- The states of a position (R501), in the order of the state field. -/
inductive LiveState where
  | live
  | suspect
  | blind
  | unresolved
  | dead
  deriving DecidableEq, Repr

/-- The liveness record of a position (R497 to R502). `query`: the number of the latest query and the state it was sent in. -/
structure LiveRec where
  state : LiveState := .live
  silent : Nat := 0
  corrupt : Nat := 0
  returned : Bool := false
  alerted : Bool := false
  query : Option (Nat × LiveState) := none
  deriving DecidableEq, Repr

/-- An entry of an advisory table (R517): the verdict it came from, and the boundary it was delivered for, once it was. -/
structure Advisory where
  subject : Nat
  tick : Nat
  image : Nat
  score : Nat
  bp : Nat
  boundary : Option Nat := none
  deriving DecidableEq, Repr

/-- A membership declaration that has not taken effect (R511). -/
structure Declaration where
  epoch : Nat
  tick : Nat
  members : List Nat
  deriving DecidableEq, Repr

/-- A partition's job (R508 to R517). A bitmap of 2^18 bits is kept as the list of the addresses in it, rising. -/
structure Job where
  epoch : Nat := 0
  members : List Nat := []
  coming : List Declaration := []
  checkpoint : Option Nat := none
  reports : List (Nat × Bool) := []
  advisories : List Advisory := []
  deriving DecidableEq, Repr

/-- The alarm unit (R285, R463, R519 to R522): the counter of alarms originated, the table of pairs accepted, the scopes of
the aborts originated with their domain-0 times, and the pairs still to be sent again with the sendings left. -/
structure NAlarm where
  counter : Nat := 0
  seen : List AlarmSeen := []
  aborts : List (Nat × Nat) := []
  repeats : List (BitVec 112 × Nat) := []
  deriving DecidableEq, Repr

/-- Liveness and verdicts. `memberSince` names the tick whose opening changed a membership that KTUs must still be told
(R513); `announced` the time a declaration disagreement was last recorded for a tray (R512). -/
structure NVerdict where
  live : Tbl LiveRec := []
  lastQuery : Nat := 0
  jobs : Tbl Job := []
  alarm : NAlarm := {}
  announced : Tbl Nat := []
  deriving DecidableEq, Repr

/-! ### The event recorder and the security core (R651 to R671) -/

/-- A record as it waits for the recorder (R652), with its sequence number and its time. -/
structure RecEntry where
  type : Nat
  source : Nat
  seq : Nat
  hours : Nat
  seconds : Nat
  cycles : Nat
  tick : Nat
  payload : List Byte
  deriving DecidableEq, Repr

/-- A slot of a ring: its generation and bytes 4 to 63. -/
structure RecSlot where
  gen : Nat := 0
  body : List Byte := []
  deriving DecidableEq, Repr

/-- A clear that is erasing (R662). -/
structure RecClear where
  areas : Nat
  bound : Nat
  deriving DecidableEq, Repr

/-- The recorder. Slot s of area a has key a × 2^22 + s. `seconds` are the operating seconds at power-up, which with the
elapsed time give the hours (R655); `cycles` the power cycles; `lost` the records discarded since the last record of them; `staged` the
records of the control cores that wait while firmware does not run (R641, R656). -/
structure NRecorder where
  slots : Tbl RecSlot := []
  queue : List RecEntry := []
  nextSeq : Nat := 0
  ordPtr : Nat := 0
  ordWrapped : Bool := false
  privPtr : Nat := 0
  privWrapped : Bool := false
  lost : Option (Nat × Nat × Nat) := none
  clear : Option RecClear := none
  seconds : Nat := 0
  cycles : Nat := 0
  recordedOpens : Nat := 0
  staged : List (Nat × Nat × List Nat) := []
  deriving DecidableEq, Repr

/-- An enrolled key (R664). -/
structure KeyEntry where
  id : Nat
  owner : Nat
  uses : Nat
  deriving DecidableEq, Repr

/-- A Bugle command (R466, R665): where it came by, a Horn port, another root, or a descriptor of this host, and what it
says. -/
structure HeldBugle where
  site : Option Site
  desc : Option DescHdr
  msg : BugleMsg
  deriving DecidableEq, Repr

/-- What waits for the security core while it restarts (R640). A KEYX names its queue pair, and so
does a keying to begin. -/
inductive SecJob where
  | bugle (b : HeldBugle)
  | clear (t : ClearToken)
  | request (r : SecRequest)
  | keyx (q : Nat) (k : KeyxMsg)
  | offer (q : Nat)
  deriving DecidableEq, Repr

/-- The security core. `step` is how far provisioning has come (R669); `refused` the signatures refused since the last
record of them, with the first key, and `refusedAt` when that record was written; `down` while its restart runs, and
`held` what waits for it (R640). `revokedMask` is the mask over the Carivo signing keys (R627). -/
structure NSecurity where
  keys : List KeyEntry := []
  drawn : Nat := 0
  identity : Option Nat := none
  installed : Bool := false
  step : Nat := 0
  minSvn : Nat := 0
  svn : Nat := 0
  refused : Nat := 0
  refusedKey : Nat := 0
  refusedAt : Option Nat := none
  down : Bool := false
  zeroised : Bool := false
  held : List SecJob := []
  revokedMask : Nat := 0
  deriving DecidableEq, Repr


/-! ### Model programs (R427 to R455) -/

/-- A tensor table entry (R430). -/
structure TensorDecl where
  id : Nat
  fmt : Nat
  place : Nat
  rows : Nat
  cols : Nat
  bp : Nat
  scale : Nat
  offset : Nat
  deriving DecidableEq, Repr

/-- A series selector (R370). -/
structure Selector where
  kind : Nat
  quantity : Nat
  obs : Bool
  a : Nat
  b : Nat
  deriving DecidableEq, Repr

/-- A binding (R431): a selector with its value and status tensors, or a content tap. -/
inductive Binding where
  | series (tensor status : Nat) (sel : Selector)
  | tap (tensor tap maxSeq seqBytes : Nat)
  deriving DecidableEq, Repr

/-- An output entry (R432). -/
structure OutputDecl where
  reduction : Bool
  tensor : Nat
  op : Nat
  size : Nat
  bp : Nat
  cols : Nat
  deriving DecidableEq, Repr

/-- An op descriptor (R433) with its parameters. -/
structure ProgOp where
  opcode : Nat
  flags : Nat
  dst : Nat
  srcs : List Nat
  params : OpParams
  deriving DecidableEq, Repr

/-- A schedule: the run kind, the logical cluster and the ops up to END. -/
structure Schedule where
  kind : Nat
  cluster : Nat
  ops : List ProgOp
  deriving DecidableEq, Repr

/-- An element of a tensor: its bit pattern, its status (R371) and the poison tag. -/
structure TElem where
  bits : Nat
  status : Nat := 0
  poison : Bool := false
  deriving DecidableEq, Repr

/-- An admitted program. `at_` is its address in the pool; `seq` its place in the order of admission; `first` the first
tick it runs for (R444); `state` the committed copies of its state tensors (R442); `taken` what each tap binding has
taken of its tap. -/
structure Program where
  at_ : Nat
  image : Nat
  owner : Nat
  priority : Nat
  clusters : Nat
  prov : Bool
  fleetStage : Bool
  actionable : Bool
  period : Nat
  phase : Nat
  budgetSealed : Nat
  budgetProv : Nat
  budgetFleet : Nat
  maxVerdicts : Nat
  tensors : List TensorDecl
  bindings : List Binding
  outputs : List OutputDecl
  schedules : List Schedule
  data : Nat
  tables : List Byte
  ensembles : List Nat
  seq : Nat
  first : Nat
  withdrawn : Bool := false
  state : Tbl (List TElem) := []
  taken : List Nat := []
  deriving DecidableEq, Repr

/-- A provisional result that waits for its sealed result or a retraction (R49). -/
structure ProvResult where
  owner : Nat
  image : Nat
  tick : Nat
  deriving DecidableEq, Repr

/-- The array scheduler. `windows` is the table in force: owner to (offset, length, base, units); `committed` one that
waits for a round; `round` the newest round; `running` the owner whose window is open and `used` the clocks its runs have taken; `segs` this tray's segments of a tick, for its PARTIAL. `pool` holds the
bytes of the model pool, an unlisted byte being zero; `admissions` counts them; `treeOut` holds the outputs the last tree call wrote; `shares` is each owner's share of the pool, (first unit, units). -/
structure NSched where
  programs : List Program := []
  admissions : Nat := 0
  windows : Tbl (Nat × Nat × Nat × Nat) := []
  committed : Option (Tbl (Nat × Nat × Nat × Nat)) := none
  round : Option Nat := none
  running : Option Nat := none
  used : Nat := 0
  lastOwner : Tbl Nat := []
  provs : List ProvResult := []
  tray : Tbl (List Segment) := []
  pool : Tbl Nat := []
  treeOwner : Nat := 31
  treeOut : List TElem := []
  shares : Tbl (Nat × Nat) := []
  deriving DecidableEq, Repr


/-! ### Votes, tallies and self-check (R542 to R553) -/

/-- An armed round of a vote slot (R543): its epoch and vote tick, the entries of the replicas accepted, by index, and its
object. -/
structure VoteRound where
  epoch : Nat
  tick : Nat
  got : Tbl (List Byte) := []
  obj : Option Nat := none
  deriving DecidableEq, Repr

/-- A vote slot (R542): address and region of each replica, and the expel flag. -/
structure VoteSlot where
  replicas : List (Nat × Nat)
  expel : Bool
  rounds : List VoteRound := []
  deriving DecidableEq, Repr

/-- An armed tally slot (R551): the counts by status, and the least and greatest of each lane. -/
structure TallySlot where
  patternId : Nat
  tick : Nat
  vals : List Nat
  deriving DecidableEq, Repr

/-- A tensor as an op reads or writes it: format, binary point, columns and elements. -/
structure TVal where
  fmt : Nat
  bp : Nat
  cols : Nat
  elems : List TElem
  deriving DecidableEq, Repr

/-- A self-check vector (R552): an op, its operands, the format, binary point and columns of its destination, and the stored
digest of its output. The ensemble of a TREE op is named by its pool address. -/
structure CheckVector where
  params : OpParams
  srcs : List TVal
  dst : Nat × Nat × Nat
  digest : Nat
  deriving DecidableEq, Repr

/-- The defences against silent errors. Slot s of owner o has key 8 o + s; `next` is the (cluster, vector) that runs next. -/
structure NDefence where
  votes : Tbl VoteSlot := []
  tallies : Tbl TallySlot := []
  keys : List Nat := []
  vectors : List CheckVector := []
  next : Nat × Nat := (0, 0)
  deriving DecidableEq, Repr

/-! ### RoCEv2 and the shapers (R593 to R624) -/

/-- A message in a send queue (R601), with its immediate data (R615). `kind`: 0 data, 1 a KEYX, 2 a KEYOK; the bytes of a KEYX
are laid out when it goes. -/
structure QpMsg where
  bytes : List Byte
  imm : Option Nat := none
  kind : Nat := 0
  deriving DecidableEq, Repr

/-- A packet sent and not acknowledged; `gen` is the generation it is protected under, 0 for one in the clear. -/
structure QpPkt where
  psn : Nat
  first : Bool
  last : Bool
  imm : Option Nat
  bytes : List Byte
  gen : Nat
  ext : Nat
  deriving DecidableEq, Repr

/-- What goes ahead of data (R614): acknowledgements, negative ones with their code, congestion notifications. -/
inductive QpCtl where
  | ack (psn : Nat)
  | rnrNak (psn timer : Nat)
  | nak (psn code : Nat)
  | cnp
  deriving DecidableEq, Repr

/-- The keys of one generation (R610), with the first PSN each end protects under it. -/
structure QpKeys where
  gen : Nat
  tx : Nat
  rx : Nat
  txFrom : Option Nat := none
  rxFrom : Nat
  deriving DecidableEq, Repr

/-- A keying in progress (R609, R611): the generation, this end's nonce, and whether its offer has gone. -/
structure QpKeying where
  gen : Nat
  nonce : Nat
  drawn : Nat
  sent : Bool := false
  deriving DecidableEq, Repr

/-- A queue pair (R597 to R612, R622). `used`: a consumer QP that is allocated, or a protected one that firmware has
created. `cut` is how much of the first message has gone; `again` how many of the unacknowledged packets are to be sent
again; `txWraps`, `rxWraps` count PSN wraps since the key generation began; `part` is the message being received; `fresh` the
packets received since the last acknowledgement; `faults` the times of tag failures; `sentSince` the packets sent under the
generation. -/
structure Qp where
  used : Bool := false
  state : Nat := 0
  keyed : Bool := false
  port : Nat := 0
  mtu : Nat := 0
  shaper : Nat := 0
  cause : Nat := 0
  rqpn : Nat := 0
  raddr : Nat := 0
  consumer : Nat := 0
  ring : Nat := 0
  ackTo : Nat := 0
  retryCnt : Nat := 0
  rnrRetry : Nat := 0
  minRnr : Nat := 0
  spsn : Nat := 0
  epsn : Nat := 0
  gen : Nat := 0
  sendQ : List QpMsg := []
  cut : Nat := 0
  unacked : List QpPkt := []
  again : Nat := 0
  retries : Nat := 0
  rnrs : Nat := 0
  rnrWait : Bool := false
  txWraps : Nat := 0
  rxWraps : Nat := 0
  part : Option (List Byte) := none
  fresh : Nat := 0
  ownFree : Nat := 32
  ctl : List QpCtl := []
  faults : List Nat := []
  lastCnp : Option Nat := none
  keying : Option QpKeying := none
  keys : List QpKeys := []
  sentSince : Nat := 0
  deriving DecidableEq, Repr

/-- A shaper (R616, R617): the staged and in-force rate, burst and overhead, and the level in 2^-8 B. -/
structure Shaper where
  rate : Nat := 0
  burst : Nat := 0xFFFFFF
  ovh : Nat := 0x14
  rateIn : Nat := 0
  burstIn : Nat := 0xFFFFFF
  ovhIn : Nat := 0x14
  level : Int := 0
  wait : Nat := 0
  deriving DecidableEq, Repr

/-- A registered region (R603). -/
structure Region where
  base : Nat
  len : Nat
  rights : Nat
  owner : Nat
  variant : Nat
  deriving DecidableEq, Repr

/-- The Ethernet ports, queue pairs, regions and shapers. Word w of peer slot s has key 8 s + w. `rr0` and `rr1` are the arbiters
of the two ports. -/
structure NRdma where
  qps : Tbl Qp := []
  peers : Tbl Nat := []
  regions : Tbl Region := []
  srqUsed : Nat := 0
  shapers : Tbl Shaper := []
  rr0 : Tbl Nat := []
  rr1 : Tbl Nat := []
  deriving DecidableEq, Repr

/-! ### Firmware (R625 to R650) -/

/-- What the model keeps of a control image (R627): version, security version, manifest pairs (KTU, Naloder), schemas, and
the digest of its bytes. -/
structure FwImage where
  major : Nat
  minor : Nat
  patch : Nat
  svn : Nat
  raise : Bool
  manifest : List (Nat × Nat)
  schema : Nat
  schemaMin : Nat
  digest : List Byte
  deriving DecidableEq, Repr

/-- A load in progress: for a live update or a start, its outcome code (2 when every check passes), and the image. -/
structure FwLoad where
  update : Bool
  code : Nat
  image : FwImage
  deriving DecidableEq, Repr

/-- Firmware. `copySchema` is the schema of the newer valid state copy, `copySeq` its number; `kicks` when each control
core last wrote NLD_FW_WDT; `fired` when the watchdog fired; `takeover` the tick n_u of a live update; `holding`: an image
that has taken over fetches nothing yet (R645); `cmdIds` the last tray cmd_id given to each destination (a position, or
512 + port) and `cmdKept` the persisted ones (R636). -/
structure NFw where
  images : Tbl FwImage := []
  load : Option FwLoad := none
  copySeq : Nat := 0
  copySchema : Option Nat := none
  kicks : Tbl Nat := []
  fired : List Nat := []
  takeover : Option Nat := none
  holding : Bool := false
  cmdIds : Tbl Nat := []
  cmdKept : Tbl Nat := []
  deriving DecidableEq, Repr

/-- A Naloder: its register fields, and what its blocks hold beside them. -/
structure Nld where
  regs : Regs := []
  pkg : NPkg := {}
  hwErr : List HwErr := []
  log : List LogRec := []
  logSeq : Nat := 0
  out : List HostOut := []
  doms : Tbl NDomain := []
  ktuTimes : Tbl KtuTime := []
  ptp : Tbl PtpPort := []
  tick : NTick := {}
  own : Tbl OwnMap := []
  chains : NChains := {}
  series : NSeries := {}
  tables : Tbl (CodeTable × CodeTable) := []
  host : NHost := {}
  group : NGroup := {}
  verdict : NVerdict := {}
  recorder : NRecorder := {}
  sec : NSecurity := {}
  sched : NSched := {}
  defence : NDefence := {}
  rdma : NRdma := {}
  fw : NFw := {}
  deriving DecidableEq, Repr

end Sys2Proof.Machine
end

