-- ==== Sys2Proof/Machine/NldArr.lean ====
section
/-! DEFINITION. The tensor arrays (R379 to R396): what one op computes, element by element, and its cost. -/

namespace Sys2Proof.Machine

open Sys2Proof

/-! ### Modes (R380, R381, R387, R388) -/

/-- R381: inputs per tile and cycles per activation row. -/
def modeTile : ArrMode → Nat × Nat
  | .fp8 => (128, 1)
  | .int8 => (128, 1)
  | .int4 => (256, 1)
  | .t2 => (512, 1)
  | .b1 => (4096, 1)
  | .bf16 => (128, 4)

/-- R380: weights and activations in a mode. -/
def modeFormats (m : ArrMode) (w a : Nat) : Bool :=
  match m with
  | .fp8 => decide (w ≤ 1 ∧ a ≤ 1 ∧ w + a ≤ 1)
  | .int8 => decide (w = 2 ∧ a = 2)
  | .int4 => decide (w = 3 ∧ a = 3)
  | .t2 => decide (w = 4 ∧ a = 3)
  | .b1 => decide (w = 5 ∧ a = 5)
  | .bf16 => decide (w = 6 ∧ a = 6)

/-- R380: the output formats. -/
def outFormat (f : Nat) : Bool := decide (f ≤ 3 ∨ f = 6 ∨ f = 7 ∨ f = 8)

/-- R387, R388: the K limit of a mode with its formats. -/
def modeLimit (m : ArrMode) (w a : Nat) : Nat :=
  match m with
  | .int8 => 131071
  | .fp8 => if w + a = 0 then 1048576 else 8192
  | _ => 1048576

/-- R386: the clocks of an op of M rows, K inputs and N outputs on A arrays, at throttle level 0. -/
def gemmClocks (mode : ArrMode) (m k n a : Nat) : Nat :=
  let (kt, c) := modeTile mode
  let r := min m 128
  let g := (m + 127) / 128 * ((n + 127) / 128)
  128 + (g + a - 1) / a * ((k + kt - 1) / kt) * max (r * c) 128 + 256 * c + 6 + r

/-- R386, R436: clocks at a throttle level. -/
def throttled (clocks level : Nat) : Nat := (clocks * 8 + (8 - level) - 1) / (8 - level)

/-! ### Accumulation (R387 to R390) -/

/-- The integer that a finite FP8 value is in units of its smallest subnormal, and what it is otherwise. -/
def fp8Units (f : FFmt) (bits : Nat) : FVal × Int :=
  match f.decode bits with
  | .fin neg m e =>
    let u : Int := ((m * 2 ^ (e - (1 - (f.bias : Int) - (f.mb : Int))).toNat : Nat) : Int)
    (.fin neg m e, if neg then -u else u)
  | v => (v, 0)

/-- R388, R389: an accumulator entry with its flags. -/
structure Acc8 where
  sum : Int := 0
  nan : Bool := false
  pinf : Bool := false
  ninf : Bool := false
  deriving DecidableEq, Repr

/-- R389: one product. -/
def Acc8.add (x : Acc8) (a w : FVal × Int) : Acc8 :=
  match a.1.mul w.1 with
  | .nan => { x with nan := true }
  | .inf false => { x with pinf := true }
  | .inf true => { x with ninf := true }
  | .fin .. => { x with sum := x.sum + a.2 * w.2 }

/-- The value of an entry: not a number, an infinity, or A × 2^−f. -/
def Acc8.value (x : Acc8) (f : Int) : FVal :=
  if x.nan ∨ (x.pinf ∧ x.ninf) then .nan
  else if x.pinf then .inf false
  else if x.ninf then .inf true
  else .fin (decide (x.sum < 0)) x.sum.natAbs (-f)

/-- R388: the sum of an FP8 op. -/
def dot8 (fa fw : FFmt) (as ws : List Nat) : FVal :=
  let acc := (as.zip ws).foldl (fun x p => x.add (fp8Units fa p.1) (fp8Units fw p.2)) ({} : Acc8)
  acc.value (((fa.bias : Int) + fa.mb - 1) + ((fw.bias : Int) + fw.mb - 1))

/-- R387: the sum of an integer op, in an accumulator of 32 bits that wraps. -/
def dotInt (fa fw : Nat) (as ws : List Nat) : FVal :=
  let s : Int := (as.zip ws).foldl (fun (x : Int) p => x + intOf fa p.1 * intOf fw p.2) 0
  let v := signedOf 32 (fieldOf 32 s)
  .fin (decide (v < 0)) v.natAbs 0

/-- R390: the running binary32 sum of a BF16 op: the first product passes through unchanged. -/
def dotBf (as ws : List Nat) : FVal :=
  let ps := (as.zip ws).map (fun p => mul32 (p.1 * 2 ^ 16) (p.2 * 2 ^ 16))
  match ps with
  | [] => .fin false 0 0
  | p :: t => fp32.decode (t.foldl add32 p)

/-- The sum of an output entry. -/
def dotOf (m : ArrMode) (fa fw : Nat) (as ws : List Nat) : FVal :=
  match m, floatFmt fa, floatFmt fw with
  | .fp8, some a, some w => dot8 a w as ws
  | .bf16, _, _ => dotBf as ws
  | _, _, _ => dotInt fa fw as ws

/-! ### One op (R391 to R396) -/

/-- What an op of the arrays works on: the rows of activations and of weights, with a scale to each row. -/
structure GemmIn where
  mode : ArrMode
  fa : Nat
  fw : Nat
  out : Nat
  acts : List (List TElem)
  actScale : List TElem
  weights : List (List TElem)
  weightScale : List TElem
  deriving DecidableEq, Repr

/-- What an op gives: its elements with whether each was invalid (R392), in order of row and column. -/
structure GemmOut where
  elems : List (List (TElem × Bool))
  t2rsv : Nat
  deriving DecidableEq, Repr

/-- The element 1.0 for an absent scale. -/
def unitScale : TElem := { bits := 0x3F800000 }

/-- The highest status among elements. -/
def maxStatus (l : List TElem) : Nat := l.foldl (fun m e => max m e.status) 0

/-- R395: some element carries the poison tag. -/
def anyPoison (l : List TElem) : Bool := l.any (·.poison)

/-- R395: the errors of the arrays that hit an output element. -/
def faultHits (fs : List ArrFault) (m n : Nat) : Bool :=
  fs.any (fun f => decide (f.ntile = n / 128) && decide (f.column.val = n % 128) &&
    (if f.acc then decide (f.row = m) else decide (f.row / 128 = m / 128)))

/-- R391 to R396: one output element. -/
def gemmElem (g : GemmIn) (fs : List ArrFault) (m n : Nat) (row w : List TElem) (sa sw : TElem) : TElem × Bool :=
  if anyPoison row ∨ anyPoison w ∨ sa.poison ∨ sw.poison ∨ faultHits fs m n then
    ({ bits := 0, status := 2, poison := true }, false)
  else
    let x := dotOf g.mode g.fa g.fw (row.map (·.bits)) (w.map (·.bits))
    let (b, bad) := outElem g.out (g.mode == .bf16) x (fp32.decode sa.bits) (fp32.decode sw.bits)
    ({ bits := b, status := max (maxStatus row) (maxStatus w) }, bad)

/-- R382, R391: an op. -/
def gemm (g : GemmIn) (fs : List ArrFault) : GemmOut :=
  { elems := g.acts.zipIdx.map (fun r => g.weights.zipIdx.map (fun w =>
      gemmElem g fs r.2 w.2 r.1 w.1 (g.actScale.getD r.2 unitScale) (g.weightScale.getD w.2 unitScale))),
    t2rsv := if g.fw = 4 then ((g.weights.map (fun w => (w.filter (fun e => decide (e.bits = 2))).length)).foldl (· + ·) 0)
      else 0 }

/-- R434: the rows that a convolution lowers to: K runs over the channels and, in each, over the width. -/
def convRows (acts : List (List TElem)) (channels width stride dilation : Nat) : List (List TElem) :=
  let span := dilation * (width - 1) + 1
  let m := if acts.length < span ∨ stride = 0 then 0 else (acts.length - span) / stride + 1
  (List.range m).map (fun i => (List.range channels).flatMap (fun c => (List.range width).map (fun j =>
    (acts.getD (i * stride + j * dilation) []).getD c { bits := 0 })))

/-! ### What the arrays count (R395, R396, R399, R400) -/

/-- The counts of a run: array counters, and the first error as (cause, array, column). -/
structure ArrCounts where
  poisonChunks : Nat := 0
  invalid : Nat := 0
  t2rsv : Nat := 0
  wpar : Nat := 0
  accue : Nat := 0
  first : Option (Nat × Nat × Nat) := none
  deriving DecidableEq, Repr

/-- The chunks, one for each 128 rows and each ntile, that delivered a poisoned element. -/
def chunkPoisons (l : List (List (TElem × Bool))) : Nat :=
  let rows := chunks 128 (l.length + 1) l
  (rows.map (fun c =>
    let cols := (c.map (·.length)).foldl max 0
    ((List.range ((cols + 127) / 128)).filter (fun t =>
      c.any (fun r => ((r.drop (128 * t)).take 128).any (fun e => e.1.poison)))).length)).foldl (· + ·) 0

/-- Add what one op counted. -/
def ArrCounts.op (x : ArrCounts) (cluster : Nat) (fs : List ArrFault) (weights : List (List TElem)) (g : GemmOut) : ArrCounts :=
  let firstT2 : Option (Nat × Nat × Nat) :=
    if g.t2rsv = 0 then none
    else (weights.zipIdx.find? (fun w => w.1.any (fun e => decide (e.bits = 2)))).map (fun w => (3, 4 * cluster, w.2 % 128))
  let firstF : Option (Nat × Nat × Nat) :=
    (fs.head?).map (fun f => (if f.acc then 2 else 1, 4 * cluster + f.array.val, f.column.val))
  { poisonChunks := x.poisonChunks + chunkPoisons g.elems,
    invalid := x.invalid + ((g.elems.map (fun r => (r.filter (·.2)).length)).foldl (· + ·) 0),
    t2rsv := x.t2rsv + g.t2rsv,
    wpar := x.wpar + (fs.filter (fun f => !f.acc)).length,
    accue := x.accue + (fs.filter (·.acc)).length,
    first := x.first.or (firstF.or firstT2) }

end Sys2Proof.Machine
end

