-- ==== Sys2Proof/Machine/NldElem.lean ====
section
/-! DEFINITION. The element unit (R434, R435): the operations on single elements, rows and columns of tensors. -/

namespace Sys2Proof.Machine

open Sys2Proof

/-- The value of an element: fixed point, or floating. -/
inductive EVal where
  | fix (v : Int) (bp : Nat)
  | flt (v : FVal)
  deriving DecidableEq, Repr

/-- A format is a fixed-point form with a binary point. -/
def fixedFmt (f : Nat) : Bool := decide (f = 9 ∨ f = 11)

/-- The value of a pattern. -/
def evalOf (fmt bp bits : Nat) : EVal :=
  match floatFmt fmt with
  | some ff => .flt (ff.decode bits)
  | none => .fix (intOf fmt bits) (if fixedFmt fmt then bp else 0)

/-- R435: a value taken into binary32. -/
def EVal.toF : EVal → FVal
  | .flt v => v
  | .fix v b => fp32.decode (fp32.round (decide (v < 0)) v.natAbs (-(b : Int)))

/-- A value held to the range of an integer format, with status 5 where it saturated. -/
def satFmt (fmt : Nat) (v : Int) : Nat × Nat :=
  let r := if fmt = 11 then (-(2 ^ 127 : Int), (2 ^ 127 : Int) - 1) else intRange fmt
  let s := max r.1 (min r.2 v)
  (if fmt = 11 then fieldOf 128 s else intBits fmt s, if s = v then 0 else 5)

/-- R391, R435: a value written to a format, and 5 where fixed point saturates. What a NaN becomes in fixed point is not
stated. -/
def putE (fmt bp : Nat) (v : EVal) : Nat × Nat :=
  match v, floatFmt fmt with
  | .fix x b, none => satFmt fmt (alignBp x b (if fixedFmt fmt then bp else 0))
  | .fix x b, some _ => (outStage fmt (decide (x < 0)) x.natAbs (-(b : Int)), 0)
  | .flt .nan, none => if fixedFmt fmt then (Config.arithOpen 5 [fmt, bp] % 2 ^ fmtBits fmt, 0) else (outNan fmt, 0)
  | .flt .nan, some _ => (outNan fmt, 0)
  | .flt (.inf neg), none =>
    if fixedFmt fmt then satFmt fmt (if neg then -(2 ^ 200 : Int) else (2 ^ 200 : Int)) else (outInf fmt neg, 0)
  | .flt (.inf neg), some _ => (outInf fmt neg, 0)
  | .flt (.fin neg m e), none =>
    if fixedFmt fmt then
      let s : Int := e + bp
      let k : Int := ((m : Nat) : Int)
      let k := if neg then -k else k
      satFmt fmt (if s ≥ 0 then k * ((2 ^ s.toNat : Nat) : Int) else k / ((2 ^ (-s).toNat : Nat) : Int))
    else (outStage fmt neg m e, 0)
  | .flt (.fin neg m e), some _ => (outStage fmt neg m e, 0)

/-- The exact integer of two-operand arithmetic, given operands at one binary point; a product has twice that. -/
def intOp (op : ElemOp) (x y : Int) (bp : Nat) : Option Int :=
  match op with
  | .add => some (x + y)
  | .sub => some (x - y)
  | .mul => some (alignBp (x * y) bp 0)
  | .min => some (min x y)
  | .max => some (max x y)
  | .abs => some (if x < 0 then -x else x)
  | .shift k => some (if k ≥ 0 then x * ((2 ^ k.toNat : Nat) : Int) else x / ((2 ^ (-k).toNat : Nat) : Int))
  | _ => none

/-- The number of an operation, for a result that is not stated. -/
def elemOpNum : ElemOp → Nat
  | .add => 0
  | .sub => 1
  | .mul => 2
  | .min => 3
  | .max => 4
  | .abs => 5
  | .shift _ => 6
  | .selectStatus => 7
  | .selectMask => 8
  | .convert => 9
  | .extract .. => 10
  | .lookup _ => 11

/-- R435: two-operand arithmetic in binary32. The minimum and maximum with a NaN, and a shift, are not stated. -/
def fltOp (op : ElemOp) (a b : FVal) : FVal :=
  let open_ := fp32.decode (Config.arithOpen 6 [elemOpNum op, fp32.encode a, fp32.encode b] % 2 ^ 32)
  let round (v : FVal) : FVal := fp32.decode (fp32.encode v)
  match op with
  | .add => round (a.add b)
  | .sub => round (a.add b.neg)
  | .mul => round (a.mul b)
  | .min => if a = .nan ∨ b = .nan then open_ else if b.lt a then b else a
  | .max => if a = .nan ∨ b = .nan then open_ else if a.lt b then b else a
  | .abs => match a with
    | .fin _ m e => .fin false m e
    | .inf _ => .inf false
    | .nan => .nan
  | _ => open_

/-- R435: arithmetic on two values, to a format: in binary32 if either operand is floating; exact at the destination's
binary point in fixed point; and for the integer formats exact, a result outside the range being not stated. -/
def arith (op : ElemOp) (fmt bp : Nat) (a b : EVal) : Nat × Nat :=
  match a, b with
  | .fix x bx, .fix y by_ =>
    if fixedFmt fmt then
      match intOp op (alignBp x bx bp) (alignBp y by_ bp) bp with
      | some v => satFmt fmt v
      | none => (0, 0)
    else if (floatFmt fmt).isSome then putE fmt bp (.flt (fltOp op a.toF b.toF))
    else
      match intOp op (alignBp x bx 0) (alignBp y by_ 0) 0 with
      | some v =>
        let r := intRange fmt
        if r.1 ≤ v ∧ v ≤ r.2 then (intBits fmt v, 0)
        else (Config.arithOpen 7 [elemOpNum op, fmt, fieldOf 64 x, fieldOf 64 y] % 2 ^ fmtBits fmt, 0)
      | none => (0, 0)
  | _, _ => putE fmt bp (.flt (fltOp op a.toF b.toF))

/-- The zero element a missing source stands for. -/
def zeroElem : TElem := { bits := 0 }

/-- Element i of a source, which repeats when it is smaller than the op. -/
def TVal.at_ (v : TVal) (i : Nat) : TElem := v.elems.getD (i % v.elems.length) zeroElem

/-- Element i as a value. -/
def TVal.eval (v : TVal) (i : Nat) : EVal := evalOf v.fmt v.bp (v.at_ i).bits

/-- R434: the bits of a packed row. -/
def packedRow (v : TVal) (r : Nat) : Nat :=
  ((v.elems.drop (r * v.cols)).take v.cols).zipIdx.foldl (fun x e => x + e.1.bits * 2 ^ (fmtBits v.fmt * e.2)) 0

/-- R435: the highest status and the poison of the inputs, with the value's own status. -/
def withInputs (r : Nat × Nat) (ins : List TElem) : TElem :=
  if anyPoison ins then { bits := 0, status := max 2 (maxStatus ins), poison := true }
  else { bits := r.1, status := max r.2 (maxStatus ins) }

/-- ELEM (R434): element i of the result. -/
def elemOp (op : ElemOp) (fmt bp : Nat) (tables : List Byte) (srcs : List TVal) (single : Bool) (i : Nat) : TElem :=
  let a := srcs.getD 0 { fmt := fmt, bp := bp, cols := 1, elems := [] }
  let b := srcs.getD 1 { a with elems := [] }
  let c := srcs.getD 2 { a with elems := [] }
  let move (v : TVal) : TElem :=
    let e := v.at_ i
    if e.poison then { bits := 0, status := max 2 e.status, poison := true }
    else let r := putE fmt bp (v.eval i); { bits := r.1, status := max r.2 e.status }
  match op with
  | .selectStatus =>
    if (a.at_ i).status = 0 then move a else if b.elems = [] then { bits := 0 } else move b
  | .selectMask =>
    let m := a.at_ i
    if m.poison then { bits := 0, status := 2, poison := true }
    else if m.bits ≠ 0 then move b else if c.elems = [] then { bits := 0 } else move c
  | .convert => move a
  | .extract hi lo =>
    let v := if single then packedRow a i else (a.at_ i).bits
    let ins := if single then (a.elems.drop (i * a.cols)).take a.cols else [a.at_ i]
    withInputs (putE fmt bp (.fix ((v / 2 ^ lo % 2 ^ (hi + 1 - lo) : Nat) : Int) 0)) ins
  | .lookup table =>
    let w := fmtBits fmt
    let k := (a.at_ i).bits % 256
    let bit := k * w
    withInputs (leNat ((tables.drop (table + bit / 8)).take ((w + 7) / 8 + 1)) / 2 ^ (bit % 8) % 2 ^ w, 0) [a.at_ i]
  | .abs => withInputs (arith op fmt bp (a.eval i) (.fix 0 0)) [a.at_ i]
  | .shift _ => withInputs (arith op fmt bp (a.eval i) (.fix 0 0)) [a.at_ i]
  | _ => withInputs (arith op fmt bp (a.eval i) (b.eval i)) [a.at_ i, b.at_ i]

/-- The elements of ELEM and CMP: those of the largest source, or the rows of the source when a column is extracted. -/
def elemCount (srcs : List TVal) : Nat := (srcs.map (fun v => v.elems.length)).foldl max 0

/-- CMP (R434): how two values compare. -/
def cmpVals (op : CmpOp) (a b : EVal) : Bool :=
  match a, b with
  | .fix x bx, .fix y by_ =>
    let m := max bx by_
    let x := alignBp x bx m
    let y := alignBp y by_ m
    match op with
    | .gt => decide (x > y)
    | .ge => decide (x ≥ y)
    | _ => decide (x = y)
  | _, _ =>
    let x := a.toF
    let y := b.toF
    match op with
    | .gt => y.lt x
    | .ge => y.le x
    | _ => x.le y && y.le x

/-- CMP: element i, 1 where the comparison holds. When a crossing holds is not stated. -/
def cmpElem (op : CmpOp) (imm : Option Int) (srcs : List TVal) (i : Nat) : TElem :=
  let a := srcs.getD 0 { fmt := 9, bp := 0, cols := 1, elems := [] }
  let b := srcs.getD 1 { a with elems := [] }
  let y := match imm with
    | some v => .fix v (if fixedFmt a.fmt then a.bp else 0)
    | none => b.eval i
  let ins := match imm with
    | some _ => [a.at_ i]
    | none => [a.at_ i, b.at_ i]
  let r := match op with
    | .crossing => Config.arithOpen 8 [(a.at_ i).bits, i, (b.at_ i).bits] % 2
    | _ => if cmpVals op (a.eval i) y then 1 else 0
  withInputs (r, 0) ins

/-- The element of rank floor((v − 1) / 2) of a list of integers. -/
def lowerMedian (l : List Int) : Option Int :=
  (l.mergeSort (fun a b => decide (a ≤ b)))[(l.length - 1) / 2]?

/-- R435, NORM mode 1 on a row: the outputs, and the median and the MAD. -/
def normMad (fmt bp : Nat) (srcBp auxBp : Nat) (row : List TElem) : List TElem × List TElem :=
  let xs := (row.filter (fun e => e.status = 0 && !e.poison)).map (fun e => signedOf 64 e.bits)
  match lowerMedian xs with
  | none => (row.map (fun e => { bits := 0, status := max 1 e.status, poison := e.poison }),
      [{ bits := 0, status := 1 }, { bits := 0, status := 1 }])
  | some med =>
    let mad := (lowerMedian (xs.map (fun x => ((x - med).natAbs : Int)))).getD 0
    let out (e : TElem) : TElem :=
      let d := signedOf 64 e.bits - med
      let v : Int :=
        if mad ≠ 0 then d * ((2 ^ bp : Nat) : Int) / mad else if d = 0 then 0 else if d < 0 then -(2 ^ 200 : Int) else (2 ^ 200 : Int)
      withInputs (satFmt fmt v) [e]
    let aux (v : Int) : TElem := let r := sf64 (alignBp v srcBp auxBp); { bits := r.1, status := r.2 }
    (row.map out, [aux med, aux mad])

/-- R435, NORM mode 0 on a row: its elements depend on the row's sums; what they are is not stated. -/
def normMean (fmt : Nat) (row : List TElem) : List TElem :=
  (List.range row.length).map (fun i =>
    withInputs (Config.arithOpen 9 (i :: fmt :: row.map (·.bits)) % 2 ^ fmtBits fmt, 0) row)

/-- SOFTMAX on a row, whose rounding is not stated. -/
def softmaxRow (fmt : Nat) (row : List TElem) : List TElem :=
  (List.range row.length).map (fun i =>
    withInputs (Config.arithOpen 10 (i :: fmt :: row.map (·.bits)) % 2 ^ fmtBits fmt, 0) row)

/-! ### Costs (R434) -/

/-- A quotient rounded up. -/
def ceilDiv (a b : Nat) : Nat := (a + b - 1) / b

/-- The cost of ELEM and CMP on n elements. -/
def elemCost (n : Nat) (sf : Bool) : Nat := 24 + (if sf then ceilDiv n 32 else ceilDiv n 128)

/-! ### Contributions to reduction outputs (R479) -/

/-- A CRC-32C with its initial value replaced. -/
def crcSeed (seed : Nat) (bs : List Byte) : Nat := ((byteBits bs).foldl (crcStep 0x82F63B78) seed) ^^^ 0xFFFFFFFF

/-- R479: the seeds of the rows. -/
def sketchSeeds : List Nat := [0x2545F491, 0x6C078965, 0x5851F42D, 0x4C957F2D]

/-- R479: the hash of a key for a row. -/
def keyHash (row key : Nat) : Nat := crcSeed (sketchSeeds.getD row 0) (leBytes 8 key)

/-- The leading zero bits of a number of `w` bits. -/
def leadingZeros (w v : Nat) : Nat := if v = 0 then w else w - 1 - Nat.log2 v

/-- The identity of an operation, for a count of elements or columns. -/
def identityVals (op count : Nat) : List Nat :=
  if op = 2 then List.replicate count 0x7FFFFFFFFFFFFFFF
  else if op = 3 then List.replicate count 0x8000000000000000
  else if op = 4 then List.replicate 64 0
  else if op = 5 then List.replicate (4 * count) 0
  else List.replicate count 0

/-- R479: the elements of an output. -/
def outputCount (o : OutputDecl) : Nat :=
  if o.op = 1 then o.size / 16 else if o.op = 2 ∨ o.op = 3 then o.size / 8 else o.cols

/-- The smaller or larger of two signed patterns, or their sum. -/
def joinAt (op : Nat) (x v : Nat) : Nat :=
  if op = 1 then (x + v) % 2 ^ 128
  else if op = 2 then (if signedOf 64 x ≤ signedOf 64 v then x else v)
  else (if signedOf 64 x ≤ signedOf 64 v then v else x)

/-- R479: one input element joins an output: at an index for SUM, MIN and MAX, by its value for the others. `bits` is its
SF64 pattern at `srcBp`, `weight` that of the second source. -/
def contribute (o : OutputDecl) (srcBp : Nat) (vals : List Nat) (idx bits weight : Nat) : List Nat :=
  let v := alignBp (signedOf 64 bits) srcBp o.bp
  if o.op = 1 then vals.set idx (joinAt 1 (vals.getD idx 0) (fieldOf 128 (satInt 128 v)))
  else if o.op = 2 ∨ o.op = 3 then vals.set idx (joinAt o.op (vals.getD idx 0) (fieldOf 64 (satInt 64 v)))
  else if o.op = 4 then
    let x := signedOf 64 bits
    let b := if x ≤ 0 then 0 else Nat.log2 x.toNat + 1
    vals.set b ((vals.getD b 0 + 1) % 2 ^ 64)
  else if o.op = 5 then
    (List.range 4).foldl (fun vals r =>
      let h := keyHash r bits
      let i := o.cols * r + h % o.cols
      let w : Int := if bitOf h 31 then -(signedOf 64 weight) else signedOf 64 weight
      vals.set i (fieldOf 32 ((vals.getD i 0 : Int) + w))) vals
  else
    let h := keyHash 0 bits * 2 ^ 32 + keyHash 1 bits
    let p := Nat.log2 o.cols
    let j := h / 2 ^ (64 - p)
    let rho := 1 + leadingZeros (64 - p) (h % 2 ^ (64 - p))
    vals.set j (max (vals.getD j 0) rho)

end Sys2Proof.Machine
end

