-- ==== Sys2Proof/Machine/FlagsNld.lean ====
section
/-! DEFINITION. Naloder's event bits and interrupt sources (R642, R699, R700, R708): how an event bit is set, the record it
writes into the hardware error ring, and what follows for the pending bits and the MSI-X vectors. -/

namespace Sys2Proof.Machine

/-- A field of Naloder's register map. -/
def Nld.get (n : Nld) (f : Fld) (i : Nat := 0) : Nat := n.regs.get f i

/-- A one-bit field. -/
def Nld.bit (n : Nld) (f : Fld) (i : Nat := 0) : Bool := n.regs.bit f i

/-- Set a field. -/
def Nld.put (n : Nld) (f : Fld) (v : Nat) (i : Nat := 0) : Nld := { n with regs := n.regs.set f v i }

/-- Count in a saturating counter field. -/
def Nld.count (n : Nld) (f : Fld) (c : Nat := 1) (i : Nat := 0) : Nld := { n with regs := n.regs.bump f c i }

/-- A time domain. -/
def Nld.dom (n : Nld) (d : Nat) : NDomain := Tbl.get ({} : NDomain) d n.doms

/-- Domain-0 time in whole nanoseconds. -/
def Nld.now (n : Nld) : Nat := (n.dom 0).tb.ns

/-- Elapsed time in nanoseconds: the I/O-die clock has one edge each. -/
def Nld.elapsed (n : Nld) : Nat := n.pkg.elapsed

/-- R699: the interrupt source that the event bits at an address and bit position belong to. -/
def nldEventSource (addr lo : Nat) : Option Nat :=
  if addr = 0xC8060 ∨ addr = 0xC9010 then some 0
  else if 0xC0000 ≤ addr ∧ addr < 0xC0800 then
    (if addr % 256 = 4 ∧ 8 ≤ lo ∧ lo ≤ 11 then some 1 else if addr % 256 = 0x54 ∧ lo = 8 then some 1 else none)
  else if addr = 0x90004 then some 2
  else if 0x80000 ≤ addr ∧ addr < 0x90000 then (if addr % 0x1000 = 0x40 then some 2 else none)
  else if 0xA0000 ≤ addr ∧ addr < 0xA8000 then (if addr % 0x1000 = 0x40 then some 3 else none)
  else if addr = 0x340400 then (if 30 ≤ lo then some 4 else none)
  else if addr = 0x200004 then (if 30 ≤ lo then some 5 else none)
  else if addr = 0x10000C then some 6
  else if addr = 0x140004 ∨ addr = 0x142208 ∨ addr = 0x143008 then some 7
  else if addr = 0x180008 then some 8
  else if addr = 0x1C0020 ∨ addr = 0x1C0214 ∨ addr = 0x1C0304 ∨ addr = 0x1C0400 then some 9
  else if addr = 0x40004 then some 10
  else if addr = 0x40104 then (if lo = 0 then some 10 else none)
  else if 0x1010000 ≤ addr then (if addr % 0x10000 = 4 then some 10 else none)
  else if addr = 0x240244 then some 11
  else if addr = 0x280018 then (if lo = 0 then some 11 else none)
  else if addr = 0x2C0000 then (if lo = 29 ∨ lo = 30 then some 12 else none)
  else if addr = 0x10200 then (if lo = 31 then some 13 else none)
  else if addr = 0x340200 then some 14
  else if addr = 0x340100 then some 15
  else if addr = 0x10014 then some 16
  else if addr = 0x340300 then (if lo ≤ 1 then some 17 else none)
  else none

/-- The sources that the stored event bits raise. -/
def nldSources : Regs → Nat
  | [] => 0
  | (key, v) :: t =>
    match (if v = 0 then none else nldEventSource (key / 32) (key % 32)) with
    | some s => setBit (nldSources t) s
    | none => nldSources t

/-- NLD_IRQ_SRC (R699): a domain in state Refusing is an event of source 1. -/
def Nld.irqSrc (n : Nld) : Nat :=
  if n.doms.any (fun p => p.2.tb.state = .refusing) then setBit (nldSources n.regs) 1 else nldSources n.regs

/-- The BAR0 offset of a register: within the PF's BAR0, or within the VF's own (R705). -/
def barOffset (a : Nat) : Nat := if a < 0x1000000 then a else a % 0x10000

/-- R642: the record of event bits newly set. One that finds 65,536 in the ring is lost, and takes its number with it. -/
def Nld.hwRecord (n : Nld) (addr bits : Nat) : Nld :=
  let seq := n.get NReg.HWERR_PROD_seq
  let n := n.put NReg.HWERR_PROD_seq (seq + 1)
  if n.hwErr.length ≥ 65536 then n.count NReg.HWERR_LOST_count
  else { n with hwErr := n.hwErr ++ [{ time := n.now, offset := barOffset addr, bits := bits, seq := seq }] }

/-- Set bits of an event field; those newly set make a record of the hardware error ring. -/
def Nld.raise (n : Nld) (f : Fld) (v : Nat := 1) (i : Nat := 0) : Nld :=
  let old := n.get f i
  let fresh := v - (v &&& old)
  if fresh = 0 then n else (n.put f (old ||| v) i).hwRecord (f.addr i) (fresh * 2 ^ f.lo)

/-- What Naloder puts out to its host. -/
def Nld.emit (n : Nld) (o : HostOut) : Nld := { n with out := n.out ++ [o] }

/-- R588: a vector of a function is masked: bit 0 of its control word, which PCIe sets at reset. -/
def Nld.vecMasked (n : Nld) (fn v : Nat) : Bool := Tbl.get 1 ((64 * fn + v) * 4 + 3) n.host.msix % 2 == 1

/-- R588: signal a vector: a message, or the pending bit while the vector is masked. -/
def Nld.signal (n : Nld) (fn v : Nat) : Nld :=
  if n.vecMasked fn v then
    (if n.host.pba.contains (64 * fn + v) then n
     else { n with host := { n.host with pba := (64 * fn + v) :: n.host.pba } })
  else n.emit (.msix fn v)

/-- R700: the masked set. -/
def Nld.irqSet (n : Nld) : Nat :=
  (if n.bit NReg.IRQ_CFG_mode then n.irqSrc else n.get NReg.IRQ_PEND_pend) &&& n.get NReg.IRQ_EN_en

/-- R708: the partition events of VF p + 1: the W1C bits, and hq while some bit of its NLD_HQ_EVT is set. -/
def Nld.vfEvents (n : Nld) (p : Nat) : Nat :=
  let b (f : Fld) : Nat := n.get f p * 2 ^ f.lo
  b NReg.VF_EVT_run_fault + b NReg.VF_EVT_abort + b NReg.VF_EVT_fw_state + b NReg.VF_EVT_window +
  b NReg.VF_EVT_epoch + b NReg.VF_EVT_members +
  (if n.get NReg.VHQ_EVT_emul_drop p + n.get NReg.VHQ_EVT_emul_timeout p + n.get NReg.VHQ_EVT_loss p +
      n.get NReg.VHQ_EVT_ring_err p = 0 then 0 else 64)

/-- R708: the enabled partition events. -/
def Nld.vfSet (n : Nld) (p : Nat) : Nat := n.vfEvents p &&& n.get NReg.VF_EN_en p

/-- R700, R708: what follows a change: pending bits of sources that rose, and the messages of vectors 0 whose masked set
went from empty to non-empty. -/
def Nld.settle (before n : Nld) : Nld :=
  let rise := n.irqSrc - (n.irqSrc &&& before.irqSrc)
  let n := if rise = 0 then n else n.put NReg.IRQ_PEND_pend (n.get NReg.IRQ_PEND_pend ||| rise)
  let n := if before.irqSet = 0 ∧ n.irqSet ≠ 0 then n.signal 0 0 else n
  (List.range 16).foldl (fun n p => if before.vfSet p = 0 ∧ n.vfSet p ≠ 0 then n.signal (p + 1) 0 else n) n

/-- R700: a write of NLD_IRQ_PEND or NLD_IRQ_EN arms vector 0 again. A set that only this write made non-empty has its one
message from `Nld.settle`. -/
def Nld.rearm (before n : Nld) : Nld := if n.irqSet = 0 ∨ before.irqSet = 0 then n else n.signal 0 0

/-- R708: the same for a VF. -/
def Nld.rearmVf (before n : Nld) (p : Nat) : Nld :=
  if n.vfSet p = 0 ∨ before.vfSet p = 0 then n else n.signal (p + 1) 0

end Sys2Proof.Machine
end

