-- ==== Sys2Proof/Machine/NldQp.lean ====
section
/-! DEFINITION. Queue pairs as the rest of Naloder sees them (R597, R598, R601, R613, R615): messages handed to the protected
channel, and records mirrored to consumers. -/

namespace Sys2Proof.Machine

open Sys2Proof

/-- A queue pair. -/
def Nld.qp (n : Nld) (q : Nat) : Qp := Tbl.get ({} : Qp) q n.rdma.qps

/-- Replace a queue pair. -/
def Nld.setQp (n : Nld) (q : Nat) (x : Qp) : Nld := { n with rdma := { n.rdma with qps := Tbl.set ({} : Qp) q x n.rdma.qps } }

/-- R597: the class of a queue pair. -/
def qpClass (q : Nat) : Nat := if q < 256 then q % 2 else 2

/-- R597: the local QPN. -/
def qpNumber (q : Nat) : Nat := 0x1000 + q

/-- R494: this Naloder is a group root, acting or standby. -/
def Nld.isRoot (n : Nld) : Bool := n.get NReg.GRP_CFG_role == 1 || n.get NReg.GRP_CFG_role == 2

/-- R598: the peer slot of this root: its root peer has the lower tray number, or not. -/
def Nld.ownSlot (n : Nld) : Nat :=
  let name := n.get NReg.GRP_CFG_name
  let peer := n.get NReg.GRP_ROOTPEER_peer
  2 * (name / 32) + (if peer / 32 = name / 32 ∧ peer < name then 1 else 0)

/-- A word of the peer table (R621). -/
def Nld.peerWord (n : Nld) (slot w : Nat) : Nat := Tbl.get 0 (8 * slot + w) n.rdma.peers

/-- A slot of the peer table is valid. -/
def Nld.peerValid (n : Nld) (slot : Nat) : Bool := bitOf (n.peerWord slot 0) 31

/-- The slots of the other roots. -/
def Nld.peerSlots (n : Nld) : List Nat := (List.range 128).filter (fun s => n.peerValid s && s != n.ownSlot)

/-- R601: hand a message to a queue pair. One outside RTS, or with 256 messages waiting, takes none; the result says so. -/
def Nld.postQp (n : Nld) (q : Nat) (m : QpMsg) : Nld × Bool :=
  let x := n.qp q
  if x.state = 3 ∧ x.sendQ.length < 256 then (n.setQp q { x with sendQ := x.sendQ ++ [m] }, true) else (n, false)

/-- R464: the header of a message, in front of its body. -/
def hornMessage (type route origin : Nat) (body : List Byte) : List Byte :=
  leBytes 1 type ++ leBytes 1 route ++ leBytes 2 origin ++ leBytes 4 (8 + body.length) ++ body

/-- The bytes of a message of the exchange, and its class (R613): ALARM and Bugle CMD go on class 0. -/
def exchanged (origin : Nat) : Msg → Option (List Byte × Nat)
  | .horn b => some (b, if b.getD 0 0 = 0x09 then 0 else 1)
  | .bugle m => some (hornMessage 0x04 2 origin m.raw, 0)
  | _ => none

/-- R613: hand the exchange between group roots a message: 0 for the roots of the other groups, 1 for the root peer. -/
def Nld.sendRoots (n : Nld) (to_ : Nat) (m : Msg) : Nld :=
  match exchanged (n.get NReg.GRP_CFG_name) m with
  | none => n
  | some (bytes, c) =>
    n.peerSlots.foldl (fun (n : Nld) s =>
      if (s / 2 = n.get NReg.GRP_CFG_name / 32) = (to_ = 1) then (n.postQp (2 * s + c) { bytes := bytes }).1 else n) n

/-- R615: a record written to a PF ring is mirrored on the consumer queue pairs bound to it. -/
def Nld.mirror (n : Nld) (key seq : Nat) (bytes : List Byte) : Nld :=
  let bound := (n.rdma.qps.filter (fun (e : Nat × Qp) => decide (256 ≤ e.1) && e.2.state != 0 && e.2.ring == key)).map (·.1)
  bound.foldl (fun (n : Nld) q =>
    let (n, ok) := n.postQp q { bytes := bytes, imm := some (seq % 2 ^ 32) }
    if ok then n else n.count NReg.RDMA_MIRRORDROP_count) n

end Sys2Proof.Machine
end

