-- ==== Sys2Proof/Machine/OpsNld.lean ====
section
/-! DEFINITION. The named operations over Naloder that its commands share: rings, completions, interrupts, and the records
that its blocks deliver to subscribed rings (R564 to R588). -/

namespace Sys2Proof.Machine

/-! ### Rings (R562, R567, R575) -/

/-- R562: the owner that a function serves. -/
def fnOwner (fn : Nat) : Nat := if fn = 0 then fleet else fn - 1

/-- The function that serves an owner. -/
def ownerFn (o : Nat) : Nat := if o = fleet then 0 else o + 1

/-- The number of a ring. -/
def ringKey (fn ring : Nat) : Nat := 32 * fn + ring

/-- R567: the rings a function has. -/
def ringCount (fn : Nat) : Nat := if fn = 0 then 32 else 8

/-- A ring. -/
def Nld.ring (n : Nld) (key : Nat) : RingRt := Tbl.get ({} : RingRt) key n.host.rings

/-- Replace a ring. -/
def Nld.setRing (n : Nld) (key : Nat) (r : RingRt) : Nld :=
  { n with host := { n.host with rings := Tbl.set ({} : RingRt) key r n.host.rings } }

/-- A word of a ring's context (R575). -/
def Nld.ctxWord (n : Nld) (key w : Nat) : Nat := Tbl.get 0 (32 * key + w) n.host.ctx

/-- A field of a context word. -/
def Nld.ctxBits (n : Nld) (key w hi lo : Nat) : Nat := n.ctxWord key w / 2 ^ lo % 2 ^ (hi - lo + 1)

/-- The type of a ring (R567). -/
def Nld.ringType (n : Nld) (key : Nat) : Nat := n.ctxBits key 0 2 0

/-- The slots of a ring. -/
def Nld.ringSlots (n : Nld) (key : Nat) : Nat := 2 ^ n.ctxBits key 0 12 8

/-- A ring runs. -/
def Nld.ringRuns (n : Nld) (key : Nat) : Bool := (n.ring key).enabled && (n.ring key).error == 0

/-- A ring takes delivery records. -/
def Nld.delivers (n : Nld) (key : Nat) : Bool := n.ringRuns key && (n.ringType key == 2 || n.ringType key == 3)

/-- A bit of a ring's subscription (R584). -/
def Nld.subscribed (n : Nld) (key b : Nat) : Bool := bitOf (n.ctxBits key 7 15 0) b

/-- The event registers of a function: the PF's copy or the VF's (R591). -/
def hqField (pf vf : Fld) (fn : Nat) : Fld × Nat := if fn = 0 then (pf, 0) else (vf, fn - 1)

/-- Raise an event of a function's queue engine. -/
def Nld.hqRaise (n : Nld) (pf vf : Fld) (fn : Nat) : Nld :=
  let x := hqField pf vf fn
  n.raise x.1 1 x.2

/-- Count in a counter of a function's queue engine. -/
def Nld.hqCount (n : Nld) (pf vf : Fld) (fn : Nat) (c : Nat := 1) : Nld :=
  let x := hqField pf vf fn
  n.count x.1 c x.2

/-- R568: the status entry of a ring: sub_cons, comp_prod, data_prod, and its state. -/
def Nld.writeStatus (n : Nld) (key : Nat) : Nld :=
  let r := n.ring key
  n.emit (.write (key / 32) (key % 32) 0x10000
    [r.subCons % 2 ^ 32, r.compProd % 2 ^ 32, r.dataProd % 2 ^ 32,
     (if r.enabled then 1 else 0) + (if r.error = 0 then 0 else 2) + 256 * r.error])

/-- R576: a ring enters error. -/
def Nld.ringError (n : Nld) (key cause : Nat) : Nld :=
  if n.ringRuns key then
    let n := n.setRing key { n.ring key with error := cause }
    (n.writeStatus key).hqRaise NReg.HQ_EVT_ring_err NReg.VHQ_EVT_ring_err (key / 32)
  else n

/-! ### Completions and interrupts (R564, R573, R588) -/

/-- R573: the phase of the completion at a free-running index. -/
def phaseOf (slots idx : Nat) : Nat := if idx / slots % 2 = 0 then 1 else 0

/-- R588: signal a ring's vector; nothing is unsignalled then. -/
def Nld.ringSignal (n : Nld) (key : Nat) : Nld :=
  (n.setRing key { n.ring key with unsignalled := 0 }).signal (key / 32) (n.ctxBits key 0 23 16)

/-- R564, R573, R588: write the next completion of a ring, its status entry, and its interrupt when one is due. -/
def Nld.pushCompletion (n : Nld) (key : Nat) (words : List Nat) (irq : Bool) : Nld :=
  let r := n.ring key
  let slots := n.ringSlots key
  let last := words.getD 7 0 % 2 ^ 31 + phaseOf slots r.compProd * 2 ^ 31
  let n := n.emit (.write (key / 32) (key % 32) (r.compProd % slots) (words.take 7 ++ [last]))
  let n := n.setRing key { r with compProd := r.compProd + 1, unsignalled := r.unsignalled + 1 }
  let n := n.writeStatus key
  if irq ∨ (n.ring key).unsignalled ≥ max 1 (n.ctxBits key 0 31 24) then n.ringSignal key else n

/-- The words of a list of bytes. -/
def wordsOf (bs : List Byte) : List Nat := (chunks 4 (bs.length + 1) bs).map leNat

/-- R573: the words of a submission ring's completion. -/
def Completion.words (c : Completion) : List Nat :=
  [c.tag % 2 ^ 32, c.slot % 2 ^ 16 + c.gen % 2 ^ 16 * 2 ^ 16,
   c.status % 256 + c.flags % 256 * 256 + c.detail % 2 ^ 16 * 2 ^ 16] ++
  wordsOf ((c.result ++ List.replicate 16 0).take 16) ++ [0]

/-- R573, R633, R637: a descriptor completes: its completion is written and its copy dropped. One that an image executed again
carries the repeat flag. A ring in error writes nothing (R576), and of a descriptor that a function reset has forgotten no
copy is left (R565). -/
def Nld.complete (n : Nld) (key slot : Nat) (status : Nat) (flags detail : Nat) (result : List Byte) : Nld :=
  let r := n.ring key
  match r.held.find? (fun d => d.slot = slot) with
  | none => n
  | some d =>
    let n := n.setRing key { r with held := r.held.filter (fun x => x.slot ≠ slot) }
    let c : Completion := { tag := d.tag, slot := slot, gen := d.gen, status := status,
                            flags := flags ||| d.again.toNat, detail := detail, result := result }
    if r.error = 0 then n.pushCompletion key c.words d.irq else n

/-! ### Delivery records (R581 to R585) -/

/-- The length of a body rounded up to 16 bytes, with the record's header (R582). -/
def DelivRec.length (d : DelivRec) : Nat := 16 + (d.body.length + 15) / 16 * 16

/-- R582: the bytes of a record. -/
def DelivRec.bytes (period : Nat) (d : DelivRec) : List Byte :=
  leBytes 2 d.type ++ leBytes 2 (if d.prov then 1 else 0) ++ leBytes 4 d.length ++ leBytes 6 d.tick ++
  leBytes 2 period ++ (d.body ++ List.replicate (d.length - 16 - d.body.length) 0)

/-- The tick period in force, in µs. -/
def Nld.periodUs (n : Nld) : Nat := n.get NReg.TICK_PERIOD_period_us

/-- R51, R582: a retraction. -/
def retraction (image reason owner first last : Nat) : DelivRec :=
  { type := 4, tick := last,
    body := leBytes 8 image ++ leBytes 1 reason ++ leBytes 1 owner ++ leBytes 6 0 ++ leBytes 6 first ++ leBytes 6 last }

/-- R55, R582: a tick-skipped record of tray scope. -/
def skippedRec (cause first last : Nat) : DelivRec :=
  { type := 5, tick := last,
    body := leBytes 1 0 ++ leBytes 1 cause ++ leBytes 14 0 ++ leBytes 6 first ++ leBytes 6 last }

/-- R52: the first record of each ring that takes provisional results, after a reset, retracts every tick below the first
opened since. -/
def Nld.restartFirst (n : Nld) (key : Nat) : Nld :=
  let r := n.ring key
  if r.restarted ∨ ¬ n.subscribed key 3 then n
  else
    match n.tick.firstOpened with
    | none => n
    | some t =>
      n.setRing key { r with restarted := true, formed := r.formed ++ [retraction 0 5 fleet 0 (t - 1)] }

/-- A record is formed for a ring. -/
def Nld.formOn (n : Nld) (key : Nat) (d : DelivRec) : Nld :=
  if n.delivers key then
    let n := n.restartFirst key
    n.setRing key { n.ring key with formed := (n.ring key).formed ++ [d] }
  else n

/-- The rings there are, in order. -/
def Nld.ringKeys (n : Nld) : List Nat := n.host.rings.map (·.1)

/-- A record is formed for every delivery ring that a test selects. -/
def Nld.form (n : Nld) (which : Nat → Bool) (d : DelivRec) : Nld :=
  n.ringKeys.foldl (fun n key => if n.delivers key && which key then n.formOn key d else n) n

/-- R584: a ring of type 2 that takes a kind of record (a bit of its subscription). -/
def Nld.takes2 (n : Nld) (b key : Nat) : Bool := n.ringType key == 2 && n.subscribed key b

/-- A ring belongs to an owner's function. -/
def ringOf (o key : Nat) : Bool := fnOwner (key / 32) == o

/-- R582: the limit of a ring's overflow in bytes. -/
def Nld.ovfLimit (n : Nld) (key : Nat) : Nat := n.ctxBits key 1 31 16 * 65536

/-- The bytes of a list of records. -/
def recsLength (l : List DelivRec) : Nat := (l.map DelivRec.length).foldl (· + ·) 0

/-- The bytes of a ring's data area. -/
def Nld.areaSize (n : Nld) (key : Nat) : Nat := 2 ^ n.ctxBits key 6 4 0

/-- R581: the pad that a record needs ahead of it. -/
def Nld.padFor (n : Nld) (key len : Nat) : Nat :=
  let off := (n.ring key).dataProd % n.areaSize key
  if off + len > n.areaSize key then n.areaSize key - off else 0

/-- R581: a record fits the data area and the completion ring. -/
def Nld.fits (n : Nld) (key : Nat) (d : DelivRec) : Bool :=
  let r := n.ring key
  let pad := n.padFor key d.length
  decide (pad + d.length ≤ n.areaSize key - (r.dataProd - r.dataCons)) &&
  decide ((if pad = 0 then 1 else 2) ≤ n.ringSlots key - (r.compProd - r.compCons))

/-- R573, R581, R615: one record's bytes and its completion; pad records are not mirrored. -/
def Nld.writeOne (n : Nld) (key : Nat) (d : DelivRec) (bytes : List Byte) : Nld :=
  let r := n.ring key
  let off := r.dataProd % n.areaSize key
  let base := n.ctxWord key 2 + n.ctxWord key 3 * 2 ^ 32
  let n := n.emit (.buffer (base + off) bytes)
  let seq := if d.type = 0 then r.recSeq else r.recSeq + 1
  let n := n.setRing key { r with dataProd := r.dataProd + bytes.length, recSeq := seq }
  let n := if d.type = 0 then n else n.mirror key seq bytes
  n.pushCompletion key
    [d.type % 256 + (if d.prov then 256 else 0), 0, off, bytes.length, d.tick % 2 ^ 32,
     d.tick / 2 ^ 32 % 2 ^ 16 + n.periodUs % 2 ^ 16 * 2 ^ 16, seq % 2 ^ 32, 0] false

/-- R581: write a record that fits, with the pad ahead of it. -/
def Nld.writeRec (n : Nld) (key : Nat) (d : DelivRec) : Nld :=
  let pad := n.padFor key d.length
  let p : DelivRec := { type := 0, tick := d.tick, body := [] }
  let n := if pad = 0 then n
    else n.writeOne key p (leBytes 2 0 ++ leBytes 2 0 ++ leBytes 4 pad ++ leBytes 6 d.tick ++ leBytes 2 n.periodUs ++
      List.replicate (pad - 16) 0)
  n.writeOne key d (d.bytes n.periodUs)

/-- R583: a record is discarded and counted; a later loss record will say so. -/
def Nld.loseRec (n : Nld) (key : Nat) (d : DelivRec) : Nld :=
  let r := n.ring key
  let l : LossInfo := match r.loss with
    | none => { count := 1, types := 2 ^ d.type, first := d.tick, last := d.tick }
    | some l => { count := l.count + 1, types := setBit l.types d.type, first := min l.first d.tick, last := max l.last d.tick }
  let n := n.setRing key { r with loss := some l }
  (n.hqCount NReg.HQ_LOST_count NReg.VHQ_LOST_count (key / 32)).hqRaise NReg.HQ_EVT_loss NReg.VHQ_EVT_loss (key / 32)

/-- R582: a loss record. -/
def lossRec (l : LossInfo) : DelivRec :=
  { type := 7, tick := l.first,
    body := leBytes 4 (min l.count (2 ^ 32 - 1)) ++ leBytes 4 l.types ++ leBytes 6 l.first ++ leBytes 6 l.last }

/-- R583: the overflow and the ring have drained below half. -/
def Nld.drained (n : Nld) (key : Nat) : Bool :=
  let r := n.ring key
  (r.overflow.isEmpty || decide (2 * recsLength r.overflow < n.ovfLimit key)) &&
  decide (2 * (r.dataProd - r.dataCons) < n.areaSize key)

/-- R581, R583: the queue engine's next step on a delivery ring. A loss record that is due goes first; then the overflow in
order; a record that cannot be written joins the overflow, or is discarded once that is full. -/
def Nld.deliverNext (n : Nld) (key : Nat) : Nld :=
  if ¬ n.delivers key then n
  else
    let r := n.ring key
    let lossDue : Option LossInfo := if n.drained key ∧ (r.overflow ≠ [] ∨ r.formed ≠ []) then r.loss else none
    match lossDue with
    | some l =>
      if n.fits key (lossRec l) then (n.setRing key { r with loss := none }).writeRec key (lossRec l) else n
    | none =>
      match r.overflow, r.formed with
      | o :: os, fs =>
        if n.fits key o then (n.setRing key { r with overflow := os }).writeRec key o
        else
          match fs with
          | [] => n
          | f :: fs' =>
            let n := n.setRing key { r with formed := fs' }
            if recsLength r.overflow ≥ n.ovfLimit key then n.loseRec key f
            else n.setRing key { n.ring key with overflow := r.overflow ++ [f] }
      | [], f :: fs =>
        let n := n.setRing key { r with formed := fs }
        if n.fits key f then n.writeRec key f
        else if n.ovfLimit key = 0 then n.loseRec key f
        else n.setRing key { n.ring key with overflow := [f] }
      | [], [] => n

/-! ### Firmware (R638, R641) -/

/-- NLD_FW_STATUS.state is running. -/
def Nld.fwRuns (n : Nld) : Bool := n.get NReg.FW_STATUS_state == 1

/-- R698, R707: a change of the firmware state. -/
def Nld.setFwState (n : Nld) (v : Nat) : Nld :=
  if n.get NReg.FW_STATUS_state = v then n
  else
    let n := (n.put NReg.FW_STATUS_state v).raise NReg.PKG_EVT_fw_state
    (List.range 16).foldl (fun n p => n.raise NReg.VF_EVT_fw_state 1 p) n

/-- R647: firmware writes a log record; the ring keeps the newest 16,384. -/
def Nld.logWrite (n : Nld) (core level : Nat) : Nld :=
  if level ≤ n.get NReg.FWE_LOGCTL_level then
    let l := n.log ++ [{ seq := n.logSeq, time := n.now, core := core, level := level }]
    { n with log := l.drop (l.length - 16384), logSeq := n.logSeq + 1 }
  else n

end Sys2Proof.Machine
end

