-- ==== Sys2Proof/Machine/NldTime.lean ====
section
/-! DEFINITION. Naloder's eight time domains (R69 to R92, R99, R100, R727): their sources, their samples, the SYNC and DELAY
messages of the Fife and Horn ports, steps, switches, and the clock edge. -/

namespace Sys2Proof.Machine

/-! ### Ports -/

/-- A Fife port. -/
def Nld.fife (n : Nld) (p : Nat) : NFife := Tbl.get ({} : NFife) p n.chains.ports

/-- Replace a Fife port. -/
def Nld.setFife (n : Nld) (p : Nat) (x : NFife) : Nld :=
  { n with chains := { n.chains with ports := Tbl.set ({} : NFife) p x n.chains.ports } }

/-- A Horn port. -/
def Nld.horn (n : Nld) (p : Nat) : NHorn := Tbl.get ({} : NHorn) p n.group.horns

/-- Replace a Horn port. -/
def Nld.setHorn (n : Nld) (p : Nat) (x : NHorn) : Nld :=
  { n with group := { n.group with horns := Tbl.set ({} : NHorn) p x n.group.horns } }

/-- Hand a Fife port a message; everything Naloder sends is guaranteed (R289). -/
def Nld.sendFife (n : Nld) (p : Nat) (m : Msg) : Nld :=
  let x := n.fife p
  n.setFife p { x with link := x.link.queue (2 * m.vc) true m }

/-- Hand a Horn port a message. -/
def Nld.sendHorn (n : Nld) (p : Nat) (m : Msg) : Nld :=
  let x := n.horn p
  n.setHorn p { x with link := x.link.queue (2 * m.vc) true m }

/-- R493: the role of a Horn port: 0 unused, 1 to the primary parent, 2 to the standby parent, 3 to a child. -/
def Nld.hornRole (n : Nld) (p : Nat) : Nat := n.get NReg.HORNp_CTRL_role p

/-- R494: this Naloder's name G.T. -/
def Nld.name (n : Nld) : Nat := n.get NReg.GRP_CFG_name

/-- R89: a Fife port is the Ezcia port. -/
def Nld.isEzcia (n : Nld) (p : Nat) : Bool :=
  n.bit NReg.TIME_CFG_ezcia_mode && n.get NReg.TIME_CFG_ezcia_port == p

/-! ### Domains -/

/-- Replace a domain. -/
def Nld.setDom (n : Nld) (d : Nat) (x : NDomain) : Nld := { n with doms := Tbl.set ({} : NDomain) d x n.doms }

/-- R79, R727: Naloder has no register for the delay gate, which is the 20 ns that KTU_TIME_DREQ resets to. -/
def nldGateNs : Nat := 20

/-- R69, R99: what the registers set for a domain. -/
def Nld.servoCfg (n : Nld) (d : Nat) : ServoCfg :=
  { incr := n.get NReg.TDd_INCR_INT_incr_int d * 2 ^ 32 + n.get NReg.TDd_INCR_FRAC_incr_frac d,
    kp := n.get NReg.TDd_GAIN_kp d, ki := n.get NReg.TDd_GAIN_ki d,
    stepThrNs := n.get NReg.TDd_STEP_THR_step_thr_ns d, lockThrPs := n.get NReg.TDd_LOCK_THR_lock_thr_ps d,
    refuseLimit := n.get NReg.TDd_LIMITS_refuse_limit d, lockCount := n.get NReg.TDd_LIMITS_lock_count d,
    gateNs := nldGateNs, syncUs := n.get NReg.TIME_CFG_sync_iv_us,
    hold := n.bit NReg.TDd_CTRL_hold d, enable := n.bit NReg.TDd_CTRL_enable d }

/-- R82, R97: report what a clock operation did. -/
def Nld.clockActs (n : Nld) (d : Nat) (a : ClockActs) : Nld :=
  let n := if a.holdoverEntered then n.raise NReg.TDd_STATUS_holdover_entered 1 d else n
  let n := if a.stepApplied then n.raise NReg.TDd_STATUS_step_applied 1 d else n
  let n := if a.stepRefused then (n.raise NReg.TDd_STATUS_step_refused 1 d).count NReg.TDd_REFUSED_refused 1 d else n
  if a.lockLost then n.raise NReg.TDd_STATUS_lock_lost 1 d else n

/-- R91, R92: the clock takes its other source, less a difference that leaves its time without a step; the paths change
places. -/
def NDomain.swap (x : NDomain) : NDomain :=
  { x with tb := { x.tb with main := x.tb.second, second := x.tb.main, offset2 := x.tb.offset },
           shift := if x.onSecond then x.shift - x.diff * 65536 else x.shift + x.diff * 65536,
           onSecond := !x.onSecond }

/-- R99: the source code in use after a switch. -/
def Nld.noteSource (n : Nld) (d : Nat) : Nld :=
  let c := if (n.dom d).onSecond then n.get NReg.TDd_SRC_secondary d else n.get NReg.TDd_SRC_primary d
  (n.put NReg.TDd_SRCSTAT_current c d).raise NReg.TDd_SRCSTAT_failover 1 d

/-- R92: the current source leaves Locked while the other is Locked, which a path with a valid delay stands for. -/
def Nld.failover (n : Nld) (d : Nat) (before : TimeBase) : Nld :=
  let x := n.dom d
  if before.state = .locked ∧ x.tb.state ≠ .locked ∧ n.get NReg.TDd_SRC_secondary d ≠ 0 ∧ x.tb.second.delayValid then
    (n.setDom d x.swap).noteSource d
  else n

/-- Run a clock operation on a domain, report it, and switch its source if R92 says so. -/
def Nld.onDom (n : Nld) (d : Nat) (f : ServoCfg → TimeBase → TimeBase × ClockActs) : Nld :=
  let x := n.dom d
  let r := f (n.servoCfg d) x.tb
  ((n.setDom d { x with tb := r.1 }).clockActs d r.2).failover d x.tb

/-- R91: D follows the two sources while both are Locked. -/
def NDomain.updateDiff (x : NDomain) : NDomain :=
  if x.tb.state = .locked ∧ x.tb.main.delayValid ∧ x.tb.second.delayValid then
    let mainOff := x.tb.offset - x.shift / 65536
    let d := if x.onSecond then x.tb.offset2 - mainOff else mainOff - x.tb.offset2
    { x with diff := Config.diffFilter x.diff d }
  else x

/-- The source code of the path in use, and of the other path. -/
def Nld.codes (n : Nld) (d : Nat) : Nat × Nat :=
  let p := n.get NReg.TDd_SRC_primary d
  let s := n.get NReg.TDd_SRC_secondary d
  if (n.dom d).onSecond then (s, p) else (p, s)

/-- A SYNC on the path not in use: its offset is kept, for D (R91, R727). -/
def TimeBase.syncSecond (c : ServoCfg) (b : TimeBase) (t1 t2 corr : Int) : TimeBase :=
  let b := { b with second := b.second.sync t1 t2 corr }
  if b.second.delayValid ∧ ¬ b.straddles c t1 t2 then { b with offset2 := t2 - t1 - corr - b.second.dFilt } else b

/-- R79 to R84, R91: a domain takes a SYNC of the source with a code, received at `t2`. -/
def Nld.domSyncAt (n : Nld) (code : Nat) (t1 corr t2 : Int) (d : Nat) : Nld :=
  let cs := n.codes d
  if code = 0 then n
  else if cs.1 = code then
    let n := n.onDom d (fun c b => b.takeSync c t1 t2 corr ((n.dom d).shift / 65536))
    n.setDom d (n.dom d).updateDiff
  else if cs.2 = code then
    let x := n.dom d
    n.setDom d ({ x with tb := x.tb.syncSecond (n.servoCfg d) t1 t2 corr }).updateDiff
  else n

/-- A SYNC received `dt` after the preceding edge. -/
def Nld.domSync (n : Nld) (code : Nat) (t1 corr : Int) (dt : Nat) (d : Nat) : Nld :=
  n.domSyncAt code t1 corr ((n.dom d).tb.reading + dt) d

/-- Every domain takes a SYNC of a source. -/
def Nld.allSync (n : Nld) (code : Nat) (t1 corr : Int) (dt : Nat) : Nld :=
  (List.range 8).foldl (fun n d => n.domSync code t1 corr dt d) n

/-- A domain takes a DELAY_RESP of the source with a code. -/
def Nld.domResp (n : Nld) (code seq : Nat) (t4 corr : Int) (d : Nat) : Nld :=
  let cs := n.codes d
  let x := n.dom d
  let c := n.servoCfg d
  if code = 0 then n
  else if cs.1 = code then n.setDom d { x with tb := { x.tb with main := x.tb.response c x.tb.main seq t4 corr } }
  else if cs.2 = code then n.setDom d { x with tb := { x.tb with second := x.tb.response c x.tb.second seq t4 corr } }
  else n

/-- Every domain takes a DELAY_RESP of a source. -/
def Nld.allResp (n : Nld) (code seq : Nat) (t4 corr : Int) : Nld :=
  (List.range 8).foldl (fun n d => n.domResp code seq t4 corr d) n

/-- R77, R99: the asymmetry of a Horn port, signed, 2^-16 ns. -/
def Nld.hornAsym (n : Nld) (p : Nat) : Int := signedOf 32 (n.get NReg.HORN_ASYMp_asym p)

/-! ### Messages -/

/-- R89, R90: the KTU-side ports a message of domain 1 goes out on: every Fife port but the Ezcia port. -/
def Nld.relayDown (n : Nld) (from_ : Nat) (m : Msg) : Nld :=
  (List.range 16).foldl (fun n p => if p = from_ then n else n.sendFife p m) n

/-- R89, R90: a SYNC from the hub is a master sample for domain 1 and is relayed with its residence added; a SYNC from a
KTU's side is no message of that direction and is dropped. -/
def Nld.fifeSync (n : Nld) (p : Nat) (m : SyncMsg) (dt residence : Nat) : Nld :=
  if n.isEzcia p ∧ m.domain.val = 1 then
    (n.relayDown p (.sync { m with corr := m.corr + residence })).allSync 11 (m.t1.toNat : Int) m.corr dt
  else n.count NReg.FIFEp_MSGDROP_count 1 p

/-- R77, R465: a SYNC on a Horn port; the asymmetry of the port is added to its correction. -/
def Nld.hornSync (n : Nld) (p : Nat) (m : SyncMsg) (dt : Nat) : Nld :=
  n.allSync (p + 1) (m.t1.toNat : Int) (m.corr + n.hornAsym p) dt

/-- R75: the port is master of its link: a Fife port with KTUs, a Horn port to a child. -/
def Nld.isMaster (n : Nld) (port : LinkId) : Bool :=
  match port with
  | .nldFife p => (n.fife p.val).link.carries && !n.isEzcia p.val
  | .nldHorn p => (n.horn p.val).link.carries && n.hornRole p.val == 3
  | _ => false

/-- The key of a port among all sixteen Fife and eight Horn ports. -/
def portKey : LinkId → Nat
  | .nldFife p => p.val
  | .nldHorn p => 16 + p.val
  | _ => 24

/-- R75, R99: a domain whose source is another domain takes a sample of it, at the sync interval of domain 0. -/
def Nld.refSamples (n : Nld) : Nld :=
  (List.range 8).foldl (fun n d =>
    if (n.codes d).1 = 12 then
      let t := (n.dom (n.get NReg.TDd_SRC_ref_domain d)).tb.reading
      let x := n.dom d
      let n := n.setDom d { x with tb := { x.tb with main := { x.tb.main with delayValid := true } } }
      n.domSync 12 t 0 0 d
    else n) n

/-- R75: a port sends SYNC; t1 is written as it leaves. -/
def Nld.sendSync (n : Nld) (port : LinkId) : Nld :=
  if n.isMaster port then
    let k := portKey port
    let seq := Tbl.get 0 k n.group.syncSeq
    let n := { n with group := { n.group with syncSeq := Tbl.set 0 k ((seq + 1) % 65536) n.group.syncSeq } }
    let m := Msg.sync { domain := 0, seq := BitVec.ofNat 16 seq, t1 := 0, corr := 0 }
    match port with
    | .nldFife p => n.sendFife p.val m
    | .nldHorn p => n.sendHorn p.val m
    | _ => n
  else n

/-- R75: the answer to a DELAY_REQ of domain 0, received `dt` after the preceding edge. -/
def Nld.answerTo (n : Nld) (m : DelayReqMsg) (dt : Nat) : DelayRespMsg :=
  let t4 := fieldOf 80 ((n.dom 0).tb.reading + dt)
  { domain := 0, seq := m.seq, addr := m.addr, t4 := BitVec.ofNat 80 t4, corr := m.corr }

/-- R75, R99: a DELAY_REQ at a master port: the report is kept for the position, and for domain 0 it is answered; one of
domain 1 goes to the hub in Ezcia mode (R89). -/
def Nld.fifeDelayReq (n : Nld) (p : Nat) (m : DelayReqMsg) (dt residence : Nat) : Nld :=
  let a := m.addr.toNat
  let rep : KtuTime := { stateA := m.stateA.toNat, stateB := m.stateB.toNat, offset := m.offset }
  let n := { n with ktuTimes := Tbl.set ({} : KtuTime) (addrPos a) rep n.ktuTimes }
  if m.domain.val = 0 ∧ ¬ n.isEzcia p then n.sendFife p (.delayResp (n.answerTo m dt))
  else if m.domain.val = 1 ∧ n.bit NReg.TIME_CFG_ezcia_mode ∧ ¬ n.isEzcia p then
    n.sendFife (n.get NReg.TIME_CFG_ezcia_port) (.delayReq { m with corr := m.corr + residence })
  else n.count NReg.FIFEp_MSGDROP_count 1 p

/-- R75: a DELAY_REQ of a child on a Horn port. -/
def Nld.hornDelayReq (n : Nld) (p : Nat) (m : DelayReqMsg) (dt : Nat) : Nld :=
  if n.hornRole p = 3 ∧ m.domain.val = 0 then
    n.sendHorn p (.delayResp (n.answerTo m dt))
  else n

/-- The requester address of Naloder's own requests: its name (R465). -/
def Nld.ownAddr (n : Nld) : Nat := n.name * 512

/-- R90: a DELAY_RESP of the hub is used by domain 1 or relayed to the KTU that asked. -/
def Nld.fifeDelayResp (n : Nld) (p : Nat) (m : DelayRespMsg) : Nld :=
  if n.isEzcia p ∧ m.domain.val = 1 then
    if m.addr.toNat = n.ownAddr then n.allResp 11 m.seq.toNat (m.t4.toNat : Int) m.corr
    else n.sendFife (addrP m.addr.toNat) (.delayResp m)
  else n.count NReg.FIFEp_MSGDROP_count 1 p

/-- R79: a DELAY_RESP of a parent. -/
def Nld.hornDelayResp (n : Nld) (p : Nat) (m : DelayRespMsg) : Nld :=
  if m.addr.toNat = n.ownAddr then n.allResp (p + 1) m.seq.toNat (m.t4.toNat : Int) m.corr else n

/-- Send a domain's request to the source with a code. -/
def Nld.requestTo (n : Nld) (d code seq : Nat) : Nld :=
  let x := n.dom d
  let m (dom : Fin 8) (corr : Int) : Msg := .delayReq
    { domain := dom, seq := BitVec.ofNat 16 seq, addr := BitVec.ofNat 20 n.ownAddr,
      stateA := BitVec.ofNat 3 x.tb.state.num, stateB := 0, offset := x.tb.offset, corr := corr }
  if 1 ≤ code ∧ code ≤ 8 then n.sendHorn (code - 1) (m 0 (-n.hornAsym (code - 1)))
  else if code = 11 then n.sendFife (n.get NReg.TIME_CFG_ezcia_port) (m 1 0)
  else n

/-- A code of a source that this schedule serves: a Horn port, or the hub (R727). -/
def asksOver (code : Nat) : Bool := (1 ≤ code && code ≤ 8) || code == 11

/-- R727: a domain sends its request to its source, and to the other while one is configured, `dt` after the edge. -/
def Nld.domainRequest (n : Nld) (d dt : Nat) : Nld :=
  let cs := n.codes d
  let t3 (n : Nld) : Int := (n.dom d).tb.reading + dt
  let n :=
    if asksOver cs.1 then
      let x := n.dom d
      (n.requestTo d cs.1 x.tb.main.nextSeq).setDom d { x with tb := { x.tb with main := x.tb.main.request (t3 n) } }
    else n
  if asksOver cs.2 then
    let x := n.dom d
    (n.requestTo d cs.2 x.tb.second.nextSeq).setDom d { x with tb := { x.tb with second := x.tb.second.request (t3 n) } }
  else n

/-! ### Timers, registers and steps -/

/-- R79: drop a request of a path. -/
def Nld.dropReq (n : Nld) (d seq : Nat) (second : Bool) : Nld :=
  let x := n.dom d
  n.setDom d { x with tb := if second then { x.tb with second := x.tb.second.dropRequest seq }
                            else { x.tb with main := x.tb.main.dropRequest seq } }

/-- R79: a path's delay expires. -/
def Nld.delayExpire (n : Nld) (d : Nat) (second : Bool) : Nld :=
  let x := n.dom d
  n.setDom d { x with tb := if second then { x.tb with second := x.tb.second.expire }
                            else { x.tb with main := x.tb.main.expire } }

/-- R92: the original source has been Locked for 1 s after a switch: switch back, and slew the difference away. -/
def Nld.revert (n : Nld) (d : Nat) : Nld :=
  let x := n.dom d
  if x.onSecond ∧ n.bit NReg.TDd_SRC_revertive d ∧ x.tb.second.delayValid then
    ((n.setDom d { x.swap with reverting := true }).noteSource d)
  else n

/-- R82: a write of the hold bit. -/
def Nld.writeHold (n : Nld) (d : Nat) (v : Bool) : Nld :=
  (n.put NReg.TDd_CTRL_hold v.toNat d).onDom d (fun c b => b.holdNow c)

/-- R82: a write of the enable bit; 0 holds the domain in Free. -/
def Nld.writeEnable (n : Nld) (d : Nat) (v : Bool) : Nld :=
  let n := n.put NReg.TDd_CTRL_enable v.toNat d
  if v then n else n.onDom d (fun _ b => b.toFree)

/-- NLD_TDd_STEP_AMT in 2^-16 ns, and NLD_TDd_STEP_AT in ns. -/
def Nld.stepRegs (n : Nld) (d : Nat) : Int × Nat :=
  (signedOf 48 (n.get NReg.TDd_STEP_AMT_LO_amt_lo d + 2 ^ 32 * n.get NReg.TDd_STEP_AMT_HI_amt_hi d) * 65536,
   n.get NReg.TDd_STEP_AT_LO_at_lo d + 2 ^ 32 * n.get NReg.TDd_STEP_AT_HI_at_hi d)

/-- Change the clock of a domain. -/
def Nld.setTb (n : Nld) (d : Nat) (b : TimeBase) : Nld := n.setDom d { n.dom d with tb := b }

/-- R85: NLD_TDd_STEP_CMD written: apply, accept_pending, or nothing where both are. -/
def Nld.stepCmd (n : Nld) (d : Nat) (apply accept : Bool) : Nld :=
  let (amt, at_) := n.stepRegs d
  if apply && accept then n
  else if apply then n.setTb d ((n.dom d).tb.schedule amt at_)
  else if accept then n.setTb d ((n.dom d).tb.acceptPending at_)
  else n

/-- R100: a write refused while run = 1. -/
def Nld.refuseCfg (n : Nld) : Nld := n.raise NReg.TICK_ERR_cfg_refused

/-- R91, R99, R100: a write of NLD_TDd_SRC. A source that was the other path is taken without a step; a new one starts
with an empty path. -/
def Nld.writeSrc (n : Nld) (d w : Nat) : Nld :=
  if n.bit NReg.TICK_CTRL_run then n.refuseCfg
  else
    let old := n.codes d
    let n := (((n.put NReg.TDd_SRC_revertive (w / 2048) d).put NReg.TDd_SRC_ref_domain (w / 256) d).put
      NReg.TDd_SRC_secondary (w / 16) d).put NReg.TDd_SRC_primary w d
    let p := n.get NReg.TDd_SRC_primary d
    let s := n.get NReg.TDd_SRC_secondary d
    let x := n.dom d
    let x := if p = old.1 then { x with onSecond := false }
      else if p = old.2 then { x.swap with onSecond := false }
      else { x with tb := { x.tb with main := {} }, shift := 0, onSecond := false }
    let x := if s = old.2 ∨ s = old.1 then x else { x with tb := { x.tb with second := {} } }
    let n := n.setDom d x
    let was := n.get NReg.TDd_SRCSTAT_current d
    let n := n.put NReg.TDd_SRCSTAT_current p d
    if was = p ∨ was = 0 then n else n.raise NReg.TDd_SRCSTAT_failover 1 d

/-! ### The clock edge -/

/-- R69, R92: one edge of a domain; a shift being reverted is slewed by 10 ns per ms. -/
def NDomain.edge (incr : Nat) (x : NDomain) : NDomain :=
  let lim : Int := ((incr / 100000 : Nat) : Int)
  let o := x.shift
  let o' : Int := if x.reverting then (if o > lim then o - lim else if o < -lim then o + lim else 0) else o
  { x with tb := x.tb.edge incr, shift := o', reverting := x.reverting && o' != 0 }

/-- One I/O-die clock edge: the domains advance, and elapsed time with them. -/
def Nld.clockEdge (n : Nld) : Nld :=
  let n := (List.range 8).foldl (fun n d => n.setDom d ((n.dom d).edge (n.servoCfg d).incr)) n
  { n with pkg := { n.pkg with elapsed := n.pkg.elapsed + 1 } }

end Sys2Proof.Machine
end

