-- ==== Sys2Proof/Machine/NldFife.lean ====
section
/-! DEFINITION. Naloder's Fife and Horn ports (R289 to R315, R456 to R466): what the links report, enumeration, requests to
KTUs, power states, and the transmit side. -/

namespace Sys2Proof.Machine

/-! ### Links -/

/-- R315: report what a Fife link did. -/
def Nld.fifeActs (n : Nld) (p : Nat) (a : LinkActs) : Nld :=
  let n := if a.crcErr then n.count NReg.FIFEp_CRCERR_count 1 p else n
  let n := if a.replays > 0 then n.count NReg.FIFEp_REPLAY_count a.replays p else n
  let n := if a.retry then n.raise NReg.FIFEp_EVT_retry 1 p else n
  let n := if a.retrain then (n.raise NReg.FIFEp_EVT_retrain 1 p).count NReg.FIFEp_RETRAIN_retrains 1 p else n
  let n := if a.reset then (n.raise NReg.FIFEp_EVT_reset 1 p).count NReg.FIFEp_RETRAIN_resets 1 p else n
  if a.trunc then n.count NReg.FIFEp_MSGDROP_count 1 p else n

/-- R311: a Retrain brings a link in L0q or L1 back to L0. -/
def LinkEnd.retrainWakes (e : LinkEnd) : LinkEnd :=
  if e.state = .retrain ∧ e.lp ≠ 0 then { e with lp := 0, sentEnter := none, gotEnter := none } else e

/-- Run a link operation on a Fife port. -/
def Nld.fifeOp (n : Nld) (p : Nat) (f : LinkEnd → LinkEnd × LinkActs) : Nld :=
  let x := n.fife p
  let r := f x.link
  (n.setFife p { x with link := r.1.retrainWakes }).fifeActs p r.2

/-- R494: report what a Horn link did. -/
def Nld.hornActs (n : Nld) (p : Nat) (a : LinkActs) : Nld :=
  let n := if a.crcErr then n.count NReg.HORNp_CRCERR_count 1 p else n
  let n := if a.replays > 0 then n.count NReg.HORNp_REPLAY_count a.replays p else n
  let n := if a.retry then n.raise NReg.HORNp_EVT_retry 1 p else n
  let n := if a.retrain then (n.raise NReg.HORNp_EVT_retrain 1 p).count NReg.HORNp_RETRAIN_retrains 1 p else n
  let n := if a.reset then (n.raise NReg.HORNp_EVT_reset 1 p).count NReg.HORNp_RETRAIN_resets 1 p else n
  if a.trunc then n.count NReg.HORNp_MSGDROP_count 1 p else n

/-- Run a link operation on a Horn port. -/
def Nld.hornOp (n : Nld) (p : Nat) (f : LinkEnd → LinkEnd × LinkActs) : Nld :=
  let x := n.horn p
  let r := f x.link
  (n.setHorn p { x with link := r.1 }).hornActs p r.2

/-- The KTU address of a position of this tray (R3). -/
def Nld.posAddr (n : Nld) (pos : Nat) : Nat := n.name * 512 + pos

/-- R291: a port whose link has become Active after Training enumerates its chain. -/
def Nld.enumerate (n : Nld) (p : Nat) : Nld := n.sendFife p (.enumReq (BitVec.ofNat 20 (n.posAddr (32 * p))))

/-- R270, R277, R291: link-up on a Fife port. -/
def Nld.fifeUp (n : Nld) (p partnerNext : Nat) (resume : Bool) : Nld :=
  let was := (n.fife p).link.state
  let n := n.fifeOp p (fun e => e.linkUp partnerNext true resume)
  if was = .training ∧ (n.fife p).link.state = .active then n.enumerate p else n

/-- R315: a write of enable; 0 holds the link in Down, reported as Off. -/
def Nld.fifeEnable (n : Nld) (p : Nat) (v : Bool) : Nld :=
  let n := n.put NReg.FIFEp_CTRL_enable v.toNat p
  if v then n.fifeOp p (fun e => (if e.state = .off then { e with state := .down } else e, {}))
  else (n.fifeOp p (fun e => e.toDown)).fifeOp p (fun e => ({ e with state := .off }, {}))

/-- R277: a Reset command reaches a link that is not held in Down. -/
def resetEnd (e : LinkEnd) : LinkEnd × LinkActs := if e.state = .off ∨ e.state = .down then (e, {}) else e.toReset

/-! ### The position table (R293, R315) -/

/-- A position's entry. -/
def NFife.entry (x : NFife) (i : Nat) : EnumEntry := Tbl.get ({} : EnumEntry) i x.table

/-- The positions of a chain that have a valid entry, rising. -/
def NFife.positions (x : NFife) : List Nat := (x.table.filter (fun e => e.2.valid)).map (·.1)

/-- A position is run observe-only (R630). -/
def Nld.obsv (n : Nld) (pos : Nat) : Bool := bitOf (n.get NReg.FW_OBSVw_obsv (pos / 32)) (pos % 32)

/-- Positions leave the coming expected set (R25). -/
def Nld.leave (n : Nld) (gone : Nat → Bool) : Nld :=
  { n with tick := { n.tick with members := n.tick.members.filter (fun x => !gone x) } }

/-- A position joins the coming expected set (R25). -/
def Nld.join (n : Nld) (pos : Nat) : Nld :=
  if n.tick.members.contains pos then n
  else { n with tick := { n.tick with members := n.tick.members ++ [pos] } }

/-- R238, R293: an ENUM response. A new die identifier at the position removes it from the expected set and sets its ratio
record to 4:1; a leaf removes what
the table holds beyond it. The second result names the die identifier's change. -/
def Nld.enumEntry (n : Nld) (p : Nat) (e : EnumInfo) : Nld × Bool :=
  let i := addrN e.addr.toNat
  let x := n.fife p
  let old := x.entry i
  let changed := old.valid && old.uid != e.uid.toNat
  let new : EnumEntry := { valid := true, ratio := if changed then 0 else old.ratio, slots := e.slots.toNat, leaf := e.leaf,
                           profile := e.profile.toNat, revision := e.revision.toNat, uid := e.uid.toNat,
                           schema := e.schema.toNat }
  let table := Tbl.set ({} : EnumEntry) i new x.table
  let table := if e.leaf then table.filter (fun q => decide (q.1 ≤ i)) else table
  let n := n.setFife p { x with table := table }
  let n := if table = x.table then n else n.raise NReg.FIFEp_EVT_enum_change 1 p
  let n := if e.leaf then n.leave (fun pos => decide (pos / 32 = p ∧ pos % 32 > i)) else n
  let n := if changed then
      let pos := 32 * p + i
      { n.leave (fun q => q == pos) with series := { n.series with dieChanged := pos :: n.series.dieChanged } }
    else n
  (n, changed)

/-! ### Guaranteed flits (R289, R290) -/

/-- R289, R290: the gc flits a position may send in a tick, from the resets of KTU_FIFE_ALLOW (which firmware must not
raise) and the slots of its entry. -/
def Nld.allowance (n : Nld) (x : NFife) (i : Nat) : Nat :=
  19 * (x.entry i).slots + 64 * n.periodUs / 100 + 8 * n.periodUs / 100

/-- R290: gc flits of a position arrive. -/
def Nld.countGc (n : Nld) (p i flits : Nat) : Nld :=
  let x := n.fife p
  let was := Tbl.get 0 i x.gcNow
  let now := was + flits
  let n := n.setFife p { x with gcNow := Tbl.set 0 i now x.gcNow }
  let lim := n.allowance x i
  let over_ := (now - lim) - (was - lim)
  if over_ = 0 then n else (n.count NReg.FIFEp_GCX_count over_ p).raise NReg.FIFEp_EVT_gc_excess 1 p

/-- The KTU that a message from a chain came from. -/
def sourceOf : Msg → Option Nat
  | .frame a _ => some a.toNat
  | .trace a _ _ _ => some a.toNat
  | .tailDump a _ => some a.toNat
  | .cmdAck m => some m.addr.toNat
  | .delayReq m => some m.addr.toNat
  | .enumResp e => some e.addr.toNat
  | .regRdResp r => some r.addr.toNat
  | .regWrResp r => some r.addr.toNat
  | .patternResult m => some m.addr.toNat
  | .digest m => some m.addr.toNat
  | .sleepAgree a _ _ _ => some a.toNat
  | .wake a _ _ => some a.toNat
  | _ => none

/-! ### Requests to KTUs (R299 to R304) -/

/-- Hand a request its waiting entry. -/
def Nld.await (n : Nld) (r : PendReq) : Nld := { n with chains := { n.chains with reqs := n.chains.reqs ++ [r] } }

/-- R303: send a REG_RD or REG_WR to a KTU of this tray; the tag advances. -/
def Nld.sendReg (n : Nld) (write : Bool) (addr issuer count offset : Nat) (words : List Word) (who : Requester) : Nld :=
  let tag := (n.chains.tag + 1) % 65536
  let r : RegReq := { addr := BitVec.ofNat 20 addr, tag := BitVec.ofNat 16 tag, issuer := BitVec.ofNat 5 issuer,
                      count := BitVec.ofNat 8 count, offset := BitVec.ofNat 16 offset, words := words }
  let m := if write then Msg.regWr r else Msg.regRd r
  let p := addrP addr
  let n := { n with chains := { n.chains with tag := tag } }
  (n.sendFife p m).await { reg := true, port := p, addr := addr, id := tag, opcode := 0, who := who, left := [addr],
                           msg := m }

/-- R636: the next tray cmd_id to a destination, a position or 512 + port; the counter is persisted in blocks of 4,096, and
gives none from 0x7FFF_F000. -/
def Nld.newCmdId (n : Nld) (dest : Nat) : Option (Nld × Nat) :=
  let id := Tbl.get 0 dest n.fw.cmdIds + 1
  if id ≥ 0x7FFFF000 then none
  else
    some ({ n with fw := { n.fw with cmdIds := Tbl.set 0 dest id n.fw.cmdIds,
                                     cmdKept := Tbl.set 0 dest (id / 4096 * 4096) n.fw.cmdKept } }, id)

/-- R636: at a start each counter goes on 4,096 past what was persisted. -/
def Nld.resumeCmdIds (n : Nld) : Nld :=
  { n with fw := { n.fw with cmdIds := n.fw.cmdKept.map (fun e => (e.1, e.2 + 4096)) } }

/-- R513, R631: firmware writes one word of a KTU register as *fleet*. -/
def Nld.firmwareWrite (n : Nld) (pos offset value : Nat) : Nld :=
  n.sendReg true (n.posAddr pos) fleet 1 offset [BitVec.ofNat 32 value] .firmware

/-! ### Power states (R307 to R311) -/

/-- R307, R315: NLD_FIFEp_SLEEP.go; targets 0 and 3 are refused. -/
def Nld.sleepGo (n : Nld) (p target : Nat) : Nld :=
  if target = 0 ∨ target = 3 then n
  else
    let n := n.put NReg.FIFEp_SLEEP_target target p
    n.setFife p { n.fife p with sleepGo := true }

/-- R307: at the boundary of tick t the proposal goes out, with commit tick t + 1. -/
def Nld.sleepTick (n : Nld) (t p : Nat) : Nld :=
  let x := n.fife p
  let target := n.get NReg.FIFEp_SLEEP_target p
  let phase := n.get NReg.FIFEp_SLEEP_phase p
  let n :=
    if phase = 2 ∧ x.sleepTick = t then
      let n := n.put NReg.FIFEp_SLEEP_phase 0 p
      n.setFife p { x with link := x.link.sendState (if x.broken then 2 else n.get NReg.FIFEp_SLEEP_target p - 1) }
    else n
  if (n.fife p).sleepGo then
    let x := n.fife p
    let n := n.setFife p { x with sleepGo := false, sleepTick := t + 1, agreed := [], broken := false }
    (n.put NReg.FIFEp_SLEEP_phase 1 p).sendFife p
      (.sleepPropose 0 (BitVec.ofNat 8 target) (BitVec.ofNat 48 (t + 1)))
  else n

/-- R307: a KTU's answer to the proposal. -/
def Nld.sleepAgree (n : Nld) (p : Nat) (addr : BitVec 20) (refuse : Bool) (tick : BitVec 48) : Nld :=
  let x := n.fife p
  if n.get NReg.FIFEp_SLEEP_phase p ≠ 1 ∨ x.sleepTick ≠ tick.toNat then n
  else if refuse then n.setFife p { x with broken := true }
  else n.setFife p { x with agreed := addrN addr.toNat :: x.agreed }

/-- R307: commit at T(n) + 50 µs if every enumerated position has agreed and no WAKE has come, else cancel. -/
def Nld.sleepDecide (n : Nld) (p : Nat) : Nld :=
  let x := n.fife p
  if n.get NReg.FIFEp_SLEEP_phase p ≠ 1 then n
  else
    let ok := !x.broken && x.positions.all (fun i => x.agreed.contains i)
    let target := n.get NReg.FIFEp_SLEEP_target p
    (n.put NReg.FIFEp_SLEEP_phase (if ok then 2 else 3) p).sendFife p
      (.sleepPropose (if ok then 1 else 2) (BitVec.ofNat 8 target) (BitVec.ofNat 48 x.sleepTick))

/-- R307, R309: a WAKE: its sender and sources are kept; a proposal not yet committed is cancelled. -/
def Nld.wakeIn (n : Nld) (p : Nat) (addr : BitVec 20) (sources : BitVec 8) (tick : BitVec 48) : Nld :=
  let x := n.fife p
  let n := n.setFife p { x with broken := true, wakes := x.wakes ++ [(addr.toNat, sources.toNat, tick.toNat)] }
  let n := n.raise NReg.FIFEp_EVT_wake_seen 1 p
  if n.get NReg.FIFEp_SLEEP_phase p = 1 then n.sleepDecide p else n

/-- R309: wake a chain: a stay pair while its link is in L0q or L1. -/
def Nld.wakeChain (n : Nld) (p : Nat) : Nld :=
  let x := n.fife p
  if x.link.lp = 0 then n else n.setFife p { x with link := x.link.sendState 2 }

/-! ### Sending flits (R288, R462) -/

/-- R75: t1 of a SYNC of domain 0 is written as it leaves. -/
def stampMsg (t1 : BitVec 80) : Msg → Msg
  | .sync m => if m.domain = 0 then .sync { m with t1 := t1 } else .sync m
  | m => m

/-- Stamp the message at the head of a queue, before its first flit. -/
def TxVc.stamp (t1 : BitVec 80) (q : TxVc) : TxVc :=
  match q.msgs with
  | (g, m) :: rest => if q.sent = 0 then { q with msgs := (g, stampMsg t1 m) :: rest } else q
  | [] => q

/-- Stamp what may leave now. -/
def LinkEnd.stamp (t1 : BitVec 80) (e : LinkEnd) : LinkEnd := { e with tx := e.tx.map (fun q => (q.1, q.2.stamp t1)) }

/-- The time t1 that a flit sent `dt` after the preceding edge carries. -/
def Nld.sendTime (n : Nld) (dt : Nat) : BitVec 80 := BitVec.ofNat 80 (fieldOf 80 ((n.dom 0).tb.reading + dt))

/-- A port has traffic that the power state of its link does not carry (R309). -/
def LinkEnd.stuck (e : LinkEnd) : Bool := e.lp != 0 && e.tx.any (fun q => q.2.msgs.any (fun m => !lpCarries m.2))

/-- R288, R289: a Fife port sends a data flit; everything Naloder sends is guaranteed. -/
def Nld.fifeTransmit (n : Nld) (p dt : Nat) : Nld :=
  let n := if (n.fife p).link.stuck then n.wakeChain p else n
  let x := n.fife p
  n.setFife p { x with link := ((x.link.stamp (n.sendTime dt)).transmit fifeKind (fun _ _ => true) (fun _ => true)).1 }

/-- R462: a Horn port sends a data flit. -/
def Nld.hornTransmit (n : Nld) (p dt : Nat) : Nld :=
  let x := n.horn p
  n.setHorn p { x with link := ((x.link.stamp (n.sendTime dt)).transmit hornKind (fun _ _ => true) (fun _ => true)).1 }

end Sys2Proof.Machine
end

