-- ==== Sys2Proof/Machine/NldRecorder.lean ====
section
/-! DEFINITION. The event recorder (R651 to R662): records, their queue, their slots, and the two rings of the
non-volatile die. -/

namespace Sys2Proof.Machine

/-- R651: the slots of an area. -/
def recSlots (area : Nat) : Nat := if area = 0 then 3080192 else 65536

/-- R653: the area of a record type. -/
def recArea (type : Nat) : Nat := if type < 0x100 then 0 else 1

/-- R655: the operating seconds. -/
def Nld.opSeconds (n : Nld) : Nat := n.recorder.seconds + n.elapsed / 1000000000

/-- R652: bytes 4 to 63 of a record. A privileged one carries no time. -/
def RecEntry.body (e : RecEntry) : List Byte :=
  let priv := decide (recArea e.type = 1)
  let t (w v : Nat) : List Byte := leBytes w (if priv then 0 else v)
  let head := leBytes 2 e.type ++ leBytes 1 (recArea e.type) ++ leBytes 1 e.source ++ leBytes 8 e.seq ++
    t 4 e.hours ++ t 2 e.seconds ++ t 4 e.cycles ++ t 6 e.tick ++ (e.payload ++ List.replicate 28 0).take 28
  head ++ leBytes 4 (crc32c head)

/-- R652: the body of an empty record: type 0. -/
def emptyBody : List Byte := List.replicate 60 0

/-- A record with its sequence number and its time. -/
def Nld.recEntry (n : Nld) (type source : Nat) (items : List Nat) : RecEntry :=
  { type := type, source := source, seq := n.recorder.nextSeq, hours := n.opSeconds / 3600, seconds := n.opSeconds % 3600,
    cycles := n.recorder.cycles, tick := n.tick.newest.getD 0, payload := Config.recPayload type items }

/-- The number of the next record is used. -/
def Nld.takeSeq (n : Nld) : Nld := { n with recorder := { n.recorder with nextSeq := n.recorder.nextSeq + 1 } }

/-- R656, R667: a record is discarded: counted, and told of by a later record. -/
def Nld.recLose (n : Nld) : Nld :=
  let seq := n.recorder.nextSeq
  let l := match n.recorder.lost with
    | none => (1, seq, seq)
    | some (c, f, _) => (c + 1, f, seq)
  { n with recorder := { n.recorder with lost := some l } }.takeSeq.count NReg.REC_LOST_count

/-- R656: submit a record. While test access is open every record is discarded (R667). -/
def Nld.submit (n : Nld) (type source : Nat) (items : List Nat) : Nld :=
  if n.bit NReg.SEC_STATUS_opened then n.recLose
  else if n.recorder.queue.length ≥ 256 then n.recLose.raise NReg.REC_STATUS_queue_full
  else
    let e := n.recEntry type source items
    { n with recorder := { n.recorder with queue := n.recorder.queue ++ [e] } }.takeSeq

/-- R625, R641, R656: the control cores' records go through control core 3; while firmware does not run they are staged. -/
def Nld.record (n : Nld) (type source : Nat) (items : List Nat) : Nld :=
  if source < 4 ∧ ¬ n.fwRuns then
    { n with recorder := { n.recorder with staged := n.recorder.staged ++ [(type, source, items)] } }
  else n.submit type source items

/-- R643, R656: the staged records are written once firmware runs again. -/
def Nld.flushStaged (n : Nld) : Nld :=
  let l := n.recorder.staged
  l.foldl (fun (n : Nld) (e : Nat × Nat × List Nat) => n.submit e.1 e.2.1 e.2.2)
    { n with recorder := { n.recorder with staged := [] } }

/-- The key of a slot. -/
def recKey (area slot : Nat) : Nat := area * 2 ^ 22 + slot

/-- A slot. -/
def Nld.recSlot (n : Nld) (key : Nat) : RecSlot := Tbl.get ({} : RecSlot) key n.recorder.slots

/-- R654: write a slot: its generation advances through the next odd to the next even value. -/
def RecSlot.write (s : RecSlot) (body : List Byte) : RecSlot := { gen := (s.gen / 2 * 2 + 2) % 2 ^ 32, body := body }

/-- The slot an area writes next, and whether its ring has wrapped. -/
def Nld.recPtr (n : Nld) (area : Nat) : Nat × Bool :=
  if area = 0 then (n.recorder.ordPtr, n.recorder.ordWrapped) else (n.recorder.privPtr, n.recorder.privWrapped)

/-- Move the write pointer of an area on. -/
def Nld.recAdvance (n : Nld) (area : Nat) : Nld :=
  let (p, w) := n.recPtr area
  let last := decide (p + 1 = recSlots area)
  let p' := if last then 0 else p + 1
  { n with recorder := if area = 0 then { n.recorder with ordPtr := p', ordWrapped := w || last }
                       else { n.recorder with privPtr := p', privWrapped := w || last } }

/-- Write a slot of the recorder. -/
def Nld.recWrite (n : Nld) (key : Nat) (body : List Byte) : Nld :=
  { n with recorder := { n.recorder with
      slots := Tbl.set ({} : RecSlot) key ((n.recSlot key).write body) n.recorder.slots } }

/-- R651, R654: a record commits to its ring. -/
def Nld.recCommit (n : Nld) (e : RecEntry) : Nld :=
  let area := recArea e.type
  ((n.recWrite (recKey area (n.recPtr area).1) e.body).recAdvance area)

/-- R656: the record at the head of the queue commits. Once the queue is below half, the records lost are told of first. -/
def Nld.recNext (n : Nld) : Nld :=
  match n.recorder.queue with
  | [] => n
  | e :: rest =>
    let n := { n with recorder := { n.recorder with queue := rest } }.recCommit e
    match n.recorder.lost with
    | none => n
    | some (c, f, l) =>
      if rest.length < 128 then
        let x := n.recEntry 0x000A 5 [c, f, l]
        { n with recorder := { n.recorder with queue := x :: rest, lost := none } }.takeSeq
      else n

/-- The sequence number that a slot's body carries. -/
def bodySeq (b : List Byte) : Nat := fieldAt b 4 8

/-- R662: a clear erases a slot: one that has been written, with a sequence number within its bound, and no clear
record. -/
def erasable (c : RecClear) (key : Nat) (s : RecSlot) : Bool :=
  bitOf c.areas (key / 2 ^ 22) && fieldAt s.body 0 2 != 0 && fieldAt s.body 0 2 != 0x100 &&
    decide (bodySeq s.body ≤ c.bound)

/-- R662: the erasure of a clear. -/
def Nld.recErase (n : Nld) (c : RecClear) : Nld :=
  let hit := n.recorder.slots.filter (fun p => erasable c p.1 p.2)
  let n := hit.foldl (fun n p => n.recWrite p.1 emptyBody) n
  ({ n with recorder := { n.recorder with clear := none } }.put NReg.REC_CLR_STAT_erased hit.length).put
    NReg.REC_CLR_STAT_code 1

/-- R657: boot stage 0 repairs the slots whose generation is odd; the count of them. -/
def Nld.recRepair (n : Nld) : Nld × Nat :=
  let torn := n.recorder.slots.filter (fun p => p.2.gen % 2 = 1)
  (torn.foldl (fun n p => n.recWrite p.1 emptyBody) n, torn.length)

end Sys2Proof.Machine
end

