-- ==== Sys2Proof/Machine/NldRdv.lean ====
section
/-! DEFINITION. Rendezvous objects (R476 to R478) and verdict records (R449, R506). -/

namespace Sys2Proof.Machine

/-! ### Rendezvous objects -/

/-- An object. -/
def Nld.rdv (n : Nld) (k : Nat) : RdvObj := Tbl.get ({} : RdvObj) k n.group.rdv

/-- Replace an object. -/
def Nld.setRdv (n : Nld) (k : Nat) (o : RdvObj) : Nld :=
  { n with group := { n.group with rdv := Tbl.set ({} : RdvObj) k o n.group.rdv } }

/-- What an arrival found (R477). -/
inductive Arrival where
  | counted
  | duplicate
  | stale
  | late
  deriving DecidableEq, Repr

/-- R477: arm an object. -/
def RdvObj.arm (o : RdvObj) (kind owner scope epoch expected deadline : Nat) : Option RdvObj :=
  if o.state ≠ 1 ∨ o.epoch < epoch then
    some { state := 1, kind := kind, owner := owner, scope := scope, epoch := epoch, expected := expected,
           deadline := deadline }
  else none

/-- R477: a contributor arrives for an epoch at an instant. -/
def RdvObj.arrive (o : RdvObj) (now epoch c : Nat) : RdvObj × Arrival :=
  let sat (v : Nat) : Nat := min (v + 1) 65535
  if o.epoch ≠ epoch then ({ o with stale := sat o.stale }, .stale)
  else if o.state = 1 then
    if o.deadline ≤ now then ({ o with late := sat o.late }, .late)
    else if bitOf o.seen c then ({ o with dup := sat o.dup }, .duplicate)
    else
      let o := { o with seen := setBit o.seen c, count := o.count + 1 }
      (if o.count = o.expected then { o with state := 2, doneAt := now } else o, .counted)
  else ({ o with late := sat o.late }, .late)

/-- R477: an armed object reaches its deadline. -/
def RdvObj.expire (o : RdvObj) (now : Nat) : RdvObj := if o.state = 1 then { o with state := 3, doneAt := now } else o

/-- Arm an object of Naloder; whether it was armed. -/
def Nld.armRdv (n : Nld) (k kind owner scope epoch expected deadline : Nat) : Nld × Bool :=
  match (n.rdv k).arm kind owner scope epoch expected deadline with
  | some o => (n.setRdv k o, true)
  | none => (n, false)

/-- A contributor arrives at an object. -/
def Nld.arriveRdv (n : Nld) (k epoch c : Nat) : Nld × Arrival :=
  let r := (n.rdv k).arrive n.now epoch c
  (n.setRdv k r.1, r.2)

/-- An object expires. -/
def Nld.expireRdv (n : Nld) (k : Nat) : Nld := n.setRdv k ((n.rdv k).expire n.now)

/-- The object of the tray, group or fleet seal of a tick (kinds 1 to 3): the numbers within the 64 reserved ones are the
model's choice. -/
def sealObject (kind tick : Nat) : Nat := 16 * (kind - 1) + tick % 16

/-- R478: firmware takes a free object: 64 to 16,383 are its own. -/
def Nld.freeObject (n : Nld) : Option Nat :=
  (List.range (16384 - 64)).map (· + 64) |>.find? (fun k => (n.rdv k).state ≠ 1)

/-! ### Verdict records (R449) -/

/-- A verdict record's fields; score and arguments are the 64-bit patterns. -/
structure Verdict where
  kind : Nat
  prov : Bool := false
  fleetScope : Bool := false
  obsv : Bool := false
  index : Nat := 0
  stype : Nat := 0
  image : Nat := 0
  tick : Nat
  owner : Nat
  subject : Nat
  score : Nat
  bp : Nat := 0
  coverage : Nat := 0
  arg0 : Nat
  arg1 : Nat
  deriving DecidableEq, Repr

/-- R449: the 64 bytes of a verdict record. -/
def Verdict.bytes (period : Nat) (v : Verdict) : List Byte :=
  leBytes 1 v.kind ++
  leBytes 1 ((if v.prov then 1 else 0) + (if v.fleetScope then 2 else 0) + (if v.obsv then 4 else 0)) ++
  leBytes 2 v.index ++ leBytes 1 v.stype ++ leBytes 3 0 ++ leBytes 8 v.image ++ leBytes 6 v.tick ++ leBytes 2 period ++
  leBytes 1 v.owner ++ leBytes 3 0 ++ leBytes 4 v.subject ++ leBytes 8 v.score ++ leBytes 1 v.bp ++ leBytes 3 0 ++
  leBytes 4 v.coverage ++ leBytes 8 v.arg0 ++ leBytes 8 v.arg1

/-- R582: a verdict as a delivery record. -/
def Nld.verdictRec (n : Nld) (v : Verdict) : DelivRec :=
  { type := 10, prov := v.prov, tick := v.tick, body := v.bytes n.periodUs }

/-- A verdict goes to the verdict rings of the owners it is addressed to. -/
def Nld.formVerdict (n : Nld) (owners : Nat → Bool) (v : Verdict) : Nld :=
  n.form (fun key => n.ringType key == 3 && owners (fnOwner (key / 32))) (n.verdictRec v)

/-- The newest tray-sealed tick. -/
def Nld.sealedTick (n : Nld) : Nat := n.tick.newestSealed.getD 0

/-! ### Membership (R511) -/

/-- A partition's job. -/
def Nld.job (n : Nld) (p : Nat) : Job := Tbl.get ({} : Job) p n.verdict.jobs

/-- Replace a partition's job. -/
def Nld.setJob (n : Nld) (p : Nat) (j : Job) : Nld :=
  { n with verdict := { n.verdict with jobs := Tbl.set ({} : Job) p j n.verdict.jobs } }

/-- The die at an address is a member of a partition, by the bitmap in force. -/
def Nld.isMember (n : Nld) (p addr : Nat) : Bool := (n.job p).members.contains addr

/-- The partitions that hold a die, as a scope. -/
def Nld.memberScope (n : Nld) (addr : Nat) : Nat :=
  (List.range 16).foldl (fun s p => if n.isMember p addr then setBit s p else s) 0

/-- R506: the owners a telemetry-health record of a die is addressed to. -/
def Nld.healthOwners (n : Nld) (addr o : Nat) : Bool := o == fleet || n.isMember o addr

/-- R506: a telemetry-health record about an address. -/
def Nld.healthAt (n : Nld) (addr tick code arg1 score : Nat) : Nld :=
  n.formVerdict (n.healthOwners addr)
    { kind := 8, tick := tick, owner := fleet, subject := addr, score := score, arg0 := code, arg1 := arg1,
      obsv := addrGT addr == n.name && n.obsv (addrPos addr) }

/-- An event about an address that goes to the *fleet* verdict ring alone. -/
def Nld.fleetEvent (n : Nld) (addr tick code arg1 : Nat) : Nld :=
  n.formVerdict (fun o => o == fleet)
    { kind := 8, tick := tick, owner := fleet, subject := addr, score := 0, arg0 := code, arg1 := arg1 }

end Sys2Proof.Machine
end

