-- ==== Sys2Proof/Machine/NldAlarm.lean ====
section
/-! DEFINITION. Naloder's alarm unit (R194, R285, R463, R489, R519 to R528): pairs accepted and fanned out, and collective
aborts. -/

namespace Sys2Proof.Machine

/-- R489: an ALARM between group roots. -/
def alarmMessage (origin : Nat) (p : BitVec 112) : Msg := .horn (hornMessage 0x09 0 origin (leBytes 14 p.toNat))

/-- R194, R463, R489, R522: send a pair on every Fife and Horn port but one, and from a root to the other roots unless it
came from them. The Ezcia port leads to no KTU. -/
def Nld.fanOut (n : Nld) (site : Nat) (p : BitVec 112) : Nld :=
  let n := (List.range 16).foldl (fun n i =>
    if i = site ∨ n.isEzcia i then n
    else n.setFife i { n.fife i with link := (n.fife i).link.sendPair p }) n
  let n := (List.range 8).foldl (fun n i =>
    if 16 + i = site ∨ n.hornRole i = 0 then n
    else n.setHorn i { n.horn i with link := (n.horn i).link.sendPair p }) n
  if n.isRoot ∧ site < 24 then (n.sendRoots 0 (alarmMessage n.name p)).sendRoots 1 (alarmMessage n.name p)
  else n

/-- Replace the alarm unit's state. -/
def Nld.setAlarm (n : Nld) (a : NAlarm) : Nld := { n with verdict := { n.verdict with alarm := a } }

/-- R285, R463: the pairs accepted in the last millisecond of elapsed time, 32 at most. -/
def Nld.seenAlarms (n : Nld) : List AlarmSeen :=
  (n.verdict.alarm.seen.filter (fun a => decide (n.elapsed ≤ a.at_ + 1000000))).take 32

/-- Enter a pair in the table. -/
def Nld.noteAlarm (n : Nld) (f : AlarmFields) : Nld :=
  let a : AlarmSeen := { kind := f.kind, origin := f.origin, scope := f.scope, arg := f.arg, at_ := n.elapsed }
  n.setAlarm { n.verdict.alarm with seen := (a :: n.seenAlarms).take 32 }

/-- R524, R531: an abort is accepted: its record, the last-abort registers and the partitions' events. -/
def Nld.acceptAbort (n : Nld) (f : AlarmFields) : Nld :=
  let n := n.raise NReg.ABT_EVT_accepted
  let n := ((n.put NReg.ABT_LAST_code f.code).put NReg.ABT_LAST_origin f.origin).put NReg.ABT_LAST_SCOPE_scope f.scope
  let n := (List.range 16).foldl (fun n p => if bitOf f.scope p then n.raise NReg.VF_EVT_abort 1 p else n) n
  n.formVerdict (fun o => o == fleet || bitOf f.scope o)
    { kind := 17, tick := n.sealedTick, owner := fleet, subject := f.origin, score := f.code, arg0 := f.scope,
      arg1 := f.arg }

/-- R520: the scopes of the aborts originated in the preceding 1 ms of domain 0. -/
def Nld.abortedScope (n : Nld) : Nat :=
  (n.verdict.alarm.aborts.filter (fun a => decide (n.now < a.2 + 1000000 ∧ a.2 ≤ n.now))).foldl
    (fun s a => s ||| a.1) 0

/-- R519 to R521, R524: originate an abort for what of a scope no recent abort of this Naloder covers. -/
def Nld.originateAbort (n : Nld) (scope code : Nat) : Nld :=
  let rest := scope - (scope &&& n.abortedScope)
  let n := if rest = scope then n else n.raise NReg.ABT_EVT_suppressed
  if rest = 0 then n
  else
    let arg := n.verdict.alarm.counter % 65536 + n.tick.newest.getD 0 % 2 ^ 32 * 65536
    let p := alarmPair 1 (n.name * 512) rest 0 code arg
    let f := alarmFields p
    let n := (n.noteAlarm f).fanOut 99 p
    let a := n.verdict.alarm
    let n := n.setAlarm { a with counter := (a.counter + 1) % 65536, aborts := (rest, n.now) :: a.aborts.take 31,
                                 repeats := a.repeats ++ [(p, 2)] }
    let n := (n.raise NReg.ABT_EVT_originated).count NReg.ABT_ORIG_count
    (n.acceptAbort f).record 0x0006 5 [rest, code, arg]

/-- R521: an alarm originated here is sent again, 10 µs and 20 µs after the first sending. -/
def Nld.alarmRepeat (n : Nld) : Nld :=
  let a := n.verdict.alarm
  match a.repeats with
  | [] => n
  | (p, k) :: rest =>
    (n.setAlarm { a with repeats := if k > 1 then rest ++ [(p, k - 1)] else rest }).fanOut 99 p

/-- The partitions and *fleet* that a kind 0 or kind 3 ALARM aborts (R519). -/
def Nld.faultScope (n : Nld) (f : AlarmFields) : Nat :=
  f.scope &&& (if f.kind = 0 then n.get NReg.ABT_ON_HOST_scope else n.get NReg.ABT_ON_KTU_scope)

/-- R194, R519, R522, R524: a new pair is acted on. `site` is the port of acceptance: 0 to 15 Fife, 16 to 23 Horn, above
that the exchange between roots. -/
def Nld.actAlarm (n : Nld) (site : Nat) (p : BitVec 112) (f : AlarmFields) : Nld :=
  let here := decide (site < 16)
  let obsv := here && addrGT f.origin == n.name && n.obsv (addrPos f.origin)
  let health (n : Nld) : Nld := n.healthAt f.origin n.sealedTick (if f.kind = 0 then 9 else 10) f.arg 0
  if f.kind = 1 then (n.fanOut site p).acceptAbort f
  else if f.kind = 2 then
    if obsv then n.fleetEvent f.origin n.sealedTick (Config.openEvent 0) f.arg else n.fanOut site p
  else if obsv then health ((n.count NReg.ALM_OBSV_count).raise NReg.ABT_EVT_obsv_alarm)
  else
    let n := health (n.fanOut site p)
    if here then n.originateAbort (n.faultScope f) (if f.kind = 0 then 1 else 2) else n

/-- R285, R463: a pair arrives at the alarm unit. -/
def Nld.alarmIn (n : Nld) (site : Nat) (p : BitVec 112) : Nld :=
  let f := alarmFields p
  if ¬ f.crcOk then n.count NReg.ALM_BAD_count
  else if f.kind ≥ 4 then n
  else if n.seenAlarms.any (fun a => a.kind = f.kind ∧ a.origin = f.origin ∧ a.scope = f.scope ∧ a.arg = f.arg) then
    n.count NReg.ALM_DUP_count
  else ((n.noteAlarm f).count NReg.ALM_ACCEPT_count).actAlarm site p f

end Sys2Proof.Machine
end

