-- ==== Sys2Proof/Machine/NldLive.lean ====
section
/-! DEFINITION. Liveness, corroboration, jobs, membership, checkpoints and swap advisories (R497 to R518). -/

namespace Sys2Proof.Machine

/-! ### The state of a position -/

/-- The state field's value (R501). -/
def LiveState.num : LiveState → Nat
  | .live => 0
  | .suspect => 1
  | .blind => 2
  | .unresolved => 3
  | .dead => 4

/-- A position's liveness record. -/
def Nld.liveOf (n : Nld) (pos : Nat) : LiveRec := Tbl.get ({} : LiveRec) pos n.verdict.live

/-- Replace a position's liveness record. -/
def Nld.setLive (n : Nld) (pos : Nat) (r : LiveRec) : Nld :=
  { n with verdict := { n.verdict with live := Tbl.set ({} : LiveRec) pos r n.verdict.live } }

/-- R506: a telemetry-health record of a position of this tray. -/
def Nld.liveRecord (n : Nld) (pos code arg1 : Nat) : Nld :=
  n.healthAt (n.posAddr pos) n.sealedTick code arg1 (n.liveOf pos).state.num

/-- R509: a job's report against the liveness state: the two disagree. -/
def disagrees (dead : Bool) (s : LiveState) : Bool :=
  if dead then s = .live || s = .blind else s = .dead

/-- R508, R509: compare a partition's report of a position with its state. -/
def Nld.compare (n : Nld) (pos part : Nat) (dead : Bool) : Nld :=
  let s := (n.liveOf pos).state
  if disagrees dead s then
    let n := (n.raise NReg.LIVE_EVT_disagree).count NReg.LIVE_DISAGREE_count
    (n.liveRecord pos 8 (if dead then 1 else 2)).record 0x0007 5 [part, n.posAddr pos, if dead then 1 else 2, s.num]
  else n

/-- R508: at a change of a position's state every report of it is compared again. -/
def Nld.compareAll (n : Nld) (pos : Nat) : Nld :=
  (List.range 16).foldl (fun n p =>
    ((n.job p).reports.filter (fun r => r.1 = n.posAddr pos)).foldl (fun n r => n.compare pos p r.2) n) n

/-- A position changes its state. -/
def Nld.moveLive (n : Nld) (pos : Nat) (s : LiveState) (code arg1 : Nat) : Nld :=
  ((n.setLive pos { n.liveOf pos with state := s }).liveRecord pos code arg1).compareAll pos

/-- R499: entry into Suspect. -/
def Nld.enterSuspect (n : Nld) (pos : Nat) : Nld :=
  ((n.raise NReg.LIVE_EVT_suspect).count NReg.LIVE_SUSPECTS_count).moveLive pos .suspect 1 (n.liveOf pos).silent

/-- R501: entry into Telemetry-blind. -/
def Nld.enterBlind (n : Nld) (pos status : Nat) : Nld :=
  (n.raise NReg.LIVE_EVT_blind).moveLive pos .blind 2 status

/-- R502: entry into Dead. -/
def Nld.enterDead (n : Nld) (pos status : Nat) : Nld :=
  let n := ((n.raise NReg.LIVE_EVT_dead).count NReg.LIVE_DEADS_count).moveLive pos .dead 4 status
  (n.leave (fun x => x == pos)).originateAbort
    (n.memberScope (n.posAddr pos) &&& n.get NReg.ABT_ON_DEAD_scope) 4

/-- R501: entry into Unresolved, corr_ms after entry into Suspect. -/
def Nld.corrTimeout (n : Nld) (pos : Nat) : Nld :=
  if (n.liveOf pos).state = .suspect then
    ((n.raise NReg.LIVE_EVT_unresolved).count NReg.LIVE_QTIMEOUT_count).moveLive pos .unresolved 3 (Config.openEvent 3)
  else n

/-- R498, R501, R502: a frame that passes ingest steps 1 to 4 shows its KTU alive. -/
def Nld.frameSeen (n : Nld) (pos : Nat) : Nld :=
  let r := n.liveOf pos
  let n := n.setLive pos { r with silent := 0, returned := r.returned || r.state = .dead }
  if r.state = .live then n else n.moveLive pos .live 5 0

/-- R499, R529: the threshold of the silence detector. -/
def Nld.suspectTicks (n : Nld) : Nat := max 16 (n.get NReg.LIVE_CFG_suspect_ticks)

/-- R500: the threshold of the corrupt alert. -/
def Nld.corruptTicks (n : Nld) : Nat := max 1 (n.get NReg.LIVE_CFG_corrupt_ticks)

/-- R497, R499, R500: a position's code in a seal. -/
def Nld.liveCode (n : Nld) (pos code : Nat) : Nld :=
  let r := n.liveOf pos
  if code = 0 then n.setLive pos { r with silent := 0, corrupt := 0, alerted := false }
  else if code = 1 then
    let n := n.setLive pos { r with silent := min (r.silent + 1) 0xFFFF }
    if r.state = .live ∧ (n.liveOf pos).silent ≥ n.suspectTicks then n.enterSuspect pos else n
  else if code = 2 then
    let c := min (r.corrupt + 1) 0xFF
    let n := n.setLive pos { r with silent := 0, corrupt := c }
    if c ≥ n.corruptTicks ∧ ¬ r.alerted then
      ((n.setLive pos { n.liveOf pos with alerted := true }).raise NReg.LIVE_EVT_corrupt_alert).liveRecord pos 6
        (n.liveOf pos).silent
    else n
  else n

/-! ### Corroboration (R503 to R505) -/

/-- R503: a corroboration frame's 28 bytes. -/
def corrBytes (type id uid addr status : Nat) : List Byte :=
  let b := leBytes 2 0x4C51 ++ leBytes 1 1 ++ leBytes 1 type ++ leBytes 4 id ++ leBytes 8 uid ++ leBytes 4 addr ++
    leBytes 1 status ++ leBytes 3 0
  b ++ leBytes 4 (crc32c b)

/-- R293: the entry of a position. -/
def Nld.entryOf (n : Nld) (pos : Nat) : EnumEntry := (n.fife (pos / 32)).entry (pos % 32)

/-- R504: send a query for a position; each takes a new number. -/
def Nld.query (n : Nld) (pos : Nat) : Nld :=
  let id := n.verdict.lastQuery % (2 ^ 32 - 1) + 1
  let n := { n with verdict := { n.verdict with lastQuery := id } }
  let r := n.liveOf pos
  let n := (n.setLive pos { r with query := some (id, r.state) }).count NReg.LIVE_QUERIES_count
  n.emit (.mgmt (corrBytes 1 id (n.entryOf pos).uid (n.posAddr pos) 0))

/-- R504: firmware queries a Suspect, Unresolved or Telemetry-blind position. -/
def Nld.corrQuery (n : Nld) (pos : Nat) : Nld :=
  let s := (n.liveOf pos).state
  if n.fwRuns ∧ (s = .suspect ∨ s = .unresolved ∨ s = .blind) then n.query pos else n

/-- R501: a reply's status acts on a position. -/
def Nld.corrStatus (n : Nld) (pos status : Nat) : Nld :=
  let s := (n.liveOf pos).state
  if status = 0 ∨ status = 1 then
    if s = .suspect ∨ s = .unresolved then n.enterBlind pos status else n
  else if status = 2 ∨ status = 3 then
    if s = .suspect ∨ s = .unresolved ∨ s = .blind then n.enterDead pos status else n
  else n

/-- R503: the check, magic, version and type of a corroboration frame are good. -/
def corrGood (type : Nat) (b : List Byte) : Bool :=
  fieldAt b 0 2 == 0x4C51 && fieldAt b 2 1 == 1 && fieldAt b 3 1 == type && fieldAt b 24 4 == crc32c (b.take 24)

/-- R504: a frame repeats the die identifier and the address of a position of the tray. -/
def Nld.corrPosition (n : Nld) (b : List Byte) : Option Nat :=
  let a := fieldAt b 16 4
  let pos := addrPos a
  if a < 2 ^ 20 ∧ addrGT a = n.name ∧ (n.entryOf pos).valid ∧ (n.entryOf pos).uid = fieldAt b 8 8 then some pos else none

/-- R501, R504: a reply. One for a state that has been left is stale. -/
def Nld.corrReply (n : Nld) (b : List Byte) : Nld :=
  match n.corrPosition b with
  | none => n.count NReg.LIVE_BADMSG_count
  | some pos =>
    match (n.liveOf pos).query with
    | none => n.count NReg.LIVE_BADMSG_count
    | some (id, s) =>
      if ¬ corrGood 2 b ∨ fieldAt b 4 4 ≠ id then n.count NReg.LIVE_BADMSG_count
      else if (n.liveOf pos).state ≠ s then n.count NReg.LIVE_STALE_count
      else n.corrStatus pos (fieldAt b 20 1)

/-- R504: a witness report: a reply for a position that is not Live, a conflict for one that is. -/
def Nld.witness (n : Nld) (b : List Byte) : Nld :=
  match n.corrPosition b with
  | none => n.count NReg.LIVE_BADMSG_count
  | some pos =>
    let st := fieldAt b 20 1
    if ¬ corrGood 3 b then n.count NReg.LIVE_BADMSG_count
    else if (n.liveOf pos).state = .live then
      if st = 2 ∨ st = 3 then (n.raise NReg.LIVE_EVT_witness_conflict).liveRecord pos 7 (n.liveOf pos).silent else n
    else n.corrStatus pos st

/-- R501, R529: NLD_LIVE_CMD op 1: back to Live, returned cleared. -/
def Nld.liveClear (n : Nld) (pos : Nat) : Nld :=
  let r := n.liveOf pos
  let n := n.setLive pos { r with returned := false }
  if r.state = .live then n else n.moveLive pos .live 5 r.silent

/-- R502: an ENUM response names another die: returned is cleared. -/
def Nld.newDie (n : Nld) (pos : Nat) : Nld := n.setLive pos { n.liveOf pos with returned := false }

/-! ### Jobs, membership and checkpoints (R508 to R514) -/

/-- R508: a job report for a member. -/
def Nld.jobReport (n : Nld) (part addr : Nat) (dead : Bool) : Nld :=
  let j := n.job part
  let n := n.setJob part { j with reports := j.reports.filter (fun r => decide (r.1 ≠ addr)) ++ [(addr, dead)] }
  if addrGT addr = n.name then n.compare (addrPos addr) part dead else n

/-- R511: a declaration is a restart, or takes dies away under the current epoch. -/
def Job.accepts (j : Job) (epoch : Nat) (members : List Nat) : Bool :=
  let e := j.coming.foldl (fun _ d => d.epoch) j.epoch
  let now := j.coming.foldl (fun _ d => d.members) j.members
  decide (epoch > e) || (epoch == e && members.all (fun a => now.contains a))

/-- R511, R513, R707: the declarations for a tick take effect as it opens. -/
def Nld.startMembership (n : Nld) (t part : Nat) : Nld :=
  let j := n.job part
  let due := j.coming.filter (fun d => decide (d.tick ≤ t))
  let j' := due.foldl (fun j d =>
    let fresh := decide (d.epoch > j.epoch)
    { j with epoch := d.epoch, members := d.members, reports := if fresh then [] else j.reports,
             checkpoint := if fresh then none else j.checkpoint,
             advisories := if fresh then [] else j.advisories }) j
  let n := n.setJob part { j' with coming := j.coming.filter (fun d => decide (t < d.tick)) }
  let n := if j'.epoch = j.epoch then n else n.raise NReg.VF_EVT_epoch 1 part
  if j'.members = j.members then n else n.raise NReg.VF_EVT_members 1 part

/-- The offset of KTU_FIFE_MEMBER. -/
def memberOffset : Nat := 0xC00C

/-- R513: firmware rewrites KTU_FIFE_MEMBER of every KTU whose membership changed. Bit 16, *fleet*, is held where the KTU
is a member of *fleet*; firmware is told of none, so it stays as its partitions say. -/
def Nld.rewriteMembers (old n : Nld) : Nld :=
  if ¬ n.fwRuns then n
  else (List.range 512).foldl (fun n pos =>
    let a := n.posAddr pos
    if (n.entryOf pos).valid ∧ old.memberScope a ≠ n.memberScope a then
      n.firmwareWrite pos memberOffset (n.memberScope a)
    else n) n

/-- R514: a checkpoint boundary is retired as its tick opens; what was delivered for it goes with it. -/
def Nld.retireCheckpoint (n : Nld) (t part : Nat) : Nld :=
  let j := n.job part
  match j.checkpoint with
  | none => n
  | some c =>
    if c ≤ t then
      n.setJob part { j with checkpoint := none,
                             advisories := j.advisories.filter (fun a => a.boundary = none) }
    else n

/-! ### Swap advisories (R515 to R518) -/

/-- R517, R518: deliver an entry for a boundary. -/
def Nld.deliverAdvisory (n : Nld) (part c : Nat) (a : Advisory) : Nld :=
  (n.raise NReg.ADV_EVT_delivered).formVerdict (fun o => o == fleet || o == part)
    { kind := 18, image := a.image, tick := a.tick, owner := part, subject := a.subject, score := a.score, bp := a.bp,
      arg0 := c, arg1 := a.tick }

/-- R517: a boundary lies far enough ahead of a verdict. -/
def Nld.leads (n : Nld) (c tick : Nat) : Bool := decide (tick + n.get NReg.ADV_CFG_lead_ticks ≤ c)

/-- R517: the entries that a declared boundary releases. -/
def Nld.releaseAdvisories (n : Nld) (part c : Nat) : Nld :=
  let j := n.job part
  let due := j.advisories.filter (fun a => a.boundary = none ∧ n.leads c a.tick)
  let n := n.setJob part { j with advisories := j.advisories.map (fun a =>
    if a.boundary = none ∧ n.leads c a.tick then { a with boundary := some c } else a) }
  due.foldl (fun n a => n.deliverAdvisory part c a) n

/-- R514: declare a checkpoint boundary; the pending one is replaced. -/
def Nld.checkpoint (n : Nld) (part c : Nat) : Nld :=
  (n.setJob part { n.job part with checkpoint := some c }).releaseAdvisories part c

/-- R517: a verdict enters the advisory table of a partition. One entry is kept for each subject and boundary. -/
def Nld.advise (n : Nld) (part : Nat) (a : Advisory) : Nld :=
  let j := n.job part
  let c := match j.checkpoint with
    | some c => if n.leads c a.tick then some c else none
    | none => none
  if j.advisories.any (fun x => x.subject = a.subject ∧ x.boundary = c) then n.count NReg.ADV_MERGED_count
  else if j.advisories.length ≥ 64 then (n.count NReg.ADV_DROP_count).raise NReg.ADV_EVT_table_full
  else
    let n := n.setJob part { j with advisories := j.advisories ++ [{ a with boundary := c }] }
    match c with
    | some c => n.deliverAdvisory part c a
    | none => n

/-- R515: the address of a member rank: the member with that many addresses below it. -/
def Nld.rankAddr (n : Nld) (part rank : Nat) : Option Nat := (n.job part).members[rank]?

/-- R516: the home root of a partition: the acting root of the lowest group that holds members. -/
def Nld.isHomeRoot (n : Nld) (part : Nat) : Bool :=
  n.get NReg.GRP_CFG_role == 1 &&
  match (n.job part).members.foldl (fun (m : Option Nat) a => match m with
      | none => some (a / 16384)
      | some g => some (min g (a / 16384))) none with
  | some g => g == n.name / 32
  | none => false

end Sys2Proof.Machine
end

