-- ==== Sys2Proof/Machine/NldGroup.lean ====
section
/-! DEFINITION. Reduction over Horn and the fabric (R464 to R490, R512): PARTIALs, SEALs and summaries, their merging at the
roots, and what is delivered of them. -/

namespace Sys2Proof.Machine

open Sys2Proof

/-! ### The tick profile and the membership check -/

/-- R43: the tick profile. -/
def Nld.profile (n : Nld) : Nat :=
  crc32c ([n.periodUs, n.get NReg.TICK_P_offset_us, n.get NReg.TICK_L_offset_us, n.get NReg.TICK_G_offset_us,
    n.get NReg.TICK_S_offset_us].flatMap (leBytes 4))

/-- One byte of a bitmap of addresses. -/
def bitmapByte (l : List Nat) (base : Nat) : Byte :=
  BitVec.ofNat 8 ((List.range 8).foldl (fun v i => if l.contains (base + i) then setBit v i else v) 0)

/-- R511, R512: the 32 KiB bitmap of a list of rising addresses: address a is bit a mod 8 of byte a / 8. -/
def bitmapBytes : Nat → Nat → List Nat → List Byte
  | 0, _, _ => []
  | k + 1, base, l =>
    match l with
    | [] => List.replicate (k + 1) 0
    | _ => bitmapByte (l.takeWhile (fun a => decide (a < base + 8))) base ::
             bitmapBytes k (base + 8) (l.dropWhile (fun a => decide (a < base + 8)))

/-- R512: the membership check of declarations, an epoch and a bitmap to each partition. -/
def membershipCheck (l : List (Nat × List Nat)) : Nat :=
  crc32c (l.flatMap (fun d => leBytes 4 d.1 ++ bitmapBytes 32768 0 d.2))

/-- R512: the declarations in force as a tick opens, whose check goes with the tick; the last 32 are kept. -/
def Nld.noteMembership (n : Nld) (t : Nat) : Nld :=
  { n with group := { n.group with memberCheck :=
      (Tbl.insert t ((List.range 16).map (fun p => ((n.job p).epoch, (n.job p).members))) n.group.memberCheck).filter (fun e => decide (t < e.1 + 32)) } }

/-- R512: compare a received check with this Naloder's own for the tick; the tray is named as G.T.0.0. -/
def Nld.checkMembership (n : Nld) (gt tick check : Nat) : Nld :=
  match Tbl.find? tick n.group.memberCheck with
  | none => n
  | some l =>
    if membershipCheck l = check then n
    else
      let n := n.raise NReg.RED_EVT_decl_mismatch
      let due := match Tbl.find? gt n.verdict.announced with
        | none => true
        | some t => decide (t + 1000000 ≤ n.now)
      if due then
        let n := { n with verdict := { n.verdict with announced := Tbl.insert gt n.now n.verdict.announced } }
        n.fleetEvent (gt * 512) tick 11 0
      else n

/-! ### Messages (R464, R472 to R474, R485) -/

/-- R472: a message with its trailer: the CRC-32C over its bytes from 8 on. -/
def withTrailer (b : List Byte) : List Byte := b ++ leBytes 4 (crc32c (b.drop 8))

/-- R464, R472: a message of a type and route, from byte 8 on, with its header and trailer. -/
def hornSealed (type route origin : Nat) (body : List Byte) : List Byte :=
  withTrailer (leBytes 1 type ++ leBytes 1 route ++ leBytes 2 origin ++ leBytes 4 (12 + body.length) ++ body)

/-- R472: the trailer is good. -/
def trailerOk (b : List Byte) : Bool :=
  decide (12 ≤ b.length) && fieldAt b (b.length - 4) 4 == crc32c ((b.take (b.length - 4)).drop 8)

/-- R464: the origin of a message. -/
def hornOrigin (b : List Byte) : Nat := fieldAt b 2 2 % 2048

/-- R473, R479, R544, R551: the bytes of one element of an operation's data. -/
def elemBytes (op : Nat) : Nat :=
  if op = 1 then 16 else if op = 2 ∨ op = 3 ∨ op = 4 ∨ op = 8 then 8 else if op = 5 then 4 else 1

/-- R473: the bytes of a segment. -/
def Segment.bytes (s : Segment) : List Byte :=
  let data := s.vals.flatMap (leBytes (elemBytes s.op))
  leBytes 1 s.owner ++ leBytes 1 s.output ++ leBytes 1 s.op ++ leBytes 1 s.status ++ leBytes 4 data.length ++
  leBytes 8 s.image ++ leBytes 2 s.contributing ++ leBytes 2 s.missing ++ leBytes 4 0 ++ data

/-- R473: the segments of a message, at most `k`. -/
def readSegments : Nat → List Byte → List Segment
  | 0, _ => []
  | k + 1, b =>
    if b.length < 24 then []
    else
      let len := fieldAt b 4 4
      let op := fieldAt b 2 1
      let data := (b.drop 24).take len
      { owner := fieldAt b 0 1, output := fieldAt b 1 1, op := op, status := fieldAt b 3 1, image := fieldAt b 8 8,
        contributing := fieldAt b 16 2, missing := fieldAt b 18 2,
        vals := (chunks (elemBytes op) (data.length + 1) data).map leNat } :: readSegments k (b.drop (24 + len))

/-- The length of a segment's data. -/
def Segment.length (s : Segment) : Nat := s.vals.length * elemBytes s.op

/-! ### Merging (R479, R482) -/

/-- The smaller of two signed 64-bit patterns. -/
def minS (x y : Nat) : Nat := if signedOf 64 x ≤ signedOf 64 y then x else y

/-- The larger of two signed 64-bit patterns. -/
def maxS (x y : Nat) : Nat := if signedOf 64 x ≤ signedOf 64 y then y else x

/-- R479, R544: how two elements merge. -/
def mergeElem (op x y : Nat) : Nat :=
  if op = 1 then (x + y) % 2 ^ 128
  else if op = 2 then minS x y
  else if op = 3 then maxS x y
  else if op = 4 then (x + y) % 2 ^ 64
  else if op = 5 then (x + y) % 2 ^ 32
  else if op = 6 then max x y
  else x ||| y

/-- R551: how two tallies merge: five counts, then the least and greatest of each lane. -/
def mergeTally (a b : List Nat) : List Nat :=
  let at_ (l : List Nat) (i : Nat) : Nat := l.getD i 0
  (List.range 5).map (fun i => (at_ a i + at_ b i) % 2 ^ 64) ++
  [min (at_ a 5) (at_ b 5), max (at_ a 6) (at_ b 6), min (at_ a 7) (at_ b 7), max (at_ a 8) (at_ b 8)]

/-- How the data of two segments of one operation merges. -/
def mergeVals (op : Nat) (a b : List Nat) : List Nat :=
  if op = 8 then mergeTally a b else List.zipWith (mergeElem op) a b

/-- R473, R483: merge a segment into another of the same owner, image and output. One that no tray has contributed to
carries no data; the lesser status stands. -/
def Segment.merge (a b : Segment) : Segment :=
  { a with status := min a.status b.status, contributing := a.contributing + b.contributing,
           missing := a.missing + b.missing,
           vals := if a.status ≠ 0 then b.vals else if b.status ≠ 0 then a.vals else mergeVals a.op a.vals b.vals }

/-- R485: the order of segments: owner, image, output. -/
def Segment.key (s : Segment) : Nat := (s.owner * 2 ^ 64 + s.image) * 16 + s.output

/-- Merge a segment into a list in order. -/
def addSegment (s : Segment) : List Segment → List Segment
  | [] => [s]
  | x :: t => if x.key = s.key then x.merge s :: t else if s.key < x.key then s :: x :: t else x :: addSegment s t

/-! ### Declarations (R432, R479, R544, R551) -/

/-- R432: the reduction outputs of a program, in table order. -/
def Program.reductions (p : Program) : List OutputDecl := p.outputs.filter (·.reduction)

/-- An admitted program. -/
def Nld.program (n : Nld) (owner image : Nat) : Option Program :=
  n.sched.programs.find? (fun p => p.owner = owner ∧ p.image = image)

/-- This Naloder's declaration of an output: its operation and size. -/
def Nld.declared (n : Nld) (owner image output : Nat) : Option (Nat × Nat) :=
  if image = 0 then
    if output < 8 then (Tbl.find? (8 * owner + output) n.defence.votes).map (fun _ => (7, 384))
    else if owner = fleet ∧ (Tbl.find? output n.defence.tallies).isSome then some (8, 72)
    else none
  else
    match n.program owner image with
    | none => none
    | some p => (p.reductions[output]?).map (fun o => (o.op, o.size))

/-- R483: merge a received segment into accumulators. One that disagrees with this root's declaration is discarded. -/
def Nld.takeSegment (x : Nld × List Segment) (s : Segment) : Nld × List Segment :=
  let (n, l) := x
  let bad (n : Nld) : Nld := (n.count NReg.RED_SEGMIS_count).raise NReg.RED_EVT_seg_mismatch
  match n.declared s.owner s.image s.output with
  | none => (bad n, l)
  | some (op, size) =>
    if op = s.op ∧ (s.status ≠ 0 ∨ s.length = size) then (n, addSegment s l)
    else
      (bad n, addSegment { s with op := op, status := 2, contributing := 0, missing := 1, vals := [] } l)

/-! ### Roles (R470, R471) -/

/-- R470: the role that governs a tick: the one in force as it opened. -/
def Nld.roleAt (n : Nld) (t : Nat) : Nat := Tbl.get 0 t n.group.roles

/-- R471: at the opening of a tick an armed promotion acts, and the role that governs the tick is noted. -/
def Nld.openRole (n : Nld) (t : Nat) : Nld :=
  let due := n.get NReg.GRP_PROMOTE_LO_tick_lo + 2 ^ 32 * n.get NReg.GRP_PROMOTE_HI_tick_hi
  let role := n.get NReg.GRP_CFG_role
  let n :=
    if n.bit NReg.GRP_PROMOTE_HI_arm ∧ due ≤ t then
      let n := n.put NReg.GRP_PROMOTE_HI_arm 0
      if role = 1 then n.put NReg.GRP_CFG_role 2 else if role = 2 then n.put NReg.GRP_CFG_role 1 else n
    else n
  { n with group := { n.group with roles :=
      (Tbl.set 0 t (n.get NReg.GRP_CFG_role) n.group.roles).filter (fun e => decide (t < e.1 + 1024)) } }

/-- The groups of the fleet seal. -/
def Nld.groups (n : Nld) : Nat := n.get NReg.GRP_GROUPS_LO_groups + 2 ^ 32 * n.get NReg.GRP_GROUPS_HI_groups

/-- This Naloder's group. -/
def Nld.groupNo (n : Nld) : Nat := n.name / 32

/-! ### What a root holds of a tick -/

/-- The group's accumulators of a tick. -/
def Nld.groupTick (n : Nld) (t : Nat) : GroupTick := (n.group.groups.find? (fun g => g.tick = t)).getD { tick := t }

/-- Replace them. -/
def Nld.setGroupTick (n : Nld) (g : GroupTick) : Nld :=
  { n with group := { n.group with groups := g :: n.group.groups.filter (fun x => x.tick ≠ g.tick) } }

/-- The fleet's accumulators of a tick. -/
def Nld.fleetTick (n : Nld) (t : Nat) : FleetTick := (n.group.fleets.find? (fun g => g.tick = t)).getD { tick := t }

/-- Replace them. -/
def Nld.setFleetTick (n : Nld) (g : FleetTick) : Nld :=
  { n with group := { n.group with fleets := g :: n.group.fleets.filter (fun x => x.tick ≠ g.tick) } }

/-- R486: the newest tick whose fleet view this root has completed, with the view's CRC. -/
def Nld.newestView (n : Nld) : Nat × Nat :=
  n.group.fleets.foldl (fun best f => match f.crc with
    | some c => if best.1 ≤ f.tick then (f.tick, c) else best
    | none => best) (0, 0)

/-! ### Views for the host (R582, R586) -/

/-- A count of 16 bits; what one above that reads is not stated. -/
def count16 (c : Nat) : Nat := if c < 65536 then c else Config.arithOpen 1 [c] % 65536

/-- R586: the sealed view of a tick: scope, name, counts, frame counts, results and series that follow. -/
def sealedView (t scope name : Nat) (counts : List Nat) (frames : List Nat) (results series : Nat) (body : List Byte) :
    DelivRec :=
  { type := 1, tick := t,
    body := leBytes 1 scope ++ leBytes 1 0 ++ leBytes 2 name ++ counts.flatMap (fun c => leBytes 2 (count16 c)) ++
      frames.flatMap (leBytes 4) ++ leBytes 2 results ++ leBytes 2 series ++ body }

/-- The sums of the four counts of tray entries of 136 bytes. -/
def entryCounts (bs : List Byte) : List Nat :=
  (chunks 136 (bs.length / 136 + 1) bs).foldl (fun acc e =>
    List.zipWith (· + ·) acc ((List.range 4).map (fun i => fieldAt e (2 * i) 2))) [0, 0, 0, 0]

/-- R584: a ring of type 2 that takes sealed views of a scope. -/
def Nld.takesView (n : Nld) (scope key : Nat) : Bool := n.takes2 4 key && n.subscribed key scope

/-- R441: a program's schedules serve a tick. -/
def Program.serves (p : Program) (t : Nat) : Bool := decide (t % p.period = p.phase) && decide (p.first ≤ t) && !p.withdrawn

/-- The fleet stages that serve a tick. -/
def Nld.stagesOf (n : Nld) (t : Nat) : Nat :=
  (n.sched.programs.filter (fun p => p.fleetStage && p.serves t)).length

/-- R474, R485, R586: deliver the group view of a SEAL body, from the group summary. -/
def Nld.deliverGroup (n : Nld) (t name : Nat) (summary : List Byte) : Nld :=
  let entries := (summary.drop 64).take 4352
  n.form (n.takesView 1) (sealedView t 1 name (entryCounts entries) [0, 0, 0, 0] 0 0
    (leBytes 4 (fieldAt summary 24 4) ++ entries))

/-- R474: the part of a fleet view before its segments. -/
def fleetPresence (body : List Byte) : List Byte := body.take (8 + 4416 * popCount 64 (fieldAt body 0 8))

/-- R474, R586: deliver the fleet view of a SEAL body. -/
def Nld.deliverFleet (n : Nld) (t name : Nat) (body : List Byte) : Nld :=
  let pres := fleetPresence body
  let groups := chunks 4416 (popCount 64 (fieldAt body 0 8) + 1) (pres.drop 8)
  let counts := groups.foldl (fun acc g => List.zipWith (· + ·) acc (entryCounts ((g.drop 64).take 4352))) [0, 0, 0, 0]
  n.form (n.takesView 2) (sealedView t 2 name counts [0, 0, 0, 0] (n.stagesOf t) 0 pres)

/-! ### SEALs (R474, R475) -/

/-- The Horn ports to children. -/
def Nld.childPorts (n : Nld) : List Nat := (List.range 8).filter (fun p => n.hornRole p = 3)

/-- The Horn ports to parents. -/
def Nld.parentPorts (n : Nld) : List Nat := (List.range 8).filter (fun p => n.hornRole p = 1 ∨ n.hornRole p = 2)

/-- Send a message on Horn ports. -/
def Nld.sendHorns (n : Nld) (ports : List Nat) (bytes : List Byte) : Nld :=
  ports.foldl (fun n p => n.sendHorn p (.horn bytes)) n

/-- R474: a SEAL. -/
def Nld.sealMessage (n : Nld) (kind t : Nat) (body : List Byte) : List Byte :=
  hornSealed 0x12 2 n.name (leBytes 2 0x534C ++ leBytes 1 1 ++ leBytes 1 kind ++ leBytes 1 n.groupNo ++ leBytes 1 0 ++
    leBytes 2 n.periodUs ++ leBytes 6 t ++ leBytes 4 n.profile ++ leBytes 38 0 ++ body)

/-- R475: which SEAL this is. One of kind 2 belongs to a program; a vote's names none, and is told by its content. -/
def sealProgram (kind : Nat) (body : List Byte) : Nat :=
  if kind ≠ 2 then 0
  else if fieldAt body 0 8 = 0 then 2 ^ 96 + crc32c body
  else fieldAt body 8 1 * 2 ^ 64 + fieldAt body 0 8

/-- A SEAL has been delivered or given up. -/
def Nld.sealKnown (n : Nld) (kind t prog : Nat) : Bool := n.group.seals.contains (kind, t, prog)

/-- Note it; what lies 256 ticks back is forgotten. -/
def Nld.noteSeal (n : Nld) (kind t prog : Nat) : Nld :=
  { n with group := { n.group with seals :=
      (kind, t, prog) :: n.group.seals.filter (fun s => decide (t < s.2.1 + 256)) } }

/-- R587: the result record and the verdicts of a kind 2 body. -/
def splitResult (body : List Byte) : List Byte × List (List Byte) :=
  let len := 32 + fieldAt body 24 4
  (body.take len, (chunks 64 (fieldAt body 12 2 + 1) (body.drop len)).take (fieldAt body 12 2))

/-- R475, R546, R584: deliver a fleet stage's result record to the rings of its owner, and its verdicts to the owner's verdict
rings, for a vote to those of *fleet* as well. -/
def Nld.deliverStage (n : Nld) (t : Nat) (body : List Byte) : Nld :=
  let o := fieldAt body 8 1
  let vote := fieldAt body 0 8 = 0
  let (res, verdicts) := splitResult body
  let n := n.form (fun key => n.takes2 5 key && n.subscribed key 2 && ringOf o key) { type := 3, tick := t, body := res }
  verdicts.foldl (fun n v =>
    n.form (fun key => n.ringType key == 3 && n.subscribed key 2 && (ringOf o key || (decide vote && ringOf fleet key)))
      { type := 10, tick := t, body := v }) n

/-- R475: deliver what a SEAL carries. -/
def Nld.deliverSeal (n : Nld) (kind t name : Nat) (body : List Byte) : Nld :=
  if kind = 0 then n.deliverGroup t name body
  else if kind = 1 then n.deliverFleet t name body
  else if kind = 2 then n.deliverStage t body
  else n

/-- R43: a message with a foreign profile counts as not arrived. -/
def Nld.foreignProfile (n : Nld) : Nld := (n.count NReg.TICK_PROFMIS_count).raise NReg.TICK_ERR_profile_mismatch

/-- R475: a SEAL arrives. -/
def Nld.sealIn (n : Nld) (p : Nat) (b : List Byte) : Nld :=
  if fieldAt b 0 1 ≠ 0x12 ∨ fieldAt b 8 2 ≠ 0x534C ∨ fieldAt b 10 1 ≠ 1 then n.count NReg.HORNp_MSGDROP_count 1 p
  else if ¬ trailerOk b then n
  else if fieldAt b 22 4 ≠ n.profile then n.foreignProfile
  else
    let kind := fieldAt b 11 1
    let t := fieldAt b 16 6
    let body := (b.take (b.length - 4)).drop 64
    let prog := sealProgram kind body
    if n.sealKnown kind t prog then n
    else ((n.noteSeal kind t prog).sendHorns n.childPorts b).deliverSeal kind t (hornOrigin b) body

/-- R474, R475: a root's own seal or stage: delivered here, and sent down by the acting root. -/
def Nld.sealOut (n : Nld) (kind t : Nat) (body : List Byte) : Nld :=
  let n := n.noteSeal kind t (sealProgram kind body)
  let n := if n.roleAt t = 1 then n.sendHorns n.childPorts (n.sealMessage kind t body) else n
  n.deliverSeal kind t n.name body

/-- R475: a SEAL that has not come by its deadline. A root never waits for one. `image` and `owner` name the program of kind
2, which must be admitted and serve the tick. -/
def Nld.sealMissing (n : Nld) (kind t owner image : Nat) : Nld :=
  let prog := if kind = 2 then owner * 2 ^ 64 + image else 0
  let serving := kind < 2 || match n.program owner image with
    | some p => p.fleetStage && p.serves t
    | none => false
  if n.roleAt t ≠ 0 ∨ kind > 2 ∨ n.sealKnown kind t prog ∨ ¬ serving then n
  else
    let scope := if kind = 0 then 1 else 2
    let n := (n.noteSeal kind t prog).raise NReg.RED_EVT_seal_missing
    n.form (fun key => n.subscribed key scope && (kind < 2 || ringOf owner key || ringOf fleet key))
      { type := 6, tick := t,
        body := leBytes 1 kind ++ leBytes 7 0 ++ leBytes 8 (if kind = 2 then image else 0) }

/-! ### PARTIALs (R468, R469, R472, R483) -/

/-- R472: this tray's PARTIAL of a tick. -/
def Nld.partialMessage (n : Nld) (t : Nat) (counts : List Nat) (map : List Byte) (segs : List Segment) : List Byte :=
  hornSealed 0x13 1 n.name (leBytes 2 0x5050 ++ leBytes 1 1 ++ leBytes 1 0 ++ leBytes 2 n.periodUs ++ leBytes 6 t ++
    leBytes 4 n.profile ++ leBytes 2 segs.length ++ counts.flatMap (leBytes 2) ++ leBytes 2 0 ++
    leBytes 4 (membershipCheck (Tbl.get [] t n.group.memberCheck)) ++ leBytes 24 0 ++ map ++ segs.flatMap Segment.bytes)

/-- The instant T of a tick in domain 0, ns. -/
def Nld.boundary (n : Nld) (t : Nat) : Nat := t * n.periodUs * 1000

/-- R483: a root takes a PARTIAL. -/
def Nld.rootPartial (n : Nld) (b : List Byte) : Nld :=
  let t := fieldAt b 14 6
  let gt := hornOrigin b
  if ¬ trailerOk b then n.count NReg.RED_PCRC_count
  else if fieldAt b 20 4 ≠ n.profile then n.foreignProfile
  else if gt / 32 ≠ n.groupNo ∨ ¬ bitOf (n.get NReg.GRP_TRAYS_trays) (gt % 32) then n.count NReg.RED_PLATE_count
  else
    match n.arriveRdv (sealObject 2 t) t (gt % 32) with
    | (n, .duplicate) => n.count NReg.RED_PDUP_count
    | (n, .stale) => n.count NReg.RED_PLATE_count
    | (n, .late) => n.count NReg.RED_PLATE_count
    | (n, .counted) =>
      let g := n.groupTick t
      let r := (readSegments (fieldAt b 24 2) ((b.take (b.length - 4)).drop 192)).foldl Nld.takeSegment (n, g.segs)
      let part := (b.drop 26).take 8 ++ (b.drop 64).take 128
      (r.1.setGroupTick { g with trays := Tbl.insert (gt % 32) part g.trays, segs := r.2 }).checkMembership gt t
        (fieldAt b 36 4)

/-- R469: a tray of level 1 forwards a child's PARTIAL on both parent ports. -/
def Nld.relayPartial (n : Nld) (b : List Byte) : Nld :=
  if ¬ trailerOk b then n.count NReg.RED_PCRC_count
  else if fieldAt b 20 4 ≠ n.profile then n.foreignProfile
  else if n.boundary (fieldAt b 14 6) + n.get NReg.TICK_G_offset_us * 1000 ≤ n.now then n.count NReg.RED_PLATE_count
  else n.sendHorns n.parentPorts b

/-- R465: the magic and version of a PARTIAL. -/
def partialShape (b : List Byte) : Bool := fieldAt b 0 1 == 0x13 && fieldAt b 8 2 == 0x5050 && fieldAt b 10 1 == 1

/-- R468, R469: send the tray's own PARTIAL: on both parent ports; at a root it is its own arrival, and goes to the root
peer. -/
def Nld.sendPartial (n : Nld) (t : Nat) (counts : List Nat) (map : List Byte) (segs : List Segment) : Nld :=
  let b := n.partialMessage t counts map segs
  if n.roleAt t = 0 then n.sendHorns n.parentPorts b
  else (n.sendRoots 1 (.horn b)).rootPartial b

/-! ### Group and fleet seals (R484 to R487) -/

/-- R485: the group summary of a tick, from what has been merged and the trays that have arrived. -/
def Nld.summaryMessage (n : Nld) (g : GroupTick) (presence : Nat) : List Byte :=
  let (ct, cv) := n.newestView
  hornSealed 0x14 0 n.name (leBytes 2 0x4753 ++ leBytes 1 1 ++ leBytes 1 n.groupNo ++ leBytes 2 n.periodUs ++
    leBytes 6 g.tick ++ leBytes 4 n.profile ++ leBytes 4 presence ++ leBytes 2 g.segs.length ++ leBytes 6 ct ++
    leBytes 4 cv ++ leBytes 24 0 ++
    (List.range 32).flatMap (fun i => Tbl.get (List.replicate 136 0) i g.trays) ++ g.segs.flatMap Segment.bytes)

/-- R486: a root takes a group summary of group g, its own included. -/
def Nld.takeSummary (n : Nld) (b : List Byte) : Nld :=
  let t := fieldAt b 14 6
  let grp := fieldAt b 11 1 % 64
  if ¬ bitOf n.groups grp then n.count NReg.RED_GLATE_count
  else
    match n.arriveRdv (sealObject 3 t) t grp with
    | (n, .duplicate) =>
      let n := n.count NReg.RED_GDUP_count
      match Tbl.find? grp (n.fleetTick t).groups with
      | some x => if x.drop 8 = b.drop 8 then n else n.raise NReg.RED_EVT_group_conflict
      | none => n
    | (n, .stale) => n.count NReg.RED_GLATE_count
    | (n, .late) => n.count NReg.RED_GLATE_count
    | (n, .counted) =>
      let f := n.fleetTick t
      let r := (readSegments (fieldAt b 28 2) ((b.take (b.length - 4)).drop 4416)).foldl Nld.takeSegment (n, f.segs)
      r.1.setFleetTick { f with groups := Tbl.insert grp b f.groups, segs := r.2 }

/-- R486: a received view check against the CRC this root holds. -/
def Nld.compareView (n : Nld) (b : List Byte) : Nld :=
  let t := fieldAt b 30 6
  match n.group.fleets.find? (fun f => f.tick = t) with
  | some { crc := some c, .. } =>
    if c = fieldAt b 36 4 then n
    else (n.raise NReg.RED_EVT_view_mismatch).fleetEvent (fieldAt b 11 1 % 64 * 16384) t (Config.openEvent 2) n.groupNo
  | _ => n

/-- R475, R486: a group summary arrives from another root. -/
def Nld.summaryIn (n : Nld) (b : List Byte) : Nld :=
  if ¬ n.isRoot ∨ fieldAt b 0 1 ≠ 0x14 ∨ fieldAt b 8 2 ≠ 0x4753 ∨ fieldAt b 10 1 ≠ 1 then n
  else if ¬ trailerOk b then n.count NReg.RED_GCRC_count
  else if fieldAt b 20 4 ≠ n.profile then n.foreignProfile
  else (n.takeSummary b).compareView b

/-- R41, R484, R487: the group seal of a tick at a root: the summary, sent by the acting root, and its own arrival at the
fleet seal. -/
def Nld.sealGroup (n : Nld) (t : Nat) : Nld :=
  let presence := (n.rdv (sealObject 2 t)).seen % 2 ^ 32
  let n := n.expireRdv (sealObject 2 t)
  let g := n.groupTick t
  let b := n.summaryMessage g presence
  let n := n.setGroupTick { g with summary := some b }
  let n := if n.roleAt t = 1 then n.sendRoots 0 (.horn b) else n
  (n.takeSummary b).sealOut 0 t (b.take (b.length - 4))

/-- R474, R486: the body of the kind 1 SEAL. -/
def fleetBody (f : FleetTick) : List Byte :=
  leBytes 8 (f.groups.foldl (fun m e => setBit m e.1) 0) ++ f.groups.flatMap (fun e => e.2.take 4416) ++
  f.segs.flatMap Segment.bytes

/-- R42, R486: the fleet seal of a tick at a root: the view, and its CRC for the next 16 ticks. -/
def Nld.sealFleet (n : Nld) (t : Nat) : Nld :=
  let n := n.expireRdv (sealObject 3 t)
  let f := n.fleetTick t
  let body := fleetBody f
  let n := n.setFleetTick { f with crc := some (crc32c body) }
  let n := { n with group := { n.group with groups := n.group.groups.filter (fun g => decide (t < g.tick)),
                                            fleets := n.group.fleets.filter (fun x => decide (t < x.tick + 16)) } }
  n.sealOut 1 t body

/-! ### Full summaries (R488) -/

/-- A declared reduction output (R488): owner, output, op, binary point, columns, image and size. -/
abbrev Decl := Nat × Nat × Nat × Nat × Nat × Nat × Nat

/-- R488, R544, R551: the reduction outputs this Naloder declares. -/
def Nld.declarations (n : Nld) : List Decl :=
  let progs : List Decl := n.sched.programs.flatMap (fun p => (List.range p.reductions.length).filterMap (fun i =>
    (p.reductions[i]?).map (fun o => (p.owner, i, o.op, o.bp, o.cols, p.image, o.size))))
  let votes : List Decl := n.defence.votes.map (fun e => (e.1 / 8, e.1 % 8, 7, 0, 0, 0, 384))
  let tallies : List Decl := n.defence.tallies.map (fun e => (fleet, e.1, 8, 0, 0, 0, 72))
  progs ++ votes ++ tallies

/-- R488: the acting root sends a full summary to every root. Its layout is not stated: the bytes are those of
`Config.recPayload` for its type and items; a tray's level and parents are items of the fleet's, which no register holds. -/
def Nld.sendFull (n : Nld) : Nld :=
  if n.get NReg.GRP_CFG_role ≠ 1 then n
  else
    let t := n.sealedTick
    let g := n.group.groups.foldl (fun (best : Option GroupTick) x => match x.summary with
      | some _ => (match best with
        | some y => if y.tick ≤ x.tick then some x else best
        | none => some x)
      | none => best) none
    let trays := (List.range 32).flatMap (fun i => match g with
      | some g => (match Tbl.find? i g.trays with
        | some b => [(entryCounts b).foldl (· + ·) 0, 1]
        | none => [0, 0])
      | none => [0, 0])
    let decls := n.declarations.flatMap (fun (a, b, c, d, e, f, g) => [a, b, c, d, e, f, g])
    let items := trays ++ [n.profile, t, membershipCheck (Tbl.get [] t n.group.memberCheck)] ++ decls
    n.sendRoots 0 (.horn (hornMessage 0x15 0 n.name (Config.recPayload 0x15 items)))

/-- The members of two lists are the same. -/
def sameSet (a b : List Decl) : Bool := a.all (fun x => b.contains x) && b.all (fun x => a.contains x)

/-- R488, R512: a full summary arrives: its declarations and its membership check. -/
def Nld.fullIn (n : Nld) (gt tick check : Nat) (decls : List Decl) : Nld :=
  if ¬ n.isRoot then n
  else
    let n := if sameSet decls n.declarations then n
      else (n.raise NReg.RED_EVT_decl_mismatch).fleetEvent (gt * 512) n.sealedTick (Config.openEvent 1) 0
    n.checkMembership gt tick check

/-! ### Horn link-up (R461, R465) -/

/-- R461, R465, R493: a Horn ENUM is received in Training or Retrain and checked against NLD_HORNp_PEER. -/
def Nld.hornEnum (n : Nld) (p origin end_ role : Nat) (resume : Bool) (next profile : Nat) : Nld :=
  let x := n.horn p
  if x.link.state = .training ∨ x.link.state = .retrain then
    let n := n.setHorn p { x with gotEnum := true, sentEnum := true, peerEnd := end_, peerRole := role,
                                  peerResume := resume, peerNext := next, peerProfile := profile }
    let ok := origin = n.get NReg.HORNp_PEER_expected p
    let n := (n.put NReg.HORNp_STATUS_peer origin p).put NReg.HORNp_STATUS_peer_ok (if ok then 1 else 0) p
    if ok then n else n.raise NReg.HORNp_EVT_peer_mismatch 1 p
  else n

/-- R461: the link becomes Active once the ENUMs are exchanged and the peer is the configured one; the exchange is then over. -/
def Nld.hornUp (n : Nld) (p : Nat) : Nld :=
  let x := n.horn p
  if x.gotEnum ∧ n.bit NReg.HORNp_STATUS_peer_ok p then
    let own := x.link.state = .retrain
    (n.setHorn p { x with gotEnum := false, sentEnum := false }).hornOp p (fun e => e.linkUp x.peerNext own x.peerResume)
  else n

end Sys2Proof.Machine
end

