-- ==== Sys2Proof/Machine/NldCodec.lean ====
section
/-! DEFINITION. Naloder's codec (R248, R257 to R266): its tables, and the bulk coder that history segments and bulk jobs
share. -/

namespace Sys2Proof.Machine

/-! ### Tables -/

/-- R248: the code lengths that a table number and generation name, if Naloder holds them. -/
def Nld.codeLens (n : Nld) (t gen : Nat) : Option (List Nat) :=
  if t = 0 then (if gen = 0 then some sparseTable else none)
  else if t = 1 then (if gen = 0 then some busyTable else none)
  else
    let (cur, prev) := Tbl.get (({} : CodeTable), ({} : CodeTable)) t n.tables
    if gen = 0 then none
    else if cur.gen = gen then some cur.lens
    else if prev.gen = gen then some prev.lens
    else none

/-- R265: the 33 lengths of the staging words. -/
def Nld.stagedLens (n : Nld) : List Nat :=
  (List.range 33).map (fun c => n.get NReg.CODEC_TBL_STAGEw_lengths (c / 8) / 16 ^ (c % 8) % 16)

/-- R265: NLD_CODEC_TBL_CMD.commit. -/
def Nld.commitTable (n : Nld) (t gen : Nat) : Nld :=
  let lens := n.stagedLens
  if t < 2 ∨ gen = 0 ∨ ¬ tableValid lens then n.raise NReg.CODEC_DECSTAT_tbl_refused
  else
    let cur := (Tbl.get (({} : CodeTable), ({} : CodeTable)) t n.tables).1
    { n with tables := Tbl.set (({} : CodeTable), ({} : CodeTable)) t ({ gen := gen, lens := lens }, cur) n.tables }

/-! ### Bulk blocks (R260) -/

/-- R260: code the words of one block: zero, table mode at shift 0, or raw. -/
def bulkBlock (lens : List Nat) (ws : List Nat) : List Byte :=
  let pack (bits : List Bool) : List Byte := bitBytes ((bits.length + 7) / 8) bits
  if ws.all (· = 0) then pack (natBits 16 (blockHeader 0 0 false 0))
  else
    match costAll lens ws with
    | some c =>
      if c ≤ 32 * ws.length then pack (natBits 16 (blockHeader 1 0 false 0) ++ ws.flatMap (tableBits lens))
      else pack (natBits 16 (blockHeader 3 0 false 0) ++ ws.flatMap (natBits 32))
    | none => pack (natBits 16 (blockHeader 3 0 false 0) ++ ws.flatMap (natBits 32))

/-- R260, R262: decode a block of `k` words from the front of a stream, with the bytes it took; `none` where its syntax is
bad or the input ends inside it. -/
def bulkUnblock (lens : List Nat) (k : Nat) (bs : List Byte) : Option (List Nat × Nat) :=
  let bits := byteBits (bs.take 258)
  match readHeader bits with
  | none => none
  | some (mode, shift, marked, width, s) =>
    if shift ≠ 0 ∨ marked ∨ width ≠ 0 then none
    else
      let body := if mode = 0 then some (List.replicate k 0, s)
        else if mode = 1 then readMany (readTable lens) k s
        else if mode = 3 then readMany (readBits 32) k s
        else none
      match body with
      | none => none
      | some (ws, rest) =>
        let used := (bits.length - rest.length + 7) / 8
        let pad := rest.take (8 * used - (bits.length - rest.length))
        if pad.any id ∨ ws.any (fun w => decide (w ≥ 2 ^ 32)) then none else some (ws, used)

/-- The words of a byte string. -/
def words32 (bs : List Byte) : List Nat := (chunks 4 (bs.length / 4 + 1) bs).map leNat

/-- R260: the words of a byte string in blocks of 64. -/
def bulkBlocks (bs : List Byte) : List (List Nat) := chunks 64 (bs.length / 256 + 1) (words32 bs)

/-! ### Streams (R259, R261, R262) -/

/-- R259: the header of a stream. -/
def streamHeader (table gen origLen : Nat) : List Byte :=
  leBytes 2 0x4B42 ++ leBytes 1 1 ++ leBytes 1 (table * 16) ++ leBytes 2 gen ++ leBytes 2 0 ++ leBytes 8 origLen

/-- R259: the trailer of a stream. -/
def streamTrailer (check : Nat) : List Byte := leBytes 4 check ++ leBytes 2 0x4B45 ++ leBytes 2 0

/-- The register of a running CRC-32C: the state a part hands to the next. -/
def crcRun (state : Nat) (bs : List Byte) : Nat := (byteBits bs).foldl (crcStep 0x82F63B78) state

/-- The state a running CRC-32C starts from, and its check. -/
def crcStart : Nat := 0xFFFFFFFF

/-- The check of a state. -/
def crcCheck (state : Nat) : Nat := state ^^^ 0xFFFFFFFF

/-- What a bulk job has done (R263). -/
structure BulkResult where
  status : Nat
  consumed : Nat
  bytes : List Byte
  crc : Nat
  deriving DecidableEq, Repr

/-- R261: code the blocks of a part while they fit. `left` is the original data still to come, this part's included. -/
def compressBlocks (lens : List Nat) (room : Nat) (poisonAt : Option Nat) :
    List (List Nat) → Nat → BulkResult → BulkResult
  | [], left, r =>
    if left = 0 then { r with bytes := r.bytes ++ streamTrailer (crcCheck r.crc) } else r
  | ws :: rest, left, r =>
    let len := 4 * ws.length
    let poisoned := match poisonAt with
      | some a => decide (r.consumed ≤ a ∧ a < r.consumed + len)
      | none => false
    if poisoned then { r with status := 6 }
    else
      let b := bulkBlock lens ws
      let last := decide (left ≤ len)
      if r.bytes.length + b.length + (if last then 8 else 0) > room then { r with status := 1 }
      else
        compressBlocks lens room poisonAt rest (left - len)
          { r with consumed := r.consumed + len, bytes := r.bytes ++ b,
                   crc := crcRun r.crc (ws.flatMap (leBytes 4)) }

/-- R261: a part of a compress job. `done` is what earlier parts consumed. -/
def compressPart (lens : List Nat) (table gen origLen done : Nat) (cont : Bool) (crc room : Nat)
    (poisonAt : Option Nat) (input : List Byte) : BulkResult :=
  let start : BulkResult := { status := 0, consumed := 0, bytes := if cont then [] else streamHeader table gen origLen,
                              crc := if cont then crc else crcStart }
  compressBlocks lens room poisonAt (bulkBlocks input) (origLen - done) start

/-- R262: decode the blocks of a part. `made` is what the whole job has produced so far, `fuel` bounds the blocks. -/
def decompressBlocks (lens : List Nat) (origLen limit room : Nat) (poisonAt : Option Nat) :
    Nat → List Byte → Nat → BulkResult → BulkResult
  | 0, _, _, r => r
  | fuel + 1, bs, made, r =>
    if made = origLen then
      if bs.length < 8 then { r with status := 3 }
      else if fieldAt bs 4 2 ≠ 0x4B45 ∨ fieldAt bs 6 2 ≠ 0 then { r with status := 3 }
      else { r with consumed := r.consumed + 8, status := if fieldAt bs 0 4 = crcCheck r.crc then 0 else 4 }
    else
      let k := min 64 ((origLen - made) / 4)
      match bulkUnblock lens k bs with
      | none => { r with status := 3 }
      | some (ws, used) =>
        let poisoned := match poisonAt with
          | some a => decide (r.consumed ≤ a ∧ a < r.consumed + used)
          | none => false
        let out := ws.flatMap (leBytes 4)
        if poisoned then { r with status := 6 }
        else if bs.length < used then { r with status := 3 }
        else if made + out.length > limit then { r with status := 2 }
        else if r.bytes.length + out.length > room then { r with status := 1 }
        else decompressBlocks lens origLen limit room poisonAt fuel (bs.drop used) (made + out.length)
          { r with consumed := r.consumed + used, bytes := r.bytes ++ out, crc := crcRun r.crc out }

/-- R259, R262: the header of a stream: table, generation and original length, if it is good. -/
def readStream (bs : List Byte) : Option (Nat × Nat × Nat) :=
  if bs.length < 16 ∨ fieldAt bs 0 2 ≠ 0x4B42 ∨ fieldAt bs 2 1 ≠ 1 ∨ fieldAt bs 3 1 % 16 ≠ 0 ∨ fieldAt bs 6 2 ≠ 0 ∨
    fieldAt bs 8 8 % 4 ≠ 0 then none
  else some (fieldAt bs 3 1 / 16, fieldAt bs 4 2, fieldAt bs 8 8)

/-! ### History segments (R363) -/

/-- R363: a segment from its id and the values of its 256 ticks: a valid value, a poisoned one, or neither. -/
def segmentBytes (id : Nat) (vals : List (Option (Option Nat))) : Nat × List Byte :=
  let valid := vals.map (fun v => match v with
    | some (some _) => true
    | _ => false)
  let poison := vals.map (fun v => match v with
    | some none => true
    | _ => false)
  let ws := vals.map (fun v => match v with
    | some (some x) => x
    | _ => 0)
  let code (lens : List Nat) : List Byte := (chunks 64 4 ws).flatMap (bulkBlock lens)
  let c0 := code sparseTable
  let c1 := code busyTable
  let (t, c) := if c1.length < c0.length then (1, c1) else (0, c0)
  let body := bitBytes 32 valid ++ bitBytes 32 poison ++ c
  let len := 8 + body.length
  (t, leBytes 8 (id % 2 ^ 40 + t * 2 ^ 40 + len * 2 ^ 44) ++ body)

/-- R363: the value of a tick in a segment: valid, poisoned or neither. -/
def segmentValue (table : Nat) (bytes : List Byte) (k : Nat) : Option (Option Nat) :=
  let lens := if table = 0 then sparseTable else busyTable
  let valid := bitOf (fieldAt bytes 8 32) k
  let poison := bitOf (fieldAt bytes 40 32) k
  let rec blocks (fuel : Nat) (bs : List Byte) (i : Nat) : Nat :=
    match fuel with
    | 0 => 0
    | fuel + 1 =>
      match bulkUnblock lens 64 bs with
      | none => 0
      | some (ws, used) => if i < 64 then ws.getD i 0 else blocks fuel (bs.drop used) (i - 64)
  if valid then some (some (blocks 4 (bytes.drop 72) k)) else if poison then some none else none

end Sys2Proof.Machine
end

