-- ==== Sys2Proof/Machine/NldSeries.lean ====
section
/-! DEFINITION. The series engine (R350 to R372): owners, the position table, the seal sweep, history, and the quantities and
selectors that programs read. -/

namespace Sys2Proof.Machine

/-! ### Owners (R350, R351) -/

/-- The owner map of a position. -/
def Nld.ownMap (n : Nld) (pos : Nat) : OwnMap := Tbl.get ({} : OwnMap) pos n.own

/-- Replace the owner map of a position. -/
def Nld.setOwnMap (n : Nld) (pos : Nat) (m : OwnMap) : Nld := { n with own := Tbl.set ({} : OwnMap) pos m n.own }

/-- R350: the owner of a series by a map: series 0 to 127 and unmapped ones are owned by *fleet*. -/
def ownerIn (owners : Tbl Nat) (s : Nat) : Nat :=
  if s < 128 then fleet
  else
    let o := Tbl.get fleet s owners
    if o = 31 then fleet else o

/-- R351: the set of owners a position's map names, with *fleet*. -/
def ownerSet (owners : Tbl Nat) : Nat :=
  owners.foldl (fun m e => if e.2 ≤ 16 then setBit m e.2 else m) (scopeOf fleet)

/-- R350: arm the staged copy of a position. -/
def Nld.armOwners (n : Nld) (pos : Nat) : Nld := n.setOwnMap pos { n.ownMap pos with armedAt := some n.elapsed }

/-- R350: a frame that passes steps 1 to 4: a pending copy comes into force, and an armed one becomes pending at a
reconfigured frame that arrived after the arming. -/
def Nld.ownFrame (n : Nld) (pos : Nat) (reconfigured : Bool) (arrival : Nat) : Nld :=
  let m := n.ownMap pos
  let m := if m.pending then { m with owners := m.staged, pending := false } else m
  match m.armedAt with
  | some a =>
    if reconfigured ∧ a < arrival then n.setOwnMap pos { m with pending := true, armedAt := none } else n.setOwnMap pos m
  | none => n.setOwnMap pos m

/-- R351: the owners of a merged frame's series. -/
def PosRec.ownerOf (r : PosRec) (s : Nat) : Nat := if r.fleetOnly then fleet else ownerIn r.owners s

/-! ### The position table (R353, R354) -/

/-- The series a mask tracks, rising. -/
def trackedSeries (mask : Nat) : List Nat := bitList 1024 mask

/-- R353: the context of a series of a position. -/
def TrackRow.ctx (r : TrackRow) (s : Nat) : Nat := r.base + popCount s r.mask

/-- The context range of a row. -/
def TrackRow.last (r : TrackRow) : Nat := r.base + popCount 1024 r.mask

/-- R353: the ranges of the rows of a table do not overlap and stay within the contexts there are. -/
def rangesOk (t : Tbl TrackRow) : Bool :=
  let rows := (t.map (·.2)).filter (fun r => r.mask ≠ 0)
  rows.all (fun r => decide (r.last ≤ 262144)) &&
  t.all (fun a => t.all (fun b => a.1 == b.1 || a.2.mask == 0 || b.2.mask == 0 ||
    decide (a.2.last ≤ b.2.base) || decide (b.2.last ≤ a.2.base)))

/-- How many tracked series of a table an owner has, by the owner map in force. -/
def Nld.trackedOf (n : Nld) (t : Tbl TrackRow) (o : Nat) : Nat :=
  (t.map (fun e => ((trackedSeries e.2.mask).filter (fun s => ownerIn (n.ownMap e.1).owners s = o)).length)).foldl
    (· + ·) 0

/-- R353: the staged table may be committed: its ranges do not overlap, and no owner has more tracked series than its quota. -/
def Nld.positionsOk (n : Nld) : Bool :=
  rangesOk n.series.staged &&
  (List.range 17).all (fun o => decide (n.trackedOf n.series.staged o ≤ n.get NReg.SER_QUOTAn_quota o))

/-- R353, R376: NLD_SER_POS_CMD.commit. -/
def Nld.commitPositions (n : Nld) : Nld :=
  if n.positionsOk then { n with series := { n.series with committed := some n.series.staged } }
  else n.raise NReg.SER_EVT_alloc_refused

/-- The assignments of a table: context to (position, series). -/
def assignments (t : Tbl TrackRow) : List (Nat × Nat × Nat) :=
  t.flatMap (fun e => (trackedSeries e.2.mask).map (fun s => (e.2.ctx s, e.1, s)))

/-- R355: the configuration that a context keeps over a reset. -/
def SerCtx.fresh (c : SerCtx) : SerCtx := { owner := c.owner, bp := c.bp, k := c.k }

/-- R360: reset a context; its history index is cleared. -/
def Nld.resetCtx (n : Nld) (c owner : Nat) : Nld :=
  let x := Tbl.get ({} : SerCtx) c n.series.ctx
  { n with series := { n.series with ctx := Tbl.set ({} : SerCtx) c { x.fresh with owner := owner } n.series.ctx,
                                     hist := Tbl.erase c n.series.hist } }

/-- R354: the committed table takes effect; every context whose assignment changes is reset. -/
def Nld.applyPositions (n : Nld) : Nld :=
  match n.series.committed with
  | none => n
  | some t =>
    let old := assignments n.series.table
    let new := assignments t
    let n := { n with series := { n.series with table := t, committed := none } }
    let n := new.foldl (fun n a =>
      if old.contains a then n else n.resetCtx a.1 (ownerIn (n.ownMap a.2.1).owners a.2.2)) n
    n.put NReg.SER_ALLOCATED_count new.length

/-- R360: the contexts of a position whose table entry names a new die. -/
def Nld.resetDie (n : Nld) (pos : Nat) : Nld :=
  let row := Tbl.get ({} : TrackRow) pos n.series.table
  (trackedSeries row.mask).foldl (fun n s =>
    let c := row.ctx s
    n.resetCtx c (Tbl.get ({} : SerCtx) c n.series.ctx).owner) n

/-! ### The sweep (R356 to R361) -/

/-- The flag bits of R355 as a word. -/
def flagIf (b : Bool) (i : Nat) : Nat := if b then 2 ^ i else 0

/-- Replace the bits of a word under a mask. -/
def putBits (w mask v : Nat) : Nat := (w - (w &&& mask)) ||| (v &&& mask)

/-- R361: the start of a statistics epoch. -/
def SerCtx.epoch (c : SerCtx) : SerCtx :=
  let f := putBits c.flags 0x300 0
  { c with n := 0, s1 := 0, s2 := 0, min := 0, max := 0, flags := f }

/-- R358: the statistics of a valid value, while they are not frozen. -/
def SerCtx.stats (c : SerCtx) (x : Nat) : SerCtx :=
  if bitOf c.flags 8 then c
  else
    let m := c.n + 1
    { c with n := m, s1 := c.s1 + x, s2 := c.s2 + x * x, min := if m = 1 then x else Nat.min c.min x,
             max := if m = 1 then x else Nat.max c.max x,
             flags := if m = 2 ^ 32 - 1 then setBit c.flags 8 else c.flags }

/-- R358: the baseline of a valid value. -/
def SerCtx.baseline (c : SerCtx) (x : Nat) : SerCtx :=
  if bitOf c.flags 10 then
    { c with base := ((c.base : Int) + (((x * 65536 : Nat) : Int) - c.base) / ((2 ^ c.k : Nat) : Int)).toNat }
  else { c with base := x * 65536, flags := setBit c.flags 10 }

/-- R357, R359: a valid value at a tick, with its span and the frame's flags; whether it was contiguous. -/
def SerCtx.valid (c : SerCtx) (tick x span : Nat) (lossy carry obs : Bool) : SerCtx × Bool :=
  let contiguous := !c.hadValue || decide (c.lastTick + span = tick)
  let sum := c.total + x
  let f := putBits c.flags 0x3F (flagIf true 0 + flagIf lossy 2 + flagIf carry 3 + flagIf (decide (span > 1)) 4 +
    flagIf obs 5)
  let f := if contiguous then f else setBit f 6
  let f := if sum > 2 ^ 64 - 1 then setBit f 7 else f
  let c := { c with last := x, lastTick := tick, total := Nat.min sum (2 ^ 64 - 1), absentRun := 0, hadValue := true,
                    span := span, flags := f }
  (if span = 1 then (c.stats x).baseline x else c, contiguous)

/-- R357: a sealed tick without a valid value: a poisoned one, or none. -/
def SerCtx.missing (c : SerCtx) (poisoned obs : Bool) : SerCtx :=
  let f := putBits c.flags 0x23 (flagIf poisoned 1 + flagIf obs 5)
  { c with absentRun := Nat.min (c.absentRun + 1) 0xFFFF, flags := if poisoned then setBit f 6 else f }

/-- A series of a position in a sealed tick: no frame, poisoned, or a value with the frame's header. -/
inductive SealedVal where
  | absent
  | poisoned
  | value (x : Nat) (h : FrameHeader)
  deriving DecidableEq, Repr

/-- R348, R349: what a tick record says of a series. -/
def TickRec.value (t : TickRec) (pos s : Nat) : SealedVal :=
  match Tbl.find? pos t.pos with
  | none => .absent
  | some r => if r.poison.contains s || r.lost.contains s then .poisoned else .value (Tbl.get 0 s r.xhat) r.header

/-- R360, R361, R357: the sweep of one context. -/
def Nld.sweepCtx (n : Nld) (t : TickRec) (a : Nat × Nat × Nat) : Nld :=
  let (c, pos, s) := a
  let n := match Tbl.find? pos t.pos with
    | some r =>
      let o := ownerIn r.owners s
      if o = (Tbl.get ({} : SerCtx) c n.series.ctx).owner then n else n.resetCtx c o
    | none => n
  let x := Tbl.get ({} : SerCtx) c n.series.ctx
  let x := n.series.cfgs.foldl (fun x e => if e.1 = c then { x with bp := e.2.1, k := e.2.2 } else x) x
  let x := if n.series.epochs.any (fun e => e.1 = c ∧ e.2 ≤ t.num) then x.epoch else x
  let obs := t.obsv.contains pos
  let set (n : Nld) (x : SerCtx) : Nld :=
    { n with series := { n.series with ctx := Tbl.set ({} : SerCtx) c x n.series.ctx } }
  match t.value pos s with
  | .absent => set n (x.missing false obs)
  | .poisoned => set n (x.missing true obs)
  | .value v h =>
    let r := x.valid t.num v h.span (bitOf h.flags 2) (bitOf h.flags 5) obs
    let n := set n r.1
    if r.2 then n else (n.count NReg.SER_GAPCNT_count).raise NReg.SER_EVT_gap

/-! ### History (R362 to R366) -/

/-- R365: a value of a tick goes into the staging side. -/
def StageSide.put (d : StageSide) (c tick : Nat) (v : Option Nat) : StageSide :=
  { d with vals := Tbl.insert c ((Tbl.get [] c d.vals) ++ [(tick, v)]) d.vals }

/-- R365: the sides swap when a tick opens a new segment. If the compressor has not finished, what it has not coded is
dropped. -/
def Nld.swapSides (n : Nld) (seg : Nat) : Nld :=
  match n.series.side with
  | none => { n with series := { n.series with side := some { seg := seg } } }
  | some d =>
    if d.seg = seg then n
    else
      let n := match n.series.closing with
        | none => n
        | some old => (n.count NReg.SER_HISTDROP_count old.vals.length).raise NReg.SER_EVT_hist_drop
      { n with series := { n.series with closing := some d, side := some { seg := seg } } }

/-- R356, R365: a sealed tick's values of the tracked contexts go into history. -/
def Nld.stageTick (n : Nld) (t : TickRec) (l : List (Nat × Nat × Nat)) : Nld :=
  if ¬ n.bit NReg.SER_CTRL_hist_en then n
  else
    let n := n.swapSides (t.num / 256)
    match n.series.side with
    | none => n
    | some d =>
      let d := l.foldl (fun d a => match t.value a.2.1 a.2.2 with
        | .absent => d
        | .poisoned => d.put a.1 t.num none
        | .value v _ => d.put a.1 t.num (some v)) d
      { n with series := { n.series with side := some d } }

/-- R354 to R361: what a seal sweep does: the committed table, the resets, every tracked context in order, and history. -/
def Nld.sweep (n : Nld) (t : TickRec) : Nld :=
  let n := n.applyPositions
  let n := n.series.dieChanged.foldl (fun n pos => n.resetDie pos) n
  let l := assignments n.series.table
  let n := l.foldl (fun n a => n.sweepCtx t a) n
  let n := n.stageTick t l
  { n with series := { n.series with cfgs := [], epochs := n.series.epochs.filter (fun e => decide (t.num < e.2)),
                                     dieChanged := [] } }

/-- R362: the bytes of the tier-0 ring, at the history area of the default region; a larger region enlarges this ring
only. -/
def Nld.ringBytes (n : Nld) : Nat := n.get NReg.FWE_HIST_gib * 2 ^ 30 / 262144 - 25600

/-- R364: the exact summary of the values of a segment. -/
def sumEntry (id : Nat) (vals : List (Nat × Option Nat)) : HistSum :=
  vals.foldl (fun e v => match v.2 with
    | none => { e with poisoned := true }
    | some x => { e with sum := e.sum + x, count := e.count + 1, min := if e.count = 0 then x else Nat.min e.min x,
                         max := Nat.max e.max x }) { id := id }

/-- R364: the exact combination of two entries. -/
def HistSum.and (a b : HistSum) : HistSum :=
  { id := a.id, sum := a.sum + b.sum, count := a.count + b.count, poisoned := a.poisoned || b.poisoned,
    min := if a.count = 0 then b.min else if b.count = 0 then a.min else Nat.min a.min b.min,
    max := Nat.max a.max b.max }

/-- The bytes of the ring from `w` that overlap those of a segment. -/
def overlaps (size w len : Nat) (s : HistSeg) : Bool :=
  (List.range 2).any (fun i => (List.range 2).any (fun j =>
    decide (w + i * size < s.offset + j * size + s.bytes.length ∧ s.offset + j * size < w + i * size + len)))

/-- R363, R364: a closed segment of a context is coded into its area. -/
def HistArea.close (size id : Nat) (vals : List (Nat × Option Nat)) (h : HistArea) : HistArea :=
  let at_ (k : Nat) : Option (Option Nat) := (vals.find? (fun v => v.1 = 256 * id + k)).map (·.2)
  let (t, bytes) := segmentBytes id ((List.range 256).map at_)
  let seg : HistSeg := { id := id, table := t, offset := h.wptr, bytes := bytes }
  let keep := h.segs.filter (fun s => !overlaps size h.wptr bytes.length s && decide (s.id % 256 ≠ id % 256))
  let e := sumEntry id vals
  let t2 := match Tbl.find? (id / 64 % 508) h.tier2 with
    | some x => if x.id = id / 64 then x.and { e with id := id / 64 } else { e with id := id / 64 }
    | none => { e with id := id / 64 }
  { newest := some id, wptr := (h.wptr + bytes.length) % size, segs := keep ++ [seg],
    tier1 := Tbl.insert (id % 1024) e h.tier1, tier2 := Tbl.insert (id / 64 % 508) t2 h.tier2 }

/-- R365: the history compressor has coded the closed side. -/
def Nld.compressDone (n : Nld) : Nld :=
  match n.series.closing with
  | none => n
  | some d =>
    let size := n.ringBytes
    let hist := d.vals.foldl (fun h e =>
      Tbl.insert e.1 ((Tbl.get ({} : HistArea) e.1 h).close size d.seg e.2) h) n.series.hist
    { n with series := { n.series with closing := none, hist := hist } }

/-- R365: the tick period has changed: the open segment closes and every history index is cleared. -/
def Nld.clearHistory (n : Nld) : Nld :=
  { n with series := { n.series with hist := [], side := none, closing := none } }

/-! ### Quantities and selectors (R367 to R372) -/

/-- An exact quotient rounded towards −∞ and a shift by a signed amount. -/
def shiftBy (v : Int) (e : Int) : Int :=
  if e ≥ 0 then v * ((2 ^ e.toNat : Nat) : Int) else v / ((2 ^ (-e).toNat : Nat) : Int)

/-- R368: the value of a quantity of a context; `none` where it is not valid. `last` and `span` are those of the tick read. -/
def SerCtx.quantity (c : SerCtx) (q : Nat) (last : Option (Nat × Nat)) : Option Int :=
  let up (v : Nat) : Int := shiftBy v c.bp
  let dev (x : Nat) : Int := shiftBy (((x * 65536 : Nat) : Int) - c.base) ((c.bp : Int) - 16)
  if q = 0 then last.map (fun l => up l.1)
  else if q = 1 then last.map (fun l => up l.1 / (l.2 : Int))
  else if q = 2 then some (up c.total)
  else if q = 3 then some (up c.n)
  else if q = 4 then some (up c.s1)
  else if q = 5 then some (up c.s2)
  else if q = 6 then (if c.n = 0 then none else some (up c.min))
  else if q = 7 then (if c.n = 0 then none else some (up c.max))
  else if q = 8 then (if bitOf c.flags 10 then some (shiftBy c.base ((c.bp : Int) - 16)) else none)
  else if q = 9 then (if bitOf c.flags 10 then last.map (fun l => dev l.1) else none)
  else if q = 10 then (if c.n = 0 then none else some (up c.s1 / (c.n : Int)))
  else if q = 11 then some (up c.absentRun)
  else none

/-- R369: the quantity as SF64: the 64-bit pattern and the status, 5 where it saturated. -/
def toSf64 (v : Int) : Nat × Nat := let s := satInt 64 v; (fieldOf 64 s, if s = v then 0 else 5)

/-- The last value and span of a context: of the newest sealed tick, or in a provisional run of the open tick. -/
def SerCtx.lastOf (c : SerCtx) (prov : Option SealedVal) : Option (Nat × Nat) :=
  match prov with
  | none => if bitOf c.flags 0 then some (c.last, c.span) else none
  | some (.value x h) => some (x, h.span)
  | some _ => none

/-- R370, R371: the elements a selector names, in order: position, series and context. -/
def Nld.selected (n : Nld) (t : TickRec) (s : Selector) : List (Nat × Nat × Option Nat) :=
  let ctxOf (pos series : Nat) : Option Nat :=
    let row := Tbl.get ({} : TrackRow) pos n.series.table
    if bitOf row.mask series then some (row.ctx series) else none
  let first := s.b % 1024
  let count := s.b / 65536 % 2048
  if s.kind = 0 then
    let all := assignments n.series.table
    ((List.range (s.b % 2 ^ 19)).map (· + s.a % 2 ^ 18)).filterMap (fun c =>
      (all.find? (fun a => a.1 = c)).map (fun a => (a.2.1, a.2.2, some c)))
  else
    let positions :=
      if s.kind = 1 then (List.range (s.a / 65536 % 1024)).map (· + s.a % 512)
      else (List.range 512).filter (fun pos => match Tbl.find? pos t.pos with
        | some r => decide (r.header.schema = s.a % 65536)
        | none => t.expected.contains pos)
    positions.flatMap (fun pos => (List.range count).map (fun i => (pos, first + i, ctxOf pos (first + i))))

/-- R351, R372: the owner of a series in a tick: that of the merged frame, else of the map in force. -/
def Nld.seriesOwner (n : Nld) (t : TickRec) (pos s : Nat) : Nat :=
  match Tbl.find? pos t.pos with
  | some r => r.ownerOf s
  | none => ownerIn (n.ownMap pos).owners s

/-- R368, R369, R371, R372: one element of a selector, as a program of an owner reads it. -/
def Nld.element (n : Nld) (t : TickRec) (prov : Bool) (owner : Nat) (s : Selector) (e : Nat × Nat × Option Nat) :
    TElem × Option Nat :=
  let (pos, series, ctx) := e
  let o := n.seriesOwner t pos series
  let v := t.value pos series
  let poisoned := v = .poisoned && (s.quantity = 0 || s.quantity = 1 || s.quantity = 9)
  if owner ≠ fleet ∧ owner ≠ o then ({ bits := 0, status := 3 }, none)
  else if ¬ s.obs ∧ t.obsv.contains pos then ({ bits := 0, status := 4 }, none)
  else if poisoned then ({ bits := 0, status := 2, poison := true }, none)
  else
    let last := match v with
      | .value x h => some (x, h.span)
      | _ => none
    let q := match ctx with
      | some c =>
        let x := Tbl.get ({} : SerCtx) c n.series.ctx
        x.quantity s.quantity (if prov then x.lastOf (some v) else last)
      | none => if s.quantity ≤ 1 then ({} : SerCtx).quantity s.quantity last else none
    match q with
    | none => ({ bits := 0, status := 1 }, none)
    | some v =>
      let (b, st) := toSf64 v
      ({ bits := b, status := st }, if st = 5 then ctx else none)

/-- R369: a conversion of a context saturated. -/
def Nld.noteOvf (n : Nld) (cs : List Nat) : Nld :=
  { n with series := { n.series with ctx := cs.foldl (fun t c =>
      let x := Tbl.get ({} : SerCtx) c t
      Tbl.set ({} : SerCtx) c { x with flags := setBit x.flags 9 } t) n.series.ctx } }

/-- R371: a selector read for a run: values with statuses, and the contexts whose conversion saturated. -/
def Nld.readSelector (n : Nld) (t : TickRec) (prov : Bool) (owner : Nat) (s : Selector) : List TElem × List Nat :=
  let l := (n.selected t s).map (n.element t prov owner s)
  (l.map (·.1), l.filterMap (·.2))

end Sys2Proof.Machine
end

