-- ==== Sys2Proof/Machine/NldHist.lean ====
section
/-! DEFINITION. How the series history is read (R363 to R366, R434): by tick from tier 0, or by entries of tiers 1 and 2. -/

namespace Sys2Proof.Machine

/-- A context's history area. -/
def Nld.histOf (n : Nld) (c : Nat) : HistArea := Tbl.get ({} : HistArea) c n.series.hist

/-- The value of a tick in a staging side, if the side covers the tick's segment. -/
def sideValue (d : Option StageSide) (c t : Nat) : Option (Option (Option Nat)) :=
  match d with
  | none => none
  | some d =>
    if d.seg = t / 256 then some (((Tbl.get [] c d.vals).find? (fun v => v.1 = t)).map (·.2)) else none

/-- R363, R365: the value of a tick where tier 0 or the staging buffer covers its segment: valid, poisoned, or neither. -/
def Nld.tier0 (n : Nld) (c t : Nat) : Option (Option (Option Nat)) :=
  match sideValue n.series.side c t with
  | some v => some v
  | none =>
    match sideValue n.series.closing c t with
    | some v => some v
    | none =>
      let h := n.histOf c
      if h.newest.getD 0 < t / 256 + 256 then
        (h.segs.find? (fun s => s.id = t / 256)).map (fun s => segmentValue s.table s.bytes (t % 256))
      else none

/-- R364: the tier-1 entry of a segment. -/
def Nld.tier1 (n : Nld) (c seg : Nat) : Option HistSum :=
  let h := n.histOf c
  match Tbl.find? (seg % 1024) h.tier1 with
  | some e => if e.id = seg ∧ h.newest.getD 0 < seg + 1024 then some e else none
  | none => none

/-- R364: the tier-2 entry that covers a segment. -/
def Nld.tier2 (n : Nld) (c seg : Nat) : Option HistSum :=
  let h := n.histOf c
  match Tbl.find? (seg / 64 % 508) h.tier2 with
  | some e => if e.id = seg / 64 ∧ h.newest.getD 0 < seg + 508 * 64 then some e else none
  | none => none

/-- R366: the finest tier that still holds a range of ticks. A segment that no tier holds reads as not valid in any. -/
def Nld.tierFor (n : Nld) (c first count : Nat) : Nat :=
  let segs := (List.range ((first + count - 1) / 256 + 1 - first / 256)).map (· + first / 256)
  let in0 (s : Nat) : Bool := (n.tier0 c (256 * s)).isSome
  let in1 (s : Nat) : Bool := (n.tier1 c s).isSome
  let in2 (s : Nat) : Bool := (n.tier2 c s).isSome
  if segs.all (fun s => in0 s || (!in1 s && !in2 s)) then 0
  else if segs.all (fun s => in0 s || in1 s || !in2 s) then 1
  else 2

/-- The values of a range of ticks in tier 0. -/
def Nld.histTicks (n : Nld) (c first count : Nat) : List (Nat × Option (Option Nat)) :=
  (List.range count).map (fun i => (first + i, ((n.tier0 c (first + i)).getD none)))

/-- The entries of a coarser tier that a range of ticks touches. -/
def Nld.histEntries (n : Nld) (c first count tier : Nat) : List HistSum :=
  let segs := (List.range ((first + count - 1) / 256 + 1 - first / 256)).map (· + first / 256)
  if tier = 1 then segs.filterMap (fun s => n.tier1 c s)
  else (segs.foldl (fun l s => if l.contains (s / 64) then l else l ++ [s / 64]) []).filterMap
    (fun j => n.tier2 c (64 * j))

/-- The element of a given rank in ascending order. -/
def rankOf (l : List Int) (r : Nat) : Option Int := (l.mergeSort (fun a b => decide (a ≤ b)))[r]?

/-- R434, R435: a statistic over the values of a window: the exact value at a binary point, or none where no value is valid.
The median is the element of rank floor((v − 1) / 2). -/
def windowStat (stat : WStat) (bp : Nat) (vals : List (Nat × Nat)) : Option Int :=
  let up (v : Nat) : Int := ((v * 2 ^ bp : Nat) : Int)
  let xs : List Nat := vals.map (·.2)
  let sum : Nat := xs.foldl (· + ·) 0
  match stat with
  | .sum => some (up sum)
  | .mean => if xs = [] then none else some (up sum / (xs.length : Int))
  | .min => match xs with
    | [] => none
    | x :: t => some (up (t.foldl Nat.min x))
  | .max => match xs with
    | [] => none
    | x :: t => some (up (t.foldl Nat.max x))
  | .countNonzero => some (up (xs.filter (· ≠ 0)).length)
  | .lastNonzero => ((vals.filter (fun v => v.2 ≠ 0)).getLast?).map (fun v => up v.1)
  | .median => rankOf (xs.map up) ((xs.length - 1) / 2)
  | .raw => none

/-- The number a statistic is known by, for a result the spec does not state. -/
def wstatNum : WStat → Nat
  | .sum => 0
  | .mean => 1
  | .min => 2
  | .max => 3
  | .countNonzero => 4
  | .lastNonzero => 5
  | .median => 6
  | .raw => 7

/-- The same from the entries of tiers 1 and 2. What a statistic that they do not hold gives is not stated. -/
def entryStat (stat : WStat) (bp : Nat) (es : List HistSum) : Option Int :=
  let es' := es.filter (fun e => decide (e.count ≠ 0))
  let sum : Nat := (es'.map (·.sum)).foldl (· + ·) 0
  let count : Nat := (es'.map (·.count)).foldl (· + ·) 0
  let up (v : Nat) : Int := ((v * 2 ^ bp : Nat) : Int)
  match stat with
  | .sum => some (up sum)
  | .mean => if count = 0 then none else some (up sum / (count : Int))
  | .min => match es' with
    | [] => none
    | e :: t => some (up ((t.map (·.min)).foldl Nat.min e.min))
  | .max => match es' with
    | [] => none
    | e :: t => some (up ((t.map (·.max)).foldl Nat.max e.max))
  | s => some (signedOf 64 (Config.arithOpen 2 [wstatNum s, sum, count]))

/-- R434: the elements of WSTAT for a context over the W ticks up to `t`, at a binary point: one, or W for the raw values. A
poisoned tick of the window poisons the statistic, and only itself among raw values. -/
def Nld.wstat (n : Nld) (c t window bp : Nat) (stat : WStat) : List TElem :=
  let first := t + 1 - window
  let count := t + 1 - first
  let tier := n.tierFor c first count
  let elem (v : Option Int) : TElem :=
    match v with
    | none => { bits := 0, status := 1 }
    | some v => let (b, st) := sf64 v; { bits := b, status := st }
  let poison : TElem := { bits := 0, status := 2, poison := true }
  if tier = 0 then
    let l := n.histTicks c first count
    match stat with
    | .raw => l.map (fun v => match v.2 with
      | some (some x) => elem (some ((x * 2 ^ bp : Nat) : Int))
      | some none => poison
      | none => elem none)
    | s =>
      if l.any (fun v => v.2 = some none) then [poison]
      else [elem (windowStat s bp (l.filterMap (fun v => match v.2 with
        | some (some x) => some (v.1, x)
        | _ => none)))]
  else
    let es := n.histEntries c first count tier
    let one := if es.any (·.poisoned) then poison else elem (entryStat stat bp es)
    match stat with
    | .raw => List.replicate count one
    | _ => [one]

/-- R366, R580: a history read: the tier, and for each tick its SF64 value (quantity last) and status. In tiers 1 and 2 no
value of a single tick is held, and what is written is not stated. -/
def Nld.historyRead (n : Nld) (c first count bp : Nat) : Nat × List TElem :=
  let tier := n.tierFor c first count
  let elem (x : Nat) : TElem := let (b, st) := sf64 ((x * 2 ^ bp : Nat) : Int); { bits := b, status := st }
  if tier = 0 then
    (0, (n.histTicks c first count).map (fun v => match v.2 with
      | some (some x) => elem x
      | some none => { bits := 0, status := 2, poison := true }
      | none => { bits := 0, status := 1 }))
  else
    (tier, (List.range count).map (fun i =>
      let t := first + i
      match (if tier = 1 then n.tier1 c (t / 256) else n.tier2 c (t / 256)) with
      | none => { bits := 0, status := 1 }
      | some e =>
        if e.count = 0 then { bits := 0, status := 1 }
        else { bits := Config.arithOpen 3 [e.sum, e.count, e.min, e.max, t] % 2 ^ 64 }))

end Sys2Proof.Machine
end

