-- ==== Sys2Proof/Machine/NldTree.lean ====
section
/-! DEFINITION. The tree-ensemble engine (R402 to R422): an ensemble as it is read from the model pool, the traversal of a
sample, the link functions, and what a call counts. -/

namespace Sys2Proof.Machine

open Sys2Proof

/-! ### The model pool (R325 to R327) -/

/-- The key of a granule of a region of HBM: 0 firmware, 1 tick store, 2 rings and logs, 3 tap staging, 4 history, 5 model
pool. -/
def granuleKey (region g : Nat) : Nat := region * 2 ^ 32 + g

/-- The region number of the model pool. -/
def poolRegion : Nat := 5

/-- R327: an access to the model pool lies in an owner's share. -/
def Nld.inShare (n : Nld) (owner addr len : Nat) : Bool :=
  let s := Tbl.get (0, 0) owner n.sched.shares
  decide (s.1 * 2 ^ 28 ≤ addr) && decide (addr + len ≤ (s.1 + s.2) * 2 ^ 28)

/-- A byte of the model pool. -/
def Nld.poolByte (n : Nld) (addr : Nat) : Byte := BitVec.ofNat 8 (Tbl.get 0 addr n.sched.pool)

/-- Bytes of the model pool. -/
def Nld.poolBytes (n : Nld) (addr len : Nat) : List Byte := (List.range len).map (fun i => n.poolByte (addr + i))

/-- R325, R327: a read of `len` bytes for an owner, as a number, and why it is poisoned: 1 a marked granule, 3 an access
outside the share, which reads zero. -/
def Nld.poolRead (n : Nld) (owner addr len : Nat) : Nat × Nat :=
  if ¬ n.inShare owner addr len then (0, 3)
  else
    let v := leNat (n.poolBytes addr len)
    if n.pkg.marked.contains (granuleKey poolRegion (addr / 256)) then (v, 1) else (v, 0)

/-! ### The ensemble (R404 to R407) -/

/-- A node (R404); `bad` for a node of kind 0b10 or 0b11, `lost` for one that arrives poisoned or lies outside the share
(with that cause). -/
inductive TNode where
  | inner (dl le : Bool) (feat left thr : Nat)
  | leaf (value : Nat)
  | bad
  | lost (cause : Nat)
  deriving DecidableEq, Repr

/-- The node that a word encodes. -/
def nodeOf (w : Nat × Nat) : TNode :=
  if w.2 ≠ 0 then .lost w.2
  else if w.1 / 2 ^ 62 = 0 then
    .inner (bitOf w.1 61) (bitOf w.1 60) (w.1 / 2 ^ 48 % 256) (w.1 / 2 ^ 32 % 2 ^ 16) (w.1 % 2 ^ 32)
  else if w.1 / 2 ^ 62 = 1 then .leaf (w.1 % 2 ^ 32)
  else .bad

/-- A tree: the class it adds to and the nodes of its levels. `lost` is the cause if its header did not arrive. -/
structure TTree where
  cls : Nat
  lost : Nat := 0
  levels : List (List TNode)
  deriving DecidableEq, Repr

/-- An ensemble as it is read (R406). `lost`: its header or its base scores did not arrive. -/
structure Ensemble where
  fmt : Nat
  classes : Nat
  link : Nat
  features : Nat
  base : List Nat
  lost : Nat := 0
  trees : List TTree
  deriving DecidableEq, Repr

/-- A length rounded up to a multiple of 64. -/
def pad64 (k : Nat) : Nat := (k + 63) / 64 * 64

/-- The nodes of levels that begin at an address, given their widths; where the next part begins. -/
def Nld.readLevels (n : Nld) (owner : Nat) : Nat → List Nat → List (List TNode)
  | _, [] => []
  | addr, w :: ws =>
    (List.range w).map (fun i => nodeOf (n.poolRead owner (addr + 8 * i) 8)) ::
      n.readLevels owner (addr + pad64 (8 * w)) ws

/-- The trees that begin at an address. -/
def Nld.readTrees (n : Nld) (owner : Nat) : Nat → Nat → List TTree
  | 0, _ => []
  | k + 1, addr =>
    let h := n.poolRead owner addr 64
    if h.2 ≠ 0 then [{ cls := 0, lost := h.2, levels := [] }]
    else
      let depth := h.1 / 2 ^ 384 % 256
      let widths := (List.range (min depth 23 + 1)).map (fun d => h.1 / 2 ^ (16 * d) % 2 ^ 16)
      { cls := h.1 / 2 ^ 392 % 256, levels := n.readLevels owner (addr + 64) widths } ::
        n.readTrees owner k (addr + h.1 / 2 ^ 416 % 2 ^ 32)

/-- The cause of the first read that failed, if any. -/
def firstCause (l : List (Nat × Nat)) : Nat := ((l.map (·.2)).find? (· ≠ 0)).getD 0

/-- R406: the ensemble at an address of an owner's share. -/
def Nld.readEnsemble (n : Nld) (owner addr : Nat) : Ensemble :=
  let h := n.poolRead owner addr 64
  let classes := h.1 / 2 ^ 48 % 256
  let base := (List.range classes).map (fun c => n.poolRead owner (addr + 64 + 4 * c) 4)
  { fmt := h.1 / 2 ^ 24 % 256, classes := classes, link := h.1 / 2 ^ 56 % 256, features := h.1 / 2 ^ 64 % 2 ^ 16,
    base := base.map (·.1), lost := firstCause (h :: base),
    trees := n.readTrees owner (h.1 / 2 ^ 32 % 2 ^ 16) (addr + 64 + pad64 (4 * classes)) }

/-! ### The traversal (R405, R412 to R414, R417) -/

/-- R405: whether a sample goes left at an internal node: a missing value goes by the node's default. -/
def goesLeft (fmt x : Nat) (dl le : Bool) (thr : Nat) : Bool :=
  if fmt = 1 then
    if x = 0xFFFF then dl else if le then decide (x ≤ thr % 2 ^ 16) else decide (x < thr % 2 ^ 16)
  else
    let v := fp32.decode x
    if v = .nan then dl else if le then v.le (fp32.decode thr) else v.lt (fp32.decode thr)

/-- What one tree gives for one sample: the leaf, whether the sample is poisoned, the level of a structure error if one was
met, and the nodes read. -/
structure Walk where
  leaf : Option Nat := none
  poison : Bool := false
  bad : Option Nat := none
  steps : Nat := 0
  deriving DecidableEq, Repr

/-- R412, R417: the walk of a sample through the levels of a tree from a node of the first. -/
def walkTree (fmt : Nat) (xs : List (Nat × Bool)) : Nat → Nat → List (List TNode) → Walk
  | _, _, [] => { poison := true }
  | d, idx, nodes :: rest =>
    match nodes[idx]? with
    | none => { poison := true, bad := some d, steps := 1 }
    | some (.leaf v) => { leaf := some v, steps := 1 }
    | some .bad => { poison := true, bad := some d, steps := 1 }
    | some (.lost _) => { poison := true, steps := 1 }
    | some (.inner dl le feat left thr) =>
      if left + 1 ≥ (rest.headD []).length then { poison := true, bad := some d, steps := 1 }
      else
        let x := xs.getD feat (Config.arithOpen 4 [feat] % 2 ^ 32, false)
        let w := walkTree fmt xs (d + 1) (if goesLeft fmt x.1 dl le thr then left else left + 1) rest
        { w with poison := w.poison || x.2, steps := w.steps + 1 }

/-- What a sample's traversal of the trees so far has given: its scores, whether it is poisoned, the structure errors met
as (tree, level), and the nodes read. -/
structure Trav where
  scores : List Nat
  poison : Bool := false
  bad : List (Nat × Nat) := []
  steps : Nat := 0
  deriving DecidableEq, Repr

/-- R414, R417: one tree. -/
def Trav.tree (fmt : Nat) (xs : List (Nat × Bool)) (s : Trav) (t : TTree × Nat) : Trav :=
  if t.1.lost ≠ 0 then { s with poison := true }
  else
    let w := walkTree fmt xs 0 0 t.1.levels
    let scores := match w.leaf with
      | none => s.scores
      | some v => s.scores.set t.1.cls (add32 (s.scores.getD t.1.cls 0) v)
    { scores := scores, poison := s.poison || w.poison,
      bad := match w.bad with
        | none => s.bad
        | some d => s.bad ++ [(t.2, d)],
      steps := s.steps + w.steps }

/-- R411: a sample through the whole ensemble. -/
def Ensemble.traverse (e : Ensemble) (xs : List (Nat × Bool)) : Trav :=
  e.trees.zipIdx.foldl (Trav.tree e.fmt xs) { scores := e.base, poison := e.lost != 0 }

/-! ### The link functions (R415) -/

/-- The fraction bits of the exponential. -/
def expBits : Nat := 160

/-- ln 2 × 2^160, rounded down. -/
def ln2Fix : Nat := 0xB17217F7D1CF79ABC9E3B39803F2F6AF40F34326

/-- The Taylor series of e^r, r = x / 2^160: `term` is the current term. -/
def expTaylor (x : Nat) : Nat → Nat → Nat → Nat
  | 0, _, _ => 0
  | k + 1, i, term => term + expTaylor x k (i + 1) (term * x / 2 ^ expBits / (i + 1))

/-- e^(z / 2^160) = m × 2^(e − 160), with m between 2^160 and 2^161. -/
def expFix (z : Int) : Nat × Int :=
  let k := z / (ln2Fix : Int)
  (expTaylor (z - k * (ln2Fix : Int)).toNat 48 0 (2 ^ expBits), k)

/-- The pattern of the largest binary32 value at most m × 2^e. -/
def floor32 (m : Nat) (e : Int) : Nat :=
  if m = 0 then 0
  else
    let top : Int := e + Nat.log2 m
    let q : Int := max top (-126) - 23
    let k := if e ≥ q then m * 2 ^ (e - q).toNat else m / 2 ^ (q - e).toNat
    min (if k < 2 ^ 23 then k else (q + 23 + 127).toNat * 2 ^ 23 + (k - 2 ^ 23)) fp32.maxFinite

/-- R415: a result within 2 units in the last place of m × 2^e, which of them is not stated. -/
def near32 (m : Nat) (e : Int) (which : Nat) : Nat := min (floor32 m e + which % 5 - 2) fp32.maxFinite

/-- A finite binary32 score as a fixed-point number with 160 fraction bits, kept within ±1,000. -/
def scoreFix (neg : Bool) (m : Nat) (e : Int) : Int :=
  let s : Int := e + expBits
  let v := if s ≥ 0 then m * 2 ^ s.toNat else m / 2 ^ (-s).toNat
  let v : Int := ((min v (1000 * 2 ^ expBits) : Nat) : Int)
  if neg then -v else v

/-- The pattern of one. -/
def one32 : Nat := 0x3F800000

/-- R415, exp: e^z. -/
def linkExp (z : Nat) : Nat :=
  match fp32.decode z with
  | .inf true => 0
  | .inf false => fp32.maxFinite
  | .nan => Config.linkFunction 3 z % 2 ^ 32
  | .fin neg m e => let x := expFix (scoreFix neg m e); near32 x.1 (x.2 - expBits) (Config.linkFunction 3 z)

/-- R415, logistic: 1 / (1 + e^(−z)). -/
def linkLogistic (z : Nat) : Nat :=
  match fp32.decode z with
  | .inf true => 0
  | .inf false => one32
  | .nan => Config.linkFunction 1 z % 2 ^ 32
  | .fin neg m e =>
    let x := expFix (-(scoreFix neg m e))
    let den := 2 ^ expBits + (if x.2 ≥ 0 then x.1 * 2 ^ x.2.toNat else x.1 / 2 ^ (-x.2).toNat)
    near32 (2 ^ 2000 / den) ((expBits : Int) - 2000) (Config.linkFunction 1 z)

/-- The scores of a sample as one number. -/
def packScores (l : List Nat) : Nat := l.foldl (fun a b => a * 2 ^ 32 + b) 1

/-- The scores in fixed point, if all are finite. -/
def finiteScores : List Nat → Option (List Int)
  | [] => some []
  | z :: zs =>
    match fp32.decode z, finiteScores zs with
    | .fin neg m e, some r => some (scoreFix neg m e :: r)
    | _, _ => none

/-- R415, softmax. The result where a score is not finite is not stated. -/
def linkSoftmax (zs : List Nat) : List Nat :=
  let pick (c : Nat) : Nat := Config.linkFunction (16 + c) (packScores zs)
  match zs with
  | [_] => [one32]
  | _ =>
    match finiteScores zs with
    | none => (List.range zs.length).map (fun c => pick c % 2 ^ 32)
    | some ys =>
      let m := ys.foldl max (ys.headD 0)
      let es := ys.map (fun y => expFix (y - m))
      let den := (es.map (fun x => x.1 / 2 ^ (-x.2).toNat)).foldl (· + ·) 0
      es.zipIdx.map (fun x => near32 (x.1.1 * 2 ^ expBits / den) (x.1.2 - expBits) (pick x.2))

/-- R415: no output is an infinity. -/
def inRange32 (z : Nat) : Nat :=
  if z % 2 ^ 31 = 0x7F800000 then z / 2 ^ 31 * 2 ^ 31 + fp32.maxFinite else z

/-- R415: the outputs of a sample. -/
def linkOf (link : Nat) (zs : List Nat) : List Nat :=
  if link = 0 then zs.map inRange32
  else if link = 1 then zs.map linkLogistic
  else if link = 2 then linkSoftmax zs
  else zs.map linkExp

/-- R417: the outputs of a sample with their statuses: 0 and poisoned, or the link's values under the highest status of its
features. -/
def Ensemble.outputs (e : Ensemble) (t : Trav) (status : Nat) : List TElem :=
  if t.poison then List.replicate e.classes { bits := 0, status := 2, poison := true }
  else (linkOf e.link t.scores).map (fun y => { bits := y, status := status })

/-! ### A call (R410, R411, R418 to R422, R425, R426) -/

/-- The reads of an ensemble that failed, as (tree, level, cause), in the order they are made. -/
def Ensemble.losses (e : Ensemble) : List (Nat × Nat × Nat) :=
  (if e.lost = 0 then [] else [(0, 0, e.lost)]) ++
  e.trees.zipIdx.flatMap (fun t =>
    (if t.1.lost = 0 then [] else [(t.2, 0, t.1.lost)]) ++
    t.1.levels.zipIdx.flatMap (fun l => l.1.filterMap (fun x => match x with
      | .lost c => some (t.2, l.2, c)
      | _ => none)))

/-- The order in which errors of a call come: by tree, then by level, what arrives before what is read. -/
def errLe (a b : Nat × Nat × Nat) : Bool :=
  decide (a.1 < b.1) || (decide (a.1 = b.1) && (decide (a.2.1 < b.2.1) || (decide (a.2.1 = b.2.1) &&
    (decide (a.2.2 ≠ 2) || decide (b.2.2 = 2)))))

/-- NLD_TREE_FIRST takes the first error while no error event is set. -/
def Nld.treeFirst (n : Nld) (owner : Nat) (errs : List (Nat × Nat × Nat)) : Nld :=
  if n.bit NReg.TREE_EVT_node_ue ∨ n.bit NReg.TREE_EVT_struct_err ∨ n.bit NReg.TREE_EVT_window then n
  else
    match errs.mergeSort errLe with
    | [] => n
    | x :: _ =>
      (((n.put NReg.TREE_FIRST_cause x.2.2).put NReg.TREE_FIRST_owner owner).put NReg.TREE_FIRST_tree x.1).put
        NReg.TREE_FIRST_level x.2.1

/-- R155: add to a 48-bit count in two words, wrapping. -/
def Nld.count48 (n : Nld) (lo hi : Fld) (c : Nat) (i : Nat := 0) : Nld :=
  let v := n.get lo i + n.get hi i * 2 ^ 32 + c
  (n.put lo (v % 2 ^ 32) i).put hi (v / 2 ^ 32 % 2 ^ 16) i

/-- The level steps of a tree in clocks (R422). -/
def TTree.clocks (t : TTree) : Nat :=
  1 + (t.levels.map (fun l => max 1 ((l.length + 31) / 32))).foldl (· + ·) 0

/-- R422: the bound of a call of S samples at throttle level 0. -/
def Ensemble.bound (e : Ensemble) (s : Nat) (fromHbm toHbm : Bool) : Nat :=
  let rin := if fromHbm then 256 else 64
  let rout := if toHbm then 256 else 64
  let trav := (e.trees.map TTree.clocks).foldl (· + ·) 0
  let w := if e.fmt = 1 then 2 else 4
  let wave (sw : Nat) : Nat :=
    (sw * e.features * w + rin - 1) / rin + trav + (sw * e.classes * 4 + rout - 1) / rout + 40
  800 + s / 8192 * wave 8192 + (if s % 8192 = 0 then 0 else wave (s % 8192))

/-- R410 to R420: a call runs: its outputs go to its destination, and what it did is counted. Between calls of different
owners the engine is cleared. -/
def Nld.treeCall (n : Nld) (owner addr : Nat) (samples : List (List (Nat × Bool))) (waited : Bool) : Nld :=
  let e := n.readEnsemble owner addr
  let ts := samples.map e.traverse
  let waves := (samples.length + 8191) / 8192
  let losses := e.losses
  let bads := ts.flatMap (·.bad)
  let errs := losses ++ bads.map (fun x => (x.1, x.2, 2))
  let poisoned := (ts.filter (·.poison)).length
  let nodes := (losses.filter (fun x => decide (x.2.2 = 1))).length
  let steps := (ts.map (·.steps)).foldl (· + ·) 0
  let n := if waited then (n.raise NReg.TREE_EVT_queue_wait).count NReg.TREE_WAITCNT_count else n
  let n := n.treeFirst owner errs
  let n := if nodes = 0 then n else (n.raise NReg.TREE_EVT_node_ue).count NReg.TREE_NODEUECNT_count (nodes * waves)
  let n := if bads = [] then n
    else (n.raise NReg.TREE_EVT_struct_err).count NReg.TREE_STRUCTCNT_count bads.length
  let n := if losses.any (fun x => decide (x.2.2 = 3)) then n.raise NReg.TREE_EVT_window else n
  let n := if poisoned = 0 then n
    else (n.raise NReg.TREE_EVT_poison_out).count NReg.TREE_POISONCNT_count poisoned
  let n := n.count48 NReg.TREE_STEPS_LO_val_lo NReg.TREE_STEPS_HI_val_hi steps
  let n := (n.count NReg.TREE_CALLS_count).count NReg.TREE_WAVES_count waves
  { n with sched := { n.sched with treeOwner := owner, treeOut := ts.flatMap (fun t => e.outputs t 0) } }

/-! ### The admission check of an ensemble (R403, R408) -/

/-- R408: a node of level d is as it must be; `next` is the width of the next level, none at the deepest. -/
def nodeOk (fmt features : Nat) (w : Nat) (next : Option Nat) : Bool :=
  let finite (v : Nat) : Bool := decide (v / 2 ^ 23 % 256 ≠ 255)
  if w / 2 ^ 62 = 1 then decide (w / 2 ^ 32 % 2 ^ 30 = 0) && finite (w % 2 ^ 32)
  else if w / 2 ^ 62 = 0 then
    match next with
    | none => false
    | some k =>
      decide (w / 2 ^ 56 % 16 = 0) && decide (w / 2 ^ 48 % 256 < features) && decide (w / 2 ^ 32 % 2 ^ 16 + 1 < k) &&
      (if fmt = 1 then decide (w % 2 ^ 32 < 0xFFFF) else finite (w % 2 ^ 32))
  else false

/-- The children that the internal nodes of a level name, in order of their numbers. -/
def childList (ws : List Nat) : List Nat :=
  (ws.flatMap (fun w => if w / 2 ^ 62 = 0 then [w / 2 ^ 32 % 2 ^ 16, w / 2 ^ 32 % 2 ^ 16 + 1] else [])).mergeSort
    (fun a b => decide (a ≤ b))

/-- R408: the levels of a tree, from the words of each. -/
def levelsOk (fmt features : Nat) : List (List Nat) → Bool
  | [] => true
  | [ws] => ws.all (fun w => nodeOk fmt features w none)
  | ws :: next :: rest =>
    ws.all (fun w => nodeOk fmt features w (some next.length)) && decide (childList ws = List.range next.length) &&
    levelsOk fmt features (next :: rest)

/-- R408: a tree at an offset of the ensemble's bytes. -/
def treeOk (fmt classes features : Nat) (bs : List Byte) (off : Nat) : Bool :=
  let depth := fieldAt bs (off + 48) 1
  let widths := (List.range 24).map (fun d => fieldAt bs (off + 2 * d) 2)
  let ws := widths.take (depth + 1)
  let starts := (List.range (depth + 1)).map (fun d => off + 64 + ((ws.take d).map (fun w => pad64 (8 * w))).foldl (· + ·) 0)
  decide (depth ≤ 23) && decide (widths.getD 0 0 = 1) && ws.all (fun w => decide (1 ≤ w ∧ w ≤ 2048)) &&
  (widths.drop (depth + 1)).all (fun w => decide (w = 0)) && decide (fieldAt bs (off + 49) 1 < classes) &&
  decide (fieldAt bs (off + 50) 2 = 0) && decide (fieldAt bs (off + 56) 8 = 0) &&
  decide (fieldAt bs (off + 52) 4 = 64 + (ws.map (fun w => pad64 (8 * w))).foldl (· + ·) 0) &&
  levelsOk fmt features ((ws.zip starts).map (fun x => (List.range x.1).map (fun i => fieldAt bs (x.2 + 8 * i) 8)))

/-- R408: the trees of an ensemble from an offset on: they are all as they must be, end at the end, and the deepest has the
declared depth. -/
def treesOk (fmt classes features maxDepth : Nat) (bs : List Byte) : Nat → Nat → Nat → Bool
  | 0, off, deepest => decide (off = bs.length) && decide (deepest = maxDepth)
  | k + 1, off, deepest =>
    treeOk fmt classes features bs off &&
    treesOk fmt classes features maxDepth bs k (off + fieldAt bs (off + 52) 4) (max deepest (fieldAt bs (off + 48) 1))

/-- R403, R406, R408: an ensemble passes every check. -/
def ensembleOk (bs : List Byte) : Bool :=
  let fmt := fieldAt bs 3 1
  let trees := fieldAt bs 4 2
  let classes := fieldAt bs 6 1
  let features := fieldAt bs 8 2
  decide (fieldAt bs 0 2 = 0x5445) && decide (fieldAt bs 2 1 = 1) && decide (fmt ≤ 1) &&
  decide (1 ≤ trees ∧ trees ≤ 16384) && decide (1 ≤ classes ∧ classes ≤ 64) && decide (fieldAt bs 7 1 ≤ 3) &&
  decide (1 ≤ features ∧ features ≤ 254) && decide (fieldAt bs 11 1 = 0) && decide (fieldAt bs 16 48 = 0) &&
  decide (4 * classes + (if fmt = 1 then 2 else 4) * features ≤ 512) && decide (fieldAt bs 12 4 = bs.length) &&
  (List.range classes).all (fun c => decide (fieldAt bs (64 + 4 * c) 4 / 2 ^ 23 % 256 ≠ 255)) &&
  treesOk fmt classes features (fieldAt bs 10 1) bs trees (64 + pad64 (4 * classes)) 0

end Sys2Proof.Machine
end

