-- ==== Sys2Proof/Machine/NldProg.lean ====
section
/-! DEFINITION. How a run of a model program computes (R433 to R436, R439, R442, R448 to R451): its tensors, its ops in order,
its verdicts and what it holds until it ends. -/

namespace Sys2Proof.Machine

open Sys2Proof

/-! ### A run and what it holds -/

/-- What a run reads: the Naloder as it starts, the program, the tick served, its kind (0 sealed, 1 provisional, 2 fleet
stage) and the errors of the arrays. -/
structure RunEnv where
  n : Nld
  p : Program
  t : TickRec
  kind : Nat
  faults : List ArrFault
  deriving DecidableEq, Repr

/-- What a run holds until it ends (R448). `vals` are the tensors of places 3 and 4 as written, `work` the working copies of
the state tensors written, `batch` the sequences taken by each tap binding, `poisoned` that a poisoned element reached a
sink (R451). -/
structure RunSt where
  vals : Tbl (List TElem) := []
  work : Tbl (List TElem) := []
  contribs : Tbl (List Nat) := []
  batch : Tbl (List StagedSeq) := []
  verdicts : List Verdict := []
  dropped : Nat := 0
  poisoned : Bool := false
  rankDrop : Nat := 0
  ovf : List Nat := []
  arr : ArrCounts := {}
  deriving DecidableEq, Repr

/-- A tensor's declaration. -/
def Program.tensor (p : Program) (id : Nat) : Option TensorDecl := p.tensors.find? (fun d => d.id = id)

/-- The reduction output that a tensor stands for, and its number. -/
def Program.reductionOf (p : Program) (id : Nat) : Option (OutputDecl × Nat) :=
  p.reductions.zipIdx.find? (fun o => o.1.tensor = id)

/-- The elements of a tensor. -/
def TensorDecl.size (d : TensorDecl) : Nat := d.rows * d.cols

/-- A list cut or filled to a length. -/
def fitList {α : Type} (d : α) (k : Nat) (l : List α) : List α := l.take k ++ List.replicate (k - l.length) d

/-- The form of a reduction output's elements as a fleet stage reads them. -/
def reductionFmt (op : Nat) : Nat := if op = 1 then 11 else if op ≤ 4 then 9 else if op = 5 then 8 else 10

/-- R441: the fleet-sealed value of an output, if it is complete. -/
def Nld.fleetValue (n : Nld) (t owner image output : Nat) : Option (List Nat) :=
  match n.group.fleets.find? (fun f => f.tick = t) with
  | none => none
  | some f =>
    if f.crc = none then none
    else ((f.segs.find? (fun s => s.owner = owner ∧ s.image = image ∧ s.output = output)).bind
      (fun s => if s.status = 0 then some s.vals else none))

/-- R430: the image data of a tensor, from the owner's share. -/
def Nld.imageData (n : Nld) (p : Program) (d : TensorDecl) : List TElem :=
  let w := fmtBits d.fmt
  let stride := (d.cols * w + 7) / 8
  (List.range d.rows).flatMap (fun r => (List.range d.cols).map (fun c =>
    let bit := c * w
    let x := n.poolRead p.owner (p.data + d.offset + r * stride + bit / 8) ((w + 7) / 8)
    if x.2 = 0 then { bits := x.1 / 2 ^ (bit % 8) % 2 ^ w } else { bits := 0, status := 2, poison := true }))

/-- The SF64 element of a number. -/
def sfElem (v : Nat) : TElem := { bits := v % 2 ^ 64 }

/-- R47: arrived and expected of a run, over the members of its owner's partition, or every expected position for *fleet*;
equal to expected but in provisional runs. -/
def RunEnv.coverage (e : RunEnv) : Nat × Nat :=
  let mine (l : List Nat) : Nat :=
    if e.p.owner = fleet then l.length
    else (l.filter (fun pos => e.n.isMember e.p.owner (e.n.name * 512 + pos))).length
  (if e.kind = 1 then mine e.t.arrived else mine e.t.expected, mine e.t.expected)

/-- R430, R439, R442: read a tensor: what the scheduler supplies, image data, the committed copy of a state tensor, what the
run or (in SRAM) an earlier run has written to scratch, or a fleet-sealed output. What nothing has written reads as zero. -/
def RunEnv.tensor (e : RunEnv) (s : RunSt) (id : Nat) : TVal :=
  let one (l : List Nat) : TVal := { fmt := 9, bp := 0, cols := l.length, elems := l.map sfElem }
  if id = 0xFFFE then one [e.t.num]
  else if id = 0xFFFD then one [e.n.periodUs]
  else if id = 0xFFFC then one [e.kind]
  else if id = 0xFFFB then one [e.coverage.1, e.coverage.2]
  else
    match e.p.tensor id with
    | none => { fmt := 9, bp := 0, cols := 0, elems := [] }
    | some d =>
      let shaped (l : List TElem) : TVal := { fmt := d.fmt, bp := d.bp, cols := d.cols, elems := fitList zeroElem d.size l }
      match (if e.kind = 2 then e.p.reductionOf id else none) with
      | some (o, k) =>
        { fmt := reductionFmt o.op, bp := if o.op ≤ 3 then o.bp else 0, cols := o.cols,
          elems := ((e.n.fleetValue e.t.num e.p.owner e.p.image k).getD []).map (fun v => { bits := v }) }
      | none =>
        if d.place = 0 then shaped (e.n.imageData e.p d)
        else if d.place = 1 ∨ d.place = 2 then shaped (Tbl.get [] id e.p.state)
        else
          match Tbl.find? id s.vals with
          | some l => shaped l
          | none => shaped (if d.place = 3 then Tbl.get [] id e.p.state else [])

/-- R442, R451: write a tensor. A poisoned element written to state faults the run. -/
def RunEnv.write (e : RunEnv) (s : RunSt) (id : Nat) (l : List TElem) : RunSt :=
  match e.p.tensor id with
  | none => s
  | some d =>
    let old := if d.place = 1 ∨ d.place = 2 then (Tbl.find? id s.work).getD (Tbl.get [] id e.p.state)
      else (e.tensor s id).elems
    let v := fitList zeroElem d.size (l ++ old.drop l.length)
    if d.place = 1 ∨ d.place = 2 then { s with work := Tbl.insert id v s.work, poisoned := s.poisoned || anyPoison l }
    else { s with vals := Tbl.insert id v s.vals }

/-- The destination's format and binary point. -/
def RunEnv.dst (e : RunEnv) (id : Nat) : Nat × Nat × Nat :=
  match e.p.tensor id with
  | some d => (d.fmt, d.bp, d.cols)
  | none => (9, 0, 1)

/-- The rows of a tensor. -/
def TVal.rows (v : TVal) : List (List TElem) := chunks (max 1 v.cols) (v.elems.length + 1) v.elems

/-- The per-row scale of a tensor. -/
def RunEnv.scale (e : RunEnv) (s : RunSt) (id : Nat) : List TElem :=
  match e.p.tensor id with
  | some d => if d.scale = 0xFFFF then [] else (e.tensor s d.scale).elems
  | none => []

/-! ### Bindings (R431) -/

/-- The selector of a binding. -/
def Program.selector (p : Program) (k : Nat) : Option Selector :=
  match p.bindings[k]? with
  | some (.series _ _ sel) => some sel
  | _ => none

/-- A status tensor's elements. -/
def statusElems (l : List TElem) : List TElem := l.map (fun x => { bits := x.status })

/-- R431: a run's binding fills its tensors before the first op. -/
def RunEnv.bind (e : RunEnv) (s : RunSt) (b : Binding × Nat) : RunSt :=
  match b.1 with
  | .series tensor status sel =>
    let (l, ovf) := e.n.readSelector e.t (decide (e.kind = 1)) e.p.owner sel
    let s := e.write s tensor l
    { e.write s status (statusElems l) with ovf := s.ovf ++ ovf }
  | .tap .. => s

/-- R431: the sequences a tap binding takes for a tick: those complete before T + L that the binding has not taken. -/
def RunEnv.batchOf (e : RunEnv) (k tap maxSeq : Nat) : List StagedSeq :=
  let close := e.t.num * e.n.periodUs * 1000 + e.n.get NReg.TICK_L_offset_us * 1000
  let from_ := e.p.taken.getD k 0
  (e.n.host.staged.filter (fun q => decide (q.tap = tap ∧ from_ ≤ q.order ∧ q.at_ < close))).take maxSeq

/-- TAP (R431, R434): the batch into the binding's tensor, cut or padded, each with its status. -/
def RunEnv.tap (e : RunEnv) (s : RunSt) (dst k : Nat) : RunSt :=
  match e.p.bindings[k]? with
  | some (.tap _ tap maxSeq seqBytes) =>
    let batch := e.batchOf k tap maxSeq
    let (fmt, _, _) := e.dst dst
    let per := seqBytes * 8 / fmtBits fmt
    let elems := batch.flatMap (fun q => (List.range per).map (fun i =>
      if q.status = 2 then { bits := 0, status := 2, poison := true }
      else
        let bit := i * fmtBits fmt
        let word := q.words.getD (bit / 64) 0
        { bits := word / 2 ^ (bit % 64) % 2 ^ fmtBits fmt, status := q.status }))
    let empty : List TElem := (List.range ((maxSeq - batch.length) * per)).map (fun _ => { bits := 0, status := 1 })
    { e.write s dst (elems ++ empty) with batch := Tbl.insert k batch s.batch }
  | _ => s

/-! ### Verdicts (R449, R451) -/

/-- The position of this tray that a subject names, for its observe-only bit. -/
def RunEnv.subjectPos (e : RunEnv) (stype subject : Nat) : Option Nat :=
  if stype = 0 then (if addrGT subject = e.n.name then some (addrPos subject) else none)
  else if stype = 1 then
    ((assignments e.n.series.table).find? (fun a => a.1 = subject)).map (fun a => a.2.1)
  else none

/-- R449: a verdict of a run. -/
def RunEnv.verdict (e : RunEnv) (kind index stype subject score bp a0 a1 : Nat) : Verdict :=
  let obs := match e.subjectPos stype subject with
    | some p => e.t.obsv.contains p
    | none => false
  { kind := kind, prov := decide (e.kind = 1), fleetScope := decide (e.kind = 2), obsv := obs, index := index,
    stype := stype, image := e.p.image, tick := e.t.num, owner := e.p.owner, subject := subject, score := score, bp := bp,
    coverage := if e.kind = 1 then e.coverage.1 + e.coverage.2 * 65536 else 0, arg0 := a0, arg1 := a1 }

/-- The subject of an element where no subject tensor is named: itself, or the sequence its row came from. -/
def RunEnv.subjectAt (e : RunEnv) (s : RunSt) (stype count i : Nat) : Nat :=
  if stype = 0 then e.n.name * 512 + i % 512
  else if stype = 1 then i % 2 ^ 18
  else if stype = 2 then
    match s.batch with
    | [] => 0
    | b :: _ =>
      let rows := match e.p.bindings[b.1]? with
        | some (.tap _ _ maxSeq _) => maxSeq
        | _ => 1
      match b.2[i / max 1 (count / rows)]? with
      | some q => q.tap * 2 ^ 28 + q.seq % 2 ^ 28
      | none => 0
  else i

/-- EMIT (R449 to R451): element i publishes a verdict where its mask is set, up to max_verdicts; what poisons one it would
publish faults the run. -/
def RunEnv.emitOne (e : RunEnv) (kind stype : Nat) (subject : Option TVal) (mask score : TVal) (a0 a1 : Option TVal)
    (count : Nat) (s : RunSt) (i : Nat) : RunSt :=
  let m := mask.at_ i
  if m.bits = 0 ∧ ¬ m.poison then s
  else if s.verdicts.length ≥ e.p.maxVerdicts then { s with dropped := s.dropped + 1 }
  else
    let zero : TVal := { fmt := 9, bp := score.bp, cols := 1, elems := [zeroElem] }
    let x0 := a0.getD zero
    let x1 := a1.getD zero
    let ins := [m, score.at_ i, x0.at_ i, x1.at_ i] ++ (subject.map (fun v => v.at_ i)).toList
    if anyPoison ins then { s with poisoned := true }
    else
      let arg (v : TVal) : Nat := (putE 9 score.bp (v.eval i)).1
      let subj := match subject with
        | some v => (match v.eval i with
          | .fix x b => (alignBp x b 0).toNat % 2 ^ 32
          | .flt _ => (v.at_ i).bits % 2 ^ 32)
        | none => e.subjectAt s stype count i
      { s with verdicts := s.verdicts ++
        [e.verdict kind s.verdicts.length stype subj (arg score) score.bp (arg x0) (arg x1)] }

/-! ### Ops (R434) -/

/-- WSTAT (R434): the statistic of each context of a binding's selector. -/
def RunEnv.wstat (e : RunEnv) (k window : Nat) (stat : WStat) : List TElem :=
  match e.p.selector k with
  | none => []
  | some sel =>
    (e.n.selected e.t sel).flatMap (fun x =>
      let probe := (e.n.element e.t (decide (e.kind = 1)) e.p.owner { sel with quantity := 3 } x).1
      if probe.status = 3 ∨ probe.status = 4 then [probe]
      else
        match x.2.2 with
        | none => [{ bits := 0, status := 1 }]
        | some c => e.n.wstat c e.t.num window (Tbl.get ({} : SerCtx) c e.n.series.ctx).bp stat)

/-- R480: the rank of an address among the members of the program's partition, if it is one. -/
def RunEnv.rank (e : RunEnv) (addr : Nat) : Option Nat :=
  let ms := (Tbl.get ({} : Job) e.p.owner e.n.verdict.jobs).members
  if ms.contains addr then some (ms.filter (fun m => decide (m < addr))).length else none

/-- REDUCE (R479, R480): one source element joins its output. -/
def RunEnv.reduceOne (e : RunEnv) (o : OutputDecl) (base : Nat) (byRank : Bool) (src second : TVal)
    (x : List Nat × Nat) (i : Nat) : List Nat × Nat :=
  let bits := (putE 9 src.bp (src.eval i)).1
  let weight := if byRank ∨ second.elems = [] then 1 else (putE 9 0 (second.eval i)).1
  let idx : Option Nat :=
    if o.op ≥ 4 then some 0
    else if byRank then (e.rank ((second.at_ i).bits % 2 ^ 20)).map (fun k => base + k)
    else some (base + i)
  match idx with
  | some k => if o.op ≥ 4 ∨ k < outputCount o then (contribute o src.bp x.1 k bits weight, x.2) else (x.1, x.2 + 1)
  | none => (x.1, x.2 + 1)

/-- The arrays' errors that hit an op. -/
def RunEnv.opFaults (e : RunEnv) (cluster ix : Nat) : List ArrFault :=
  e.faults.filter (fun f => decide (f.cluster.val = cluster ∧ f.op = ix))

/-- One op of a schedule, at its place in it. -/
def RunEnv.op (e : RunEnv) (cluster : Nat) (s : RunSt) (x : ProgOp × Nat) : RunSt :=
  let o := x.1
  let src (k : Nat) : TVal := e.tensor s (o.srcs.getD k 0)
  let named := o.srcs.filter (· ≠ 0)
  let srcs := named.map (e.tensor s)
  let d := e.dst o.dst
  let arrays (mode : ArrMode) (out : Nat) (acts : List (List TElem)) (scale : List TElem) : RunSt :=
    let w := src 1
    let fs := e.opFaults cluster x.2
    let g := gemm { mode := mode, fa := (src 0).fmt, fw := w.fmt, out := out, acts := acts, actScale := scale,
                    weights := w.rows, weightScale := e.scale s (o.srcs.getD 1 0) } fs
    { e.write s o.dst (g.elems.flatten.map (·.1)) with arr := s.arr.op cluster fs w.rows g }
  match o.params with
  | .gemm mode out _ => arrays mode out (src 0).rows (e.scale s (o.srcs.getD 0 0))
  | .conv mode out _ width stride dilation =>
    arrays mode out (convRows (src 0).rows (src 0).cols width stride dilation) []
  | .elem op =>
    let single := decide (d.2.2 = 1 ∧ 1 < (src 0).cols)
    let packed := match op with
      | .extract .. => single
      | _ => false
    let count := if packed then (src 0).rows.length else elemCount srcs
    e.write s o.dst ((List.range count).map (elemOp op d.1 d.2.1 e.p.tables srcs packed))
  | .norm true row aux =>
    let a := src 0
    let rs := (chunks (max 1 row) (a.elems.length + 1) a.elems).map (normMad d.1 d.2.1 a.bp (e.dst aux).2.1)
    let s := e.write s o.dst (rs.flatMap (·.1))
    e.write s aux (rs.flatMap (·.2))
  | .norm false row _ =>
    let a := src 0
    e.write s o.dst ((chunks (max 1 row) (a.elems.length + 1) a.elems).flatMap (normMean d.1))
  | .softmax row =>
    let a := src 0
    e.write s o.dst ((chunks (max 1 row) (a.elems.length + 1) a.elems).flatMap (softmaxRow d.1))
  | .wstat k window stat => e.write s o.dst (e.wstat k window stat)
  | .gather true k =>
    match e.p.selector k with
    | none => s
    | some sel =>
      let (l, ovf) := e.n.readSelector e.t (decide (e.kind = 1)) e.p.owner sel
      { e.write s o.dst l with ovf := s.ovf ++ ovf }
  | .gather false _ =>
    let a := src 0
    let rows := a.rows
    e.write s o.dst ((src 1).elems.flatMap (fun i =>
      if i.poison then List.replicate a.cols { bits := 0, status := 2, poison := true }
      else rows.getD i.bits (List.replicate a.cols { bits := 0, status := 2, poison := true })))
  | .tree ensemble _ status _ _ =>
    let a := src 0
    let en := e.n.readEnsemble e.p.owner (e.p.ensembles.getD ensemble 0)
    let outs := (chunks (max 1 en.features) (a.elems.length + 1) a.elems).map (fun r =>
      en.outputs (en.traverse (r.map (fun x => (x.bits, x.poison)))) (maxStatus r))
    let s := e.write s o.dst outs.flatten
    e.write s status (outs.map (fun l => { bits := maxStatus l }))
  | .reduce output base byRank =>
    match e.p.reductions[output]? with
    | none => s
    | some decl =>
      let a := src 0
      let old := (Tbl.find? output s.contribs).getD (identityVals decl.op (outputCount decl))
      let r := (List.range a.elems.length).foldl (e.reduceOne decl base byRank a (src 1)) (old, 0)
      { s with contribs := Tbl.insert output r.1 s.contribs, rankDrop := s.rankDrop + r.2,
               poisoned := s.poisoned || anyPoison a.elems || anyPoison (src 1).elems }
  | .cmp op imm => e.write s o.dst ((List.range (elemCount srcs)).map (cmpElem op imm srcs))
  | .emit kind stype subject mask score a0 a1 =>
    let opt (id : Nat) : Option TVal := if id = 0 then none else some (e.tensor s id)
    let m := e.tensor s mask
    (List.range m.elems.length).foldl
      (e.emitOne kind stype (opt subject) m (e.tensor s score) (opt a0) (opt a1) m.elems.length) s
  | .copy _ cursor =>
    let a := src 0
    if cursor = 0 then e.write s o.dst a.elems
    else
      let cols := max 1 d.2.2
      let old := match e.p.tensor o.dst with
        | some t => if t.place = 1 ∨ t.place = 2 then (Tbl.find? o.dst s.work).getD (e.tensor s o.dst).elems
          else (e.tensor s o.dst).elems
        | none => []
      let rows := old.length / cols
      let at_ := ((e.tensor s cursor).elems.headD zeroElem).bits
      let new := a.elems.zipIdx.foldl (fun l v => l.set (((at_ + v.2 / cols) % max 1 rows) * cols + v.2 % cols) v.1) old
      let s := e.write s o.dst new
      e.write s cursor [{ bits := (at_ + a.elems.length / cols) % max 1 rows }]
  | .tap k => e.tap s o.dst k
  | .bar => s
  | .stop => s

/-! ### Segments (R436) -/

/-- An op is a BAR. -/
def ProgOp.isBar (o : ProgOp) : Bool := o.opcode == 0x0E

/-- The segments of a schedule's ops, each op with its place. -/
def segmentsOf : List (ProgOp × Nat) → List (List (ProgOp × Nat))
  | [] => [[]]
  | o :: t =>
    match segmentsOf t with
    | [] => [[o]]
    | g :: gs => if o.1.isBar then [] :: g :: gs else (o :: g) :: gs

/-- The schedules of a kind of run, by logical cluster. -/
def Program.schedulesOf (p : Program) (kind : Nat) : List Schedule := p.schedules.filter (fun s => s.kind = kind)

/-- R433, R436: the ops of a run, segment by segment, and in a segment cluster by cluster. -/
def Program.order (p : Program) (kind : Nat) : List (Nat × (ProgOp × Nat)) :=
  let cs := (p.schedulesOf kind).map (fun s => (s.cluster, segmentsOf s.ops.zipIdx))
  let count := (cs.map (fun c => c.2.length)).foldl max 0
  (List.range count).flatMap (fun k => cs.flatMap (fun c => (c.2.getD k []).map (fun o => (c.1, o))))

/-- R432, R448: the bytes of the result tensors. -/
def RunEnv.resultBytes (e : RunEnv) (s : RunSt) : List Byte × Bool :=
  (e.p.outputs.filter (fun o => !o.reduction)).foldl (fun x o =>
    let v := e.tensor s o.tensor
    let rows := v.rows.flatMap (fun r => leBytes ((r.length * fmtBits v.fmt + 7) / 8)
      (r.zipIdx.foldl (fun a c => a + c.1.bits * 2 ^ (fmtBits v.fmt * c.2)) 0))
    (x.1 ++ fitList 0 o.size rows, x.2 || anyPoison v.elems)) ([], false)

/-- A whole run: bindings, then the ops; a poisoned result tensor faults it (R451). -/
def RunEnv.run (e : RunEnv) : RunSt × List Byte :=
  let s := e.p.bindings.zipIdx.foldl e.bind ({} : RunSt)
  let s := (e.p.order e.kind).foldl (fun s x => e.op x.1 s x.2) s
  let r := e.resultBytes s
  ({ s with poisoned := s.poisoned || r.2 }, r.1)

end Sys2Proof.Machine
end

