-- ==== Sys2Proof/Machine/NldAdmit.lean ====
section
/-! DEFINITION. Admission of model images (R427 to R446, R481, R487): reading an image, the checks in their order, the bound
of a run, and the fit into the windows. -/

namespace Sys2Proof.Machine

open Sys2Proof

/-! ### Reading an image (R427 to R433) -/

/-- A directory entry (R428). -/
structure Section where
  type : Nat
  qual : Nat
  off : Nat
  len : Nat
  crc : Nat
  zero : Bool
  deriving DecidableEq, Repr

/-- R428: the directory of an image. -/
def sectionsOf (bs : List Byte) : List Section :=
  (List.range (fieldAt bs 19 1)).map (fun i =>
    let o := 64 + 16 * i
    { type := fieldAt bs o 1, qual := fieldAt bs (o + 1) 1, off := fieldAt bs (o + 4) 4, len := fieldAt bs (o + 8) 4,
      crc := fieldAt bs (o + 12) 4, zero := decide (fieldAt bs (o + 2) 2 = 0) })

/-- A section's bytes. -/
def Section.bytes (bs : List Byte) (s : Section) : List Byte := (bs.drop s.off).take s.len

/-- The entries of a section of one type, cut into pieces. -/
def entriesOf (bs : List Byte) (ss : List Section) (type size : Nat) : List (List Byte) :=
  (ss.filter (fun s => s.type = type)).flatMap (fun s => let b := s.bytes bs; chunks size (b.length + 1) b)

/-- R430: a tensor table entry. -/
def tensorOf (b : List Byte) : TensorDecl :=
  { id := fieldAt b 0 2, fmt := fieldAt b 2 1, place := fieldAt b 3 1, rows := fieldAt b 4 4, cols := fieldAt b 8 4,
    bp := fieldAt b 12 1, scale := fieldAt b 14 2, offset := fieldAt b 16 8 }

/-- R370: a selector. -/
def selectorOf (b : List Byte) : Selector :=
  { kind := fieldAt b 0 1, quantity := fieldAt b 1 1, obs := bitOf (fieldAt b 2 1) 0, a := fieldAt b 4 4, b := fieldAt b 8 4 }

/-- R431: a binding entry. -/
def bindingOf (b : List Byte) : Binding :=
  if fieldAt b 2 1 = 0 then .series (fieldAt b 0 2) (fieldAt b 4 2) (selectorOf (b.drop 16))
  else .tap (fieldAt b 0 2) (fieldAt b 4 1) (fieldAt b 6 2) (fieldAt b 8 4)

/-- R432: an output entry; binary point and columns come from its tensor. -/
def outputOf (ts : List TensorDecl) (b : List Byte) : OutputDecl :=
  let id := fieldAt b 2 2
  let d := ts.find? (fun d => d.id = id)
  { reduction := decide (fieldAt b 0 1 = 1), tensor := id, op := fieldAt b 4 1, size := fieldAt b 8 4,
    bp := (d.map (·.bp)).getD 0, cols := (d.map (·.cols)).getD 0 }

/-- R433: an op descriptor with its parameters. -/
def opOf (b : List Byte) (params : OpParams) : ProgOp :=
  { opcode := fieldAt b 0 1, flags := fieldAt b 1 1, dst := fieldAt b 2 2,
    srcs := [fieldAt b 4 2, fieldAt b 6 2, fieldAt b 8 2], params := params }

/-- R434: the opcode whose parameters these are. -/
def paramCode : OpParams → Nat
  | .gemm .. => 0x01
  | .conv .. => 0x02
  | .elem _ => 0x03
  | .norm .. => 0x04
  | .softmax _ => 0x05
  | .wstat .. => 0x06
  | .gather .. => 0x07
  | .tree .. => 0x08
  | .reduce .. => 0x09
  | .cmp .. => 0x0A
  | .emit .. => 0x0B
  | .copy .. => 0x0C
  | .tap _ => 0x0D
  | .bar => 0x0E
  | .stop => 0x0F

/-- The schedules of an image: the parameters are given for its descriptors in order. -/
def schedulesOf (bs : List Byte) : List Section → List OpParams → List Schedule
  | [], _ => []
  | s :: t, ps =>
    if s.type = 3 then
      let ds := chunks 32 (s.len + 1) (s.bytes bs)
      { kind := s.qual % 4, cluster := s.qual / 16, ops := (ds.zip ps).map (fun x => opOf x.1 x.2) } ::
        schedulesOf bs t (ps.drop ds.length)
    else schedulesOf bs t ps

/-- R406: the pool addresses of the ensembles that follow each other in a section. -/
def ensembleAddrs (bs : List Byte) (at_ : Nat) : Nat → Nat → Nat → List Nat
  | 0, _, _ => []
  | k + 1, off, stop =>
    if off ≥ stop then []
    else (at_ + off) :: ensembleAddrs bs at_ k ((off + max 64 (fieldAt bs (off + 12) 4) + 255) / 256 * 256) stop

/-- R427 to R433: the program that an image at a pool address describes. -/
def programOf (bs : List Byte) (at_ seq first : Nat) (params : List OpParams) : Program :=
  let ss := sectionsOf bs
  let ts := (entriesOf bs ss 1 32).map tensorOf
  { at_ := at_, image := fieldAt bs 8 8, owner := fieldAt bs 16 1, priority := fieldAt bs 17 1,
    clusters := fieldAt bs 18 1, prov := bitOf (fieldAt bs 3 1) 0, fleetStage := bitOf (fieldAt bs 3 1) 1,
    actionable := bitOf (fieldAt bs 3 1) 2, period := fieldAt bs 20 2, phase := fieldAt bs 22 2,
    budgetSealed := fieldAt bs 28 4, budgetProv := fieldAt bs 32 4, budgetFleet := fieldAt bs 36 4,
    maxVerdicts := fieldAt bs 40 2, tensors := ts, bindings := (entriesOf bs ss 4 32).map bindingOf,
    outputs := (entriesOf bs ss 7 16).map (outputOf ts), schedules := schedulesOf bs ss params,
    data := at_ + (((ss.find? (fun s => s.type = 2)).map (·.off)).getD 0),
    tables := (ss.filter (fun s => s.type = 5)).flatMap (fun s => s.bytes bs),
    ensembles := (ss.filter (fun s => s.type = 6)).flatMap (fun s => ensembleAddrs bs at_ s.len s.off (s.off + s.len)),
    seq := seq, first := first, taken := [] }

/-- The owner and image of a reduction output, for its declared size. -/
def Program.redSizes (p : Program) : Nat := (p.reductions.map (fun o => 24 + o.size)).foldl (· + ·) 0

/-! ### The bound of a run (R434, R436) -/

/-- The declared elements of a tensor. -/
def Program.elems (p : Program) (id : Nat) : Nat :=
  if id = 0xFFFB then 2 else if id ≥ 0xFFF0 then 1 else ((p.tensor id).map TensorDecl.size).getD 0

/-- The declared format of a tensor; what the scheduler supplies is SF64. -/
def Program.fmt (p : Program) (id : Nat) : Nat := if id ≥ 0xFFF0 then 9 else ((p.tensor id).map (·.fmt)).getD 9

/-- The bytes of a tensor. -/
def Program.bytesOf (p : Program) (id : Nat) : Nat := (p.elems id * fmtBits (p.fmt id) + 7) / 8

/-- The elements of an op's largest source. -/
def Program.largest (p : Program) (o : ProgOp) : Nat := (o.srcs.map p.elems).foldl max 0

/-- The tier-0 segments that a window of W ticks can touch. -/
def segsTouched (w : Nat) : Nat := if w = 0 then 0 else (w + 254) / 256 + 1

/-- R371: how many elements a selector names. -/
def selectorCount (s : Selector) : Nat :=
  if s.kind = 0 then s.b % 2 ^ 19
  else if s.kind = 1 then s.a / 65536 % 1024 * (s.b / 65536 % 2048)
  else 512 * (s.b / 65536 % 2048)

/-- The shape of an op of the arrays: M, K and N. -/
def Program.shape (p : Program) (o : ProgOp) : Nat × Nat × Nat :=
  let a := p.tensor (o.srcs.getD 0 0)
  let w := p.tensor (o.srcs.getD 1 0)
  let rows := (a.map (·.rows)).getD 0
  let cols := (a.map (·.cols)).getD 0
  let n := (w.map (·.rows)).getD 0
  match o.params with
  | .conv _ _ _ width stride dilation =>
    let span := dilation * (width - 1) + 1
    (if rows < span ∨ stride = 0 then 0 else (rows - span) / stride + 1, cols * width, n)
  | _ => (rows, cols, n)

/-- R422: the bound of a TREE op. -/
def Nld.treeCost (n : Nld) (p : Program) (o : ProgOp) : Nat :=
  match o.params with
  | .tree ensemble samples _ fromHbm toHbm =>
    (n.readEnsemble p.owner (p.ensembles.getD ensemble 0)).bound samples fromHbm toHbm
  | _ => 0

/-- R434: the worst-case cost of an op. -/
def Nld.opCost (n : Nld) (p : Program) (o : ProgOp) : Nat :=
  let m := p.largest o
  let sf := decide (p.fmt o.dst = 9) || o.srcs.any (fun s => decide (s ≠ 0 ∧ p.fmt s = 9))
  match o.params with
  | .gemm mode _ arrays => let s := p.shape o; gemmClocks mode s.1 s.2.1 s.2.2 (max 1 arrays)
  | .conv mode _ arrays _ _ _ => let s := p.shape o; gemmClocks mode s.1 s.2.1 s.2.2 (max 1 arrays)
  | .elem _ => elemCost m sf
  | .cmp .. => elemCost m sf
  | .norm mad row _ =>
    (m + row - 1) / max 1 row * (if mad then 96 + 16 * ceilDiv row 32 else 48 + 2 * ceilDiv row 128)
  | .softmax row => (m + row - 1) / max 1 row * (64 + 3 * ceilDiv row 128)
  | .wstat k window _ =>
    600 + 4 * ((p.selector k).map selectorCount).getD 0 * segsTouched window
  | .gather true k => 40 + ceilDiv (((p.selector k).map selectorCount).getD 0) 16
  | .gather false _ =>
    40 + ceilDiv (p.bytesOf o.dst) 64 +
      (if ((p.tensor (o.srcs.getD 0 0)).map (fun d => decide (d.place = 2 ∨ d.place = 3))).getD false then 0 else 800)
  | .tree .. => n.treeCost p o
  | .reduce output _ _ =>
    let w := match p.reductions[output]? with
      | some d => elemBytes d.op
      | none => 0
    40 + ceilDiv (p.elems (o.srcs.getD 0 0) * w) 64
  | .emit .. => 40 + ceilDiv m 128 + 8 * p.maxVerdicts
  | .copy fromHbm _ => (if fromHbm then 800 else 8) + ceilDiv (p.bytesOf (o.srcs.getD 0 0)) 64
  | .tap k => 800 + (match p.bindings[k]? with
    | some (.tap _ _ maxSeq seqBytes) => ceilDiv (maxSeq * seqBytes) 64
    | _ => 0)
  | .bar => 0
  | .stop => 0

/-- The largest source of EMIT is its mask. -/
def emitElems (o : ProgOp) : ProgOp :=
  match o.params with
  | .emit _ _ subject mask score a0 a1 => { o with srcs := [mask, score, subject, a0, a1] ++ o.srcs }
  | _ => o

/-- R434, R436: the cost of each cluster in a segment: its own ops, and at a TREE op those of the other clusters. -/
def Nld.segmentCost (n : Nld) (p : Program) (seg : List (List ProgOp)) : Nat :=
  let trees := seg.map (fun ops => (ops.map (n.treeCost p)).foldl (· + ·) 0)
  let all := trees.foldl (· + ·) 0
  (seg.map (fun ops => (ops.map (fun o =>
    n.opCost p (emitElems o) +
      (if paramCode o.params = 0x08 then all - (ops.map (n.treeCost p)).foldl (· + ·) 0 else 0))).foldl (· + ·) 0)).foldl max 0

/-- R436: the computed bound of a kind of run; 0 where the program has none. -/
def Nld.runBound (n : Nld) (p : Program) (kind : Nat) : Nat :=
  let cs := (p.schedulesOf kind).map (fun s => (segmentsOf s.ops.zipIdx).map (fun g => g.map (·.1)))
  if cs = [] then 0
  else
    let count := (cs.map (·.length)).foldl max 0
    300 + ((List.range count).map (fun k => n.segmentCost p (cs.map (fun c => c.getD k [])))).foldl (· + ·) 0

/-! ### Windows (R438, R440, R446) -/

/-- R437: the compute clocks of a round. -/
def Nld.roundClocks (n : Nld) : Nat := n.periodUs * 1500

/-- R440: e, in ticks. -/
def Nld.stageLag (n : Nld) : Nat :=
  (n.get NReg.TICK_S_offset_us + 4 - n.get NReg.TICK_L_offset_us + n.periodUs - 1) / max 1 n.periodUs

/-- R440: d, in ticks. -/
def Nld.provLead (n : Nld) : Nat :=
  (n.get NReg.TICK_L_offset_us + 14 - n.get NReg.TICK_P_offset_us + n.periodUs - 1) / max 1 n.periodUs

/-- R440: y, the provisional start offset, in compute clocks. -/
def Nld.provStart (n : Nld) : Int :=
  ((n.get NReg.TICK_P_offset_us + 2 + n.provLead * n.periodUs : Nat) : Int) * 1500 -
    ((n.get NReg.TICK_L_offset_us + 16 : Nat) : Int) * 1500

/-- A window table: owner to (offset, length, base, units). -/
abbrev WinTable := Tbl (Nat × Nat × Nat × Nat)

/-- An owner's window: offset and length. -/
def winOf (w : WinTable) (o : Nat) : Nat × Nat × Nat × Nat := Tbl.get (0, 0, 0, 0) o w

/-- R453: the staged window table. -/
def Nld.stagedWindows (n : Nld) : WinTable :=
  (List.range 17).foldl (fun t o => Tbl.set (0, 0, 0, 0) o
    (n.get NReg.SCHED_WINo_OFF_offset o, n.get NReg.SCHED_WINo_LEN_length o, n.get NReg.SCHED_WINo_SRAM_base o,
     n.get NReg.SCHED_WINo_SRAM_units o) t) []

/-- R438: a window table is valid for a round length. -/
def windowsOk (w : WinTable) (round : Nat) : Bool :=
  let ws := w.filter (fun e => decide (e.2.2.1 ≠ 0))
  ws.all (fun e => decide (e.2.1 + e.2.2.1 ≤ round)) &&
  ws.all (fun a => ws.all (fun b => a.1 == b.1 || decide (a.2.1 + a.2.2.1 + 400 ≤ b.2.1 ∨ b.2.1 + b.2.2.1 + 400 ≤ a.2.1))) &&
  decide (10 * (ws.map (fun e => e.2.2.1)).foldl (· + ·) 0 ≤ 9 * round) &&
  w.all (fun e => decide (e.2.2.2.1 + e.2.2.2.2 ≤ 20)) &&
  w.all (fun a => w.all (fun b => a.1 == b.1 || a.2.2.2.2 == 0 || b.2.2.2.2 == 0 ||
    decide (a.2.2.2.1 + a.2.2.2.2 ≤ b.2.2.2.1 ∨ b.2.2.2.1 + b.2.2.2.2 ≤ a.2.2.2.1)))

/-- R446: an owner's declared budgets of a round residue: sealed, fleet stage, provisional. -/
def Nld.residueSums (n : Nld) (ps : List Program) (f : Nat) : Nat × Nat × Nat :=
  let e := n.stageLag
  let d := n.provLead
  let on (p : Program) (t : Nat) : Bool := t % p.period == p.phase
  ((ps.filter (fun p => on p f)).map (·.budgetSealed) |>.foldl (· + ·) 0,
   if n.isRoot then ((ps.filter (fun p => p.fleetStage && on p (f + 1024 * (e / 1024 + 1) - e))).map (·.budgetFleet) |>.foldl (· + ·) 0)
   else 0,
   (ps.filter (fun p => p.prov && on p (f + d))).map (·.budgetProv) |>.foldl (· + ·) 0)

/-- R446: an owner's programs fit a window. -/
def Nld.fitsWindow (n : Nld) (ps : List Program) (a w : Nat) : Bool :=
  (List.range 1024).all (fun f =>
    let (ss, sf, sq) := n.residueSums ps f
    decide (ss + sf ≤ w) &&
    (sq == 0 || decide (max ((ss + sf : Nat) : Int) (n.provStart - (a : Int)) + (sq : Int) ≤ (w : Int))))

/-- The programs of an owner that are not withdrawn. -/
def Nld.ownersPrograms (n : Nld) (o : Nat) : List Program := n.sched.programs.filter (fun p => p.owner = o && !p.withdrawn)

/-! ### The checks (R445) -/

/-- Check 2: an image's structure. -/
def structureOk (bs : List Byte) (params : List OpParams) (p : Program) : Bool :=
  let ss := sectionsOf bs
  let len := fieldAt bs 4 4
  let flags := fieldAt bs 3 1
  let period := fieldAt bs 20 2
  let sig := ss.filter (fun s => s.type = 15)
  let typesOk := ss.all (fun s => ([1, 2, 3, 4, 5, 6, 7, 15].contains s.type) && s.zero && s.off % 64 == 0 &&
    decide (64 + 16 * ss.length ≤ s.off) && decide (s.off + s.len ≤ len) && crc32c (s.bytes bs) == s.crc &&
    (if s.type = 3 then decide (s.qual % 4 ≤ 2 ∧ s.qual / 4 % 4 = 0 ∧ s.qual / 16 < p.clusters) else s.qual == 0))
  let apart := ss.zipIdx.all (fun a => ss.zipIdx.all (fun b => a.2 == b.2 ||
    decide (a.1.off + a.1.len ≤ b.1.off ∨ b.1.off + b.1.len ≤ a.1.off)))
  let scheds := p.schedules.all (fun s =>
    decide (s.ops.length ≤ 65536) && (match s.ops.getLast? with
      | some o => o.opcode == 0x0F
      | none => false) &&
    s.ops.all (fun o => paramCode o.params == o.opcode) &&
    ((p.schedulesOf s.kind).all (fun s' =>
      (s'.ops.filter ProgOp.isBar).length == (s.ops.filter ProgOp.isBar).length)))
  decide (fieldAt bs 0 2 = 0x4D49 ∧ fieldAt bs 2 1 = 1 ∧ flags < 8 ∧ len % 64 = 0 ∧ len ≤ 2 ^ 30 ∧ len = bs.length) &&
  decide (p.image ≠ 0 ∧ p.owner ≤ 16 ∧ p.priority ≤ 7 ∧ 1 ≤ p.clusters ∧ p.clusters ≤ 10 ∧ 2 ≤ ss.length ∧ ss.length ≤ 64) &&
  decide (period ≠ 0 ∧ 1024 % period = 0 ∧ p.phase < period ∧ p.maxVerdicts ≤ 256) &&
  decide (fieldAt bs 42 22 = 0) && typesOk && apart && decide (sig.length = 1) &&
  (match ss.getLast? with
    | some s => s.type == 15
    | none => false) &&
  decide (params.length = ((ss.filter (fun s => s.type = 3)).map (fun s => s.len / 32)).foldl (· + ·) 0) && scheds

/-- A source or destination that is named exists. -/
def Program.known (p : Program) (id : Nat) : Bool := id == 0 || decide (0xFFFB ≤ id ∧ id ≤ 0xFFFE) || (p.tensor id).isSome

/-- Check 4: an op's formats. -/
def Program.formatsOk (p : Program) (o : ProgOp) : Bool :=
  let a := p.fmt (o.srcs.getD 0 0)
  let w := p.fmt (o.srcs.getD 1 0)
  let k := (p.shape o).2.1
  let arr (mode : ArrMode) (out arrays : Nat) : Bool :=
    modeFormats mode w a && outFormat out && p.fmt o.dst == out && decide (k ≤ modeLimit mode w a) &&
    decide (1 ≤ arrays ∧ arrays ≤ 4) &&
    (match mode with
      | .t2 => ((p.tensor (o.srcs.getD 1 0)).map (fun d => decide (d.scale ≠ 0xFFFF))).getD false
      | _ => true)
  p.known o.dst && o.srcs.all p.known &&
  (match o.params with
    | .gemm mode out arrays =>
      arr mode out arrays && decide (((p.tensor (o.srcs.getD 1 0)).map (·.cols)).getD 0 = k)
    | .conv mode out arrays width _ _ =>
      arr mode out arrays && decide (1 ≤ width ∧ width ≤ 64) &&
      decide (((p.tensor (o.srcs.getD 1 0)).map (·.cols)).getD 0 = k)
    | _ => true)

/-- R371: a selector is not refused. -/
def Nld.selectorOk (n : Nld) (s : Selector) : Bool :=
  let first := s.b % 1024
  let count := s.b / 65536 % 2048
  decide (s.quantity ≤ 11) &&
  (if s.kind = 0 then
    let c := s.a % 2 ^ 18
    let k := s.b % 2 ^ 19
    decide (1 ≤ k ∧ c + k ≤ 2 ^ 18) &&
    (decide (s.quantity ≤ 1) ||
      ((List.range k).all (fun i => (assignments n.series.table).any (fun a => a.1 == c + i))))
  else
    decide (1 ≤ count ∧ first + count ≤ 1024) &&
    (if s.kind = 1 then
      let k := s.a / 65536 % 1024
      decide (1 ≤ k ∧ s.a % 512 + k ≤ 512)
    else decide (s.kind = 2)))

/-- Check 5: bindings, and what a provisional schedule may not do. -/
def Nld.bindingsOk (n : Nld) (p : Program) : Bool :=
  p.bindings.all (fun b => match b with
    | .series _ _ sel => n.selectorOk sel && !(sel.obs && p.actionable)
    | .tap _ tap maxSeq seqBytes =>
      decide (tap < 16 ∧ 1 ≤ maxSeq ∧ maxSeq ≤ 1024 ∧ 64 ≤ seqBytes ∧ seqBytes ≤ 65536) &&
      Tbl.get fleet tap n.host.taps == p.owner) &&
  (p.schedulesOf 1).all (fun s => s.ops.all (fun o =>
    (match o.params with
      | .tap _ => false
      | .gather _ k => (match p.bindings[k]? with
        | some (.tap ..) => false
        | _ => true)
      | _ => true) &&
    !(((p.tensor o.dst).map (fun d => decide (d.place = 1 ∨ d.place = 2))).getD false)))

/-- Check 6: verdict kinds. -/
def Program.verdictsOk (p : Program) : Bool :=
  p.schedules.all (fun s => s.ops.all (fun o => match o.params with
    | .emit kind .. => decide (1 ≤ kind ∧ kind ≤ 18) && (decide (kind < 16) || (p.actionable && s.kind != 1))
    | _ => true))

/-- Check 7: ensembles. -/
def Nld.ensemblesOk (n : Nld) (p : Program) : Bool :=
  p.ensembles.all (fun a =>
    let len := leNat (n.poolBytes (a + 12) 4)
    n.inShare p.owner a len && ensembleOk (n.poolBytes a len) && a % 256 == 0)

/-- Check 8: the image and its tensors lie in the owner's share and allotment. -/
def Nld.placementOk (n : Nld) (p : Program) (len dataLen : Nat) : Bool :=
  let units := (winOf n.sched.windows p.owner).2.2.2
  n.inShare p.owner p.at_ len && p.at_ % 256 == 0 &&
  p.tensors.all (fun d =>
    let size := d.rows * ((d.cols * fmtBits d.fmt + 7) / 8)
    if d.place = 0 then decide (d.offset + size ≤ dataLen)
    else if d.place = 2 ∨ d.place = 3 then
      decide (d.offset % 16 < p.clusters ∧ d.offset / 16 % 4 < 4 ∧ d.offset / 256 + size ≤ units * 65536)
    else decide (d.place ≤ 4))

/-- Check 9: the declared budgets cover the computed bounds. -/
def Nld.budgetsOk (n : Nld) (p : Program) : Bool :=
  decide (n.runBound p 0 ≤ p.budgetSealed ∧ n.runBound p 1 ≤ p.budgetProv ∧ n.runBound p 2 ≤ p.budgetFleet)

/-- R479: an output's declared size equals its layout. -/
def outputSizeOk (p : Program) (o : OutputDecl) : Bool :=
  let d := p.tensor o.tensor
  let count := ((d.map (·.rows)).getD 0) * o.cols
  let pow (lo hi : Nat) : Bool := decide (lo ≤ o.cols ∧ o.cols ≤ hi ∧ o.cols = 2 ^ Nat.log2 o.cols)
  if o.op = 1 then o.size == 16 * count
  else if o.op = 2 ∨ o.op = 3 then o.size == 8 * count
  else if o.op = 4 then o.size == 512
  else if o.op = 5 then o.size == 16 * o.cols && pow 64 4096
  else if o.op = 6 then o.size == o.cols && pow 64 16384
  else false

/-- R481: the binary point of an output against the sources that feed it; member ranks are refused to *fleet*. -/
def Program.feedsOk (p : Program) : Bool :=
  p.schedules.all (fun s => s.ops.all (fun o => match o.params with
    | .reduce output _ byRank =>
      (match p.reductions[output]? with
        | some d => decide (d.op > 3 ∨ d.bp ≤ ((p.tensor (o.srcs.getD 0 0)).map (·.bp)).getD 0 + 32)
        | none => false) && !(byRank && p.owner == fleet)
    | _ => true))

/-- R487, R544: the largest size of a group summary at a tick residue; `slots` is what vote and tally slots add to each. -/
def summarySize (slots : Nat) (ps : List Program) (f : Nat) : Nat :=
  4420 + slots + (((ps.filter (fun p => decide (f % p.period = p.phase))).map Program.redSizes).foldl (· + ·) 0)

/-- R487: the sizes of cyclic runs of tick residues that begin at one. -/
def runsFit (sizes : List Nat) (b : Nat) : Nat → Nat → Nat → Bool
  | 0, _, _ => true
  | k + 1, sum, f =>
    let sum := sum + sizes.getD (f % 1024) 0
    decide (sum ≤ b + (1024 - (k + 1)) * 8192) && runsFit sizes b k sum (f + 1)

/-- R487: every cyclic run of k ≤ 1,024 residues fits. -/
def Nld.summariesOk (n : Nld) (slots : Nat) (ps : List Program) : Bool :=
  let b := 8192 * max 1 (1000 / max 1 n.periodUs)
  let sizes := (List.range 1024).map (summarySize slots ps)
  (List.range 1024).all (fun f => runsFit sizes b 1024 0 f)

/-- R544, R551: what the vote and tally slots can add to a summary. -/
def Nld.slotBytes (n : Nld) : Nat := 408 * n.defence.votes.length + 96 * n.defence.tallies.length

/-- Check 11: outputs. -/
def Nld.outputsOk (n : Nld) (p : Program) : Bool :=
  let results : List Nat := (p.outputs.filter (fun o => !o.reduction)).map (·.size)
  let sizes : List Nat := p.reductions.map (·.size)
  decide (results.foldl (· + ·) (0 : Nat) ≤ 4096 ∧ sizes.length ≤ 16) && sizes.all (fun s => decide (s ≤ 262144)) &&
  decide (sizes.foldl (· + ·) (0 : Nat) ≤ 524288) && p.reductions.all (outputSizeOk p) && p.feedsOk &&
  n.summariesOk n.slotBytes (n.sched.programs.filter (fun q => !q.withdrawn) ++ [p])

/-- R444: the first tick a program admitted now runs for. -/
def Nld.firstTick (n : Nld) (period phase : Nat) : Nat :=
  let soon := n.now + n.periodUs * 1000 + 200000
  let m := (soon + n.periodUs * 1000 - 1) / max 1 (n.periodUs * 1000)
  m + (phase + period - m % max 1 period) % max 1 period

/-- R445: the first failing check's code, 0 if none fails. `signed`: the signature verifies under the named key. -/
def Nld.admitCode (n : Nld) (fn : Nat) (bs : List Byte) (params : List OpParams) (signed : Bool) (p : Program) : Nat :=
  let key := n.sec.keys.any (fun k => decide (k.id = fieldAt bs 24 4) && decide (k.owner = p.owner) && bitOf k.uses 0)
  let data := ((sectionsOf bs).find? (fun s => s.type = 2)).map (·.len)
  let own := n.ownersPrograms p.owner
  let w := winOf n.sched.windows p.owner
  if ¬ signed ∨ ¬ key then 1
  else if ¬ structureOk bs params p then 2
  else if fnOwner fn ≠ p.owner then 3
  else if ¬ p.schedules.all (fun s => s.ops.all p.formatsOk) then 4
  else if ¬ n.bindingsOk p then 5
  else if ¬ p.verdictsOk then 6
  else if ¬ n.ensemblesOk p then 7
  else if ¬ n.placementOk p bs.length (data.getD 0) then 8
  else if ¬ n.budgetsOk p then 9
  else if ¬ n.fitsWindow (own ++ [p]) w.1 w.2.1 then 10
  else if ¬ n.outputsOk p then 11
  else if (own.any (fun q => decide (q.image = p.image))) then 12
  else if own.length ≥ 64 ∨ (n.sched.programs.filter (fun q => !q.withdrawn)).length ≥ 256 then 13
  else 0

/-- R444, R445: admit an image at a pool address, or refuse it with a code. -/
def Nld.takeImage (n : Nld) (fn at_ len : Nat) (params : List OpParams) (signed : Bool) : Nld × Nat :=
  let bs := n.poolBytes at_ len
  let p := programOf bs at_ n.sched.admissions (n.firstTick (fieldAt bs 20 2) (fieldAt bs 22 2)) params
  let code := n.admitCode fn bs params signed p
  if code ≠ 0 then (n, code)
  else ({ n with sched := { n.sched with programs := n.sched.programs ++ [p], admissions := n.sched.admissions + 1 } }, 0)

end Sys2Proof.Machine
end

