-- ==== Sys2Proof/Machine/NldSched.lean ====
section
/-! DEFINITION. The array scheduler (R437 to R455, R58 to R60, R515 to R519): which runs a tick has, what is skipped, dropped
and retracted, and how a run ends. -/

namespace Sys2Proof.Machine

open Sys2Proof

/-! ### Ticks -/

/-- A tick not yet retired. -/
def Nld.tickRec (n : Nld) (t : Nat) : Option TickRec := n.tick.ticks.find? (fun x => x.num = t)

/-- Replace a tick's record. -/
def Nld.setTick (n : Nld) (t : TickRec) : Nld :=
  { n with tick := { n.tick with ticks := n.tick.ticks.map (fun x => if x.num = t.num then t else x) } }

/-- The tick's boundary T, ns of domain 0. -/
def Nld.tickAt (n : Nld) (t : Nat) : Nat := t * n.periodUs * 1000

/-! ### Result records (R448, R587) -/

/-- R587: a result record's body. -/
def resultBody (image owner kind status verdicts dropped cov cycles : Nat) (result : List Byte) : List Byte :=
  leBytes 8 image ++ leBytes 1 owner ++ leBytes 1 kind ++ leBytes 1 status ++ leBytes 1 0 ++ leBytes 2 verdicts ++
  leBytes 2 dropped ++ leBytes 4 cov ++ leBytes 4 cycles ++ leBytes 4 result.length ++ leBytes 4 0 ++ result

/-- R46, R584: a ring that takes provisional results of an owner. -/
def Nld.takesProv (n : Nld) (owner key : Nat) : Bool :=
  n.takes2 5 key && n.subscribed key 3 && n.subscribed key 0 && ringOf owner key

/-- R46, R49, R584: a ring that takes retractions of an owner's results. -/
def Nld.takesRetraction (n : Nld) (owner key : Nat) : Bool :=
  n.subscribed key 3 && n.subscribed key 0 && ringOf owner key

/-- R584: a ring that takes sealed results of an owner. -/
def Nld.takesSealed (n : Nld) (owner key : Nat) : Bool := n.takes2 5 key && n.subscribed key 0 && ringOf owner key

/-- R584: a ring that takes tray verdicts of an owner. -/
def Nld.takesVerdicts (n : Nld) (owner : Nat) (prov : Bool) (key : Nat) : Bool :=
  n.ringType key == 3 && n.subscribed key 0 && ringOf owner key && (!prov || n.subscribed key 3)

/-- The verdicts of a run go out in element order. -/
def Nld.formVerdicts (n : Nld) (owner : Nat) (prov : Bool) (vs : List Verdict) : Nld :=
  vs.foldl (fun n v => n.form (n.takesVerdicts owner prov) (n.verdictRec v)) n

/-- R448: publish a run's result record and verdicts: a tray result on the owner's rings, a fleet stage's in a SEAL of
kind 2. -/
def Nld.publish (n : Nld) (owner kind t : Nat) (body : List Byte) (vs : List Verdict) : Nld :=
  if kind = 2 then n.sealOut 2 t (body ++ vs.flatMap (fun v => v.bytes n.periodUs))
  else if kind = 1 then
    (n.form (n.takesProv owner) { type := 2, prov := true, tick := t, body := body }).formVerdicts owner true vs
  else (n.form (n.takesSealed owner) { type := 3, tick := t, body := body }).formVerdicts owner false vs

/-! ### Provisional results and retractions (R49, R51) -/

/-- A provisional result waits for its sealed result. -/
def Nld.hasProv (n : Nld) (owner image t : Nat) : Bool := n.sched.provs.contains { owner := owner, image := image, tick := t }

/-- It waits no longer. -/
def Nld.dropProv (n : Nld) (owner image t : Nat) : Nld :=
  { n with sched := { n.sched with provs := n.sched.provs.filter (fun p => p ≠ { owner := owner, image := image, tick := t }) } }

/-- R51: retract a provisional result, if there is one. -/
def Nld.retract (n : Nld) (owner image t reason : Nat) : Nld :=
  if n.hasProv owner image t then
    (n.dropProv owner image t).form (n.takesRetraction owner) (retraction image reason owner t t)
  else n

/-- R55: retract what was provisional of a tick that never seals. -/
def Nld.retractTick (n : Nld) (t reason : Nat) : Nld :=
  (n.sched.provs.filter (fun p => p.tick = t)).foldl (fun n p => n.retract p.owner p.image p.tick reason) n

/-! ### What a verdict causes (R515, R516, R519) -/

/-- R515: the address a verdict's subject resolves to. -/
def Nld.resolve (n : Nld) (v : Verdict) : Option Nat :=
  if v.stype = 0 then some (v.subject % 2 ^ 20)
  else if v.stype = 1 then
    ((assignments n.series.table).find? (fun a => a.1 = v.subject % 2 ^ 18)).map (fun a => n.name * 512 + a.2.1)
  else if v.stype = 3 then n.rankAddr v.owner v.subject
  else none

/-- The die at an address of this tray is observe-only. -/
def Nld.obsvAddr (n : Nld) (a : Nat) : Bool := addrGT a == n.name && n.obsv (addrPos a)

/-- R516, R545: this Naloder is the home root of an owner; for *fleet* the acting root of the lowest group. -/
def Nld.homeRoot (n : Nld) (owner : Nat) : Bool :=
  if owner = fleet then
    n.get NReg.GRP_CFG_role == 1 && (bitList 64 n.groups).head? == some n.groupNo
  else n.isHomeRoot owner

/-- R515, R516, R519: what a verdict of a sealed run or fleet stage with status 0 causes here. -/
def Nld.actVerdict (n : Nld) (p : Program) (stage : Bool) (v : Verdict) : Nld :=
  if ¬ p.actionable ∨ (stage ∧ ¬ n.homeRoot p.owner) then n
  else
    match n.resolve v with
    | none => n
    | some a =>
      if n.obsvAddr a ∨ (p.owner ≠ fleet ∧ ¬ n.isMember p.owner a) then n
      else if (v.kind = 2 ∨ v.kind = 18) ∧ p.owner ≠ fleet then
        n.advise p.owner { subject := a, tick := v.tick, image := v.image, score := v.score, bp := v.bp }
      else if v.kind = 17 then
        let own := if p.owner = fleet then v.arg0 % 2 ^ 17 else scopeOf p.owner
        n.originateAbort (own &&& n.get NReg.ABT_ON_VERDICT_scope) 3
      else n

/-! ### The end of a run (R442, R448, R451) -/

/-- R473: this tray's segments of a program for a tick: its contributions, or none with a status. -/
def traySegments (p : Program) (status : Nat) (contribs : Tbl (List Nat)) : List Segment :=
  p.reductions.zipIdx.map (fun o =>
    { owner := p.owner, output := o.2, op := o.1.op, status := status, image := p.image,
      contributing := if status = 0 then 1 else 0, missing := if status = 0 then 0 else 1,
      vals := if status = 0 then
          (Tbl.find? o.2 contribs).getD (identityVals o.1.op (outputCount o.1)) else [] })

/-- Add segments to what this tray will send of a tick. -/
def Nld.addTray (n : Nld) (t : Nat) (l : List Segment) : Nld :=
  { n with sched := { n.sched with tray := Tbl.insert t (l.foldl (fun acc s => addSegment s acc) (Tbl.get [] t n.sched.tray))
                                     n.sched.tray } }

/-- A run of a tick has ended or will not take place. -/
def Nld.endRun (n : Nld) (t owner image kind : Nat) : Nld :=
  match n.tickRec t with
  | none => n
  | some x => n.setTick { x with runs := x.runs.filter (fun r => r ≠ (owner, image, kind)) }

/-- The positions of a presence map with a code. -/
def codeCount (map : List Nat) (code : Nat) : Nat := (map.filter (· = code)).length

/-- R40: the four counts of a sealed tick. -/
def TickRec.counts (t : TickRec) : List Nat :=
  [codeCount t.presence 0, codeCount t.presence 1, codeCount t.presence 2,
   (t.expected.filter (fun p => t.obsv.contains p)).length]

/-- R39: the 128 bytes of the presence map. -/
def mapBytes (map : List Nat) : List Byte :=
  (chunks 4 129 map).map (fun c => BitVec.ofNat 8 (c.getD 0 0 + 4 * c.getD 1 0 + 16 * c.getD 2 0 + 64 * c.getD 3 0))

/-- R472: the PARTIAL of a tick leaves once its map is closed and its sealed runs have ended, or at `late` when it can wait
no longer. -/
def Nld.trySend (n : Nld) (t : Nat) (late : Bool) : Nld :=
  match n.tickRec t with
  | none => n
  | some x =>
    if x.sent ∨ x.presence = [] ∨ x.phase = .opened ∨ x.phase = .provisional ∨ x.phase = .abandoned then n
    else if ¬ late ∧ (¬ x.swept ∨ x.runs.any (fun r => r.2.2 = 0)) then n
    else
      let segs := Tbl.get [] t n.sched.tray
      let n := n.setTick { x with sent := true }
      let n := { n with sched := { n.sched with tray := Tbl.erase t n.sched.tray } }
      n.sendPartial t x.counts (mapBytes x.presence) segs

/-- A record of a tick waits for delivery on some ring. -/
def Nld.undelivered (n : Nld) (t : Nat) : Bool :=
  n.host.rings.any (fun r => r.2.formed.any (fun d => decide (d.tick = t)) || r.2.overflow.any (fun d => decide (d.tick = t)))

/-- R27: a fleet-sealed tick is retired when its results are delivered. -/
def Nld.retireTicks (n : Nld) : Nld :=
  let done (x : TickRec) : Bool := x.phase == .fleetSealed && x.runs.isEmpty && x.sent && !n.undelivered x.num
  { n with tick := { n.tick with ticks := n.tick.ticks.filter (fun x => !done x) } }

/-- What the arrays counted in a run (R396, R399, R400). -/
def Nld.countArrays (n : Nld) (owner : Nat) (a : ArrCounts) : Nld :=
  let clear := ¬ n.bit NReg.ARR_EVT_wpar ∧ ¬ n.bit NReg.ARR_EVT_acc_ue ∧ ¬ n.bit NReg.ARR_EVT_t2_reserved
  let n := match a.first with
    | some (c, arr, col) =>
      if clear then (((n.put NReg.ARR_FIRST_cause c).put NReg.ARR_FIRST_array arr).put NReg.ARR_FIRST_column col).put
        NReg.ARR_FIRST_owner owner
      else n
    | none => n
  let ev (n : Nld) (f cnt : Fld) (c : Nat) : Nld := if c = 0 then n else (n.raise f).count cnt c
  let n := ev n NReg.ARR_EVT_wpar NReg.ARR_WPARCNT_count a.wpar
  let n := ev n NReg.ARR_EVT_acc_ue NReg.ARR_ACCUECNT_count a.accue
  let n := ev n NReg.ARR_EVT_t2_reserved NReg.ARR_T2RSVCNT_count a.t2rsv
  let n := ev n NReg.ARR_EVT_poison_out NReg.ARR_POISONCNT_count a.poisonChunks
  n.count NReg.ARR_INVALIDCNT_count a.invalid

/-- R442: what a run leaves of its tensors: the working copies of state when it may write it and ends ok; scratch in SRAM
as written. -/
def Program.keep (p : Program) (s : RunSt) (commit : Bool) : Program :=
  let sram := s.vals.filter (fun e => ((p.tensor e.1).map (fun d => decide (d.place = 3))).getD false)
  let new := sram ++ (if commit then s.work else [])
  { p with state := new.foldl (fun t e => Tbl.insert e.1 e.2 t) p.state,
           taken := (List.range p.bindings.length).map (fun k =>
             match Tbl.find? k s.batch with
             | some b => (b.map (fun q => q.order + 1)).foldl max (p.taken.getD k 0)
             | none => p.taken.getD k 0) }

/-- Replace a program. -/
def Nld.setProgram (n : Nld) (p : Program) : Nld :=
  { n with sched := { n.sched with programs := n.sched.programs.map (fun q =>
      if q.owner = p.owner ∧ q.image = p.image ∧ q.seq = p.seq then p else q) } }

/-- R431: some binding of an admitted program has a tap, and every one has taken a sequence of it. -/
def Nld.tapDone (n : Nld) (q : StagedSeq) : Bool :=
  let marks := n.sched.programs.flatMap (fun p => p.bindings.zipIdx.filterMap (fun b => match b.1 with
    | .tap _ tap _ _ => if tap = q.tap then some (p.taken.getD b.2 0) else none
    | _ => none))
  !marks.isEmpty && marks.all (fun m => decide (q.order < m))

/-- R431: the sequences that every binding has taken leave staging. -/
def Nld.releaseStaged (n : Nld) : Nld :=
  { n with host := { n.host with staged := n.host.staged.filter (fun q => !n.tapDone q) } }

/-- R453: count a run of an owner that ended with a status. -/
def Nld.countRun (n : Nld) (owner status : Nat) : Nld :=
  if status = 2 ∨ status = 3 then (n.count NReg.SCHED_WINo_RUNS_faulted 1 owner).raise NReg.SCHED_EVT_run_fault
  else if status = 1 ∨ status = 4 then n.count NReg.SCHED_WINo_RUNS_skipped 1 owner
  else n

/-- R448 to R451: a run ends with a status: 0 ok, 2 faulted for poison, 3 faulted for budget. -/
def Nld.finishRun (n : Nld) (e : RunEnv) (status cycles : Nat) (s : RunSt) (res : List Byte) : Nld :=
  let p := e.p
  let t := e.t.num
  let ok := decide (status = 0)
  let vs := if ok then s.verdicts else []
  let cov := e.coverage
  let body := resultBody p.image p.owner e.kind status vs.length (if ok then s.dropped else 0)
    (cov.1 % 65536 + cov.2 % 65536 * 65536) cycles (if ok then res else [])
  let n := n.endRun t p.owner p.image e.kind
  let n := (n.countArrays p.owner s.arr).noteOvf s.ovf
  let n := n.count NReg.RED_RANKDROP_count s.rankDrop
  let n := n.setProgram (p.keep s (ok && e.kind != 1))
  let n := if e.kind = 1 then n else n.releaseStaged
  let n := n.publish p.owner e.kind t body vs
  let n := n.countRun p.owner status
  let n :=
    if e.kind = 0 then
      let n := if ok then n.dropProv p.owner p.image t else n.retract p.owner p.image t 3
      n.addTray t (traySegments p (if ok then 0 else 1) s.contribs)
    else if e.kind = 1 ∧ ok then
      { n with sched := { n.sched with provs := n.sched.provs ++ [{ owner := p.owner, image := p.image, tick := t }] } }
    else n
  let n := if e.kind = 1 then n else vs.foldl (fun n v => n.actVerdict p (decide (e.kind = 2)) v) n
  let n := { n with sched := { n.sched with used := n.sched.used + cycles } }
  (n.trySend t false).retireTicks

/-- R443: a provisional run that does not take place. -/
def Nld.provDrop (n : Nld) (t owner image : Nat) : Nld :=
  ((n.endRun t owner image 1).count NReg.SCHED_PROVDROP_count).raise NReg.SCHED_EVT_prov_drop

/-- R443: a provisional run may publish: its window can hold its budget from where it starts, its tick is not sealed, and the
program runs for the tick. -/
def Nld.provFits (n : Nld) (p : Program) (t : TickRec) : Bool :=
  let w := winOf n.sched.windows p.owner
  let start : Int := max ((n.sched.used : Nat) : Int) (n.provStart - (w.1 : Int))
  decide (start + (throttled p.budgetProv (n.get NReg.PWR_STATUS_level) : Int) ≤ (w.2.1 : Int)) &&
  (t.phase == .opened || t.phase == .provisional) && decide (p.first ≤ t.num)

/-- The declared budget of a kind of run. -/
def Program.budget (p : Program) (kind : Nat) : Nat :=
  if kind = 0 then p.budgetSealed else if kind = 1 then p.budgetProv else p.budgetFleet

/-- R394: between the slots of two owners a cluster clears what the earlier one used. -/
def Nld.clearClusters (n : Nld) (owner : Nat) : Nld :=
  (n.sched.lastOwner.filter (fun e => decide (e.2 ≠ owner))).foldl (fun n e => n.count NReg.CLc_CLEARS_count 1 e.1)
    { n with sched := { n.sched with lastOwner := n.sched.lastOwner.filter (fun e => decide (e.2 = owner)) } }

/-- What a run's clusters count: the clocks in which their arrays issued, and those withheld by throttling (R401). -/
def Nld.countClusters (n : Nld) (owner clusters : Nat) (clocks : List (Nat × Nat)) : Nld :=
  let n := (clocks.take clusters).zipIdx.foldl (fun n c =>
    (n.count48 NReg.CLc_ISSUE_LO_val_lo NReg.CLc_ISSUE_HI_val_hi c.1.1 c.2).count48 NReg.CLc_THR_LO_val_lo
      NReg.CLc_THR_HI_val_hi c.1.2 c.2) n
  let last := (List.range clusters).foldl (fun t c => Tbl.insert c owner t) n.sched.lastOwner
  { n with sched := { n.sched with lastOwner := last } }

/-- R399, R440: the physical clusters of a program, one for each of its logical ones, run programs. -/
def Nld.clustersOn (n : Nld) (p : Program) : Bool :=
  (List.range p.clusters).all (fun c => bitOf (n.get NReg.ARR_CTRL_cluster_en) c)

/-- A run is due: it is listed, its window is open, its clusters are enabled, and what it waits for has happened. -/
def Nld.runDue (n : Nld) (x : TickRec) (owner image kind : Nat) : Bool :=
  x.runs.contains (owner, image, kind) && n.sched.running == some owner && (n.program owner image).any n.clustersOn &&
  (if kind = 0 then x.swept else if kind = 1 then x.provReady else x.phase == .fleetSealed)

/-- RUN_COMPLETE (R448): a run of a program for a tick ends after some compute clocks. -/
def Nld.runComplete (n : Nld) (owner image t kind cycles : Nat) (faults : List ArrFault) (clocks : List (Nat × Nat)) : Nld :=
  match n.tickRec t, n.program owner image with
  | some x, some p =>
    if ¬ n.runDue x owner image kind then n
    else if kind = 1 ∧ ¬ n.provFits p x then n.provDrop t owner image
    else
      let n := n.countClusters owner p.clusters clocks
      let e : RunEnv := { n := n, p := p, t := x, kind := kind, faults := faults }
      if cycles ≥ p.budget kind then n.finishRun e 3 (p.budget kind) {} []
      else
        let (s, res) := e.run
        n.finishRun e (if s.poisoned then 2 else 0) cycles s res
  | _, _ => n

/-- SEALED_RUN_BUDGET_EXHAUSTED (R60): a sealed run is stopped at its budget. -/
def Nld.runExhausted (n : Nld) (owner image t : Nat) (clocks : List (Nat × Nat)) : Nld :=
  match n.tickRec t, n.program owner image with
  | some x, some p =>
    if ¬ n.runDue x owner image 0 then n
    else
      let n := n.countClusters owner p.clusters clocks
      n.finishRun { n := n, p := p, t := x, kind := 0, faults := [] } 3 p.budgetSealed {} []
  | _, _ => n

/-! ### The overrun check at the seal (R58, R59, R447) -/

/-- Programs in the order in which they are removed: lowest priority first, the most recently admitted first among equals. -/
def removeOrder (ps : List Program) : List Program :=
  ps.mergeSort (fun a b => decide (a.priority < b.priority) || (decide (a.priority = b.priority) && decide (b.seq ≤ a.seq)))

/-- R58, R447: the sealed runs removed until the rest fit: `over` is by how much, in 1/8 of clocks at the level, the budgets
exceed the window. -/
def removeRuns : List Program → Nat → Nat → List Program
  | [], _, _ => []
  | p :: t, sum, room => if sum * 8 ≤ room then [] else p :: removeRuns t (sum - p.budgetSealed) room

/-- R58: the programs whose sealed runs of a tick are skipped, owner by owner. -/
def Nld.overrun (n : Nld) (t : Nat) : List Program :=
  (List.range 17).flatMap (fun o =>
    let ps := n.ownersPrograms o
    let due := ps.filter (fun p => p.serves t)
    let stages := if n.isRoot ∧ n.stageLag ≤ t then ps.filter (fun p => p.fleetStage && p.serves (t - n.stageLag)) else []
    let sum := (due.map (·.budgetSealed)).foldl (· + ·) 0 + (stages.map (·.budgetFleet)).foldl (· + ·) 0
    removeRuns (removeOrder due) sum ((winOf n.sched.windows o).2.1 * (8 - n.get NReg.PWR_STATUS_level)))

/-- R58, R59: at the tray seal the tick's sealed runs are fixed, and those that do not fit are skipped. -/
def Nld.fixRuns (n : Nld) (t : Nat) : Nld :=
  let gone := (n.overrun t).map (fun p => (p.owner, p.image))
  let due := (n.sched.programs.filter (fun p => p.serves t)).map (fun p => (p.owner, p.image))
  let n := match n.tickRec t with
    | none => n
    | some x => n.setTick { x with runs := x.runs ++ ((due.filter (fun p => !gone.contains p)).map (fun p => (p.1, p.2, 0))),
                                   skipped := gone }
  if gone = [] then n else (n.count NReg.TICK_SKIP_count gone.length).raise NReg.TICK_ERR_overrun

/-- R59: the skip flags of a tick, after its sealed view: a record with status 1, a Skipped retraction, and a segment that says
so. -/
def Nld.publishSkips (n : Nld) (x : TickRec) : Nld :=
  x.skipped.foldl (fun n s =>
    let n := n.publish s.1 0 x.num (resultBody s.2 s.1 0 1 0 0 0 0 []) []
    let n := (n.countRun s.1 1).retract s.1 s.2 x.num 1
    match n.program s.1 s.2 with
    | some p => n.addTray x.num (traySegments p 2 [])
    | none => n) n

/-! ### Rounds and windows (R437 to R444, R454) -/

/-- The scheduler's owner field: 31 for none. -/
def Nld.setRunning (n : Nld) (o : Option Nat) : Nld :=
  let v := o.getD 31
  let n := { n with sched := { n.sched with running := o, used := 0 } }
  (List.range 10).foldl (fun n c => n.put NReg.CLc_STATUS_owner v c) (n.put NReg.SCHED_STATUS_owner v)

/-- R444: at a round start the programs withdrawn go, with their runs that have not ended, and what was provisional of them is
retracted. -/
def Nld.dropWithdrawn (n : Nld) : Nld :=
  let gone := n.sched.programs.filter (·.withdrawn)
  gone.foldl (fun n p =>
    let ps := n.sched.programs.filter (fun q => !(q.owner == p.owner && q.image == p.image && q.seq == p.seq))
    let ts := n.tick.ticks.map (fun (x : TickRec) =>
      { x with runs := x.runs.filter (fun r => !(r.1 == p.owner && r.2.1 == p.image)) })
    let n := { n with sched := { n.sched with programs := ps }, tick := { n.tick with ticks := ts } }
    (n.sched.provs.filter (fun v => v.owner = p.owner ∧ v.image = p.image)).foldl
      (fun n v => n.retract v.owner v.image v.tick 4) n) n

/-- R441: the fleet stages of a tick whose inputs are not complete as their round starts are skipped. -/
def Nld.skipStages (n : Nld) (t : Nat) : Nld :=
  match n.tickRec t with
  | none => n
  | some x =>
    (x.runs.filter (fun r => r.2.2 = 2)).foldl (fun n r =>
      match n.program r.1 r.2.1 with
      | none => n
      | some p =>
        if (List.range p.reductions.length).all (fun k => (n.fleetValue t p.owner p.image k).isSome) then n
        else
          let n := (n.endRun t p.owner p.image 2).raise NReg.SCHED_EVT_fleet_skip
          (n.countRun p.owner 4).publish p.owner 2 t (resultBody p.image p.owner 2 4 0 0 0 0 []) []) n

/-- ROUND_START (R437): round r begins. -/
def Nld.roundStart (n : Nld) (r : Nat) : Nld :=
  if ¬ n.bit NReg.TICK_CTRL_run ∨ n.now < n.tickAt r + (n.get NReg.TICK_L_offset_us + 16) * 1000 ∨
      (n.sched.round.map (fun k => decide (r ≤ k))).getD false then n
  else
    let n := match n.sched.committed with
      | some w => { (n.put NReg.SCHED_STATUS_pending 0) with sched := { n.sched with windows := w, committed := none } }
      | none => n
    let n := { (n.put NReg.SCHED_STATUS_round (r % 65536)) with sched := { n.sched with round := some r } }
    let n := (n.setRunning none).dropWithdrawn
    let old := n.tick.ticks.filter (fun x => decide (x.num < r))
    let n := old.foldl (fun n x => n.trySend x.num true) n
    let n := (n.tick.ticks.filter (fun x => decide (x.num < r + n.provLead))).foldl (fun n x =>
      (x.runs.filter (fun q => q.2.2 = 1)).foldl (fun n q => n.provDrop x.num q.1 q.2.1) n) n
    (if n.stageLag ≤ r then n.skipStages (r - n.stageLag) else n).retireTicks

/-- WINDOW_START (R438): an owner's window opens. -/
def Nld.windowStart (n : Nld) (o : Nat) : Nld :=
  if n.sched.round = none ∨ (winOf n.sched.windows o).2.1 = 0 then n
  else (n.setRunning (some o)).clearClusters o

/-- R438, R446, R454: the staged window table is valid and every admitted program fits it. -/
def Nld.stagedFits (n : Nld) : Bool :=
  let w := n.stagedWindows
  windowsOk w n.roundClocks &&
  (List.range 17).all (fun o =>
    let ps := n.ownersPrograms o
    ps.isEmpty || n.fitsWindow ps (winOf w o).1 (winOf w o).2.1)

/-- SCHED_TABLE_COMMIT (R454). -/
def Nld.commitWindows (n : Nld) : Nld :=
  if n.stagedFits then
    { (n.put NReg.SCHED_STATUS_pending 1) with sched := { n.sched with committed := some n.stagedWindows } }
  else n.raise NReg.SCHED_EVT_win_refused

/-- WITHDRAW (R444): a program of an owner is withdrawn from the next round start on. -/
def Nld.withdraw (n : Nld) (owner image : Nat) : Nld × Bool :=
  if (n.ownersPrograms owner).any (fun p => p.image = image) then
    ({ n with sched := { n.sched with programs := n.sched.programs.map (fun p =>
        if p.owner = owner ∧ p.image = image then { p with withdrawn := true } else p) } }, true)
  else (n, false)

end Sys2Proof.Machine
end

