-- ==== Sys2Proof/Machine/NldVote.lean ====
section
/-! DEFINITION. The defences against silent errors on Naloder (R542 to R555): votes, tallies, and self-check vectors. -/

namespace Sys2Proof.Machine

open Sys2Proof

/-! ### Vote slots (R542, R543) -/

/-- A vote slot. -/
def Nld.voteSlot (n : Nld) (key : Nat) : Option VoteSlot := Tbl.find? key n.defence.votes

/-- Replace a vote slot. -/
def Nld.setVote (n : Nld) (key : Nat) (v : VoteSlot) : Nld :=
  { n with defence := { n.defence with votes := Tbl.insert key v n.defence.votes } }

/-- The indices of the replicas of a slot that lie on this tray. -/
def Nld.localReplicas (n : Nld) (v : VoteSlot) : List Nat :=
  (v.replicas.zipIdx.filter (fun r => addrGT r.1.1 == n.name)).map (·.2)

/-- R542, R544: a slot may be written: its owner is the issuer, or *fleet* writes it; the replicas of a Pn slot are members; and
the segments still fit. -/
def Nld.voteOk (n : Nld) (issuer owner slot : Nat) (replicas : List (Nat × Nat)) : Bool :=
  decide (slot < 8) && (issuer == fleet || issuer == owner) && decide (2 ≤ replicas.length ∧ replicas.length ≤ 8) &&
  (owner == fleet || replicas.all (fun r => n.isMember owner r.1)) &&
  n.summariesOk (n.slotBytes + (if (n.voteSlot (8 * owner + slot)).isSome then 0 else 408))
    (n.sched.programs.filter (fun q => !q.withdrawn))

/-- R542: write a vote slot. -/
def Nld.writeVote (n : Nld) (owner slot : Nat) (replicas : List (Nat × Nat)) (expel : Bool) : Nld :=
  n.setVote (8 * owner + slot) { replicas := replicas, expel := expel }

/-- R542, R543: arm a round of a slot; its object is taken where the slot has local replicas. -/
def Nld.armVote (n : Nld) (owner slot epoch tick : Nat) : Nld :=
  match n.voteSlot (8 * owner + slot) with
  | none => n
  | some v =>
    let here := (n.localReplicas v).length
    let (n, obj) : Nld × Option Nat :=
      if here = 0 then (n, none)
      else
        match n.freeObject with
        | none => (n.raise NReg.RED_EVT_rdv_refused, none)
        | some k =>
          ((n.armRdv k 5 owner 0 epoch here (n.tickAt tick + n.get NReg.TICK_L_offset_us * 1000)).1, some k)
    n.setVote (8 * owner + slot)
      { v with rounds := v.rounds.filter (fun r => r.epoch ≠ epoch) ++ [{ epoch := epoch, tick := tick, obj := obj }] }

/-! ### DIGESTs (R543, R544) -/

/-- R544: the 48 bytes of a replica's entry. -/
def voteEntry (index : Nat) (m : DigestMsg) : List Byte :=
  let b := leBytes 1 1 ++ leBytes 1 index ++ leBytes 2 0 ++ leBytes 4 m.addr.toNat ++ leBytes 4 m.epoch.toNat ++
    leBytes 6 m.lines.toNat ++ leBytes 2 0 ++ leBytes 16 m.digest.toNat ++ leBytes 6 m.tick.toNat ++ leBytes 2 0
  b ++ leBytes 4 (crc32c b)

/-- A round that a DIGEST matches, before the tray seal edge of its tick. -/
def Nld.roundOpen (n : Nld) (m : DigestMsg) (r : VoteRound) : Bool :=
  r.epoch == m.epoch.toNat && decide (n.now < n.tickAt r.tick + n.get NReg.TICK_L_offset_us * 1000)

/-- The replica of a slot that sent a DIGEST. -/
def VoteSlot.replica (v : VoteSlot) (m : DigestMsg) : Option Nat :=
  (v.replicas.zipIdx.find? (fun r => r.1.1 == m.addr.toNat && r.1.2 == m.region.toNat)).map (·.2)

/-- R543: a DIGEST arrives. The first of a replica stands. -/
def Nld.digestIn (n : Nld) (m : DigestMsg) : Nld :=
  let hits := n.defence.votes.flatMap (fun e => match e.2.replica m with
    | none => []
    | some i => (e.2.rounds.filter (n.roundOpen m)).map (fun r => (e.1, i, r)))
  if hits = [] then (n.count NReg.VOTE_LATE_count).raise NReg.VOTE_EVT_late
  else hits.foldl (fun n h =>
    let (key, i, r) := h
    let n := match r.obj with
      | some k => (n.arriveRdv k r.epoch (addrPos m.addr.toNat)).1
      | none => n
    match n.voteSlot key with
    | none => n
    | some v => n.setVote key { v with rounds := v.rounds.map (fun x =>
        if x.epoch = r.epoch ∧ (Tbl.find? i x.got).isNone then { x with got := Tbl.insert i (voteEntry i m) x.got } else x) }) n

/-- R544: the segments of the rounds whose vote tick is sealed. -/
def Nld.voteSegments (n : Nld) (t : Nat) : List Segment :=
  n.defence.votes.flatMap (fun e =>
    if n.localReplicas e.2 = [] then []
    else (e.2.rounds.filter (fun r => r.tick = t)).map (fun r =>
      { owner := e.1 / 8, output := e.1 % 8, op := 7, status := 0, image := 0, contributing := 1, missing := 0,
        vals := (List.range 8).flatMap (fun i => (Tbl.get (List.replicate 48 (0 : Byte)) i r.got).map (fun b => b.toNat)) }))

/-! ### The decision (R545, R546) -/

/-- A valid entry of a merged segment: its replica, digest and lines. -/
structure Ballot where
  index : Nat
  digest : Nat
  lines : Nat
  deriving DecidableEq, Repr

/-- R545: the valid entries of the merged data. -/
def ballots (vals : List Nat) (count epoch : Nat) : List Ballot :=
  (List.range count).filterMap (fun i =>
    let b : List Byte := ((vals.drop (48 * i)).take 48).map (BitVec.ofNat 8)
    if fieldAt b 0 1 = 1 ∧ fieldAt b 44 4 = crc32c (b.take 44) ∧ fieldAt b 8 4 = epoch then
      some { index := i, digest := fieldAt b 20 16, lines := fieldAt b 12 6 }
    else none)

/-- The size of a ballot's class. -/
def classSize (bs : List Ballot) (b : Ballot) : Nat :=
  (bs.filter (fun x => decide (x.digest = b.digest ∧ x.lines = b.lines))).length

/-- How a vote ends for the valid entries: agreement or no comparison, a minority, or a tie. -/
inductive VoteEnd where
  | none
  | minority
  | tie
  deriving DecidableEq, Repr

/-- R545: the end of a vote of R replicas. -/
def voteEnd (bs : List Ballot) (r : Nat) : VoteEnd :=
  let m := (bs.map (classSize bs)).foldl max 0
  if bs.length < 2 ∨ m = bs.length then .none else if 2 * m > r then .minority else .tie

/-- R545, R546: a replica's verdicts: (kind, score, code). -/
def replicaVerdicts (bs : List Ballot) (r : Nat) (expel : Bool) (i : Nat) : List (Nat × Nat × Nat) :=
  match bs.find? (fun b => b.index = i) with
  | none => [(4, 0, 3)]
  | some b =>
    let size := classSize bs b
    match voteEnd bs r with
    | .none => []
    | .tie => [(4, size, 2)]
    | .minority => if 2 * size > r then [] else (4, size, 1) :: (if expel then [(16, size, 1)] else [])

/-- R546: the verdicts of a decided vote, in replica order. -/
def Nld.voteVerdicts (_n : Nld) (owner t : Nat) (v : VoteSlot) (bs : List Ballot) : List Verdict :=
  let r := v.replicas.length
  let all := v.replicas.zipIdx.flatMap (fun x => (replicaVerdicts bs r v.expel x.2).map (fun y => (x.1.1, x.2, y)))
  all.zipIdx.map (fun x =>
    { kind := x.1.2.2.1, fleetScope := true, index := x.2, tick := t, owner := owner, subject := x.1.1,
      score := x.1.2.2.2.1, arg0 := x.1.2.2.2.2, arg1 := x.1.2.1 })

/-- R545, R546: the home root decides a round of a slot at the fleet seal of its vote tick. -/
def Nld.decideVote (n : Nld) (t key : Nat) (v : VoteSlot) (r : VoteRound) : Nld :=
  let owner := key / 8
  let segs := (n.fleetTick t).segs
  let vals := match segs.find? (fun s => s.owner = owner ∧ s.output = key % 8 ∧ s.op = 7 ∧ s.image = 0) with
    | some s => s.vals
    | none => []
  let bs := ballots vals v.replicas.length r.epoch
  let vs := n.voteVerdicts owner t v bs
  let n := n.count NReg.VOTE_DECIDED_count
  let n := match voteEnd bs v.replicas.length with
    | .minority => n.raise NReg.VOTE_EVT_minority
    | .tie => n.raise NReg.VOTE_EVT_tie
    | .none => n
  let n := if vs.any (fun x => x.kind = 16) then n.raise NReg.VOTE_EVT_expel else n
  n.publish owner 2 t (resultBody 0 owner 2 0 vs.length 0 0 0 []) vs

/-- R545: at the fleet seal of a tick the votes of that tick are decided at their home root, and their rounds are over. -/
def Nld.decideVotes (n : Nld) (t : Nat) : Nld :=
  let due := n.defence.votes.flatMap (fun e => (e.2.rounds.filter (fun r => r.tick = t)).map (fun r => (e.1, e.2, r)))
  let n := due.foldl (fun n d => if n.homeRoot (d.1 / 8) then n.decideVote t d.1 d.2.1 d.2.2 else n) n
  let votes := n.defence.votes.map (fun e => (e.1, { e.2 with rounds := e.2.rounds.filter (fun r => decide (r.tick ≠ t)) }))
  let tallies := n.defence.tallies.filter (fun e => decide (e.2.tick ≠ t))
  { n with defence := { n.defence with votes := votes, tallies := tallies } }

/-! ### Tallies (R551) -/

/-- The identity of a tally. -/
def emptyTally : List Nat := [0, 0, 0, 0, 0, 2 ^ 64 - 1, 0, 2 ^ 64 - 1, 0]

/-- R551: arm a tally slot. -/
def Nld.armTally (n : Nld) (slot patternId tick : Nat) : Nld :=
  let s : TallySlot := { patternId := patternId, tick := tick, vals := emptyTally }
  { n with defence := { n.defence with tallies := Tbl.insert slot s n.defence.tallies } }

/-- R551: one result joins a tally. -/
def TallySlot.add (s : TallySlot) (status digest : Nat) : TallySlot :=
  let one := (List.range 5).map (fun i => if i = status then 1 else 0)
  let l0 := digest % 2 ^ 64
  let l1 := digest / 2 ^ 64
  let lanes := if status ≤ 1 then [l0, l0, l1, l1] else [2 ^ 64 - 1, 0, 2 ^ 64 - 1, 0]
  { s with vals := mergeTally s.vals (one ++ lanes) }

/-- R551: a PATTERN_RESULT arrives. -/
def Nld.patternIn (n : Nld) (m : PatternResultMsg) : Nld :=
  let fits (e : Nat × TallySlot) : Bool := e.2.patternId == m.patternId.toNat &&
    decide (n.now < n.tickAt e.2.tick + n.get NReg.TICK_L_offset_us * 1000)
  if n.defence.tallies.any fits then
    let tallies := n.defence.tallies.map (fun e => if fits e then (e.1, e.2.add m.status.toNat m.digest.toNat) else e)
    ({ n with defence := { n.defence with tallies := tallies } }).count NReg.PAT_ACCEPT_count
  else (n.count NReg.PAT_LATE_count).raise NReg.VOTE_EVT_late

/-- R551: the segments of the tally slots whose report tick is sealed. -/
def Nld.tallySegments (n : Nld) (t : Nat) : List Segment :=
  (n.defence.tallies.filter (fun e => decide (e.2.tick = t))).map (fun e =>
    { owner := fleet, output := e.1, op := 8, status := 0, image := 0, contributing := 1, missing := 0, vals := e.2.vals })

/-! ### Self-check vectors (R552, R553) -/

/-- The elements of a vector's op. -/
def Nld.vectorOutput (n : Nld) (v : CheckVector) : List TElem :=
  let src (k : Nat) : TVal := v.srcs.getD k { fmt := v.dst.1, bp := 0, cols := 1, elems := [] }
  let rows (x : TVal) : List (List TElem) := chunks (max 1 x.cols) (x.elems.length + 1) x.elems
  match v.params with
  | .gemm mode out _ =>
    ((gemm { mode := mode, fa := (src 0).fmt, fw := (src 1).fmt, out := out, acts := rows (src 0),
             actScale := (src 2).elems, weights := rows (src 1), weightScale := (src 3).elems } []).elems.flatten).map (·.1)
  | .elem op =>
    (List.range (elemCount v.srcs)).map (elemOp op v.dst.1 v.dst.2.1 [] v.srcs false)
  | .tree ensemble .. =>
    let en := n.readEnsemble fleet ensemble
    (rows (src 0)).flatMap (fun r => en.outputs (en.traverse (r.map (fun x => (x.bits, x.poison)))) 0)
  | _ => []

/-- The bytes of rows of packed elements. -/
def packRows (fmt cols : Nat) (l : List TElem) : List Byte :=
  (chunks (max 1 cols) (l.length + 1) l).flatMap (fun r => leBytes ((r.length * fmtBits fmt + 7) / 8)
    (r.zipIdx.foldl (fun a c => a + c.1.bits * 2 ^ (fmtBits fmt * c.2)) 0))

/-- R534, R552: the set digest of bytes presented as 64-byte lines. -/
def linesDigest (keys : List Nat) (bs : List Byte) : Nat :=
  let lines := (chunks 64 (bs.length + 1) bs).zipIdx
  let lane (k s : Nat) : Nat := lines.foldl (fun d l =>
    (d + laneAdd k s (lineChunks (BitVec.ofNat 512 (leNat l.1)) (BitVec.ofNat 48 (64 * l.2)))) % digestP) 0
  lane (keys.getD 0 0) (keys.getD 1 0) + 2 ^ 64 * lane (keys.getD 2 0) (keys.getD 3 0)

/-- Bytes with some of them changed by an error: (offset, exclusive or). -/
def flipBytes (bs : List Byte) (flips : List (Nat × Nat)) : List Byte :=
  flips.foldl (fun l f => l.set f.1 ((l.getD f.1 0) ^^^ BitVec.ofNat 8 f.2)) bs

/-- R552, R553: the next vector runs on its cluster. `flips` is what an error of the hardware does to its output. -/
def Nld.selfCheck (n : Nld) (flips : List (Nat × Nat)) : Nld :=
  let (c, k) := n.defence.next
  match n.defence.vectors[k]? with
  | none => n
  | some v =>
    if ¬ n.bit NReg.CHK_CTRL_enable then n
    else
      let out := flipBytes (packRows v.dst.1 v.dst.2.2 (n.vectorOutput v)) flips
      let next := if k + 1 < n.defence.vectors.length then (c, k + 1) else ((c + 1) % 10, 0)
      let n := { n with defence := { n.defence with next := next } }
      let n := n.count NReg.CHK_RUNS_count
      if linesDigest n.defence.keys out = v.digest then n
      else
        let tree := match v.params with
          | .tree .. => true
          | _ => false
        let n :=
          if n.get NReg.CHK_STATUS_cause ≠ 0 then n
          else ((n.put NReg.CHK_STATUS_cause (if tree then 2 else 1)).put NReg.CHK_STATUS_cluster c).put
            NReg.CHK_STATUS_vector k
        (n.raise NReg.CHK_EVT_fail).record 0x0008 5 [c, k]

/-- R552: an op that a vector may be. -/
def vectorOk (v : CheckVector) : Bool :=
  match v.params with
  | .gemm mode out _ =>
    modeFormats mode ((v.srcs.map (·.fmt)).getD 1 15) ((v.srcs.map (·.fmt)).getD 0 15) && outFormat out &&
      decide ((v.srcs.map (·.cols)).getD 0 0 ≤ modeLimit mode ((v.srcs.map (·.fmt)).getD 1 15) ((v.srcs.map (·.fmt)).getD 0 15))
  | .elem _ => true
  | .tree .. => true
  | _ => false

/-- VECTOR_SET (R552): install a set or refuse it. -/
def Nld.vectorSet (n : Nld) (signed : Bool) (keys : List Nat) (vs : List CheckVector) : Nld × Bool :=
  if signed ∧ vs.length ≤ 256 ∧ vs.all vectorOk ∧ keysOk (keys.getD 0 0) (keys.getD 1 0) (keys.getD 2 0) (keys.getD 3 0) then
    ({ n with defence := { n.defence with keys := keys, vectors := vs, next := (0, 0) } }, true)
  else (n.raise NReg.CHK_EVT_set_refused, false)

end Sys2Proof.Machine
end

