-- ==== Sys2Proof/Machine/NldTick.lean ====
section
/-! DEFINITION. The tick state machine of Naloder (R25 to R63, R337, R345, R346, R728): opening, the provisional point, the
seals, running and stopping. -/

namespace Sys2Proof.Machine

open Sys2Proof

/-! ### Opening (R25, R27, R29, R32, R52, R337) -/

/-- A tick is Open or Provisional. -/
def TickRec.isOpen (t : TickRec) : Bool := t.phase == .opened || t.phase == .provisional

/-- The ticks Open or Provisional. -/
def Nld.openTicks (n : Nld) : List TickRec := n.tick.ticks.filter TickRec.isOpen

/-- R64, R65: the registers that say which ticks are open. -/
def Nld.noteOpen (n : Nld) : Nld :=
  let nums := n.openTicks.map (·.num)
  let n := n.put NReg.TICK_OPEN_open_count nums.length
  match nums with
  | [] => n
  | x :: t => n.put NReg.TICK_OPEN_oldest_open (t.foldl min x % 65536)

/-- R32, R476: arm the seal objects of a tick: kind 1 at every Naloder, kinds 2 and 3 at roots. -/
def Nld.armSeals (n : Nld) (t expected : Nat) : Nld :=
  let at_ (f : Fld) : Nat := n.tickAt t + n.get f * 1000
  let n := (n.armRdv (sealObject 1 t) 1 fleet 0 t expected (at_ NReg.TICK_L_offset_us)).1
  if n.roleAt t = 0 then n
  else
    let n := (n.armRdv (sealObject 2 t) 2 fleet 1 t (popCount 32 (n.get NReg.GRP_TRAYS_trays)) (at_ NReg.TICK_G_offset_us)).1
    (n.armRdv (sealObject 3 t) 3 fleet 2 t (popCount 64 n.groups) (at_ NReg.TICK_S_offset_us)).1

/-- What the opening of a tick brings to memberships and checkpoints (R511 to R514). -/
def Nld.openJobs (n : Nld) (t : Nat) : Nld :=
  let m := (List.range 16).foldl (fun n p => n.startMembership t p) n
  let m := Nld.rewriteMembers n m
  ((List.range 16).foldl (fun n p => n.retireCheckpoint t p) m).noteMembership t

/-- Open a tick at an instant of elapsed time. -/
def Nld.openTick (n : Nld) (t at_ : Nat) : Nld :=
  let n := n.openRole t
  let x : TickRec := { num := t, openedAt := at_, expected := n.tick.members, obsv := n.tick.members.filter n.obsv }
  let keep := n.tick.ticks.filter (fun y => y.phase != .abandoned)
  let n := { n with tick := { n.tick with ticks := x :: keep, newest := some t,
                                          firstOpened := n.tick.firstOpened.or (some t) } }
  let n := (n.armSeals t x.expected.length).openJobs t
  let n := (List.range 16).foldl (fun n p =>
    let f := n.fife p
    (n.setFife p { f with gcLast := f.gcNow, gcNow := [] }).sleepTick t p) n
  ((n.put NReg.TICK_NOW_LO_tick_lo (t % 2 ^ 32)).put NReg.TICK_NOW_HI_tick_hi (t / 2 ^ 32)).noteOpen

/-- R28, R331: open a tick unless four are open. -/
def Nld.tryOpen (n : Nld) (t : Nat) : Nld :=
  if n.openTicks.length ≥ 4 then n.raise NReg.TICK_ERR_window_full else n.openTick t n.elapsed

/-- R55, R584: a record for every delivery ring. -/
def Nld.formAll (n : Nld) (d : DelivRec) : Nld := n.form (fun _ => true) d

/-- The boundary that domain 0 last reached. -/
def Nld.boundaryNow (n : Nld) : Nat := n.now / max 1 (n.periodUs * 1000)

/-- TICK_OPEN (R27, R54, R337): domain 0 has reached a boundary. -/
def Nld.tickOpen (n : Nld) : Nld :=
  if ¬ n.bit NReg.TICK_CTRL_run then n
  else
    let b := n.boundaryNow
    match n.tick.newest with
    | none => if n.tick.everLocked ∧ n.tick.crossed < b then n.tryOpen b else n
    | some m =>
      if b ≤ m then n
      else
        let n := if b = m + 1 then n else (n.formAll (skippedRec 0 (m + 1) (b - 1))).raise NReg.TICK_ERR_skip
        n.tryOpen b

/-! ### The provisional point (R45, R346) -/

/-- PROVISIONAL_POINT: T + P. -/
def Nld.provPoint (n : Nld) (t : Nat) : Nld :=
  match n.tickRec t with
  | none => n
  | some x =>
    if x.phase ≠ .opened ∨ n.now < n.tickAt t + n.get NReg.TICK_P_offset_us * 1000 then n
    else
      let due := if n.bit NReg.TICK_CTRL_prov_en then
          (n.sched.programs.filter (fun p => p.prov && !p.withdrawn && t % p.period == p.phase)).map
            (fun p => (p.owner, p.image, 1))
        else []
      n.setTick { x with phase := .provisional, provAt := some n.elapsed, runs := x.runs ++ due }

/-- PROVISIONAL_DRAIN_END: the frames that arrived before T + P are merged. -/
def Nld.provDrain (n : Nld) (t : Nat) : Nld :=
  match n.tickRec t with
  | none => n
  | some x => if x.provAt = none ∨ ¬ x.isOpen then n else n.setTick { x with provReady := true }

/-! ### The tray seal (R39, R58, R345, R356) -/

/-- TRAY_SEAL: T + L. The sealed runs are fixed and what this tray will send of votes and tallies is taken. -/
def Nld.traySeal (n : Nld) (t : Nat) : Nld :=
  match n.tickRec t with
  | none => n
  | some x =>
    if ¬ x.isOpen ∨ n.now < n.tickAt t + n.get NReg.TICK_L_offset_us * 1000 then n
    else
      let n := n.setTick { x with phase := .traySealed, sealedAt := some n.elapsed }
      let n := { n with tick := { n.tick with newestSealed := some t } }
      let n := (n.expireRdv (sealObject 1 t)).fixRuns t
      (n.addTray t (n.voteSegments t ++ n.tallySegments t)).noteOpen

/-- R39: a position's code in a sealed tick. -/
def TickRec.code (t : TickRec) (pos : Nat) : Nat :=
  if ¬ t.expected.contains pos then 3
  else if t.seen.contains pos then 0
  else if t.corrupt.contains pos then 2
  else 1

/-- SEAL_DRAIN_END (R345): every frame that arrived before the seal edge has been handled, `ns` after it: the presence map
closes and the silence detector takes its codes. -/
def Nld.sealDrain (n : Nld) (t ns : Nat) : Nld :=
  match n.tickRec t with
  | none => n
  | some x =>
    if x.sealedAt = none ∨ x.presence ≠ [] then n
    else
      let codes := (List.range 512).map x.code
      let n := n.setTick { x with presence := codes }
      let n := n.put NReg.ING_DRAIN_max_ns (max (n.get NReg.ING_DRAIN_max_ns) (min ns 65535))
      let n := if ns > 2000 then n.raise NReg.ING_EVT_drain_slow else n
      x.expected.foldl (fun n pos => n.liveCode pos (x.code pos)) n

/-! ### The sealed tray view (R40, R555, R584, R586) -/

/-- The bitmap of the series of a range that a list names, in words of 8 bytes. -/
def seriesBitmap (first count : Nat) (l : List Nat) : List Byte :=
  leBytes ((count + 63) / 64 * 8) (l.foldl (fun v s => if first ≤ s ∧ s < first + count then setBit v (s - first) else v) 0)

/-- R555: the stored values of a record still match its trailer. -/
def PosRec.checks (r : PosRec) : Bool :=
  entryCrc r.header.bytes ((List.range 1024).map (fun s => if r.marks.contains s then 0 else Tbl.get 0 s r.xhat)) == r.trailer

/-- R586: the series block of a position for a ring: 8 bytes that name it, the header, three bitmaps, the values and the
trailer. `whole`: every series is poisoned by a failed export check. -/
def seriesBlock (r : PosRec) (pos owner first count : Nat) (whole : Bool) : List Byte :=
  let range := (List.range count).map (· + first)
  let poisoned := if whole then range else r.poison ++ r.lost.filter (fun s => !r.poison.contains s)
  let withheld := range.filter (fun s => r.ownerOf s != owner)
  leBytes 4 pos ++ leBytes 4 count ++ r.header.bytes ++ seriesBitmap first count r.marks ++
  seriesBitmap first count poisoned ++ seriesBitmap first count withheld ++
  range.flatMap (fun s => leBytes 4 (if r.marks.contains s ∨ withheld.contains s then 0 else Tbl.get 0 s r.xhat)) ++
  leBytes 4 r.trailer

/-- R575: the positions a ring selects. -/
def Nld.ringPositions (n : Nld) (key : Nat) : List Nat :=
  (List.range 512).filter (fun p => bitOf (n.ctxWord key (16 + p / 32)) (p % 32))

/-- R555: a record that fails its check as it is exported. -/
def Nld.exportFail (n : Nld) (pos : Nat) : Nld :=
  let n := n.count NReg.XCHK_EXPFAIL_count
  let n := if n.bit NReg.XCHK_EVT_exp_fail then n else n.put NReg.XCHK_EVT_pos pos
  n.raise NReg.XCHK_EVT_exp_fail

/-- R586: the tray view of a sealed tick for one ring. -/
def Nld.trayView (n : Nld) (x : TickRec) (key : Nat) : Nld :=
  if ¬ (n.delivers key && n.takesView 0 key) then n
  else
    let o := fnOwner (key / 32)
    let first := n.ctxBits key 8 9 0
    let count := n.ctxBits key 8 26 16
    let blocks := if n.subscribed key 6 then
        (n.ringPositions key).filterMap (fun pos => (Tbl.find? pos x.pos).map (fun r => (pos, r)))
      else []
    let bad := blocks.filter (fun b => !b.2.checks)
    let results := if n.subscribed key 5 then
        (x.runs.filter (fun r => decide (r.1 = o ∧ r.2.2 = 0))).length + (x.skipped.filter (fun s => decide (s.1 = o))).length
      else 0
    let n := bad.foldl (fun n b => n.exportFail b.1) n
    n.formOn key (sealedView x.num 0 n.name x.counts [x.dups, x.crcs, x.unexps, x.earlies] results blocks.length
      (mapBytes x.presence ++ blocks.flatMap (fun b => seriesBlock b.2 b.1 o first count (bad.any (fun y => y.1 == b.1)))))

/-- SEAL_SWEEP_END (R356): the sweep is complete, `ns` after the drain: the sealed view goes out, the skip flags follow it,
and the sealed runs may start. -/
def Nld.sealSweep (n : Nld) (t ns : Nat) : Nld :=
  match n.tickRec t with
  | none => n
  | some x =>
    if x.presence = [] ∨ x.swept then n
    else
      let n := (n.sweep x).setTick { x with swept := true }
      let n := n.put NReg.SER_STATUS_sweep_ns (min ns 65535)
      let n := if ns > 14000 then n.raise NReg.SER_EVT_sweep_late else n
      let n := n.ringKeys.foldl (fun n key => n.trayView x key) n
      ((n.publishSkips x).trySend t false).retireTicks

/-! ### Group and fleet seals (R41, R42) -/

/-- GROUP_SEAL: T + G. -/
def Nld.groupSeal (n : Nld) (t : Nat) : Nld :=
  match n.tickRec t with
  | none => n
  | some x =>
    if x.phase ≠ .traySealed ∨ n.now < n.tickAt t + n.get NReg.TICK_G_offset_us * 1000 then n
    else
      let n := n.setTick { x with phase := .groupSealed }
      if n.roleAt t = 0 then n else n.sealGroup t

/-- FLEET_SEAL: T + S. A root's votes are decided and its fleet stages of the tick become due. -/
def Nld.fleetSeal (n : Nld) (t : Nat) : Nld :=
  match n.tickRec t with
  | none => n
  | some x =>
    if x.phase ≠ .groupSealed ∨ n.now < n.tickAt t + n.get NReg.TICK_S_offset_us * 1000 then n
    else
      let stages := if n.roleAt t = 0 then []
        else (n.sched.programs.filter (fun p => p.fleetStage && p.serves t)).map (fun p => (p.owner, p.image, 2))
      let n := n.setTick { x with phase := .fleetSealed, runs := x.runs ++ stages }
      let n := if n.roleAt t = 0 then n else n.sealFleet t
      (n.decideVotes t).retireTicks

/-! ### Running and stopping (R28, R54, R55, R57, R61 to R63, R319, R455) -/

/-- R28, R57: the set points are in range. -/
def Nld.setPointsOk (n : Nld) : Bool :=
  let t := n.periodUs
  let p := n.get NReg.TICK_P_offset_us
  let l := n.get NReg.TICK_L_offset_us
  let g := n.get NReg.TICK_G_offset_us
  let s := n.get NReg.TICK_S_offset_us
  decide (100 ≤ t ∧ t ≤ 10000) && decide (5 ≤ p ∧ p + 10 ≤ l) && decide (l ≤ 4 * t) &&
  decide (l + 100 ≤ g ∧ g + 300 ≤ s) && decide (s ≤ 16 * t)

/-- R55: the open ticks are abandoned: retractions, then a tick-skipped record for each. -/
def Nld.abandon (n : Nld) : Nld :=
  let gone := n.openTicks
  let ticks := n.tick.ticks.map (fun (x : TickRec) =>
    if x.isOpen then { x with phase := .abandoned, droppedAt := some n.pkg.elapsed, runs := [] } else x)
  let n := { n with tick := { n.tick with ticks := ticks } }
  (gone.reverse.foldl (fun (n : Nld) (x : TickRec) =>
    (n.retractTick x.num 2).formAll (skippedRec 1 x.num x.num)) n).noteOpen

/-- NLD_TICK_RUN: a write of run. -/
def Nld.tickRun (n : Nld) (v : Bool) : Nld :=
  if v = n.bit NReg.TICK_CTRL_run then n
  else if ¬ v then (n.put NReg.TICK_CTRL_run 0).abandon
  else if n.setPointsOk ∧ windowsOk n.sched.windows n.roundClocks ∧ n.bit NReg.BOOT_STATUS_compute_on then
    let n := n.put NReg.TICK_CTRL_run 1
    { n with tick := { n.tick with newest := none, crossed := n.boundaryNow }, sched := { n.sched with round := none } }
  else n.raise NReg.TICK_ERR_cfg_refused

/-- A set point's register: 0 the period, 1 to 4 P, L, G and S. -/
def setPoint (i : Nat) : Fld :=
  if i = 0 then NReg.TICK_PERIOD_period_us else if i = 1 then NReg.TICK_P_offset_us
  else if i = 2 then NReg.TICK_L_offset_us else if i = 3 then NReg.TICK_G_offset_us else NReg.TICK_S_offset_us

/-- TICK_SETPOINT_WRITE (R62, R63). -/
def Nld.writeSetPoint (n : Nld) (i v : Nat) : Nld :=
  if n.bit NReg.TICK_CTRL_run then n.raise NReg.TICK_ERR_cfg_refused else n.put (setPoint i) v

/-! ### Frames (R30, R33 to R38, R341 to R344, R347 to R352, R728) -/

/-- R344: a tick was Open or Provisional at an instant of elapsed time. -/
def TickRec.takes (t : TickRec) (at_ : Nat) : Bool :=
  decide (t.openedAt ≤ at_) && (t.sealedAt.all (fun s => decide (at_ < s))) && (t.droppedAt.all (fun s => decide (at_ < s)))

/-- R238: a ratio record accepts a ratio. -/
def ratioAccepts (rec_ ratio : Nat) : Bool := rec_ == 2 || rec_ == ratio

/-- R257: a decode failure: the frame counts as one whose entry CRC fails, and by its cause. -/
def Nld.decodeFail (n : Nld) (p : Nat) (bs : List Byte) (cause : Nat) : Nld :=
  let n := n.count NReg.TICK_CRCFAIL_count
  if cause = 0 then n
  else
    let n := n.count NReg.CODEC_DECCNT_count
    let n := if n.bit NReg.CODEC_DECSTAT_err then n
      else (n.put NReg.CODEC_DECSTAT_cause cause).put NReg.CODEC_DECSTAT_pos (32 * p + (frameHeader bs).addr % 32)
    n.raise NReg.CODEC_DECSTAT_err

/-- R343: the magic, version and reserved-field checks alone. -/
def headerNames (h : FrameHeader) : Bool :=
  h.magic == 0x4B46 && h.version == 1 && h.resv3 == 0 && decide (h.addr < 2 ^ 20) && decide (h.period < 2 ^ 14) &&
  decide (h.partMask < 2 ^ 17) && decide (h.flags < 64)

/-- R343: a frame that failed step 1, 2 or 3 marks its position corrupt in a tick that still takes frames. -/
def Nld.noteCorrupt (n : Nld) (p : Nat) (bs : List Byte) (at_ : Nat) : Nld :=
  let h := frameHeader bs
  let pos := addrPos h.addr
  match n.tickRec h.tick with
  | none => n
  | some x =>
    let n := if headerNames h ∧ x.takes at_ then n.setTick { x with crcs := x.crcs + 1 } else n
    match n.tickRec h.tick with
    | none => n
    | some x =>
      if headerNames h ∧ x.takes at_ ∧ addrGT h.addr = n.name ∧ pos / 32 = p ∧ x.expected.contains pos then
        n.setTick { x with corrupt := if x.corrupt.contains pos then x.corrupt else x.corrupt ++ [pos] }
      else n

/-- R30: a frame that has passed steps 1 to 5 opens the tick after the newest, if there is room. -/
def Nld.openEarly (n : Nld) (t at_ : Nat) : Nld :=
  if n.bit NReg.TICK_CTRL_run ∧ n.tick.newest.map (· + 1) = some t ∧ n.openTicks.length < 4 then n.openTick t at_ else n

/-- R36, R40, R728: a late frame. -/
def Nld.lateFrame (n : Nld) (addr t : Nat) : Nld :=
  (n.count NReg.TICK_LATE_count).form (fun key => n.ringType key == 3 && n.subscribed key 9 && ringOf fleet key)
    { type := 11, tick := t, body := leBytes 4 addr }

/-- R30, R728: an early frame of a tick too far ahead. -/
def Nld.earlyFrame (n : Nld) : Nld := (n.count NReg.TICK_EARLY_count).raise NReg.TICK_ERR_early_frame

/-- R728: a frame whose tick does not take it. -/
def Nld.refuseFrame (n : Nld) (addr t : Nat) : Nld :=
  match n.tick.newest with
  | none => n.count NReg.TICK_EARLY_count
  | some m =>
    if ¬ n.bit NReg.TICK_CTRL_run then n.count NReg.TICK_EARLY_count
    else if t ≤ m then n.lateFrame addr t
    else n.earlyFrame

/-- R47, R347, R351: merge a frame into its tick. -/
def Nld.mergeFrame (n : Nld) (x : TickRec) (pos at_ : Nat) (d : DecodedFrame) : Nld :=
  let h := d.header
  let m := n.ownMap pos
  let mis := n.bit NReg.ING_CTRL_own_check && ownerSet m.owners != h.partMask
  let marks := (d.marks.zipIdx.filter (·.1)).map (·.2)
  let xhat := d.xhat.zipIdx.foldl (fun t v => Tbl.set 0 v.2 v.1 t) []
  let r : PosRec :=
    { header := h, trailer := d.trailer,
      arrival := ((n.now + at_ : Nat) : Int) - ((n.elapsed + n.tickAt x.num : Nat) : Int),
      marks := marks, poison := marks, xhat := xhat, owners := m.owners, fleetOnly := mis }
  let before := x.provAt.all (fun s => decide (at_ < s))
  let n := n.setTick { x with seen := x.seen ++ [pos], pos := Tbl.insert pos r x.pos,
                              arrived := if before then x.arrived ++ [pos] else x.arrived }
  let n := (n.arriveRdv (sealObject 1 x.num) x.num pos).1
  let n := n.count NReg.ING_MERGED_count
  let n := if h.span > 1 then n.count NReg.ING_SPAN_count else n
  let n := if bitOf h.flags 3 then n.count NReg.ING_POISONED_count else n
  if mis then (n.count NReg.ING_OWNMIS_count).raise NReg.ING_EVT_own_mismatch else n

/-- Steps 6 to 9 of R342, for a frame from a position. -/
def Nld.frameTick (n : Nld) (pos at_ : Nat) (d : DecodedFrame) : Nld :=
  let h := d.header
  let n := match n.tickRec h.tick with
    | some _ => n
    | none => n.openEarly h.tick at_
  match n.tickRec h.tick with
  | some x =>
    if ¬ x.takes at_ then n.refuseFrame h.addr h.tick
    else if ¬ x.expected.contains pos then
      ((n.setTick { x with unexps := x.unexps + 1 }).count NReg.TICK_UNEXP_count).join pos
    else if x.seen.contains pos then (n.setTick { x with dups := x.dups + 1 }).count NReg.TICK_DUP_count
    else n.mergeFrame x pos at_ d
  | none => n.refuseFrame h.addr h.tick

/-- FRAME (R342): a frame taken whole at port p, its last flit accepted `lag` ns before it is handled. -/
def Nld.frameIn (n : Nld) (p : Nat) (bs : List Byte) (poisoned : Bool) (lag : Nat) : Nld :=
  let at_ := n.elapsed - lag
  let h := frameHeader bs
  let pos := 32 * p + addrN h.addr
  let accepts := ratioAccepts (n.entryOf pos).ratio
  if poisoned then ((n.count NReg.TICK_CRCFAIL_count).raise NReg.ING_EVT_in_poison).noteCorrupt p bs at_
  else
    match decodeFrame accepts n.codeLens bs with
    | .error c => (n.decodeFail p bs c).noteCorrupt p bs at_
    | .ok d =>
      if addrGT h.addr ≠ n.name ∨ addrP h.addr ≠ p ∨ ¬ (n.entryOf pos).valid then
        (n.count NReg.ING_ADDRMIS_count).raise NReg.ING_EVT_addr_mismatch
      else
        let n := (n.frameSeen pos).ownFrame pos (bitOf h.flags 1) at_
        if h.period ≠ n.periodUs then (n.count NReg.ING_PERMIS_count).raise NReg.ING_EVT_per_mismatch
        else n.frameTick pos at_ d

end Sys2Proof.Machine
end

