-- ==== Sys2Proof/Machine/NldHost.lean ====
section
/-! DEFINITION. The host queue engine's commands (R562 to R588): contexts, polls and fetches, ring commands, the content-tap and
bulk codec rings, resets of a function, read errors. -/

namespace Sys2Proof

/-- The key of the ring a descriptor came by. -/
def DescHdr.key (h : DescHdr) : Nat := Machine.ringKey h.fn.val h.ring.val

/-- R562: the owner that a descriptor acts for. -/
def DescHdr.owner (h : DescHdr) : Nat := Machine.fnOwner h.fn.val

end Sys2Proof

namespace Sys2Proof.Machine

open Sys2Proof

/-! ### Contexts (R575, R576) -/

/-- The MSI-X vectors of a function (R561). -/
def fnVectors (fn : Nat) : Nat := if fn = 0 then 64 else 8

/-- R575: some word of a range of a context is not zero. -/
def Nld.ctxSome (n : Nld) (key first last : Nat) : Bool :=
  (List.range (last + 1 - first)).any (fun i => n.ctxWord key (first + i) != 0)

/-- R575, R576: the check of a ring's context. Fields that do not apply to its type must be 0. -/
def Nld.contextOk (n : Nld) (key : Nat) : Bool :=
  let t := n.ringType key
  let slots := n.ctxBits key 0 12 8
  let sub := n.ctxBits key 7 15 0
  let base := decide (1 ≤ t ∧ t ≤ 5) && decide (4 ≤ slots ∧ slots ≤ 16) && decide (n.ctxBits key 0 23 16 < fnVectors (key / 32)) &&
    decide (n.ctxBits key 1 15 0 ≤ 1000) && n.ctxWord key 2 % 4096 == 0 && n.ctxWord key 4 % 4096 == 0 &&
    !n.ctxSome key 9 15
  let area := decide (n.ctxBits key 1 31 16 ≤ 256) && decide (16 ≤ n.ctxWord key 6 ∧ n.ctxWord key 6 ≤ 30)
  if t = 2 then
    let first := n.ctxBits key 8 9 0
    let count := n.ctxBits key 8 26 16
    base && area && !bitOf sub 9 && (!bitOf sub 6 || decide (1 ≤ count ∧ first + count ≤ 1024))
  else if t = 3 then
    base && area && sub / 16 % 32 == 0 && n.ctxWord key 8 == 0 && !n.ctxSome key 16 31
  else base && n.ctxBits key 1 31 16 == 0 && !n.ctxSome key 6 8 && !n.ctxSome key 16 31

/-- R591: NLD_HQ_RINGSTAT and the refused bit of NLD_HQ_RINGCMD, of a function. -/
def Nld.setStat (n : Nld) (fn ring : Nat) (on : Bool) : Nld :=
  let x := hqField NReg.HQ_RINGSTAT_enabled NReg.VHQ_RINGSTAT_enabled fn
  let v := n.get x.1 x.2
  n.put x.1 (if on then setBit v ring else v - (v &&& 2 ^ ring)) x.2

/-- Set the refused bit of NLD_HQ_RINGCMD. -/
def Nld.setRefused (n : Nld) (fn : Nat) (v : Bool) : Nld :=
  let x := hqField NReg.HQ_RINGCMD_refused NReg.VHQ_RINGCMD_refused fn
  n.put x.1 v.toNat x.2

/-- RING_ENABLE (R576): a ring that is not enabled is checked, and started with its indices at 0. One in error must be disabled
first. -/
def Nld.ringEnable (n : Nld) (fn ring : Nat) : Nld :=
  let key := ringKey fn ring
  if ring ≥ ringCount fn ∨ (n.ring key).enabled then n
  else if n.contextOk key then
    (((n.setRing key { enabled := true, restarted := (n.ring key).restarted }).setStat fn ring true).setRefused fn false).writeStatus
      key
  else n.setRefused fn true

/-- RING_DISABLE (R576): fetching stops, what executes will complete, and records not yet written are discarded. -/
def Nld.ringDisable (n : Nld) (fn ring : Nat) : Nld :=
  let key := ringKey fn ring
  if ring ≥ ringCount fn ∨ ¬ (n.ring key).enabled then n
  else
    ((n.setRing key { n.ring key with enabled := false, error := 0, formed := [], overflow := [], loss := none }).setStat fn ring
      false).writeStatus key

/-! ### Fetching (R569, R572, R574, R633) -/

/-- R577, R579, R580: the opcodes of a ring type. -/
def opcodeKnown (type op : Nat) : Bool :=
  if type = 1 then decide (1 ≤ op ∧ op ≤ 0x11) else if type = 4 then op == 1 else if type = 5 then decide (1 ≤ op ∧ op ≤ 3)
  else false

/-- R326: the content-tap staging region, and what it holds, in bytes. -/
def stagingBytes : Nat := 256 * 2 ^ 20

/-- The bytes in content-tap staging. -/
def Nld.stagedBytes (n : Nld) : Nat := (n.host.staged.map (fun q => 8 * q.words.length)).foldl (· + ·) 0

/-- R574, R579, R633, R645: a submission ring may fetch one more descriptor. -/
def Nld.mayFetch (n : Nld) (key : Nat) : Bool :=
  let r := n.ring key
  let t := n.ringType key
  n.ringRuns key && (t == 1 || t == 4 || t == 5) && decide (r.subCons < r.subProd) &&
  decide (r.compProd - r.compCons + r.held.length < n.ringSlots key) &&
  (t != 1 || (n.fwRuns && !n.fw.holding && decide (r.held.length < 16))) &&
  (t != 4 || decide (n.stagedBytes < stagingBytes))

/-- R578: descriptors of unknown opcodes at the head of a command ring complete with status 3 (`k` bounds them). -/
def Nld.flushUnknown (key : Nat) : Nat → Nld → Nld
  | 0, n => n
  | k + 1, n =>
    match (n.ring key).held.find? (fun d => d.phase = none) with
    | some d => if opcodeKnown (n.ringType key) d.opcode then n else Nld.flushUnknown key k (n.complete key d.slot 3 0 0 [])
    | none => n

/-- R572: fetch the next descriptor of a ring: by its generation it is taken, looked for again, or an error. The second result
says that the fetch may go on. -/
def Nld.fetchOne (n : Nld) (key : Nat) (d : FetchedDesc) : Nld × Bool :=
  if ¬ n.mayFetch key then (n, false)
  else
    let r := n.ring key
    let slot := r.subCons % n.ringSlots key
    let last := Tbl.get 0 slot r.lastGen
    if d.gen.toNat = last % 65535 + 1 then
      let h : HeldDesc := { slot := slot, gen := d.gen.toNat, tag := d.tag.toNat, irq := d.irq, opcode := d.opcode.toNat }
      let n := n.setRing key { r with lastGen := Tbl.set 0 slot d.gen.toNat r.lastGen, subCons := r.subCons + 1, retries := 0,
                                      held := r.held ++ [h] }
      ((Nld.flushUnknown key 16 n).writeStatus key, true)
    else if d.gen.toNat = last then
      if r.retries + 1 ≥ 8 then (n.ringError key 1, false) else (n.setRing key { r with retries := r.retries + 1 }, false)
    else (n.ringError key 2, false)

/-- Fetch descriptors while the ring takes them; what is left of them. -/
def Nld.fetchRun (key : Nat) : List FetchedDesc → Nld → Nld
  | [], n => n
  | d :: t, n =>
    match n.fetchOne key d with
    | (n, true) => Nld.fetchRun key t n
    | (n, false) => n

/-- A free-running index moves to what a 32-bit word says. -/
def indexTo (old w : Nat) : Nat := old + (w + 2 ^ 32 - old % 2 ^ 32) % 2 ^ 32

/-- R568, R576: the index words of a ring; a data_cons beyond data_prod is an error. -/
def Nld.takeIndices (n : Nld) (fn : Nat) (p : RingPoll) : Nld :=
  let key := ringKey fn p.ring.val
  if ¬ n.ringRuns key then n
  else
    let r := n.ring key
    let n := n.setRing key { r with subProd := indexTo r.subProd p.subProd.toNat, compCons := indexTo r.compCons p.compCons.toNat,
                                    dataCons := indexTo r.dataCons p.dataCons.toNat }
    if n.delivers key ∧ (n.ring key).dataProd < (n.ring key).dataCons then n.ringError key 4 else n

/-- R234: the priority of a requester in registers of sixteen two-bit fields that begin at an address. -/
def prioAt (n : Nld) (base i : Nat) : Nat := Tbl.get 0 ((base + 4 * (i / 16)) * 32 + 2 * (i % 16)) n.regs

/-- NLD_ARB_FETCHg (R234). -/
def fetchPrio (n : Nld) (i : Nat) : Nat := prioAt n 0x40040 i

/-- NLD_ARB_BULKg (R234). -/
def bulkPrio (n : Nld) (i : Nat) : Nat := prioAt n 0x200110 i

/-- R569: the fetch requests that a poll leads to, granted by the fetch arbiter: a request moves at most 16 descriptors of one
ring. -/
def Nld.fetchAll : Nat → List (Nat × List FetchedDesc) → Nld → Nld
  | 0, _, n => n
  | k + 1, work, n =>
    let req (i : Nat) : Bool := work.any (fun w => w.1 / 32 == i && !w.2.isEmpty && n.mayFetch w.1)
    match arbitrate 17 (fetchPrio n) req n.host.fetchRr with
    | none => n
    | some (i, rr) =>
      let n := { n with host := { n.host with fetchRr := rr } }
      match work.find? (fun w => w.1 / 32 == i && !w.2.isEmpty && n.mayFetch w.1) with
      | none => n
      | some w =>
        let took := (Nld.fetchRun w.1 (w.2.take 16) n)
        Nld.fetchAll k (work.map (fun x => if x.1 = w.1 then (x.1, if (took.ring w.1).subCons = (n.ring w.1).subCons + 16
          then x.2.drop 16 else []) else x)) took

/-- DOORBELL_POLL (R569). -/
def Nld.poll (n : Nld) (fs : List FnPoll) : Nld :=
  let n := fs.foldl (fun n f => f.rings.foldl (fun n p => n.takeIndices f.fn.val p) n) n
  let work := fs.flatMap (fun f => f.rings.map (fun p => (ringKey f.fn.val p.ring.val, p.descs)))
  Nld.fetchAll ((work.map (fun w => w.2.length + 1)).foldl (· + ·) 0) work n

/-! ### What a descriptor's own command finds -/

/-- The descriptor is fetched and waits, with none of its ring fetched before it that has not begun (R577: slot order). -/
def Nld.isNext (n : Nld) (h : DescHdr) : Bool :=
  match (n.ring h.key).held.find? (fun d => d.phase = none) with
  | some d => d.slot == h.slot && d.gen == h.gen.toNat
  | none => false

/-- The descriptor is held. -/
def Nld.holds (n : Nld) (h : DescHdr) : Bool :=
  (n.ring h.key).held.any (fun d => d.slot = h.slot ∧ d.gen = h.gen.toNat)

/-- A command that names a descriptor no poll has fetched stands for the poll that does: the host has posted it in the next
slot. -/
def Nld.present (n : Nld) (h : DescHdr) (opcode : Nat) : Nld :=
  let r := n.ring h.key
  if n.holds h ∨ r.subCons % n.ringSlots h.key ≠ h.slot then n
  else
    let n := if n.ringRuns h.key then n.setRing h.key { r with subProd := max r.subProd (r.subCons + 1) } else n
    (n.fetchOne h.key { opcode := BitVec.ofNat 8 opcode, gen := h.gen, tag := h.tag, irq := h.irq }).1

/-- The image that runs. -/
def Nld.image (n : Nld) : Option FwImage := Tbl.find? (n.get NReg.FW_STATUS_slot) n.fw.images

/-- R634, R635: firmware writes a state copy, under the schema of its image. -/
def Nld.commitCopy (n : Nld) : Nld :=
  { n with fw := { n.fw with copySeq := n.fw.copySeq + 1, copySchema := (n.image.map (·.schema)).orElse (fun _ => n.fw.copySchema) } }

/-- R562, R577, R633: run a command ring's descriptor: firmware executes the oldest it holds. -/
def Nld.onDesc (n : Nld) (h : DescHdr) (opcode : Nat) (f : Nld → Nld) : Nld :=
  let n := n.present h opcode
  if n.ringType h.key = 1 ∧ n.isNext h ∧ n.fwRuns ∧ ¬ n.fw.holding then Nld.flushUnknown h.key 16 (f n).commitCopy else n

/-- A descriptor completes. -/
def Nld.done (n : Nld) (h : DescHdr) (status : Nat) (detail : Nat := 0) (result : List Byte := []) (flags : Nat := 0) : Nld :=
  n.complete h.key h.slot status flags detail result

/-- R578: refused with the detail code of an opcode. -/
def Nld.refuse (n : Nld) (h : DescHdr) (opcode : Nat) : Nld := n.done h 1 (Config.refusalDetail opcode % 65536)

/-- R635: the journal entry of a command that waits for answers. -/
def Nld.journal (n : Nld) (h : DescHdr) (ids : List Nat) : Nld :=
  let r := n.ring h.key
  n.setRing h.key { r with held := r.held.map (fun d => if d.slot = h.slot then { d with phase := some 0, ids := ids } else d) }

/-! ### Content taps (R431, R579) -/

/-- R579: the owner of a content tap. -/
def Nld.tapOwner (n : Nld) (tap : Nat) : Nat := Tbl.get fleet tap n.host.taps

/-- A descriptor of a content-tap or bulk codec ring: the queue engine takes it without firmware. -/
def Nld.onDevice (n : Nld) (h : DescHdr) (type opcode : Nat) (f : Nld → Nld) : Nld :=
  let n := n.present h opcode
  if n.ringType h.key = type ∧ n.isNext h then Nld.flushUnknown h.key 16 (f n) else n

/-- The 64-bit words of a sequence, zero padded. -/
def words64 (bs : List Byte) : List Nat := (chunks 8 (bs.length / 8 + 1) bs).map leNat

/-- R431, R579: a sequence is staged. -/
def Nld.stage (n : Nld) (tap seq status : Nat) (bytes : List Byte) : Nld :=
  let q : StagedSeq := { tap := tap, seq := seq, status := status, at_ := n.now, order := n.host.tapCount,
                         words := words64 bytes }
  { n with host := { n.host with staged := n.host.staged ++ [q], tapCount := n.host.tapCount + 1 } }

/-- CONTENT_TAP_SUBMIT (R579): a length outside 1 to 65,536 is malformed. -/
def Nld.tapSubmit (n : Nld) (h : DescHdr) (tap seq : Nat) (bytes : List Byte) : Nld :=
  n.onDevice h 4 1 (fun n =>
    if n.tapOwner tap ≠ h.owner then n.done h 2
    else if bytes.length = 0 ∨ bytes.length > 65536 then n.done h 3
    else (n.stage tap seq 0 bytes).done h 0)

/-- R431: some binding of an admitted program has taken a sequence. -/
def Nld.tapTaken (n : Nld) (q : StagedSeq) : Bool :=
  n.sched.programs.any (fun p => p.bindings.zipIdx.any (fun b => match b.1 with
    | .tap _ tap _ _ => decide (tap = q.tap) && decide (q.order < p.taken.getD b.2 0)
    | _ => false))

/-- TAP_SEQUENCE_EXPIRY (R579): a sequence that no binding has taken is discarded, and counted for the owner of its tap. -/
def Nld.tapExpire (n : Nld) (order : Nat) : Nld :=
  match n.host.staged.find? (fun q => q.order = order) with
  | none => n
  | some q =>
    if n.tapTaken q then n
    else
      let n := { n with host := { n.host with staged := n.host.staged.filter (fun x => x.order ≠ order) } }
      n.hqCount NReg.HQ_TAPDROP_count NReg.VHQ_TAPDROP_count (ownerFn (n.tapOwner q.tap))

/-! ### Bulk jobs (R259 to R266, R580) -/

/-- What lane l runs. -/
def Nld.lane (n : Nld) (l : Nat) : List BulkJob := Tbl.get [] l n.host.lanes

/-- Replace a lane. -/
def Nld.setLane (n : Nld) (l : Nat) (js : List BulkJob) : Nld :=
  let n := { n with host := { n.host with lanes := Tbl.set [] l js n.host.lanes } }
  let busy := (if (n.lane 0).isEmpty then 0 else 1) + (if (n.lane 1).isEmpty then 0 else 2)
  n.put NReg.BULK_STATUS_busy busy

/-- R234, R266: an enabled lane that is free takes the next job; the dispatch arbiter chooses among the functions, and each
function's jobs keep their order. -/
def Nld.dispatch (l : Nat) (n : Nld) : Nld :=
  if ¬ bitOf (n.get NReg.BULK_CTRL_lane_en) l ∨ ¬ (n.lane l).isEmpty then n
  else
    match arbitrate 17 (bulkPrio n) (fun i => n.host.waiting.any (fun j => j.fn = i)) n.host.bulkRr with
    | none => n
    | some (i, rr) =>
      match n.host.waiting.find? (fun j => j.fn = i) with
      | none => n
      | some j =>
        let n := { n with host := { n.host with bulkRr := rr, waiting := n.host.waiting.erase j } }
        n.setLane l [j]

/-- Both lanes look for a job. -/
def Nld.dispatchAll (n : Nld) : Nld := Nld.dispatch 1 (Nld.dispatch 0 n)

/-- BULK_COMPRESS and BULK_DECOMPRESS (R580): a job joins the queue of its ring. -/
def Nld.bulkSubmit (n : Nld) (h : DescHdr) (decompress : Bool) (o : BulkOperands) : Nld :=
  n.onDevice h 5 (if decompress then 2 else 1) (fun n =>
    match (n.ring h.key).held.find? (fun d => d.slot = h.slot) with
    | none => n
    | some d =>
      let j : BulkJob := { fn := h.fn.val, ring := h.ring.val, hdr := d, decompress := decompress, cont := o.cont,
                           input := o.input, poisonAt := o.poisonAt, dst := o.dst, origLen := o.origLen, dstLen := o.dstLen,
                           crcState := o.crcState.toNat, table := o.table.val, gen := o.gen.toNat }
      (({ n.journal h [] with host := { (n.journal h []).host with waiting := n.host.waiting ++ [j] } }).dispatchAll))

/-- What a ring keeps of the stream its parts belong to: 0 the input consumed, 1 the output made, 2 the original length, 3 and
4 the table and its generation. -/
def Nld.stream (n : Nld) (key k : Nat) : Nat := Tbl.get 0 (8 * key + k) n.host.streams

/-- Keep it. -/
def Nld.setStream (n : Nld) (key : Nat) (vs : List Nat) : Nld :=
  { n with host := { n.host with streams := vs.zipIdx.foldl (fun t v => Tbl.set 0 (8 * key + v.2) v.1 t) n.host.streams } }

/-- R261: run a compress job; the result and the stream's new state. -/
def Nld.runCompress (n : Nld) (j : BulkJob) : BulkResult × List Nat :=
  let key := ringKey j.fn j.ring
  let before := if j.cont then n.stream key 0 else 0
  match n.codeLens j.table j.gen with
  | none => ({ status := 5, consumed := 0, bytes := [], crc := j.crcState }, [before])
  | some lens =>
    let r := compressPart lens j.table j.gen j.origLen before j.cont j.crcState j.dstLen j.poisonAt j.input
    (r, [before + r.consumed])

/-- R262: run a decompress job; `origLen` of the job is its out_limit. -/
def Nld.runDecompress (n : Nld) (j : BulkJob) : BulkResult × List Nat :=
  let key := ringKey j.fn j.ring
  let fail (s : Nat) : BulkResult := { status := s, consumed := 0, bytes := [], crc := j.crcState }
  let go (table gen orig made crc skip : Nat) : BulkResult × List Nat :=
    match n.codeLens table gen with
    | none => (fail 5, [])
    | some lens =>
      let r := decompressBlocks lens orig j.origLen j.dstLen (j.poisonAt.map (· - skip)) (j.input.length + 1)
        (j.input.drop skip) made { status := 0, consumed := 0, bytes := [], crc := crc }
      ({ r with consumed := r.consumed + skip }, [0, made + r.bytes.length, orig, table, gen])
  if j.cont then go (n.stream key 3) (n.stream key 4) (n.stream key 2) (n.stream key 1) j.crcState 0
  else if j.poisonAt.any (fun a => decide (a < 16)) then (fail 6, [])
  else
    match readStream j.input with
    | none => (fail 3, [])
    | some (table, gen, orig) =>
      if orig > j.origLen then (fail 2, []) else go table gen orig 0 crcStart 16

/-- R263, R580: the result bytes of a bulk job. -/
def bulkResultBytes (r : BulkResult) : List Byte := leBytes 8 r.consumed ++ leBytes 4 r.bytes.length ++ leBytes 4 r.crc

/-- BULK_JOB_COMPLETE (R263, R266): the job of a lane ends, its completion is written, and the lane takes the next. -/
def Nld.bulkComplete (n : Nld) (l : Nat) : Nld :=
  match n.lane l with
  | [] => n
  | j :: rest =>
    let key := ringKey j.fn j.ring
    let (r, st) := if j.decompress then n.runDecompress j else n.runCompress j
    let n := n.setLane l rest
    let n := n.setStream key st
    let n := if r.bytes.isEmpty then n else n.emit (.buffer j.dst r.bytes)
    let n := if r.status ≤ 1 then n else n.count NReg.BULK_STATUS_failed
    (n.complete key j.hdr.slot r.status 0 0 (bulkResultBytes r)).dispatchAll

/-- BULK_LANE_ENABLE (R266). -/
def Nld.laneEnable (n : Nld) (v : Nat) : Nld := (n.put NReg.BULK_CTRL_lane_en v).dispatchAll

/-- HISTORY_READ (R366, R580): an SF64 value and a status byte to each tick. -/
def Nld.historyJob (n : Nld) (h : DescHdr) (ctx first count dst dstLen : Nat) : Nld :=
  n.onDevice h 5 3 (fun n =>
    if ctx ≥ 262144 ∨ count = 0 ∨ count > 65536 then n.done h 3
    else
      let c := Tbl.get ({} : SerCtx) ctx n.series.ctx
      if c.owner ≠ h.owner then n.done h 2
      else
        let (tier, vals) := n.historyRead ctx first count c.bp
        let bytes := (vals.flatMap (fun v => leBytes 8 v.bits ++ leBytes 1 v.status)).take (dstLen / 9 * 9)
        let n := if bytes.isEmpty then n else n.emit (.buffer dst bytes)
        n.done h (if bytes.length < 9 * count then 1 else 0) 0 (leBytes 8 tier ++ leBytes 4 bytes.length ++ leBytes 4 0))

/-! ### Resets and errors (R565, R566, R588, R692) -/

/-- R692: the fields of a block of addresses return to their reset values. -/
def Nld.resetRange (n : Nld) (lo hi : Nat) : Nld :=
  { n with regs := n.regs.filter (fun e => !(decide (lo ≤ e.1 / 32) && decide (e.1 / 32 < hi))) }

/-- FUNCTION_LEVEL_RESET (R565, R692, R708): the rings of a function stop and their contexts clear; what executes leaves no
completion. The PF's takes NLD_IRQ_EN and NLD_IRQ_PEND with it, a VF's its NLD_VF_EN and its partition events. The MSI-X table
of the function is PCIe's and returns to its reset as well. -/
def Nld.flr (n : Nld) (fn : Nat) : Nld :=
  let mine (key : Nat) : Bool := key / 32 == fn
  let vec (k : Nat) : Bool := k / 64 == fn
  let h := n.host
  let h := { h with
      rings := (h.rings.filter (fun e => !mine e.1 || e.2.restarted)).map
        (fun e => if mine e.1 then (e.1, { restarted := true }) else e),
      ctx := h.ctx.filter (fun e => !mine (e.1 / 32)),
      msix := h.msix.filter (fun e => !vec (e.1 / 4)), pba := h.pba.filter (fun v => !vec v),
      waiting := h.waiting.filter (fun j => j.fn ≠ fn), streams := h.streams.filter (fun e => !mine (e.1 / 8)) }
  let n := { n with host := h }
  if fn = 0 then (n.resetRange 0x40000 0x40030).resetRange 0x340004 0x34000C
  else (n.resetRange (0x1000000 + 0x10000 * fn) (0x1000030 + 0x10000 * fn)).resetRange (0x1001020 + 0x10000 * fn)
    (0x1001028 + 0x10000 * fn)

/-- R566: count a failed read of the host. -/
def Nld.hostErr (n : Nld) (fn : Nat) : Nld := n.hqCount NReg.HQ_HOSTERR_count NReg.VHQ_HOSTERR_count fn

/-- HOST_READ_ERROR (R566). -/
def Nld.readFault (n : Nld) : HostReadFault → Nld
  | .doorbell fn => n.hostErr fn.val
  | .descriptor h => let m := (n.hostErr h.fn.val).present h 1; if m.holds h then m.done h 9 else m
  | .operands h =>
    let m := (n.hostErr h.fn.val).present h 1
    if m.ringType h.key = 1 ∧ m.isNext h ∧ m.fwRuns then m.done h 9 else m
  | .sequence h tap seq bytes =>
    (n.hostErr h.fn.val).onDevice h 4 1 (fun n =>
      if n.tapOwner tap.val ≠ h.owner then n.done h 2 else (n.stage tap.val seq.toNat 2 bytes).done h 9)
  | .bulkInput l at_ =>
    match n.lane l.val with
    | [] => n
    | j :: rest => (((n.hostErr j.fn).setLane l.val ({ j with poisonAt := some at_ } :: rest)).bulkComplete l.val)

/-- IRQ_TIMER (R588): the oldest unsignalled completion of a ring is irq_us old. -/
def Nld.irqTimer (n : Nld) (fn ring : Nat) : Nld :=
  let key := ringKey fn ring
  if (n.ring key).unsignalled = 0 then n else n.ringSignal key

end Sys2Proof.Machine
end

