-- ==== Sys2Proof/Machine/NldChain.lean ====
section
/-! DEFINITION. What comes up the Fife chains (R187, R200, R291 to R304, R630 to R632): enumeration and the manifest, trace and
Tail deliveries, answers to requests, and the halt objects. -/

namespace Sys2Proof.Machine

open Sys2Proof

/-! ### The manifest and observe-only KTUs (R630, R631) -/

/-- R630: the manifest of the running image pairs a KTU revision with this Naloder's. -/
def Nld.paired (n : Nld) (revision : Nat) : Bool :=
  match n.image with
  | some i => i.manifest.contains (revision, n.get NReg.ID_revision)
  | none => false

/-- Set a position's bit of NLD_FW_OBSV. -/
def Nld.setObsv (n : Nld) (pos : Nat) (v : Bool) : Nld :=
  let w := n.get NReg.FW_OBSVw_obsv (pos / 32)
  n.put NReg.FW_OBSVw_obsv (if v then setBit w (pos % 32) else w - (w &&& 2 ^ (pos % 32))) (pos / 32)

/-- R631: firmware reads the halt registers of a position. -/
def Nld.readHalts (n : Nld) (pos : Nat) : Nld :=
  (n.sendReg false (n.posAddr pos) fleet 8 KReg.HALT_COREc_halt_en.base [] .firmware).sendReg false (n.posAddr pos) fleet 4
    KReg.HALT_DOMd_part.base [] .firmware

/-- R631: firmware writes halt registers of a position to zero. -/
def Nld.zeroHalts (n : Nld) (pos offset count : Nat) : Nld :=
  n.sendReg true (n.posAddr pos) fleet count offset (List.replicate count 0) .firmware

/-- R631: what firmware writes to a KTU it newly runs observe-only: the tick period, the sync interval, the membership, and run
as its own; and its halt registers to zero. -/
def Nld.setUpObsv (n : Nld) (pos : Nat) : Nld :=
  let n := n.firmwareWrite pos KReg.TICK_PERIOD_period_us.base n.periodUs
  let n := n.firmwareWrite pos KReg.TIME_SYNCIV_sync_iv_us.base (n.get NReg.TIME_CFG_sync_iv_us)
  let n := n.firmwareWrite pos memberOffset (n.memberScope (n.posAddr pos))
  let n := n.firmwareWrite pos KReg.TICK_CTRL_run.base (n.get NReg.TICK_CTRL_run)
  (n.zeroHalts pos KReg.HALT_COREc_halt_en.base 8).zeroHalts pos KReg.HALT_DOMd_part.base 4

/-- R630: look a position up in the manifest, or, while firmware does not run, run it observe-only. -/
def Nld.lookUp (n : Nld) (pos : Nat) : Nld :=
  let e := n.entryOf pos
  if ¬ e.valid then n
  else if ¬ n.fwRuns then n.setObsv pos true
  else if n.paired e.revision then n.setObsv pos false
  else
    let was := n.obsv pos
    let n := n.setObsv pos true
    if was then n.readHalts pos else (n.setUpObsv pos).readHalts pos

/-- R630: an image that takes over looks every position up. -/
def Nld.lookUpAll (n : Nld) : Nld := (List.range 512).foldl (fun n pos => n.lookUp pos) n

/-- OBSERVE_ONLY_RECHECK (R631). -/
def Nld.recheck (n : Nld) (pos : Nat) : Nld := if n.fwRuns ∧ n.obsv pos ∧ (n.entryOf pos).valid then n.readHalts pos else n

/-! ### Enumeration (R293) -/

/-- ENUM_RESPONSE (R238, R293, R502, R630, R636). -/
def Nld.enumIn (n : Nld) (p : Nat) (e : EnumInfo) : Nld :=
  let before := (n.fife p).table
  let pos := 32 * p + addrN e.addr.toNat
  let (n, changed) := n.enumEntry p e
  let n := if changed then
      { n.newDie pos with fw := { n.fw with cmdIds := Tbl.set 0 pos 0 n.fw.cmdIds, cmdKept := Tbl.set 0 pos 0 n.fw.cmdKept } }
    else n
  if (n.fife p).table = before then n else n.lookUp pos

/-! ### Trace and Tail (R178, R187, R188, R582) -/

/-- R182: the 16 bytes of a trace record. -/
def TraceRec.bytes (r : TraceRec) : List Byte :=
  leBytes 8 r.payload.toNat ++
  leBytes 8 (r.time.toNat + 2 ^ 50 * r.owner.toNat + 2 ^ 55 * r.type.toNat + 2 ^ 58 * r.prio.val + 2 ^ 60 * r.source.val)

/-- The tick in the header of a record for which none is stated. -/
def openTickNo : Nat := Config.openEvent 6 % 2 ^ 48

/-- TRACE (R187, R188, R582): each owner's records go to the rings of its function. -/
def Nld.traceIn (n : Nld) (addr seq : Nat) (recs : List TraceRec) : Nld :=
  (List.range 17).foldl (fun n o =>
    let own := recs.filter (fun r => r.owner.toNat = o)
    if own.isEmpty then n
    else n.form (fun key => n.takes2 7 key && ringOf o key)
      { type := 8, tick := openTickNo,
        body := leBytes 4 addr ++ leBytes 4 seq ++ leBytes 1 own.length ++ leBytes 7 0 ++ own.flatMap TraceRec.bytes }) n

/-- TAILDUMP (R178, R582): the dump goes to the rings of the owner of the unit's block. -/
def Nld.tailDumpIn (n : Nld) (addr : Nat) (t : TailImage) (owner : Nat) : Nld :=
  n.form (fun key => n.takes2 8 key && ringOf owner key)
    { type := 9, tick := openTickNo,
      body := leBytes 4 addr ++ leBytes 2 t.unit.toNat ++ leBytes 1 t.recs.length ++ leBytes 1 0 ++ leBytes 8 t.hdr0.toNat ++
        leBytes 8 t.hdr1.toNat ++ t.recs.flatMap (fun r => leBytes 8 r.toNat) }

/-! ### Halt objects (R200, R478) -/

/-- R478: the positions that take part in a halt of a scope. -/
def Nld.haltPositions (n : Nld) (scope : Nat) : List Nat :=
  (List.range 512).filter (fun pos =>
    (n.entryOf pos).valid && !n.obsv pos && (scope == fleet || n.isMember scope (n.posAddr pos)))

/-- R478, R506: the end of a halt is reported to the scope's owner and to *fleet*. -/
def Nld.reportHalt (n : Nld) (k : Nat) : Nld :=
  let o := n.rdv k
  n.formVerdict (fun w => w == fleet || w == o.owner)
    { kind := 8, tick := n.sealedTick, owner := fleet, subject := n.name * 512, score := 0,
      arg0 := Config.openEvent (if o.state = 2 then 4 else 5), arg1 := o.epoch }

/-- Whether an object gathers a halt of a scope. -/
def RdvObj.halts (o : RdvObj) (scope : Nat) : Bool := o.kind == 4 && o.owner == scope && o.state != 0

/-- R478: arm an object for a halt of a scope at tick H, unless one gathers it already. The second result: one was to be had. -/
def Nld.armHalt (n : Nld) (scope h : Nat) : Nld × Bool :=
  let who := n.haltPositions scope
  if who.isEmpty ∨ n.group.rdv.any (fun e => e.2.halts scope && e.2.epoch == h) then (n, true)
  else
    match n.freeObject with
    | none => (n.raise NReg.RED_EVT_rdv_refused, false)
    | some k => ((n.armRdv k 4 scope 0 h who.length (n.tickAt h + 1000000)).1, true)

/-- R200, R302: a KTU reports on a halt of a scope. -/
def Nld.haltReport (n : Nld) (addr scope tick32 : Nat) : Nld :=
  let match_ (e : Nat × RdvObj) : Bool := e.2.halts scope && e.2.epoch % 2 ^ 32 == tick32
  match (List.find? match_ n.group.rdv).or (List.find? (fun (e : Nat × RdvObj) => e.2.halts scope) n.group.rdv) with
  | none => n
  | some (k, o) =>
    let n := (n.arriveRdv k (if o.epoch % 2 ^ 32 = tick32 then o.epoch else tick32) (addrPos addr)).1
    if o.state = 1 ∧ (n.rdv k).state = 2 then n.reportHalt k else n

/-- RDV_DEADLINE (R477, R478): an armed object whose deadline domain 0 has reached expires. -/
def Nld.rdvDeadline (n : Nld) (k : Nat) : Nld :=
  let o := n.rdv k
  if o.state = 1 ∧ o.deadline ≤ n.now then
    let n := n.expireRdv k
    if o.kind = 4 then n.reportHalt k else n
  else n

/-! ### Answers to requests (R302 to R304, R577) -/

/-- R633, R637, R644: the control cores take answers while an image runs; what comes in a gap is asked for again after it. -/
def Nld.fwAnswers (n : Nld) : Bool := n.get NReg.FW_STATUS_state == 1 || n.get NReg.FW_STATUS_state == 3

/-- R302: bytes 4 to 19 of a CMD_ACK: what the completion of a KTU_CMD reports. -/
def ackBytes (m : CmdAckMsg) : List Byte :=
  leBytes 4 m.id.toNat ++ leBytes 1 m.opcode.toNat ++ leBytes 1 m.status.toNat ++ leBytes 1 m.repeated.toNat ++ leBytes 1 0 ++
  leBytes 8 m.detail.toNat

/-- Replace the requests that wait. -/
def Nld.setReqs (n : Nld) (l : List PendReq) : Nld := { n with chains := { n.chains with reqs := l } }

/-- R577, R632, R665: the requests of a Bugle command that is forwarded have all ended: its descriptor, if it has one here,
completes. -/
def Nld.bugleEnd (n : Nld) (id : Nat) : Nld :=
  let mine := n.chains.reqs.filter (fun q => q.who = .bugle id)
  if mine.any (fun q => !q.left.isEmpty) then n
  else
    let status := if mine.isEmpty ∨ mine.any (fun q => q.ack.isSome) then 0 else 5
    let n := n.setReqs (n.chains.reqs.filter (fun q => q.who ≠ .bugle id))
    match List.find? (fun (e : Nat × RingRt) => e.2.held.any (fun d => d.opcode = 0x0F ∧ d.phase.isSome ∧ d.ids = [id])) n.host.rings with
    | none => n
    | some (key, r) =>
      match r.held.find? (fun d => d.opcode = 0x0F ∧ d.phase.isSome ∧ d.ids = [id]) with
      | some d => Nld.flushUnknown key 16 (n.complete key d.slot status 0 0 [])
      | none => n

/-- R304, R577: a command's request has ended, answered or timed out. -/
def Nld.endCmd (n : Nld) (q : PendReq) : Nld :=
  match q.who with
  | .desc fn ring slot =>
    let n := n.setReqs (n.chains.reqs.erase q)
    let (status, result) := match q.ack with
      | some m => (0, ackBytes m)
      | none => (5, [])
    Nld.flushUnknown (ringKey fn ring) 16 (n.complete (ringKey fn ring) slot status 0 0 result)
  | .bugle id => (n.setReqs (n.chains.reqs.map (fun x => if x = q then { x with left := [] } else x))).bugleEnd id
  | .firmware => n.setReqs (n.chains.reqs.erase q)

/-- CMD_ACK (R200, R302, R304): a report on a halt, or the answer to a command. -/
def Nld.cmdAckIn (n : Nld) (p : Nat) (m : CmdAckMsg) : Nld :=
  let a := m.addr.toNat
  if m.id = 0 then
    if m.opcode = 4 then n.haltReport a (m.detail.toNat % 256) (m.detail.toNat / 2 ^ 32) else n
  else if ¬ n.fwAnswers then n
  else
    match n.chains.reqs.find? (fun q => !q.reg && q.port == p && q.id == m.id.toNat && q.left.contains a) with
    | none => n
    | some q =>
      let left := q.left.filter (· ≠ a)
      let ack := match q.ack with
        | none => some m
        | some x => if Config.keepsAnswer q.id left.length then some x else some m
      let q' := { q with left := left, ack := ack }
      let n := n.setReqs (n.chains.reqs.map (fun x => if x = q then q' else x))
      if left.isEmpty then n.endCmd q' else n

/-- R631: a halt register of an observe-only KTU has been set since: firmware writes it to zero again. -/
def Nld.haltsRead (n : Nld) (pos offset : Nat) (words : List Word) : Nld :=
  if ¬ n.obsv pos then n
  else if offset = KReg.HALT_COREc_halt_en.base then
    (if words.any (fun w => w.toNat % 2 = 1) then n.zeroHalts pos offset 8 else n)
  else if offset = KReg.HALT_DOMd_part.base then
    (if words.any (fun w => w.toNat % 2 ^ 17 ≠ 0) then n.zeroHalts pos offset 4 else n)
  else n

/-- R303: a request writes. -/
def PendReq.isWrite (q : PendReq) : Bool :=
  match q.msg with
  | .regWr _ => true
  | _ => false

/-- REG_RESPONSE (R303): the response completes the request with its tag. -/
def Nld.regRespIn (n : Nld) (p : Nat) (write : Bool) (r : RegResp) : Nld :=
  match n.chains.reqs.find? (fun q => q.reg && q.port == p && q.id == r.tag.toNat && q.addr == r.addr.toNat &&
      q.isWrite == write && n.fwAnswers) with
  | none => n
  | some q =>
    let n := n.setReqs (n.chains.reqs.erase q)
    match q.who with
    | .desc fn ring slot =>
      Nld.flushUnknown (ringKey fn ring) 16 (n.complete (ringKey fn ring) slot 0 0 0
        ((Config.resultBytes 0x0E ([r.code.toNat, r.mask.toNat] ++ r.words.map BitVec.toNat)).take 16))
    | .firmware =>
      if write ∨ ¬ n.fwRuns then n else n.haltsRead (addrPos q.addr) r.offset.toNat r.words
    | .bugle _ => n

/-- REQUEST_TIMEOUT (R304): 100 µs have passed without the answers of a request. -/
def Nld.reqTimeout (n : Nld) (reg : Bool) (p id addr : Nat) : Nld :=
  match n.chains.reqs.find? (fun q => q.reg == reg && q.port == p && q.id == id && q.addr == addr && !q.left.isEmpty && n.fwAnswers) with
  | none => n
  | some q =>
    if reg then
      let n := n.setReqs (n.chains.reqs.erase q)
      match q.who with
      | .desc fn ring slot => Nld.flushUnknown (ringKey fn ring) 16 (n.complete (ringKey fn ring) slot 5 0 0 [])
      | _ => n
    else n.endCmd q

/-! ### Commands to KTUs (R299, R304, R577, R631, R632) -/

/-- Hand a port the CMD of a request: as it stands, or, on a chain with an observe-only position, as one copy to each other
position. -/
def Nld.sendRequest (n : Nld) (q : PendReq) : Nld :=
  match q.msg with
  | .cmd h b =>
    if h.route = 1 ∧ (n.fife q.port).positions.any (fun i => n.obsv (32 * q.port + i)) then
      q.left.foldl (fun n a => n.sendFife q.port (.cmd { h with route := 0, addr := BitVec.ofNat 20 a } b)) n
    else n.sendFife q.port q.msg
  | m => n.sendFife q.port m

/-- R299, R632: send a CMD and wait for its answers. -/
def Nld.issueCmd (n : Nld) (p : Nat) (h : CmdHdr) (b : CmdBody) (who : Requester) : Nld :=
  let left := if h.route = 1 then
      ((n.fife p).positions.filter (fun i => !n.obsv (32 * p + i))).map (fun i => n.posAddr (32 * p + i))
    else [h.addr.toNat]
  let q : PendReq := { reg := false, port := p, addr := h.addr.toNat, id := h.id.toNat, opcode := opcodeOf b, who := who,
                       left := left, msg := .cmd h b }
  (n.sendRequest q).await q

/-- KTU_CMD (R577, R631, R636): the command goes out under the function's owner; a halt has its object first (R478). -/
def Nld.ktuCmd (n : Nld) (d : DescHdr) (p : Nat) (addr : BitVec 20) (route : Fin 2) (scope : BitVec 17) (scopeSet : Bool)
    (b : CmdBody) : Nld :=
  n.onDesc d 0x0D (fun n =>
    let a := addr.toNat
    let port := if route = 1 then p else addrP a
    if route = 0 ∧ addrGT a ≠ n.name then n.refuse d 0x0D
    else if route = 0 ∧ n.obsv (addrPos a) then n.done d 1 1
    else
      let (n, ok) := match b with
        | .halt s h => n.armHalt s.toNat h.toNat
        | _ => (n, true)
      if ¬ ok then n.done d 6
      else
        match n.newCmdId (if route = 1 then 512 + port else addrPos a) with
        | none => n.done d 6
        | some (n, id) =>
          let h : CmdHdr := { addr := if route = 1 then 0 else addr, route := route, id := BitVec.ofNat 32 id,
                              issuer := BitVec.ofNat 5 d.owner, scope := scope, scopeSet := scopeSet }
          let n := (n.journal d [id]).issueCmd port h b (.desc d.fn.val d.ring.val d.slot)
          match n.chains.reqs.find? (fun q => q.who = .desc d.fn.val d.ring.val d.slot ∧ q.left.isEmpty) with
          | some q => (n.setReqs (n.chains.reqs.erase q)).done d 0
          | none => n)

/-- KTU_REG (R303, R577, R631). -/
def Nld.ktuReg (n : Nld) (d : DescHdr) (write : Bool) (addr : BitVec 20) (offset : BitVec 16) (count : Nat) (words : List Word) :
    Nld :=
  n.onDesc d 0x0E (fun n =>
    let a := addr.toNat
    let k := if write then words.length else count
    if k = 0 ∨ k > 8 then n.done d 3
    else if addrGT a ≠ n.name then n.refuse d 0x0E
    else if n.obsv (addrPos a) ∧ (write ∨ d.owner ≠ fleet) then n.done d 1 1
    else (n.journal d []).sendReg write a d.owner k offset.toNat (if write then words else [])
      (.desc d.fn.val d.ring.val d.slot))

/-! ### Port registers (R315) -/

/-- NLD_FIFE_RESET. -/
def Nld.fifeReset (n : Nld) (p : Nat) : Nld := n.fifeOp p resetEnd

/-- NLD_FIFE_RETRAIN. -/
def Nld.fifeRetrain (n : Nld) (p : Nat) : Nld := n.fifeOp p LinkEnd.toRetrain

end Sys2Proof.Machine
end

