-- ==== Sys2Proof/Machine/NldSec.lean ====
section
/-! DEFINITION. The security core (R466, R640, R660 to R669): keys, clear tokens, Bugle commands, test access, attestation and
provisioning. -/

namespace Sys2Proof.Machine

open Sys2Proof

/-! ### Keys and signatures (R653, R664) -/

/-- Replace the security core. -/
def Nld.setSec (n : Nld) (s : NSecurity) : Nld := { n with sec := s }

/-- The key table, and its count in NLD_SEC_STATUS. -/
def Nld.setKeys (n : Nld) (l : List KeyEntry) : Nld :=
  (n.setSec { n.sec with keys := l }).put NReg.SEC_STATUS_keys l.length

/-- R664: an enrolled key. -/
def Nld.key (n : Nld) (id : Nat) : Option KeyEntry := n.sec.keys.find? (fun k => k.id = id)

/-- R664: an enrolled key with a use. -/
def Nld.keyFor (n : Nld) (id use : Nat) : Option KeyEntry := n.sec.keys.find? (fun k => k.id = id ∧ bitOf k.uses use)

/-- R653, R671: a signature is refused: counted, and told of by a record, at most one a second. -/
def Nld.sigRefused (n : Nld) (key : Nat) : Nld :=
  let s := n.sec
  let first := if s.refused = 0 then key else s.refusedKey
  let due := s.refusedAt.all (fun t => decide (t + 1000000000 ≤ n.elapsed))
  let n := n.count NReg.SEC_SIGFAIL_count
  if due then
    (n.setSec { s with refused := 0, refusedKey := 0, refusedAt := some n.elapsed }).record 0x0106 4 [s.refused + 1, first]
  else n.setSec { s with refused := s.refused + 1, refusedKey := first }

/-- Test access is open (R666). -/
def Nld.opened (n : Nld) : Bool := n.bit NReg.SEC_STATUS_opened

/-- The device serial (R703). -/
def Nld.serial (n : Nld) : Nat := n.get NReg.SERIAL_LO_serial_lo + 2 ^ 32 * n.get NReg.SERIAL_HI_serial_hi

/-- R661: the nonce in NLD_REC_NONCE. -/
def Nld.recNonce (n : Nld) : Nat :=
  (List.range 4).foldl (fun a w => a + 2 ^ (32 * w) * n.get NReg.REC_NONCEw_nonce w) 0

/-- R661: a fresh nonce. -/
def Nld.newNonce (n : Nld) : Nld :=
  let v := Config.randomNonce n.sec.drawn % 2 ^ 128
  (List.range 4).foldl (fun (n : Nld) w => n.put NReg.REC_NONCEw_nonce (v / 2 ^ (32 * w) % 2 ^ 32) w)
    (n.setSec { n.sec with drawn := n.sec.drawn + 1 })

/-! ### Clearing the recorder (R660 to R662) -/

/-- R660, R662: the code with which a token is refused; 0 when it is accepted. -/
def Nld.clearCode (n : Nld) (t : ClearToken) : Nat :=
  let b := t.bytes
  let areas := fieldAt b 3 1
  if n.bit NReg.REC_STATUS_clearing then 8
  else if n.opened then 9
  else if b.length ≠ 136 ∨ fieldAt b 0 2 ≠ 0x4352 ∨ fieldAt b 2 1 ≠ 1 ∨ areas = 0 ∨ areas > 3 ∨ fieldAt b 8 8 ≠ n.serial then 4
  else if (n.keyFor (fieldAt b 4 4) 3).isNone then 3
  else if ¬ t.good then 2
  else if fieldAt b 24 16 ≠ n.recNonce then 7
  else 0

/-- R661, R662: check a token; an accepted one has its clear record written, and erasure begins. -/
def Nld.runClear (n : Nld) (t : ClearToken) : Nld :=
  let code := n.clearCode t
  let b := t.bytes
  if code = 8 then n.put NReg.REC_CLR_STAT_code 8
  else
    let n := n.put NReg.REC_CLR_STAT_busy 0
    if code ≠ 0 then
      let n := n.put NReg.REC_CLR_STAT_code code
      if code = 2 then n.sigRefused (fieldAt b 4 4) else n
    else
      let n := n.record 0x0100 4 [fieldAt b 3 1, fieldAt b 16 8, fieldAt b 4 4]
      let c : RecClear := { areas := fieldAt b 3 1, bound := fieldAt b 16 8 }
      let n := { n with recorder := { n.recorder with clear := some c } }
      (((n.put NReg.REC_STATUS_clearing 1).put NReg.REC_CLR_STAT_busy 1).put NReg.REC_CLR_STAT_code 0).newNonce

/-- R640: what needs the security core waits for it. -/
def Nld.hold (n : Nld) (j : SecJob) : Nld := n.setSec { n.sec with held := n.sec.held ++ [j] }

/-- RECORDER_CLEAR (R640, R662). -/
def Nld.recorderClear (n : Nld) (t : ClearToken) : Nld :=
  if n.sec.down then (n.put NReg.REC_CLR_STAT_busy 1).hold (.clear t) else n.runClear t

/-- RECORDER_CLEAR_DONE (R662): the erasure completes. Its clear record has committed before. -/
def Nld.recorderClearDone (n : Nld) : Nld :=
  match n.recorder.clear with
  | none => n
  | some c =>
    if n.recorder.queue.any (fun e => e.type = 0x0100) then n
    else ((n.recErase c).put NReg.REC_STATUS_clearing 0).put NReg.REC_CLR_STAT_busy 0

/-- RECORD_COMMIT (R656). -/
def Nld.recordCommit (n : Nld) : Nld :=
  let n := n.recNext
  n.put NReg.REC_STATUS_queued n.recorder.queue.length

/-! ### Bugle commands (R466, R665) -/

/-- R665: whom a scope mask names alone. -/
def scopedAlone (h : CmdHdr) (o : Nat) : Bool := h.scopeSet && h.scope.toNat == 2 ^ o

/-- How a Bugle command fares: accepted under its signer, discarded, or discarded for its signature. -/
inductive BugleCheck where
  | accepted (owner : Nat)
  | discarded
  | refused
  deriving DecidableEq, Repr

/-- R665, R667: the checks of a Bugle command whose ID is new. -/
def Nld.checkBugle (n : Nld) (m : BugleMsg) : BugleCheck :=
  let newest := n.tick.newest.getD 0
  if n.opened then .refused
  else
    match n.keyFor m.key.toNat 1 with
    | none => .refused
    | some k =>
      if ¬ m.good then .refused
      else if m.hdr.id.toNat < 2 ^ 31 ∨ (k.owner ≠ fleet ∧ ¬ scopedAlone m.hdr k.owner) then .discarded
      else if m.notAfter.toNat < newest ∨ newest + 65536 < m.notAfter.toNat then .discarded
      else .accepted k.owner

/-- R85, R466: Naloder's own part of a Bugle command: its time base takes a step of base A, and a halt has its object. -/
def Nld.buglePart (n : Nld) (b : CmdBody) : Nld :=
  match b with
  | .timeStep bases accept amount at_ =>
    if ¬ bitOf bases.toNat 0 then n
    else
      let tb := (n.dom 0).tb
      n.setTb 0 (if accept then tb.acceptPending at_.toNat else tb.schedule (signedOf 48 amount.toNat * 65536) at_.toNat)
  | .halt s h => (n.armHalt s.toNat h.toNat).1
  | _ => n

/-- The Horn port that a Bugle command came by. -/
def HeldBugle.port (b : HeldBugle) : Option Nat :=
  match b.site with
  | some (.horn p) => some p.val
  | _ => none

/-- R466: forward a Bugle command: on the other Horn ports, to the group peers from a root, and onto the Fife ports. -/
def Nld.forwardBugle (n : Nld) (b : HeldBugle) (h : CmdHdr) : Nld :=
  let m : Msg := .bugle b.msg
  let n := (List.range 8).foldl (fun (n : Nld) p =>
    if n.hornRole p = 0 ∨ b.port = some p then n else n.sendHorn p m) n
  let n := if n.isRoot then (n.sendRoots 0 m).sendRoots 1 m else n
  (List.range 16).foldl (fun (n : Nld) p =>
    if (n.fife p).positions.isEmpty then n else n.issueCmd p { h with route := 1, addr := 0 } b.msg.body (.bugle h.id.toNat)) n

/-- R466: a Bugle command is discarded and counted; a descriptor that brought it completes. -/
def Nld.dropBugle (n : Nld) (b : HeldBugle) (flags : Nat) : Nld :=
  let n := { n with group := { n.group with dropped := n.group.dropped + 1 } }
  match b.desc with
  | none => n
  | some d => Nld.flushUnknown d.key 16 (n.done d 1 0 [] flags)

/-- R466, R665: a Bugle command meets the security core. -/
def Nld.runBugle (n : Nld) (b : HeldBugle) : Nld :=
  let id := b.msg.hdr.id.toNat
  if n.group.bugles.contains id then n.dropBugle b 1
  else
    let n := { n with group := { n.group with bugles := (id :: n.group.bugles).take 4096 } }
    match n.checkBugle b.msg with
    | .discarded => n.dropBugle b 0
    | .refused => (if n.opened then n else n.sigRefused b.msg.key.toNat).dropBugle b 2
    | .accepted owner =>
      let h : CmdHdr := { b.msg.hdr with issuer := BitVec.ofNat 5 owner }
      let n := match b.desc with
        | some d => n.journal d [id]
        | none => n
      ((n.forwardBugle b h).buglePart b.msg.body).bugleEnd id

/-- HORN_CMD (R466, R640). A CMD whose bit 31 of cmd_id is clear is no Bugle command, and Horn carries no other (R465). -/
def Nld.bugleIn (n : Nld) (site : Site) (m : BugleMsg) : Nld :=
  let b : HeldBugle := { site := some site, desc := none, msg := m }
  if m.hdr.id.toNat < 2 ^ 31 then n.dropBugle b 0
  else if n.sec.down then n.hold (.bugle b)
  else n.runBugle b

/-- BUGLE (R577, R640, R665): *fleet* may send any; an owner those of its own keys. -/
def Nld.bugleCmd (n : Nld) (d : DescHdr) (m : BugleMsg) : Nld :=
  n.onDesc d 0x0F (fun n =>
    let b : HeldBugle := { site := none, desc := some d, msg := m }
    if d.owner ≠ fleet ∧ ((n.key m.key.toNat).map (·.owner) ≠ some d.owner ∨ ¬ scopedAlone m.hdr d.owner) then n.done d 2
    else if m.hdr.id.toNat < 2 ^ 31 then n.done d 3
    else if n.sec.down then (n.journal d [m.hdr.id.toNat]).hold (.bugle b)
    else n.runBugle b)

/-! ### Test access (R666) -/

/-- TEST_ACCESS_OPEN (R666): keys are zeroised, the opened count rises, and the PUF key path goes off until the next
power-up. -/
def Nld.testOpen (n : Nld) : Nld :=
  let n := n.setKeys []
  let n := n.setSec { n.sec with identity := none, zeroised := true }
  let n := { n with rdma := { n.rdma with qps := n.rdma.qps.map (fun (e : Nat × Qp) => (e.1, { e.2 with keys := [], keying := none })) } }
  let n := n.count NReg.SEC_OPENCNT_opened
  ((n.put NReg.SEC_STATUS_puf_off 1).put NReg.SEC_STATUS_opened 1).put NReg.SEC_STATUS_provisioned 0

/-! ### Requests (R664, R668, R669, R671) -/

/-- A request ends. -/
def Nld.reqDone (n : Nld) (code len : Nat) : Nld :=
  ((n.put NReg.SEC_REQ_STAT_busy 0).put NReg.SEC_REQ_STAT_code code).put NReg.SEC_REQ_STAT_rsp_len len

/-- The address of the response buffer. -/
def Nld.rspAddr (n : Nld) : Nat :=
  n.get NReg.SEC_RSP_ADDR_LO_addr_lo * 64 + n.get NReg.SEC_RSP_ADDR_HI_addr_hi * 2 ^ 32

/-- A request ends with a response. -/
def Nld.respond (n : Nld) (bytes : List Byte) : Nld := (n.emit (.buffer n.rspAddr bytes)).reqDone 1 bytes.length

/-- A list of bytes brought to a length. -/
def padTo (k : Nat) (bs : List Byte) : List Byte := (bs ++ List.replicate k 0).take k

/-- NLD_FWE_VERSION of an image. -/
def FwImage.version (i : FwImage) : Nat := i.major * 2 ^ 24 + i.minor * 2 ^ 16 + i.patch

/-- R668: bytes 0 to 127 of a quote. -/
def Nld.quoteBody (n : Nld) (nonce : Nat) : List Byte :=
  let opened := n.get NReg.SEC_OPENCNT_opened
  let prov := n.get NReg.SEC_OPENCNT_provisioned
  let flags := (n.opened || opened != prov).toNat + 2 * n.get NReg.SEC_STATUS_provisioned + 4 * n.fwRuns.toNat
  let img (f : FwImage → Nat) : Nat := (n.image.map f).getD 0
  leBytes 2 0x4154 ++ leBytes 1 1 ++ leBytes 1 flags ++ leBytes 4 opened ++ leBytes 4 prov ++ leBytes 4 (img FwImage.svn) ++
  leBytes 4 n.sec.minSvn ++ leBytes 4 (img FwImage.version) ++ leBytes 8 n.serial ++ leBytes 32 nonce ++
  padTo 48 ((n.image.map (·.digest)).getD []) ++ leBytes 8 n.now ++ leBytes 8 0

/-- R668: a quote. -/
def Nld.quote (n : Nld) (nonce : Nat) : List Byte :=
  let body := n.quoteBody nonce
  match (if n.bit NReg.SEC_STATUS_provisioned then n.sec.identity else none) with
  | some id => body ++ padTo 96 (Config.signature id body)
  | none => body ++ List.replicate 96 0

/-- R664: enter a key, in place of one of its key_id. -/
def Nld.enrolKey (n : Nld) (id owner uses : Nat) : Nld :=
  (n.setKeys (n.sec.keys.filter (fun k => k.id ≠ id) ++ [{ id := id, owner := owner, uses := uses }])).record 0x0102 4
    [id, owner, uses]

/-- R664: the key is the last of *fleet* with the enrolment use. -/
def Nld.lastEnroller (n : Nld) (id : Nat) : Bool :=
  let l := n.sec.keys.filter (fun k => k.owner = fleet ∧ bitOf k.uses 4)
  l.length == 1 && l.any (fun k => k.id = id)

/-- R662, R664: the code of an enrolment or revocation blob; 0 when it is accepted. -/
def Nld.enrolCode (n : Nld) (b : EnrolBlob) : Nat :=
  let id := b.key.toNat
  if n.opened then 9
  else if ¬ b.shape ∨ b.serial.toNat ≠ n.serial ∨ b.owner.toNat > fleet ∨ (b.owner.toNat ≠ fleet ∧ b.uses.toNat > 3) ∨
      b.uses.toNat > 63 then 4
  else if (n.keyFor b.signer.toNat 4).all (fun k => k.owner ≠ fleet) then 3
  else if ¬ b.good then 2
  else if b.nonce.toNat ≠ n.recNonce then 7
  else if b.revoke then (if (n.key id).isNone then 3 else if n.lastEnroller id then 5 else 0)
  else if (n.key id).isNone ∧ n.sec.keys.length ≥ 64 then 6
  else if n.lastEnroller id ∧ ¬ (b.owner.toNat = fleet ∧ bitOf b.uses.toNat 4) then 5
  else 0

/-- ENROL_REVOKE (R664). -/
def Nld.runEnrol (n : Nld) (b : EnrolBlob) : Nld :=
  let code := n.enrolCode b
  if code = 0 then
    (if b.revoke then (n.setKeys (n.sec.keys.filter (fun k => k.id ≠ b.key.toNat))).record 0x0103 4 [b.key.toNat]
     else n.enrolKey b.key.toNat b.owner.toNat b.uses.toNat).reqDone 1 0
  else (if code = 2 then n.sigRefused b.signer.toNat else n).reqDone code 0

/-- PROVISIONING_BUNDLE (R669, step 1). -/
def Nld.runBundle (n : Nld) (b : ProvBundle) : Nld :=
  if n.opened then n.reqDone 9 0
  else if n.sec.step ≠ 0 ∨ n.bit NReg.SEC_STATUS_provisioned then n.reqDone 5 0
  else if ¬ b.shape ∨ b.serial.toNat ≠ n.serial then n.reqDone 4 0
  else if bitOf n.sec.revokedMask b.carivo.val ∨ ¬ b.keyOk then n.reqDone 3 0
  else if ¬ b.good then (n.sigRefused b.carivo.val).reqDone 2 0
  else if (n.key b.key.toNat).isNone ∧ n.sec.keys.length ≥ 64 then n.reqDone 6 0
  else
    let n := n.enrolKey b.key.toNat fleet 0x3F
    (n.setSec { n.sec with step := 1 }).reqDone 1 0

/-- GENERATE_IDENTITY (R669, step 2): a new identity key pair; its public key goes out, signed. -/
def Nld.runGenerate (n : Nld) : Nld :=
  if n.opened then n.reqDone 9 0
  else if n.sec.step ≠ 1 then n.reqDone 5 0
  else
    let id := Config.identityKey n.sec.drawn
    (n.setSec { n.sec with identity := some id, drawn := n.sec.drawn + 1, step := 2 }).respond (Config.identityReply id)

/-- INSTALL_CHAIN (R669, step 3). -/
def Nld.runChain (n : Nld) (root : Nat) (good : Bool) : Nld :=
  if n.opened then n.reqDone 9 0
  else if n.sec.step ≠ 2 then n.reqDone 5 0
  else if (n.keyFor root 5).isNone then n.reqDone 3 0
  else if ¬ good then (n.sigRefused root).reqDone 2 0
  else
    let opened := n.get NReg.SEC_OPENCNT_opened
    let n := (n.setSec { n.sec with step := 0, installed := true }).put NReg.SEC_OPENCNT_provisioned opened
    ((n.put NReg.SEC_STATUS_provisioned 1).record 0x0104 4 [n.serial, opened]).reqDone 1 0

/-- Run a request of the security core. -/
def Nld.runRequest (n : Nld) : SecRequest → Nld
  | .attest nonce => n.respond (n.quote nonce.toNat)
  | .enrol b => n.runEnrol b
  | .bundle b => n.runBundle b
  | .generate => n.runGenerate
  | .chain root good => n.runChain root.toNat good

/-- R640, R671: a request of NLD_SEC_REQ_CMD. -/
def Nld.secRequest (n : Nld) (r : SecRequest) : Nld :=
  if n.sec.down then (n.put NReg.SEC_REQ_STAT_busy 1).hold (.request r) else n.runRequest r

end Sys2Proof.Machine
end

