-- ==== Sys2Proof/Machine/NldRdma.lean ====
section
/-! DEFINITION. The Ethernet ports, the RoCEv2 transport, its keying and its shapers (R593 to R624). -/

namespace Sys2Proof.Machine

open Sys2Proof

/-! ### Sequence numbers and the state of a queue pair -/

/-- a less b, modulo 2^24. -/
def psnDiff (a b : Nat) : Nat := (a + 2 ^ 24 - b % 2 ^ 24) % 2 ^ 24

/-- The next PSN. -/
def psnNext (a : Nat) : Nat := (a + 1) % 2 ^ 24

/-- R601: the first PSN not acknowledged. -/
def Qp.una (x : Qp) : Nat :=
  match x.unacked with
  | p :: _ => p.psn
  | [] => x.spsn

/-- A PSN lies past another, within half the range. -/
def psnPast (a b : Nat) : Bool := decide (0 < psnDiff a b ∧ psnDiff a b < 2 ^ 23)

/-- R612: the old key goes once an ACK covers the new switch_psn in both directions. -/
def Qp.dropOld (x : Qp) : Qp :=
  match x.keys with
  | k :: _ :: _ =>
    match k.txFrom with
    | some t => if psnPast x.una t ∧ psnPast x.epsn k.rxFrom then { x with keys := [k] } else x
    | none => x
  | _ => x

/-- The number of free buffers in the SRQ, and what shows it (R604, R621). -/
def Nld.setSrq (n : Nld) (used : Nat) : Nld :=
  let n := { n with rdma := { n.rdma with srqUsed := used } }.put NReg.RDMA_SRQ_free (512 - used)
  if 512 - used < n.get NReg.RDMA_SRQ_limit then n.raise NReg.RDMA_EVT_srq_limit else n

/-- R604: a message has been merged or forwarded: its buffer returns to its queue. -/
def Nld.returnBuffer (n : Nld) : Site → Nld
  | .horn _ => n
  | .qp q =>
    if qpClass q.val = 1 then n.setSrq (n.rdma.srqUsed - 1)
    else if qpClass q.val = 0 then n.setQp q.val { n.qp q.val with ownFree := min 32 ((n.qp q.val).ownFree + 1) }
    else n

/-- R607, R608: a queue pair enters Error. -/
def Nld.qpFail (n : Nld) (q cause : Nat) : Nld :=
  let x := n.qp q
  if x.state = 0 ∨ x.state = 4 then n
  else
    let n := if qpClass q = 1 ∧ x.part.isSome then n.setSrq (n.rdma.srqUsed - 1) else n
    let n := if qpClass q = 2 then n.count NReg.RDMA_MIRRORDROP_count (x.sendQ.filter (fun m => m.kind = 0)).length else n
    let n := if n.bit NReg.RDMA_EVT_qp_error then n else (n.put NReg.RDMA_ERRQP_cause cause).put NReg.RDMA_ERRQP_qp q
    let x := { x with state := 4, cause := cause, sendQ := [], cut := 0, unacked := [], again := 0, part := none, ownFree := 32,
                      ctl := [], keying := none, rnrWait := false }
    (n.setQp q x).raise NReg.RDMA_EVT_qp_error

/-! ### Keying (R609 to R612) -/

/-- R609: this end of a queue pair is the initiator. -/
def Nld.initiates (n : Nld) (q : Nat) : Bool := qpClass q == 2 || decide (n.ownSlot < q / 2)

/-- Put key messages ahead of what waits, behind a message that has begun to go. -/
def Qp.pushFront (x : Qp) (ms : List QpMsg) : Qp :=
  if x.cut = 0 then { x with sendQ := ms ++ x.sendQ }
  else { x with sendQ := x.sendQ.take 1 ++ ms ++ x.sendQ.drop 1 }

/-- A generation follows another: 1 to 65,535. -/
def nextGen (g : Nat) : Nat := g % 65535 + 1

/-- R609: begin a keying: an offer waits to go. -/
def Nld.offer (n : Nld) (q : Nat) : Nld :=
  if n.sec.down then n.hold (.offer q)
  else
    let x := n.qp q
    let g : QpKeying := { gen := nextGen x.gen, nonce := Config.randomNonce n.sec.drawn % 2 ^ 256, drawn := n.sec.drawn + 1 }
    (n.setSec { n.sec with drawn := n.sec.drawn + 2 }).setQp q
      ({ x with keying := some g }.pushFront [{ bytes := [], kind := 1 }])

/-- Whom the certificate of the peer must name (R610). -/
def Nld.expectedName (n : Nld) (q : Nat) : Nat :=
  if qpClass q = 2 then (n.qp q).consumer else n.peerWord (q / 2) 0 % 2048

/-- R610: a KEYX passes its checks: shape, chain, name, signature, and its part in the exchange. -/
def Nld.keyxOk (n : Nld) (q : Nat) (k : KeyxMsg) : Bool :=
  let x := n.qp q
  let part := if k.answer then x.keying.any (fun g => g.sent && g.gen == k.gen.toNat) && n.initiates q
    else !n.initiates q && k.gen != 0 && (x.gen == 0 || k.gen.toNat == nextGen x.gen)
  k.shape && k.good && (n.keyFor k.root.toNat 5).isSome && k.names == n.expectedName q && part

/-- R610: the keys of a generation, from the one end's view. -/
def sessionKeys (mine : Bool) (drawn : Nat) (k : KeyxMsg) (nonce q : Nat) : QpKeys :=
  let own := (nonce, qpNumber q)
  let peer := (k.nonce.toNat, k.qpn.toNat)
  let (i, a) := if mine then (own, peer) else (peer, own)
  let key (dir : Nat) : Nat := Config.sessionKey [drawn, k.share, i.1, a.1, i.2, a.2, k.gen.toNat, dir]
  { gen := k.gen.toNat, tx := key (if mine then 0 else 1), rx := key (if mine then 1 else 0), rxFrom := k.switchPsn.toNat }

/-- KEYX (R610, R611): verified, keys are derived; the answerer answers and sends its KEYOK. -/
def Nld.runKeyx (n : Nld) (q : Nat) (k : KeyxMsg) : Nld :=
  let x := n.qp q
  if x.state ≠ 2 ∧ x.state ≠ 3 then n
  else if ¬ n.keyxOk q k then (n.count NReg.RDMA_KEYXFAIL_count).raise NReg.RDMA_EVT_key_fail
  else if k.answer then
    match x.keying with
    | none => n
    | some g =>
      n.setQp q { x with keys := sessionKeys true g.drawn k g.nonce q :: x.keys.take 1, keyed := true }
  else
    let nonce := Config.randomNonce n.sec.drawn % 2 ^ 256
    let drawn := n.sec.drawn + 1
    let g : QpKeying := { gen := k.gen.toNat, nonce := nonce, drawn := drawn }
    let x := { x with keying := some g, keys := sessionKeys false drawn k nonce q :: x.keys.take 1, keyed := true }
    (n.setSec { n.sec with drawn := drawn + 1 }).setQp q (x.pushFront [{ bytes := [], kind := 1 }, { bytes := [], kind := 2 }])

/-- KEYX (R640): it waits for the security core. -/
def Nld.keyxIn (n : Nld) (q : Nat) (k : KeyxMsg) : Nld := if n.sec.down then n.hold (.keyx q k) else n.runKeyx q k

/-- KEYOK (R611): keying is complete; the initiator replies. -/
def Nld.keyokIn (n : Nld) (q : Nat) : Nld :=
  let x := n.qp q
  match x.keying with
  | none => n
  | some g =>
    if ¬ x.keys.any (fun k => k.gen = g.gen) then n
    else
      let x := { x with keying := none }
      n.setQp q (if n.initiates q then x.pushFront [{ bytes := [], kind := 2 }] else x)

/-- KEYX_RESEND_TIMER (R611): an initiator without an answer sends its offer again. -/
def Nld.keyxAgain (n : Nld) (q : Nat) : Nld :=
  let x := n.qp q
  match x.keying with
  | none => n
  | some g =>
    if n.initiates q ∧ g.sent ∧ ¬ x.keys.any (fun k => k.gen = g.gen) ∧ ¬ x.sendQ.any (fun m => m.kind = 1) then
      n.setQp q (x.pushFront [{ bytes := [], kind := 1 }])
    else n

/-- KEYING_TIMEOUT (R611). -/
def Nld.keyingTimeout (n : Nld) (q : Nat) : Nld := if (n.qp q).keying.isSome then n.qpFail q 6 else n

/-- REKEY_TIMER (R612). -/
def Nld.rekey (n : Nld) (q : Nat) : Nld :=
  let x := n.qp q
  if x.state = 3 ∧ x.keying.isNone ∧ n.initiates q then n.offer q else n

/-- R609: a KEYX as it goes: its switch_psn is the PSN after its own. -/
def Nld.keyxBytes (n : Nld) (q : Nat) (x : Qp) : List Byte :=
  let g := x.keying.getD { gen := 0, nonce := 0, drawn := 0 }
  let origin := if qpClass q = 2 then 0x7FF else n.get NReg.GRP_CFG_name
  let chain := ((n.sec.identity.map Config.certChain).getD []).take 4096
  let head := leBytes 1 1 ++ leBytes 1 (if n.initiates q then 0 else 1) ++ leBytes 2 g.gen ++ leBytes 4 (qpNumber q) ++
    leBytes 4 (psnNext x.spsn) ++ leBytes 32 g.nonce ++ padTo 97 (Config.keyShare g.drawn) ++ leBytes 3 0 ++
    leBytes 4 chain.length ++ chain
  hornMessage 0x20 0 origin (head ++ padTo 96 ((n.sec.identity.map (fun i => Config.signature i head)).getD []))

/-! ### Creating queue pairs (R599, R600, R603, R618, R621) -/

/-- R603: register a region. -/
def Nld.register (n : Nld) (k len rights owner : Nat) : Nld :=
  let old := Tbl.find? k n.rdma.regions
  let r : Region := { base := Config.regionBase k, len := len, rights := rights, owner := owner,
                      variant := ((old.map (·.variant + 1)).getD 0) % 256 }
  { n with rdma := { n.rdma with regions := Tbl.insert k r (Tbl.erase k n.rdma.regions) } }

/-- The region a queue pair sends from: 256 the SRQ's, 257 + r the data area of PF ring r, 289 firmware's messages. -/
def sourceRegion (q : Nat) (x : Qp) : Nat := if qpClass q = 2 then 257 + x.ring else 289

/-- R603: the check of a send source. -/
def Nld.sourceOk (n : Nld) (q : Nat) : Bool :=
  match Tbl.find? (sourceRegion q (n.qp q)) n.rdma.regions with
  | some r => bitOf r.rights 0 && r.owner == fleet
  | none => false

/-- A shaper. -/
def Nld.shaper (n : Nld) (s : Nat) : Shaper := Tbl.get ({} : Shaper) s n.rdma.shapers

/-- Replace a shaper. -/
def Nld.setShaper (n : Nld) (s : Nat) (x : Shaper) : Nld :=
  { n with rdma := { n.rdma with shapers := Tbl.set ({} : Shaper) s x n.rdma.shapers } }

/-- R617: the header bytes of a packet, from destination MAC to FCS less the payload, in the clear. -/
def Nld.headerBytes (n : Nld) (e : Nat) : Nat :=
  14 + (if n.get NReg.ETHe_CFG_vlan_id e = 0 then 0 else 4) + (if n.bit NReg.RDMA_CTRL_ipv6 then 40 else 20) + 8 + 12 + 4 + 4

/-- R618: m bytes with the charged headers of their packets of 4,096 B. -/
def Nld.chargedMessage (n : Nld) (m : Nat) : Nat := m + (m + 4095) / 4096 * (n.headerBytes 0 + 16 + 20)

/-- R487: the summary allowance B. -/
def Nld.summaryAllowance (n : Nld) : Nat := 8192 * max 1 (1000 / max 1 n.periodUs)

/-- R618: firmware sets the shaper of a peer slot. -/
def Nld.setPeerShaper (n : Nld) (s : Nat) : Nld :=
  let k := if s / 2 = n.get NReg.GRP_CFG_name / 32 then 2 else 1
  let us := max 1 n.periodUs
  let num := 256 * (k * n.chargedMessage 8192 * 1000 + n.chargedMessage 65536 * us)
  let rate := (num + us * 1000 - 1) / (us * 1000)
  let burst := k * n.chargedMessage n.summaryAllowance + n.chargedMessage 65536
  n.setShaper s { n.shaper s with ovh := 20, rate := rate, burst := burst }

/-- R599, R602: firmware creates a protected queue pair; the initiator offers. -/
def Nld.createQp (n : Nld) (q : Nat) : Nld :=
  let s := q / 2
  let raddr := (List.range 4).foldl (fun (a : Nat) w => a + 2 ^ (32 * w) * n.peerWord s (w + 1)) 0
  let timers (f : Fld) : Nat := n.get f
  let x : Qp := { used := true, state := 2, mtu := 5, shaper := s, rqpn := 0x1000 + 2 * n.ownSlot + q % 2, raddr := raddr,
                  ackTo := timers NReg.RDMA_CTRL_ack_to, retryCnt := timers NReg.RDMA_CTRL_retry_cnt,
                  rnrRetry := timers NReg.RDMA_CTRL_rnr_retry, minRnr := timers NReg.RDMA_CTRL_min_rnr }
  let n := (n.setQp q x).register 289 0x1000000 1 fleet
  let n := if q % 2 = 0 then n.register q (32 * 256) 2 fleet else n.register 256 (512 * 131072) 2 fleet
  if n.initiates q then n.offer q else n

/-- R599: a root whose ticks start to run creates the queue pairs of its peers. -/
def Nld.createQps (n : Nld) : Nld :=
  if n.isRoot ∧ n.fwRuns then
    n.peerSlots.foldl (fun (n : Nld) s =>
      let n := n.setPeerShaper s
      [2 * s, 2 * s + 1].foldl (fun (n : Nld) q => if (n.qp q).state = 0 then n.createQp q else n) n) n
  else n

/-- QP_RECREATE_TIMER (R599): 10 ms after a protected queue pair failed. -/
def Nld.recreate (n : Nld) (q : Nat) : Nld :=
  if q < 256 ∧ (n.qp q).state = 4 ∧ n.fwRuns ∧ n.isRoot ∧ n.peerValid (q / 2) then n.createQp q else n

/-- The status of NLD_RDMA_QP_CMD. -/
def Nld.qpStatus (n : Nld) (v : Nat) : Nld := n.put NReg.RDMA_QP_CMD_status v

/-- QP_ALLOC (R621): the first free consumer queue pair. -/
def Nld.qpAlloc (n : Nld) : Nld :=
  match (List.range 3840).find? (fun i => !(n.qp (256 + i)).used) with
  | none => (n.qpStatus 1).raise NReg.RDMA_EVT_create_refused
  | some i =>
    let x : Qp := { used := true, ackTo := 4, retryCnt := 7, rnrRetry := 7, minRnr := 1 }
    ((n.setQp (256 + i) x).put NReg.RDMA_QP_CMD_qp (256 + i)).qpStatus 0

/-- R622: the check of a consumer's context. -/
def Nld.qpContextOk (n : Nld) (x : Qp) : Bool :=
  let key := ringKey 0 x.ring
  decide (3 ≤ x.mtu ∧ x.mtu ≤ 5) && decide (128 ≤ x.shaper) && decide (1 ≤ x.ackTo ∧ x.ackTo ≤ 20) &&
    (n.ring key).enabled && (n.ringType key == 2 || n.ringType key == 3)

/-- QP_INIT (R600, R621): the context is checked; a consumer posts no receive buffers, so RTR follows at once, and its keying
begins. -/
def Nld.qpInit (n : Nld) (q : Nat) : Nld :=
  let x := n.qp q
  let n := n.put NReg.RDMA_QP_CMD_qp q
  if q < 256 then n.qpStatus 2
  else if ¬ x.used ∨ x.state ≠ 0 then n.qpStatus 4
  else if ¬ n.qpContextOk x then n.qpStatus 3
  else
    let n := (n.setQp q { x with state := 2 }).register (257 + x.ring) (n.areaSize (ringKey 0 x.ring)) 1 fleet
    (n.offer q).qpStatus 0

/-- QP_ERROR_CMD (R607, R621). -/
def Nld.qpErrorCmd (n : Nld) (q : Nat) : Nld :=
  let n := n.put NReg.RDMA_QP_CMD_qp q
  if q < 256 then n.qpStatus 2
  else if (n.qp q).state = 0 ∨ (n.qp q).state = 4 then n.qpStatus 4
  else (n.qpFail q 7).qpStatus 0

/-- QP_RESET_FREE (R600, R621). -/
def Nld.qpFree (n : Nld) (q : Nat) : Nld :=
  let n := n.put NReg.RDMA_QP_CMD_qp q
  if q < 256 then n.qpStatus 2
  else if ¬ (n.qp q).used then n.qpStatus 4
  else (n.setQp q {}).qpStatus 0

/-! ### Ports and shapers (R595, R614, R616) -/

/-- R595: an Ethernet port runs. -/
def Nld.ethUp (n : Nld) (e : Nat) : Bool := n.bit NReg.ETHe_CFG_enable e && n.bit NReg.ETHe_CFG_link_up e

/-- R595: the port a queue pair sends on. -/
def Nld.portOf (n : Nld) (x : Qp) : Option Nat :=
  if n.ethUp x.port then some x.port else if n.ethUp (1 - x.port) then some (1 - x.port) else none

/-- R595: some queue pair that sends moves from one port to the other. -/
def Nld.moved (before n : Nld) : Bool :=
  n.rdma.qps.any (fun e => decide (e.2.state = 2 ∨ e.2.state = 3) && (before.portOf e.2).isSome && (n.portOf e.2).isSome &&
    before.portOf e.2 != n.portOf e.2)

/-- ETH_LINK_CHANGE (R595). -/
def Nld.ethLink (n : Nld) (e : Nat) (up : Bool) : Nld :=
  let m := n.put NReg.ETHe_CFG_link_up up.toNat e
  if Nld.moved n m then m.raise NReg.RDMA_EVT_port_failover else m

/-- R593: the bytes of a path MTU. -/
def mtuBytes (mtu : Nat) : Nat := 2 ^ (7 + mtu)

/-- R616: what a packet is charged, in bytes. -/
def Nld.charge (n : Nld) (e q : Nat) (p : QpPkt) : Nat :=
  n.headerBytes e + (if p.imm.isSome then 4 else 0) + (if p.gen = 0 then 0 else 16) + (p.bytes.length + 3) / 4 * 4 +
    (n.shaper (n.qp q).shaper).ovhIn

/-- The bytes of a message when it goes. -/
def Nld.qpBytes (n : Nld) (q : Nat) (x : Qp) (m : QpMsg) : List Byte :=
  if m.kind = 1 then n.keyxBytes q x
  else if m.kind = 2 then hornMessage 0x21 0 (if qpClass q = 2 then 0x7FF else n.get NReg.GRP_CFG_name) []
  else m.bytes

/-- R611: data waits while an offer is out whose generation has not begun. -/
def Qp.waits (x : Qp) : Bool := x.keying.any (fun g => g.sent && x.gen != g.gen)

/-- R601, R606, R614: the next packet of a queue pair, if one is ready: one to be sent again, or the next of its first message. -/
def Nld.nextPkt (n : Nld) (q : Nat) : Option QpPkt :=
  let x := n.qp q
  if x.rnrWait ∨ (x.state ≠ 2 ∧ x.state ≠ 3) then none
  else if x.again > 0 then x.unacked[x.unacked.length - x.again]?
  else if x.unacked.length ≥ 1024 then none
  else
    match x.sendQ with
    | [] => none
    | m :: _ =>
      if m.kind = 0 ∧ (x.state ≠ 3 ∨ x.waits) then none
      else
        let all := n.qpBytes q x m
        let rest := all.drop x.cut
        let size := if m.kind = 0 then mtuBytes x.mtu else all.length
        let last := decide (rest.length ≤ size)
        let gen := if m.kind = 2 then (x.keys.head?.map (·.gen)).getD 0 else x.gen
        let wraps := if m.kind = 2 then 0 else x.txWraps
        some { psn := x.spsn, first := x.cut == 0, last := last, imm := if last then m.imm else none, bytes := rest.take size,
               gen := gen, ext := wraps * 2 ^ 24 + x.spsn }

/-- R616: a shaper lets a packet start. -/
def Nld.mayStart (n : Nld) (e q : Nat) (p : QpPkt) : Bool :=
  qpClass q == 0 || decide (((n.charge e q p * 256 : Nat) : Int) ≤ (n.shaper (n.qp q).shaper).level)

/-- R616: a shaper is charged. -/
def Nld.spend (n : Nld) (e q : Nat) (p : QpPkt) : Nld :=
  let s := (n.qp q).shaper
  let x := n.shaper s
  let level := x.level - ((n.charge e q p * 256 : Nat) : Int)
  n.setShaper s { x with level := if qpClass q = 0 then max level (-((x.burstIn * 256 : Nat) : Int)) else level }

/-- R593: the opcode of a SEND packet. -/
def sendOpcode (p : QpPkt) : Nat :=
  if p.first then (if p.last then (if p.imm.isSome then 5 else 4) else 0)
  else if p.last then (if p.imm.isSome then 3 else 2) else 1

/-- R606: a packet's payload as it goes. -/
def Qp.sealed (x : Qp) (p : QpPkt) : List Byte :=
  if p.gen = 0 then p.bytes
  else Config.aead ((x.keys.find? (fun k => k.gen = p.gen)).map (·.tx) |>.getD 0) p.ext p.bytes

/-- R600, R601, R611: a queue pair after its next new packet has gone. -/
def Qp.sent (x : Qp) (p : QpPkt) : Qp :=
  let kind : Nat := (x.sendQ.head?.map (fun (m : QpMsg) => m.kind)).getD 0
  let x := if kind = 1 then { x with keying := x.keying.map (fun g => { g with sent := true }) }
    else if kind = 2 then
      { x with state := 3, gen := p.gen, txWraps := 0, sentSince := 0,
               keys := x.keys.map (fun k => if k.gen = p.gen then { k with txFrom := some p.psn } else k) }
    else x
  { x with spsn := psnNext p.psn, txWraps := x.txWraps + (if psnNext p.psn = 0 then 1 else 0), sentSince := x.sentSince + 1,
           unacked := x.unacked ++ [p], cut := if p.last then 0 else x.cut + p.bytes.length,
           sendQ := if p.last then x.sendQ.drop 1 else x.sendQ }

/-- R614: the packets a port sends ahead of data. -/
def Nld.sendCtl (n : Nld) (e : Nat) : Option Nld :=
  match List.find? (fun (t : Nat × Qp) => !t.2.ctl.isEmpty && n.portOf t.2 == some e) n.rdma.qps with
  | none => none
  | some (q, x) =>
    match x.ctl with
    | [] => none
    | c :: rest =>
      let (op, psn, body) : Nat × Nat × List Byte := match c with
        | .ack psn => (0x11, psn, leBytes 1 0x1F)
        | .rnrNak psn t => (0x11, psn, leBytes 1 (0x20 + t))
        | .nak psn code => (0x11, psn, leBytes 1 (0x60 + code))
        | .cnp => (0x81, 0, [])
      some ((n.setQp q { x with ctl := rest }).emit (.roce e q psn op none body))

/-- The arbiter of a port. -/
def Nld.portRr (n : Nld) (e : Nat) : Tbl Nat := if e = 0 then n.rdma.rr0 else n.rdma.rr1

/-- PACKET_TRANSMIT (R614): what goes ahead of data, or the next packet that the arbiter of R221 chooses. A source that fails
its region's check ends in Error. -/
def Nld.sendPacket (n : Nld) (e : Nat) : Nld :=
  if ¬ n.ethUp e then n
  else
    match n.sendCtl e with
    | some n => n
    | none =>
      let ready (q : Nat) : Bool := match n.nextPkt q with
        | some p => n.portOf (n.qp q) == some e && n.mayStart e q p
        | none => false
      match arbitrate 4096 (fun q => 3 - qpClass q) ready (n.portRr e) with
      | none => n
      | some (q, rr) =>
        let n := { n with rdma := if e = 0 then { n.rdma with rr0 := rr } else { n.rdma with rr1 := rr } }
        match n.nextPkt q with
        | none => n
        | some p =>
          let x := n.qp q
          if ¬ n.sourceOk q then n.qpFail q 4
          else
            let n := (n.spend e q p).emit (.roce e q p.psn (sendOpcode p) p.imm (x.sealed p))
            if x.again > 0 then (n.setQp q { x with again := x.again - 1 }).count NReg.RDMA_RETX_count
            else n.setQp q (x.sent p).dropOld

/-- R616: a packet waits for a shaper. -/
def Nld.waitsOn (n : Nld) (s : Nat) : Bool :=
  n.rdma.qps.any (fun t => decide (t.2.shaper = s) && match n.nextPkt t.1, n.portOf t.2 with
    | some p, some e => !n.mayStart e t.1 p
    | _, _ => false)

/-- R616: one shaper's refill. -/
def Shaper.refill (x : Shaper) (waited : Bool) : Shaper :=
  { x with rateIn := x.rate, burstIn := x.burst, ovhIn := x.ovh, level := min (x.level + x.rate) ((x.burst * 256 : Nat) : Int),
           wait := min (2 ^ 32 - 1) (x.wait + waited.toNat) }

/-- SHAPER_REFILL (R616): the 256 shapers. -/
def Nld.refill (n : Nld) : Nld :=
  (List.range 256).foldl (fun (m : Nld) s => m.setShaper s ((n.shaper s).refill (n.waitsOn s))) n

/-! ### Receiving (R593 to R606) -/

/-- Something goes ahead of data. -/
def Nld.pushCtl (n : Nld) (q : Nat) (c : QpCtl) : Nld := n.setQp q { n.qp q with ctl := (n.qp q).ctl ++ [c] }

/-- R594: a packet is answered with NAK Invalid Request; the message it belongs to is given up. -/
def Nld.invalid (n : Nld) (q psn : Nat) : Nld :=
  let x := n.qp q
  let n := if qpClass q = 1 ∧ x.part.isSome then n.setSrq (n.rdma.srqUsed - 1)
    else if qpClass q = 0 ∧ x.part.isSome then n.setQp q { x with ownFree := min 32 (x.ownFree + 1) } else n
  ((n.setQp q { n.qp q with part := none }).pushCtl q (.nak psn 1)).count NReg.RDMA_INVREQ_count

/-- R606: a tag fails: 16 within 1 ms send the queue pair to Error. -/
def Nld.tagFail (n : Nld) (q : Nat) : Nld :=
  let x := n.qp q
  let faults := (n.elapsed :: x.faults.filter (fun t => decide (n.elapsed < t + 1000000))).take 16
  let n := ((n.setQp q { x with faults := faults }).count NReg.RDMA_TAGFAIL_count).raise NReg.RDMA_EVT_tag_fail
  if faults.length ≥ 16 then n.qpFail q 5 else n

/-- R593: the notification of a packet marked CE, one in 50 µs. -/
def Nld.markCe (n : Nld) (q : Nat) : Nld :=
  let x := n.qp q
  if x.lastCnp.all (fun t => decide (t + 50000 ≤ n.elapsed)) then
    (n.setQp q { x with lastCnp := some n.elapsed }).pushCtl q .cnp
  else n

/-- R601: a packet is taken: the last of a message, or the eighth, is acknowledged. -/
def Nld.takePkt (n : Nld) (q : Nat) (part : Option (List Byte)) (last : Bool) : Nld :=
  let x := n.qp q
  let due := last || decide (x.fresh + 1 ≥ 8)
  let e := psnNext x.epsn
  let n := n.setQp q ({ x with epsn := e, rxWraps := x.rxWraps + (if e = 0 then 1 else 0), part := part,
                               fresh := if due then 0 else x.fresh + 1 }.dropOld)
  if due then n.pushCtl q (.ack x.epsn) else n

/-- R594, R604, R605: an expected packet: it needs a buffer to begin a message and must not exceed it. -/
def Nld.expectedPkt (n : Nld) (q : Nat) (p : SendPkt) : Nld :=
  let x := n.qp q
  let type := (p.bytes.head?.map BitVec.toNat).getD 0
  let psn := p.psn.toNat
  if p.first ∧ p.last ∧ (type = 0x20 ∨ type = 0x21) then n.takePkt q x.part true
  else if qpClass q = 2 then n.invalid q psn
  else if p.first = x.part.isSome then n.invalid q psn
  else
    let room := if qpClass q = 0 then 256 else 131072
    let all := x.part.getD [] ++ p.bytes
    if all.length > room ∨ all.isEmpty then n.invalid q psn
    else if p.first ∧ (if qpClass q = 0 then x.ownFree = 0 else n.rdma.srqUsed ≥ 512) then
      (n.pushCtl q (.rnrNak psn x.minRnr)).count NReg.RDMA_RNRSENT_count
    else
      let n := if ¬ p.first then n
        else if qpClass q = 0 then n.setQp q { x with ownFree := x.ownFree - 1 }
        else n.setSrq (n.rdma.srqUsed + 1)
      n.takePkt q (if p.last then none else some all) p.last

/-- R601, R606, R611: a SEND packet. -/
def Nld.sendIn (n : Nld) (q : Nat) (p : SendPkt) : Nld :=
  let x := n.qp q
  let type := (p.bytes.head?.map BitVec.toNat).getD 0
  let n := if p.ce then n.markCe q else n
  if p.sealed ∧ (¬ x.keyed ∨ x.keys.isEmpty ∨ ¬ p.tagOk) then n.tagFail q
  else if ¬ p.sealed ∧ (x.keyed ∨ type ≠ 0x20) then n.count NReg.RDMA_PLAINDROP_count
  else
    let d := psnDiff p.psn.toNat x.epsn
    if d = 0 then n.expectedPkt q p
    else if d ≥ 2 ^ 23 then n.pushCtl q (.ack ((x.epsn + 2 ^ 24 - 1) % 2 ^ 24))
    else n.pushCtl q (.nak x.epsn 0)

/-- R601: an acknowledgement up to a PSN. -/
def Qp.acked (x : Qp) (psn : Nat) : Qp :=
  let left := x.unacked.filter (fun p => !decide (psnDiff psn p.psn < 2 ^ 23))
  if left.length = x.unacked.length then x
  else ({ x with unacked := left, again := min x.again left.length, retries := 0, rnrs := 0 }).dropOld

/-- R602: go back to the first packet not acknowledged, or give up. -/
def Nld.goBack (n : Nld) (q : Nat) : Nld :=
  let x := n.qp q
  if x.unacked.isEmpty then n
  else if x.retries ≥ x.retryCnt then n.qpFail q 1
  else n.setQp q { x with retries := x.retries + 1, again := x.unacked.length }

/-- ROCE_PACKET_RECEIVE (R593 to R606). -/
def Nld.roceIn (n : Nld) (e qpn : Nat) (p : RocePkt) : Nld :=
  let q := qpn - 0x1000
  let x := n.qp q
  if ¬ n.ethUp e then n
  else if qpn < 0x1000 ∨ q ≥ 4096 ∨ (x.state ≠ 2 ∧ x.state ≠ 3) then n.count NReg.RDMA_INVREQ_count
  else
    match p with
    | .send p => n.sendIn q p
    | .other psn => n.invalid q psn.toNat
    | .cnp => n.count NReg.RDMA_CNPRX_count
    | .ack psn => n.setQp q (x.acked psn.toNat)
    | .nak psn code =>
      let n := n.setQp q (x.acked ((psn.toNat + 2 ^ 24 - 1) % 2 ^ 24))
      match code with
      | .sequence => n.goBack q
      | _ => n.qpFail q 3
    | .rnrNak psn =>
      let y := x.acked ((psn.toNat + 2 ^ 24 - 1) % 2 ^ 24)
      let n := n.setQp q y
      if y.unacked.isEmpty then n
      else if y.rnrRetry ≠ 7 ∧ y.rnrs ≥ y.rnrRetry then n.qpFail q 2
      else n.setQp q { y with rnrs := y.rnrs + 1, rnrWait := true }

/-- QP_ACK_TIMEOUT (R602). -/
def Nld.ackTimeout (n : Nld) (q : Nat) : Nld :=
  let x := n.qp q
  if (x.state = 2 ∨ x.state = 3) ∧ ¬ x.rnrWait then n.goBack q else n

/-- RNR_TIMER (R602). -/
def Nld.rnrTimer (n : Nld) (q : Nat) : Nld :=
  let x := n.qp q
  if x.rnrWait then n.setQp q { x with rnrWait := false, again := x.unacked.length } else n

/-! ### The context words of a queue pair (R622) -/

/-- R622: a word of the context. -/
def Qp.word (x : Qp) (q w : Nat) : Nat :=
  if w = 0 then x.state + 8 * x.keyed.toNat + 16 * qpClass q + 64 * x.port + 256 * x.mtu + 2 ^ 16 * x.shaper + 2 ^ 28 * x.cause
  else if w = 1 then x.rqpn
  else if 2 ≤ w ∧ w ≤ 5 then x.raddr / 2 ^ (32 * (w - 2)) % 2 ^ 32
  else if w = 6 then x.consumer
  else if w = 7 then x.ring
  else if w = 8 then x.ackTo + 32 * x.retryCnt + 256 * x.rnrRetry + 2048 * x.minRnr
  else if w = 9 then x.spsn
  else if w = 10 then x.epsn
  else if w = 11 then x.gen
  else 0

/-- R622: the driver writes a word of the context. -/
def Qp.setWord (x : Qp) (w v : Nat) : Qp :=
  if w = 0 then { x with port := v / 64 % 2, mtu := v / 256 % 8, shaper := v / 2 ^ 16 % 256 }
  else if w = 1 then { x with rqpn := v % 2 ^ 24 }
  else if 2 ≤ w ∧ w ≤ 5 then
    let sh := 2 ^ (32 * (w - 2))
    { x with raddr := x.raddr - x.raddr / sh % 2 ^ 32 * sh + v % 2 ^ 32 * sh }
  else if w = 6 then { x with consumer := v % 2 ^ 32 }
  else if w = 7 then { x with ring := v % 32 }
  else if w = 8 then { x with ackTo := v % 32, retryCnt := v / 32 % 8, rnrRetry := v / 256 % 8, minRnr := v / 2048 % 32 }
  else x

end Sys2Proof.Machine
end

