-- ==== Sys2Proof/Machine/NldFw.lean ====
section
/-! DEFINITION. Firmware (R626 to R646): loads, starts, the watchdog, live update, what an image does as it starts, and the
emulated window (R589, R590, R706). -/

namespace Sys2Proof.Machine

open Sys2Proof

/-- Replace firmware's state. -/
def Nld.setFw (n : Nld) (f : NFw) : Nld := { n with fw := f }

/-! ### Images and loads (R627 to R629, R644) -/

/-- R627: the image of a load. -/
def imageOf (b : FwBlob) : FwImage :=
  let h := b.header
  { major := fieldAt h 8 1, minor := fieldAt h 9 1, patch := fieldAt h 10 2, svn := fieldAt h 12 4, raise := bitOf (fieldAt h 3 1) 0,
    manifest := b.manifest.map (fun w => (w.toNat % 65536, w.toNat / 65536)), schema := fieldAt h 24 2,
    schemaMin := fieldAt h 26 2, digest := b.digest }

/-- R627, R628: magic, version, reserved fields, and the manifest inside the image. -/
def imageShapeOk (b : FwBlob) : Bool :=
  let h := b.header
  let off := fieldAt h 16 4
  let cnt := fieldAt h 20 4
  h.length == 64 && fieldAt h 0 2 == 0x4657 && fieldAt h 2 1 == 1 && decide (fieldAt h 3 1 ≤ 1) && decide (1 ≤ fieldAt h 12 4) &&
    (h.drop 28).all (· == 0) && off % 64 == 0 && decide (1 ≤ cnt ∧ cnt ≤ 1024) && b.manifest.length == cnt &&
    decide (64 ≤ off) && decide (off + 4 * cnt + 104 ≤ fieldAt h 4 4)

/-- R628, R644: the code of a load; 2 when every check passes. While test access is open no signature is accepted (R667). -/
def Nld.loadCode (n : Nld) (b : FwBlob) (update : Bool) : Nat :=
  let len := n.get NReg.FW_LOAD_LEN_len
  let i := imageOf b
  if len = 0 ∨ len % 4096 ≠ 0 ∨ len > 128 * 2 ^ 20 ∨ fieldAt b.header 4 4 ≠ len then 3
  else if ¬ b.readOk then 4
  else if ¬ imageShapeOk b then 5
  else if bitOf n.sec.revokedMask b.keyIndex.val ∨ ¬ b.keyOk then 7
  else if n.opened then 9
  else if ¬ b.signOk then 6
  else if i.svn < n.sec.minSvn then 8
  else if ¬ i.manifest.any (fun e => e.2 = n.get NReg.ID_revision) then 9
  else if update ∧ ¬ n.image.any (fun r => decide (i.schemaMin ≤ r.schema ∧ r.schema ≤ i.schema)) then 10
  else 2

/-- The boot stage. -/
def Nld.bootStage (n : Nld) : Nat := n.get NReg.BOOT_STATUS_stage

/-- A load begins. -/
def Nld.startLoad (n : Nld) (b : FwBlob) (update : Bool) : Nld :=
  let l : FwLoad := { update := update, code := n.loadCode b update, image := imageOf b }
  ((n.setFw { n.fw with load := some l }).put NReg.FW_LOAD_STAT_busy 1).put NReg.FW_LOAD_STAT_code 0

/-- A load that is not allowed now. -/
def Nld.refuseLoad (n : Nld) : Nld := n.put NReg.FW_LOAD_STAT_code 11

/-- FW_LOAD (R629): in stage 2, or while firmware is absent once stage 5 has been reached; boot resumes at stage 3. -/
def Nld.fwLoad (n : Nld) (b : FwBlob) : Nld :=
  if n.bit NReg.FW_LOAD_STAT_busy then n.refuseLoad
  else if n.bootStage = 2 ∨ (n.bootStage = 5 ∧ n.get NReg.FW_STATUS_state = 0) then
    (n.startLoad b false).put NReg.BOOT_STATUS_stage 3
  else n.refuseLoad

/-- FW_UPDATE (R629, R644). -/
def Nld.fwUpdate (n : Nld) (b : FwBlob) : Nld :=
  if n.fwRuns ∧ ¬ n.bit NReg.FW_LOAD_STAT_busy then n.startLoad b true else n.refuseLoad

/-- A boot stage fails: the sequence stops in stage 14 or 15. -/
def Nld.bootFail (n : Nld) (stage code : Nat) : Nld :=
  let failed := n.bootStage
  ((n.put NReg.BOOT_STATUS_stage stage).put NReg.BOOT_STATUS_fail_code code).submit 0x0002 4 [failed, code]

/-- The version words of the image that runs and of another. -/
def Nld.versions (n : Nld) (i : FwImage) : List Nat := [(n.image.map FwImage.version).getD 0, i.version]

/-- A load or update ends with a code. -/
def Nld.loadDone (n : Nld) (code : Nat) : Nld :=
  ((n.setFw { n.fw with load := none, takeover := none }).put NReg.FW_LOAD_STAT_busy 0).put NReg.FW_LOAD_STAT_code code

/-- R644: the first tick whose boundary lies at least 5 ms ahead. -/
def Nld.takeoverTick (n : Nld) : Nat :=
  let p := max 1 (n.periodUs * 1000)
  (n.now + 5000000 + p - 1) / p

/-- FW_LOAD_COMPLETE (R628, R644): the checks are done; they wait for a security core that restarts (R640). -/
def Nld.fwLoadComplete (n : Nld) : Nld :=
  if n.sec.down then n
  else
    match n.fw.load with
    | none => n
    | some l =>
      let n := if l.code = 6 then n.sigRefused 0 else n
      if l.update then
        if l.code ≠ 2 then n.loadDone l.code
        else if ¬ n.fwRuns then n.loadDone 11
        else
          let slot := 1 - n.get NReg.FW_STATUS_slot
          let n := n.setFw { n.fw with images := Tbl.insert slot l.image (Tbl.erase slot n.fw.images), takeover := some n.takeoverTick }
          n.commitCopy.setFwState 3
      else if n.bootStage ≠ 3 then n
      else if l.code = 2 then
        let slot := n.get NReg.FW_STATUS_slot
        let n := n.setFw { n.fw with images := Tbl.insert slot l.image (Tbl.erase slot n.fw.images) }
        (n.loadDone 2).put NReg.BOOT_STATUS_stage 4
      else if l.code = 9 ∧ ¬ n.opened then (n.loadDone 9).bootFail 14 8
      else (n.loadDone l.code).bootFail 15 7

/-! ### The emulated window (R589, R590, R706) -/

/-- What the emulated registers hold beside the register fields: NLD_FWE_POOL_DATA, the log. -/
def Nld.emulatedField (n : Nld) (a : Nat) : Nat :=
  let img := n.image.map FwImage.version
  let share := Tbl.get (0, 0) (n.get NReg.FWE_POOL_IDX_owner) n.sched.shares
  if a = 0x20000 then img.getD 0
  else if a = 0x20004 then n.get NReg.FWE_STATE_restarts * 65536 + n.get NReg.FW_STATUS_state
  else if a = 0x20018 then share.1 % 65536 * 65536 + share.2 % 65536
  else if a = 0x20308 then
    match n.log.find? (fun r => r.seq % 16384 = n.get NReg.FWE_LOGSEL_index) with
    | none => 0
    | some r =>
      let w := n.get NReg.FWE_LOGSEL_word
      if w = 0 then r.seq % 2 ^ 32 else if w = 1 then r.seq / 2 ^ 32 % 2 ^ 32
      else if w = 2 then r.time % 2 ^ 32 else if w = 3 then r.time / 2 ^ 32 % 2 ^ 32
      else if w = 4 then r.core + 256 * r.level + Config.logWord r.seq 4 % 65536 * 65536
      else Config.logWord r.seq w % 2 ^ 32
  else if a = 0x2030C then n.logSeq % 2 ^ 32
  else n.regs.word NReg.table a

/-- R706: the PF register that an offset of a VF's window shows, if any. -/
def vfWindow (off : Nat) : Option Nat :=
  if off = 0x8000 ∨ off = 0x8004 ∨ off = 0x8014 ∨ off = 0x8018 then some (0x20000 + (off - 0x8000)) else none

/-- R589, R706: firmware's answer to a read of the window by a function. -/
def Nld.emulatedValue (n : Nld) (fn a : Nat) : Nat :=
  if fn = 0 then n.emulatedField a
  else
    match vfWindow a with
    | none => 0
    | some b =>
      let o := fnOwner fn
      if b = 0x20014 then o
      else if b = 0x20018 then
        let share := Tbl.get (0, 0) o n.sched.shares
        share.1 % 65536 * 65536 + share.2 % 65536
      else n.emulatedField b

/-- R326: the model pool in units of 256 MiB: 72 GiB less the fixed 2 GiB and the history. -/
def Nld.poolUnits (n : Nld) : Nat := 4 * (70 - min 70 (n.get NReg.FWE_HIST_gib))

/-- R326: the shares are laid out one after another in the order of the owners. -/
def layShares : Nat → List (Nat × Nat) → Tbl (Nat × Nat)
  | _, [] => []
  | base, (o, u) :: t => if u = 0 then layShares base t else (o, (base, u)) :: layShares (base + u) t

/-- R590: a write of an owner's share in units; one that the pool cannot hold is ignored. -/
def Nld.setShare (n : Nld) (o units : Nat) : Nld :=
  let old (i : Nat) : Nat := (Tbl.get (0, 0) i n.sched.shares).2
  let want := (List.range 17).map (fun i => (i, if i = o then units else old i))
  if (want.map (·.2)).foldl (· + ·) 0 ≤ n.poolUnits ∧ o ≤ fleet then { n with sched := { n.sched with shares := layShares 0 want } }
  else n

/-- R589, R590: firmware applies a write of the window. Writes through a VF are permitted nowhere. -/
def Nld.applyEmulated (n : Nld) (fn a v : Nat) : Nld :=
  let run := n.bit NReg.TICK_CTRL_run
  if fn ≠ 0 ∨ a < 0x20000 ∨ 0x40000 ≤ a then n
  else if a = 0x20010 then
    let gib := v % 64
    if run ∨ gib < 8 ∨ gib > 62 ∨ (n.sched.shares.map (fun (e : Nat × Nat × Nat) => e.2.2)).foldl (· + ·) 0 > 4 * (70 - gib) ∨
      gib = n.get NReg.FWE_HIST_gib then n
    else (n.put NReg.FWE_HIST_gib gib).clearHistory
  else if a = 0x20018 then (if run then n else n.setShare (n.get NReg.FWE_POOL_IDX_owner) (v % 65536))
  else { n with regs := n.regs.writePlain NReg.table a v }

/-- R589: reads and writes of the window that wait are served. -/
def Nld.serveEmulated (n : Nld) : Nld :=
  let n := n.host.writes.foldl (fun (m : Nld) (w : Nat × Nat × Nat) => m.applyEmulated w.1 w.2.1 w.2.2) n
  let n := n.host.reads.foldl (fun (m : Nld) (r : Nat × Nat) => m.emit (.readData r.1 r.2 (m.emulatedValue r.1 r.2))) n
  { n with host := { n.host with reads := [], writes := [] } }

/-- R589, R590: firmware serves the window at stage 5 while an image runs. -/
def Nld.serves (n : Nld) : Bool := n.fwRuns && n.bootStage == 5

/-- EMULATED_READ (R589). -/
def Nld.emulatedRead (n : Nld) (fn a : Nat) : Nld :=
  if n.serves then n.emit (.readData fn a (n.emulatedValue fn a))
  else { n with host := { n.host with reads := n.host.reads ++ [(fn, a)] } }

/-- EMULATED_READ_TIMEOUT (R589). -/
def Nld.emulatedTimeout (n : Nld) (fn a : Nat) : Nld :=
  if n.host.reads.contains (fn, a) then
    let n := { n with host := { n.host with reads := n.host.reads.erase (fn, a) } }
    (n.emit (.readData fn a 0xFFFFFFFF)).hqRaise NReg.HQ_EVT_emul_timeout NReg.VHQ_EVT_emul_timeout fn
  else n

/-- EMULATED_WRITE (R589). -/
def Nld.emulatedWrite (n : Nld) (fn a v : Nat) : Nld :=
  if n.serves then n.applyEmulated fn a v
  else if n.host.writes.length < 64 then { n with host := { n.host with writes := n.host.writes ++ [(fn, a, v)] } }
  else
    (n.hqCount NReg.HQ_EMULDROP_count NReg.VHQ_EMULDROP_count fn).hqRaise NReg.HQ_EVT_emul_drop NReg.VHQ_EVT_emul_drop fn

/-! ### An image starts (R630, R636, R637, R643, R656) -/

/-- R643: control core 3 drains one record of the hardware error ring: a log record, and the ring moves on. -/
def Nld.drainError (n : Nld) : Nld :=
  match n.hwErr with
  | [] => n
  | e :: rest =>
    if n.fwRuns then ({ n with hwErr := rest }.logWrite 3 1).put NReg.HWERR_CONS_seq ((e.seq + 1) % 2 ^ 32) else n

/-- R637: the journalled descriptors of the command rings are carried on: their recorded completions are written, their
requests sent again with the same cmd_ids. -/
def Nld.resumeHeld (n : Nld) : Nld :=
  let keys := n.ringKeys.filter (fun k => n.ringType k = 1)
  let n := keys.foldl (fun (n : Nld) key =>
    n.setRing key { n.ring key with held := (n.ring key).held.map (fun d => if d.phase.isSome then { d with again := true } else d) }) n
  let n := keys.foldl (fun (n : Nld) key =>
    (n.ring key).held.foldl (fun (n : Nld) d => match d.done with
      | some c => n.complete key d.slot c.status c.flags c.detail c.result
      | none => n) n) n
  n.chains.reqs.foldl (fun (n : Nld) q => if q.who = .firmware then n else n.sendRequest q) n

/-- R630, R636, R637, R643: what an image does as it starts. -/
def Nld.startImage (n : Nld) : Nld :=
  let n := (n.setFw { n.fw with kicks := [] }).setFwState 1
  (n.resumeCmdIds.lookUpAll.flushStaged.resumeHeld).serveEmulated

/-! ### The watchdog (R638, R639) -/

/-- WATCHDOG_KICK (R638). -/
def Nld.kick (n : Nld) (mask : Nat) : Nld :=
  n.setFw { n.fw with kicks := (bitList 4 mask).foldl (fun t c => Tbl.insert c n.elapsed (Tbl.erase c t)) n.fw.kicks }

/-- R638, R649: the firing is counted, and recorded. -/
def Nld.noteFiring (n : Nld) (core : Nat) : Nld :=
  let n := (n.put NReg.FW_STATUS_last_cause core).count NReg.FW_STATUS_restarts
  n.submit 0x0004 5 [core, n.get NReg.FW_STATUS_restarts]

/-- WATCHDOG_FIRE (R638, R639, R645): the control cores are halted. Within 100 ms of a takeover the old slot is restarted; a live
update that has not taken over is given up; a third firing within 1 s ends in the absent state. -/
def Nld.watchdogFire (n : Nld) (core : Nat) : Nld :=
  if n.get NReg.FW_STATUS_state ≠ 1 ∧ n.get NReg.FW_STATUS_state ≠ 3 then n
  else
    let late := n.elapsed
    let fired := (late :: n.fw.fired.filter (fun t => decide (late < t + 1000000000))).take 3
    let n := if n.fw.holding then
        let old := 1 - n.get NReg.FW_STATUS_slot
        let vs := [(n.image.map FwImage.version).getD 0, ((Tbl.find? old n.fw.images).map FwImage.version).getD 0]
        ((((n.setFw { n.fw with holding := false }).put NReg.FW_STATUS_slot old).put NReg.FW_LOAD_STAT_code 13).record 0x0005 3
          (vs ++ [13]))
      else if n.get NReg.FW_STATUS_state = 3 then n.loadDone 13
      else n
    let n := ((n.setFw { n.fw with fired := fired }).noteFiring core).count NReg.FWE_STATE_restarts
    n.setFwState (if fired.length ≥ 3 then 0 else 2)

/-- CONTROL_CORE_RESTART (R637 to R639): the slot is verified again and the cores start from it, with the newer valid copy. -/
def Nld.coreRestart (n : Nld) (verified : Bool) : Nld :=
  if n.get NReg.FW_STATUS_state ≠ 2 then n
  else if ¬ verified ∨ n.image.isNone ∨ n.fw.copySchema.isNone then n.setFwState 0
  else n.startImage

/-- FW_TAKEOVER (R644): at T(n_u) the cores restart from the new slot, which checks the state copy. -/
def Nld.takeover (n : Nld) (accepted : Bool) : Nld :=
  match n.fw.takeover, n.fw.load with
  | some t, some l =>
    if n.get NReg.FW_STATUS_state ≠ 3 ∨ n.boundaryNow < t then n
    else
      let vs := n.versions l.image
      if accepted then
        let n := ((n.loadDone 2).put NReg.FW_STATUS_slot (1 - n.get NReg.FW_STATUS_slot))
        ((n.setFw { n.fw with holding := true }).startImage).record 0x0005 3 (vs ++ [2])
      else ((n.loadDone 12).startImage).record 0x0005 3 (vs ++ [12])
  | _, _ => n

/-- UPDATE_HOLD_END (R645): 100 ms after it took over, the new image fetches descriptors and writes state copies; its first takes
its own schema (R646). -/
def Nld.holdEnd (n : Nld) : Nld :=
  if n.fw.holding then (n.setFw { n.fw with holding := false }).commitCopy else n

/-- R639: a start without a state copy that the image admits has an empty configuration. -/
def Nld.emptyConfig (n : Nld) : Nld :=
  let s : NSched := { pool := n.sched.pool, admissions := n.sched.admissions }
  let n := { n with sched := s, verdict := { n.verdict with jobs := [] }, defence := {}, rdma := { n.rdma with peers := [] } }
  ({ n with host := { n.host with taps := [] }, series := { n.series with staged := [] } }).put NReg.GRP_CFG_role 0

/-- R639: the state copy is one the image can read. -/
def Nld.copyReadable (n : Nld) : Bool :=
  match n.fw.copySchema, n.image with
  | some c, some i => decide (i.schemaMin ≤ c ∧ c ≤ i.schema)
  | _, _ => false

/-- R354: at start-up series 0 to 127 of every enumerated position are tracked for *fleet*. -/
def Nld.trackAtStart (n : Nld) : Nld :=
  let rows : Tbl TrackRow := ((List.range 512).filter (fun p => (n.entryOf p).valid)).map
    (fun p => (p, { mask := 2 ^ 128 - 1, base := 128 * p }))
  { n with series := { n.series with staged := rows } }.commitPositions

/-! ### The security core's watchdog (R640) -/

/-- SECURITY_WATCHDOG_FIRE (R640). -/
def Nld.secFire (n : Nld) : Nld := if n.sec.down then n else (n.setSec { n.sec with down := true }).noteFiring 4

/-- R640: what waited goes on, in order of arrival. -/
def Nld.runJob (n : Nld) : SecJob → Nld
  | .bugle b => n.runBugle b
  | .clear t => n.runClear t
  | .request r => n.runRequest r
  | .keyx q k => n.runKeyx q k
  | .offer q => n.offer q

/-- SECURITY_CORE_RESTART (R640). -/
def Nld.secRestart (n : Nld) : Nld :=
  if n.sec.down then
    let jobs := n.sec.held
    jobs.foldl (fun (n : Nld) j => n.runJob j) (n.setSec { n.sec with down := false, held := [] })
  else n

end Sys2Proof.Machine
end

