-- ==== Sys2Proof/Machine/NldPkg.lean ====
section
/-! DEFINITION. The package (R316 to R340, R692 to R704): power-up, boot, resets, stops, clocks, power, memory and die-link
errors. -/

namespace Sys2Proof.Machine

open Sys2Proof

/-! ### Resets (R335, R655, R657, R692, R696) -/

/-- R692, R693: the register fields that no reset of the package touches: NLD_ID.revision, the serial, last_fault, the opened and
provisioned counts. -/
def keptFields : List Fld :=
  [NReg.ID_revision, NReg.SERIAL_LO_serial_lo, NReg.SERIAL_HI_serial_hi, NReg.RST_CAUSE_last_fault, NReg.SEC_OPENCNT_opened,
   NReg.SEC_OPENCNT_provisioned]

/-- Keep some fields of a register file, the others at reset. -/
def Regs.keep (r : Regs) (l : List Fld) : Regs := l.foldl (fun (acc : Regs) f => acc.set f (r.get f)) []

/-- A package after a reset of everything but the always-on domain's non-volatile state: recorder slots and pointers, the sealed
keys and identity, the fuses, and the persisted counters. -/
def Nld.reborn (n : Nld) : Nld :=
  let rec' : NRecorder := { n.recorder with queue := [], lost := none, clear := none, staged := [] }
  let sec : NSecurity := { keys := n.sec.keys, drawn := n.sec.drawn, identity := n.sec.identity, installed := n.sec.installed,
                           step := n.sec.step, minSvn := n.sec.minSvn, revokedMask := n.sec.revokedMask }
  { regs := n.regs.keep keptFields, pkg := { elapsed := n.elapsed }, recorder := rec', sec := sec,
    fw := { cmdKept := n.fw.cmdKept }, out := n.out }

/-- The key count is shown. -/
def Nld.showKeys (n : Nld) : Nld := n.put NReg.SEC_STATUS_keys n.sec.keys.length

/-- R669, R671: the identity of the die is installed for the present opened count. -/
def Nld.showProvisioned (n : Nld) : Nld :=
  let ok := n.sec.identity.isSome && n.sec.installed && n.get NReg.SEC_OPENCNT_provisioned == n.get NReg.SEC_OPENCNT_opened
  n.put NReg.SEC_STATUS_provisioned ok.toNat

/-- R697: the clock sources are present and the core PLLs lock. -/
def Nld.clocksUp (n : Nld) : Nld :=
  [NReg.CLK_STATUS_pll_io, NReg.CLK_STATUS_pll_cmp, NReg.CLK_STATUS_pll_hbm, NReg.CLK_STATUS_ref_sys, NReg.CLK_STATUS_ref_pcie,
   NReg.CLK_STATUS_ref_eth, NReg.CLK_STATUS_ref_horn, NReg.CLK_STATUS_ref_fife].foldl (fun (n : Nld) f => n.put f 1) n

/-- NLD_POR_ASSERT: the whole package goes into reset; every link is Down. Records in the queue are lost with it. -/
def Nld.porAssert (n : Nld) : Nld := { n.reborn with pkg := { elapsed := n.elapsed, porLow := true } }

/-- NLD_POR (R335, R655, R694): boot starts at stage 0. The power cycle is counted, and the sequence number goes on past what was
persisted. -/
def Nld.porDeassert (n : Nld) : Nld :=
  if ¬ n.pkg.porLow then n
  else
    let n := { n with pkg := { n.pkg with porLow := false, pllSeen := true } }
    let r := { n.recorder with cycles := (n.recorder.cycles + 1) % 2 ^ 32, nextSeq := n.recorder.nextSeq / 4096 * 4096 + 4096 }
    { n with recorder := r }.clocksUp.showKeys

/-- PACKAGE_RESET (R696): like nld_por_n on everything but the always-on domain and the PCIe port. -/
def Nld.packageReset (n : Nld) : Nld :=
  if n.bootStage = 14 ∨ n.bootStage = 15 then n.raise NReg.PKG_EVT_reset_refused
  else
    let m := n.reborn
    let refs := [NReg.CLK_STATUS_ref_pcie, NReg.CLK_STATUS_ref_eth, NReg.CLK_STATUS_ref_horn, NReg.CLK_STATUS_ref_fife,
      NReg.SEC_STATUS_opened, NReg.SEC_STATUS_puf_off, NReg.RST_CAUSE_pkg_resets]
    let regs := refs.foldl (fun (acc : Regs) f => acc.set f (n.regs.get f)) m.clocksUp.regs
    let host : NHost := { msix := n.host.msix }
    let sec : NSecurity := { n.sec with held := [], down := false }
    let rec' : NRecorder := { m.recorder with clear := n.recorder.clear, lost := n.recorder.lost }
    let m : Nld := { m with regs := regs, pkg := { elapsed := n.elapsed, resetting := true, pllSeen := true }, host := host,
                            sec := sec, recorder := rec' }
    let m := if m.recorder.clear.isSome then (m.put NReg.REC_STATUS_clearing 1).put NReg.REC_CLR_STAT_busy 1 else m
    (((m.count NReg.RST_CAUSE_pkg_resets).put NReg.RST_CAUSE_by_cmd 1).put NReg.RST_CAUSE_por 0).showKeys

/-- R696: stage 0 starts after a package reset. -/
def Nld.bootStarts (n : Nld) : Nld := { n with pkg := { n.pkg with resetting := false } }

/-- CLEAR_FAULT (R694). -/
def Nld.clearFault (n : Nld) : Nld := n.put NReg.RST_CAUSE_last_fault 0

/-! ### Boot (R335 to R338, R657) -/

/-- R657, R661, R666: what boot stage 0 leaves: torn slots repaired, the power-cycle record and one for test access opened since, a
fresh nonce. -/
def Nld.stage0 (n : Nld) : Nld :=
  let (n, torn) := n.recRepair
  let n := if torn = 0 then n else n.raise NReg.REC_STATUS_torn
  let n := n.submit 0x0001 4 [torn]
  let opens := n.get NReg.SEC_OPENCNT_opened
  let n := if n.recorder.recordedOpens < opens then
      ({ n with recorder := { n.recorder with recordedOpens := opens } }).submit 0x0101 4 [opens]
    else n
  let n := n.newNonce
  (((n.put NReg.BOOT_STATUS_puf_ok 1).put NReg.BOOT_STATUS_nv_ok 1).showProvisioned).put NReg.BOOT_STATUS_stage 1

/-- R627: the fused minimum security version rises. -/
def Nld.raiseSvn (n : Nld) : Nld :=
  match n.image with
  | some i =>
    if i.raise ∧ n.sec.minSvn < i.svn then
      (n.setSec { n.sec with minSvn := i.svn }).submit 0x0105 4 [n.sec.minSvn, i.svn]
    else n
  | none => n

/-- R335, R639: stage 4 ends: the compute domain is up, the ports and time domains run, and the image starts, from the state copy
if it reads it and from an empty configuration otherwise. A restart from the absent state leaves ports and compute as they are. -/
def Nld.stage4 (n : Nld) : Nld :=
  let restored := n.copyReadable
  let n := if restored then n else n.emptyConfig
  let n := { n.put NReg.BOOT_STATUS_compute_on 1 with pkg := { n.pkg with portsOn := true } }
  let n := (n.put NReg.FW_LOAD_STAT_restored restored.toNat).put NReg.BOOT_STATUS_stage 5
  let n := if restored then n.startImage else n.startImage.trackAtStart
  n.commitCopy.raiseSvn

/-- BOOT_STAGE_COMPLETE (R335, R696). Stage 2 ends with a load, stage 3 with the load's checks. -/
def Nld.stageEnds (n : Nld) (e : StageEnd) : Nld :=
  let n := n.bootStarts
  let s := n.bootStage
  match e with
  | .failed code =>
    if s = 0 ∨ s = 1 then n.bootFail 15 code.toNat
    else if s = 4 then n.bootFail (if code = 8 then 14 else 15) code.toNat
    else n
  | .ok =>
    if s = 0 then (if n.bit NReg.SEC_STATUS_puf_off then n.bootFail 15 3 else n.stage0)
    else if s = 1 then (n.put NReg.BOOT_STATUS_hbm_ok 1).put NReg.BOOT_STATUS_stage 2
    else if s = 4 then n.stage4
    else n

/-! ### Stops (R334, R694, R697) -/

/-- The links of ports go Down. -/
def Nld.portsDown (n : Nld) (fife horn eth : Bool) : Nld :=
  let n := if fife then (List.range 16).foldl (fun (n : Nld) p => if (n.fife p).link.state = .off then n else
      n.fifeOp p LinkEnd.toDown) n else n
  let n := if horn then (List.range 8).foldl (fun (n : Nld) p => n.hornOp p LinkEnd.toDown) n else n
  if eth then (n.ethLink 0 false).ethLink 1 false else n

/-- R334: every clock outside the always-on domain stops. -/
def Nld.stopPackage (n : Nld) (fault : Nat) : Nld :=
  let n := (n.portsDown true true true).put NReg.RST_CAUSE_last_fault fault
  { n with pkg := { n.pkg with stopped := true } }

/-- R656: the records that wait commit. -/
def Nld.commitAll (n : Nld) : Nld :=
  (List.range (n.recorder.queue.length + 1)).foldl (fun (n : Nld) _ => n.recordCommit) n

/-- THERMAL_TRIP (R334): the security core writes the record before the clocks stop. -/
def Nld.thermalTrip (n : Nld) (sensor temp : Nat) : Nld := ((n.submit 0x0003 4 [sensor, temp]).commitAll).stopPackage 1

/-- PLL_LOCK_LOSS (R697), of a core PLL: 0 I/O, 1 compute, 2 HBM. -/
def Nld.pllLoss (n : Nld) (pll : Nat) : Nld :=
  let f := if pll = 0 then NReg.CLK_STATUS_pll_io else if pll = 1 then NReg.CLK_STATUS_pll_cmp else NReg.CLK_STATUS_pll_hbm
  let n := n.put f 0
  if n.pkg.pllSeen then n.stopPackage 2 else n

/-- SUPPLY_MONITOR_TRIP (R694). -/
def Nld.supplyTrip (n : Nld) : Nld := n.stopPackage 3

/-- The bit of a port reference in NLD_CLK_STATUS. -/
def refBit : PortRef → Fld
  | .pcie => NReg.CLK_STATUS_ref_pcie
  | .eth => NReg.CLK_STATUS_ref_eth
  | .horn => NReg.CLK_STATUS_ref_horn
  | .fife => NReg.CLK_STATUS_ref_fife

/-- REFERENCE_LOSS (R697). -/
def Nld.refLoss (n : Nld) (r : PortRef) : Nld :=
  ((n.put (refBit r) 0).portsDown (r == .fife) (r == .horn) (r == .eth)).raise NReg.PKG_EVT_ref_lost

/-- R697: the system reference is lost: the core PLLs lose lock. -/
def Nld.sysRefLoss (n : Nld) : Nld :=
  let n := ((n.put NReg.CLK_STATUS_ref_sys 0).put NReg.CLK_STATUS_pll_io 0).put NReg.CLK_STATUS_pll_cmp 0
  (n.put NReg.CLK_STATUS_pll_hbm 0).stopPackage 2

/-- REFERENCE_RETURN (R697): the links train again by their own rows. -/
def Nld.refReturn (n : Nld) (r : PortRef) : Nld := n.put (refBit r) 1

/-- PCIE_RESET (R561, R565): a conventional reset of the port: every function is reset, and its MSI-X state with it. -/
def Nld.pcieReset (n : Nld) : Nld :=
  let n := (List.range 17).foldl (fun (n : Nld) fn => n.flr fn) n
  { n with host := { n.host with reads := [], writes := [] } }

/-! ### Power (R333, R339, R340) -/

/-- R340: the power limit in force. -/
def Nld.powerLimit (n : Nld) : Nat := min 520 (n.get NReg.PWR_LIMIT_power_limit_w)

/-- R340: the throttle temperature in force. -/
def Nld.throttleTemp (n : Nld) : Nat := max 85 (min 105 (n.get NReg.PWR_LIMIT_tj_throttle_c))

/-- R333: the throttle level rises by k, for causes. At 7 it stops. -/
def Nld.throttleUp (n : Nld) (k cause : Nat) : Nld :=
  let l := n.get NReg.PWR_STATUS_level
  let n := { n with pkg := { n.pkg with calm := 0 } }
  if l ≥ 7 then n
  else ((n.put NReg.PWR_STATUS_level (min 7 (l + k))).put NReg.PWR_STATUS_cause cause).raise NReg.PWR_STATUS_thr_event

/-- POWER_EVALUATION (R333, R339): the average power of the last 1 ms and the hottest sensor. -/
def Nld.powerEval (n : Nld) (watts tj : Nat) : Nld :=
  let n := (n.put NReg.PWR_STATUS_power_w (min watts 1023)).put NReg.PWR_STATUS_tj_c (min tj 255)
  let above := decide (n.powerLimit < watts)
  let hot := decide (n.throttleTemp ≤ tj)
  if above ∨ hot then n.throttleUp 1 (above.toNat + 2 * hot.toNat)
  else if watts * 100 < n.powerLimit * 95 ∧ tj + 3 ≤ n.throttleTemp then
    if n.pkg.calm + 1 ≥ 100 then
      { n.put NReg.PWR_STATUS_level (n.get NReg.PWR_STATUS_level - 1) with pkg := { n.pkg with calm := 0 } }
    else { n with pkg := { n.pkg with calm := n.pkg.calm + 1 } }
  else { n with pkg := { n.pkg with calm := 0 } }

/-- DROOP_TRIP (R333). -/
def Nld.droop (n : Nld) : Nld := n.throttleUp 2 4

/-! ### Memory and the die-to-die link (R322 to R325, R702, R703) -/

/-- R702: the first uncorrectable error since ue was last cleared. -/
def Nld.noteUe (n : Nld) (structure_ addr : Nat) : Nld :=
  let n := if n.bit NReg.MEM_EVT_ue then n
    else ((n.put NReg.MEM_FIRST_structure structure_).put NReg.MEM_ADDR_LO_addr_lo (addr % 2 ^ 32)).put
      NReg.MEM_ADDR_HI_addr_hi (addr / 2 ^ 32)
  n.raise NReg.MEM_EVT_ue

/-- R325: mark a granule, by region and number. -/
def Nld.markGranule (n : Nld) (key : Nat) : Nld :=
  if n.pkg.marked.contains key then n
  else
    let n := { n with pkg := { n.pkg with marked := key :: n.pkg.marked } }
    (n.put NReg.HBM_MARKED_granules n.pkg.marked.length).raise NReg.MEM_EVT_marked

/-- R322, R325, R348, R363, R431: what the granule held returns poisoned from then on. -/
def Nld.poisonHit (n : Nld) : HbmHit → Nld
  | .other => n
  | .pool _ => n
  | .tick t pos series =>
    match n.tickRec t with
    | none => n
    | some x =>
      match Tbl.find? pos x.pos with
      | none => n
      | some r =>
        let r' : PosRec := { r with lost := (r.lost ++ series).eraseDups }
        n.setTick { x with pos := x.pos.map (fun (e : Nat × PosRec) => if e.1 = pos then (pos, r') else e) }
  | .history ctx seg =>
    let h := Tbl.get ({} : HistArea) ctx n.series.hist
    let spoil (s : HistSeg) : HistSeg :=
      if s.id = seg then
        let v := fieldAt s.bytes 8 32 ||| fieldAt s.bytes 40 32
        { s with bytes := s.bytes.take 8 ++ leBytes 32 0 ++ leBytes 32 v ++ s.bytes.drop 72 }
      else s
    { n with series := { n.series with hist := Tbl.set ({} : HistArea) ctx { h with segs := h.segs.map spoil } n.series.hist } }
  | .staged order =>
    let l := n.host.staged.map (fun (q : StagedSeq) => if q.order = order then { q with status := 2 } else q)
    { n with host := { n.host with staged := l } }

/-- HBM_UE (R325, R702, R653): the error is recorded and its granule marked. Stack 1 holds the upper half of the granules of R325's
address space by the interleave: pseudo-channels 32 to 63. -/
def Nld.hbmUe (n : Nld) (addr : Nat) (hit : HbmHit) : Nld :=
  let key := match hit with
    | .pool g => granuleKey poolRegion g
    | _ => addr / 256
  let n := (n.noteUe (if addr / 256 % 64 < 32 then 6 else 7) addr).count NReg.MEM_UE_HBM_count
  ((n.markGranule key).poisonHit hit).submit 0x0009 5 [addr / 256 * 256]

/-- SCRUB_PASS_COMPLETE (R325, R702). -/
def Nld.scrubPass (n : Nld) : Nld :=
  if n.bit NReg.HBM_SCRUB_enable then (n.put NReg.HBM_SCRUB_progress 0).raise NReg.MEM_EVT_scrub_pass else n

/-- CORRECTABLE_ERROR of Naloder (R322, R324, R325, R702). -/
def Nld.correctable (n : Nld) (m : NldMem) : Nld :=
  (n.count (match m with
    | .sram => NReg.MEM_CE_SRAM_count
    | .network => NReg.MEM_CE_NOC_count
    | .hbm => NReg.MEM_CE_HBM_count)).raise NReg.MEM_EVT_ce

/-- D2D_REPLAY (R323, R703). -/
def Nld.d2dReplay (n : Nld) (ns : Nat) : Nld :=
  ((n.count NReg.D2D_REPLAY_count).put NReg.D2D_MAXNS_max_ns (min 65535 (max ns (n.get NReg.D2D_MAXNS_max_ns)))).raise
    NReg.D2D_EVT_replay

/-- D2D_REPLAY_LIMIT (R323, R703): the transfer is delivered poisoned. -/
def Nld.d2dLimit (n : Nld) : Nld := (n.count NReg.D2D_UNC_count).raise NReg.D2D_EVT_unc

end Sys2Proof.Machine
end

