-- ==== Sys2Proof/Machine/NldCmds.lean ====
section
/-! DEFINITION. The host's commands (R577, R578): what firmware does with the descriptors of the command rings. -/

namespace Sys2Proof.Machine

open Sys2Proof

/-- R577: the result bytes of a command. -/
def resultOf (opcode : Nat) (items : List Nat) : List Byte := (Config.resultBytes opcode items).take 16

/-- QUERY: firmware version, boot stage and newest opened tick. -/
def Nld.query' (n : Nld) (h : DescHdr) : Nld :=
  n.onDesc h 0x01 (fun n =>
    n.done h 0 0 (resultOf 0x01 [(n.image.map FwImage.version).getD 0, n.bootStage, n.tick.newest.getD 0]))

/-- R325: writing a granule of the model pool unmarks it. -/
def Nld.unmark (n : Nld) (at_ len : Nat) : Nld :=
  let hit (k : Nat) : Bool := decide (granuleKey poolRegion (at_ / 256) ≤ k) && decide (k * 256 < granuleKey poolRegion 0 * 256 + at_ + len)
  if n.pkg.marked.any hit then
    let l := n.pkg.marked.filter (fun k => !hit k)
    { n with pkg := { n.pkg with marked := l } }.put NReg.HBM_MARKED_granules l.length
  else n

/-- LOAD (R327): copy a buffer into the own share of the model pool. -/
def Nld.load (n : Nld) (h : DescHdr) (offset : Nat) (bytes : List Byte) : Nld :=
  n.onDesc h 0x02 (fun n =>
    if ¬ n.inShare h.owner offset bytes.length then n.refuse h 0x02
    else
      let pool := bytes.zipIdx.foldl (fun (t : Tbl Nat) b => Tbl.set 0 (offset + b.2) b.1.toNat t) n.sched.pool
      (({ n with sched := { n.sched with pool := pool } }).unmark offset bytes.length).done h 0)

/-- ADMIT (R444, R445, R640, R667): the signature check waits for a security core that restarts. -/
def Nld.admitCmd (n : Nld) (h : DescHdr) (offset len : Nat) (params : List OpParams) (signed : Bool) : Nld :=
  n.onDesc h 0x03 (fun n =>
    if n.sec.down then n
    else if n.opened then n.done h 1 9
    else
      let (m, code) := n.takeImage h.fn.val offset len params signed
      let m := if code = 1 then m.sigRefused (leNat (n.poolBytes (offset + 24) 4)) else m
      if code = 0 then m.done h 0 else m.done h 1 code)

/-- WITHDRAW (R444). -/
def Nld.withdrawCmd (n : Nld) (h : DescHdr) (image : Nat) : Nld :=
  n.onDesc h 0x04 (fun n =>
    let (m, ok) := n.withdraw h.owner image
    if ok then m.done h 0 else m.refuse h 0x04)

/-- The staged row of a position. -/
def Nld.stagedRow (n : Nld) (pos : Nat) : TrackRow := Tbl.get ({} : TrackRow) pos n.series.staged

/-- R376: write a word of the staged position table: 0 the base, 1 to 32 the mask. -/
def Nld.stageWord (n : Nld) (pos word v : Nat) : Nld :=
  let r := n.stagedRow pos
  let r := if word = 0 then { r with base := v % 2 ^ 18 }
    else
      let sh := 2 ^ (32 * (word - 1))
      { r with mask := r.mask - r.mask / sh % 2 ^ 32 * sh + v % 2 ^ 32 * sh }
  { n with series := { n.series with staged := Tbl.set ({} : TrackRow) pos r n.series.staged } }

/-- R354: the changes of a position's row concern series of one owner only; a base that moves carries every series of the row. -/
def Nld.rowOwned (n : Nld) (o pos : Nat) (old new_ : TrackRow) : Bool :=
  let mine (s : Nat) : Bool := ownerIn (n.ownMap pos).owners s == o
  (trackedSeries (old.mask ^^^ new_.mask)).all mine && (old.base == new_.base || (trackedSeries old.mask).all mine)

/-- TRACK (R353, R354): words of the staged position table for own series; firmware commits them. -/
def Nld.trackCmd (n : Nld) (h : DescHdr) (ws : List TrackWord) : Nld :=
  n.onDesc h 0x05 (fun n =>
    let m := ws.foldl (fun (m : Nld) w => m.stageWord w.pos.val w.word.val w.value.toNat) n
    if ¬ ws.all (fun w => n.rowOwned h.owner w.pos.val (n.stagedRow w.pos.val) (m.stagedRow w.pos.val)) then n.done h 2
    else
      let c := m.commitPositions
      if m.positionsOk then c.done h 0
      else ({ c with series := { c.series with staged := n.series.staged } }).refuse h 0x05)

/-- R361, R376: bp and k of a context from the next sweep. -/
def Nld.ctxCfg (n : Nld) (c bp k : Nat) : Nld :=
  if bp > 96 then n
  else { n with series := { n.series with cfgs := n.series.cfgs.filter (fun e => e.1 ≠ c) ++ [(c, bp, k)] } }

/-- R361: a statistics epoch of a context at the sweep of a tick; one already sealed is the next sweep's. -/
def Nld.ctxEpoch (n : Nld) (c e : Nat) : Nld × Nat :=
  let first := match n.tick.newestSealed with
    | some t => max e (t + 1)
    | none => e
  ({ n with series := { n.series with epochs := n.series.epochs ++ [(c, first)] } }, first)

/-- CTX_CFG (R361): the owner of the context sets bp and k, and may start an epoch. -/
def Nld.ctxCmd (n : Nld) (h : DescHdr) (c bp k : Nat) (epoch : Option Nat) : Nld :=
  n.onDesc h 0x06 (fun n =>
    if bp > 96 ∨ k > 15 ∨ c ≥ 262144 then n.done h 3
    else if (Tbl.get ({} : SerCtx) c n.series.ctx).owner ≠ h.owner then n.done h 2
    else
      let n := n.ctxCfg c bp k
      match epoch with
      | none => n.done h 0
      | some e =>
        let (n, actual) := n.ctxEpoch c e
        n.done h 0 0 (resultOf 0x06 [actual]))

/-- JOB_REPORT (R508). -/
def Nld.reportCmd (n : Nld) (h : DescHdr) (part addr : Nat) (dead : Bool) : Nld :=
  n.onDesc h 0x07 (fun n =>
    if h.owner ≠ fleet ∧ h.owner ≠ part then n.done h 2
    else if ¬ n.isMember part addr then n.refuse h 0x07
    else (n.jobReport part addr dead).done h 0)

/-- The addresses of a bitmap, rising. -/
def bitmapList (l : List (BitVec 18)) : List Nat :=
  (l.foldl (fun (t : Tbl Nat) a => Tbl.set 0 a.toNat 1 t) []).map (·.1)

/-- MEMBERSHIP (R511): *fleet* declares a partition's bitmap from a tick on, at least 2 ms ahead. -/
def Nld.memberCmd (n : Nld) (h : DescHdr) (part epoch tick : Nat) (bitmap : List (BitVec 18)) : Nld :=
  n.onDesc h 0x08 (fun n =>
    let j := n.job part
    let l := bitmapList bitmap
    if h.owner ≠ fleet then n.done h 2
    else if n.tickAt tick < n.now + 2000000 then n.refuse h 0x08
    else if ¬ j.accepts epoch l then n.done h 8
    else (n.setJob part { j with coming := j.coming ++ [{ epoch := epoch, tick := tick, members := l }] }).done h 0)

/-- CHECKPOINT (R514). -/
def Nld.checkpointCmd (n : Nld) (h : DescHdr) (part epoch c : Nat) : Nld :=
  n.onDesc h 0x09 (fun n =>
    if h.owner ≠ fleet ∧ h.owner ≠ part then n.done h 2
    else if epoch ≠ (n.job part).epoch ∨ n.tick.newestSealed.any (fun t => decide (c ≤ t)) then n.refuse h 0x09
    else (n.checkpoint part c).done h 0)

/-- VOTE (R542): write a slot, or arm a round. -/
def Nld.voteCmd (n : Nld) (h : DescHdr) (v : VoteOp) : Nld :=
  n.onDesc h 0x0A (fun n =>
    let may (o : Nat) : Bool := h.owner == fleet || h.owner == o
    match v with
    | .slot o slot reps expel =>
      let rs := reps.map (fun r => (r.1.toNat, r.2.toNat))
      if ¬ may o.val then n.done h 2
      else if ¬ n.voteOk h.owner o.val slot.toNat rs then n.refuse h 0x0A
      else (n.writeVote o.val slot.toNat rs expel).done h 0
    | .round o slot epoch tick =>
      if ¬ may o.val then n.done h 2
      else if (n.voteSlot (8 * o.val + slot.toNat)).isNone ∨ slot.toNat ≥ 8 then n.refuse h 0x0A
      else (n.armVote o.val slot.toNat epoch.toNat tick.toNat).done h 0)

/-- TALLY (R544, R551): slots 8 to 15; declared only if the segments still fit. -/
def Nld.tallyCmd (n : Nld) (h : DescHdr) (slot patternId tick : Nat) : Nld :=
  n.onDesc h 0x0B (fun n =>
    let more := if (Tbl.find? slot n.defence.tallies).isSome then 0 else 96
    if h.owner ≠ fleet then n.done h 2
    else if slot < 8 ∨ 15 < slot then n.done h 3
    else if ¬ n.summariesOk (n.slotBytes + more) (n.sched.programs.filter (fun q => !q.withdrawn)) then n.refuse h 0x0B
    else (n.armTally slot patternId tick).done h 0)

/-- The tensor of a vector. -/
def vecTensor (t : VecTensor) : TVal :=
  { fmt := t.fmt, bp := t.bp, cols := t.cols, elems := t.elems.map (fun e => { bits := e.1, status := e.2.1, poison := e.2.2 }) }

/-- A vector of a set. -/
def checkVector (v : VecOp) : CheckVector :=
  { params := v.params, srcs := v.srcs.map vecTensor, dst := (v.fmt, v.bp, v.cols), digest := v.digest.toNat }

/-- VECTOR_SET (R552, R640, R667): a set signed by a *fleet* key with the vector-set use. -/
def Nld.vectorCmd (n : Nld) (h : DescHdr) (s : VecSet) : Nld :=
  n.onDesc h 0x0C (fun n =>
    let signed := s.good && (n.keyFor s.key.toNat 2).any (fun k => k.owner == fleet)
    if h.owner ≠ fleet then n.done h 2
    else if n.sec.down then n
    else if n.opened then (n.raise NReg.CHK_EVT_set_refused).done h 1 9
    else
      let n := if signed then n else n.sigRefused s.key.toNat
      let (m, ok) := n.vectorSet signed (s.keys.map BitVec.toNat) (s.vectors.map checkVector)
      if ok then m.done h 0 else m.refuse h 0x0C)

/-- ABORT (R519): code 5 for *fleet*, and code 6 for an owner, of its own partition only. -/
def Nld.abortCmd (n : Nld) (h : DescHdr) (scope : Nat) : Nld :=
  n.onDesc h 0x10 (fun n =>
    if h.owner = fleet then (n.originateAbort scope 5).done h 0
    else if scope ≠ 2 ^ h.owner then n.done h 2
    else (n.originateAbort scope 6).done h 0)

/-- TAP_OWNER (R579). -/
def Nld.tapOwnerCmd (n : Nld) (h : DescHdr) (tap owner : Nat) : Nld :=
  n.onDesc h 0x11 (fun n =>
    if h.owner ≠ fleet then n.done h 2
    else if tap ≥ 16 ∨ owner > fleet then n.done h 3
    else { n with host := { n.host with taps := Tbl.set fleet tap owner n.host.taps } }.done h 0)

end Sys2Proof.Machine
end

