-- ==== Sys2Proof/Machine/NldPtp.lean ====
section
/-! DEFINITION. IEEE 1588 on the Ethernet ports (R93, R101). -/

namespace Sys2Proof.Machine

open Sys2Proof

/-- The record of a port. -/
def Nld.ptpPort (n : Nld) (e : Nat) : PtpPort := Tbl.get ({} : PtpPort) e n.ptp

/-- Change it. -/
def Nld.setPtp (n : Nld) (e : Nat) (x : PtpPort) : Nld := { n with ptp := Tbl.set ({} : PtpPort) e x n.ptp }

/-- The source code of an Ethernet port (R99). -/
def ptpCode (e : Nat) : Nat := 9 + e

/-- The domain a port disciplines or serves. -/
def Nld.ptpDomain (n : Nld) (e : Nat) : Nat := n.get NReg.PTP_CFGe_bound_domain e

/-- A port is active. -/
def Nld.ptpOn (n : Nld) (e : Nat) : Bool :=
  n.bit NReg.PTP_CFGe_enable e && n.bit NReg.ETHe_CFG_enable e && n.bit NReg.ETHe_CFG_link_up e

/-- R93, R590: a message is from the accepted master: its port identity, and its address unless it came over IEEE 802.3. -/
def Nld.fromMaster (n : Nld) (e : Nat) (h : PtpHdr) : Bool :=
  let src := n.get NReg.FWE_PTPe_SRC0_source e + 2 ^ 32 * (n.get NReg.FWE_PTPe_SRC1_source e +
    2 ^ 32 * (n.get NReg.FWE_PTPe_SRC2_source e + 2 ^ 32 * n.get NReg.FWE_PTPe_SRC3_source e))
  h.clock.toNat == n.get NReg.FWE_PTPe_CLK0_clock_id e + 2 ^ 32 * n.get NReg.FWE_PTPe_CLK1_clock_id e &&
  h.port.toNat == n.get NReg.FWE_PTPe_PORT_port_number e &&
  (h.transport.val == 2 || h.source.toNat == src)

/-- `k` bytes of a number, most significant first, as IEEE 1588 sends them. -/
def beBytes (k v : Nat) : List Byte := (leBytes k v).reverse

/-- A time in 2^-16 ns as an IEEE 1588 timestamp: seconds, then ns. -/
def ptpTime (t : Nat) : List Byte :=
  let ns := t / 65536
  beBytes 6 (ns / 1000000000) ++ beBytes 4 (ns % 1000000000)

/-- The header of a message (IEEE 1588-2019, 13.3): type, length, flags, correction, sequence number, interval. -/
def Nld.ptpHeader (n : Nld) (e type len flags corr seq interval : Nat) : List Byte :=
  let control := if type = 0 then 0 else if type = 1 then 1 else if type = 8 then 2 else if type = 9 then 3 else 5
  beBytes 1 type ++ beBytes 1 0x12 ++ beBytes 2 len ++ beBytes 1 (n.get NReg.PTP_CFGe_domain_number e) ++ beBytes 1 0 ++
  beBytes 2 flags ++ beBytes 8 corr ++ beBytes 4 0 ++ beBytes 10 (Config.ptpField e 0) ++ beBytes 2 seq ++
  beBytes 1 control ++ beBytes 1 interval

/-- R101: logSyncInterval as the byte that a message carries. -/
def Nld.logSync (n : Nld) (e : Nat) : Nat :=
  let v := n.get NReg.PTP_CFGe_log_sync e
  if v = 0 then 0 else 240 + v

/-- R93: a master's Delay_Resp for a request received at `t4`. -/
def Nld.delayAnswer (n : Nld) (e : Nat) (h : PtpHdr) (t4 : Nat) : Nld :=
  let corr := fieldOf 64 (h.corr - ((t4 % 65536 : Nat) : Int))
  n.emit (.ether e (n.ptpHeader e 9 54 0 corr h.seq.toNat (n.logSync e) ++ ptpTime t4 ++
    beBytes 8 h.clock.toNat ++ beBytes 2 h.port.toNat))

/-- A time in ns, in 2^-16 ns. -/
def nsTime (ns : Nat) : Int := ((ns * 65536 : Nat) : Int)

/-- R93: a slave's port takes a message of its master, received `dt` after the preceding edge. -/
def Nld.ptpSlave (n : Nld) (e : Nat) (h : PtpHdr) (b : PtpBody) (dt : Nat) : Nld :=
  let d := n.ptpDomain e
  let t2 := (n.dom d).tb.reading + dt
  match b with
  | .sync false origin => n.domSyncAt (ptpCode e) (nsTime origin) h.corr t2 d
  | .sync true _ => n.setPtp e { n.ptpPort e with waiting := some (h.seq.toNat, t2, h.corr) }
  | .followUp precise =>
    match (n.ptpPort e).waiting with
    | none => n
    | some w =>
      if w.1 = h.seq.toNat then
        (n.setPtp e { n.ptpPort e with waiting := none }).domSyncAt (ptpCode e) (nsTime precise) (w.2.2 + h.corr) w.2.1 d
      else n
  | .delayResp received true => n.domResp (ptpCode e) h.seq.toNat (nsTime received) h.corr d
  | _ => n

/-- PTP_MESSAGE (R93): an IEEE 1588 message on an Ethernet port. -/
def Nld.ptpIn (n : Nld) (e : Nat) (h : PtpHdr) (b : PtpBody) (dt : Nat) : Nld :=
  if ¬ n.ptpOn e ∨ h.domain.toNat ≠ n.get NReg.PTP_CFGe_domain_number e ∨
    h.transport.val ≠ n.get NReg.PTP_CFGe_transport e then n
  else if n.bit NReg.PTP_CFGe_master e then
    match b with
    | .delayReq => n.delayAnswer e h (fieldOf 80 ((n.dom (n.ptpDomain e)).tb.reading + dt))
    | _ => n
  else if n.fromMaster e h then n.ptpSlave e h b dt
  else
    match b with
    | .announce => n.setPtp e { n.ptpPort e with ignored := (n.ptpPort e).ignored + 1 }
    | _ => n

/-- R93: a master sends Sync, with its time in it or in a Follow_Up. -/
def Nld.ptpSync (n : Nld) (e dt : Nat) : Nld :=
  let x := n.ptpPort e
  let t1 := fieldOf 80 ((n.dom (n.ptpDomain e)).tb.reading + dt)
  let n' := n.setPtp e { x with syncSeq := (x.syncSeq + 1) % 65536 }
  let frac := t1 % 65536
  if n.bit NReg.PTP_CFGe_one_step e then
    n'.emit (.ether e (n.ptpHeader e 0 44 0 frac x.syncSeq (n.logSync e) ++ ptpTime t1))
  else
    (n'.emit (.ether e (n.ptpHeader e 0 44 0x0200 0 x.syncSeq (n.logSync e) ++ ptpTime 0))).emit
      (.ether e (n.ptpHeader e 8 44 0 frac x.syncSeq (n.logSync e) ++ ptpTime t1))

/-- R93: a master sends Announce. -/
def Nld.ptpAnnounce (n : Nld) (e : Nat) : Nld :=
  let x := n.ptpPort e
  (n.setPtp e { x with announceSeq := (x.announceSeq + 1) % 65536 }).emit
    (.ether e (n.ptpHeader e 0xB 64 0 0 x.announceSeq (n.get NReg.PTP_CFGe_log_announce e) ++ ptpTime 0 ++
      beBytes 20 (Config.ptpField e 1)))

/-- R93: a slave sends Delay_Req, and keeps when it left. -/
def Nld.ptpDelayReq (n : Nld) (e dt : Nat) : Nld :=
  let d := n.ptpDomain e
  let cs := n.codes d
  let x := n.dom d
  let t3 := x.tb.reading + dt
  let send (n : Nld) (seq : Nat) : Nld :=
    n.emit (.ether e (n.ptpHeader e 1 44 0 0 (seq % 65536) 0x7F ++ ptpTime 0))
  if cs.1 = ptpCode e then
    send (n.setDom d { x with tb := { x.tb with main := x.tb.main.request t3 } }) x.tb.main.nextSeq
  else if cs.2 = ptpCode e then
    send (n.setDom d { x with tb := { x.tb with second := x.tb.second.request t3 } }) x.tb.second.nextSeq
  else n

/-- PTP_TRANSMIT (R93): a port's Sync, Announce or Delay_Req goes at its interval, `dt` after the preceding edge. -/
def Nld.ptpSend (n : Nld) (e : Nat) (k : PtpSend) (dt : Nat) : Nld :=
  if ¬ n.ptpOn e then n
  else
    match k, n.bit NReg.PTP_CFGe_master e with
    | .sync, true => n.ptpSync e dt
    | .announce, true => n.ptpAnnounce e
    | .delayReq, false => n.ptpDelayReq e dt
    | _, _ => n

/-- R101: a write of NLD_PTP_CFGe.log_sync; values without an encoding are refused. -/
def Nld.writeLogSync (n : Nld) (e v : Nat) : Nld :=
  if v = 0 ∨ 9 ≤ v then n.put NReg.PTP_CFGe_log_sync v e else n

end Sys2Proof.Machine
end

