-- ==== Sys2Proof/Machine/NldRegs.lean ====
section
/-! DEFINITION. Access to Naloder's registers through PF BAR0 and the VF BARs (R14, R16, R156, R336, R589, R689 to R708). The BAR
of VF n lies at 0x100_0000 + 0x1_0000 n of the register file. -/

namespace Sys2Proof.Machine

open Sys2Proof

/-! ### Where an access lands (R689, R691, R705) -/

/-- The place of a function's BAR0 offset in the register file. -/
def nldAddr (fn off : Nat) : Nat := if fn = 0 then off else 0x1000000 + 0x10000 * fn + off

/-- R689, R705: an offset lies in a function's BAR. -/
def inBar (fn off : Nat) : Bool := if fn = 0 then decide (off < 0x1000000) else decide (off < 0x10000)

/-- R689: the blocks that are readable, and written, from stage 0. -/
def resetBlock (fn off : Nat) : Bool := fn == 0 && decide (0x10000 ≤ off ∧ off < 0x20000)

/-- R689: the identity block, which accepts no writes. -/
def identityBlock (fn off : Nat) : Bool := fn == 0 && decide (off < 0x10000)

/-- R689: the addresses above the last block are reserved. -/
def reservedBlock (fn off : Nat) : Bool := fn == 0 && decide (0x380000 ≤ off)

/-- R589, R689, R705: the emulated window. -/
def emulatedBlock (fn off : Nat) : Bool :=
  if fn = 0 then decide (0x20000 ≤ off ∧ off < 0x40000) else decide (0x8000 ≤ off ∧ off < 0x9000)

/-- The vectors of a function's MSI-X table, and where table and PBA lie (R689, R705). -/
def msixBase (fn : Nat) : Nat := if fn = 0 then 0x48000 else 0xE000

/-- Where its PBA lies. -/
def pbaBase (fn : Nat) : Nat := if fn = 0 then 0x49000 else 0xF000

/-- R689, R705: an offset lies in the MSI-X table. -/
def inMsix (fn off : Nat) : Bool := decide (msixBase fn ≤ off ∧ off < msixBase fn + 16 * fnVectors fn)

/-- R689, R705: an offset lies in the PBA. -/
def inPba (fn off : Nat) : Bool := decide (pbaBase fn ≤ off ∧ off < pbaBase fn + 8)

/-! ### MSI-X (R588) -/

/-- A word of the MSI-X table; bit 0 of word 3 masks the vector, and PCIe sets it at reset. -/
def Nld.msixWord (n : Nld) (fn off : Nat) : Nat :=
  let w := (off - msixBase fn) / 4
  Tbl.get (if w % 4 = 3 then 1 else 0) (256 * fn + w) n.host.msix

/-- A word of the PBA. -/
def Nld.pbaWord (n : Nld) (fn off : Nat) : Nat :=
  let w := (off - pbaBase fn) / 4
  (List.range 32).foldl (fun (m : Nat) b => if n.host.pba.contains (64 * fn + 32 * w + b) then m + 2 ^ b else m) 0

/-- R588: a write of the table; a vector that is unmasked sends the message that waits. -/
def Nld.msixWrite (n : Nld) (fn off v : Nat) : Nld :=
  let w := (off - msixBase fn) / 4
  let n := { n with host := { n.host with msix := Tbl.set (if w % 4 = 3 then 1 else 0) (256 * fn + w) v n.host.msix } }
  let key := 64 * fn + w / 4
  if n.host.pba.contains key ∧ ¬ n.vecMasked fn (w / 4) then
    { n with host := { n.host with pba := n.host.pba.erase key } }.emit (.msix fn (w / 4))
  else n

/-! ### What registers read as -/

/-- R355: a context as one number, its bytes little-endian. -/
def SerCtx.packed (c : SerCtx) : Nat :=
  c.last % 2 ^ 32 + 2 ^ 32 * (c.lastTick % 2 ^ 48) + 2 ^ 80 * (c.flags % 2 ^ 16) + 2 ^ 96 * (c.total % 2 ^ 64) +
  2 ^ 160 * (c.n % 2 ^ 32) + 2 ^ 192 * (c.s1 % 2 ^ 64) + 2 ^ 256 * (c.s2 % 2 ^ 96) + 2 ^ 352 * (c.min % 2 ^ 32) +
  2 ^ 384 * (c.max % 2 ^ 32) + 2 ^ 416 * (c.base % 2 ^ 48) +
  2 ^ 464 * (c.owner % 32 * 2048 + c.bp % 128 * 16 + c.k % 16) + 2 ^ 480 * (c.absentRun % 2 ^ 16)

/-- R476: an object as one number, its bytes little-endian. -/
def RdvObj.packed (o : RdvObj) : Nat :=
  o.state % 256 + 2 ^ 8 * (o.kind % 256) + 2 ^ 16 * (o.owner % 256) + 2 ^ 24 * (o.scope % 256) + 2 ^ 32 * (o.epoch % 2 ^ 48) +
  2 ^ 80 * (o.expected % 2 ^ 16) + 2 ^ 96 * (o.count % 2 ^ 16) + 2 ^ 112 * (o.dup % 2 ^ 16) + 2 ^ 128 * (o.deadline % 2 ^ 64) +
  2 ^ 192 * (o.doneAt % 2 ^ 64) + 2 ^ 256 * (o.stale % 2 ^ 16) + 2 ^ 272 * (o.late % 2 ^ 16) + 2 ^ 512 * (o.seen % 2 ^ 512)

/-- A 32-bit word of a number. -/
def word32 (v w : Nat) : Nat := v / 2 ^ (32 * w) % 2 ^ 32

/-- R315: NLD_FIFEp_ENUM_DATA. -/
def Nld.enumWord (n : Nld) (p : Nat) : Nat :=
  let i := n.get NReg.FIFEp_ENUM_IDX_pos p
  let e := (n.fife p).entry i
  match n.get NReg.FIFEp_ENUM_IDX_word p with
  | 0 => bit1 e.valid * 2 ^ 31 + e.ratio % 4 * 2 ^ 24 + e.slots % 4 * 2 ^ 22 + bit1 e.leaf * 2 ^ 21 + e.profile % 4 * 2 ^ 19 +
      e.revision % 2 ^ 16
  | 1 => e.uid % 2 ^ 32
  | 2 => e.uid / 2 ^ 32 % 2 ^ 32
  | 3 => Tbl.get 0 i (n.fife p).gcLast % 2 ^ 16
  | _ => 0

/-- R374: NLD_ING_OWN_DATA.owner of the selected series and copy. -/
def Nld.ownWord (n : Nld) : Nat :=
  let m := n.ownMap (n.get NReg.ING_OWN_IDX_pos)
  let s := n.get NReg.ING_OWN_IDX_series
  let t := if n.bit NReg.ING_OWN_IDX_staged then m.staged else m.owners
  if s < 128 then fleet else Tbl.get fleet s t

/-- R376: NLD_SER_POS_DATA. -/
def Nld.posWord (n : Nld) : Nat :=
  let pos := n.get NReg.SER_POS_IDX_pos
  let r := if n.bit NReg.SER_POS_IDX_staged then n.stagedRow pos else Tbl.get ({} : TrackRow) pos n.series.table
  let w := n.get NReg.SER_POS_IDX_word
  if w = 0 then r.base else word32 r.mask (w - 1)

/-- R265: the table and generation that NLD_CODEC_TBL_IDX selects. -/
def Nld.tableSel (n : Nld) : CodeTable :=
  let t := n.get NReg.CODEC_TBL_IDX_table
  if t = 0 then { gen := 0, lens := sparseTable }
  else if t = 1 then { gen := 0, lens := busyTable }
  else
    let e := Tbl.get (({} : CodeTable), ({} : CodeTable)) t n.tables
    if n.bit NReg.CODEC_TBL_IDX_prev then e.2 else e.1

/-- R533: NLD_JOB_DATA. -/
def Nld.jobWord (n : Nld) : Nat :=
  let j := n.job (n.get NReg.JOB_IDX_part)
  let c := j.checkpoint.getD 0
  match n.get NReg.JOB_IDX_word with
  | 0 => j.epoch
  | 1 => c % 2 ^ 32
  | 2 => bit1 j.checkpoint.isSome * 2 ^ 31 + (j.advisories.countP (fun a => a.boundary.isNone)) % 128 * 2 ^ 16 + c / 2 ^ 32 % 2 ^ 16
  | _ => 0

/-- R670: NLD_REC_DATA. -/
def Nld.recWord (n : Nld) : Nat :=
  let s := n.recSlot (recKey (n.get NReg.REC_IDX_area) (n.get NReg.REC_IDX_slot))
  let w := n.get NReg.REC_IDX_word
  if n.get NReg.REC_IDX_slot ≥ recSlots (n.get NReg.REC_IDX_area) then 0
  else if w = 0 then s.gen % 2 ^ 32 else fieldAt s.body (4 * w - 4) 4

/-- Fife, ingest and Horn registers; `none` for a field that is not computed here. -/
def Nld.viewLinks (n : Nld) (f : Fld) (i : Nat) : Option Nat :=
  if f = NReg.FIFEp_STATUS_lp_state then some (n.fife i).link.lp
  else if f = NReg.FIFEp_STATUS_link_state then some (n.fife i).link.state.num
  else if f = NReg.FIFEp_STATUS_end_leaf then
    some (bit1 ((n.fife i).positions.getLast?.any (fun c => ((n.fife i).entry c).leaf)))
  else if f = NReg.FIFEp_STATUS_chain_len then some (n.fife i).positions.length
  else if f = NReg.FIFEp_ENUM_DATA_data then some (n.enumWord i)
  else if f = NReg.ING_OWN_DATA_pending then some (bit1 (n.ownMap (n.get NReg.ING_OWN_IDX_pos)).pending)
  else if f = NReg.ING_OWN_DATA_owner then some n.ownWord
  else if f = NReg.HORNp_STATUS_link_state then some (n.horn i).link.state.num
  else none

/-- Time and liveness registers (R97, R99, R529). -/
def Nld.viewTime (n : Nld) (f : Fld) (i : Nat) : Option Nat :=
  let b := (n.dom i).tb
  let r := Tbl.get ({} : KtuTime) (n.get NReg.TIME_KTU_IDX_pos) n.ktuTimes
  let l := n.liveOf (n.get NReg.LIVE_IDX_pos)
  if f = NReg.TDd_STATUS_step_pending then some (bit1 (b.state = .refusing && b.pending.isSome))
  else if f = NReg.TDd_STATUS_delay_valid then some (bit1 b.main.delayValid)
  else if f = NReg.TDd_STATUS_state then some b.state.num
  else if f = NReg.TDd_TIME_LO_ns_lo then some b.ns
  else if f = NReg.TDd_TIME_HI_ns_hi then some (b.ns / 2 ^ 32)
  else if f = NReg.TDd_TIME_FRAC_frac then some (b.value / 65536 % 65536)
  else if f = NReg.TDd_ADJ_adj then some (fieldOf 32 b.adj)
  else if f = NReg.TDd_OFFSET_offset then some (fieldOf 32 b.offset)
  else if f = NReg.TDd_DELAY_d_filt then some (fieldOf 32 b.main.dFilt)
  else if f = NReg.TIME_KTU_DATA_state_b then some r.stateB
  else if f = NReg.TIME_KTU_DATA_state_a then some r.stateA
  else if f = NReg.TIME_KTU_DATA_offset_q then some (fieldOf 20 (satInt 20 (r.offset / 256)))
  else if f = NReg.LIVE_DATA_state then some l.state.num
  else if f = NReg.LIVE_DATA_returned then some (bit1 l.returned)
  else if f = NReg.LIVE_DATA_corrupt_run then some (min 255 l.corrupt)
  else if f = NReg.LIVE_DATA_silent_run then some (min 65535 l.silent)
  else none

/-- Registers of the series engine, the reduction block, the codec, the recorder and the interrupts. -/
def Nld.viewBlocks (n : Nld) (f : Fld) : Option Nat :=
  let ctx := Tbl.get ({} : SerCtx) (n.get NReg.SER_CTX_IDX_ctx) n.series.ctx
  if f = NReg.SER_STATUS_hist_busy then some (bit1 n.series.closing.isSome)
  else if f = NReg.SER_POS_DATA_data then some n.posWord
  else if f = NReg.SER_CTX_DATA_data then some (word32 ctx.packed (n.get NReg.SER_CTX_IDX_word))
  else if f = NReg.RDV_DATA_data then some (word32 (n.rdv (n.get NReg.RDV_IDX_object)).packed (n.get NReg.RDV_IDX_word))
  else if f = NReg.RDV_FREE_free then
    some (16320 - (n.group.rdv.filter (fun e => decide (64 ≤ e.1) && decide (e.2.state = 1))).length)
  else if f = NReg.JOB_DATA_data then some n.jobWord
  else if f = NReg.CODEC_TBL_DATA_lengths then some (lengthsWord n.tableSel.lens (n.get NReg.CODEC_TBL_IDX_word))
  else if f = NReg.CODEC_TBL_GEN_gen then some n.tableSel.gen
  else if f = NReg.REC_DATA_data then some n.recWord
  else if f = NReg.REC_SEQ_LO_seq_lo then some n.recorder.nextSeq
  else if f = NReg.REC_SEQ_HI_seq_hi then some (n.recorder.nextSeq / 2 ^ 32)
  else if f = NReg.REC_WPTR_ORD_wrapped then some (bit1 n.recorder.ordWrapped)
  else if f = NReg.REC_WPTR_ORD_slot then some n.recorder.ordPtr
  else if f = NReg.REC_WPTR_PRIV_wrapped then some (bit1 n.recorder.privWrapped)
  else if f = NReg.REC_WPTR_PRIV_slot then some n.recorder.privPtr
  else if f = NReg.IRQ_SRC_src then some n.irqSrc
  else none

/-- Registers of the queue engine, of RDMA and of the shapers. -/
def Nld.viewHost (n : Nld) (f : Fld) (i : Nat) : Option Nat :=
  let s := n.shaper (n.get NReg.SHP_IDX_shaper)
  let q := n.get NReg.RDMA_QP_IDX_qp
  if f = NReg.HQ_RINGDATA_data then some (n.ctxWord (ringKey 0 (n.get NReg.HQ_RINGSEL_ring)) (n.get NReg.HQ_RINGSEL_word))
  else if f = NReg.VHQ_RINGDATA_data then
    let r := n.get NReg.VHQ_RINGSEL_ring i
    some (if r < 8 then n.ctxWord (ringKey (i + 1) r) (n.get NReg.VHQ_RINGSEL_word i) else 0)
  else if f = NReg.VHQ_CTRL_ro then some (n.get NReg.HQ_CTRL_ro)
  else if f = NReg.VHQ_CTRL_poll then some (n.get NReg.HQ_CTRL_poll)
  else if f = NReg.RDMA_PEER_DATA_data then
    some (n.peerWord (n.get NReg.RDMA_PEER_IDX_slot) (n.get NReg.RDMA_PEER_IDX_word))
  else if f = NReg.RDMA_QP_DATA_data then some ((n.qp q).word q (n.get NReg.RDMA_QP_IDX_word))
  else if f = NReg.SHP_RATE_rate then some s.rate
  else if f = NReg.SHP_BURST_burst then some s.burst
  else if f = NReg.SHP_OVH_overhead then some s.ovh
  else if f = NReg.SHP_LEVEL_level then some (fieldOf 32 (satInt 32 s.level))
  else if f = NReg.SHP_WAIT_count then some (min (2 ^ 32 - 1) s.wait)
  else none

/-- R707: the partition status registers of VF p + 1. -/
def Nld.viewVf (n : Nld) (f : Fld) (p : Nat) : Option Nat :=
  if f = NReg.VF_PART_part then some p
  else if f = NReg.VF_STATUS_fw_running then some (bit1 n.fwRuns)
  else if f = NReg.VF_STATUS_tick_run then some (n.get NReg.TICK_CTRL_run)
  else if f = NReg.VF_STATUS_programs then some (min 127 (n.ownersPrograms p).length)
  else if f = NReg.VF_STATUS_members then some ((n.job p).members.countP (fun a => addrGT a == n.name))
  else if f = NReg.VF_EPOCH_epoch then some (n.job p).epoch
  else if f = NReg.VF_NOW_LO_tick_lo then some (n.get NReg.TICK_NOW_LO_tick_lo)
  else if f = NReg.VF_NOW_HI_tick_hi then some (n.get NReg.TICK_NOW_HI_tick_hi)
  else if f = NReg.VF_WINDOW_length then some (winOf n.sched.windows p).2.1
  else if f = NReg.VF_SHARE_units then some (Tbl.get (0, 0) p n.sched.shares).2
  else if f = NReg.VF_CTX_tracked then some (n.trackedOf n.series.table p)
  else if f = NReg.VF_EVT_hq then some (bit1 (bitOf (n.vfEvents p) 6))
  else none

/-- R14: what a field reads as now. -/
def Nld.view (n : Nld) (f : Fld) (i : Nat) : Nat :=
  let v :=
    match n.viewLinks f i with
    | some v => v
    | none =>
      match n.viewTime f i with
      | some v => v
      | none =>
        match n.viewBlocks f with
        | some v => v
        | none =>
          match n.viewHost f i with
          | some v => v
          | none =>
            match n.viewVf f i with
            | some v => v
            | none => if f.acc = .wo then 0 else n.get f i
  v % 2 ^ f.width

/-- The fields of the word at a place of the register file. -/
def nldFields (a : Nat) : List (Fld × Nat) := Fld.at a NReg.table

/-- What every field at a place gives now. -/
def Nld.live (n : Nld) (a : Nat) : Nat :=
  (nldFields a).foldl (fun (acc : Nat) x => acc + n.view x.1 x.2 * 2 ^ x.1.lo) 0

/-! ### Reads (R14, R156, R336, R589, R691, R696) -/

/-- R97, R156, R707: the words that a read of a _LO word latches. -/
def nldLatched (a : Nat) : List Nat :=
  if 0xC0000 ≤ a ∧ a < 0xC0800 ∧ a % 256 = 8 then [a + 4, a + 8]
  else if a = 0xC8020 ∨ a = 0x180030 ∨ a = 0x2C000C then [a + 4]
  else if 0x141000 ≤ a ∧ a < 0x141280 ∧ (a % 64 = 8 ∨ a % 64 = 16) then [a + 4]
  else if 0x1000000 ≤ a ∧ a % 0x10000 = 0x100C then [a + 4]
  else []

/-- R156: a read of a _LO word latches, for its function, the words that belong to it. -/
def Nld.readLatch (n : Nld) (a : Nat) : Nld :=
  match nldLatched a with
  | [] => n
  | l =>
    let kept := n.host.latch.filter (fun e => decide (e.1 / 0x10000 ≠ a / 0x10000 ∧ (0x1000000 ≤ a ∨ 0x1000000 ≤ e.1)))
    { n with host := { n.host with latch := l.foldl (fun (t : Tbl Nat) x => Tbl.insert x (n.live x) t) kept } }

/-- R14: a read clears the RC fields it returns. -/
def Nld.readClear (n : Nld) (a : Nat) : Nld :=
  (nldFields a).foldl (fun (n : Nld) x =>
    if x.1.acc ≠ .rc then n
    else if x.1 = NReg.SHP_WAIT_count then
      let s := n.get NReg.SHP_IDX_shaper
      n.setShaper s { n.shaper s with wait := 0 }
    else n.put x.1 0 x.2) n

/-- One aligned word read by a function from the hardware's registers: the value, and what the read does. -/
def Nld.readHard (n : Nld) (fn off : Nat) : Nld × Nat :=
  let a := nldAddr fn off
  if inMsix fn off then (n, n.msixWord fn off)
  else if inPba fn off then (n, n.pbaWord fn off)
  else
    let v := (Tbl.find? a n.host.latch).getD (n.live a)
    ((n.readLatch a).readClear a, v)

/-- R336, R589, R691, R696: an aligned 32-bit read through a function's BAR0. -/
def Nld.readBar (n : Nld) (fn off : Nat) : Nld :=
  if ¬ inBar fn off ∨ off % 4 ≠ 0 then n
  else if n.pkg.resetting then n.emit (.readData fn off 0xFFFFFFFF)
  else if n.bootStage < 5 ∧ ¬ resetBlock fn off ∧ ¬ identityBlock fn off then n.emit (.readData fn off 0)
  else if emulatedBlock fn off then n.emulatedRead fn off
  else
    let (m, v) := n.readHard fn off
    m.emit (.readData fn off v)

/-! ### Writes: the fields with rules of their own -/

/-- R493: a write of a Horn port's enable; 0 holds the link in Down. -/
def Nld.hornEnable (n : Nld) (p : Nat) (v : Bool) : Nld :=
  let n := n.put NReg.HORNp_CTRL_enable v.toNat p
  if v then n else n.hornOp p (fun e => e.toDown)

/-- R595: an Ethernet port is enabled or stopped. -/
def Nld.ethEnable (n : Nld) (e : Nat) (v : Bool) : Nld :=
  let m := n.put NReg.ETHe_CFG_enable v.toNat e
  if Nld.moved n m then m.raise NReg.RDMA_EVT_port_failover else m

/-- R63, R100, R399, R425, R493, R494, R621: the fields that accept writes only while run = 0. -/
def runLocked (f : Fld) : Bool :=
  f.base = 0xC1000 || f = NReg.ARR_CTRL_cluster_en || f = NReg.TREE_CTRL_enable || f = NReg.HORNp_CTRL_role ||
  f = NReg.HORNp_PEER_expected || f = NReg.GRP_CFG_role || f = NReg.GRP_TRAYS_trays || f = NReg.GRP_ROOTPEER_peer ||
  f = NReg.GRP_GROUPS_LO_groups || f = NReg.GRP_GROUPS_HI_groups || f.base = 0x240200 || f = NReg.RDMA_LOCALw_addr

/-- The fields among them that share their word with fields written at any time: only a change is refused. -/
def sharesWord (f : Fld) : Bool := f = NReg.HORNp_CTRL_role || f = NReg.GRP_CFG_role

/-- R374: a write of NLD_ING_OWN_DATA.owner reaches the staged copy; 17 to 30 are ignored. -/
def Nld.stageOwner (n : Nld) (v : Nat) : Nld :=
  let pos := n.get NReg.ING_OWN_IDX_pos
  let m := n.ownMap pos
  if 17 ≤ v ∧ v ≤ 30 then n
  else n.setOwnMap pos { m with staged := Tbl.set fleet (n.get NReg.ING_OWN_IDX_series) v m.staged }

/-- R621: a write of NLD_RDMA_PEER_DATA. -/
def Nld.writePeer (n : Nld) (v : Nat) : Nld :=
  let w := n.get NReg.RDMA_PEER_IDX_word
  if w > 4 then n
  else
    let v := if w = 0 then v / 2 ^ 31 * 2 ^ 31 + v % 2048 else v
    { n with rdma := { n.rdma with peers := Tbl.set 0 (8 * n.get NReg.RDMA_PEER_IDX_slot + w) v n.rdma.peers } }

/-- R622: a write of NLD_RDMA_QP_DATA reaches only class 2 queue pairs in Reset. -/
def Nld.writeQp (n : Nld) (v : Nat) : Nld :=
  let q := n.get NReg.RDMA_QP_IDX_qp
  if qpClass q = 2 ∧ (n.qp q).state = 0 then n.setQp q ((n.qp q).setWord (n.get NReg.RDMA_QP_IDX_word) v) else n

/-- R617, R624: a write of a shaper's staged copy. Those of shapers 0 to 127 are firmware's. -/
def Nld.writeShaper (n : Nld) (firmware : Bool) (f : Fld) (v : Nat) : Nld :=
  let k := n.get NReg.SHP_IDX_shaper
  let s := n.shaper k
  if k < 128 ∧ ¬ firmware then n
  else if f = NReg.SHP_RATE_rate then n.setShaper k { s with rate := v }
  else if f = NReg.SHP_OVH_overhead then n.setShaper k { s with ovh := v }
  else if v < 4202 + s.ovh then n.raise NReg.SHP_STATUS_refused
  else n.setShaper k { s with burst := v }

/-- R591: some ring of a function is enabled. -/
def Nld.someRing (n : Nld) (fn : Nat) : Bool := (List.range 32).any (fun r => (n.ring (ringKey fn r)).enabled)

/-- R591: a write of a ring's context word, unless the ring is enabled. -/
def Nld.writeCtx (n : Nld) (fn ring w v : Nat) : Nld :=
  let key := ringKey fn ring
  if ring ≥ ringCount fn ∨ (n.ring key).enabled then n
  else { n with host := { n.host with ctx := Tbl.set 0 (32 * key + w) v n.host.ctx } }

/-- R643: a write of NLD_HWERR_CONS: the records before it are drained. -/
def Nld.writeHwCons (n : Nld) (v : Nat) : Nld :=
  let left := n.hwErr.filter (fun e => decide ((e.seq + 2 ^ 32 - v) % 2 ^ 32 < 2 ^ 31))
  { n with hwErr := left }.put NReg.HWERR_CONS_seq v

/-- A write of an RW field. -/
def Nld.writeRw (n : Nld) (firmware : Bool) (f : Fld) (v i : Nat) : Nld :=
  if runLocked f ∧ n.bit NReg.TICK_CTRL_run then
    (if sharesWord f ∧ v = n.get f i then n else n.refuseCfg)
  else if f = NReg.TDd_CTRL_hold then n.writeHold i (v != 0)
  else if f = NReg.TDd_CTRL_enable then n.writeEnable i (v != 0)
  else if f.base = 0xC0050 then n
  else if f = NReg.PTP_CFGe_log_sync then n.writeLogSync i v
  else if f = NReg.TICK_CTRL_run then n.tickRun (v != 0)
  else if f = NReg.TICK_PERIOD_period_us then n.writeSetPoint 0 v
  else if f = NReg.TICK_P_offset_us then n.writeSetPoint 1 v
  else if f = NReg.TICK_L_offset_us then n.writeSetPoint 2 v
  else if f = NReg.TICK_G_offset_us then n.writeSetPoint 3 v
  else if f = NReg.TICK_S_offset_us then n.writeSetPoint 4 v
  else if f = NReg.SER_CTRL_hist_en then (if n.bit NReg.TICK_CTRL_run then n else n.put f v)
  else if f = NReg.SER_POS_DATA_data then n.stageWord (n.get NReg.SER_POS_IDX_pos) (n.get NReg.SER_POS_IDX_word) v
  else if f = NReg.ING_OWN_DATA_owner then n.stageOwner v
  else if f = NReg.HORNp_CTRL_role then (if v ≤ 3 then n.put f v i else n)
  else if f = NReg.GRP_CFG_role then (if v ≤ 2 then n.put f v else n)
  else if f = NReg.HORNp_CTRL_enable then n.hornEnable i (v != 0)
  else if f = NReg.FIFEp_CTRL_enable then n.fifeEnable i (v != 0)
  else if f = NReg.FIFEp_SLEEP_target then (if v = 0 ∨ v = 3 then n else n.put f v i)
  else if f = NReg.ETHe_CFG_enable then n.ethEnable i (v != 0)
  else if f = NReg.BULK_CTRL_lane_en then n.laneEnable v
  else if f = NReg.RDMA_PEER_DATA_data then n.writePeer v
  else if f = NReg.RDMA_QP_DATA_data then n.writeQp v
  else if f.base = 0x280004 ∨ f.base = 0x280008 ∨ f.base = 0x28000C then n.writeShaper firmware f v
  else if f.base = 0x40008 ∨ f.base = 0x4000C then (if n.someRing 0 then n else n.put f v)
  else if f.base = 0x1010008 ∨ f.base = 0x101000C then (if n.someRing (i + 1) then n else n.put f v i)
  else if f = NReg.HQ_RINGDATA_data then n.writeCtx 0 (n.get NReg.HQ_RINGSEL_ring) (n.get NReg.HQ_RINGSEL_word) v
  else if f = NReg.VHQ_RINGDATA_data then
    n.writeCtx (i + 1) (n.get NReg.VHQ_RINGSEL_ring i) (n.get NReg.VHQ_RINGSEL_word i) v
  else if f = NReg.HWERR_CONS_seq then n.writeHwCons v
  else if f = NReg.RDMA_QP_CMD_qp then n.put f v
  else n.put f v i

/-- A write of a field, by its access code. WO fields act with the rest of their word (`Nld.writeCmd`). -/
def Nld.writeField (n : Nld) (firmware : Bool) (f : Fld) (v i : Nat) : Nld :=
  match f.acc with
  | .rw => n.writeRw firmware f v i
  | .w1c => n.put f (n.get f i - (n.get f i &&& v)) i
  | _ => n

/-- R376: NLD_SER_CTX_CFG. -/
def Nld.writeCtxCfg (n : Nld) (w : Nat) : Nld :=
  let c := n.get NReg.SER_CTX_IDX_ctx
  let n := if bitOf w 31 then n.ctxCfg c (NReg.SER_CTX_CFG_bp.part w) (NReg.SER_CTX_CFG_k.part w) else n
  if bitOf w 30 then (n.ctxEpoch c 0).1 else n

/-- R529: NLD_LIVE_CMD. -/
def Nld.liveCmd (n : Nld) (w : Nat) : Nld :=
  let pos := NReg.LIVE_CMD_pos.part w
  if ¬ bitOf w 31 then n
  else
    match NReg.LIVE_CMD_op.part w with
    | 1 => n.liveClear pos
    | 2 => n.query pos
    | _ => n

/-- R621: NLD_RDMA_QP_CMD. -/
def Nld.qpCmd (n : Nld) (w : Nat) : Nld :=
  let q := NReg.RDMA_QP_CMD_qp.part w
  match NReg.RDMA_QP_CMD_op.part w with
  | 1 => n.qpAlloc
  | 2 => n.qpInit q
  | 3 => n.qpErrorCmd q
  | 4 => n.qpFree q
  | _ => n

/-- R576, R591: NLD_HQ_RINGCMD of a function. -/
def Nld.ringCmd (n : Nld) (fn w : Nat) : Nld :=
  let r := w % 32
  if r ≥ ringCount fn then n
  else
    match w / 2 ^ 30 % 4 with
    | 1 => n.ringEnable fn r
    | 2 => n.ringDisable fn r
    | _ => n

/-- R315: the command bits of NLD_FIFEp_CTRL. -/
def Nld.fifeCtrl (n : Nld) (p w : Nat) : Nld :=
  let n := if bitOf w 3 then n.fifeReset p else n
  let n := if bitOf w 2 then n.fifeRetrain p else n
  if bitOf w 1 then n.wakeChain p else n

/-- R493: the command bits of NLD_HORNp_CTRL. -/
def Nld.hornCtrl (n : Nld) (p w : Nat) : Nld :=
  let n := if bitOf w 3 then n.hornOp p resetEnd else n
  if bitOf w 2 then n.hornOp p (fun e => e.toRetrain) else n

/-- R315: the ratio record, the one writable field of NLD_FIFEp_ENUM_DATA. -/
def Nld.writeRatio (n : Nld) (p v : Nat) : Nld :=
  let x := n.fife p
  let i := n.get NReg.FIFEp_ENUM_IDX_pos p
  if n.get NReg.FIFEp_ENUM_IDX_word p ≠ 0 ∨ v = 3 then n
  else n.setFife p { x with table := Tbl.set ({} : EnumEntry) i { x.entry i with ratio := v } x.table }

/-- R694 to R696: NLD_RST_CMD. -/
def Nld.rstCmd (n : Nld) (w : Nat) : Nld :=
  if NReg.RST_CMD_key.part w ≠ 0xA5 then n
  else
    let n := if bitOf w 1 then n.clearFault else n
    if bitOf w 0 then n.packageReset else n

/-- What the WO fields of a word do. The commands that read host memory (NLD_FW_LOAD_CMD, NLD_REC_CLR_CMD, NLD_SEC_REQ_CMD) have
rows of their own, which carry what they read. -/
def Nld.writeCmd (n : Nld) (a w : Nat) : Nld :=
  if a = 0x10004 then n.rstCmd w
  else if a = 0x10324 then n.kick (w % 16)
  else if a = 0x40018 then n.ringCmd 0 w
  else if 0x1000000 ≤ a ∧ a % 0x10000 = 0x18 then n.ringCmd ((a - 0x1000000) / 0x10000) w
  else if 0x80000 ≤ a ∧ a < 0x90000 ∧ a % 0x1000 = 0 then n.fifeCtrl ((a - 0x80000) / 0x1000) w
  else if 0x80000 ≤ a ∧ a < 0x90000 ∧ a % 0x1000 = 8 then
    (if bitOf w 31 then n.sleepGo ((a - 0x80000) / 0x1000) (w / 256 % 4) else n)
  else if 0x80000 ≤ a ∧ a < 0x90000 ∧ a % 0x1000 = 0x10 then n.writeRatio ((a - 0x80000) / 0x1000) (w / 2 ^ 24 % 4)
  else if a = 0x90048 then (if bitOf w 31 then n.armOwners (w % 512) else n)
  else if 0xA0000 ≤ a ∧ a < 0xA8000 ∧ a % 0x1000 = 0 then n.hornCtrl ((a - 0xA0000) / 0x1000) w
  else if 0xC0000 ≤ a ∧ a < 0xC0800 ∧ a % 256 = 0x48 then n.stepCmd ((a - 0xC0000) / 256) (bitOf w 0) (bitOf w 1)
  else if 0xC0000 ≤ a ∧ a < 0xC0800 ∧ a % 256 = 0x50 then n.writeSrc ((a - 0xC0000) / 256) w
  else if a = 0xC900C then n.liveCmd w
  else if a = 0x100028 then (if bitOf w 31 then n.commitPositions else n)
  else if a = 0x100038 then n.writeCtxCfg w
  else if a = 0x142200 then (if bitOf w 31 then n.commitWindows else n)
  else if a = 0x1C0210 then (if bitOf w 31 then n.originateAbort (w % 2 ^ 17) 5 else n)
  else if a = 0x200034 then (if bitOf w 31 then n.commitTable (w / 2 ^ 16 % 16) (w % 2 ^ 16) else n)
  else if a = 0x240238 then n.qpCmd w
  else n

/-- R700, R708: what a write to the interrupt registers arms again. -/
def Nld.rearmAt (before n : Nld) (a : Nat) : Nld :=
  if a = 0x340004 ∨ a = 0x340008 then Nld.rearm before n
  else if 0x1000000 ≤ a ∧ (a % 0x10000 = 0x1020 ∨ a % 0x10000 = 0x1024) then
    Nld.rearmVf before n ((a - 0x1010000) / 0x10000)
  else n

/-- One word written to the hardware's registers. -/
def Nld.writeHard (n : Nld) (firmware : Bool) (fn off w : Nat) : Nld :=
  let a := nldAddr fn off
  if inMsix fn off then n.msixWrite fn off w
  else
    let m := (nldFields a).foldl (fun (m : Nld) x => m.writeField firmware x.1 (x.1.part w) x.2) n
    Nld.rearmAt n (m.writeCmd a w) a

/-- R691, R704: an ignored write of the PF is reported. `reason`: 1 partial, 2 early. -/
def Nld.ignoredWrite (n : Nld) (reason : Nat) : Nld :=
  let n := if n.bit NReg.ACC_EVT_partial_write ∨ n.bit NReg.ACC_EVT_early_write then n else n.put NReg.ACC_EVT_reason reason
  let n := n.count NReg.ACC_IGNORED_count
  if reason = 1 then n.raise NReg.ACC_EVT_partial_write else n.raise NReg.ACC_EVT_early_write

/-- R336, R689: a function's write to an offset comes before its block accepts writes. -/
def Nld.earlyAt (n : Nld) (fn off : Nat) : Bool :=
  identityBlock fn off || (!resetBlock fn off && decide (n.bootStage < 5))

/-- R336, R589, R691, R705: an aligned 32-bit write with its byte enables through a function's BAR0. -/
def Nld.writeBar (n : Nld) (fn off w : Nat) (full : Bool) : Nld :=
  if ¬ inBar fn off ∨ off % 4 ≠ 0 ∨ n.pkg.resetting ∨ reservedBlock fn off then n
  else if ¬ full then (if fn = 0 then n.ignoredWrite 1 else n)
  else if n.earlyAt fn off then (if fn = 0 then n.ignoredWrite 2 else n)
  else if emulatedBlock fn off then n.emulatedWrite fn off w
  else n.writeHard false fn off w

/-- Firmware writes a register; it does so only while it runs, and only outside the emulated window. -/
def Nld.writeFw (n : Nld) (off w : Nat) : Nld :=
  if ¬ n.fwRuns ∨ ¬ inBar 0 off ∨ off % 4 ≠ 0 ∨ identityBlock 0 off ∨ emulatedBlock 0 off then n
  else n.writeHard true 0 off w

end Sys2Proof.Machine
end

