-- ==== Sys2Proof/Machine/State.lean ====
section
/-! DEFINITION. The whole state: one KTU, one Naloder, and the commands that wait; the reasons a step can stop; and the
state after reset. -/

namespace Sys2Proof.Machine

open Sys2Proof

/-! ### The whole state -/

/-- Why a step stops with a fault. No command of this block faults: the spec gives every one of them an effect. -/
inductive Fault where
  /-- Raised by nothing: kept so that the type has a name for a broken invariant of the model. Safe. -/
  | invariantBroken
  deriving DecidableEq, Repr

/-- Why a step answers no next state. -/
inductive Refusal where
  /-- An instruction whose meaning is not written. Safe. -/
  | notModelled (mnemonic : String)
  /-- R104: ktu_clk stopped while ktu_por_n was high, so the KTU's behaviour is undefined until ktu_por_n is next
  asserted. Raised by every command that acts on the KTU in between. Safe. -/
  | ktuUndefined
  deriving DecidableEq, Repr

/-- The machine: a KTU, a Naloder, the count of free values used (the model's own field), and the commands that wait,
first in, first out. -/
structure State where
  ktu : Ktu
  nld : Nld
  free : Nat := 0
  pending : List Instr := []
  deriving DecidableEq, Repr

/-! ### Reset -/

/-- The levels of the strap pins while ktu_por_n is low, before they are first captured (R106, R107). DESIGN CHOICE (log 2). -/
def resetStraps : Straps :=
  { leaf := false, profile := 0, domEn := 0xF, tbIncr := 0, trcDom := 0, dbgDom := 0, patDom := 0, digDom := 0, nCores := 8,
    uid := 0 }

/-- The machine right after reset: ktu_por_n and nld_por_n are asserted, every register at its reset value, every memory empty, no
command waiting (R679, R692, R714). DESIGN CHOICE (log 1): both resets are still held; KTU_POR_DEASSERT and NLD_POR release them. -/
def State.reset : State := { ktu := { pins := { straps := resetStraps, porLow := true } }, nld := {} }

end Sys2Proof.Machine
end

