-- ==== Sys2Proof/Machine/Ops.lean ====
section
/-! DEFINITION. How every command that acts on the KTU or on Naloder is wrapped: what holds it back in reset, and what
follows it. -/

namespace Sys2Proof.Machine

/-- The outcome of a command. -/
abbrev Out := Host.Outcome State Fault Refusal

/-- A command that acts on the KTU. In ktu_por_n nothing acts (R679); after ktu_clk stopped while ktu_por_n was high the
KTU's behaviour is undefined until ktu_por_n is next asserted (R104). -/
def onKtu (f : Ktu → Ktu) (s : State) : Out :=
  if s.ktu.pins.clkStopped then .refused .ktuUndefined
  else if s.ktu.pins.porLow then .next s
  else .next { s with ktu := (f s.ktu).wakeCheck }

/-- The same for a command whose outcome the spec leaves open at a point: the model's counter of free values is read and
advanced. -/
def onKtuFree (f : Nat → Ktu → Ktu) (s : State) : Out :=
  if s.ktu.pins.clkStopped then .refused .ktuUndefined
  else if s.ktu.pins.porLow then .next s
  else .next { s with ktu := (f (Config.freeValue s.free) s.ktu).wakeCheck, free := s.free + 1 }

/-- R83, R337: when domain 0 first becomes Locked, the boundaries it has passed by then open no tick; a domain 0 that has gone
back to Free waits for its next lock. -/
def Nld.lockCheck (n : Nld) : Nld :=
  let locked := (n.dom 0).tb.everLocked
  if locked ∧ ¬ n.tick.everLocked then { n with tick := { n.tick with crossed := n.boundaryNow, everLocked := true } }
  else { n with tick := { n.tick with everLocked := locked } }

/-- R599: what follows when tick running rises: the protected queue pairs are created. -/
def Nld.runCheck (before n : Nld) : Nld :=
  if n.bit NReg.TICK_CTRL_run ∧ ¬ before.bit NReg.TICK_CTRL_run then n.createQps else n

/-- What follows any change of Naloder: R83, R599, R700, R708. -/
def Nld.after (before n : Nld) : Nld := Nld.settle before (Nld.runCheck before n.lockCheck)

/-- A command that acts on Naloder. With nld_por_n asserted nothing acts (R714), and after a stop every clock outside the
always-on domain stands still until it is (R334, R697). -/
def onNld (f : Nld → Nld) (s : State) : Out :=
  if s.nld.pkg.porLow ∨ s.nld.pkg.stopped then .next s
  else .next { s with nld := Nld.after s.nld (f s.nld) }

/-- R336, R689, R696: a write of a register of the PF outside the reset and power block, as a command of its own: before boot
stage 5 it is ignored and reported, and during a package reset it is lost. -/
def Nld.pfWrite (f : Nld → Nld) (n : Nld) : Nld :=
  if n.pkg.resetting then n else if n.bootStage < 5 then n.ignoredWrite 2 else f n

/-- A command that is a write of such a register. -/
def onNldWrite (f : Nld → Nld) : State → Out := onNld (Nld.pfWrite f)

/-! ### The clock (R69, R171, R643, R696) -/

/-- One ktu_clk edge: the bases advance and the Tail record writer serves a queue. -/
def Ktu.idle (k : Ktu) : Ktu :=
  if k.pins.clkStopped ∨ k.pins.porLow then k else (k.clockEdge.tailServe).wakeCheck

/-- One I/O-die clock edge: the domains advance, boot starts where a package reset waits, and firmware drains an error record. -/
def Nld.idle (n : Nld) : Nld :=
  if n.pkg.porLow ∨ n.pkg.stopped then n
  else Nld.after n (((if n.pkg.resetting then n.bootStarts else n).clockEdge).drainError)

/-- What passes while no command waits: one clock edge on each side. DESIGN CHOICE (log 3). -/
def State.idle (s : State) : State := { s with ktu := s.ktu.idle, nld := s.nld.idle }

end Sys2Proof.Machine
end

