-- ==== Sys2Proof/Machine/FabricCmds.lean ====
section
/-! DEFINITION. The rows of RoCEv2 and its keys (R593 to R622), of firmware (R625 to R646), of the recorder and of security (R656 to
R671). -/

namespace Sys2Proof.Machine

open Sys2Proof

/-! ### RoCEv2 -/

/-- ROCE_PACKET_RECEIVE (R593): on a port, for a queue pair number. -/
def execRocePacketReceive (e : Fin 2) (qpn : BitVec 24) (p : RocePkt) : State → Out := onNld (fun n => n.roceIn e.val qpn.toNat p)

/-- PACKET_TRANSMIT (R614): of a port. -/
def execPacketTransmit (e : Fin 2) : State → Out := onNld (fun n => n.sendPacket e.val)

/-- QP_ACK_TIMEOUT (R602). -/
def execQpAckTimeout (q : Fin 4096) : State → Out := onNld (fun n => n.ackTimeout q.val)

/-- RNR_TIMER (R602). -/
def execRnrTimer (q : Fin 4096) : State → Out := onNld (fun n => n.rnrTimer q.val)

/-- KEYX (R610). -/
def execKeyx (q : Fin 4096) (k : KeyxMsg) : State → Out := onNld (fun n => n.keyxIn q.val k)

/-- KEYOK (R611). -/
def execKeyok (q : Fin 4096) : State → Out := onNld (fun n => n.keyokIn q.val)

/-- KEYX_RESEND_TIMER (R611). -/
def execKeyxResendTimer (q : Fin 4096) : State → Out := onNld (fun n => n.keyxAgain q.val)

/-- KEYING_TIMEOUT (R611). -/
def execKeyingTimeout (q : Fin 4096) : State → Out := onNld (fun n => n.keyingTimeout q.val)

/-- REKEY_TIMER (R612). -/
def execRekeyTimer (q : Fin 4096) : State → Out := onNld (fun n => n.rekey q.val)

/-- QP_RECREATE_TIMER (R599). -/
def execQpRecreateTimer (q : Fin 4096) : State → Out := onNld (fun n => n.recreate q.val)

/-- QP_ALLOC (R621). -/
def execQpAlloc : State → Out := onNldWrite Nld.qpAlloc

/-- QP_INIT (R600, R621). -/
def execQpInit (q : Fin 4096) : State → Out := onNldWrite (fun n => n.qpInit q.val)

/-- QP_ERROR_CMD (R607, R621). -/
def execQpErrorCmd (q : Fin 4096) : State → Out := onNldWrite (fun n => n.qpErrorCmd q.val)

/-- QP_RESET_FREE (R600, R621). -/
def execQpResetFree (q : Fin 4096) : State → Out := onNldWrite (fun n => n.qpFree q.val)

/-- SHAPER_REFILL (R616). -/
def execShaperRefill : State → Out := onNld Nld.refill

/-- ETH_LINK_CHANGE (R595). -/
def execEthLinkChange (e : Fin 2) (up : Bool) : State → Out := onNld (fun n => n.ethLink e.val up)

/-! ### Firmware -/

/-- A write of the reset and power block (R696), lost while a package reset is pending. -/
def Nld.blockWrite (f : Nld → Nld) (n : Nld) : Nld := if n.pkg.resetting then n else f n

/-- FW_LOAD (R629): NLD_FW_LOAD_CMD.go, with the image the load reads. -/
def execFwLoad (b : FwBlob) : State → Out := onNld (Nld.blockWrite (fun n => n.fwLoad b))

/-- FW_UPDATE (R644). -/
def execFwUpdate (b : FwBlob) : State → Out := onNld (Nld.blockWrite (fun n => n.fwUpdate b))

/-- FW_LOAD_COMPLETE (R628). -/
def execFwLoadComplete : State → Out := onNld Nld.fwLoadComplete

/-- FW_TAKEOVER (R644): whether the new image accepts the state copy. -/
def execFwTakeover (accepted : Bool) : State → Out := onNld (fun n => n.takeover accepted)

/-- UPDATE_HOLD_END (R645). -/
def execUpdateHoldEnd : State → Out := onNld Nld.holdEnd

/-- WATCHDOG_KICK (R638): the cores that are alive. -/
def execWatchdogKick (mask : BitVec 4) : State → Out := onNld (Nld.blockWrite (fun n => n.kick mask.toNat))

/-- WATCHDOG_FIRE (R638). -/
def execWatchdogFire (core : Fin 4) : State → Out := onNld (fun n => n.watchdogFire core.val)

/-- CONTROL_CORE_RESTART (R637): whether the image verifies. -/
def execControlCoreRestart (verified : Bool) : State → Out := onNld (fun n => n.coreRestart verified)

/-- SECURITY_WATCHDOG_FIRE (R640). -/
def execSecurityWatchdogFire : State → Out := onNld Nld.secFire

/-- SECURITY_CORE_RESTART (R640). -/
def execSecurityCoreRestart : State → Out := onNld Nld.secRestart

/-! ### Recorder and security -/

/-- RECORD_COMMIT (R656). -/
def execRecordCommit : State → Out := onNld Nld.recordCommit

/-- RECORDER_CLEAR (R662): NLD_REC_CLR_CMD.go, with the token it reads. -/
def execRecorderClear (t : ClearToken) : State → Out := onNldWrite (fun n => n.recorderClear t)

/-- RECORDER_CLEAR_DONE (R662). -/
def execRecorderClearDone : State → Out := onNld Nld.recorderClearDone

/-- TEST_ACCESS_OPEN (R666). -/
def execTestAccessOpen : State → Out := onNld Nld.testOpen

/-- ATTEST (R668). -/
def execAttest (nonce : BitVec 256) : State → Out := onNldWrite (fun n => n.secRequest (.attest nonce))

/-- ENROL_REVOKE (R664). -/
def execEnrolRevoke (b : EnrolBlob) : State → Out := onNldWrite (fun n => n.secRequest (.enrol b))

/-- PROVISIONING_BUNDLE (R669). -/
def execProvisioningBundle (b : ProvBundle) : State → Out := onNldWrite (fun n => n.secRequest (.bundle b))

/-- GENERATE_IDENTITY (R669). -/
def execGenerateIdentity : State → Out := onNldWrite (fun n => n.secRequest .generate)

/-- INSTALL_CHAIN (R669): the root its chain leads to, and whether it verifies. -/
def execInstallChain (root : Word) (good : Bool) : State → Out := onNldWrite (fun n => n.secRequest (.chain root good))

end Sys2Proof.Machine
end

