-- ==== Sys2Proof/Machine/HostCmds.lean ====
section
/-! DEFINITION. The rows of the host's rings: polling, command descriptors (R577), taps, bulk jobs, history reads (R579, R580),
delivery (R581), enabling and disabling (R565, R576), errors and interrupts (R566, R588). -/

namespace Sys2Proof.Machine

open Sys2Proof

/-! ### Rings -/

/-- DOORBELL_POLL (R569): what the poll finds of each function. -/
def execDoorbellPoll (fs : List FnPoll) : State → Out := onNld (fun n => n.poll fs)

/-- RING_ENABLE (R576): a write of NLD_HQ_RINGCMD by a function. -/
def execRingEnable (fn : Fin 17) (ring : Fin 32) : State → Out :=
  onNld (fun n => n.writeBar fn.val (if fn.val = 0 then 0x40018 else 0x18) (2 ^ 30 + ring.val) true)

/-- RING_DISABLE (R576): a write of NLD_HQ_RINGCMD by a function. -/
def execRingDisable (fn : Fin 17) (ring : Fin 32) : State → Out :=
  onNld (fun n => n.writeBar fn.val (if fn.val = 0 then 0x40018 else 0x18) (2 ^ 31 + ring.val) true)

/-- FUNCTION_LEVEL_RESET (R565). -/
def execFunctionLevelReset (fn : Fin 17) : State → Out := onNld (fun n => n.flr fn.val)

/-- HOST_READ_ERROR (R566). -/
def execHostReadError (f : HostReadFault) : State → Out := onNld (fun n => n.readFault f)

/-- IRQ_TIMER (R588): of a ring. -/
def execIrqTimer (fn : Fin 17) (ring : Fin 32) : State → Out := onNld (fun n => n.irqTimer fn.val ring.val)

/-- DELIVERY_RECORD_WRITE (R581): the next record of a ring; a tick with nothing left to deliver is retired (R27). -/
def execDeliveryRecordWrite (fn : Fin 17) (ring : Fin 32) : State → Out :=
  onNld (fun n => (n.deliverNext (ringKey fn.val ring.val)).retireTicks)

/-! ### Commands (R577) -/

/-- QUERY. -/
def execQuery (h : DescHdr) : State → Out := onNld (fun n => n.query' h)

/-- LOAD: bytes for an offset of the model pool. -/
def execLoad (h : DescHdr) (offset : Nat) (bytes : List Byte) : State → Out := onNld (fun n => n.load h offset bytes)

/-- ADMIT (R445): where the image stands in the pool, the parameters of its ops, and whether its signature verifies. -/
def execAdmit (h : DescHdr) (offset len : Nat) (params : List OpParams) (signed : Bool) : State → Out :=
  onNld (fun n => n.admitCmd h offset len params signed)

/-- WITHDRAW (R444). -/
def execWithdraw (h : DescHdr) (image : BitVec 64) : State → Out := onNld (fun n => n.withdrawCmd h image.toNat)

/-- TRACK (R353). -/
def execTrack (h : DescHdr) (ws : List TrackWord) : State → Out := onNld (fun n => n.trackCmd h ws)

/-- CTX_CFG (R361): bp, k, and the tick of an epoch start where one is asked for. -/
def execCtxCfg (h : DescHdr) (c : Nat) (bp k : BitVec 8) (epoch : Option (BitVec 48)) : State → Out :=
  onNld (fun n => n.ctxCmd h c bp.toNat k.toNat (epoch.map BitVec.toNat))

/-- JOB_REPORT (R508). -/
def execJobReport (h : DescHdr) (part : Fin 16) (addr : BitVec 20) (dead : Bool) : State → Out :=
  onNld (fun n => n.reportCmd h part.val addr.toNat dead)

/-- MEMBERSHIP (R511): job epoch, tick, and the set bits of the bitmap. -/
def execMembership (h : DescHdr) (part : Fin 16) (epoch : Word) (tick : BitVec 48) (bitmap : List (BitVec 18)) : State → Out :=
  onNld (fun n => n.memberCmd h part.val epoch.toNat tick.toNat bitmap)

/-- CHECKPOINT (R514). -/
def execCheckpoint (h : DescHdr) (part : Fin 16) (epoch : Word) (c : BitVec 48) : State → Out :=
  onNld (fun n => n.checkpointCmd h part.val epoch.toNat c.toNat)

/-- VOTE (R542). -/
def execVote (h : DescHdr) (v : VoteOp) : State → Out := onNld (fun n => n.voteCmd h v)

/-- TALLY (R551). -/
def execTally (h : DescHdr) (slot : BitVec 8) (patternId : Word) (tick : BitVec 48) : State → Out :=
  onNld (fun n => n.tallyCmd h slot.toNat patternId.toNat tick.toNat)

/-- VECTOR_SET (R552). -/
def execVectorSet (h : DescHdr) (s : VecSet) : State → Out := onNld (fun n => n.vectorCmd h s)

/-- KTU_CMD (R577): to one KTU or to a chain, with a scope mask where one is set. -/
def execKtuCmd (d : DescHdr) (p : Fin 16) (addr : BitVec 20) (route : Fin 2) (scope : BitVec 17) (scopeSet : Bool) (b : CmdBody) :
    State → Out :=
  onNld (fun n => n.ktuCmd d p.val addr route scope scopeSet b)

/-- KTU_REG (R577). -/
def execKtuReg (d : DescHdr) (write : Bool) (addr : BitVec 20) (offset : BitVec 16) (count : BitVec 8) (words : List Word) :
    State → Out :=
  onNld (fun n => n.ktuReg d write addr offset count.toNat words)

/-- BUGLE (R665). -/
def execBugle (d : DescHdr) (m : BugleMsg) : State → Out := onNld (fun n => n.bugleCmd d m)

/-- ABORT (R519). -/
def execAbort (h : DescHdr) (scope : BitVec 17) : State → Out := onNld (fun n => n.abortCmd h scope.toNat)

/-- TAP_OWNER (R579). -/
def execTapOwner (h : DescHdr) (tap : Fin 16) (owner : BitVec 8) : State → Out :=
  onNld (fun n => n.tapOwnerCmd h tap.val owner.toNat)

/-! ### Taps, bulk jobs, history (R259 to R266, R579, R580) -/

/-- CONTENT_TAP_SUBMIT (R579). -/
def execContentTapSubmit (h : DescHdr) (tap : Fin 16) (seq : BitVec 28) (bytes : List Byte) : State → Out :=
  onNld (fun n => n.tapSubmit h tap.val seq.toNat bytes)

/-- TAP_SEQUENCE_EXPIRY (R579): of a staged sequence, by the order in which it was staged. -/
def execTapSequenceExpiry (order : Nat) : State → Out := onNld (fun n => n.tapExpire order)

/-- BULK_COMPRESS (R261). -/
def execBulkCompress (h : DescHdr) (o : BulkOperands) : State → Out := onNld (fun n => n.bulkSubmit h false o)

/-- BULK_DECOMPRESS (R262). -/
def execBulkDecompress (h : DescHdr) (o : BulkOperands) : State → Out := onNld (fun n => n.bulkSubmit h true o)

/-- BULK_JOB_COMPLETE (R263, R266): of a lane. -/
def execBulkJobComplete (l : Fin 2) : State → Out := onNld (fun n => n.bulkComplete l.val)

/-- HISTORY_READ (R580). -/
def execHistoryRead (h : DescHdr) (ctx : Nat) (first : BitVec 48) (count : Nat) (dst : BitVec 64) (dstLen : Nat) : State → Out :=
  onNld (fun n => n.historyJob h ctx first.toNat count dst.toNat dstLen)

end Sys2Proof.Machine
end

