-- ==== Sys2Proof/Machine/LinkCmds.lean ====
section
/-! DEFINITION. The rows of the links: training and recovery (R267 to R279), flits (R271 to R276, R288), power states (R307 to R309),
alarm pairs (R283 to R285, R521), enumeration and sleep as Naloder sees them (R293, R307, R309), and the Horn links (R456 to R463). -/

namespace Sys2Proof.Machine

open Sys2Proof

/-! ### One operation of a link end, wherever it stands -/

/-- An operation on the link end that a command names, with the kind of its link. -/
def onEnd (l : LinkId) (f : LinkKind → LinkEnd → LinkEnd × LinkActs) : State → Out :=
  match l with
  | .ktuUp => onKtu (fun k => k.linkOp true (f fifeKind))
  | .ktuDn => onKtu (fun k => k.linkOp false (f fifeKind))
  | .nldFife p => onNld (fun n => n.fifeOp p.val (f fifeKind))
  | .nldHorn p => onNld (fun n => n.hornOp p.val (f hornKind))

/-- The same for an operation that reports nothing. -/
def doEnd (l : LinkId) (f : LinkEnd → LinkEnd) : State → Out := onEnd l (fun _ e => (f e, {}))

/-! ### Training and recovery (R267, R277, R279) -/

/-- R127, R130: a KTU's ports train once it is ready. -/
def Ktu.signalOn (k : Ktu) (up : Bool) : Ktu := if k.pins.ready then k.linkDo up LinkEnd.signal else k

/-- R335, R697: a Fife port trains once firmware has enabled the ports and while its reference clock is present. -/
def Nld.fifeSignal (n : Nld) (p : Nat) : Nld :=
  if n.pkg.portsOn ∧ n.bit NReg.CLK_STATUS_ref_fife then n.fifeOp p (fun e => (e.signal, {})) else n

/-- R335, R493, R697: the same for a Horn port, which its enable holds in Down besides. -/
def Nld.hornSignal (n : Nld) (p : Nat) : Nld :=
  if n.pkg.portsOn ∧ n.bit NReg.CLK_STATUS_ref_horn ∧ n.bit NReg.HORNp_CTRL_enable p then
    n.hornOp p (fun e => (e.signal, {}))
  else n

/-- SIGNAL_DETECT (R277): a link end in Down detects a signal. -/
def execSignalDetect (l : LinkId) : State → Out :=
  match l with
  | .ktuUp => onKtu (fun k => k.signalOn true)
  | .ktuDn => onKtu (fun k => k.signalOn false)
  | .nldFife p => onNld (fun n => n.fifeSignal p.val)
  | .nldHorn p => onNld (fun n => n.hornSignal p.val)

/-- LINK_UP (R270, R277, R278, R291): the link-up records of a Fife link are exchanged: the next number the partner expects, and
its resume bit. A Horn link comes up by HORN_LINK_UP (R461). -/
def execLinkUp (l : LinkId) (partnerNext : BitVec 8) (resume : Bool) : State → Out :=
  match l with
  | .ktuUp => onKtu (fun k => k.linkUp true partnerNext.toNat resume)
  | .ktuDn => onKtu (fun k => k.linkUp false partnerNext.toNat resume)
  | .nldFife p => onNld (fun n => n.fifeUp p.val partnerNext.toNat resume)
  | .nldHorn _ => onNld (fun n => n)

/-- TRAINING_TIMEOUT (R277). -/
def execTrainingTimeout (l : LinkId) : State → Out := doEnd l LinkEnd.trainTimeout

/-- RETRAIN_TIMEOUT (R277). -/
def execRetrainTimeout (l : LinkId) : State → Out := onEnd l (fun _ e => e.retrainTimeout)

/-- RESET_SLOT_END (R277). -/
def execResetSlotEnd (l : LinkId) : State → Out := doEnd l LinkEnd.resetEnd

/-- LOSS_OF_SIGNAL (R279). -/
def execLossOfSignal (l : LinkId) : State → Out := onEnd l (fun _ e => e.lossOfSignal)

/-- HI_BER (R267, R277): the BER monitor of an end sets hi_ber. -/
def execHiBer (l : LinkId) : State → Out := onEnd l (fun _ e => e.toRetrain)

/-- TRAINING_PAIR (R277): training pairs arrive on an Active link. -/
def execTrainingPair (l : LinkId) : State → Out := onEnd l (fun _ e => e.toRetrain)

/-! ### Flits (R271 to R276, R288) -/

/-- R275, R290: a flit arrives on a Fife port of Naloder; a guaranteed one is counted against its position's allowance. `m` is
the message it belongs to. -/
def Nld.fifeFlit (n : Nld) (p : Nat) (f : Flit) (m : Option Msg) : Nld :=
  let acc := ((n.fife p).link.receive fifeKind f).2.accepted
  let n := n.fifeOp p (fun e => e.receive fifeKind f)
  match m.bind sourceOf with
  | some a => if acc ∧ f.gc then n.countGc p (addrN a) 1 else n
  | none => n

/-- R459: a Horn receiver knows no stomped flit: the pattern is a CRC failure. -/
def hornSeen (f : Flit) : Flit := if f.stomped then { f with stomped := false, crcOk := false } else f

/-- FLIT_RECEIVE (R275). -/
def execFlitReceive (l : LinkId) (f : Flit) (m : Option Msg) : State → Out :=
  match l with
  | .ktuUp => onKtu (fun k => k.flitIn true f m)
  | .ktuDn => onKtu (fun k => k.flitIn false f m)
  | .nldFife p => onNld (fun n => n.fifeFlit p.val f m)
  | .nldHorn p => onNld (fun n => n.hornOp p.val (fun e => e.receive hornKind (hornSeen f)))

/-- R276: an end without ack progress starts a replay. -/
def LinkEnd.ackTimeout (e : LinkEnd) : LinkEnd × LinkActs := if e.carries then e.startReplay else (e, {})

/-- ACK_TIMEOUT (R276). -/
def execAckTimeout (l : LinkId) : State → Out := onEnd l (fun _ e => e.ackTimeout)

/-- NAK_RESEND_TIMEOUT (R275). -/
def execNakResendTimeout (l : LinkId) : State → Out := doEnd l LinkEnd.nakAgain

/-- R276: a retry episode has lasted as long as it may. -/
def LinkEnd.episodeEnd (e : LinkEnd) : LinkEnd × LinkActs :=
  if e.state = .retry ∧ e.episode.isSome then e.toRetrain else (e, {})

/-- RETRY_EPISODE_TIMEOUT (R276). -/
def execRetryEpisodeTimeout (l : LinkId) : State → Out := onEnd l (fun _ e => e.episodeEnd)

/-- R273: a control flit leaves an end that carries flits. -/
def LinkEnd.controlOut (lk : LinkKind) (e : LinkEnd) : LinkEnd := if e.carries then (e.control lk).1 else e

/-- CONTROL_FLIT_TIMER (R273). -/
def execControlFlitTimer (l : LinkId) : State → Out := onEnd l (fun lk e => (e.controlOut lk, {}))

/-- FLIT_TRANSMIT (R288): a port sends a data flit, `dt` after the preceding clock edge in 2^-16 ns (R72). -/
def execFlitTransmit (l : LinkId) (dt : Nat) : State → Out :=
  match l with
  | .ktuUp => onKtu (fun k => k.transmit true)
  | .ktuDn => onKtu (fun k => k.transmit false)
  | .nldFife p => onNld (fun n => n.fifeTransmit p.val dt)
  | .nldHorn p => onNld (fun n => n.hornTransmit p.val dt)

/-! ### Power states (R307 to R309) -/

/-- R308: a link-state pair arrives on a Fife port of Naloder. -/
def Nld.statePair (n : Nld) (p code : Nat) : Nld := n.fifeOp p (fun e => (e.gotState code, {}))

/-- LINK_STATE_PAIR (R308, R309): code 0 enter L0q, 1 enter L1, 2 stay. Horn has no such pairs. -/
def execLinkStatePair (l : LinkId) (code : Fin 3) : State → Out :=
  match l with
  | .ktuUp => onKtu (fun k => k.statePair true code.val)
  | .ktuDn => onKtu (fun k => k.statePair false code.val)
  | .nldFife p => onNld (fun n => n.statePair p.val code.val)
  | .nldHorn _ => onNld (fun n => n)

/-- LANE_RELOCK (R309): the lane-1 receivers of a link leaving L1 have relocked. -/
def execLaneRelock (l : LinkId) : State → Out := doEnd l LinkEnd.relocked

/-- SLEEP_GO (R307, R315). -/
def execSleepGo (p : Fin 16) (target : Fin 4) : State → Out := onNldWrite (fun n => n.sleepGo p.val target.val)

/-- SLEEP_AGREE (R307). -/
def execSleepAgree (p : Fin 16) (addr : BitVec 20) (refuse : Bool) (tick : BitVec 48) : State → Out :=
  onNld (fun n => n.sleepAgree p.val addr refuse tick)

/-- R307: the decision falls 50 µs after the boundary of the tick of the proposal. -/
def Nld.sleepDue (n : Nld) (p : Nat) : Nld :=
  if n.now < n.tickAt ((n.fife p).sleepTick - 1) + 50000 then n else n.sleepDecide p

/-- SLEEP_DECISION (R307). -/
def execSleepDecision (p : Fin 16) : State → Out := onNld (fun n => n.sleepDue p.val)

/-- WAKE (R307, R309). -/
def execWake (p : Fin 16) (addr : BitVec 20) (sources : BitVec 8) (tick : BitVec 48) : State → Out :=
  onNld (fun n => n.wakeIn p.val addr sources tick)

/-- NLD_FIFE_RESET (R315). -/
def execNldFifeReset (p : Fin 16) : State → Out := onNldWrite (fun n => n.fifeReset p.val)

/-- NLD_FIFE_RETRAIN (R315). -/
def execNldFifeRetrain (p : Fin 16) : State → Out := onNldWrite (fun n => n.fifeRetrain p.val)

/-- NLD_FIFE_WAKE (R309, R315). -/
def execNldFifeWake (p : Fin 16) : State → Out := onNldWrite (fun n => n.wakeChain p.val)

/-- NLD_FIFE_ENABLE (R315). -/
def execNldFifeEnable (p : Fin 16) (v : Bool) : State → Out := onNldWrite (fun n => n.fifeEnable p.val v)

/-! ### Alarm pairs (R283 to R285, R194, R489, R521) -/

/-- R194, R285, R478: a pair at Naloder's alarm unit; a new halt pair that is acted on arms the object that gathers its
reports. -/
def Nld.alarmAt (n : Nld) (site : Nat) (p : BitVec 112) : Nld :=
  let f := alarmFields p
  let fresh := f.crcOk && decide (f.kind < 4) &&
    !(n.seenAlarms.any (fun a => decide (a.kind = f.kind ∧ a.origin = f.origin ∧ a.scope = f.scope ∧ a.arg = f.arg)))
  let kept := decide (site < 16) && addrGT f.origin == n.name && n.obsv (addrPos f.origin)
  let n := n.alarmIn site p
  if fresh ∧ f.kind = 2 ∧ ¬ kept then (n.armHalt (scopeIndex f.scope) f.arg).1 else n

/-- ALARM (R285): an alarm pair arrives on a link. -/
def execAlarm (l : LinkId) (pair : BitVec 112) : State → Out :=
  match l with
  | .ktuUp => onKtu (fun k => k.alarmIn true pair)
  | .ktuDn => onKtu (fun k => k.alarmIn false pair)
  | .nldFife p => onNld (fun n => n.alarmAt p.val pair)
  | .nldHorn p => onNld (fun n => n.alarmAt (16 + p.val) pair)

/-- ALARM_REPEAT (R521): an alarm unit sends again an ALARM it originated. -/
def execAlarmRepeat : State → Out := onNld Nld.alarmRepeat

/-- FABRIC_ALARM (R489): an ALARM message from another group root. -/
def Nld.fabricAlarm (n : Nld) (site : Site) (p : BitVec 112) : Nld :=
  (n.returnBuffer site).alarmAt (match site with
    | .horn q => 16 + q.val
    | .qp _ => 24) p

/-- FABRIC_ALARM (R489). -/
def execFabricAlarm (site : Site) (pair : BitVec 112) : State → Out := onNld (fun n => n.fabricAlarm site pair)

/-! ### Enumeration as Naloder sees it (R293) -/

/-- ENUM_RESPONSE (R293). -/
def execEnumResponse (p : Fin 16) (e : EnumInfo) : State → Out := onNld (fun n => n.enumIn p.val e)

/-! ### Horn links (R456 to R463, R493) -/

/-- HORN_LINK_UP (R461). -/
def execHornLinkUp (p : Fin 8) : State → Out := onNld (fun n => n.hornUp p.val)

/-- HORN_ENUM (R461, R465): who sent it, by which port and in which role, its resume bit and next number, and its profile. -/
def execHornEnum (p : Fin 8) (origin : BitVec 11) (end_ role : BitVec 8) (resume : Bool) (next : BitVec 16) (profile : BitVec 32) :
    State → Out :=
  onNld (fun n => n.hornEnum p.val origin.toNat end_.toNat role.toNat resume next.toNat profile.toNat)

/-- R456, R460: a Horn flit, with the codewords its RS decoding corrected and could not correct. -/
def Nld.hornFlit (n : Nld) (p : Nat) (f : Flit) (corrected bad : Nat) : Nld :=
  let n := if corrected = 0 then n else n.count NReg.HORNp_FECCORR_count corrected p
  let n := if bad = 0 then n else (n.count NReg.HORNp_FECUNC_count bad p).raise NReg.HORNp_EVT_fec_unc 1 p
  n.hornOp p (fun e => e.receive hornKind (hornSeen f))

/-- HORN_FLIT_RECEIVE (R460). -/
def execHornFlitReceive (p : Fin 8) (f : Flit) (corrected bad : Nat) : State → Out :=
  onNld (fun n => n.hornFlit p.val f corrected bad)

/-- HORN_ACK_TIMEOUT (R460). -/
def execHornAckTimeout (p : Fin 8) : State → Out := onNld (fun n => n.hornOp p.val LinkEnd.ackTimeout)

/-- HORN_RETRY_TIMEOUT (R460). -/
def execHornRetryTimeout (p : Fin 8) : State → Out := onNld (fun n => n.hornOp p.val LinkEnd.episodeEnd)

/-- HORN_RETRAIN_TIMEOUT (R461). -/
def execHornRetrainTimeout (p : Fin 8) : State → Out := onNld (fun n => n.hornOp p.val LinkEnd.retrainTimeout)

/-- HORN_RESET (R493). -/
def execHornReset (p : Fin 8) : State → Out := onNldWrite (fun n => n.hornOp p.val resetEnd)

/-- HORN_RETRAIN (R493). -/
def execHornRetrain (p : Fin 8) : State → Out := onNldWrite (fun n => n.hornOp p.val LinkEnd.toRetrain)

end Sys2Proof.Machine
end

