-- ==== Sys2Proof/Machine/KtuCmd.lean ====
section
/-! DEFINITION. The commands that Naloder sends to a KTU by CMD (R299 to R302): who executes them, the command history,
and what each opcode does. -/

namespace Sys2Proof.Machine

/-- R302: answer a command. -/
def Ktu.answer (k : Ktu) (h : CmdHdr) (op status : Nat) (rep : Bool) (detail : Nat) : Ktu :=
  k.sendUp (.cmdAck { addr := k.addr, id := h.id, opcode := BitVec.ofNat 8 op, status := BitVec.ofNat 8 status,
                      repeated := rep, detail := BitVec.ofNat 64 detail })

/-- R301: enter a command in the history of the last 64. -/
def Ktu.remember (k : Ktu) (id status : Nat) : Ktu :=
  { k with fife := { k.fife with history := ((id, status) :: k.fife.history).take 64 } }

/-- R300: the KTU's membership lets it execute a command. -/
def Ktu.inScope (k : Ktu) (h : CmdHdr) : Bool :=
  !h.scopeSet || (h.scope.toNat &&& k.get KReg.FIFE_MEMBER_member) != 0

/-- R300 to R302, R687: execute a command the KTU is to execute. `f` answers the status and the detail. -/
def Ktu.execCmd (k : Ktu) (h : CmdHdr) (op : Nat) (f : Ktu → Ktu × Nat × Nat) : Ktu :=
  let id := h.id.toNat
  if id = 0 then k.answer h op 1 false 0
  else if k.bit KReg.ERR_STATUS_hist_invalid then k.answer h op 2 false 0
  else
    match k.fife.history.find? (fun e => e.1 = id) with
    | some (_, st) => (k.count KReg.FIFE_CMDDUP_count).answer h op st true 0
    | none =>
      let (k', st, detail) := f k
      let k' := if st = 2 then k' else k'.remember id st
      k'.answer h op st false detail

/-- R295, R300: a CMD reaches the KTU: a route-1 command goes on along the chain, a route-0 command to the KTU it names. -/
def Ktu.takeCmd (k : Ktu) (h : CmdHdr) (b : CmdBody) (f : Ktu → Ktu × Nat × Nat) : Ktu :=
  if h.route = 1 then
    let k := k.forwardDn (.cmd h b)
    if k.inScope h then k.execCmd h (opcodeOf b) f else k
  else if ¬ k.isMe h.addr then k.passOn (.cmd h b)
  else if k.inScope h then k.execCmd h (opcodeOf b) f
  else k.answer h (opcodeOf b) 3 false 0

/-- R299: a command only *fleet* may issue. -/
def fleetOnly (h : CmdHdr) (f : Ktu → Ktu × Nat × Nat) (k : Ktu) : Ktu × Nat × Nat :=
  if h.issuer.toNat = fleet then f k else (k, 3, 0)

/-- R246: TABLE_LOAD. -/
def Ktu.cmdTableLoad (p : TableLoad) (k : Ktu) : Ktu × Nat × Nat :=
  let (k, st) := k.tableLoad p
  (k, st, 0)

/-- R177, R178: TAIL_DUMP. -/
def Ktu.cmdTailDump (h : CmdHdr) (first last : BitVec 16) (frozenOnly release freeze : Bool) (k : Ktu) :
    Ktu × Nat × Nat :=
  let a := first.toNat
  let b := last.toNat
  let o := h.issuer.toNat
  if a > b ∨ b ≥ 2048 then (k, 1, 0)
  else if o ≠ fleet ∧ ¬ (k.cmdUnits fleet a b).all (fun u => k.tailOwner u == o) then (k, 3, 0)
  else if k.tail.dumps.length ≥ 4 then (k, 2, 0)
  else
    let k := if freeze then k.freezeRings 6 (k.cmdUnits fleet a b) else k
    let j : TailDumpJob := { first := a, last := b, frozenOnly := frozenOnly, release := release, cmdId := h.id.toNat }
    ({ k with tail := { k.tail with dumps := k.tail.dumps ++ [j] } }, 7, 0)

/-- R302: RESEND, answered with the number of frames. -/
def Ktu.cmdResend (first last : BitVec 48) (k : Ktu) : Ktu × Nat × Nat :=
  let (k, n) := k.resend first.toNat last.toNat
  (k, 0, n % 65536)

/-- R299: the issuer may halt or resume a scope. -/
def mayHalt (h : CmdHdr) (scope : Nat) : Bool := h.issuer.toNat == fleet || h.issuer.toNat == scope

/-- R195, R299: HALT. A KTU that takes no part has nothing left to do. -/
def Ktu.cmdHalt (h : CmdHdr) (scope : BitVec 8) (t : BitVec 48) (k : Ktu) : Ktu × Nat × Nat :=
  let s := scope.toNat
  if s > fleet then (k, 1, 0)
  else if ¬ mayHalt h s then (k, 3, 0)
  else (k.takeHalt s t.toNat 0 0x1F, if k.takesPart s then 7 else 0, 0)

/-- R199, R299: RESUME. -/
def Ktu.cmdResume (h : CmdHdr) (scope : BitVec 8) (t : BitVec 48) (k : Ktu) : Ktu × Nat × Nat :=
  let s := scope.toNat
  if s > fleet then (k, 1, 0)
  else if ¬ mayHalt h s then (k, 3, 0)
  else (k.takeResume s t.toNat, 0, 0)

/-- R85: schedule a commanded step of one base. -/
def Ktu.cmdStep (k : Ktu) (x : TbId) (accept : Bool) (amount : BitVec 48) (at_ : BitVec 64) : Ktu :=
  if accept then k.setTb x ((k.tb x).acceptPending at_.toNat)
  else k.setTb x ((k.tb x).schedule (signedOf 48 amount.toNat * 65536) at_.toNat)

/-- R85, R299: TIME_STEP. -/
def Ktu.cmdTimeStep (bases : BitVec 2) (accept : Bool) (amount : BitVec 48) (at_ : BitVec 64) (k : Ktu) :
    Ktu × Nat × Nat :=
  if bases = 0 then (k, 1, 0)
  else
    let k := if bases.getLsbD 0 then k.cmdStep .baseA accept amount at_ else k
    (if bases.getLsbD 1 then k.cmdStep .baseB accept amount at_ else k, 0, 0)

/-- R548: PATTERN_RUN. -/
def Ktu.cmdPatternRun (h : CmdHdr) (p : PatternRun) (k : Ktu) : Ktu × Nat × Nat :=
  let (k, st) := k.patternRun h.id.toNat p
  (k, st, 0)

/-- R537: DIGEST_CTRL op open. -/
def Ktu.cmdDigestOpen (h : CmdHdr) (p : DigestOpen) (k : Ktu) : Ktu × Nat × Nat :=
  let (k, st) := k.digestOpen h.issuer.toNat p
  (k, st, 0)

/-- R537: DIGEST_CTRL op abandon. -/
def Ktu.cmdDigestAbandon (h : CmdHdr) (r : BitVec 8) (z : Bool) (k : Ktu) : Ktu × Nat × Nat :=
  let (k, st) := k.digestAbandon h.issuer.toNat r z
  (k, st, 0)

/-- R299: SLOT_ASSIGN. -/
def Ktu.cmdSlotAssign (slots : BitVec 8) (k : Ktu) : Ktu × Nat × Nat :=
  if slots.toNat > 2 then (k, 1, 0) else (k.stage KReg.FIFE_ALLOW_slots slots.toNat, 0, 0)

/-- R302: an opcode the KTU does not know. -/
def Ktu.cmdUnknown (k : Ktu) : Ktu × Nat × Nat := (k, 4, 0)

/-! ### The commands -/

/-- TABLE_LOAD. -/
def execTableLoad (h : CmdHdr) (p : TableLoad) : State → Out :=
  onKtu (fun k => k.takeCmd h (.tableLoad p) (fleetOnly h (Ktu.cmdTableLoad p)))

/-- TAIL_DUMP. -/
def execTailDump (h : CmdHdr) (first last : BitVec 16) (frozenOnly release freeze : Bool) : State → Out :=
  onKtu (fun k => k.takeCmd h (.tailDump first last frozenOnly release freeze)
    (Ktu.cmdTailDump h first last frozenOnly release freeze))

/-- RESEND. -/
def execResend (h : CmdHdr) (first last : BitVec 48) : State → Out :=
  onKtu (fun k => k.takeCmd h (.resend first last) (fleetOnly h (Ktu.cmdResend first last)))

/-- HALT. -/
def execHalt (h : CmdHdr) (scope : BitVec 8) (t : BitVec 48) : State → Out :=
  onKtu (fun k => k.takeCmd h (.halt scope t) (Ktu.cmdHalt h scope t))

/-- RESUME. -/
def execResume (h : CmdHdr) (scope : BitVec 8) (t : BitVec 48) : State → Out :=
  onKtu (fun k => k.takeCmd h (.resume scope t) (Ktu.cmdResume h scope t))

/-- TIME_STEP. -/
def execTimeStep (h : CmdHdr) (bases : BitVec 2) (accept : Bool) (amount : BitVec 48) (at_ : BitVec 64) :
    State → Out :=
  onKtu (fun k => k.takeCmd h (.timeStep bases accept amount at_)
    (fleetOnly h (Ktu.cmdTimeStep bases accept amount at_)))

/-- PATTERN_RUN. -/
def execPatternRun (h : CmdHdr) (p : PatternRun) : State → Out :=
  onKtu (fun k => k.takeCmd h (.patternRun p) (fleetOnly h (Ktu.cmdPatternRun h p)))

/-- DIGEST_OPEN. -/
def execDigestOpen (h : CmdHdr) (p : DigestOpen) : State → Out :=
  onKtu (fun k => k.takeCmd h (.digestOpen p) (Ktu.cmdDigestOpen h p))

/-- DIGEST_ABANDON. -/
def execDigestAbandon (h : CmdHdr) (r : BitVec 8) (z : Bool) : State → Out :=
  onKtu (fun k => k.takeCmd h (.digestAbandon r z) (Ktu.cmdDigestAbandon h r z))

/-- SLOT_ASSIGN. -/
def execSlotAssign (h : CmdHdr) (slots : BitVec 8) : State → Out :=
  onKtu (fun k => k.takeCmd h (.slotAssign slots) (fleetOnly h (Ktu.cmdSlotAssign slots)))

/-- UNKNOWN_OPCODE: an opcode of 1 to 9 is not one the KTU does not know, and this is then no event. -/
def execUnknownOpcode (h : CmdHdr) (op : BitVec 8) : State → Out :=
  onKtu (fun k => if 1 ≤ op.toNat ∧ op.toNat ≤ 9 then k else k.takeCmd h (.unknown op) Ktu.cmdUnknown)

end Sys2Proof.Machine
end

