-- ==== Sys2Proof/Machine/KtuPins.lean ====
section
/-! DEFINITION. What comes to a KTU from its pins, its clocks and its own storage: resets (R103, R104, R130), host domains
and units (R116 to R119), wake and alarm lines (R113, R121), the abort handshake (R114), timers, and errors (R687). -/

namespace Sys2Proof.Machine

/-! ### Reset, start-up and clock (R103, R104, R130, R679) -/

/-- R103, R119, R679: ktu_por_n asserted: everything is reset and every unit is not present; the host's lines keep their
levels. -/
def Ktu.porAssert (k : Ktu) : Ktu :=
  { pins := { straps := k.pins.straps, porLow := true, rstN := k.pins.rstN, pgood := k.pins.pgood,
              trcPgood := k.pins.trcPgood, hostAlarm := k.pins.hostAlarm, abortAck := k.pins.abortAck,
              bkpt := k.pins.bkpt, dbgHalted := k.pins.dbgHalted, engDrained := k.pins.engDrained } }

/-- R106: the strap's increment, where it is not zero. -/
def Ktu.loadIncr (k : Ktu) : Ktu :=
  let v := k.pins.straps.tbIncr.toNat
  if v = 0 then k
  else
    let k := (k.put KReg.TBx_INCR_INT_incr_int (v / 2 ^ 32) 0).put KReg.TBx_INCR_INT_incr_int (v / 2 ^ 32) 1
    (k.put KReg.TBx_INCR_FRAC_incr_frac v 0).put KReg.TBx_INCR_FRAC_incr_frac v 1

/-- R106, R107, R130: ktu_por_n deasserted: the straps are captured. A clock that has not run 1,000 periods leaves the
KTU undefined until the next assertion (R104). In leaf mode there is no downstream link. -/
def Ktu.porDeassert (straps : Straps) (clockRan : Bool) (k : Ktu) : Ktu :=
  let pins : KPins := { k.pins with straps := straps, porLow := false, clkStopped := !clockRan }
  let k : Ktu := { k with pins := pins }
  let k := if straps.leaf then k.setLink false { k.fife.dn with state := .off } else k
  k.loadIncr

/-- R130: the initialisation is complete. -/
def Ktu.becomeReady (k : Ktu) : Ktu := { k with pins := { k.pins with ready := true } }

/-! ### Host domains and units (R108, R116 to R119) -/

/-- Replace the levels of a domain's reset and power lines. -/
def Ktu.setDomain (k : Ktu) (d : Fin 4) (rst pg : Bool) : Ktu :=
  let bit := BitVec.ofNat 4 (2 ^ d.val)
  let put (v : BitVec 4) (x : Bool) : BitVec 4 := if x then v ||| bit else v &&& ~~~bit
  { k with pins := { k.pins with rstN := put k.pins.rstN rst, pgood := put k.pins.pgood pg } }

/-- R116: what entering a mask does: the domain's ts_val goes to its reset value, a digest epoch or pattern run of the
domain ends interrupted (R540, R550), and halts take its lines as done (R200). -/
def Ktu.enterMask (k : Ktu) (d : Fin 4) : Ktu :=
  let bit := BitVec.ofNat 4 (2 ^ d.val)
  let k : Ktu := { k with pins := { k.pins with tsVal := k.pins.tsVal &&& ~~~bit, tsPulse := k.pins.tsPulse &&& ~~~bit } }
  let k := if k.pins.straps.digDom = d then (List.range 64).foldl Ktu.interruptRegion k else k
  let k := k.interruptRuns (fun x => x == d.val)
  (List.range 17).foldl Ktu.haltDone k

/-- R117, R173: host_dom_rst_n[d] and host_dom_pgood[d] take new levels. -/
def Ktu.domainChange (k : Ktu) (d : Fin 4) (rst pg : Bool) : Ktu :=
  let oldR := k.pins.rstN.getLsbD d.val
  let oldP := k.pins.pgood.getLsbD d.val
  if ¬ k.pins.straps.domEn.getLsbD d.val then k.setDomain d rst pg
  else
    let was := k.masked d
    let k := k.setDomain d rst pg
    let k := if rst != oldR then (k.raise KReg.HOSTDOM_rst_event (2 ^ d.val)).domainRecords d 0 else k
    let k := if pg != oldP then (k.raise KReg.HOSTDOM_pg_event (2 ^ d.val)).domainRecords d 1 else k
    let k := if oldR && !rst then k.freezeRings 1 (domainUnits d.val) else k
    let k := if oldP && !pg then k.freezeRings 2 (domainUnits d.val) else k
    let now := k.masked d
    let k := if !was && now then (k.addCount (cntE (16 * d.val + 15)) 1).enterMask d else k
    if was && !now then k.forgetOcc d.val else k

/-- R119, R173: a unit_stat update. -/
def Ktu.unitStat (k : Ktu) (u : Fin 2048) (present : Bool) : Ktu :=
  let k : Ktu := { k with pins := { k.pins with units := Tbl.set false u.val present k.pins.units } }
  if present then k else k.freezeRing 3 u.val

/-! ### Lines of the sideband (R113, R114, R121) -/

/-- R108, R121: host_wake_req[d] rises. -/
def Ktu.hostWake (k : Ktu) (d : Fin 4) : Ktu :=
  if k.pins.straps.domEn.getLsbD d.val then
    ({ k with pins := { k.pins with wakeLatch := true } }).raise KReg.HOSTDOM_wake_seen (2 ^ d.val)
  else k

/-- R113, R173, R284: host_alarm[d] rises with its code. -/
def Ktu.hostAlarmRise (k : Ktu) (d : Fin 4) (code : BitVec 8) : Ktu :=
  if k.pins.straps.domEn.getLsbD d.val then
    (k.freezeRings 4 (domainUnits d.val)).originate 0 (k.get KReg.FIFE_MEMBER_member) d.val code.toNat
  else k

/-- R114: ktu_abort_ack rises. -/
def Ktu.abortAckRise (k : Ktu) : Ktu :=
  { k with pins := { k.pins with abortAck := true, abort := false, abortPart := 0 } }

/-- R114: ktu_abort_ack falls: an abort held meanwhile is raised. -/
def Ktu.abortAckFall (k : Ktu) : Ktu :=
  let held := k.pins.abortHeld
  let k : Ktu := { k with pins := { k.pins with abortAck := false, abortHeld := 0 } }
  if held = 0 then k else Ktu.pend k { k with pins := { k.pins with abort := true, abortPart := k.pins.abortPart ||| held } }

/-! ### Errors in the KTU's own state (R687) -/

/-- R687: the code of a fault. -/
def faultCode : KtuFault → Nat
  | .timeBase _ => 1
  | .upLink => 2
  | .dnLink => 3
  | .history => 4
  | .address => 5

/-- R687: the KTU_ERR_STATUS bit of a fault. -/
def faultBit : KtuFault → Fld
  | .timeBase _ => KReg.ERR_STATUS_time_ue
  | .upLink => KReg.ERR_STATUS_link_ue
  | .dnLink => KReg.ERR_STATUS_link_ue
  | .history => KReg.ERR_STATUS_cmdhist_ue
  | .address => KReg.ERR_STATUS_addr_ue

/-- R687: what the fault does to the state it hits. -/
def Ktu.faultEffect (k : Ktu) : KtuFault → Ktu
  | .timeBase b => k.onTb b (fun _ x => x.toFree)
  | .upLink => k.resetLink true
  | .dnLink => k.resetLink false
  | .history => { k with fife := { k.fife with history := [] } }.put KReg.ERR_STATUS_hist_invalid 1
  | .address => Ktu.resetLink { k with fife := { k.fife with addrValid := false } } true

/-- R284, R687: an uncorrectable error in the KTU's own state. -/
def Ktu.stateUe (k : Ktu) (f : KtuFault) : Ktu :=
  let k := if k.errHeld then k else { k with errHeld := true }.put KReg.ERR_FIRST_code (faultCode f)
  let k := (k.faultEffect f).raise (faultBit f)
  (k.originate 3 Config.faultScope 0 (faultCode f)).count KReg.ERR_ALARMS_count

/-- R687: a correctable error was corrected. -/
def Ktu.correctable (k : Ktu) : Ktu := (k.raise KReg.ERR_STATUS_ce_seen).count KReg.ERR_CECNT_count

/-! ### The commands -/

/-- TICK_FIRE. -/
def execTickFire : State → Out := onKtu Ktu.tickFire

/-- FRAME_CODED: `ue` names the series whose carry storage is found in error (R253). -/
def execFrameCoded (ue : List (Fin 1024)) : State → Out := onKtu (fun k => k.frameCoded (ue.map (·.val)))

/-- KTU_TICK_RUN. -/
def execKtuTickRun (w : Writer) (v : Bool) : State → Out := onKtu (Ktu.fieldBy w KReg.TICK_CTRL_run 0 v.toNat)

/-- KTU_TICK_PERIOD_WRITE. -/
def execKtuTickPeriodWrite (w : Writer) (us : BitVec 16) : State → Out :=
  onKtu (Ktu.fieldBy w KReg.TICK_PERIOD_period_us 0 us.toNat)

/-- DELAY_REQ_SEND. -/
def execDelayReqSend (b : TbId) (dt : Nat) : State → Out := onKtu (fun k => k.sendDelayReq b dt)

/-- TS_CAP. -/
def execTsCap (d : Fin 4) : State → Out := onKtu (fun k => k.tsCapRise d)

/-- TS_CAPTURE_COMPLETE. -/
def execTsCaptureComplete (d : Fin 4) : State → Out := onKtu (fun k => k.tsDone d)

/-- TS_CAP_FALL. -/
def execTsCapFall (d : Fin 4) : State → Out := onKtu (fun k => k.tsCapFall d)

/-- KTU_POR_ASSERT: it also ends what R104 leaves undefined. -/
def execKtuPorAssert (s : State) : Out := .next { s with ktu := s.ktu.porAssert }

/-- KTU_POR_DEASSERT: nothing happens where ktu_por_n is high already. -/
def execKtuPorDeassert (straps : Straps) (clockRan : Bool) (s : State) : Out :=
  if s.ktu.pins.porLow then .next { s with ktu := s.ktu.porDeassert straps clockRan } else .next s

/-- KTU_READY. -/
def execKtuReady : State → Out := onKtu Ktu.becomeReady

/-- KTU_CLOCK_STOP: R104 leaves everything after it undefined while ktu_por_n is high; in reset nothing depends on it. -/
def execKtuClockStop (s : State) : Out :=
  if s.ktu.pins.porLow then .next s
  else .next { s with ktu := { s.ktu with pins := { s.ktu.pins with clkStopped := true } } }

/-- HOST_DOMAIN_CHANGE: in ktu_por_n only the levels are kept. -/
def execHostDomainChange (d : Fin 4) (rst pg : Bool) (s : State) : Out :=
  if s.ktu.pins.porLow then .next { s with ktu := s.ktu.setDomain d rst pg }
  else onKtu (fun k => k.domainChange d rst pg) s

/-- UNIT_STAT_UPDATE. -/
def execUnitStatUpdate (u : Fin 2048) (present : Bool) : State → Out := onKtu (fun k => k.unitStat u present)

/-- HOST_WAKE_REQ. -/
def execHostWakeReq (d : Fin 4) : State → Out := onKtu (fun k => k.hostWake d)

/-- HOST_ALARM. -/
def execHostAlarm (d : Fin 4) (code : BitVec 8) : State → Out := onKtu (fun k => k.hostAlarmRise d code)

/-- ABORT_ACK. -/
def execAbortAck : State → Out := onKtu Ktu.abortAckRise

/-- ABORT_ACK_FALL. -/
def execAbortAckFall : State → Out := onKtu Ktu.abortAckFall

/-- ABORT_FORCE_CLEAR. -/
def execAbortForceClear (w : Writer) : State → Out := onKtu (Ktu.writeBy w 0x488 (2 ^ 31))

/-- TAIL_EVENT. -/
def execTailEvent (d : Fin 4) (word : BitVec 64) (edges : Nat) : State → Out :=
  onKtu (fun k => k.tailEvent d word edges)

/-- A KTU_TAIL_CMD word (R202). -/
def tailCmdWord (op : Nat) (first last : Fin 2048) : Nat :=
  op * 2 ^ KReg.TAIL_CMD_op.lo + last.val * 2 ^ KReg.TAIL_CMD_last.lo + first.val * 2 ^ KReg.TAIL_CMD_first.lo

/-- TAIL_FREEZE. -/
def execTailFreeze (w : Writer) (first last : Fin 2048) : State → Out :=
  onKtu (Ktu.writeBy w 0x8014 (tailCmdWord 1 first last))

/-- TAIL_RELEASE. -/
def execTailRelease (w : Writer) (first last : Fin 2048) : State → Out :=
  onKtu (Ktu.writeBy w 0x8014 (tailCmdWord 2 first last))

/-- TAIL_CLEAR. -/
def execTailClear (w : Writer) (first last : Fin 2048) : State → Out :=
  onKtu (Ktu.writeBy w 0x8014 (tailCmdWord 3 first last))

/-- TAIL_ECC_UE. -/
def execTailEccUe (u : Fin 2048) (slot : Option (Fin 32)) : State → Out := onKtu (fun k => k.tailUe u.val slot)

/-- TRACE_RECORD. -/
def execTraceRecord (s : Fin 16) (payload : BitVec 64) (prio : Fin 4) (ctx : Bool) : State → Out :=
  onKtu (fun k => k.traceRecord s payload prio ctx)

/-- TRACE_FUNNEL_ADMIT. -/
def execTraceFunnelAdmit : State → Out := onKtu Ktu.funnelAdmit

/-- TRACE_RESYNC_TIMER. -/
def execTraceResyncTimer : State → Out := onKtu Ktu.resyncAll

/-- TRACE_RESYNC_CMD. -/
def execTraceResyncCmd (w : Writer) : State → Out := onKtu (Ktu.writeBy w 0x9090 1)

/-- FUNNEL_ECC_UE. -/
def execFunnelEccUe (i : Fin 4096) : State → Out := onKtu (fun k => k.funnelUe i.val)

/-- TRC_SRC_PGOOD_CHANGE. -/
def execTrcSrcPgoodChange (s : Fin 16) (v : Bool) : State → Out := onKtu (fun k => k.trcPgood s v)

/-- BREAKPOINT. -/
def execBreakpoint (c : Fin 8) : State → Out := onKtu (fun k => k.breakpoint c)

/-- HALT_REQ: reg_owner names the scope. -/
def execHaltReq (w : Writer) : State → Out := onKtu (Ktu.writeBy w 0xA200 1)

/-- DRAIN_COMPLETE. -/
def execDrainComplete (halted : BitVec 8) (drained : BitVec 4) : State → Out := onKtu (fun k => k.drain halted drained)

/-- HALT_TIMEOUT. -/
def execHaltTimeout (scope : Fin 17) : State → Out := onKtu (fun k => k.haltTimeout scope.val)

/-- RESUME_COMPLETE. -/
def execResumeComplete (halted : BitVec 8) : State → Out := onKtu (fun k => k.resumed halted)

/-- QUEUE_FLUSH. -/
def execQueueFlush (w : Writer) (id : Fin 64) : State → Out := onKtu (Ktu.writeBy w 0xD018 (2 ^ 31 + id.val))

/-- PMU_CLEAR. -/
def execPmuClear (w : Writer) (i : Fin 256) : State → Out := onKtu (Ktu.writeBy w (0x403C + 64 * i.val) 1)

/-- COUNTER_ECC_UE. -/
def execCounterEccUe (c : CounterRef) : State → Out := onKtu (fun k => k.counterUe (counterId c))

/-- TAP_SAMPLE. -/
def execTapSample (d : Fin 4) (t : TapSample) : State → Out := onKtu (fun k => k.tapSample d t)

/-- DIGEST_LINE. -/
def execDigestLine (tap : Fin 4) (r : BitVec 6) (offset : BitVec 48) (data : BitVec 512) : State → Out :=
  onKtu (fun k => k.digestLine tap r offset data)

/-- DIGEST_ECC_UE. -/
def execDigestEccUe (r : Fin 64) : State → Out := onKtu (fun k => k.digestUe r.val)

/-- PATTERN_RESPONSE. -/
def execPatternResponse (rsp : BitVec 64) : State → Out := onKtu (fun k => k.patternResponse rsp)

/-- PATTERN_WORD_TIMEOUT. -/
def execPatternWordTimeout : State → Out := onKtu Ktu.patternTimeout

/-- ENUM. -/
def execEnum (addr : BitVec 20) : State → Out := onKtu (fun k => k.acceptEnum addr)

/-- REG_RD. -/
def execRegRd (r : RegReq) : State → Out := onKtu (fun k => k.regRd r)

/-- REG_WR. -/
def execRegWr (r : RegReq) : State → Out := onKtu (fun k => k.regWr r)

/-- SLEEP_PROPOSE. -/
def execSleepPropose (phase target : BitVec 8) (tick : BitVec 48) : State → Out :=
  onKtu (fun k => k.sleepPropose phase target tick)

/-- FIFE_UP_RESET (KTU_FIFE_CTRL, the other fields of the word as they are). -/
def execFifeUpReset (w : Writer) : State → Out := onKtu (Ktu.fifeCtrlBy w 5)

/-- FIFE_DN_RESET. -/
def execFifeDnReset (w : Writer) : State → Out := onKtu (Ktu.fifeCtrlBy w 4)

/-- FIFE_UP_RETRAIN. -/
def execFifeUpRetrain (w : Writer) : State → Out := onKtu (Ktu.fifeCtrlBy w 3)

/-- FIFE_DN_RETRAIN. -/
def execFifeDnRetrain (w : Writer) : State → Out := onKtu (Ktu.fifeCtrlBy w 2)

/-- FIFE_WAKE. -/
def execFifeWake (w : Writer) : State → Out := onKtu (Ktu.fifeCtrlBy w 1)

/-- FIFE_DN_ENABLE. -/
def execFifeDnEnable (w : Writer) (v : Bool) : State → Out := onKtu (Ktu.fieldBy w KReg.FIFE_CTRL_dn_enable 0 v.toNat)

/-- KTU_RESET_COUNTERS. -/
def execKtuResetCounters (w : Writer) : State → Out := onKtu (Ktu.writeBy w 0x400 0x5A000001)

/-- KTU_RESET_OWNERS. -/
def execKtuResetOwners (w : Writer) : State → Out := onKtu (Ktu.writeBy w 0x400 0x5A000002)

/-- KTU_RESET_TIME. -/
def execKtuResetTime (w : Writer) : State → Out := onKtu (Ktu.writeBy w 0x400 0x5A000004)

/-- KTU_RESET_FIFE. -/
def execKtuResetFife (w : Writer) : State → Out := onKtu (Ktu.writeBy w 0x400 0x5A000008)

/-- HIST_REVALIDATE. -/
def execHistRevalidate (w : Writer) : State → Out := onKtu (Ktu.writeBy w 0xF020 1)

/-- KTU_STATE_UE. -/
def execKtuStateUe (f : KtuFault) : State → Out := onKtu (fun k => k.stateUe f)

/-- KTU_IRQ_PEND_WRITE: a write of KTU_IRQ_PEND, or of KTU_IRQ_EN. -/
def execKtuIrqPendWrite (w : Writer) (toEn : Bool) (v : Word) : State → Out :=
  onKtu (Ktu.writeBy w (if toEn then 0xF008 else 0xF004) v.toNat)

end Sys2Proof.Machine
end

