-- ==== Sys2Proof/Machine/PkgCmds.lean ====
section
/-! DEFINITION. The rows of the package: power-up, boot, resets, stops, clocks, power (R316 to R340, R692 to R704), memory and
die-link errors, queue check failures (R216 to R218, R230), and registers that have no row of their own (R14). -/

namespace Sys2Proof.Machine

open Sys2Proof

/-! ### Power-up, boot and resets -/

/-- NLD_POR_ASSERT (R714). -/
def execNldPorAssert (s : State) : Out := .next { s with nld := s.nld.porAssert }

/-- NLD_POR (R335): nld_por_n is deasserted. -/
def execNldPor (s : State) : Out := .next { s with nld := s.nld.porDeassert }

/-- BOOT_STAGE_COMPLETE (R335). -/
def execBootStageComplete (e : StageEnd) : State → Out := onNld (fun n => n.stageEnds e)

/-- R696: a write of the reset and power block, lost while a package reset is pending. -/
def Nld.rstWrite (f : Nld → Nld) (n : Nld) : Nld := if n.pkg.resetting then n else f n

/-- PACKAGE_RESET (R696). -/
def execPackageReset : State → Out := onNld (Nld.rstWrite Nld.packageReset)

/-- CLEAR_FAULT (R694). -/
def execClearFault : State → Out := onNld (Nld.rstWrite Nld.clearFault)

/-- PCIE_RESET (R561). -/
def execPcieReset : State → Out := onNld Nld.pcieReset

/-! ### Clocks, power, stops -/

/-- PLL_LOCK_LOSS (R697): of the I/O, compute or HBM PLL, or of all with the system reference. -/
def execPllLockLoss (pll : Option (Fin 3)) : State → Out :=
  match pll with
  | some p => onNld (fun n => n.pllLoss p.val)
  | none => onNld Nld.sysRefLoss

/-- REFERENCE_LOSS (R697). -/
def execReferenceLoss (r : PortRef) : State → Out := onNld (fun n => n.refLoss r)

/-- REFERENCE_RETURN (R697). -/
def execReferenceReturn (r : PortRef) : State → Out := onNld (fun n => n.refReturn r)

/-- SUPPLY_MONITOR_TRIP (R694). -/
def execSupplyMonitorTrip : State → Out := onNld Nld.supplyTrip

/-- THERMAL_TRIP (R334): the sensor that reached 115 °C, and its reading. -/
def execThermalTrip (sensor temp : BitVec 8) : State → Out := onNld (fun n => n.thermalTrip sensor.toNat temp.toNat)

/-- POWER_EVALUATION (R333): the average power in W, and the hottest junction in °C. -/
def execPowerEvaluation (watts tj : Nat) : State → Out := onNld (fun n => n.powerEval watts tj)

/-- DROOP_TRIP (R333). -/
def execDroopTrip : State → Out := onNld Nld.droop

/-! ### Memory and die-link errors -/

/-- HBM_UE (R325): the byte address, and what the granule held. -/
def execHbmUe (addr : BitVec 37) (hit : HbmHit) : State → Out := onNld (fun n => n.hbmUe addr.toNat hit)

/-- SCRUB_PASS_COMPLETE (R325). -/
def execScrubPassComplete : State → Out := onNld Nld.scrubPass

/-- D2D_REPLAY (R323): a transfer is replayed; `ns` is how long it has been in replay. -/
def execD2dReplay (ns : Nat) : State → Out := onNld (fun n => n.d2dReplay ns)

/-- D2D_REPLAY_LIMIT (R323). -/
def execD2dReplayLimit : State → Out := onNld Nld.d2dLimit

/-- CORRECTABLE_ERROR (R687, R702): of the KTU, or of Naloder. -/
def execCorrectableError (m : Option NldMem) : State → Out :=
  match m with
  | none => onKtu Ktu.correctable
  | some m => onNld (fun n => n.correctable m)

/-! ### Queue check failures (R216 to R218, R230, R312, R373, R398, R424, R492, R620) -/

/-- An ID that names a queue instance of Naloder. -/
def nldQueueNamed (id : Nat) : Bool :=
  (id / 256 == 8 && decide (id % 16 ≤ 5)) || (id / 16 == 0x90) || (id / 256 == 10 && decide (id % 256 < 128 ∧ id % 16 ≤ 6)) ||
  decide (0x1000 ≤ id ∧ id ≤ 0x1002) || (id / 256 == 0x14 && decide (id % 256 < 160 ∧ id % 16 ≤ 2)) ||
  decide (0x1800 ≤ id ∧ id ≤ 0x1803) || id == 0x1C00 || id == 0x1C01 ||
  id == 0x2400 || id == 0x2401 || id == 0x2410 || id == 0x2411 || id == 0x2420 || id == 0x2421

/-- R217, R218: what a check reset of instance i of a port's queues does to its link end: 0 to 3 the receive buffers, 4 the replay
buffer, 5 the alarm transmit queue. A message cut in a receive buffer is truncated. -/
def LinkEnd.checkReset (e : LinkEnd) (i : Nat) : LinkEnd × LinkActs :=
  if i < 4 then ({ e with partialRx := e.partialRx.filter (· ≠ i) }, { trunc := e.partialRx.contains i })
  else if i = 4 then ({ e with replay := [], resend := [] }, {})
  else if i = 5 then ({ e with alarms := [] }, {})
  else (e, {})

/-- R469, R475, R492: a message that a Horn port holds for others: one that does not come from here. -/
def forwarded (name : Nat) : Msg → Bool
  | .horn b => hornOrigin b != name
  | _ => false

/-- R492: the forwarding queue of a Horn port loses the messages that have not begun. -/
def TxVc.dropForwarded (name : Nat) (q : TxVc) : TxVc :=
  let k := if q.sent = 0 then 0 else 1
  { q with msgs := q.msgs.take k ++ (q.msgs.drop k).filter (fun m => !forwarded name m.2) }

/-- R217: the entries of an instance are discarded. The queues that a command passes within itself are empty between commands. -/
def Nld.discardQueue (n : Nld) (id : Nat) : Nld :=
  if id / 256 = 8 then n.fifeOp (id % 256 / 16) (fun e => e.checkReset (id % 16))
  else if id / 256 = 10 then
    let p := id % 256 / 16
    if id % 16 = 6 then
      n.hornOp p (fun e => ({ e with tx := e.tx.map (fun q => (q.1, TxVc.dropForwarded n.name q.2)) }, {}))
    else n.hornOp p (fun e => e.checkReset (id % 16))
  else if id = 0x2420 then n.setSrq 512
  else n

/-- R217, R233: a check failure of an instance. -/
def Nld.checkFailure (n : Nld) (id : Nat) : Nld :=
  if ¬ nldQueueNamed id then n
  else
    let n := n.discardQueue id
    let n := if n.bit NReg.QCHK_STATUS_chk_err then n else n.put NReg.QCHK_STATUS_first_id id
    (n.raise NReg.QCHK_STATUS_chk_err).count NReg.QCHK_COUNT_count

/-- QUEUE_CHECK_FAILURE (R217). -/
def execQueueCheckFailure (q : QueueRef) : State → Out :=
  match q with
  | .ktu id => onKtu (fun k => k.checkFailure id.val)
  | .nld id => onNld (fun n => n.checkFailure id.toNat)

/-! ### Registers (R14, R110, R156, R591, R691, R700, R708) -/

/-- A register read. -/
def readReg (r : RegRead) : State → Out :=
  match r with
  | .ktu o a => onKtu (fun k => k.localRead o a.toNat)
  | .nld fn a => onNld (fun n => n.readBar fn.val a.toNat)

/-- READ_CLEAR (R14): a read of a word with RC fields. -/
def execReadClear (r : RegRead) : State → Out := readReg r

/-- LO_READ_LATCH (R156): a read of a _LO word, which latches the _HI word for the same path. -/
def execLoReadLatch (r : RegRead) : State → Out := readReg r

/-- REGISTER_WRITE (R14). -/
def execRegisterWrite (w : RegWrite) : State → Out :=
  match w with
  | .ktu o a v => onKtu (fun k => k.localWrite o a.toNat v)
  | .nld fn a v full => onNld (fun n => n.writeBar fn.val a.toNat v.toNat full)
  | .firmware a v => onNld (fun n => n.writeFw a.toNat v.toNat)

/-- NLD_IRQ_WRITE (R700): a write of NLD_IRQ_PEND or of NLD_IRQ_EN. -/
def execNldIrqWrite (toEn : Bool) (v : Word) : State → Out :=
  onNld (fun n => n.writeBar 0 (if toEn then 0x340008 else 0x340004) v.toNat true)

/-- VF_IRQ_WRITE (R708): a write of NLD_VF_EVT or of NLD_VF_EN of VF p + 1. -/
def execVfIrqWrite (p : Fin 16) (toEn : Bool) (v : Word) : State → Out :=
  onNld (fun n => n.writeBar (p.val + 1) (if toEn then 0x1024 else 0x1020) v.toNat true)

/-! ### The emulated window (R589) -/

/-- EMULATED_READ (R589): an aligned read of the window by a function. -/
def execEmulatedRead (fn : Fin 17) (a : BitVec 24) : State → Out :=
  onNld (fun n => if emulatedBlock fn.val a.toNat then n.readBar fn.val a.toNat else n)

/-- EMULATED_READ_TIMEOUT (R589). -/
def execEmulatedReadTimeout (fn : Fin 17) (a : BitVec 24) : State → Out := onNld (fun n => n.emulatedTimeout fn.val a.toNat)

/-- EMULATED_WRITE (R589): an aligned write of the window with all byte enables. -/
def execEmulatedWrite (fn : Fin 17) (a : BitVec 24) (v : Word) : State → Out :=
  onNld (fun n => if emulatedBlock fn.val a.toNat then n.writeBar fn.val a.toNat v.toNat true else n)

end Sys2Proof.Machine
end

