-- ==== Sys2Proof/Machine/SchedCmds.lean ====
section
/-! DEFINITION. The rows of model programs (R60, R399 to R454), of the group exchange (R464 to R490), of rendezvous objects (R477), of
liveness and aborts (R497 to R531) and of self checks (R552). -/

namespace Sys2Proof.Machine

open Sys2Proof

/-! ### Rounds, windows, runs -/

/-- ROUND_START (R437). -/
def execRoundStart (r : BitVec 48) : State → Out := onNld (fun n => n.roundStart r.toNat)

/-- WINDOW_START (R438): of an owner. -/
def execWindowStart (o : Fin 17) : State → Out := onNld (fun n => n.windowStart o.val)

/-- The number of a kind of run (R450). -/
def kindNum : RunKind → Nat
  | .sealed => 0
  | .provisional => 1
  | .fleetStage => 2

/-- RUN_COMPLETE (R448): the run's clocks, what went wrong in the arrays, and the busy clocks of each cluster. -/
def execRunComplete (owner : Fin 17) (image : BitVec 64) (t : BitVec 48) (kind : RunKind) (cycles : Nat) (faults : List ArrFault)
    (clocks : List (Nat × Nat)) : State → Out :=
  onNld (fun n => n.runComplete owner.val image.toNat t.toNat (kindNum kind) cycles faults clocks)

/-- SEALED_RUN_BUDGET_EXHAUSTED (R60). -/
def execSealedRunBudgetExhausted (owner : Fin 17) (image : BitVec 64) (t : BitVec 48) (clocks : List (Nat × Nat)) : State → Out :=
  onNld (fun n => n.runExhausted owner.val image.toNat t.toNat clocks)

/-- TREE_CALL_START (R410, R425): the ensemble's address, the samples as value and poison tag of each feature, and whether the
call had to wait. -/
def execTreeCallStart (owner : Fin 17) (addr : Nat) (samples : List (List (Nat × Bool))) (waited : Bool) : State → Out :=
  onNld (fun n => if n.bit NReg.TREE_CTRL_enable then n.treeCall owner.val addr samples waited else n)

/-- SCHED_TABLE_COMMIT (R454). -/
def execSchedTableCommit : State → Out := onNldWrite Nld.commitWindows

/-- SELF_CHECK_VECTOR (R552): `flips` is what an error of the hardware does to the output. -/
def execSelfCheckVector (flips : List (Nat × Nat)) : State → Out := onNld (fun n => n.selfCheck flips)

/-! ### The group exchange -/

/-- R469, R483: a PARTIAL arrives: at a root, or at a tray whose child sends it. -/
def Nld.partialIn (n : Nld) (site : Site) (b : List Byte) : Nld :=
  let n := n.returnBuffer site
  match site with
  | .horn p =>
    if ¬ partialShape b then n.count NReg.HORNp_MSGDROP_count 1 p.val
    else if n.isRoot then n.rootPartial b
    else if n.hornRole p.val = 3 then n.relayPartial b
    else n
  | .qp _ => if partialShape b ∧ n.isRoot then n.rootPartial b else n

/-- PARTIAL (R469, R483). -/
def execPartial (site : Site) (b : List Byte) : State → Out := onNld (fun n => n.partialIn site b)

/-- SEAL (R475). -/
def execSeal (p : Fin 8) (b : List Byte) : State → Out := onNld (fun n => n.sealIn p.val b)

/-- GROUP_SUMMARY (R486). -/
def execGroupSummary (site : Site) (b : List Byte) : State → Out := onNld (fun n => (n.returnBuffer site).summaryIn b)

/-- FULL_SUMMARY_SEND (R488). -/
def execFullSummarySend : State → Out := onNld Nld.sendFull

/-- A declaration as the roots compare it. -/
def declOf (d : OutDecl) : Decl := (d.owner, d.output, d.op, d.bp, d.cols, d.image, d.size)

/-- FULL_SUMMARY (R488): whose it is, the tick and value of its membership check, and its declarations. -/
def execFullSummary (site : Site) (gt : BitVec 11) (tick : BitVec 48) (check : Word) (decls : List OutDecl) : State → Out :=
  onNld (fun n => (n.returnBuffer site).fullIn gt.toNat tick.toNat check.toNat (decls.map declOf))

/-- HORN_CMD (R466, R665): a Bugle command. -/
def execHornCmd (site : Site) (m : BugleMsg) : State → Out := onNld (fun n => (n.returnBuffer site).bugleIn site m)

/-- SEAL_MISSING_TIMEOUT (R475): of a kind and tick, and of a program for kind 2. -/
def execSealMissingTimeout (kind : Fin 3) (t : BitVec 48) (owner : Fin 17) (image : BitVec 64) : State → Out :=
  onNld (fun n => n.sealMissing kind.val t.toNat owner.val image.toNat)

/-- RDV_DEADLINE (R477): of a rendezvous object. -/
def execRdvDeadline (k : Fin 16384) : State → Out := onNld (fun n => n.rdvDeadline k.val)

/-! ### Liveness and aborts -/

/-- CORROBORATION_QUERY (R504). -/
def execCorroborationQuery (pos : Fin 512) : State → Out := onNld (fun n => n.corrQuery pos.val)

/-- CORROBORATION_REPLY (R504). -/
def execCorroborationReply (b : List Byte) : State → Out := onNld (fun n => n.corrReply b)

/-- WITNESS_REPORT (R504). -/
def execWitnessReport (b : List Byte) : State → Out := onNld (fun n => n.witness b)

/-- CORROBORATION_TIMEOUT (R501). -/
def execCorroborationTimeout (pos : Fin 512) : State → Out := onNld (fun n => n.corrTimeout pos.val)

/-- LIVE_CLEAR (R529). -/
def execLiveClear (pos : Fin 512) : State → Out := onNldWrite (fun n => n.liveClear pos.val)

/-- LIVE_QUERY (R529). -/
def execLiveQuery (pos : Fin 512) : State → Out := onNldWrite (fun n => n.query pos.val)

/-- ABORT_CMD (R519). -/
def execAbortCmd (scope : BitVec 17) : State → Out := onNldWrite (fun n => n.originateAbort scope.toNat 5)

end Sys2Proof.Machine
end

