-- ==== Sys2Proof/Machine/TickCmds.lean ====
section
/-! DEFINITION. The rows of Naloder's ticks (R25 to R65, R341 to R365) and of its series engine and codec (R265, R350 to R376). -/

namespace Sys2Proof.Machine

open Sys2Proof

/-! ### Ticks -/

/-- NLD_TICK_RUN (R61): a write of NLD_TICK_CTRL.run. -/
def execNldTickRun (v : Bool) : State → Out := onNldWrite (fun n => n.tickRun v)

/-- TICK_SETPOINT_WRITE (R62, R63): 0 the period, 1 to 4 P, L, G and S. -/
def execTickSetpointWrite (i : Fin 5) (us : BitVec 18) : State → Out := onNldWrite (fun n => n.writeSetPoint i.val us.toNat)

/-- TICK_OPEN (R27). -/
def execTickOpen : State → Out := onNld Nld.tickOpen

/-- PROVISIONAL_POINT (R45). -/
def execProvisionalPoint (t : BitVec 48) : State → Out := onNld (fun n => n.provPoint t.toNat)

/-- TRAY_SEAL (R39). -/
def execTraySeal (t : BitVec 48) : State → Out := onNld (fun n => n.traySeal t.toNat)

/-- GROUP_SEAL (R41). -/
def execGroupSeal (t : BitVec 48) : State → Out := onNld (fun n => n.groupSeal t.toNat)

/-- FLEET_SEAL (R42). -/
def execFleetSeal (t : BitVec 48) : State → Out := onNld (fun n => n.fleetSeal t.toNat)

/-- FRAME (R342): a frame taken whole from a Fife port; `lag` is how long before the command its last byte arrived (R344), in clock
edges. -/
def execFrame (p : Fin 16) (bytes : List Byte) (poisoned : Bool) (lag : Nat) : State → Out :=
  onNld (fun n => n.frameIn p.val bytes poisoned lag)

/-- SEAL_DRAIN_END (R345): `ns` is how long the drain took. -/
def execSealDrainEnd (t : BitVec 48) (ns : Nat) : State → Out := onNld (fun n => n.sealDrain t.toNat ns)

/-- SEAL_SWEEP_END (R356, R357): `ns` is how long the sweep took. -/
def execSealSweepEnd (t : BitVec 48) (ns : Nat) : State → Out := onNld (fun n => n.sealSweep t.toNat ns)

/-- HISTORY_COMPRESS_DONE (R365). -/
def execHistoryCompressDone : State → Out := onNld Nld.compressDone

/-- PROVISIONAL_DRAIN_END (R346). -/
def execProvisionalDrainEnd (t : BitVec 48) : State → Out := onNld (fun n => n.provDrain t.toNat)

/-! ### Owner maps, the position table, contexts, code tables -/

/-- OWN_MAP_ARM (R350). -/
def execOwnMapArm (pos : Fin 512) : State → Out := onNldWrite (fun n => n.armOwners pos.val)

/-- POSITION_TABLE_COMMIT (R353). -/
def execPositionTableCommit : State → Out := onNldWrite Nld.commitPositions

/-- CTX_CFG_APPLY (R361). -/
def execCtxCfgApply (c : BitVec 18) (bp : BitVec 7) (k : BitVec 4) : State → Out := onNldWrite (fun n => n.ctxCfg c.toNat bp.toNat k.toNat)

/-- CTX_EPOCH_START (R361): at the next sweep. -/
def execCtxEpochStart (c : BitVec 18) : State → Out := onNldWrite (fun n => (n.ctxEpoch c.toNat 0).1)

/-- CODEC_TABLE_COMMIT (R265). -/
def execCodecTableCommit (t : Fin 16) (gen : BitVec 16) : State → Out := onNldWrite (fun n => n.commitTable t.val gen.toNat)

/-- BULK_LANE_ENABLE (R266). -/
def execBulkLaneEnable (v : BitVec 2) : State → Out := onNldWrite (fun n => n.laneEnable v.toNat)

/-! ### What the chains bring (R187, R302 to R304) -/

/-- TRACE (R187, R188). -/
def execTrace (addr : BitVec 20) (seq : Word) (recs : List TraceRec) : State → Out :=
  onNld (fun n => n.traceIn addr.toNat seq.toNat recs)

/-- TAILDUMP (R178): a block of rings of an owner. -/
def execTaildump (addr : BitVec 20) (t : TailImage) (owner : Fin 17) : State → Out :=
  onNld (fun n => n.tailDumpIn addr.toNat t owner.val)

/-- CMD_ACK (R302). -/
def execCmdAck (p : Fin 16) (m : CmdAckMsg) : State → Out := onNld (fun n => n.cmdAckIn p.val m)

/-- REG_RESPONSE (R303). -/
def execRegResponse (p : Fin 16) (write : Bool) (r : RegResp) : State → Out := onNld (fun n => n.regRespIn p.val write r)

/-- REQUEST_TIMEOUT (R304): of a request to a KTU: a register request or a CMD, its tag or cmd_id, and whom it went to. -/
def execRequestTimeout (reg : Bool) (p : Fin 16) (id : Word) (addr : BitVec 20) : State → Out :=
  onNld (fun n => n.reqTimeout reg p.val id.toNat addr.toNat)

/-- DIGEST (R543). -/
def execDigest (m : DigestMsg) : State → Out := onNld (fun n => n.digestIn m)

/-- PATTERN_RESULT (R551). -/
def execPatternResult (m : PatternResultMsg) : State → Out := onNld (fun n => n.patternIn m)

/-- OBSERVE_ONLY_RECHECK (R631). -/
def execObserveOnlyRecheck (pos : Fin 512) : State → Out := onNld (fun n => n.recheck pos.val)

end Sys2Proof.Machine
end

