-- ==== Sys2Proof/Machine/TimeCmds.lean ====
section
/-! DEFINITION. The rows of time (R69 to R101, R727): SYNC and the delay messages, the timers of the time bases and domains, steps,
the tick source, and IEEE 1588. -/

namespace Sys2Proof.Machine

open Sys2Proof

/-- A command on a time base of the KTU or on a domain of Naloder. -/
def onClock (c : ClockId) (f : Ktu → TbId → Ktu) (g : Nld → Nat → Nld) : State → Out :=
  match c with
  | .ktu b => onKtu (fun k => f k b)
  | .nld d => onNld (fun n => g n d.val)

/-! ### Messages (R75 to R79, R89, R90, R727) -/

/-- SYNC_SEND (R75): a master port sends SYNC. A domain that follows another domain is sampled with Fife port 0's, once each
interval (R99). -/
def Nld.syncDue (n : Nld) (l : LinkId) : Nld :=
  let n := n.sendSync l
  if l = .nldFife 0 then n.refSamples else n

/-- SYNC_SEND (R75). A KTU sends no SYNC of its own. -/
def execSyncSend (l : LinkId) : State → Out := onNld (fun n => n.syncDue l)

/-- SYNC (R76 to R84): received `dt` after the preceding clock edge, with the residence it will have until it is forwarded, both in
2^-16 ns. -/
def execSync (site : TimeSite) (m : SyncMsg) (dt residence : Nat) : State → Out :=
  match site with
  | .ktu => onKtu (fun k => k.takeSync m dt residence)
  | .fife p => onNld (fun n => n.fifeSync p.val m dt residence)
  | .horn p => onNld (fun n => n.hornSync p.val m dt)

/-- DOMAIN_DELAY_REQ_SEND (R727). -/
def execDomainDelayReqSend (d : Fin 8) (dt : Nat) : State → Out := onNld (fun n => n.domainRequest d.val dt)

/-- DELAY_REQ (R75 to R77, R89, R99). -/
def execDelayReq (site : TimeSite) (m : DelayReqMsg) (dt residence : Nat) : State → Out :=
  match site with
  | .ktu => onKtu (fun k => k.forwardDelayReq m residence)
  | .fife p => onNld (fun n => n.fifeDelayReq p.val m dt residence)
  | .horn p => onNld (fun n => n.hornDelayReq p.val m dt)

/-- DELAY_RESP (R79, R80, R90). -/
def execDelayResp (site : TimeSite) (m : DelayRespMsg) : State → Out :=
  match site with
  | .ktu => onKtu (fun k => k.takeDelayResp m)
  | .fife p => onNld (fun n => n.fifeDelayResp p.val m)
  | .horn p => onNld (fun n => n.hornDelayResp p.val m)

/-! ### Timers (R79, R82, R92) -/

/-- R79: a KTU base drops a request. -/
def Ktu.dropReq (k : Ktu) (x : TbId) (seq : Nat) : Ktu :=
  let b := k.tb x
  k.setTb x { b with main := b.main.dropRequest seq }

/-- DELAY_REQ_TIMEOUT (R79): of the path in use, or of a domain's other path. -/
def execDelayReqTimeout (c : ClockId) (seq : BitVec 16) (second : Bool) : State → Out :=
  onClock c (fun k b => if second then k else k.dropReq b seq.toNat) (fun n d => n.dropReq d seq.toNat second)

/-- R79: a KTU base's delay expires. -/
def Ktu.delayExpire (k : Ktu) (x : TbId) : Ktu :=
  let b := k.tb x
  k.setTb x { b with main := b.main.expire }

/-- DELAY_VALID_EXPIRY (R79). -/
def execDelayValidExpiry (c : ClockId) (second : Bool) : State → Out :=
  onClock c (fun k b => if second then k else k.delayExpire b) (fun n d => n.delayExpire d second)

/-- HOLDOVER_TIMEOUT (R82). -/
def execHoldoverTimeout (c : ClockId) : State → Out :=
  onClock c (fun k b => k.onTb b (fun _ t => t.toHoldover)) (fun n d => n.onDom d (fun _ t => t.toHoldover))

/-- REVERT_TIMER (R92): of the KTU's tick source, or of a domain. -/
def execRevertTimer (d : Option (Fin 8)) : State → Out :=
  match d with
  | none => onKtu Ktu.revert
  | some d => onNld (fun n => n.revert d.val)

/-! ### Register writes with rows of their own (R82, R85, R91, R98 to R100) -/

/-- A write of a field of a time base by its writer, or the same of a domain. -/
def clockField (c : ClockWrite) (f : Fld) (v : Bool) (g : Nld → Nat → Nld) : State → Out :=
  match c with
  | .ktu w b => onKtu (Ktu.fieldBy w f b.ix v.toNat)
  | .nld d => onNldWrite (fun n => g n d.val)

/-- TIME_BASE_HOLD (R82). -/
def execTimeBaseHold (c : ClockWrite) (v : Bool) : State → Out :=
  clockField c KReg.TBx_CTRL_hold v (fun n d => n.writeHold d v)

/-- TIME_BASE_ENABLE (R82). -/
def execTimeBaseEnable (c : ClockWrite) (v : Bool) : State → Out :=
  clockField c KReg.TBx_CTRL_enable v (fun n d => n.writeEnable d v)

/-- STEP_APPLY (R85). -/
def execStepApply (c : ClockWrite) : State → Out :=
  match c with
  | .ktu w b => onKtu (Ktu.writeBy w (0x1048 + 0x80 * b.ix) 1)
  | .nld d => onNldWrite (fun n => n.stepCmd d.val true false)

/-- STEP_ACCEPT_PENDING (R85). -/
def execStepAcceptPending (c : ClockWrite) : State → Out :=
  match c with
  | .ktu w b => onKtu (Ktu.writeBy w (0x1048 + 0x80 * b.ix) 2)
  | .nld d => onNldWrite (fun n => n.stepCmd d.val false true)

/-- STEP_ACT (R85, R87): what domain 0 has stepped over is sealed, opened or skipped by the rows of the ticks. -/
def execStepAct (c : ClockId) : State → Out :=
  onClock c (fun k b => k.onTb b TimeBase.stepAct) (fun n d => n.onDom d TimeBase.stepAct)

/-- TICK_SRC_WRITE (R91, R92, R98 to R100): KTU_TIME_SEL.tick_src by a writer, or NLD_TDd_SRC whole. -/
def execTickSrcWrite (t : TickSrc) : State → Out :=
  match t with
  | .ktu w src => onKtu (Ktu.fieldBy w KReg.TIME_SEL_tick_src 0 src.val)
  | .nld d word => onNldWrite (fun n => n.writeSrc d.val word.toNat)

/-! ### IEEE 1588 (R93, R101) -/

/-- PTP_MESSAGE (R93): received on an Ethernet port `dt` after the preceding edge, in 2^-16 ns. -/
def execPtpMessage (e : Fin 2) (h : PtpHdr) (b : PtpBody) (dt : Nat) : State → Out := onNld (fun n => n.ptpIn e.val h b dt)

/-- PTP_TRANSMIT (R93). -/
def execPtpTransmit (e : Fin 2) (m : PtpSend) (dt : Nat) : State → Out := onNld (fun n => n.ptpSend e.val m dt)

end Sys2Proof.Machine
end

