-- ==== Sys2Proof/Machine/Dispatch.lean ====
section
/-! DEFINITION. Which meaning each command has. -/

namespace Sys2Proof.Machine

open Sys2Proof

def exec (i : Instr) (s : State) : Host.Outcome State Fault Refusal :=
  match i with
  | .tickFire => Sys2Proof.Machine.execTickFire s
  | .frameCoded ue => Sys2Proof.Machine.execFrameCoded ue s
  | .ktuTickRun w v => Sys2Proof.Machine.execKtuTickRun w v s
  | .ktuTickPeriodWrite w us => Sys2Proof.Machine.execKtuTickPeriodWrite w us s
  | .nldTickRun v => Sys2Proof.Machine.execNldTickRun v s
  | .tickSetpointWrite x_i us => Sys2Proof.Machine.execTickSetpointWrite x_i us s
  | .tickOpen => Sys2Proof.Machine.execTickOpen s
  | .provisionalPoint t => Sys2Proof.Machine.execProvisionalPoint t s
  | .traySeal t => Sys2Proof.Machine.execTraySeal t s
  | .groupSeal t => Sys2Proof.Machine.execGroupSeal t s
  | .fleetSeal t => Sys2Proof.Machine.execFleetSeal t s
  | .frame p bytes poisoned lag => Sys2Proof.Machine.execFrame p bytes poisoned lag s
  | .sealDrainEnd t ns => Sys2Proof.Machine.execSealDrainEnd t ns s
  | .sealSweepEnd t ns => Sys2Proof.Machine.execSealSweepEnd t ns s
  | .historyCompressDone => Sys2Proof.Machine.execHistoryCompressDone s
  | .provisionalDrainEnd t => Sys2Proof.Machine.execProvisionalDrainEnd t s
  | .syncSend l => Sys2Proof.Machine.execSyncSend l s
  | .sync site m dt residence => Sys2Proof.Machine.execSync site m dt residence s
  | .delayReqSend b dt => Sys2Proof.Machine.execDelayReqSend b dt s
  | .domainDelayReqSend d dt => Sys2Proof.Machine.execDomainDelayReqSend d dt s
  | .delayReq site m dt residence => Sys2Proof.Machine.execDelayReq site m dt residence s
  | .delayResp site m => Sys2Proof.Machine.execDelayResp site m s
  | .delayReqTimeout c seq second => Sys2Proof.Machine.execDelayReqTimeout c seq second s
  | .delayValidExpiry c second => Sys2Proof.Machine.execDelayValidExpiry c second s
  | .holdoverTimeout c => Sys2Proof.Machine.execHoldoverTimeout c s
  | .revertTimer d => Sys2Proof.Machine.execRevertTimer d s
  | .timeBaseHold c v => Sys2Proof.Machine.execTimeBaseHold c v s
  | .timeBaseEnable c v => Sys2Proof.Machine.execTimeBaseEnable c v s
  | .stepApply c => Sys2Proof.Machine.execStepApply c s
  | .stepAcceptPending c => Sys2Proof.Machine.execStepAcceptPending c s
  | .stepAct c => Sys2Proof.Machine.execStepAct c s
  | .tickSrcWrite t => Sys2Proof.Machine.execTickSrcWrite t s
  | .ptpMessage e h b dt => Sys2Proof.Machine.execPtpMessage e h b dt s
  | .tsCap d => Sys2Proof.Machine.execTsCap d s
  | .ktuPorAssert => Sys2Proof.Machine.execKtuPorAssert s
  | .ktuPorDeassert straps clockRan => Sys2Proof.Machine.execKtuPorDeassert straps clockRan s
  | .ktuReady => Sys2Proof.Machine.execKtuReady s
  | .hostDomainChange d rst pg => Sys2Proof.Machine.execHostDomainChange d rst pg s
  | .unitStatUpdate u present => Sys2Proof.Machine.execUnitStatUpdate u present s
  | .hostWakeReq d => Sys2Proof.Machine.execHostWakeReq d s
  | .hostAlarm d code => Sys2Proof.Machine.execHostAlarm d code s
  | .abortAck => Sys2Proof.Machine.execAbortAck s
  | .abortAckFall => Sys2Proof.Machine.execAbortAckFall s
  | .abortForceClear w => Sys2Proof.Machine.execAbortForceClear w s
  | .tailEvent d word edges => Sys2Proof.Machine.execTailEvent d word edges s
  | .tailFreeze w first last => Sys2Proof.Machine.execTailFreeze w first last s
  | .tailRelease w first last => Sys2Proof.Machine.execTailRelease w first last s
  | .tailClear w first last => Sys2Proof.Machine.execTailClear w first last s
  | .tailEccUe u slot => Sys2Proof.Machine.execTailEccUe u slot s
  | .traceRecord x_s payload prio ctx => Sys2Proof.Machine.execTraceRecord x_s payload prio ctx s
  | .traceFunnelAdmit => Sys2Proof.Machine.execTraceFunnelAdmit s
  | .traceResyncTimer => Sys2Proof.Machine.execTraceResyncTimer s
  | .traceResyncCmd w => Sys2Proof.Machine.execTraceResyncCmd w s
  | .funnelEccUe x_i => Sys2Proof.Machine.execFunnelEccUe x_i s
  | .breakpoint c => Sys2Proof.Machine.execBreakpoint c s
  | .haltReq w => Sys2Proof.Machine.execHaltReq w s
  | .drainComplete halted drained => Sys2Proof.Machine.execDrainComplete halted drained s
  | .haltTimeout scope => Sys2Proof.Machine.execHaltTimeout scope s
  | .resumeComplete halted => Sys2Proof.Machine.execResumeComplete halted s
  | .queueFlush w id => Sys2Proof.Machine.execQueueFlush w id s
  | .queueCheckFailure q => Sys2Proof.Machine.execQueueCheckFailure q s
  | .pmuClear w x_i => Sys2Proof.Machine.execPmuClear w x_i s
  | .counterEccUe c => Sys2Proof.Machine.execCounterEccUe c s
  | .tableLoad h p => Sys2Proof.Machine.execTableLoad h p s
  | .tailDump h first last frozenOnly release freeze => Sys2Proof.Machine.execTailDump h first last frozenOnly release freeze s
  | .resend h first last => Sys2Proof.Machine.execResend h first last s
  | .halt h scope t => Sys2Proof.Machine.execHalt h scope t s
  | .resume h scope t => Sys2Proof.Machine.execResume h scope t s
  | .timeStep h bases accept amount at_ => Sys2Proof.Machine.execTimeStep h bases accept amount at_ s
  | .patternRun h p => Sys2Proof.Machine.execPatternRun h p s
  | .digestOpen h p => Sys2Proof.Machine.execDigestOpen h p s
  | .digestAbandon h r z => Sys2Proof.Machine.execDigestAbandon h r z s
  | .slotAssign h slots => Sys2Proof.Machine.execSlotAssign h slots s
  | .digestLine tap r offset data => Sys2Proof.Machine.execDigestLine tap r offset data s
  | .patternResponse rsp => Sys2Proof.Machine.execPatternResponse rsp s
  | .patternWordTimeout => Sys2Proof.Machine.execPatternWordTimeout s
  | .signalDetect l => Sys2Proof.Machine.execSignalDetect l s
  | .linkUp l partnerNext resume => Sys2Proof.Machine.execLinkUp l partnerNext resume s
  | .trainingTimeout l => Sys2Proof.Machine.execTrainingTimeout l s
  | .retrainTimeout l => Sys2Proof.Machine.execRetrainTimeout l s
  | .resetSlotEnd l => Sys2Proof.Machine.execResetSlotEnd l s
  | .lossOfSignal l => Sys2Proof.Machine.execLossOfSignal l s
  | .hiBer l => Sys2Proof.Machine.execHiBer l s
  | .flitReceive l f m => Sys2Proof.Machine.execFlitReceive l f m s
  | .ackTimeout l => Sys2Proof.Machine.execAckTimeout l s
  | .nakResendTimeout l => Sys2Proof.Machine.execNakResendTimeout l s
  | .retryEpisodeTimeout l => Sys2Proof.Machine.execRetryEpisodeTimeout l s
  | .controlFlitTimer l => Sys2Proof.Machine.execControlFlitTimer l s
  | .trainingPair l => Sys2Proof.Machine.execTrainingPair l s
  | .alarm l pair => Sys2Proof.Machine.execAlarm l pair s
  | .alarmRepeat => Sys2Proof.Machine.execAlarmRepeat s
  | .linkStatePair l code => Sys2Proof.Machine.execLinkStatePair l code s
  | .enum addr => Sys2Proof.Machine.execEnum addr s
  | .enumResponse p e => Sys2Proof.Machine.execEnumResponse p e s
  | .trace addr seq recs => Sys2Proof.Machine.execTrace addr seq recs s
  | .taildump addr t owner => Sys2Proof.Machine.execTaildump addr t owner s
  | .cmdAck p m => Sys2Proof.Machine.execCmdAck p m s
  | .regRd r => Sys2Proof.Machine.execRegRd r s
  | .regWr r => Sys2Proof.Machine.execRegWr r s
  | .requestTimeout reg p id addr => Sys2Proof.Machine.execRequestTimeout reg p id addr s
  | .sleepGo p target => Sys2Proof.Machine.execSleepGo p target s
  | .sleepPropose phase target tick => Sys2Proof.Machine.execSleepPropose phase target tick s
  | .sleepAgree p addr refuse tick => Sys2Proof.Machine.execSleepAgree p addr refuse tick s
  | .sleepDecision p => Sys2Proof.Machine.execSleepDecision p s
  | .wake p addr sources tick => Sys2Proof.Machine.execWake p addr sources tick s
  | .fifeUpReset w => Sys2Proof.Machine.execFifeUpReset w s
  | .fifeDnReset w => Sys2Proof.Machine.execFifeDnReset w s
  | .fifeUpRetrain w => Sys2Proof.Machine.execFifeUpRetrain w s
  | .fifeDnRetrain w => Sys2Proof.Machine.execFifeDnRetrain w s
  | .fifeWake w => Sys2Proof.Machine.execFifeWake w s
  | .fifeDnEnable w v => Sys2Proof.Machine.execFifeDnEnable w v s
  | .nldFifeReset p => Sys2Proof.Machine.execNldFifeReset p s
  | .nldFifeRetrain p => Sys2Proof.Machine.execNldFifeRetrain p s
  | .nldFifeWake p => Sys2Proof.Machine.execNldFifeWake p s
  | .nldFifeEnable p v => Sys2Proof.Machine.execNldFifeEnable p v s
  | .d2dReplayLimit => Sys2Proof.Machine.execD2dReplayLimit s
  | .powerEvaluation watts tj => Sys2Proof.Machine.execPowerEvaluation watts tj s
  | .droopTrip => Sys2Proof.Machine.execDroopTrip s
  | .thermalTrip sensor temp => Sys2Proof.Machine.execThermalTrip sensor temp s
  | .nldPor => Sys2Proof.Machine.execNldPor s
  | .bootStageComplete e => Sys2Proof.Machine.execBootStageComplete e s
  | .hbmUe addr hit => Sys2Proof.Machine.execHbmUe addr hit s
  | .scrubPassComplete => Sys2Proof.Machine.execScrubPassComplete s
  | .ownMapArm pos => Sys2Proof.Machine.execOwnMapArm pos s
  | .positionTableCommit => Sys2Proof.Machine.execPositionTableCommit s
  | .ctxCfgApply c bp k => Sys2Proof.Machine.execCtxCfgApply c bp k s
  | .ctxEpochStart c => Sys2Proof.Machine.execCtxEpochStart c s
  | .codecTableCommit t gen => Sys2Proof.Machine.execCodecTableCommit t gen s
  | .bulkLaneEnable v => Sys2Proof.Machine.execBulkLaneEnable v s
  | .roundStart r => Sys2Proof.Machine.execRoundStart r s
  | .runComplete owner image t kind cycles faults clocks => Sys2Proof.Machine.execRunComplete owner image t kind cycles faults clocks s
  | .sealedRunBudgetExhausted owner image t clocks => Sys2Proof.Machine.execSealedRunBudgetExhausted owner image t clocks s
  | .treeCallStart owner addr samples waited => Sys2Proof.Machine.execTreeCallStart owner addr samples waited s
  | .schedTableCommit => Sys2Proof.Machine.execSchedTableCommit s
  | .hornLinkUp p => Sys2Proof.Machine.execHornLinkUp p s
  | .hornEnum p origin end_ role resume next profile => Sys2Proof.Machine.execHornEnum p origin end_ role resume next profile s
  | .hornFlitReceive p f corrected bad => Sys2Proof.Machine.execHornFlitReceive p f corrected bad s
  | .hornAckTimeout p => Sys2Proof.Machine.execHornAckTimeout p s
  | .hornRetryTimeout p => Sys2Proof.Machine.execHornRetryTimeout p s
  | .hornRetrainTimeout p => Sys2Proof.Machine.execHornRetrainTimeout p s
  | .hornReset p => Sys2Proof.Machine.execHornReset p s
  | .hornRetrain p => Sys2Proof.Machine.execHornRetrain p s
  | .hornCmd site m => Sys2Proof.Machine.execHornCmd site m s
  | .partialMsg site b => Sys2Proof.Machine.execPartial site b s
  | .sealMsg p b => Sys2Proof.Machine.execSeal p b s
  | .groupSummary site b => Sys2Proof.Machine.execGroupSummary site b s
  | .fullSummarySend => Sys2Proof.Machine.execFullSummarySend s
  | .fullSummary site gt tick check decls => Sys2Proof.Machine.execFullSummary site gt tick check decls s
  | .fabricAlarm site pair => Sys2Proof.Machine.execFabricAlarm site pair s
  | .sealMissingTimeout kind t owner image => Sys2Proof.Machine.execSealMissingTimeout kind t owner image s
  | .rdvDeadline k => Sys2Proof.Machine.execRdvDeadline k s
  | .corroborationQuery pos => Sys2Proof.Machine.execCorroborationQuery pos s
  | .corroborationReply b => Sys2Proof.Machine.execCorroborationReply b s
  | .witnessReport b => Sys2Proof.Machine.execWitnessReport b s
  | .corroborationTimeout pos => Sys2Proof.Machine.execCorroborationTimeout pos s
  | .liveClear pos => Sys2Proof.Machine.execLiveClear pos s
  | .liveQuery pos => Sys2Proof.Machine.execLiveQuery pos s
  | .abortCmd scope => Sys2Proof.Machine.execAbortCmd scope s
  | .digest m => Sys2Proof.Machine.execDigest m s
  | .patternResult m => Sys2Proof.Machine.execPatternResult m s
  | .selfCheckVector flips => Sys2Proof.Machine.execSelfCheckVector flips s
  | .doorbellPoll fs => Sys2Proof.Machine.execDoorbellPoll fs s
  | .query h => Sys2Proof.Machine.execQuery h s
  | .load h offset bytes => Sys2Proof.Machine.execLoad h offset bytes s
  | .admitImage h offset len params signed => Sys2Proof.Machine.execAdmit h offset len params signed s
  | .withdraw h image => Sys2Proof.Machine.execWithdraw h image s
  | .track h ws => Sys2Proof.Machine.execTrack h ws s
  | .ctxCfg h c bp k epoch => Sys2Proof.Machine.execCtxCfg h c bp k epoch s
  | .jobReport h part addr dead => Sys2Proof.Machine.execJobReport h part addr dead s
  | .membership h part epoch tick bitmap => Sys2Proof.Machine.execMembership h part epoch tick bitmap s
  | .checkpoint h part epoch c => Sys2Proof.Machine.execCheckpoint h part epoch c s
  | .vote h v => Sys2Proof.Machine.execVote h v s
  | .tally h slot patternId tick => Sys2Proof.Machine.execTally h slot patternId tick s
  | .vectorSet h x_s => Sys2Proof.Machine.execVectorSet h x_s s
  | .ktuCmd d p addr route scope scopeSet b => Sys2Proof.Machine.execKtuCmd d p addr route scope scopeSet b s
  | .ktuReg d write addr offset count words => Sys2Proof.Machine.execKtuReg d write addr offset count words s
  | .bugle d m => Sys2Proof.Machine.execBugle d m s
  | .abort h scope => Sys2Proof.Machine.execAbort h scope s
  | .tapOwner h tap owner => Sys2Proof.Machine.execTapOwner h tap owner s
  | .contentTapSubmit h tap seq bytes => Sys2Proof.Machine.execContentTapSubmit h tap seq bytes s
  | .tapSequenceExpiry order => Sys2Proof.Machine.execTapSequenceExpiry order s
  | .bulkCompress h o => Sys2Proof.Machine.execBulkCompress h o s
  | .bulkDecompress h o => Sys2Proof.Machine.execBulkDecompress h o s
  | .historyRead h ctx first count dst dstLen => Sys2Proof.Machine.execHistoryRead h ctx first count dst dstLen s
  | .deliveryRecordWrite fn ring => Sys2Proof.Machine.execDeliveryRecordWrite fn ring s
  | .ringEnable fn ring => Sys2Proof.Machine.execRingEnable fn ring s
  | .ringDisable fn ring => Sys2Proof.Machine.execRingDisable fn ring s
  | .functionLevelReset fn => Sys2Proof.Machine.execFunctionLevelReset fn s
  | .hostReadError f => Sys2Proof.Machine.execHostReadError f s
  | .irqTimer fn ring => Sys2Proof.Machine.execIrqTimer fn ring s
  | .emulatedRead fn a => Sys2Proof.Machine.execEmulatedRead fn a s
  | .emulatedReadTimeout fn a => Sys2Proof.Machine.execEmulatedReadTimeout fn a s
  | .emulatedWrite fn a v => Sys2Proof.Machine.execEmulatedWrite fn a v s
  | .rocePacketReceive e qpn p => Sys2Proof.Machine.execRocePacketReceive e qpn p s
  | .packetTransmit e => Sys2Proof.Machine.execPacketTransmit e s
  | .qpAckTimeout q => Sys2Proof.Machine.execQpAckTimeout q s
  | .rnrTimer q => Sys2Proof.Machine.execRnrTimer q s
  | .keyx q k => Sys2Proof.Machine.execKeyx q k s
  | .keyok q => Sys2Proof.Machine.execKeyok q s
  | .keyxResendTimer q => Sys2Proof.Machine.execKeyxResendTimer q s
  | .keyingTimeout q => Sys2Proof.Machine.execKeyingTimeout q s
  | .rekeyTimer q => Sys2Proof.Machine.execRekeyTimer q s
  | .qpRecreateTimer q => Sys2Proof.Machine.execQpRecreateTimer q s
  | .qpAlloc => Sys2Proof.Machine.execQpAlloc s
  | .qpInit q => Sys2Proof.Machine.execQpInit q s
  | .qpErrorCmd q => Sys2Proof.Machine.execQpErrorCmd q s
  | .qpResetFree q => Sys2Proof.Machine.execQpResetFree q s
  | .shaperRefill => Sys2Proof.Machine.execShaperRefill s
  | .ethLinkChange e up => Sys2Proof.Machine.execEthLinkChange e up s
  | .fwLoad b => Sys2Proof.Machine.execFwLoad b s
  | .fwUpdate b => Sys2Proof.Machine.execFwUpdate b s
  | .fwLoadComplete => Sys2Proof.Machine.execFwLoadComplete s
  | .fwTakeover accepted => Sys2Proof.Machine.execFwTakeover accepted s
  | .watchdogKick mask => Sys2Proof.Machine.execWatchdogKick mask s
  | .watchdogFire core => Sys2Proof.Machine.execWatchdogFire core s
  | .controlCoreRestart verified => Sys2Proof.Machine.execControlCoreRestart verified s
  | .securityWatchdogFire => Sys2Proof.Machine.execSecurityWatchdogFire s
  | .recordCommit => Sys2Proof.Machine.execRecordCommit s
  | .recorderClear t => Sys2Proof.Machine.execRecorderClear t s
  | .recorderClearDone => Sys2Proof.Machine.execRecorderClearDone s
  | .testAccessOpen => Sys2Proof.Machine.execTestAccessOpen s
  | .attest nonce => Sys2Proof.Machine.execAttest nonce s
  | .enrolRevoke b => Sys2Proof.Machine.execEnrolRevoke b s
  | .provisioningBundle b => Sys2Proof.Machine.execProvisioningBundle b s
  | .generateIdentity => Sys2Proof.Machine.execGenerateIdentity s
  | .installChain root good => Sys2Proof.Machine.execInstallChain root good s
  | .ktuResetCounters w => Sys2Proof.Machine.execKtuResetCounters w s
  | .ktuResetOwners w => Sys2Proof.Machine.execKtuResetOwners w s
  | .ktuResetTime w => Sys2Proof.Machine.execKtuResetTime w s
  | .ktuResetFife w => Sys2Proof.Machine.execKtuResetFife w s
  | .histRevalidate w => Sys2Proof.Machine.execHistRevalidate w s
  | .ktuStateUe f => Sys2Proof.Machine.execKtuStateUe f s
  | .packageReset => Sys2Proof.Machine.execPackageReset s
  | .clearFault => Sys2Proof.Machine.execClearFault s
  | .pllLockLoss pll => Sys2Proof.Machine.execPllLockLoss pll s
  | .referenceLoss r => Sys2Proof.Machine.execReferenceLoss r s
  | .supplyMonitorTrip => Sys2Proof.Machine.execSupplyMonitorTrip s
  | .nldIrqWrite toEn v => Sys2Proof.Machine.execNldIrqWrite toEn v s
  | .vfIrqWrite p toEn v => Sys2Proof.Machine.execVfIrqWrite p toEn v s
  | .ktuIrqPendWrite w toEn v => Sys2Proof.Machine.execKtuIrqPendWrite w toEn v s
  | .readClear r => Sys2Proof.Machine.execReadClear r s
  | .loReadLatch r => Sys2Proof.Machine.execLoReadLatch r s
  | .registerWrite w => Sys2Proof.Machine.execRegisterWrite w s
  | .flitTransmit l dt => Sys2Proof.Machine.execFlitTransmit l dt s
  | .tapSample d t => Sys2Proof.Machine.execTapSample d t s
  | .nldPorAssert => Sys2Proof.Machine.execNldPorAssert s
  | .ptpTransmit e m dt => Sys2Proof.Machine.execPtpTransmit e m dt s
  | .regResponse p write r => Sys2Proof.Machine.execRegResponse p write r s
  | .laneRelock l => Sys2Proof.Machine.execLaneRelock l s
  | .trcSrcPgoodChange x_s v => Sys2Proof.Machine.execTrcSrcPgoodChange x_s v s
  | .tsCaptureComplete d => Sys2Proof.Machine.execTsCaptureComplete d s
  | .tsCapFall d => Sys2Proof.Machine.execTsCapFall d s
  | .digestEccUe r => Sys2Proof.Machine.execDigestEccUe r s
  | .d2dReplay ns => Sys2Proof.Machine.execD2dReplay ns s
  | .bulkJobComplete l => Sys2Proof.Machine.execBulkJobComplete l s
  | .windowStart o => Sys2Proof.Machine.execWindowStart o s
  | .observeOnlyRecheck pos => Sys2Proof.Machine.execObserveOnlyRecheck pos s
  | .securityCoreRestart => Sys2Proof.Machine.execSecurityCoreRestart s
  | .referenceReturn r => Sys2Proof.Machine.execReferenceReturn r s
  | .ktuClockStop => Sys2Proof.Machine.execKtuClockStop s
  | .pcieReset => Sys2Proof.Machine.execPcieReset s
  | .unknownOpcode h op => Sys2Proof.Machine.execUnknownOpcode h op s
  | .updateHoldEnd => Sys2Proof.Machine.execUpdateHoldEnd s
  | .correctableError m => Sys2Proof.Machine.execCorrectableError m s

end Sys2Proof.Machine
end

