-- ==== Sys2Proof/Safety.lean ====
section
/-! DEFINITION. What the claims speak of: which side of the block a command acts on, the operating conditions of each side, and the
invariants of a step. -/

namespace Sys2Proof.Machine

open Sys2Proof

/-- A link end of the KTU. -/
def linkOfKtu : LinkId → Bool
  | .ktuUp => true
  | .ktuDn => true
  | _ => false

/-- A clock of the KTU. -/
def clockOfKtu : ClockId → Bool
  | .ktu _ => true
  | _ => false

/-- A write of a clock of the KTU. -/
def writeOfKtu : ClockWrite → Bool
  | .ktu _ _ => true
  | _ => false

/-- A timed message at the KTU. -/
def siteOfKtu : TimeSite → Bool
  | .ktu => true
  | _ => false

/-- A write of the KTU's tick source. -/
def sourceOfKtu : TickSrc → Bool
  | .ktu _ _ => true
  | _ => false

/-- A queue of the KTU. -/
def queueOfKtu : QueueRef → Bool
  | .ktu _ => true
  | _ => false

/-- A register read of the KTU. -/
def readOfKtu : RegRead → Bool
  | .ktu _ _ => true
  | _ => false

/-- A register write of the KTU. -/
def regOfKtu : RegWrite → Bool
  | .ktu _ _ _ => true
  | _ => false

/-- The command acts on the KTU; the others act on Naloder. -/
def actsOnKtu : Instr → Bool
  | .tickFire => true
  | .frameCoded _ => true
  | .ktuTickRun _ _ => true
  | .ktuTickPeriodWrite _ _ => true
  | .nldTickRun _ => false
  | .tickSetpointWrite _ _ => false
  | .tickOpen => false
  | .provisionalPoint _ => false
  | .traySeal _ => false
  | .groupSeal _ => false
  | .fleetSeal _ => false
  | .frame _ _ _ _ => false
  | .sealDrainEnd _ _ => false
  | .sealSweepEnd _ _ => false
  | .historyCompressDone => false
  | .provisionalDrainEnd _ => false
  | .syncSend _ => false
  | .sync site _ _ _ => siteOfKtu site
  | .delayReqSend _ _ => true
  | .domainDelayReqSend _ _ => false
  | .delayReq site _ _ _ => siteOfKtu site
  | .delayResp site _ => siteOfKtu site
  | .delayReqTimeout c _ _ => clockOfKtu c
  | .delayValidExpiry c _ => clockOfKtu c
  | .holdoverTimeout c => clockOfKtu c
  | .revertTimer d => d.isNone
  | .timeBaseHold c _ => writeOfKtu c
  | .timeBaseEnable c _ => writeOfKtu c
  | .stepApply c => writeOfKtu c
  | .stepAcceptPending c => writeOfKtu c
  | .stepAct c => clockOfKtu c
  | .tickSrcWrite t => sourceOfKtu t
  | .ptpMessage _ _ _ _ => false
  | .tsCap _ => true
  | .ktuPorAssert => true
  | .ktuPorDeassert _ _ => true
  | .ktuReady => true
  | .hostDomainChange _ _ _ => true
  | .unitStatUpdate _ _ => true
  | .hostWakeReq _ => true
  | .hostAlarm _ _ => true
  | .abortAck => true
  | .abortAckFall => true
  | .abortForceClear _ => true
  | .tailEvent _ _ _ => true
  | .tailFreeze _ _ _ => true
  | .tailRelease _ _ _ => true
  | .tailClear _ _ _ => true
  | .tailEccUe _ _ => true
  | .traceRecord _ _ _ _ => true
  | .traceFunnelAdmit => true
  | .traceResyncTimer => true
  | .traceResyncCmd _ => true
  | .funnelEccUe _ => true
  | .breakpoint _ => true
  | .haltReq _ => true
  | .drainComplete _ _ => true
  | .haltTimeout _ => true
  | .resumeComplete _ => true
  | .queueFlush _ _ => true
  | .queueCheckFailure q => queueOfKtu q
  | .pmuClear _ _ => true
  | .counterEccUe _ => true
  | .tableLoad _ _ => true
  | .tailDump _ _ _ _ _ _ => true
  | .resend _ _ _ => true
  | .halt _ _ _ => true
  | .resume _ _ _ => true
  | .timeStep _ _ _ _ _ => true
  | .patternRun _ _ => true
  | .digestOpen _ _ => true
  | .digestAbandon _ _ _ => true
  | .slotAssign _ _ => true
  | .digestLine _ _ _ _ => true
  | .patternResponse _ => true
  | .patternWordTimeout => true
  | .signalDetect l => linkOfKtu l
  | .linkUp l _ _ => linkOfKtu l
  | .trainingTimeout l => linkOfKtu l
  | .retrainTimeout l => linkOfKtu l
  | .resetSlotEnd l => linkOfKtu l
  | .lossOfSignal l => linkOfKtu l
  | .hiBer l => linkOfKtu l
  | .flitReceive l _ _ => linkOfKtu l
  | .ackTimeout l => linkOfKtu l
  | .nakResendTimeout l => linkOfKtu l
  | .retryEpisodeTimeout l => linkOfKtu l
  | .controlFlitTimer l => linkOfKtu l
  | .trainingPair l => linkOfKtu l
  | .alarm l _ => linkOfKtu l
  | .alarmRepeat => false
  | .linkStatePair l _ => linkOfKtu l
  | .enum _ => true
  | .enumResponse _ _ => false
  | .trace _ _ _ => false
  | .taildump _ _ _ => false
  | .cmdAck _ _ => false
  | .regRd _ => true
  | .regWr _ => true
  | .requestTimeout _ _ _ _ => false
  | .sleepGo _ _ => false
  | .sleepPropose _ _ _ => true
  | .sleepAgree _ _ _ _ => false
  | .sleepDecision _ => false
  | .wake _ _ _ _ => false
  | .fifeUpReset _ => true
  | .fifeDnReset _ => true
  | .fifeUpRetrain _ => true
  | .fifeDnRetrain _ => true
  | .fifeWake _ => true
  | .fifeDnEnable _ _ => true
  | .nldFifeReset _ => false
  | .nldFifeRetrain _ => false
  | .nldFifeWake _ => false
  | .nldFifeEnable _ _ => false
  | .d2dReplayLimit => false
  | .powerEvaluation _ _ => false
  | .droopTrip => false
  | .thermalTrip _ _ => false
  | .nldPor => false
  | .bootStageComplete _ => false
  | .hbmUe _ _ => false
  | .scrubPassComplete => false
  | .ownMapArm _ => false
  | .positionTableCommit => false
  | .ctxCfgApply _ _ _ => false
  | .ctxEpochStart _ => false
  | .codecTableCommit _ _ => false
  | .bulkLaneEnable _ => false
  | .roundStart _ => false
  | .runComplete _ _ _ _ _ _ _ => false
  | .sealedRunBudgetExhausted _ _ _ _ => false
  | .treeCallStart _ _ _ _ => false
  | .schedTableCommit => false
  | .hornLinkUp _ => false
  | .hornEnum _ _ _ _ _ _ _ => false
  | .hornFlitReceive _ _ _ _ => false
  | .hornAckTimeout _ => false
  | .hornRetryTimeout _ => false
  | .hornRetrainTimeout _ => false
  | .hornReset _ => false
  | .hornRetrain _ => false
  | .hornCmd _ _ => false
  | .partialMsg _ _ => false
  | .sealMsg _ _ => false
  | .groupSummary _ _ => false
  | .fullSummarySend => false
  | .fullSummary _ _ _ _ _ => false
  | .fabricAlarm _ _ => false
  | .sealMissingTimeout _ _ _ _ => false
  | .rdvDeadline _ => false
  | .corroborationQuery _ => false
  | .corroborationReply _ => false
  | .witnessReport _ => false
  | .corroborationTimeout _ => false
  | .liveClear _ => false
  | .liveQuery _ => false
  | .abortCmd _ => false
  | .digest _ => false
  | .patternResult _ => false
  | .selfCheckVector _ => false
  | .doorbellPoll _ => false
  | .query _ => false
  | .load _ _ _ => false
  | .admitImage _ _ _ _ _ => false
  | .withdraw _ _ => false
  | .track _ _ => false
  | .ctxCfg _ _ _ _ _ => false
  | .jobReport _ _ _ _ => false
  | .membership _ _ _ _ _ => false
  | .checkpoint _ _ _ _ => false
  | .vote _ _ => false
  | .tally _ _ _ _ => false
  | .vectorSet _ _ => false
  | .ktuCmd _ _ _ _ _ _ _ => false
  | .ktuReg _ _ _ _ _ _ => false
  | .bugle _ _ => false
  | .abort _ _ => false
  | .tapOwner _ _ _ => false
  | .contentTapSubmit _ _ _ _ => false
  | .tapSequenceExpiry _ => false
  | .bulkCompress _ _ => false
  | .bulkDecompress _ _ => false
  | .historyRead _ _ _ _ _ _ => false
  | .deliveryRecordWrite _ _ => false
  | .ringEnable _ _ => false
  | .ringDisable _ _ => false
  | .functionLevelReset _ => false
  | .hostReadError _ => false
  | .irqTimer _ _ => false
  | .emulatedRead _ _ => false
  | .emulatedReadTimeout _ _ => false
  | .emulatedWrite _ _ _ => false
  | .rocePacketReceive _ _ _ => false
  | .packetTransmit _ => false
  | .qpAckTimeout _ => false
  | .rnrTimer _ => false
  | .keyx _ _ => false
  | .keyok _ => false
  | .keyxResendTimer _ => false
  | .keyingTimeout _ => false
  | .rekeyTimer _ => false
  | .qpRecreateTimer _ => false
  | .qpAlloc => false
  | .qpInit _ => false
  | .qpErrorCmd _ => false
  | .qpResetFree _ => false
  | .shaperRefill => false
  | .ethLinkChange _ _ => false
  | .fwLoad _ => false
  | .fwUpdate _ => false
  | .fwLoadComplete => false
  | .fwTakeover _ => false
  | .watchdogKick _ => false
  | .watchdogFire _ => false
  | .controlCoreRestart _ => false
  | .securityWatchdogFire => false
  | .recordCommit => false
  | .recorderClear _ => false
  | .recorderClearDone => false
  | .testAccessOpen => false
  | .attest _ => false
  | .enrolRevoke _ => false
  | .provisioningBundle _ => false
  | .generateIdentity => false
  | .installChain _ _ => false
  | .ktuResetCounters _ => true
  | .ktuResetOwners _ => true
  | .ktuResetTime _ => true
  | .ktuResetFife _ => true
  | .histRevalidate _ => true
  | .ktuStateUe _ => true
  | .packageReset => false
  | .clearFault => false
  | .pllLockLoss _ => false
  | .referenceLoss _ => false
  | .supplyMonitorTrip => false
  | .nldIrqWrite _ _ => false
  | .vfIrqWrite _ _ _ => false
  | .ktuIrqPendWrite _ _ _ => true
  | .readClear r => readOfKtu r
  | .loReadLatch r => readOfKtu r
  | .registerWrite w => regOfKtu w
  | .flitTransmit l _ => linkOfKtu l
  | .tapSample _ _ => true
  | .nldPorAssert => false
  | .ptpTransmit _ _ _ => false
  | .regResponse _ _ _ => false
  | .laneRelock l => linkOfKtu l
  | .trcSrcPgoodChange _ _ => true
  | .tsCaptureComplete _ => true
  | .tsCapFall _ => true
  | .digestEccUe _ => true
  | .d2dReplay _ => false
  | .bulkJobComplete _ => false
  | .windowStart _ => false
  | .observeOnlyRecheck _ => false
  | .securityCoreRestart => false
  | .referenceReturn _ => false
  | .ktuClockStop => true
  | .pcieReset => false
  | .unknownOpcode _ _ => true
  | .updateHoldEnd => false
  | .correctableError m => m.isNone

/-- The commands that move the KTU's reset and clock, and act while it is in reset. -/
def ktuPower : Instr → Bool
  | .ktuPorAssert => true
  | .ktuPorDeassert _ _ => true
  | .ktuClockStop => true
  | .hostDomainChange _ _ _ => true
  | _ => false

/-- The commands that move nld_por_n. -/
def nldPower : Instr → Bool
  | .nldPorAssert => true
  | .nldPor => true
  | _ => false

/-- The KTU runs: ktu_por_n is high, and no clock has stopped since (R104). -/
def Ktu.runs (k : Ktu) : Prop := k.pins.porLow = false ∧ k.pins.clkStopped = false

/-- Naloder runs: nld_por_n is high, and its clocks have not been stopped (R334, R697). -/
def Nld.runs (n : Nld) : Prop := n.pkg.porLow = false ∧ n.pkg.stopped = false

/-- Naloder takes register writes outside the reset and power block: boot has ended and no package reset waits (R336, R696). -/
def Nld.writable (n : Nld) : Prop := n.runs ∧ n.pkg.resetting = false ∧ 5 ≤ n.bootStage

/-- R309: no link of the KTU stays in L0q or L1 while a wake source is pending. -/
def State.awake (s : State) : Prop := s.ktu.wakeSources ≠ 0 → s.ktu.fife.up.lp = 0 ∧ s.ktu.fife.dn.lp = 0

/-- R83: the opening of ticks knows whether domain 0 has been Locked since it last left Free. -/
def State.lockKnown (s : State) : Prop := s.nld.tick.everLocked = (s.nld.dom 0).tb.everLocked

/-! ### What a claim about one command says -/

/-- The command answers a next state in which only the KTU has changed, and the KTU has a property. -/
def KtuDoes (c : Instr) (s : State) (P : Ktu → Prop) : Prop := ∃ k, exec c s = .next { s with ktu := k } ∧ P k

/-- The command answers a next state in which only Naloder has changed, and Naloder has a property. -/
def NldDoes (c : Instr) (s : State) (P : Nld → Prop) : Prop := ∃ n, exec c s = .next { s with nld := n } ∧ P n

/-- A message waits in the transmit queues of a link end. -/
def LinkEnd.waits (e : LinkEnd) (m : Msg) : Prop := ∃ (r : Nat) (gc : Bool), (gc, m) ∈ (Tbl.get ({} : TxVc) r e.tx).msgs

/-- Between two states Naloder put an output out to its host. -/
def Nld.emits (a b : Nld) (o : HostOut) : Prop := ∃ l, b.out = a.out ++ l ∧ o ∈ l

/-- R295, R300: a command that reaches a KTU for execution: it names this KTU or every KTU, and its membership takes part. -/
def Ktu.takes (k : Ktu) (h : CmdHdr) : Prop := (h.route = 1 ∨ k.isMe h.addr = true) ∧ k.inScope h = true

/-- R301, R687: a command that a KTU executes now: its cmd_id is neither zero nor among the last 64, with the history valid. -/
def Ktu.executes (k : Ktu) (h : CmdHdr) : Prop :=
  k.takes h ∧ h.id ≠ 0 ∧ k.bit KReg.ERR_STATUS_hist_invalid = false ∧
  k.fife.history.find? (fun e => e.1 = h.id.toNat) = none

/-- The header and the opcode of a CMD row (R299). -/
def cmdOf : Instr → Option (CmdHdr × Nat)
  | .tableLoad h _ => some (h, 1)
  | .tailDump h _ _ _ _ _ => some (h, 2)
  | .resend h _ _ => some (h, 3)
  | .halt h _ _ => some (h, 4)
  | .resume h _ _ => some (h, 5)
  | .timeStep h _ _ _ _ => some (h, 6)
  | .patternRun h _ => some (h, 7)
  | .digestOpen h _ => some (h, 8)
  | .digestAbandon h _ _ => some (h, 8)
  | .slotAssign h _ => some (h, 9)
  | .unknownOpcode h op => if 1 ≤ op.toNat ∧ op.toNat ≤ 9 then none else some (h, op.toNat)
  | _ => none

/-- A CMD_ACK without detail (R302). -/
def ackOf (addr : BitVec 20) (h : CmdHdr) (op status : Nat) (rep : Bool) : Msg :=
  .cmdAck ⟨addr, h.id, BitVec.ofNat 8 op, BitVec.ofNat 8 status, rep, 0⟩

/-- R301, R302: between two states a KTU answered a command with a status and a detail, and remembers the status. -/
def Ktu.answered (a b : Ktu) (h : CmdHdr) (op status detail : Nat) : Prop :=
  b.fife.up.waits (.cmdAck ⟨a.addr, h.id, BitVec.ofNat 8 op, BitVec.ofNat 8 status, false, BitVec.ofNat 64 detail⟩) ∧
  b.fife.history = ((h.id.toNat, status) :: a.fife.history).take 64

/-- R573: between two states Naloder completed the descriptor of a slot of a ring: the completion written names its tag and has a
status, and the descriptor is held no longer. -/
def Nld.completes (a b : Nld) (key slot status : Nat) : Prop :=
  (∃ (at_ : Nat) (ws : List Nat), a.emits b (.write (key / 32) (key % 32) at_ ws) ∧ ws.getD 2 0 % 256 = status ∧
    ∃ d ∈ (a.ring key).held, d.slot = slot ∧ ws.getD 0 0 = d.tag % 2 ^ 32) ∧
  ∀ d ∈ (b.ring key).held, d.slot ≠ slot

/-- R577, R633: a descriptor of a command ring is the oldest that firmware has not begun, and firmware executes. -/
def Nld.turn (n : Nld) (h : DescHdr) : Prop :=
  n.ringType h.key = 1 ∧ n.isNext h = true ∧ n.fwRuns = true ∧ n.fw.holding = false ∧ (n.ring h.key).error = 0

/-- R579, R580: a descriptor of a content-tap or bulk codec ring is the oldest the queue engine has not begun. -/
def Nld.deviceTurn (n : Nld) (h : DescHdr) (type : Nat) : Prop :=
  n.ringType h.key = type ∧ n.isNext h = true ∧ (n.ring h.key).error = 0

/-- The parts of a KTU that a frame names. -/
inductive KPart where
  | pins | regs | index | latches | time | counters | tail | trace | halts | queues | codec | fife | check | rest
  deriving DecidableEq, Repr

/-- Two KTUs agree in a part. The wake latch and the one-time wake source are not part of the pins here, and the link ends, the
sleep phase and the WAKE owed not part of the Fife side: every command may move them (R309). -/
def Ktu.same (a b : Ktu) : KPart → Prop
  | .pins => { b.pins with wakeLatch := a.pins.wakeLatch, wakeOnce := a.pins.wakeOnce } = a.pins
  | .regs => b.regs = a.regs
  | .index => b.remoteIdx = a.remoteIdx
  | .latches => b.latchL = a.latchL ∧ b.latchR = a.latchR
  | .time => b.time = a.time
  | .counters => b.cnt = a.cnt
  | .tail => b.tail = a.tail
  | .trace => b.trace = a.trace
  | .halts => b.halts = a.halts
  | .queues => b.queues = a.queues
  | .codec => b.codec = a.codec
  | .fife => { b.fife with up := a.fife.up, dn := a.fife.dn, sleepPhase := a.fife.sleepPhase, wakeOwed := a.fife.wakeOwed } = a.fife
  | .check => b.check = a.check
  | .rest => b.resetPending = a.resetPending ∧ b.errHeld = a.errHeld ∧ b.lastRead = a.lastRead

/-- Outside the parts named, a KTU is as it was. -/
def Ktu.only (l : List KPart) (a b : Ktu) : Prop := ∀ p, p ∉ l → Ktu.same a b p

/-- Outside the fields named, a KTU's registers are as they were. -/
def Ktu.regsOnly (l : List (Fld × Nat)) (a b : Ktu) : Prop :=
  ∀ (f : Fld) (i : Nat), (∀ x ∈ l, f.key i ≠ x.1.key x.2) → b.get f i = a.get f i

/-- The parts of a Naloder that a frame names. -/
inductive NPart where
  | regs | pkg | hwErr | log | doms | ktuTimes | ptp | tick | own | chains | series | tables | host | group | verdict | recorder
  | sec | sched | defence | rdma | fw
  deriving DecidableEq, Repr

/-- Two Naloders agree in a part. What every command may move is left out: the pending interrupt vectors, and the record of what
the opening of ticks knows of domain 0 (R83, R700); what goes out to the host is no part at all. -/
def Nld.same (a b : Nld) : NPart → Prop
  | .regs => ∀ (f : Fld) (i : Nat), f.key i ≠ NReg.IRQ_PEND_pend.key 0 → b.get f i = a.get f i
  | .pkg => b.pkg = a.pkg
  | .hwErr => b.hwErr = a.hwErr
  | .log => b.log = a.log ∧ b.logSeq = a.logSeq
  | .doms => b.doms = a.doms
  | .ktuTimes => b.ktuTimes = a.ktuTimes
  | .ptp => b.ptp = a.ptp
  | .tick => { b.tick with crossed := a.tick.crossed, everLocked := a.tick.everLocked } = a.tick
  | .own => b.own = a.own
  | .chains => b.chains = a.chains
  | .series => b.series = a.series
  | .tables => b.tables = a.tables
  | .host => { b.host with pba := a.host.pba } = a.host
  | .group => b.group = a.group
  | .verdict => b.verdict = a.verdict
  | .recorder => b.recorder = a.recorder
  | .sec => b.sec = a.sec
  | .sched => b.sched = a.sched
  | .defence => b.defence = a.defence
  | .rdma => b.rdma = a.rdma
  | .fw => b.fw = a.fw

/-- Outside the parts named, a Naloder is as it was. -/
def Nld.only (l : List NPart) (a b : Nld) : Prop := ∀ p, p ∉ l → Nld.same a b p

/-- Outside the fields named and NLD_IRQ_PEND, a Naloder's registers are as they were. -/
def Nld.regsOnly (l : List (Fld × Nat)) (a b : Nld) : Prop :=
  ∀ (f : Fld) (i : Nat), f.key i ≠ NReg.IRQ_PEND_pend.key 0 → (∀ x ∈ l, f.key i ≠ x.1.key x.2) → b.get f i = a.get f i


/-- The end of a link. -/
def endOf (s : State) : LinkId → LinkEnd
  | .ktuUp => s.ktu.fife.up
  | .ktuDn => s.ktu.fife.dn
  | .nldFife p => (s.nld.fife p.val).link
  | .nldHorn p => (s.nld.horn p.val).link

/-- The side of a link end runs. -/
def State.runsAt (s : State) : LinkId → Prop
  | .ktuUp => s.ktu.runs
  | .ktuDn => s.ktu.runs
  | .nldFife _ => s.nld.runs
  | .nldHorn _ => s.nld.runs

/-- The kind of a link. -/
def kindOf : LinkId → LinkKind
  | .nldHorn _ => hornKind
  | _ => fifeKind

/-- A link command answers a next state in which the other side is as it was, the side of the link has changed in its links and
in what they carry alone, and the link's end has a property. -/
def LinkDoes (c : Instr) (s : State) (l : LinkId) (P : LinkEnd → Prop) : Prop :=
  ∃ t, exec c s = .next t ∧ t.pending = s.pending ∧ t.free = s.free ∧
    (linkOfKtu l = true → t.nld = s.nld ∧ Ktu.only [.regs, .tail, .trace, .queues, .codec, .fife] s.ktu t.ktu) ∧
    (linkOfKtu l = false → t.ktu = s.ktu ∧ Nld.only [.regs, .hwErr, .chains, .group] s.nld t.nld) ∧ P (endOf t l)

/-- Two link ends agree in the link layer: numbers, what is kept for replay, and credits. -/
def LinkEnd.sameLayer (a b : LinkEnd) : Prop :=
  b.txSeq = a.txSeq ∧ b.rxExp = a.rxExp ∧ b.replay = a.replay ∧ b.used = a.used ∧ b.freed = a.freed

/-- The link layer starts anew (R279). -/
def LinkEnd.anew (e : LinkEnd) : Prop := e.txSeq = 0 ∧ e.rxExp = 0 ∧ e.replay = [] ∧ e.resend = [] ∧ e.used = [] ∧ e.freed = []

/-- A link end may train (R127, R130, R335, R493, R697). -/
def State.trains (s : State) : LinkId → Prop
  | .ktuUp => s.ktu.pins.ready = true
  | .ktuDn => s.ktu.pins.ready = true
  | .nldFife _ => s.nld.pkg.portsOn = true ∧ s.nld.bit NReg.CLK_STATUS_ref_fife = true
  | .nldHorn p =>
    s.nld.pkg.portsOn = true ∧ s.nld.bit NReg.CLK_STATUS_ref_horn = true ∧ s.nld.bit NReg.HORNp_CTRL_enable p.val = true

/-- Nothing but what waits at a port decides what it sends next: a KTU that has accepted ENUM has no frame, trace record or dump
elsewhere for it, and a leaf has no downstream port. -/
def State.sendsOnly (s : State) : LinkId → Prop
  | .ktuUp => s.ktu.fife.mayForward = true ∧ s.ktu.codec.store = [] ∧ s.ktu.trace.funnel = [] ∧ s.ktu.tail.dumps = []
  | .ktuDn => s.ktu.pins.straps.leaf = false
  | _ => True

/-- The commands that are writes of Naloder's registers outside its reset and power block (R336, R689). -/
def pfWriteRow : Instr → Bool
  | .qpAlloc => true
  | .qpInit _ => true
  | .qpErrorCmd _ => true
  | .qpResetFree _ => true
  | .recorderClear _ => true
  | .attest _ => true
  | .enrolRevoke _ => true
  | .provisioningBundle _ => true
  | .generateIdentity => true
  | .installChain _ _ => true
  | .sleepGo _ _ => true
  | .nldFifeReset _ => true
  | .nldFifeRetrain _ => true
  | .nldFifeWake _ => true
  | .nldFifeEnable _ _ => true
  | .hornReset _ => true
  | .hornRetrain _ => true
  | .schedTableCommit => true
  | .liveClear _ => true
  | .liveQuery _ => true
  | .abortCmd _ => true
  | .nldTickRun _ => true
  | .tickSetpointWrite _ _ => true
  | .ownMapArm _ => true
  | .positionTableCommit => true
  | .ctxCfgApply _ _ _ => true
  | .ctxEpochStart _ => true
  | .codecTableCommit _ _ => true
  | .bulkLaneEnable _ => true
  | .stepApply c => !writeOfKtu c
  | .stepAcceptPending c => !writeOfKtu c
  | .timeBaseHold c _ => !writeOfKtu c
  | .timeBaseEnable c _ => !writeOfKtu c
  | .tickSrcWrite t => !sourceOfKtu t
  | _ => false

end Sys2Proof.Machine
end

