-- ==== Sys2Proof/Certificates/Slice0/Obligations.lean ====
section
/-! DEFINITION. The statements for the provers. Most say, for each command of a family, what state it answers where its own effect
takes place, and what it leaves alone: `KtuDoes` and `NldDoes` have the next state as their conclusion, `Ktu.only` and
`Nld.only` name the parts that may change. -/

open Sys2Proof Sys2Proof.Machine

/-- A step runs the command at the front of the queue, on the state with the queue's rest; on an empty queue one clock edge passes (the
model's choice, log entry 3), which leaves the queue as it is. -/
def Obligations.StepRunsFront : Prop :=
  (∀ (s : State) (c : Instr) (rest : List Instr), s.pending = c :: rest → step s = exec c { s with pending := rest }) ∧
  (∀ s : State, s.pending = [] → step s = .next s.idle ∧ s.idle.pending = [] ∧ s.idle.free = s.free)

/-- The state after reset (R16, R679, R692): every register field at its reset value, nothing waiting, and both invariants. That both
resets are still asserted is the model's choice (log entry 1). -/
def Obligations.ResetState : Prop :=
  State.reset.pending = [] ∧ State.reset.awake ∧ State.reset.lockKnown ∧
  (∀ (f : Fld) (i : Nat), State.reset.ktu.get f i = f.reset i ∧ State.reset.nld.get f i = f.reset i) ∧
  State.reset.ktu.get KReg.TICK_PERIOD_period_us = 100 ∧ State.reset.ktu.get KReg.TBx_GAIN_kp = 0x4000 ∧
  State.reset.ktu.get KReg.TAIL_CTRL_enable = 1 ∧ State.reset.ktu.get KReg.PMUi_CTRL_owner 7 = 16 ∧
  State.reset.nld.get NReg.RST_CAUSE_por = 1 ∧ State.reset.nld.get NReg.PWR_LIMIT_power_limit_w = 520 ∧
  State.reset.ktu.pins.porLow = true ∧ State.reset.nld.pkg.porLow = true

/-- The KTU's reset and clock (R103, R104, R106, R130, R679): ktu_por_n asserted leaves every register at its reset value, with the
levels of the host's lines kept; deasserted, it captures the straps and loads the increment strap where it is not zero; a
clock that has not run 1,000 periods, or that stops, leaves the KTU undefined.

The levels of a host domain's lines (R108, R116, R117): a command that raises both lines of an enabled domain unmasks it, sets
an event bit for each line that changed, and forgets the occupancy samples of the domain; in ktu_por_n only the levels are kept. -/
def Obligations.KtuResetAndDomains : Prop :=
  (∀ s : State, KtuDoes .ktuPorAssert s fun k =>
    k.pins.porLow = true ∧ k.pins.clkStopped = false ∧ k.pins.ready = false ∧ k.pins.rstN = s.ktu.pins.rstN ∧
    k.pins.pgood = s.ktu.pins.pgood ∧ k.pins.units = [] ∧ (∀ (f : Fld) (i : Nat), k.get f i = f.reset i) ∧ k.remoteIdx = [] ∧
    k.latchL = [] ∧ k.latchR = [] ∧ k.time = {} ∧ k.cnt = {} ∧ k.tail = {} ∧ k.trace = {} ∧ k.halts = [] ∧ k.queues = [] ∧
    k.codec = {} ∧ k.fife = {} ∧ k.check = {} ∧ k.resetPending = 0) ∧
  (∀ (s : State) (st : Straps) (ran : Bool), s.ktu.pins.porLow = true →
    KtuDoes (.ktuPorDeassert st ran) s fun k =>
      k.pins.porLow = false ∧ k.pins.straps = st ∧ k.pins.clkStopped = (!ran) ∧ k.pins.ready = s.ktu.pins.ready ∧
      (st.leaf = true → k.fife.dn.state = .off) ∧ (st.leaf = false → k.fife = s.ktu.fife) ∧
      (∀ i < 2, st.tbIncr ≠ 0 → k.get KReg.TBx_INCR_INT_incr_int i = st.tbIncr.toNat / 2 ^ 32 ∧
        k.get KReg.TBx_INCR_FRAC_incr_frac i = st.tbIncr.toNat % 2 ^ 32) ∧
      (st.tbIncr = 0 → k.regs = s.ktu.regs) ∧
      Ktu.regsOnly [(KReg.TBx_INCR_INT_incr_int, 0), (KReg.TBx_INCR_INT_incr_int, 1), (KReg.TBx_INCR_FRAC_incr_frac, 0),
        (KReg.TBx_INCR_FRAC_incr_frac, 1)] s.ktu k ∧
      Ktu.only [.pins, .regs, .fife] s.ktu k) ∧
  (∀ s : State, s.ktu.runs → KtuDoes .ktuReady s fun k => k.pins.ready = true ∧ Ktu.only [.pins] s.ktu k) ∧
  (∀ s : State, s.ktu.pins.porLow = false →
    exec .ktuClockStop s = .next { s with ktu := { s.ktu with pins := { s.ktu.pins with clkStopped := true } } }) ∧
  (∀ (s : State) (d : Fin 4), s.ktu.runs → s.ktu.pins.straps.domEn.getLsbD d.val = true →
    KtuDoes (.hostDomainChange d true true) s fun k =>
      k.masked d = false ∧ (∀ e : Fin 4, e ≠ d → k.masked e = s.ktu.masked e) ∧
      k.pins.rstN = s.ktu.pins.rstN ||| BitVec.ofNat 4 (2 ^ d.val) ∧ k.pins.pgood = s.ktu.pins.pgood ||| BitVec.ofNat 4 (2 ^ d.val) ∧
      (s.ktu.pins.rstN.getLsbD d.val = false → bitOf (k.get KReg.HOSTDOM_rst_event) d.val = true) ∧
      (s.ktu.pins.pgood.getLsbD d.val = false → bitOf (k.get KReg.HOSTDOM_pg_event) d.val = true) ∧
      k.cnt.cnt = s.ktu.cnt.cnt ∧ k.tail = s.ktu.tail ∧ k.halts = s.ktu.halts ∧ k.check = s.ktu.check ∧ k.time = s.ktu.time) ∧
  (∀ (s : State) (d : Fin 4) (r p : Bool), s.ktu.pins.porLow = true → KtuDoes (.hostDomainChange d r p) s fun k =>
    k.pins.rstN.getLsbD d.val = r ∧ k.pins.pgood.getLsbD d.val = p ∧ k.regs = s.ktu.regs ∧ Ktu.only [.pins] s.ktu k)

/-- The sideband lines (R113, R114, R119, R121, R126, R135): a unit's presence, a wake request, an alarm line, the abort handshake
and the timestamp capture.

The timestamp capture (R126): a rising ts_cap of an unmasked domain takes both bases, its completion shows them in KTU_TSCAPd and
raises ts_val, or leaves it to one period where ts_cap has fallen; a falling ts_cap lowers ts_val. -/
def Obligations.SidebandLines : Prop :=
  (∀ (s : State) (u : Fin 2048), s.ktu.runs →
    KtuDoes (.unitStatUpdate u true) s fun k =>
      Tbl.get false u.val k.pins.units = true ∧ (∀ v, v ≠ u.val → Tbl.get false v k.pins.units = Tbl.get false v s.ktu.pins.units) ∧
      Ktu.only [.pins] s.ktu k) ∧
  (∀ (s : State) (u : Fin 2048), s.ktu.runs → bitOf (s.ktu.get KReg.TAIL_CTRL_arm) 2 = true →
    KtuDoes (.unitStatUpdate u false) s fun k =>
      Tbl.get false u.val k.pins.units = false ∧ (k.ring u.val).frozen = true ∧
      (∀ v, v ≠ u.val → k.ring v = s.ktu.ring v) ∧ Ktu.only [.pins, .tail] s.ktu k) ∧
  (∀ (s : State) (d : Fin 4), s.ktu.runs → s.ktu.pins.straps.domEn.getLsbD d.val = true →
    KtuDoes (.hostWakeReq d) s fun k =>
      bitOf (k.get KReg.HOSTDOM_wake_seen) d.val = true ∧ k.fife.up.lp = 0 ∧ k.fife.dn.lp = 0 ∧ k.fife.sleepPhase = 0 ∧
      Ktu.only [.regs] s.ktu k ∧ Ktu.regsOnly [(KReg.HOSTDOM_wake_seen, 0), (KReg.IRQ_PEND_pend, 0)] s.ktu k) ∧
  (∀ (s : State) (d : Fin 4) (code : BitVec 8), s.ktu.runs → s.ktu.pins.straps.domEn.getLsbD d.val = true →
    KtuDoes (.hostAlarm d code) s fun k =>
      k.fife.alarmCount = (s.ktu.fife.alarmCount + 1) % 65536 ∧
      (s.ktu.fife.addrValid = false → k.fife.heldAlarms = s.ktu.fife.heldAlarms ++
        [alarmPair 0 s.ktu.fife.addr (s.ktu.get KReg.FIFE_MEMBER_member) d.val code.toNat s.ktu.alarmArg]) ∧
      (s.ktu.fife.addrValid = true →
        alarmPair 0 s.ktu.fife.addr (s.ktu.get KReg.FIFE_MEMBER_member) d.val code.toNat s.ktu.alarmArg ∈ k.fife.up.alarms) ∧
      Ktu.only [.tail, .fife] s.ktu k) ∧
  (∀ s : State, s.ktu.runs → KtuDoes .abortAck s fun k =>
    k.pins.abort = false ∧ k.pins.abortPart = 0 ∧ k.pins.abortAck = true ∧ k.pins.abortHeld = s.ktu.pins.abortHeld ∧
    Ktu.only [.pins] s.ktu k) ∧
  (∀ s : State, s.ktu.runs → KtuDoes .abortAckFall s fun k =>
    k.pins.abortAck = false ∧ k.pins.abortHeld = 0 ∧
    k.pins.abort = (s.ktu.pins.abort || decide (s.ktu.pins.abortHeld ≠ 0)) ∧
    k.pins.abortPart = s.ktu.pins.abortPart ||| s.ktu.pins.abortHeld ∧ Ktu.only [.pins, .regs] s.ktu k ∧
    Ktu.regsOnly [(KReg.IRQ_PEND_pend, 0)] s.ktu k) ∧
  (∀ (s : State) (w : Writer), s.ktu.runs → s.ktu.pins.ready = true → ownerOf w = fleet →
    KtuDoes (.abortForceClear w) s fun k =>
      k.pins.abort = false ∧ k.pins.abortPart = 0 ∧ k.pins.abortHeld = s.ktu.pins.abortHeld ∧ k.regs = s.ktu.regs ∧
      Ktu.only [.pins, .rest] s.ktu k) ∧
  (∀ (s : State) (d : Fin 4), s.ktu.runs → s.ktu.masked d = false → s.ktu.pins.tsBusy.getLsbD d.val = false →
    KtuDoes (.tsCap d) s fun k =>
      Tbl.get 0 (2 * d.val) k.pins.tsLatch = s.ktu.time.a.ns ∧ Tbl.get 0 (2 * d.val + 1) k.pins.tsLatch = s.ktu.time.b.ns ∧
      k.pins.tsBusy.getLsbD d.val = true ∧ k.pins.tsCap.getLsbD d.val = true ∧ k.pins.tsVal = s.ktu.pins.tsVal ∧
      Ktu.only [.pins] s.ktu k) ∧
  (∀ (s : State) (d : Fin 4), s.ktu.runs → s.ktu.masked d = false → s.ktu.pins.tsBusy.getLsbD d.val = true →
    KtuDoes (.tsCap d) s fun k =>
      bitOf (k.get KReg.HOSTDOM_cap_overrun) d.val = true ∧ k.pins.tsLatch = s.ktu.pins.tsLatch ∧ Ktu.only [.regs] s.ktu k ∧
      Ktu.regsOnly [(KReg.HOSTDOM_cap_overrun, 0), (KReg.IRQ_PEND_pend, 0)] s.ktu k) ∧
  (∀ (s : State) (d : Fin 4), s.ktu.runs → s.ktu.pins.tsBusy.getLsbD d.val = true →
    KtuDoes (.tsCaptureComplete d) s fun k =>
      k.get KReg.TSCAPd_A_LO_ns d.val = Tbl.get 0 (2 * d.val) s.ktu.pins.tsLatch % 2 ^ 32 ∧
      k.get KReg.TSCAPd_A_HI_ns d.val = Tbl.get 0 (2 * d.val) s.ktu.pins.tsLatch / 2 ^ 32 % 2 ^ 32 ∧
      k.get KReg.TSCAPd_B_LO_ns d.val = Tbl.get 0 (2 * d.val + 1) s.ktu.pins.tsLatch % 2 ^ 32 ∧
      k.get KReg.TSCAPd_B_HI_ns d.val = Tbl.get 0 (2 * d.val + 1) s.ktu.pins.tsLatch / 2 ^ 32 % 2 ^ 32 ∧
      k.pins.tsBusy.getLsbD d.val = false ∧
      (s.ktu.pins.tsCap.getLsbD d.val = true → k.pins.tsVal.getLsbD d.val = true) ∧
      (s.ktu.pins.tsCap.getLsbD d.val = false → k.pins.tsVal = s.ktu.pins.tsVal) ∧ Ktu.only [.pins, .regs] s.ktu k) ∧
  (∀ (s : State) (d : Fin 4), s.ktu.runs → KtuDoes (.tsCapFall d) s fun k =>
    k.pins.tsCap.getLsbD d.val = false ∧ k.pins.tsVal.getLsbD d.val = false ∧
    (∀ e : Fin 4, e ≠ d → k.pins.tsVal.getLsbD e.val = s.ktu.pins.tsVal.getLsbD e.val) ∧ Ktu.only [.pins] s.ktu k)

/-- A KTU and the messages of time (R76 to R79, R81): a SYNC of a base's domain loads a base in Free with a valid delay and goes on
downstream with its residence added; a base's DELAY_REQ waits upstream and is remembered; a DELAY_REQ from downstream goes
on upstream; a DELAY_RESP is used by the KTU it names, the first delay sample loading the filter where it is exact. -/
def Obligations.KtuTimeMessages : Prop :=
  (∀ (s : State) (m : SyncMsg) (dt res : Nat), s.ktu.runs → s.ktu.get KReg.TBx_CTRL_domain 0 = m.domain.val →
    s.ktu.bit KReg.TBx_CTRL_enable 0 = true → s.ktu.bit KReg.TBx_CTRL_hold 0 = false → s.ktu.time.a.state = .free →
    s.ktu.time.a.main.delayValid = true → s.ktu.time.a.instants = [] →
    KtuDoes (.sync .ktu m dt res) s fun k =>
      k.time.a.state = .converging ∧ k.time.a.integ = 0 ∧
      k.time.a.value = fieldOf 96 ((m.t1.toNat + (m.corr + s.ktu.asym) + s.ktu.time.a.main.dFilt) * 65536) ∧
      (s.ktu.pins.straps.leaf = false → k.fife.dn.waits (.sync { m with corr := m.corr + s.ktu.asym + res })) ∧
      Ktu.only [.regs, .time] s.ktu k) ∧
  (∀ (s : State) (b : TbId) (dt : Nat), s.ktu.runs → s.ktu.bit KReg.TBx_CTRL_enable b.ix = true →
    s.ktu.get KReg.TIME_DREQ_interval_us ≠ 0 → s.ktu.fife.addrValid = true →
    KtuDoes (.delayReqSend b dt) s fun k =>
      (∃ m : DelayReqMsg, k.fife.up.waits (.delayReq m) ∧ m.domain.val = s.ktu.get KReg.TBx_CTRL_domain b.ix % 8 ∧
        m.seq.toNat = (s.ktu.tb b).main.nextSeq % 65536 ∧ m.addr = s.ktu.addr ∧ m.corr = -s.ktu.asym) ∧
      (k.tb b).main.reqs = (s.ktu.tb b).main.reqs ++
        [⟨(s.ktu.tb b).main.nextSeq, (s.ktu.tb b).reading + dt, (s.ktu.tb b).main.lastSync⟩] ∧
      (k.tb b).main.nextSeq = ((s.ktu.tb b).main.nextSeq + 1) % 65536 ∧ k.tb b.other = s.ktu.tb b.other ∧
      Ktu.only [.time] s.ktu k) ∧
  (∀ (s : State) (m : DelayReqMsg) (dt res : Nat), s.ktu.runs → s.ktu.pins.straps.leaf = false →
    KtuDoes (.delayReq .ktu m dt res) s fun k =>
      k.fife.up.waits (.delayReq { m with corr := m.corr + res - s.ktu.asym }) ∧ Ktu.only [] s.ktu k) ∧
  (∀ (s : State) (m : DelayRespMsg) (p : SyncSample) (t3 : Int), s.ktu.runs → s.ktu.fife.addrValid = true → m.addr = s.ktu.addr →
    s.ktu.get KReg.TBx_CTRL_domain 0 = m.domain.val →
    s.ktu.time.a.main.reqs = [{ seq := m.seq.toNat, t3 := t3, paired := some p }] → s.ktu.time.a.instants = [] →
    s.ktu.time.a.main.delayValid = false → (p.path + (m.t4.toNat - t3 - m.corr)) % 2 = 0 →
    KtuDoes (.delayResp .ktu m) s fun k =>
      2 * k.time.a.main.dFilt = p.path + (m.t4.toNat - t3 - m.corr) ∧ k.time.a.main.delayValid = true ∧ k.time.a.main.reqs = [] ∧
      Ktu.only [.time] s.ktu k) ∧
  (∀ (s : State) (m : DelayRespMsg), s.ktu.runs → ¬ (s.ktu.fife.addrValid = true ∧ m.addr = s.ktu.addr) →
    s.ktu.pins.straps.leaf = false →
    KtuDoes (.delayResp .ktu m) s fun k => k.fife.dn.waits (.delayResp m) ∧ Ktu.only [] s.ktu k)

/-- The timers and registers of a KTU's bases (R79, R82, R85, R91, R92): what each leaves in the base it acts on, with the other base
as it was. -/
def Obligations.KtuTimeControl : Prop :=
  (∀ (s : State) (b : TbId) (seq : BitVec 16), s.ktu.runs → KtuDoes (.delayReqTimeout (.ktu b) seq false) s fun k =>
    (k.tb b).main.reqs = (s.ktu.tb b).main.reqs.filter (fun r => r.seq ≠ seq.toNat) ∧ k.tb b.other = s.ktu.tb b.other ∧
    (k.tb b).state = (s.ktu.tb b).state ∧ (k.tb b).value = (s.ktu.tb b).value ∧ Ktu.only [.time] s.ktu k) ∧
  (∀ (s : State) (b : TbId), s.ktu.runs → KtuDoes (.delayValidExpiry (.ktu b) false) s fun k =>
    (k.tb b).main.delayValid = false ∧ (k.tb b).state = (s.ktu.tb b).state ∧ (k.tb b).value = (s.ktu.tb b).value ∧
    k.tb b.other = s.ktu.tb b.other ∧ Ktu.only [.time] s.ktu k) ∧
  (∀ (s : State) (b : TbId), s.ktu.runs → (s.ktu.tb b).state = .converging ∨ (s.ktu.tb b).state = .locked →
    KtuDoes (.holdoverTimeout (.ktu b)) s fun k =>
      (k.tb b).state = .holdover ∧ (k.tb b).adj = (s.ktu.tb b).adj ∧ (k.tb b).value = (s.ktu.tb b).value ∧
      k.get KReg.TBx_STATUS_holdover_entered b.ix % 2 = 1 ∧
      ((s.ktu.tb b).state = .locked → k.get KReg.TBx_STATUS_lock_lost b.ix % 2 = 1) ∧
      k.tb b.other = s.ktu.tb b.other ∧ Ktu.only [.regs, .time] s.ktu k) ∧
  (∀ s : State, s.ktu.runs → s.ktu.autoSource = true → s.ktu.bit KReg.TIME_SEL_revertive = true → s.ktu.source = .baseB →
    s.ktu.time.a.state = .locked → KtuDoes (.revertTimer none) s fun k =>
      k.source = .baseA ∧ k.time.reverting = true ∧ k.time.tickOffset = s.ktu.time.tickOffset - s.ktu.time.diff * 65536 ∧
      k.time.a = s.ktu.time.a ∧ k.time.b = s.ktu.time.b ∧
      k.get KReg.TIME_SW_switch_event % 2 = 1 ∧ Ktu.only [.regs, .time] s.ktu k) ∧
  (∀ (s : State) (w : Writer) (b : TbId), s.ktu.runs → s.ktu.pins.ready = true → ownerOf w = fleet →
    ((s.ktu.tb b).state = .locked ∨ (s.ktu.tb b).state = .converging → KtuDoes (.timeBaseHold (.ktu w b) true) s fun k =>
      k.get KReg.TBx_CTRL_hold b.ix = 1 ∧ (k.tb b).state = .holdover ∧ k.tb b.other = s.ktu.tb b.other) ∧
    KtuDoes (.timeBaseEnable (.ktu w b) false) s (fun k =>
      k.get KReg.TBx_CTRL_enable b.ix = 0 ∧ (k.tb b).state = .free ∧ (k.tb b).adj = 0 ∧ (k.tb b).pending = none ∧
      k.tb b.other = s.ktu.tb b.other) ∧
    KtuDoes (.stepApply (.ktu w b)) s (fun k =>
      (k.tb b).sched = some (s.ktu.stepAmt b, s.ktu.stepAt b) ∧ (k.tb b).value = (s.ktu.tb b).value ∧
      k.tb b.other = s.ktu.tb b.other ∧ k.regs = s.ktu.regs) ∧
    (∀ x, (s.ktu.tb b).pending = some x → KtuDoes (.stepAcceptPending (.ktu w b)) s fun k =>
      (k.tb b).sched = some (-x, s.ktu.stepAt b) ∧ (k.tb b).value = (s.ktu.tb b).value ∧
      k.tb b.other = s.ktu.tb b.other ∧ k.regs = s.ktu.regs) ∧
    KtuDoes (.tickSrcWrite (.ktu w 1)) s (fun k =>
      k.get KReg.TIME_SEL_tick_src = 1 ∧ k.source = .baseB ∧ k.time.a = s.ktu.time.a ∧ k.time.b = s.ktu.time.b ∧
      (s.ktu.source = .baseA → k.time.tickOffset = s.ktu.time.tickOffset + s.ktu.time.diff * 65536))) ∧
  (∀ (s : State) (b : TbId) (amt : Int) (t : Nat), s.ktu.runs → (s.ktu.tb b).sched = some (amt, t) → t ≤ (s.ktu.tb b).ns →
    KtuDoes (.stepAct (.ktu b)) s fun k =>
      (k.tb b).value = fieldOf 96 ((s.ktu.tb b).value + amt * 65536) ∧ (k.tb b).sched = none ∧ (k.tb b).pending = none ∧
      k.get KReg.TBx_STATUS_step_applied b.ix % 2 = 1 ∧ (k.tb b).state ≠ .refusing ∧ k.tb b.other = s.ktu.tb b.other ∧
      Ktu.only [.regs, .time] s.ktu k)

/-- Naloder's time messages (R75, R77, R89, R90, R99, R727): a master port sends SYNC and answers a DELAY_REQ of domain 0, whose report is
kept; a domain over Horn asks its source; a SYNC of a parent loads a domain in Free with a valid delay, and a parent's
DELAY_RESP loads the filter where it is the first.

IEEE 1588 on an Ethernet port (R93): a slave's port takes a one-step Sync of its master as a sample of its bound domain; a master's
port sends Sync and Announce at its intervals and counts its sequence numbers. -/
def Obligations.NldTimeMessages : Prop :=
  (∀ (s : State) (p : Fin 16), s.nld.runs → s.nld.isMaster (.nldFife p) = true →
    NldDoes (.syncSend (.nldFife p)) s fun n =>
      (∃ m : SyncMsg, (n.fife p.val).link.waits (.sync m) ∧ m.domain = 0 ∧ m.corr = 0 ∧
        m.seq.toNat = Tbl.get 0 p.val s.nld.group.syncSeq % 65536) ∧
      Tbl.get 0 p.val n.group.syncSeq = (Tbl.get 0 p.val s.nld.group.syncSeq + 1) % 65536 ∧
      Nld.only [.regs, .hwErr, .doms, .chains, .group] s.nld n) ∧
  (∀ (s : State) (p : Fin 8), s.nld.runs → s.nld.isMaster (.nldHorn p) = true →
    NldDoes (.syncSend (.nldHorn p)) s fun n =>
      (∃ m : SyncMsg, (n.horn p.val).link.waits (.sync m) ∧ m.domain = 0 ∧ m.corr = 0) ∧
      Tbl.get 0 (16 + p.val) n.group.syncSeq = (Tbl.get 0 (16 + p.val) s.nld.group.syncSeq + 1) % 65536 ∧
      Nld.only [.group] s.nld n) ∧
  (∀ (s : State) (p : Fin 8) (d : Fin 8) (m : SyncMsg) (dt res : Nat), s.nld.runs → (s.nld.codes d.val).1 = p.val + 1 →
    (∀ e : Fin 8, e ≠ d → (s.nld.codes e.val).1 ≠ p.val + 1 ∧ (s.nld.codes e.val).2 ≠ p.val + 1) →
    s.nld.bit NReg.TDd_CTRL_enable d.val = true → s.nld.bit NReg.TDd_CTRL_hold d.val = false →
    (s.nld.dom d.val).tb.state = .free → (s.nld.dom d.val).tb.main.delayValid = true → (s.nld.dom d.val).tb.instants = [] →
    (s.nld.dom d.val).shift = 0 →
    NldDoes (.sync (.horn p) m dt res) s fun n =>
      (n.dom d.val).tb.state = .converging ∧
      (n.dom d.val).tb.value = fieldOf 96 ((m.t1.toNat + (m.corr + s.nld.hornAsym p.val) + (s.nld.dom d.val).tb.main.dFilt) * 65536) ∧
      Nld.only [.regs, .hwErr, .doms] s.nld n) ∧
  (∀ (s : State) (d : Fin 8) (dt : Nat), s.nld.runs → 1 ≤ (s.nld.codes d.val).1 → (s.nld.codes d.val).1 ≤ 8 → (s.nld.codes d.val).2 = 0 →
    NldDoes (.domainDelayReqSend d dt) s fun n =>
      (∃ m : DelayReqMsg, (n.horn ((s.nld.codes d.val).1 - 1)).link.waits (.delayReq m) ∧ m.domain = 0 ∧
        m.seq.toNat = (s.nld.dom d.val).tb.main.nextSeq % 65536 ∧ m.corr = -s.nld.hornAsym ((s.nld.codes d.val).1 - 1)) ∧
      (n.dom d.val).tb.main.reqs = (s.nld.dom d.val).tb.main.reqs ++
        [⟨(s.nld.dom d.val).tb.main.nextSeq, (s.nld.dom d.val).tb.reading + dt, (s.nld.dom d.val).tb.main.lastSync⟩] ∧
      (∀ e, e ≠ d.val → n.dom e = s.nld.dom e) ∧ Nld.only [.doms, .group] s.nld n) ∧
  (∀ (s : State) (p : Fin 16) (m : DelayReqMsg) (dt res : Nat), s.nld.runs → m.domain = 0 → s.nld.isEzcia p.val = false →
    NldDoes (.delayReq (.fife p) m dt res) s fun n =>
      (n.fife p.val).link.waits (.delayResp
        ⟨0, m.seq, m.addr, BitVec.ofNat 80 (fieldOf 80 ((s.nld.dom 0).tb.reading + dt)), m.corr⟩) ∧
      Tbl.get ({} : KtuTime) (addrPos m.addr.toNat) n.ktuTimes = ⟨m.stateA.toNat, m.stateB.toNat, m.offset⟩ ∧
      Nld.only [.ktuTimes, .chains] s.nld n) ∧
  (∀ (s : State) (p : Fin 8) (d : Fin 8) (m : DelayRespMsg) (x : SyncSample) (t3 : Int), s.nld.runs → m.addr.toNat = s.nld.ownAddr →
    (s.nld.codes d.val).1 = p.val + 1 → (s.nld.dom d.val).tb.main.reqs = [{ seq := m.seq.toNat, t3 := t3, paired := some x }] →
    (s.nld.dom d.val).tb.instants = [] → (s.nld.dom d.val).tb.main.delayValid = false →
    (x.path + (m.t4.toNat - t3 - m.corr)) % 2 = 0 →
    NldDoes (.delayResp (.horn p) m) s fun n =>
      2 * (n.dom d.val).tb.main.dFilt = x.path + (m.t4.toNat - t3 - m.corr) ∧ (n.dom d.val).tb.main.delayValid = true ∧
      (n.dom d.val).tb.main.reqs = [] ∧ Nld.only [.doms] s.nld n) ∧
  (∀ (s : State) (e : Fin 2) (h : PtpHdr) (t dt : Nat), s.nld.runs → s.nld.ptpOn e.val = true →
    h.domain.toNat = s.nld.get NReg.PTP_CFGe_domain_number e.val → h.transport.val = s.nld.get NReg.PTP_CFGe_transport e.val →
    s.nld.bit NReg.PTP_CFGe_master e.val = false → s.nld.fromMaster e.val h = true →
    (s.nld.codes (s.nld.ptpDomain e.val)).1 = ptpCode e.val → s.nld.bit NReg.TDd_CTRL_enable (s.nld.ptpDomain e.val) = true →
    s.nld.bit NReg.TDd_CTRL_hold (s.nld.ptpDomain e.val) = false →
    (s.nld.dom (s.nld.ptpDomain e.val)).tb.state = .free → (s.nld.dom (s.nld.ptpDomain e.val)).tb.main.delayValid = true →
    (s.nld.dom (s.nld.ptpDomain e.val)).tb.instants = [] → (s.nld.dom (s.nld.ptpDomain e.val)).shift = 0 →
    NldDoes (.ptpMessage e h (.sync false t) dt) s fun n =>
      (n.dom (s.nld.ptpDomain e.val)).tb.state = .converging ∧
      (n.dom (s.nld.ptpDomain e.val)).tb.value =
        fieldOf 96 (((t * 65536 : Nat) + h.corr + (s.nld.dom (s.nld.ptpDomain e.val)).tb.main.dFilt) * 65536) ∧
      Nld.only [.regs, .hwErr, .doms] s.nld n) ∧
  (∀ (s : State) (e : Fin 2) (dt : Nat), s.nld.runs → s.nld.ptpOn e.val = true → s.nld.bit NReg.PTP_CFGe_master e.val = true →
    NldDoes (.ptpTransmit e .sync dt) s (fun n =>
      (n.ptpPort e.val).syncSeq = ((s.nld.ptpPort e.val).syncSeq + 1) % 65536 ∧
      (n.ptpPort e.val).announceSeq = (s.nld.ptpPort e.val).announceSeq ∧
      (∃ b, Nld.emits s.nld n (.ether e.val b)) ∧ Nld.only [.ptp] s.nld n) ∧
    NldDoes (.ptpTransmit e .announce dt) s (fun n =>
      (n.ptpPort e.val).announceSeq = ((s.nld.ptpPort e.val).announceSeq + 1) % 65536 ∧
      (n.ptpPort e.val).syncSeq = (s.nld.ptpPort e.val).syncSeq ∧
      (∃ b, Nld.emits s.nld n (.ether e.val b)) ∧ Nld.only [.ptp] s.nld n))

/-- The timers and registers of Naloder's domains (R79, R82, R85, R92, R99, R100): what each leaves in its domain, with the other
domains as they were. -/
def Obligations.NldTimeControl : Prop :=
  (∀ (s : State) (d : Fin 8) (seq : BitVec 16), s.nld.runs → NldDoes (.delayReqTimeout (.nld d) seq true) s fun n =>
    (n.dom d.val).tb.second.reqs = (s.nld.dom d.val).tb.second.reqs.filter (fun r => r.seq ≠ seq.toNat) ∧
    (n.dom d.val).tb.main = (s.nld.dom d.val).tb.main ∧ (n.dom d.val).tb.value = (s.nld.dom d.val).tb.value ∧
    (∀ e, e ≠ d.val → n.dom e = s.nld.dom e) ∧ Nld.only [.doms] s.nld n) ∧
  (∀ (s : State) (d : Fin 8) (snd : Bool), s.nld.runs → NldDoes (.delayValidExpiry (.nld d) snd) s fun n =>
    (if snd then (n.dom d.val).tb.second.delayValid = false else (n.dom d.val).tb.main.delayValid = false) ∧
    (n.dom d.val).tb.state = (s.nld.dom d.val).tb.state ∧ (∀ e, e ≠ d.val → n.dom e = s.nld.dom e) ∧ Nld.only [.doms] s.nld n) ∧
  (∀ (s : State) (d : Fin 8), s.nld.runs → (s.nld.dom d.val).tb.state = .converging →
    NldDoes (.holdoverTimeout (.nld d)) s fun n =>
      (n.dom d.val).tb.state = .holdover ∧ (n.dom d.val).tb.adj = (s.nld.dom d.val).tb.adj ∧
      (n.dom d.val).tb.value = (s.nld.dom d.val).tb.value ∧ (∀ e, e ≠ d.val → n.dom e = s.nld.dom e) ∧
      Nld.only [.regs, .hwErr, .doms] s.nld n) ∧
  (∀ (s : State) (d : Fin 8), s.nld.runs → (s.nld.dom d.val).onSecond = true → s.nld.bit NReg.TDd_SRC_revertive d.val = true →
    (s.nld.dom d.val).tb.second.delayValid = true →
    NldDoes (.revertTimer (some d)) s fun n =>
      (n.dom d.val).onSecond = false ∧ (n.dom d.val).reverting = true ∧
      (n.dom d.val).shift = (s.nld.dom d.val).shift - (s.nld.dom d.val).diff * 65536 ∧
      (n.dom d.val).tb.value = (s.nld.dom d.val).tb.value ∧ (n.dom d.val).tb.main = (s.nld.dom d.val).tb.second ∧
      (n.dom d.val).tb.second = (s.nld.dom d.val).tb.main ∧
      n.get NReg.TDd_SRCSTAT_current d.val = s.nld.get NReg.TDd_SRC_primary d.val % 16 ∧
      (∀ e, e ≠ d.val → n.dom e = s.nld.dom e) ∧ Nld.only [.regs, .hwErr, .doms] s.nld n) ∧
  (∀ (s : State) (d : Fin 8), s.nld.writable →
    ((s.nld.dom d.val).tb.state = .converging → NldDoes (.timeBaseHold (.nld d) true) s fun n =>
      n.get NReg.TDd_CTRL_hold d.val = 1 ∧ (n.dom d.val).tb.state = .holdover ∧ Nld.only [.regs, .hwErr, .doms] s.nld n) ∧
    NldDoes (.timeBaseEnable (.nld d) false) s (fun n =>
      n.get NReg.TDd_CTRL_enable d.val = 0 ∧ (n.dom d.val).tb.state = .free ∧ Nld.only [.regs, .hwErr, .doms] s.nld n) ∧
    NldDoes (.stepApply (.nld d)) s (fun n =>
      (n.dom d.val).tb.sched = some (s.nld.stepRegs d.val) ∧ (n.dom d.val).tb.value = (s.nld.dom d.val).tb.value ∧
      Nld.only [.doms] s.nld n) ∧
    (∀ x, (s.nld.dom d.val).tb.pending = some x → NldDoes (.stepAcceptPending (.nld d)) s fun n =>
      (n.dom d.val).tb.sched = some (-x, (s.nld.stepRegs d.val).2) ∧ (n.dom d.val).tb.value = (s.nld.dom d.val).tb.value ∧
      Nld.only [.doms] s.nld n)) ∧
  (∀ (s : State) (d : Fin 8) (amt : Int) (t : Nat), s.nld.runs → (s.nld.dom d.val).tb.sched = some (amt, t) →
    t ≤ (s.nld.dom d.val).tb.ns → (s.nld.dom d.val).tb.state ≠ .locked → NldDoes (.stepAct (.nld d)) s fun n =>
      (n.dom d.val).tb.value = fieldOf 96 ((s.nld.dom d.val).tb.value + amt * 65536) ∧ (n.dom d.val).tb.sched = none ∧
      (n.dom d.val).tb.pending = none ∧ (n.dom d.val).tb.state ≠ .refusing ∧ (∀ e, e ≠ d.val → n.dom e = s.nld.dom e) ∧
      Nld.only [.regs, .hwErr, .doms] s.nld n) ∧
  (∀ (s : State) (d : Fin 8) (w : BitVec 12), s.nld.writable →
    (s.nld.bit NReg.TICK_CTRL_run = true → NldDoes (.tickSrcWrite (.nld d w)) s fun n =>
      n.doms = s.nld.doms ∧ n.get NReg.TDd_SRC_primary d.val = s.nld.get NReg.TDd_SRC_primary d.val ∧
      Nld.only [.regs, .hwErr] s.nld n) ∧
    (s.nld.bit NReg.TICK_CTRL_run = false → NldDoes (.tickSrcWrite (.nld d w)) s fun n =>
      n.get NReg.TDd_SRC_primary d.val = w.toNat % 16 ∧ n.get NReg.TDd_SRC_secondary d.val = w.toNat / 16 % 16 ∧
      n.get NReg.TDd_SRCSTAT_current d.val = w.toNat % 16 ∧ (n.dom d.val).onSecond = false ∧
      (n.dom d.val).tb.value = (s.nld.dom d.val).tb.value ∧ (∀ e, e ≠ d.val → n.dom e = s.nld.dom e) ∧
      Nld.only [.regs, .hwErr, .doms] s.nld n))

/-- The Tail rings (R169, R170, R171, R172, R173, R175, R202): an event of an unmasked domain's unit waits in its domain's queue and
is written, oldest first, to the ring it names; KTU_TAIL_CMD freezes with cause 6 where that is armed, releases and clears
exactly the named rings of the writer's blocks. -/
def Obligations.TailRings : Prop :=
  (∀ (s : State) (d : Fin 4) (w : BitVec 64), s.ktu.runs → s.ktu.masked d = false → s.ktu.bit KReg.TAIL_CTRL_enable = true →
    w.toNat / 2 ^ 53 / 512 = d.val → w.toNat / 2 ^ 32 % 256 ≠ 0 → s.ktu.unitPresent (w.toNat / 2 ^ 53) = true →
    ((s.ktu.tailQueue d.val).length < 8 → KtuDoes (.tailEvent d w 0) s fun k =>
      k.tailQueue d.val = s.ktu.tailQueue d.val ++ [(s.ktu.sampledNs, w.toNat)] ∧
      (∀ e, e ≠ d.val → k.tailQueue e = s.ktu.tailQueue e) ∧ k.tail.rings = s.ktu.tail.rings ∧ Ktu.only [.tail] s.ktu k) ∧
    (8 ≤ (s.ktu.tailQueue d.val).length → KtuDoes (.tailEvent d w 0) s fun k =>
      k.tail = s.ktu.tail ∧ k.get KReg.TAIL_LOSTd_lost d.val = min (s.ktu.get KReg.TAIL_LOSTd_lost d.val + 1) (2 ^ 32 - 1) ∧
      bitOf (k.get KReg.QOVR_LO_ovr) d.val = true ∧ Ktu.only [.regs] s.ktu k) ∧
    ((∀ e, s.ktu.tailQueue e = []) → (s.ktu.ring (w.toNat / 2 ^ 53)).frozen = false → w.toNat / 2 ^ 32 % 256 ≠ 0xFF →
      KtuDoes (.tailEvent d w 1) s fun k =>
        Tbl.get 0 (s.ktu.ring (w.toNat / 2 ^ 53)).next (k.ring (w.toNat / 2 ^ 53)).recs = ((if (s.ktu.ring (w.toNat / 2 ^ 53)).count = 0 ∨
          s.ktu.sampledNs ≥ (s.ktu.ring (w.toNat / 2 ^ 53)).newestNs + 2 ^ 30 then 2 ^ 63 else 0) +
          s.ktu.sampledNs / 256 % 2 ^ 23 * 2 ^ 40 + w.toNat % 2 ^ 40) ∧
        (k.ring (w.toNat / 2 ^ 53)).next = ((s.ktu.ring (w.toNat / 2 ^ 53)).next + 1) % 32 ∧
        (k.ring (w.toNat / 2 ^ 53)).newestNs = s.ktu.sampledNs % 2 ^ 64 ∧
        (k.ring (w.toNat / 2 ^ 53)).count = min ((s.ktu.ring (w.toNat / 2 ^ 53)).count + 1) 32 ∧
        (∀ v, v ≠ w.toNat / 2 ^ 53 → k.ring v = s.ktu.ring v) ∧ (∀ e, k.tailQueue e = []) ∧ Ktu.only [.tail] s.ktu k) ∧
    ((∀ e, s.ktu.tailQueue e = []) → (s.ktu.ring (w.toNat / 2 ^ 53)).frozen = true → KtuDoes (.tailEvent d w 1) s fun k =>
      k.ring (w.toNat / 2 ^ 53) = { s.ktu.ring (w.toNat / 2 ^ 53) with
        lost := min ((s.ktu.ring (w.toNat / 2 ^ 53)).lost + 1) 0xFFFF } ∧
      (∀ v, v ≠ w.toNat / 2 ^ 53 → k.ring v = s.ktu.ring v) ∧ Ktu.only [.tail] s.ktu k)) ∧
  (∀ (s : State) (w : Writer) (first last : Fin 2048), s.ktu.runs → s.ktu.pins.ready = true →
    (bitOf (s.ktu.get KReg.TAIL_CTRL_arm) 5 = true → KtuDoes (.tailFreeze w first last) s fun k =>
      (∀ u, k.ring u = if u ∈ s.ktu.cmdUnits (ownerOf w) first.val last.val then (s.ktu.ring u).freeze 6 else s.ktu.ring u) ∧
      Ktu.only [.tail, .rest] s.ktu k) ∧
    KtuDoes (.tailRelease w first last) s (fun k =>
      (∀ u, k.ring u = if u ∈ s.ktu.cmdUnits (ownerOf w) first.val last.val then
        { s.ktu.ring u with frozen := false, cause := 0, lost := 0 } else s.ktu.ring u) ∧ Ktu.only [.tail, .rest] s.ktu k) ∧
    KtuDoes (.tailClear w first last) s (fun k =>
      (∀ u, k.ring u = if u ∈ s.ktu.cmdUnits (ownerOf w) first.val last.val then
        { newestNs := (s.ktu.ring u).newestNs } else s.ktu.ring u) ∧ Ktu.only [.tail, .rest] s.ktu k))

/-- The trace funnel (R181, R183, R184, R185, R186): an enabled and powered source's record waits with its time or is dropped and
counted; the one source that offers a record below its threshold puts it into the funnel; a resync and a change of a
source's power queue a record ahead of the source's own. -/
def Obligations.TraceFunnel : Prop :=
  (∀ (s : State) (x : Fin 16) (v : BitVec 64) (p : Fin 4) (c : Bool), s.ktu.runs → s.ktu.srcEnabled x.val = true →
    s.ktu.pins.trcPgood.getLsbD x.val = true → s.ktu.srcUnmasked x.val = true →
    ((s.ktu.src x.val).queue.length < 8 → KtuDoes (.traceRecord x v p c) s fun k =>
      (k.src x.val).queue = (s.ktu.src x.val).queue ++ [⟨v, p, c, BitVec.ofNat 48 s.ktu.sampledNs⟩] ∧
      (c = true → (k.src x.val).lastCtx = v) ∧ (c = false → (k.src x.val).lastCtx = (s.ktu.src x.val).lastCtx) ∧
      (∀ y, y ≠ x.val → k.src y = s.ktu.src y) ∧ k.trace.funnel = s.ktu.trace.funnel ∧ Ktu.only [.trace] s.ktu k) ∧
    (8 ≤ (s.ktu.src x.val).queue.length → c = false → KtuDoes (.traceRecord x v p c) s fun k =>
      (k.src x.val).queue = (s.ktu.src x.val).queue ∧
      Tbl.get 0 p.val (k.src x.val).drops = min (Tbl.get 0 p.val (s.ktu.src x.val).drops + 1) 0xFFFF ∧
      ((s.ktu.src x.val).drops = [] → (k.src x.val).firstDrop = s.ktu.sampledNs) ∧
      bitOf (k.get KReg.QOVR_LO_ovr) (4 + x.val) = true ∧
      k.get KReg.TRC_DROPs_drops x.val = min (s.ktu.get KReg.TRC_DROPs_drops x.val + 1) (2 ^ 32 - 1) ∧
      Ktu.only [.regs, .trace] s.ktu k)) ∧
  (∀ (s : State) (x : Fin 16) (t : TraceItem) (l : List TraceItem), s.ktu.runs → s.ktu.bit KReg.TRC_CTRL_enable = true →
    s.ktu.trace.resyncDue = false → s.ktu.src x.val = { s.ktu.src x.val with queue := t :: l, gen := [], drops := [] } →
    s.ktu.srcUnmasked x.val = true → (∀ y : Fin 16, y ≠ x → (s.ktu.src y.val).queue = [] ∧ (s.ktu.src y.val).gen = []) →
    t.ctx = false → s.ktu.trace.funnel.length < s.ktu.funnelThr t.prio →
    KtuDoes .traceFunnelAdmit s fun k =>
      k.trace.funnel = s.ktu.trace.funnel ++ [⟨t.payload, x, t.prio, 0, BitVec.ofNat 5 (s.ktu.srcOwner x.val), t.time⟩] ∧
      (k.src x.val).queue = l ∧ (∀ y, y ≠ x.val → k.src y = s.ktu.src y) ∧ Ktu.only [.trace] s.ktu k) ∧
  (∀ s : State, s.ktu.runs → KtuDoes .traceResyncTimer s fun k =>
    (∀ y : Fin 16, (k.src y.val).gen = (s.ktu.src y.val).gen ++ (if s.ktu.srcEnabled y.val = true then
      [genRecord y.val 4 (s.ktu.srcOwner y.val) (s.ktu.src y.val).lastCtx.toNat s.ktu.tickNs] else [])) ∧
    (∀ y : Fin 16, (k.src y.val).queue = (s.ktu.src y.val).queue) ∧ k.trace.funnel = s.ktu.trace.funnel ∧
    Ktu.only [.trace] s.ktu k) ∧
  (∀ (s : State) (w : Writer), s.ktu.runs → s.ktu.pins.ready = true → ownerOf w = fleet → KtuDoes (.traceResyncCmd w) s fun k =>
    (∀ y : Fin 16, (k.src y.val).gen = (s.ktu.src y.val).gen ++ (if s.ktu.srcEnabled y.val = true then
      [genRecord y.val 4 (s.ktu.srcOwner y.val) (s.ktu.src y.val).lastCtx.toNat s.ktu.tickNs] else [])) ∧
    k.trace.funnel = s.ktu.trace.funnel ∧ Ktu.only [.trace, .rest] s.ktu k) ∧
  (∀ (s : State) (x : Fin 16) (v : Bool), s.ktu.runs → s.ktu.pins.trcPgood.getLsbD x.val ≠ v →
    KtuDoes (.trcSrcPgoodChange x v) s fun k =>
      k.pins.trcPgood.getLsbD x.val = v ∧ (∀ y : Fin 16, y ≠ x → k.pins.trcPgood.getLsbD y.val = s.ktu.pins.trcPgood.getLsbD y.val) ∧
      (∃ p, (k.src x.val).gen = (s.ktu.src x.val).gen ++ [genRecord x.val 5 (s.ktu.srcOwner x.val) p s.ktu.tickNs] ∧
        p / 4 = 2 ∧ bitOf p 1 = v) ∧
      (∀ y, y ≠ x.val → k.src y = s.ktu.src y) ∧ Ktu.only [.pins, .trace] s.ktu k)

/-- R180, R189: uncorrectable errors of a Tail ring and of the funnel buffer: the ring's ue and ecc_ue are set, the damaged record
reads as zero, or the damaged header is an empty ring's; the funnel drops the record it hits and owes a resync.

Errors of a counter and of a queue (R162, R214, R217, R231): a counter and the bases it feeds read zero, its series are poisoned in
the next frame, and the first source is kept; a flush and a check reset leave a queue empty, and a check failure is
recorded and counted. -/
def Obligations.KtuMemoryErrors : Prop :=
  (∀ (s : State) (u : Fin 2048), s.ktu.runs →
    (∀ i : Fin 32, KtuDoes (.tailEccUe u (some i)) s fun k =>
      (k.ring u.val).ue = true ∧ Tbl.get 0 i.val (k.ring u.val).recs = 0 ∧
      (∀ j, j ≠ i.val → Tbl.get 0 j (k.ring u.val).recs = Tbl.get 0 j (s.ktu.ring u.val).recs) ∧
      (k.ring u.val).count = (s.ktu.ring u.val).count ∧ (k.ring u.val).next = (s.ktu.ring u.val).next ∧
      (∀ v, v ≠ u.val → k.ring v = s.ktu.ring v) ∧ k.get KReg.TAIL_STATUS_ecc_ue % 2 = 1 ∧
      Ktu.only [.regs, .tail] s.ktu k ∧ Ktu.regsOnly [(KReg.TAIL_STATUS_ecc_ue, 0), (KReg.IRQ_PEND_pend, 0)] s.ktu k) ∧
    KtuDoes (.tailEccUe u none) s (fun k =>
      (k.ring u.val).ue = true ∧ (k.ring u.val).count = 0 ∧ (k.ring u.val).records = [] ∧ (k.ring u.val).wrapped = false ∧
      (∀ v, v ≠ u.val → k.ring v = s.ktu.ring v) ∧ k.get KReg.TAIL_STATUS_ecc_ue % 2 = 1 ∧ Ktu.only [.regs, .tail] s.ktu k)) ∧
  (∀ (s : State) (i : Fin 4096), s.ktu.runs → KtuDoes (.funnelEccUe i) s fun k =>
    k.trace.funnel = s.ktu.trace.funnel.eraseIdx i.val ∧ k.get KReg.TRC_STATUS_ecc_ue % 2 = 1 ∧
    k.get KReg.TRC_STATUS_ctx_lost % 2 = 1 ∧ k.trace.resyncDue = true ∧ k.trace.srcs = s.ktu.trace.srcs ∧
    Ktu.only [.regs, .trace] s.ktu k ∧
    Ktu.regsOnly [(KReg.TRC_STATUS_ecc_ue, 0), (KReg.TRC_STATUS_ctx_lost, 0), (KReg.IRQ_PEND_pend, 0)] s.ktu k) ∧
  (∀ (s : State) (c : CounterRef), s.ktu.runs → KtuDoes (.counterEccUe c) s fun k =>
    k.cntOf (counterId c) = 0 ∧ (∀ i, i ≠ counterId c → k.cntOf i = s.ktu.cntOf i) ∧
    (∀ x ∈ s.ktu.seriesOf (counterId c), Tbl.get 0 x k.cnt.base = 0 ∧ x ∈ k.cnt.poisoned) ∧
    k.get KReg.CNT_STATUS_ecc_ue % 2 = 1 ∧
    (s.ktu.bit KReg.CNT_STATUS_ecc_ue = false →
      (k.get KReg.CNT_ERRSRC_class, k.get KReg.CNT_ERRSRC_source) = counterSource (counterId c)) ∧
    (s.ktu.bit KReg.CNT_STATUS_ecc_ue = true → k.get KReg.CNT_ERRSRC_class = s.ktu.get KReg.CNT_ERRSRC_class ∧
      k.get KReg.CNT_ERRSRC_source = s.ktu.get KReg.CNT_ERRSRC_source) ∧
    Ktu.only [.regs, .counters] s.ktu k) ∧
  (∀ (s : State) (w : Writer) (id : Fin 64), s.ktu.runs → s.ktu.pins.ready = true → ownerOf w = fleet →
    queueNamed id.val = true → ¬ (22 ≤ id.val ∧ id.val ≤ 29) → id.val ≠ 42 → KtuDoes (.queueFlush w id) s fun k =>
      k.queueLen id.val = 0 ∧ k.pins.units = s.ktu.pins.units ∧
      Ktu.only [.regs, .tail, .trace, .codec, .check, .rest] s.ktu k ∧
      Ktu.regsOnly [(KReg.TRC_STATUS_ctx_lost, 0), (KReg.IRQ_PEND_pend, 0)] s.ktu k) ∧
  (∀ (s : State) (id : Fin 64), s.ktu.runs → queueNamed id.val = true → ¬ (22 ≤ id.val ∧ id.val ≤ 29) → id.val ≠ 42 →
    KtuDoes (.queueCheckFailure (.ktu id)) s fun k =>
      k.queueLen id.val = 0 ∧ k.get KReg.Q_STATUS_chk_err % 2 = 1 ∧
      (s.ktu.bit KReg.Q_STATUS_chk_err = false → k.get KReg.Q_STATUS_chk_id = id.val) ∧
      (s.ktu.bit KReg.Q_STATUS_chk_err = true → k.get KReg.Q_STATUS_chk_id = s.ktu.get KReg.Q_STATUS_chk_id) ∧
      k.get KReg.Q_CHKCNT_count = min (s.ktu.get KReg.Q_CHKCNT_count + 1) KReg.Q_CHKCNT_count.max ∧
      Ktu.only [.regs, .tail, .trace, .queues, .codec, .check] s.ktu k)

/-- R193: before any tick since run last rose, a breakpoint computes no H: it halts its core locally, sends no ALARM and sets no_tick. -/
def Obligations.BreakpointBeforeTicks : Prop :=
  ∀ (s : State) (c : Fin 8), s.ktu.runs → s.ktu.masked s.ktu.pins.straps.dbgDom = false → c.val < s.ktu.pins.straps.nCores.val →
    s.ktu.bit KReg.HALT_COREc_bkpt_en c.val = true → s.ktu.bit KReg.HALT_COREc_halt_en c.val = true →
    (s.ktu.halt (s.ktu.get KReg.HALT_COREc_owner c.val)).state ∈ [HaltState.idle, .armed, .resuming] →
    s.ktu.time.lastFired = none →
    KtuDoes (.breakpoint c) s fun k =>
      k.get KReg.HALT_BKPT_no_tick % 2 = 1 ∧ bitOf (k.get KReg.HALT_BKPT_bkpt_seen) c.val = true ∧
      (k.halt (s.ktu.get KReg.HALT_COREc_owner c.val)).h = (s.ktu.halt (s.ktu.get KReg.HALT_COREc_owner c.val)).h ∧
      (k.halt (s.ktu.get KReg.HALT_COREc_owner c.val)).state = (s.ktu.halt (s.ktu.get KReg.HALT_COREc_owner c.val)).state ∧
      bitOf (k.halt (s.ktu.get KReg.HALT_COREc_owner c.val)).localCores c.val = true ∧
      (s.ktu.get KReg.HALT_COREc_owner c.val < 17 → bitOf k.haltReq c.val = true) ∧
      (∀ sc, sc ≠ s.ktu.get KReg.HALT_COREc_owner c.val → k.halt sc = s.ktu.halt sc) ∧
      k.fife.up.alarms = s.ktu.fife.up.alarms ∧ k.fife.dn.alarms = s.ktu.fife.dn.alarms ∧
      Ktu.only [.regs, .halts] s.ktu k ∧
      Ktu.regsOnly [(KReg.HALT_BKPT_no_tick, 0), (KReg.HALT_BKPT_bkpt_seen, 0), (KReg.IRQ_PEND_pend, 0)] s.ktu k

/-- The halt contexts (R192, R195, R198, R199, R302): a breakpoint or a halt request after tick n arms its scope for tick
n + max(lead, 2) and sends the halt ALARM; a halting scope whose cores have halted and whose domains have drained is
Halted, and says so with status 5; its timeout leaves it Incomplete with status 6; a resuming scope whose cores run,
or whose time is over, is Idle. -/
def Obligations.HaltContexts : Prop :=
  (∀ (s : State) (c : Fin 8) (n sc h : Nat), s.ktu.runs → s.ktu.masked s.ktu.pins.straps.dbgDom = false →
    c.val < s.ktu.pins.straps.nCores.val → s.ktu.bit KReg.HALT_COREc_bkpt_en c.val = true →
    s.ktu.bit KReg.HALT_COREc_halt_en c.val = true → sc = s.ktu.get KReg.HALT_COREc_owner c.val →
    (s.ktu.halt sc).state = .idle → s.ktu.time.lastFired = some n →
    h = n + max (s.ktu.get KReg.HALT_CFG_lead_ticks) 2 → h < 2 ^ 48 →
    KtuDoes (.breakpoint c) s fun k =>
      (k.halt sc).state = .armed ∧ (k.halt sc).h = h ∧ (k.halt sc).origin = s.ktu.fife.addr ∧ (k.halt sc).originCore = c.val ∧
      bitOf (k.halt sc).localCores c.val = true ∧ (∀ x, x ≠ sc → k.halt x = s.ktu.halt x) ∧
      (s.ktu.fife.addrValid = true → alarmPair 2 s.ktu.fife.addr (scopeOf sc) c.val 0 h ∈ k.fife.up.alarms) ∧
      bitOf (k.get KReg.HALT_BKPT_bkpt_seen) c.val = true ∧ Ktu.only [.regs, .halts, .fife] s.ktu k) ∧
  (∀ (s : State) (w : Writer) (n h : Nat), s.ktu.runs → s.ktu.pins.ready = true → s.ktu.takesPart (ownerOf w) = true →
    (s.ktu.halt (ownerOf w)).state = .idle → s.ktu.time.lastFired = some n →
    h = n + max (s.ktu.get KReg.HALT_CFG_lead_ticks) 2 → h < 2 ^ 48 →
    KtuDoes (.haltReq w) s fun k =>
      (k.halt (ownerOf w)).state = .armed ∧ (k.halt (ownerOf w)).h = h ∧ (k.halt (ownerOf w)).originCore = 0x1F ∧
      (∀ x, x ≠ ownerOf w → k.halt x = s.ktu.halt x) ∧
      (s.ktu.fife.addrValid = true → alarmPair 2 s.ktu.fife.addr (scopeOf (ownerOf w)) 0 0 h ∈ k.fife.up.alarms) ∧
      Ktu.only [.halts, .fife, .rest] s.ktu k) ∧
  (∀ (s : State) (sc : Fin 17) (hl : BitVec 8) (dr : BitVec 4), s.ktu.runs → (s.ktu.halt sc.val).state = .halting →
    ({ s.ktu with pins := { s.ktu.pins with dbgHalted := hl, engDrained := dr } } : Ktu).missingCores sc.val = 0 →
    ({ s.ktu with pins := { s.ktu.pins with dbgHalted := hl, engDrained := dr } } : Ktu).missingDomains sc.val = 0 →
    KtuDoes (.drainComplete hl dr) s fun k =>
      (k.halt sc.val).state = .halted ∧ (k.halt sc.val).h = (s.ktu.halt sc.val).h ∧ k.pins.dbgHalted = hl ∧ k.pins.engDrained = dr ∧
      k.fife.up.waits (.cmdAck ⟨s.ktu.addr, 0, 4, 5, false, BitVec.ofNat 64 (sc.val + (s.ktu.halt sc.val).h % 2 ^ 32 * 2 ^ 32)⟩) ∧
      Ktu.only [.pins, .halts] s.ktu k) ∧
  (∀ (s : State) (sc : Fin 17), s.ktu.runs →
    ((s.ktu.halt sc.val).state = .halting → KtuDoes (.haltTimeout sc) s fun k =>
      (k.halt sc.val).state = .incomplete ∧ (k.halt sc.val).h = (s.ktu.halt sc.val).h ∧
      (∃ d, k.fife.up.waits (.cmdAck ⟨s.ktu.addr, 0, 4, 6, false, d⟩)) ∧
      (∀ x, x ≠ sc.val → k.halt x = s.ktu.halt x) ∧ Ktu.only [.halts] s.ktu k) ∧
    ((s.ktu.halt sc.val).state = .resuming → (s.ktu.halt sc.val).held = none → KtuDoes (.haltTimeout sc) s fun k =>
      (k.halt sc.val).state = .idle ∧ k.get KReg.HALT_Sk_MISSING_resume_incomplete sc.val % 2 = 1 ∧
      (∀ x, x ≠ sc.val → k.halt x = s.ktu.halt x) ∧ Ktu.only [.regs, .halts] s.ktu k)) ∧
  (∀ (s : State) (sc : Fin 17) (hl : BitVec 8), s.ktu.runs → (s.ktu.halt sc.val).state = .resuming →
    (∀ x, (s.ktu.halt x).held = none) → (∀ c ∈ s.ktu.haltCores sc.val, hl.getLsbD c = false) →
    KtuDoes (.resumeComplete hl) s fun k =>
      (k.halt sc.val).state = .idle ∧ k.pins.dbgHalted = hl ∧
      (∀ x, (s.ktu.halt x).state ≠ .resuming → k.halt x = s.ktu.halt x) ∧ Ktu.only [.pins, .halts] s.ktu k)

/-- The counters (R137, R140, R142, R143, R161): an edge of an unmasked domain adds one to each of its always-on counters whose
line is high and to its cycle counter, modulo 2^48, and to the cycle counter of every enabled and granted PMU instance of the domain;
a masked domain's counters hold. -/
def Obligations.CountersCount : Prop :=
  (∀ (s : State) (d : Fin 4) (t : TapSample), s.ktu.runs → s.ktu.masked d = true →
    KtuDoes (.tapSample d t) s fun k => Ktu.only [] s.ktu k) ∧
  (∀ (s : State) (d : Fin 4) (t : TapSample), s.ktu.runs → s.ktu.masked d = false → KtuDoes (.tapSample d t) s fun k =>
    (∀ i < 15, k.cntOf (cntU (16 * d.val + i)) = if t.util.getLsbD i = true then (s.ktu.cntOf (cntU (16 * d.val + i)) + 1) % 2 ^ 48
      else s.ktu.cntOf (cntU (16 * d.val + i))) ∧
    (∀ i < 15, k.cntOf (cntE (16 * d.val + i)) = if t.err.getLsbD i = true then (s.ktu.cntOf (cntE (16 * d.val + i)) + 1) % 2 ^ 48
      else s.ktu.cntOf (cntE (16 * d.val + i))) ∧
    k.cntOf (cntU (16 * d.val + 15)) = (s.ktu.cntOf (cntU (16 * d.val + 15)) + 1) % 2 ^ 48 ∧
    (∀ i < 64, i / 16 ≠ d.val → k.cntOf (cntU i) = s.ktu.cntOf (cntU i) ∧ k.cntOf (cntE i) = s.ktu.cntOf (cntE i)) ∧
    (∀ i : Fin 256, s.ktu.bit KReg.PMUi_CTRL_enable i.val = true → s.ktu.get KReg.PMUi_CTRL_domain i.val = d.val →
      s.ktu.granted (s.ktu.get KReg.PMUi_CTRL_owner i.val) d.val = true →
      k.cntOf (cntPmu i.val 8) = (s.ktu.cntOf (cntPmu i.val 8) + 1) % 2 ^ 48) ∧
    (∀ i : Fin 256, s.ktu.bit KReg.PMUi_CTRL_enable i.val = false → ∀ c ≤ 8, k.cntOf (cntPmu i.val c) = s.ktu.cntOf (cntPmu i.val c)) ∧
    Ktu.only [.regs, .counters] s.ktu k)

/-- R160: a write of 1 to KTU_PMUi_CMD.clear stages a clear and changes nothing else; `Obligations.StagedChanges` says what the
boundary then does with it.

R150, R158, R160: at a boundary, a clear staged for a PMU instance that holds no remainder empties its counters and leaves the
always-on counters and the instances with nothing staged as they are. -/
def Obligations.StagedChanges : Prop :=
  (∀ (s : State) (w : Writer) (i : Fin 256), s.ktu.runs → s.ktu.pins.ready = true →
    (ownerOf w = fleet ∨ s.ktu.get KReg.PMUi_CTRL_owner i.val = ownerOf w) → KtuDoes (.pmuClear w i) s fun k =>
      i.val ∈ k.cnt.clears ∧ (∀ j, j ≠ i.val → (j ∈ k.cnt.clears ↔ j ∈ s.ktu.cnt.clears)) ∧ k.cnt.cnt = s.ktu.cnt.cnt ∧
      k.cnt.base = s.ktu.cnt.base ∧ k.cnt.staged = s.ktu.cnt.staged ∧ Ktu.only [.counters, .rest] s.ktu k) ∧
  (∀ s : State, s.ktu.runs → s.ktu.bit KReg.TICK_CTRL_run = true → (s.ktu.tb s.ktu.source).everLocked = true →
    s.ktu.time.crossed < s.ktu.boundary → s.ktu.codec.job = none → s.ktu.time.baselinePending = true → s.ktu.cnt.rem = [] →
    s.ktu.cnt.staged = [] → s.ktu.cnt.smapStaged = [] → s.ktu.cnt.slotClears = [] → KtuDoes .tickFire s fun k =>
      (∀ i < 256, i ∈ s.ktu.cnt.clears → (∀ c ≤ 8, k.cntOf (cntPmu i c) = 0) ∧ k.bit KReg.PMUi_STATUS_cfg_applied i = true ∧
        i ∉ k.cnt.clears ∧ i ∈ k.cnt.fresh) ∧
      (∀ i < 256, i ∉ s.ktu.cnt.clears → ∀ c ≤ 8, k.cntOf (cntPmu i c) = s.ktu.cntOf (cntPmu i c)) ∧
      (∀ i < 64, k.cntOf (cntU i) = s.ktu.cntOf (cntU i) ∧ k.cntOf (cntE i) = s.ktu.cntOf (cntE i)))

/-- The KTU's reset command, its interrupt registers and errors in its own state (R682, R684, R685, R687, R688). -/
def Obligations.KtuResetsAndErrors : Prop :=
  (∀ (s : State) (w : Writer), s.ktu.runs → s.ktu.pins.ready = true → ownerOf w = fleet →
    KtuDoes (.ktuResetCounters w) s (fun k =>
      k.cnt.clears = List.range 256 ∧ k.cnt.slotClears = List.range 32 ∧ k.cnt.cnt = s.ktu.cnt.cnt ∧
      k.resetPending = s.ktu.resetPending ||| 1 ∧ Ktu.only [.counters, .rest] s.ktu k) ∧
    KtuDoes (.ktuResetOwners w) s (fun k =>
      (∀ f ∈ ownerFields, ∀ i < f.count, k.staged? f i = some fleet ∧ k.get f i = s.ktu.get f i) ∧
      k.resetPending = s.ktu.resetPending ||| 2 ∧ Ktu.only [.counters, .rest] s.ktu k) ∧
    KtuDoes (.ktuResetTime w) s (fun k =>
      k.time.a.state = .free ∧ k.time.b.state = .free ∧ k.time.a.value = s.ktu.time.a.value ∧ k.time.b.value = s.ktu.time.b.value ∧
      (s.ktu.resetPending = 0 → k.get KReg.RESET_STATUS_done % 2 = 1) ∧ Ktu.only [.regs, .time, .rest] s.ktu k) ∧
    KtuDoes (.ktuResetFife w) s (fun k =>
      (s.ktu.fife.up.state ≠ .off → s.ktu.fife.up.state ≠ .down →
        k.fife.up.state = .reset ∧ k.fife.up.replay = [] ∧ k.fife.up.txSeq = 0 ∧ k.fife.mayForward = false) ∧
      (s.ktu.fife.dn.state ≠ .off → s.ktu.fife.dn.state ≠ .down →
        k.fife.dn.state = .reset ∧ k.fife.dn.replay = [] ∧ k.fife.dn.txSeq = 0) ∧
      Ktu.only [.regs, .fife, .rest] s.ktu k) ∧
    KtuDoes (.histRevalidate w) s (fun k =>
      k.get KReg.ERR_STATUS_hist_invalid = 0 ∧ Ktu.only [.regs, .rest] s.ktu k ∧
      Ktu.regsOnly [(KReg.ERR_STATUS_hist_invalid, 0)] s.ktu k)) ∧
  (∀ (s : State) (w : Writer) (v : Word), s.ktu.runs → s.ktu.pins.ready = true →
    (ownerOf w = fleet ∨ s.ktu.irqOwner (ownerOf w) = true) →
    KtuDoes (.ktuIrqPendWrite w true v) s (fun k =>
      k.get KReg.IRQ_EN_en = v.toNat % 2 ^ KReg.IRQ_EN_en.width ∧ Ktu.only [.regs, .rest] s.ktu k ∧
      Ktu.regsOnly [(KReg.IRQ_EN_en, 0)] s.ktu k) ∧
    KtuDoes (.ktuIrqPendWrite w false v) s (fun k =>
      (∀ j < KReg.IRQ_PEND_pend.width, bitOf (k.get KReg.IRQ_PEND_pend) j =
        (bitOf (s.ktu.get KReg.IRQ_PEND_pend) j && !bitOf v.toNat j)) ∧
      Ktu.only [.regs, .rest] s.ktu k ∧ Ktu.regsOnly [(KReg.IRQ_PEND_pend, 0)] s.ktu k)) ∧
  (∀ (s : State) (f : KtuFault), s.ktu.runs → KtuDoes (.ktuStateUe f) s fun k =>
    k.get (faultBit f) % 2 = 1 ∧ k.errHeld = true ∧
    (s.ktu.errHeld = false → k.get KReg.ERR_FIRST_code = faultCode f) ∧
    (s.ktu.errHeld = true → k.get KReg.ERR_FIRST_code = s.ktu.get KReg.ERR_FIRST_code) ∧
    k.fife.alarmCount = (s.ktu.fife.alarmCount + 1) % 65536 ∧
    (∀ b, f = .timeBase b → (k.tb b).state = .free ∧ k.tb b.other = s.ktu.tb b.other) ∧
    (f = .history → k.fife.history = [] ∧ k.get KReg.ERR_STATUS_hist_invalid = 1) ∧
    (f = .address → k.fife.addrValid = false ∧ k.fife.heldAlarms.length = s.ktu.fife.heldAlarms.length + 1) ∧
    (f = .upLink → s.ktu.fife.up.state = .active → k.fife.up.state = .reset) ∧
    (f = .dnLink → s.ktu.fife.dn.state = .active → k.fife.dn.state = .reset) ∧
    Ktu.only [.regs, .time, .fife, .rest] s.ktu k) ∧
  (∀ s : State, s.ktu.runs → KtuDoes (.correctableError none) s fun k =>
    k.get KReg.ERR_STATUS_ce_seen % 2 = 1 ∧
    k.get KReg.ERR_CECNT_count = min (s.ktu.get KReg.ERR_CECNT_count + 1) KReg.ERR_CECNT_count.max ∧
    Ktu.only [.regs] s.ktu k ∧
    Ktu.regsOnly [(KReg.ERR_STATUS_ce_seen, 0), (KReg.ERR_CECNT_count, 0), (KReg.IRQ_PEND_pend, 0)] s.ktu k)

/-- R301, R302, R687: a command that reaches a KTU a second time is answered with the stored status and the repeat flag and is not
executed again; one with cmd_id 0 is refused, one in an invalid history is answered busy and not stored, and one whose
scope does not name the KTU is not permitted.

What the CMDs do that a KTU executes (R85, R177, R195, R199, R246, R299, R302): the status each is answered with, and what it
leaves for later. -/
def Obligations.KtuCommands : Prop :=
  (∀ (s : State) (c : Instr) (h : CmdHdr) (op : Nat), s.ktu.runs → cmdOf c = some (h, op) →
    (∀ (id st : Nat), s.ktu.takes h → h.id ≠ 0 → s.ktu.bit KReg.ERR_STATUS_hist_invalid = false →
      s.ktu.fife.history.find? (fun e => e.1 = h.id.toNat) = some (id, st) → KtuDoes c s fun k =>
        k.fife.up.waits (ackOf s.ktu.addr h op st true) ∧
        k.get KReg.FIFE_CMDDUP_count = min (s.ktu.get KReg.FIFE_CMDDUP_count + 1) KReg.FIFE_CMDDUP_count.max ∧
        Ktu.only [.regs] s.ktu k ∧ Ktu.regsOnly [(KReg.FIFE_CMDDUP_count, 0)] s.ktu k) ∧
    (s.ktu.takes h → h.id = 0 → KtuDoes c s fun k =>
      k.fife.up.waits (ackOf s.ktu.addr h op 1 false) ∧ Ktu.only [] s.ktu k) ∧
    (s.ktu.takes h → h.id ≠ 0 → s.ktu.bit KReg.ERR_STATUS_hist_invalid = true → KtuDoes c s fun k =>
      k.fife.up.waits (ackOf s.ktu.addr h op 2 false) ∧ Ktu.only [] s.ktu k) ∧
    (h.route = 0 → s.ktu.isMe h.addr = true → s.ktu.inScope h = false → KtuDoes c s fun k =>
      k.fife.up.waits (ackOf s.ktu.addr h op 3 false) ∧ Ktu.only [] s.ktu k) ∧
    (h.route = 0 → s.ktu.isMe h.addr = false → s.ktu.pins.straps.leaf = false → KtuDoes c s fun k =>
      (∃ b, k.fife.dn.waits (.cmd h b)) ∧ Ktu.only [] s.ktu k)) ∧
  (∀ (s : State) (h : CmdHdr) (p : TableLoad), s.ktu.runs → s.ktu.executes h → h.issuer.toNat = fleet →
    2 ≤ p.table.toNat → p.table.toNat ≤ 15 → p.gen ≠ 0 → p.reserved = false → p.lens.length = 33 →
    tableValid (p.lens.map (·.toNat)) = true → KtuDoes (.tableLoad h p) s fun k =>
      Ktu.answered s.ktu k h 1 0 0 ∧
      Tbl.get ({} : CodeTable) p.table.toNat k.codec.stagedTables = ⟨p.gen.toNat, p.lens.map (·.toNat)⟩ ∧
      k.codec.tables = s.ktu.codec.tables ∧ Ktu.only [.codec, .fife] s.ktu k) ∧
  (∀ (s : State) (h : CmdHdr) (a b : BitVec 16) (fo rel : Bool), s.ktu.runs → s.ktu.executes h → a.toNat ≤ b.toNat →
    b.toNat < 2048 → (h.issuer.toNat = fleet ∨ ∀ u, a.toNat ≤ u → u ≤ b.toNat → s.ktu.tailOwner u = h.issuer.toNat) →
    s.ktu.tail.dumps.length < 4 → KtuDoes (.tailDump h a b fo rel false) s fun k =>
      Ktu.answered s.ktu k h 2 7 0 ∧ k.tail.dumps = s.ktu.tail.dumps ++ [⟨a.toNat, b.toNat, fo, rel, h.id.toNat⟩] ∧
      k.tail.rings = s.ktu.tail.rings ∧ Ktu.only [.tail, .fife] s.ktu k) ∧
  (∀ (s : State) (h : CmdHdr) (a b : BitVec 48), s.ktu.runs → s.ktu.executes h → h.issuer.toNat = fleet →
    KtuDoes (.resend h a b) s fun k =>
      Ktu.answered s.ktu k h 3 0 (s.ktu.codec.store.countP (fun f => decide (a.toNat ≤ f.tick) && decide (f.tick ≤ b.toNat)) % 65536) ∧
      k.codec.store = s.ktu.codec.store.map (fun f =>
        if decide (a.toNat ≤ f.tick) && decide (f.tick ≤ b.toNat) then { f with sent := false } else f) ∧
      Ktu.only [.codec, .fife] s.ktu k) ∧
  (∀ (s : State) (h : CmdHdr) (sc : BitVec 8) (t : BitVec 48) (n : Nat), s.ktu.runs → s.ktu.executes h → sc.toNat ≤ fleet →
    mayHalt h sc.toNat = true → (s.ktu.halt sc.toNat).state = .idle → s.ktu.time.lastFired = some n → n < t.toNat →
    (s.ktu.takesPart sc.toNat = true → KtuDoes (.halt h sc t) s fun k =>
      Ktu.answered s.ktu k h 4 7 0 ∧ (k.halt sc.toNat).state = .armed ∧ (k.halt sc.toNat).h = t.toNat ∧
      (∀ x, x ≠ sc.toNat → k.halt x = s.ktu.halt x) ∧ Ktu.only [.halts, .fife] s.ktu k) ∧
    (s.ktu.takesPart sc.toNat = false → KtuDoes (.halt h sc t) s fun k =>
      Ktu.answered s.ktu k h 4 0 0 ∧ Ktu.only [.fife] s.ktu k)) ∧
  (∀ (s : State) (h : CmdHdr) (sc : BitVec 8) (t : BitVec 48) (n : Nat), s.ktu.runs → s.ktu.executes h → sc.toNat ≤ fleet →
    mayHalt h sc.toNat = true → (s.ktu.halt sc.toNat).state = .halted → s.ktu.time.lastFired = some n → n < t.toNat →
    KtuDoes (.resume h sc t) s fun k =>
      Ktu.answered s.ktu k h 5 0 0 ∧ (k.halt sc.toNat).state = .halted ∧ (k.halt sc.toNat).resumeAt = some t.toNat ∧
      (∀ x, x ≠ sc.toNat → k.halt x = s.ktu.halt x) ∧ Ktu.only [.halts, .fife] s.ktu k) ∧
  (∀ (s : State) (h : CmdHdr) (b : BitVec 2) (amt : BitVec 48) (t : BitVec 64), s.ktu.runs → s.ktu.executes h → b ≠ 0 →
    KtuDoes (.timeStep h b false amt t) s fun k =>
      Ktu.answered s.ktu k h 6 0 0 ∧
      (b.getLsbD 0 = true → k.time.a.sched = some (signedOf 48 amt.toNat * 65536, t.toNat) ∧ k.time.a.value = s.ktu.time.a.value) ∧
      (b.getLsbD 1 = true → k.time.b.sched = some (signedOf 48 amt.toNat * 65536, t.toNat) ∧ k.time.b.value = s.ktu.time.b.value) ∧
      (b.getLsbD 0 = false → k.time.a = s.ktu.time.a) ∧ (b.getLsbD 1 = false → k.time.b = s.ktu.time.b) ∧
      Ktu.only [.time, .fife] s.ktu k) ∧
  (∀ (s : State) (h : CmdHdr) (v : BitVec 8), s.ktu.runs → s.ktu.executes h → h.issuer.toNat = fleet → v.toNat ≤ 2 →
    KtuDoes (.slotAssign h v) s fun k =>
      Ktu.answered s.ktu k h 9 0 0 ∧ k.staged? KReg.FIFE_ALLOW_slots 0 = some v.toNat ∧ k.regs = s.ktu.regs ∧
      Ktu.only [.counters, .fife] s.ktu k) ∧
  (∀ (s : State) (h : CmdHdr) (op : BitVec 8), s.ktu.runs → s.ktu.executes h → ¬ (1 ≤ op.toNat ∧ op.toNat ≤ 9) →
    KtuDoes (.unknownOpcode h op) s fun k => Ktu.answered s.ktu k h op.toNat 4 0 ∧ Ktu.only [.fife] s.ktu k) ∧
  (∀ (s : State) (h : CmdHdr) (p : TableLoad), s.ktu.runs → s.ktu.executes h → h.issuer.toNat ≠ fleet →
    KtuDoes (.tableLoad h p) s fun k => Ktu.answered s.ktu k h 1 3 0 ∧ Ktu.only [.fife] s.ktu k)

/-- Digest epochs and patterns (R534, R537, R538, R540, R548, R549, R550): the checks and status of the commands that open, abandon
and run them, what a line adds to an open epoch, what each response adds to a running pattern, and how a run ends. -/
def Obligations.DigestsAndPatterns : Prop :=
  (∀ (s : State) (h : CmdHdr) (p : DigestOpen), s.ktu.runs → s.ktu.executes h → p.region.toNat < 64 → p.reservedZero = true →
    (h.issuer.toNat = fleet ∨ h.issuer.toNat = s.ktu.get KReg.DIG_OWNr_owner p.region.toNat) →
    keysOk p.k0.toNat p.s0.toNat p.k1.toNat p.s1.toNat = true → (s.ktu.region p.region.toNat).lastEpoch < p.epoch.toNat →
    (s.ktu.region p.region.toNat).phase = 0 → s.ktu.nextTick < p.close.toNat → KtuDoes (.digestOpen h p) s fun k =>
      Ktu.answered s.ktu k h 8 7 0 ∧ (k.region p.region.toNat).phase = 1 ∧ (k.region p.region.toNat).epoch = p.epoch.toNat ∧
      (k.region p.region.toNat).close = p.close.toNat ∧ (k.region p.region.toNat).lastEpoch = (s.ktu.region p.region.toNat).lastEpoch ∧
      (∀ r, r ≠ p.region.toNat → k.region r = s.ktu.region r) ∧ Ktu.only [.check, .fife] s.ktu k) ∧
  (∀ (s : State) (h : CmdHdr) (r : BitVec 8), s.ktu.runs → s.ktu.executes h → r.toNat < 64 →
    (h.issuer.toNat = fleet ∨ h.issuer.toNat = s.ktu.get KReg.DIG_OWNr_owner r.toNat) → KtuDoes (.digestAbandon h r true) s fun k =>
      Ktu.answered s.ktu k h 8 0 0 ∧ (k.region r.toNat).phase = 0 ∧ (∀ x, x ≠ r.toNat → k.region x = s.ktu.region x) ∧
      Ktu.only [.check, .fife] s.ktu k) ∧
  (∀ (s : State) (tap : Fin 4) (r : BitVec 6) (o : BitVec 48) (d : BitVec 512), s.ktu.runs →
    s.ktu.masked s.ktu.pins.straps.digDom = false → bitOf (s.ktu.get KReg.DIG_CTRL_tap_en) tap.val = true →
    ((s.ktu.region r.toNat).phase = 2 → KtuDoes (.digestLine tap r o d) s fun k =>
      (k.region r.toNat).d0 = ((s.ktu.region r.toNat).d0 + laneAdd (s.ktu.region r.toNat).k0 (s.ktu.region r.toNat).s0 (lineChunks d o)) % digestP ∧
      (k.region r.toNat).d1 = ((s.ktu.region r.toNat).d1 + laneAdd (s.ktu.region r.toNat).k1 (s.ktu.region r.toNat).s1 (lineChunks d o)) % digestP ∧
      (k.region r.toNat).lines = ((s.ktu.region r.toNat).lines + 1) % 2 ^ 48 ∧
      (∀ x, x ≠ r.toNat → k.region x = s.ktu.region x) ∧ Ktu.only [.check] s.ktu k) ∧
    ((s.ktu.region r.toNat).phase ≠ 2 → KtuDoes (.digestLine tap r o d) s fun k =>
      k.get KReg.DIG_IDLE_lines = min (s.ktu.get KReg.DIG_IDLE_lines + 1) KReg.DIG_IDLE_lines.max ∧ Ktu.only [.regs] s.ktu k)) ∧
  (∀ (s : State) (r : Fin 64), s.ktu.runs → KtuDoes (.digestEccUe r) s fun k =>
    (k.region r.val).phase ≠ 2 ∧ k.get KReg.DIG_EVT_ecc_ue % 2 = 1 ∧ (∀ x, x ≠ r.val → k.region x = s.ktu.region x) ∧
    Ktu.only [.regs, .check] s.ktu k) ∧
  (∀ (s : State) (h : CmdHdr) (p : PatternRun), s.ktu.runs → s.ktu.executes h → h.issuer.toNat = fleet → s.ktu.runValid p = true →
    s.ktu.check.runs.length < 2 → KtuDoes (.patternRun h p) s fun k =>
      Ktu.answered s.ktu k h 7 7 0 ∧ k.check.runs = s.ktu.check.runs ++ [{ cmdId := h.id.toNat, run := p }] ∧
      Ktu.only [.check, .fife] s.ktu k) ∧
  (∀ (s : State) (x : PatRun) (v : BitVec 64), s.ktu.runs → s.ktu.masked s.ktu.pins.straps.patDom = false →
    s.ktu.check.runs = [x] → x.active = true →
    (v.getLsbD 63 = false → x.index + 1 < x.run.words.length → KtuDoes (.patternResponse v) s fun k =>
      (∃ y, k.check.runs = [y] ∧ y.index = x.index + 1 ∧ y.active = true ∧ y.run = x.run ∧
        y.d0 = (x.d0 + laneAdd x.run.k0.toNat x.run.s0.toNat
          (lineChunks (BitVec.ofNat 512 (v.toNat % 2 ^ 63)) (BitVec.ofNat 48 (64 * x.index)))) % digestP) ∧
      Ktu.only [.check] s.ktu k) ∧
    (v.getLsbD 63 = true → KtuDoes (.patternResponse v) s fun k =>
      k.check.runs = [] ∧ bitOf (k.get KReg.PAT_EVT_ended) 3 = true ∧
      (∃ m, k.fife.up.waits (.patternResult m) ∧ m.status = 3 ∧ m.digest = 0 ∧ m.cmdId = BitVec.ofNat 32 x.cmdId) ∧
      Ktu.only [.regs, .check] s.ktu k) ∧
    KtuDoes .patternWordTimeout s (fun k =>
      k.check.runs = [] ∧ bitOf (k.get KReg.PAT_EVT_ended) 3 = true ∧
      (∃ m, k.fife.up.waits (.patternResult m) ∧ m.status = 3 ∧ m.digest = 0 ∧ m.cmdId = BitVec.ofNat 32 x.cmdId) ∧
      Ktu.only [.regs, .check] s.ktu k))

/-- A KTU fires a tick (R21, R22, R155): with run = 1, a tick source that has been Locked and a boundary crossed, the highest
boundary is the tick fired, those passed over are counted, armed halts of that tick or an earlier one begin, and digest
epochs close and open; with run = 0 nothing happens. -/
def Obligations.TickFires : Prop :=
  (∀ s : State, s.ktu.runs → s.ktu.bit KReg.TICK_CTRL_run = false → KtuDoes .tickFire s fun k => Ktu.only [] s.ktu k) ∧
  (∀ s : State, s.ktu.runs → s.ktu.boundary ≤ s.ktu.time.crossed → KtuDoes .tickFire s fun k => Ktu.only [] s.ktu k) ∧
  (∀ s : State, s.ktu.runs → s.ktu.bit KReg.TICK_CTRL_run = true → (s.ktu.tb s.ktu.source).everLocked = true →
    s.ktu.time.crossed < s.ktu.boundary → KtuDoes .tickFire s fun k =>
      k.time.lastFired = some s.ktu.boundary ∧ k.time.crossed = s.ktu.boundary ∧ k.time.a = s.ktu.time.a ∧ k.time.b = s.ktu.time.b ∧
      k.get KReg.TICK_NUM_LO_tick_lo = s.ktu.boundary % 2 ^ 32 ∧ k.get KReg.TICK_NUM_HI_tick_hi = s.ktu.boundary / 2 ^ 32 % 2 ^ 16 ∧
      k.get KReg.TICK_SKIP_skipped =
        min (s.ktu.get KReg.TICK_SKIP_skipped + (s.ktu.boundary - s.ktu.time.crossed - 1)) KReg.TICK_SKIP_skipped.max ∧
      (∀ sc < 17, (s.ktu.halt sc).state = .armed → (s.ktu.halt sc).resumeAt = none → (s.ktu.halt sc).h ≤ s.ktu.boundary →
        (k.halt sc).state = .halting ∧ (k.halt sc).h = s.ktu.boundary) ∧
      (∀ sc < 17, (s.ktu.halt sc).state = .armed → (s.ktu.halt sc).resumeAt = none → s.ktu.boundary < (s.ktu.halt sc).h →
        k.halt sc = s.ktu.halt sc) ∧
      (∀ r < 64, (s.ktu.region r).phase = 2 → (s.ktu.region r).close ≤ s.ktu.boundary →
        (k.region r).phase = 0 ∧ k.fife.up.waits (.digest ⟨s.ktu.addr, BitVec.ofNat 6 r, BitVec.ofNat 32 (s.ktu.region r).epoch,
          BitVec.ofNat 48 s.ktu.boundary, BitVec.ofNat 48 (s.ktu.region r).lines,
          BitVec.ofNat 128 ((s.ktu.region r).d0 + (s.ktu.region r).d1 * 2 ^ 64)⟩)) ∧
      (∀ r < 64, (s.ktu.region r).phase = 1 →
        (k.region r).phase = 2 ∧ (k.region r).lastEpoch = (s.ktu.region r).epoch ∧ (k.region r).lines = 0))

/-- What a fired tick makes of the counters (R23, R24, R151, R154, R255): the first since run rose is a baseline and forms no frame;
a later one, with a place in the frame store and no link in L1, forms the frame of every count since the last snapshot.

The coder and the tick registers (R22, R24, R68, R235, R255, R256): the frame coded is one entry of the store with the next
sequence number; run rising forgets the last tick fired and asks for a baseline; the period takes only 100 to 10,000,
and only while run = 0. -/
def Obligations.TickFrames : Prop :=
  (∀ s : State, s.ktu.runs → s.ktu.bit KReg.TICK_CTRL_run = true → (s.ktu.tb s.ktu.source).everLocked = true →
    s.ktu.time.crossed < s.ktu.boundary → s.ktu.codec.job = none →
    (s.ktu.time.baselinePending = true → KtuDoes .tickFire s fun k =>
      k.codec.job = none ∧ k.codec.store = s.ktu.codec.store ∧ k.time.baselinePending = false ∧
      k.time.prevSnapshot = s.ktu.boundary) ∧
    (s.ktu.time.baselinePending = false → s.ktu.storeFull = false → s.ktu.fife.up.lp ≠ 2 → s.ktu.fife.sleepTick = 0 →
      KtuDoes .tickFire s fun k =>
        (∃ j, k.codec.job = some j ∧ j.tick = s.ktu.boundary ∧ j.span = s.ktu.boundary - s.ktu.time.prevSnapshot ∧
          j.period = s.ktu.get KReg.TICK_PERIOD_period_us ∧ j.deltas = s.ktu.formDeltas.2 ∧ j.partMask = s.ktu.partMask ∧
          j.schema = s.ktu.schemaWord) ∧
        k.time.prevSnapshot = s.ktu.boundary ∧ k.codec.store = s.ktu.codec.store) ∧
    (s.ktu.time.baselinePending = false → s.ktu.storeFull = true → s.ktu.fife.up.lp ≠ 2 → s.ktu.fife.sleepTick = 0 →
      KtuDoes .tickFire s fun k =>
        k.codec.job = none ∧ k.time.prevSnapshot = s.ktu.time.prevSnapshot ∧ k.cnt = s.ktu.cnt ∧
        k.get KReg.CODEC_HELD_held = min (s.ktu.get KReg.CODEC_HELD_held + 1) KReg.CODEC_HELD_held.max)) ∧
  (∀ (s : State) (ue : List (Fin 1024)), s.ktu.runs → s.ktu.codec.job = none → KtuDoes (.frameCoded ue) s fun k =>
    Ktu.only [] s.ktu k) ∧
  (∀ (s : State) (ue : List (Fin 1024)) (j : CodeJob), s.ktu.runs → s.ktu.codec.job = some j → KtuDoes (.frameCoded ue) s fun k =>
    k.codec.job = none ∧
    (∃ b, k.codec.store = s.ktu.codec.store ++ [{ tick := j.tick, ratio := j.ratio, bytes := b }] ∧
      fieldAt b 8 6 = j.tick % 2 ^ 48) ∧
    k.codec.seq = (s.ktu.codec.seq + 1) % 2 ^ 32 ∧ k.get KReg.FRAME_SEQ_seq = s.ktu.codec.seq % 2 ^ 32 ∧
    (ue ≠ [] → k.get KReg.CODEC_STATUS_ecc_ue % 2 = 1) ∧ k.codec.tables = s.ktu.codec.tables ∧
    Ktu.only [.regs, .codec] s.ktu k) ∧
  (∀ (s : State) (w : Writer), s.ktu.runs → s.ktu.pins.ready = true → ownerOf w = fleet →
    (s.ktu.bit KReg.TICK_CTRL_run = false → KtuDoes (.ktuTickRun w true) s fun k =>
      k.bit KReg.TICK_CTRL_run = true ∧ k.time.lastFired = none ∧ k.time.baselinePending = true ∧
      k.time.crossed = s.ktu.boundary ∧ k.time.a = s.ktu.time.a ∧ k.time.b = s.ktu.time.b ∧ Ktu.only [.regs, .time, .rest] s.ktu k ∧
      Ktu.regsOnly [(KReg.TICK_CTRL_run, 0)] s.ktu k) ∧
    KtuDoes (.ktuTickRun w false) s (fun k =>
      k.bit KReg.TICK_CTRL_run = false ∧ Ktu.only [.regs, .rest] s.ktu k ∧ Ktu.regsOnly [(KReg.TICK_CTRL_run, 0)] s.ktu k) ∧
    (∀ us : BitVec 16, s.ktu.bit KReg.TICK_CTRL_run = false → 100 ≤ us.toNat → us.toNat ≤ 10000 →
      KtuDoes (.ktuTickPeriodWrite w us) s fun k =>
        k.get KReg.TICK_PERIOD_period_us = us.toNat ∧ Ktu.only [.regs, .rest] s.ktu k ∧
        Ktu.regsOnly [(KReg.TICK_PERIOD_period_us, 0)] s.ktu k) ∧
    (∀ us : BitVec 16, us.toNat < 2 ^ 14 → (s.ktu.bit KReg.TICK_CTRL_run = true ∨ us.toNat < 100 ∨ 10000 < us.toNat) →
      KtuDoes (.ktuTickPeriodWrite w us) s fun k =>
        k.get KReg.TICK_PERIOD_period_us = s.ktu.get KReg.TICK_PERIOD_period_us ∧
        k.bit KReg.TICK_CTRL_period_wr_ignored = true ∧ Ktu.only [.regs, .rest] s.ktu k ∧
        Ktu.regsOnly [(KReg.TICK_CTRL_period_wr_ignored, 0), (KReg.IRQ_PEND_pend, 0)] s.ktu k))

/-- How a link end trains and recovers (R267, R270, R277, R278, R279), wherever it stands: Down, Training, Active, Retrain and Reset,
and what each step keeps of the link layer.

The flits of a link end (R271, R273, R275, R276, R282, R288), wherever it stands: what a good, a damaged and a stomped flit do, when a
replay starts and when it ends in Retrain, and what a data flit and a control flit take with them. -/
def Obligations.LinkLayer : Prop :=
  (∀ (s : State) (l : LinkId), s.runsAt l →
    (s.trains l → (endOf s l).state = .down → LinkDoes (.signalDetect l) s l fun e =>
      e.state = .training ∧ (endOf s l).sameLayer e) ∧
    ((endOf s l).state = .training → LinkDoes (.trainingTimeout l) s l fun e => e.state = .down ∧ (endOf s l).sameLayer e) ∧
    ((endOf s l).state = .reset → LinkDoes (.resetSlotEnd l) s l fun e => e.state = .training ∧ (endOf s l).sameLayer e) ∧
    ((endOf s l).state = .retrain → LinkDoes (.retrainTimeout l) s l fun e => e.state = .reset ∧ e.anew) ∧
    ((endOf s l).state = .active ∨ (endOf s l).state = .retry ∨ (endOf s l).state = .retrain →
      LinkDoes (.lossOfSignal l) s l fun e => e.state = .down ∧ e.anew) ∧
    ((endOf s l).carries = true →
      LinkDoes (.hiBer l) s l (fun e => e.state = .retrain ∧ (endOf s l).sameLayer e) ∧
      LinkDoes (.trainingPair l) s l (fun e => e.state = .retrain ∧ (endOf s l).sameLayer e)) ∧
    (∀ nxt : BitVec 8, (∀ p, l ≠ .nldHorn p) →
      ((endOf s l).state = .training → ∀ r, LinkDoes (.linkUp l nxt r) s l fun e =>
        e.state = .active ∧ (endOf s l).sameLayer e) ∧
      ((endOf s l).state = .retrain → LinkDoes (.linkUp l nxt false) s l fun e => e.state = .reset ∧ e.anew) ∧
      (∀ i, (endOf s l).state = .retrain → (endOf s l).replay.findIdx? (fun f => f.seq = nxt.toNat) = some i →
        LinkDoes (.linkUp l nxt true) s l fun e =>
          e.state = .active ∧ e.replay = (endOf s l).replay.drop i ∧ e.resend = (endOf s l).replay.drop i ∧
          e.txSeq = (endOf s l).txSeq ∧ e.rxExp = (endOf s l).rxExp))) ∧
  (∀ (s : State) (l : LinkId), s.runsAt l → (endOf s l).carries = true →
    (∀ (f : Flit) (m : Option Msg), f.crcOk = true → f.stomped = false → f.ftype = 0 → f.nak = false →
      seqPlace (kindOf l).modulus (endOf s l).rxExp f.seq.toNat = 0 → LinkDoes (.flitReceive l f m) s l fun e =>
        e.rxExp = ((endOf s l).rxExp + 1) % (kindOf l).modulus ∧ e.ackDue = true ∧ e.nakOut = false ∧
        Tbl.get 0 f.vc.val e.freed = Tbl.get 0 f.vc.val (endOf s l).freed + 1 ∧ e.txSeq = (endOf s l).txSeq) ∧
    (∀ (f : Flit) (m : Option Msg), f.crcOk = false → f.stomped = false → LinkDoes (.flitReceive l f m) s l fun e =>
      e.nakOut = true ∧ ((endOf s l).nakOut = false → e.nakDue = true) ∧ (endOf s l).sameLayer e) ∧
    (∀ (f : Flit) (m : Option Msg), f.stomped = true → (∀ p, l ≠ .nldHorn p) → LinkDoes (.flitReceive l f m) s l fun e =>
      e.rxExp = (endOf s l).rxExp ∧ e.nakOut = (endOf s l).nakOut ∧
      Tbl.get 0 f.vc.val e.freed = Tbl.get 0 f.vc.val (endOf s l).freed + 1) ∧
    (∀ (f : Flit) (m : Option Msg) (p : Fin 8), f.stomped = true → l = .nldHorn p → LinkDoes (.flitReceive l f m) s l fun e =>
      e.nakOut = true ∧ (endOf s l).sameLayer e) ∧
    ((endOf s l).replay ≠ [] → (endOf s l).episode = none → LinkDoes (.ackTimeout l) s l fun e =>
      e.state = .retry ∧ e.resend = (endOf s l).replay ∧ (endOf s l).sameLayer e) ∧
    (∀ q n, (endOf s l).replay ≠ [] → (endOf s l).episode = some (q, n) → LinkDoes (.ackTimeout l) s l fun e =>
      (if n ≥ 8 then e.state = .retrain else e.state = (endOf s l).state ∧ e.resend = (endOf s l).replay) ∧
      (endOf s l).sameLayer e) ∧
    ((endOf s l).nakOut = true → LinkDoes (.nakResendTimeout l) s l fun e => e.nakDue = true ∧ (endOf s l).sameLayer e) ∧
    ((endOf s l).state = .retry → (endOf s l).episode ≠ none → LinkDoes (.retryEpisodeTimeout l) s l fun e =>
      e.state = .retrain ∧ (endOf s l).sameLayer e) ∧
    LinkDoes (.controlFlitTimer l) s l (fun e => e.ackDue = false ∧ e.nakDue = false ∧ (endOf s l).sameLayer e) ∧
    (∀ dt x r, s.sendsOnly l → (endOf s l).resend = x :: r → LinkDoes (.flitTransmit l dt) s l fun e =>
      e.resend = r ∧ (endOf s l).sameLayer e) ∧
    (∀ dt r g m, s.sendsOnly l → (endOf s l).resend = [] → r < 9 → ((endOf s l).txq r).msgs = [(g, m)] →
      ((endOf s l).txq r).sent = 0 → (∀ x, x ≠ r → (endOf s l).txq x = {}) → (endOf s l).credit (kindOf l) (reqVc r) = true →
      (endOf s l).replay.length < (kindOf l).replayMax → (endOf s l).lp = 0 → LinkDoes (.flitTransmit l dt) s l fun e =>
        e.txSeq = ((endOf s l).txSeq + 1) % (kindOf l).modulus ∧ e.replay.length = (endOf s l).replay.length + 1 ∧
        Tbl.get 0 (reqVc r) e.used = Tbl.get 0 (reqVc r) (endOf s l).used + 1 ∧ e.rxExp = (endOf s l).rxExp))

/-- Power states of Fife links (R307, R308, R309, R311): a stay pair leaves its link in L0, lane 1 relocked leaves nothing to wait for;
an enter pair that answers the port's own puts the link into its state; and a KTU agrees to sleep, commits and cancels. -/
def Obligations.LinkPower : Prop :=
  (∀ (s : State) (l : LinkId), s.runsAt l → (∀ p, l ≠ .nldHorn p) →
    LinkDoes (.linkStatePair l 2) s l (fun e =>
      e.lp = 0 ∧ e.sentEnter = none ∧ e.gotEnter = none ∧ e.state = (endOf s l).state ∧ (endOf s l).sameLayer e) ∧
    ((endOf s l).lp = 0 → LinkDoes (.laneRelock l) s l fun e => e.relocking = false ∧ (endOf s l).sameLayer e)) ∧
  (∀ (s : State) (p : Fin 16) (c : Fin 3), s.runsAt (.nldFife p) → c ≠ 2 → (endOf s (.nldFife p)).state ≠ .retrain →
    ((endOf s (.nldFife p)).sentEnter = some c.val → LinkDoes (.linkStatePair (.nldFife p) c) s (.nldFife p) fun e =>
      e.lp = c.val + 1 ∧ e.sentEnter = none) ∧
    ((endOf s (.nldFife p)).sentEnter ≠ some c.val → LinkDoes (.linkStatePair (.nldFife p) c) s (.nldFife p) fun e =>
      e.lp = (endOf s (.nldFife p)).lp ∧ e.gotEnter = some c.val)) ∧
  (∀ s : State, s.ktu.runs → s.ktu.pins.straps.leaf = false → KtuDoes (.linkStatePair .ktuUp 2) s fun k =>
    k.fife.up.lp = 0 ∧ k.fife.dn.lp = 0 ∧ k.fife.dn.pairs = s.ktu.fife.dn.pairs ++ [2]) ∧
  (∀ (s : State) (tg : BitVec 8) (t : BitVec 48), s.ktu.runs →
    (s.ktu.wakeSources = 0 → KtuDoes (.sleepPropose 0 tg t) s fun k =>
      k.fife.sleepPhase = 1 ∧ k.fife.sleepTarget = tg.toNat ∧ k.fife.sleepTick = t.toNat ∧
      k.fife.up.waits (.sleepAgree s.ktu.addr false 0 t) ∧ Ktu.only [.fife] s.ktu k) ∧
    (s.ktu.wakeSources ≠ 0 → KtuDoes (.sleepPropose 0 tg t) s fun k =>
      k.fife.sleepPhase = 0 ∧ k.fife.up.waits (.sleepAgree s.ktu.addr true (BitVec.ofNat 8 s.ktu.wakeSources) t) ∧
      Ktu.only [.fife] s.ktu k) ∧
    (s.ktu.wakeSources = 0 → s.ktu.fife.sleepPhase = 1 → s.ktu.fife.sleepTick = t.toNat → KtuDoes (.sleepPropose 1 tg t) s fun k =>
      k.fife.sleepPhase = 2 ∧ Ktu.only [] s.ktu k) ∧
    KtuDoes (.sleepPropose 2 tg t) s (fun k => k.fife.sleepPhase = 0 ∧ k.fife.sleepTick = 0 ∧ Ktu.only [.fife] s.ktu k) ∧
    (s.ktu.pins.straps.leaf = false → KtuDoes (.sleepPropose 0 tg t) s fun k => k.fife.dn.waits (.sleepPropose 0 tg t)))

/-- The Fife control bits of a KTU and its enumeration (R279, R284, R291, R292, R306, R309, R313): Reset and Retrain of each link, a
wake, the downstream enable; and ENUM gives the address, is answered and goes on with the next address.

ALARM pairs at a KTU (R114, R284, R285): a damaged pair is recorded and goes no further, a repeated one is counted, and a new abort
that names partitions of the die raises ktu_abort and goes on, twice, out of the other port. -/
def Obligations.KtuFifeControl : Prop :=
  (∀ (s : State) (w : Writer), s.ktu.runs → s.ktu.pins.ready = true → ownerOf w = fleet →
    (s.ktu.fife.up.state ≠ .off → s.ktu.fife.up.state ≠ .down → KtuDoes (.fifeUpReset w) s fun k =>
      k.fife.up.state = .reset ∧ k.fife.up.anew ∧ k.fife.mayForward = false ∧ Ktu.only [.regs, .fife, .rest] s.ktu k) ∧
    (s.ktu.fife.up.carries = true → KtuDoes (.fifeUpRetrain w) s fun k =>
      k.fife.up.state = .retrain ∧ s.ktu.fife.up.sameLayer k.fife.up ∧ Ktu.only [.regs, .fife, .rest] s.ktu k) ∧
    (s.ktu.pins.straps.leaf = false → s.ktu.get KReg.FIFE_CTRL_dn_enable = 1 → s.ktu.fife.dn.carries = true →
      KtuDoes (.fifeDnReset w) s (fun k =>
        k.fife.dn.state = .reset ∧ k.fife.dn.anew ∧ Ktu.only [.regs, .fife, .rest] s.ktu k) ∧
      KtuDoes (.fifeDnRetrain w) s (fun k =>
        k.fife.dn.state = .retrain ∧ s.ktu.fife.dn.sameLayer k.fife.dn ∧ Ktu.only [.regs, .fife, .rest] s.ktu k)) ∧
    KtuDoes (.fifeWake w) s (fun k =>
      k.fife.up.lp = 0 ∧ k.fife.dn.lp = 0 ∧ k.fife.sleepPhase = 0 ∧
      (s.ktu.fife.up.lp ≠ 2 → s.ktu.fife.up.relocking = false → ∃ src t, k.fife.up.waits (.wake s.ktu.addr src t)) ∧
      Ktu.only [.regs, .fife, .rest] s.ktu k) ∧
    (s.ktu.pins.straps.leaf = false → KtuDoes (.fifeDnEnable w false) s fun k =>
      k.fife.dn.state = .off ∧ k.get KReg.FIFE_CTRL_dn_enable = 0 ∧ Ktu.only [.regs, .fife, .rest] s.ktu k) ∧
    (s.ktu.pins.straps.leaf = false → s.ktu.fife.dn.state = .off → KtuDoes (.fifeDnEnable w true) s fun k =>
      k.fife.dn.state = .down ∧ k.get KReg.FIFE_CTRL_dn_enable = 1 ∧ Ktu.only [.regs, .fife, .rest] s.ktu k)) ∧
  (∀ (s : State) (a : BitVec 20), s.ktu.runs → KtuDoes (.enum a) s fun k =>
    k.fife.addr = a.toNat ∧ k.fife.addrValid = true ∧ k.fife.mayForward = true ∧ k.fife.heldAlarms = [] ∧
    (∃ e, k.fife.up.waits (.enumResp e) ∧ e.addr = a ∧ e.uid = s.ktu.pins.straps.uid ∧ e.leaf = s.ktu.pins.straps.leaf) ∧
    (s.ktu.pins.straps.leaf = false → s.ktu.fife.dn.carries = true → addrN a.toNat ≠ 31 → k.fife.dn.waits (.enumReq (a + 1))) ∧
    (s.ktu.fife.addrEver = true → s.ktu.fife.addr ≠ a.toNat → k.codec.store = [] ∧
      k.get KReg.FIFE_EVT_addr_changed % 2 = 1) ∧
    (s.ktu.fife.addrEver = false → k.codec.store = s.ktu.codec.store.map (fun f => { f with sent := false })) ∧
    Ktu.only [.regs, .codec, .fife] s.ktu k) ∧
  (∀ (s : State) (p : BitVec 112), s.ktu.runs → (alarmFields p).crcOk = false → ∀ l : LinkId, linkOfKtu l = true →
    KtuDoes (.alarm l p) s fun k =>
      k.get KReg.FIFE_EVT_alarm_bad % 2 = 1 ∧ k.fife.up.alarms = s.ktu.fife.up.alarms ∧ k.fife.dn.alarms = s.ktu.fife.dn.alarms ∧
      Ktu.only [.regs] s.ktu k ∧ Ktu.regsOnly [(KReg.FIFE_EVT_alarm_bad, 0), (KReg.IRQ_PEND_pend, 0)] s.ktu k) ∧
  (∀ (s : State) (p : BitVec 112), s.ktu.runs → (alarmFields p).crcOk = true → (alarmFields p).kind < 4 →
    ((recentAlarms s.ktu.time.elapsed s.ktu.fife.seen).any (fun a => a.kind = (alarmFields p).kind ∧
      a.origin = (alarmFields p).origin ∧ a.scope = (alarmFields p).scope ∧ a.arg = (alarmFields p).arg) = true →
      ∀ l : LinkId, linkOfKtu l = true → KtuDoes (.alarm l p) s fun k =>
        k.get KReg.FIFE_ALARM_DUP_count = min (s.ktu.get KReg.FIFE_ALARM_DUP_count + 1) KReg.FIFE_ALARM_DUP_count.max ∧
        k.fife.up.alarms = s.ktu.fife.up.alarms ∧ k.fife.dn.alarms = s.ktu.fife.dn.alarms ∧ Ktu.only [.regs] s.ktu k) ∧
    ((recentAlarms s.ktu.time.elapsed s.ktu.fife.seen).any (fun a => a.kind = (alarmFields p).kind ∧
      a.origin = (alarmFields p).origin ∧ a.scope = (alarmFields p).scope ∧ a.arg = (alarmFields p).arg) = false →
      (alarmFields p).kind = 1 → s.ktu.pins.abortAck = false →
      BitVec.ofNat 17 ((alarmFields p).scope &&& s.ktu.get KReg.FIFE_MEMBER_member) ≠ 0 →
      (s.ktu.pins.straps.leaf = false → KtuDoes (.alarm .ktuUp p) s fun k =>
        k.pins.abort = true ∧ k.pins.abortPart = s.ktu.pins.abortPart |||
          BitVec.ofNat 17 ((alarmFields p).scope &&& s.ktu.get KReg.FIFE_MEMBER_member) ∧
        k.fife.dn.alarms = s.ktu.fife.dn.alarms ++ [p, p] ∧ k.fife.up.alarms = s.ktu.fife.up.alarms ∧
        Ktu.only [.pins, .regs, .fife] s.ktu k ∧ Ktu.regsOnly [(KReg.IRQ_PEND_pend, 0)] s.ktu k) ∧
      KtuDoes (.alarm .ktuDn p) s (fun k =>
        k.pins.abort = true ∧ k.fife.up.alarms = s.ktu.fife.up.alarms ++ [p, p] ∧ k.fife.dn.alarms = s.ktu.fife.dn.alarms ∧
        Ktu.only [.pins, .regs, .fife] s.ktu k)))

/-- The KTU's registers on its two paths (R14, R110, R156, R303, R674, R677, R681): a request names its tag and its KTU in the answer; the
scratch register takes a write under every owner; a read clears what it says it clears, and a _LO read latches its
partner; a write that only *fleet* may make is refused to another owner and changes nothing. -/
def Obligations.KtuRegisterAccess : Prop :=
  (∀ (s : State) (r : RegReq), s.ktu.runs → s.ktu.isMe r.addr = true → s.ktu.pins.ready = true →
    (regBad r = true → KtuDoes (.regRd r) s fun k => k.fife.up.waits (.regRdResp (regAnswer r 1)) ∧ Ktu.only [] s.ktu k) ∧
    (regBad r = true → KtuDoes (.regWr r) s fun k => k.fife.up.waits (.regWrResp (regAnswer r 1)) ∧ Ktu.only [] s.ktu k) ∧
    (regBad r = false → KtuDoes (.regRd r) s fun k =>
      (∃ ws m, k.fife.up.waits (.regRdResp { regAnswer r 0 with mask := m, words := ws }) ∧ ws.length = r.count.toNat)) ∧
    (r.offset = 0x408 → r.count = 1 → Tbl.find? (0x408 * 2 ^ 20) s.ktu.latchR = none → KtuDoes (.regRd r) s fun k =>
      k.fife.up.waits (.regRdResp { regAnswer r 0 with words := [BitVec.ofNat 32 (s.ktu.get KReg.SCRATCH_data)] }) ∧
      Ktu.only [] s.ktu k) ∧
    (∀ w, r.offset = 0x408 → r.count = 1 → r.words = [w] → KtuDoes (.regWr r) s fun k =>
      k.get KReg.SCRATCH_data = w.toNat ∧ k.fife.up.waits (.regWrResp (regAnswer r 0)) ∧ Ktu.only [.regs, .rest] s.ktu k ∧
      Ktu.regsOnly [(KReg.SCRATCH_data, 0)] s.ktu k)) ∧
  (∀ (s : State) (o : Fin 16), s.ktu.runs → s.ktu.pins.ready = true →
    (∀ v : Word, KtuDoes (.registerWrite (.ktu o 0x408 v)) s fun k =>
      k.get KReg.SCRATCH_data = v.toNat ∧ k.lastRead = some (0, false) ∧ Ktu.only [.regs, .rest] s.ktu k ∧
      Ktu.regsOnly [(KReg.SCRATCH_data, 0)] s.ktu k) ∧
    (∀ v : Word, v.toNat % 2 ^ 14 ≠ s.ktu.get KReg.TICK_PERIOD_period_us % 2 ^ 14 →
      KtuDoes (.registerWrite (.ktu o 0x1804 v)) s fun k =>
        k.lastRead = some (0, true) ∧
        k.get KReg.ERR_REGREF_local = min (s.ktu.get KReg.ERR_REGREF_local + 1) KReg.ERR_REGREF_local.max ∧
        Ktu.only [.regs, .rest] s.ktu k ∧ Ktu.regsOnly [(KReg.ERR_REGREF_local, 0)] s.ktu k) ∧
    (Tbl.find? (0x1810 * 2 ^ 20) s.ktu.latchL = none → KtuDoes (.readClear (.ktu o 0x1810)) s fun k =>
      k.lastRead = some (BitVec.ofNat 32 (s.ktu.get KReg.TICK_SKIP_skipped), false) ∧ k.get KReg.TICK_SKIP_skipped = 0 ∧
      Ktu.only [.regs, .rest] s.ktu k ∧ Ktu.regsOnly [(KReg.TICK_SKIP_skipped, 0)] s.ktu k) ∧
    (Tbl.find? (0x1808 * 2 ^ 20) s.ktu.latchL = none → KtuDoes (.loReadLatch (.ktu o 0x1808)) s fun k =>
      k.lastRead = some (BitVec.ofNat 32 (s.ktu.get KReg.TICK_NUM_LO_tick_lo), false) ∧
      Tbl.find? (0x180C * 2 ^ 20) k.latchL = some (s.ktu.get KReg.TICK_NUM_HI_tick_hi % 2 ^ 16) ∧
      Ktu.only [.latches, .rest] s.ktu k))

/-- Tick running and its set points at Naloder (R28, R55, R57, R61, R62, R63): run rises only with set points in range, windows that
fit and the compute die on; when it falls, no tick stays open; a set point is written only while run = 0.

Opening and sealing ticks at Naloder (R25, R27, R28, R39, R41, R42, R45, R337): a boundary opens the next tick, with the members
then as its expected set, unless four are open; each set point moves its tick on, no earlier than its time. -/
def Obligations.NldTicks : Prop :=
  (∀ s : State, s.nld.writable →
    (s.nld.bit NReg.TICK_CTRL_run = false → s.nld.setPointsOk = true → windowsOk s.nld.sched.windows s.nld.roundClocks = true →
      s.nld.bit NReg.BOOT_STATUS_compute_on = true → NldDoes (.nldTickRun true) s fun n =>
        n.bit NReg.TICK_CTRL_run = true ∧ n.tick.newest = none ∧ n.tick.ticks = s.nld.tick.ticks ∧ n.sched.round = none ∧
        Nld.only [.regs, .tick, .sched, .rdma, .sec] s.nld n) ∧
    (s.nld.bit NReg.TICK_CTRL_run = false → (s.nld.setPointsOk && windowsOk s.nld.sched.windows s.nld.roundClocks &&
      s.nld.bit NReg.BOOT_STATUS_compute_on) = false → NldDoes (.nldTickRun true) s fun n =>
        n.bit NReg.TICK_CTRL_run = false ∧ n.bit NReg.TICK_ERR_cfg_refused = true ∧ Nld.only [.regs, .hwErr] s.nld n ∧
        Nld.regsOnly [(NReg.TICK_ERR_cfg_refused, 0), (NReg.HWERR_PROD_seq, 0), (NReg.HWERR_LOST_count, 0)] s.nld n) ∧
    (s.nld.bit NReg.TICK_CTRL_run = true → NldDoes (.nldTickRun false) s fun n =>
      n.bit NReg.TICK_CTRL_run = false ∧ n.openTicks = [] ∧ n.get NReg.TICK_OPEN_open_count = 0 ∧
      n.tick.ticks.length = s.nld.tick.ticks.length ∧ n.tick.newest = s.nld.tick.newest ∧
      Nld.only [.regs, .tick, .host, .sched] s.nld n ∧
      Nld.regsOnly [(NReg.TICK_CTRL_run, 0), (NReg.TICK_OPEN_open_count, 0)] s.nld n) ∧
    (∀ (i : Fin 5) (us : BitVec 18),
      (s.nld.bit NReg.TICK_CTRL_run = false → NldDoes (.tickSetpointWrite i us) s fun n =>
        n.get (setPoint i.val) = us.toNat % 2 ^ (setPoint i.val).width ∧ Nld.only [.regs] s.nld n ∧
        Nld.regsOnly [(setPoint i.val, 0)] s.nld n) ∧
      (s.nld.bit NReg.TICK_CTRL_run = true → NldDoes (.tickSetpointWrite i us) s fun n =>
        n.get (setPoint i.val) = s.nld.get (setPoint i.val) ∧ n.bit NReg.TICK_ERR_cfg_refused = true ∧
        Nld.only [.regs, .hwErr] s.nld n))) ∧
  (∀ s : State, s.nld.runs → s.nld.bit NReg.TICK_CTRL_run = false → NldDoes .tickOpen s fun n => Nld.only [] s.nld n) ∧
  (∀ (s : State) (m : Nat), s.nld.runs → s.nld.bit NReg.TICK_CTRL_run = true → s.nld.tick.newest = some m →
    s.nld.boundaryNow = m + 1 →
    (s.nld.openTicks.length < 4 → NldDoes .tickOpen s fun n =>
      n.tick.newest = some (m + 1) ∧
      (∃ x, n.tickRec (m + 1) = some x ∧ x.phase = .opened ∧ x.openedAt = s.nld.elapsed ∧ x.expected = s.nld.tick.members ∧
        x.seen = [] ∧ x.presence = []) ∧
      n.get NReg.TICK_NOW_LO_tick_lo = (m + 1) % 2 ^ 32 ∧
      Nld.only [.regs, .hwErr, .tick, .chains, .host, .group, .verdict] s.nld n) ∧
    (4 ≤ s.nld.openTicks.length → NldDoes .tickOpen s fun n =>
      n.tick.ticks = s.nld.tick.ticks ∧ n.bit NReg.TICK_ERR_window_full = true ∧ Nld.only [.regs, .hwErr] s.nld n)) ∧
  (∀ (s : State) (t : BitVec 48) (x : TickRec), s.nld.runs → s.nld.tickRec t.toNat = some x →
    (x.phase = .opened → s.nld.tickAt t.toNat + s.nld.get NReg.TICK_P_offset_us * 1000 ≤ s.nld.now →
      NldDoes (.provisionalPoint t) s fun n =>
        (∃ y, n.tickRec t.toNat = some y ∧ y.phase = .provisional ∧ y.provAt = some s.nld.elapsed ∧ y.expected = x.expected ∧
          y.seen = x.seen ∧ (s.nld.bit NReg.TICK_CTRL_prov_en = false → y.runs = x.runs)) ∧ Nld.only [.tick] s.nld n) ∧
    (s.nld.now < s.nld.tickAt t.toNat + s.nld.get NReg.TICK_P_offset_us * 1000 → NldDoes (.provisionalPoint t) s fun n =>
      Nld.only [] s.nld n) ∧
    (x.isOpen = true → x.provAt ≠ none → NldDoes (.provisionalDrainEnd t) s fun n =>
      n.tickRec t.toNat = some { x with provReady := true } ∧ Nld.only [.tick] s.nld n) ∧
    (x.isOpen = true → s.nld.tickAt t.toNat + s.nld.get NReg.TICK_L_offset_us * 1000 ≤ s.nld.now →
      NldDoes (.traySeal t) s fun n =>
        (∃ y, n.tickRec t.toNat = some y ∧ y.phase = .traySealed ∧ y.sealedAt = some s.nld.elapsed ∧ y.seen = x.seen) ∧
        n.tick.newestSealed = some t.toNat ∧ Nld.only [.regs, .hwErr, .tick, .group, .sched] s.nld n) ∧
    (x.isOpen = true → s.nld.now < s.nld.tickAt t.toNat + s.nld.get NReg.TICK_L_offset_us * 1000 →
      NldDoes (.traySeal t) s fun n => Nld.only [] s.nld n) ∧
    (x.phase = .traySealed → s.nld.tickAt t.toNat + s.nld.get NReg.TICK_G_offset_us * 1000 ≤ s.nld.now →
      s.nld.roleAt t.toNat = 0 → NldDoes (.groupSeal t) s fun n =>
        n.tickRec t.toNat = some { x with phase := .groupSealed } ∧ Nld.only [.tick] s.nld n) ∧
    (x.phase = .groupSealed → s.nld.tickAt t.toNat + s.nld.get NReg.TICK_S_offset_us * 1000 ≤ s.nld.now →
      s.nld.roleAt t.toNat = 0 → x.runs ≠ [] → NldDoes (.fleetSeal t) s fun n =>
        (∃ y, n.tickRec t.toNat = some y ∧ y.phase = .fleetSealed ∧ y.runs = x.runs) ∧
        Nld.only [.regs, .hwErr, .tick, .host, .group, .defence] s.nld n))

/-- Closing a tick's view at Naloder (R39, R345, R356, R357, R365): the drain closes the presence map, a slow one is recorded; the
sweep is marked done and its time kept; the history compressor finishes the closed side.

FRAME (R34, R35, R36, R257, R341, R342, R343): a poisoned frame counts as one that fails its CRC, one from another place is counted
alone, a second one of a position is counted, and a frame that is taken is merged into its tick. -/
def Obligations.NldFrames : Prop :=
  (∀ (s : State) (t : BitVec 48) (ns : Nat) (x : TickRec), s.nld.runs → s.nld.tickRec t.toNat = some x →
    (x.sealedAt ≠ none → x.presence = [] → NldDoes (.sealDrainEnd t ns) s fun n =>
      n.tickRec t.toNat = some { x with presence := (List.range 512).map x.code } ∧
      n.get NReg.ING_DRAIN_max_ns = max (s.nld.get NReg.ING_DRAIN_max_ns) (min ns 65535) % 2 ^ 16 ∧
      (2000 < ns → n.bit NReg.ING_EVT_drain_slow = true) ∧
      Nld.only [.regs, .hwErr, .tick, .host, .verdict, .recorder] s.nld n) ∧
    (x.phase = .traySealed → x.presence ≠ [] → x.swept = false → NldDoes (.sealSweepEnd t ns) s fun n =>
      (∃ y, n.tickRec t.toNat = some y ∧ y.swept = true ∧ y.presence = x.presence) ∧
      n.get NReg.SER_STATUS_sweep_ns = min ns 65535 ∧ (14000 < ns → n.bit NReg.SER_EVT_sweep_late = true) ∧
      Nld.only [.regs, .hwErr, .tick, .series, .host, .group, .verdict, .sched, .rdma] s.nld n) ∧
    (x.presence ≠ [] → x.swept = true → NldDoes (.sealSweepEnd t ns) s fun n => Nld.only [] s.nld n)) ∧
  (∀ s : State, s.nld.runs → s.nld.series.closing = none → NldDoes .historyCompressDone s fun n => Nld.only [] s.nld n) ∧
  (∀ (s : State) (d : StageSide), s.nld.runs → s.nld.series.closing = some d → NldDoes .historyCompressDone s fun n =>
    n.series.closing = none ∧ n.series.side = s.nld.series.side ∧ n.series.ctx = s.nld.series.ctx ∧
    n.series.table = s.nld.series.table ∧ Nld.only [.series] s.nld n) ∧
  (∀ (s : State) (p : Fin 16) (bs : List Byte) (lag : Nat), s.nld.runs → NldDoes (.frame p bs true lag) s fun n =>
    n.get NReg.TICK_CRCFAIL_count = min (s.nld.get NReg.TICK_CRCFAIL_count + 1) NReg.TICK_CRCFAIL_count.max ∧
    n.bit NReg.ING_EVT_in_poison = true ∧ (∀ t, (n.tickRec t).map (·.seen) = (s.nld.tickRec t).map (·.seen)) ∧
    Nld.only [.regs, .hwErr, .tick] s.nld n ∧ Nld.regsOnly [(NReg.TICK_CRCFAIL_count, 0), (NReg.ING_EVT_in_poison, 0),
      (NReg.HWERR_PROD_seq, 0), (NReg.HWERR_LOST_count, 0)] s.nld n) ∧
  (∀ (s : State) (p : Fin 16) (bs : List Byte) (lag : Nat) (d : DecodedFrame), s.nld.runs →
    decodeFrame (ratioAccepts (s.nld.entryOf (32 * p.val + addrN (frameHeader bs).addr)).ratio) s.nld.codeLens bs = .ok d →
    (addrP (frameHeader bs).addr ≠ p.val → NldDoes (.frame p bs false lag) s fun n =>
      n.get NReg.ING_ADDRMIS_count = min (s.nld.get NReg.ING_ADDRMIS_count + 1) NReg.ING_ADDRMIS_count.max ∧
      n.bit NReg.ING_EVT_addr_mismatch = true ∧ Nld.only [.regs, .hwErr] s.nld n ∧ Nld.regsOnly [(NReg.ING_ADDRMIS_count, 0),
        (NReg.ING_EVT_addr_mismatch, 0), (NReg.HWERR_PROD_seq, 0), (NReg.HWERR_LOST_count, 0)] s.nld n)) ∧
  (∀ (s : State) (p : Fin 16) (bs : List Byte) (lag : Nat) (d : DecodedFrame) (pos : Nat), s.nld.runs →
    pos = 32 * p.val + addrN (frameHeader bs).addr → decodeFrame (ratioAccepts (s.nld.entryOf pos).ratio) s.nld.codeLens bs = .ok d →
    addrGT (frameHeader bs).addr = s.nld.name → addrP (frameHeader bs).addr = p.val → (s.nld.entryOf pos).valid = true →
    (frameHeader bs).period = s.nld.periodUs →
    (∀ x : TickRec, s.nld.tickRec (frameHeader bs).tick = some x → x.takes (s.nld.elapsed - lag) = true → x.expected.contains pos = true →
      (x.seen.contains pos = false → NldDoes (.frame p bs false lag) s fun n =>
        (∃ y, n.tickRec (frameHeader bs).tick = some y ∧ y.seen = x.seen ++ [pos] ∧
          (Tbl.find? pos y.pos).map (·.header) = some (frameHeader bs)) ∧
        n.get NReg.ING_MERGED_count = min (s.nld.get NReg.ING_MERGED_count + 1) NReg.ING_MERGED_count.max ∧
        Nld.only [.regs, .hwErr, .tick, .own, .host, .group, .verdict, .recorder] s.nld n) ∧
      (x.seen.contains pos = true → NldDoes (.frame p bs false lag) s fun n =>
        n.tickRec (frameHeader bs).tick = some { x with dups := x.dups + 1 } ∧
        n.get NReg.TICK_DUP_count = min (s.nld.get NReg.TICK_DUP_count + 1) NReg.TICK_DUP_count.max ∧
        Nld.only [.regs, .hwErr, .tick, .own, .host, .verdict, .recorder] s.nld n)) ∧
    (∀ m : Nat, s.nld.tickRec (frameHeader bs).tick = none → s.nld.bit NReg.TICK_CTRL_run = true → s.nld.tick.newest = some m →
      (frameHeader bs).tick ≤ m → NldDoes (.frame p bs false lag) s fun n =>
        n.tick.ticks = s.nld.tick.ticks ∧
        n.get NReg.TICK_LATE_count = min (s.nld.get NReg.TICK_LATE_count + 1) NReg.TICK_LATE_count.max ∧
        Nld.only [.regs, .hwErr, .own, .host, .verdict, .recorder] s.nld n))

/-- A Fife port of Naloder by register (R277, R309, R311, R315): Reset and Retrain of its link, a wake, and its enable.

How Naloder puts a chain to sleep (R307, R309, R315): go asks for a proposal, every KTU's agreement lets the decision commit, a
refusal or a WAKE makes it cancel.

An ENUM response at Naloder (R25, R238, R293): the position's entry says what it brought; a new die at the position takes it out
of the coming expected set and back to ratio 4:1; a leaf ends its chain. -/
def Obligations.NldFifePorts : Prop :=
  (∀ (s : State) (p : Fin 16), s.nld.writable →
    ((s.nld.fife p.val).link.state ≠ .off → (s.nld.fife p.val).link.state ≠ .down → NldDoes (.nldFifeReset p) s fun n =>
      (n.fife p.val).link.state = .reset ∧ (n.fife p.val).link.anew ∧ (∀ q, q ≠ p.val → n.fife q = s.nld.fife q) ∧
      n.get NReg.FIFEp_RETRAIN_resets p.val =
        min (s.nld.get NReg.FIFEp_RETRAIN_resets p.val + 1) NReg.FIFEp_RETRAIN_resets.max ∧
      Nld.only [.regs, .hwErr, .chains] s.nld n) ∧
    ((s.nld.fife p.val).link.carries = true → NldDoes (.nldFifeRetrain p) s fun n =>
      (n.fife p.val).link.state = .retrain ∧ (n.fife p.val).link.lp = 0 ∧
      (s.nld.fife p.val).link.sameLayer (n.fife p.val).link ∧ (∀ q, q ≠ p.val → n.fife q = s.nld.fife q) ∧
      Nld.only [.regs, .hwErr, .chains] s.nld n) ∧
    ((s.nld.fife p.val).link.lp ≠ 0 → NldDoes (.nldFifeWake p) s fun n =>
      (n.fife p.val).link.lp = 0 ∧ (n.fife p.val).link.pairs = (s.nld.fife p.val).link.pairs ++ [2] ∧
      (∀ q, q ≠ p.val → n.fife q = s.nld.fife q) ∧ Nld.only [.chains] s.nld n) ∧
    ((s.nld.fife p.val).link.lp = 0 → NldDoes (.nldFifeWake p) s fun n => Nld.only [] s.nld n) ∧
    NldDoes (.nldFifeEnable p false) s (fun n =>
      (n.fife p.val).link.state = .off ∧ n.bit NReg.FIFEp_CTRL_enable p.val = false ∧
      (∀ q, q ≠ p.val → n.fife q = s.nld.fife q) ∧ Nld.only [.regs, .hwErr, .chains] s.nld n) ∧
    ((s.nld.fife p.val).link.state = .off → NldDoes (.nldFifeEnable p true) s fun n =>
      (n.fife p.val).link.state = .down ∧ n.bit NReg.FIFEp_CTRL_enable p.val = true ∧
      Nld.only [.regs, .chains] s.nld n ∧ Nld.regsOnly [(NReg.FIFEp_CTRL_enable, p.val)] s.nld n)) ∧
  (∀ (s : State) (p : Fin 16) (t : Fin 4), s.nld.writable →
    (t = 1 ∨ t = 2 → NldDoes (.sleepGo p t) s fun n =>
      (n.fife p.val).sleepGo = true ∧ n.get NReg.FIFEp_SLEEP_target p.val = t.val ∧ Nld.only [.regs, .chains] s.nld n ∧
      Nld.regsOnly [(NReg.FIFEp_SLEEP_target, p.val)] s.nld n) ∧
    (t = 0 ∨ t = 3 → NldDoes (.sleepGo p t) s fun n => Nld.only [] s.nld n)) ∧
  (∀ (s : State) (p : Fin 16) (a : BitVec 20) (r : Bool) (t : BitVec 48), s.nld.runs →
    (s.nld.get NReg.FIFEp_SLEEP_phase p.val = 1 → (s.nld.fife p.val).sleepTick = t.toNat → NldDoes (.sleepAgree p a r t) s fun n =>
      (r = true → (n.fife p.val).broken = true ∧ (n.fife p.val).agreed = (s.nld.fife p.val).agreed) ∧
      (r = false → (n.fife p.val).agreed = addrN a.toNat :: (s.nld.fife p.val).agreed ∧
        (n.fife p.val).broken = (s.nld.fife p.val).broken) ∧
      (n.fife p.val).link = (s.nld.fife p.val).link ∧ Nld.only [.chains] s.nld n) ∧
    ((s.nld.get NReg.FIFEp_SLEEP_phase p.val ≠ 1 ∨ (s.nld.fife p.val).sleepTick ≠ t.toNat) → NldDoes (.sleepAgree p a r t) s fun n =>
      Nld.only [] s.nld n) ∧
    (∀ src : BitVec 8, NldDoes (.wake p a src t) s fun n =>
      (n.fife p.val).wakes = (s.nld.fife p.val).wakes ++ [(a.toNat, src.toNat, t.toNat)] ∧ (n.fife p.val).broken = true ∧
      n.bit NReg.FIFEp_EVT_wake_seen p.val = true ∧
      (s.nld.get NReg.FIFEp_SLEEP_phase p.val = 1 → n.get NReg.FIFEp_SLEEP_phase p.val = 3 ∧
        (n.fife p.val).link.waits (.sleepPropose 2 (BitVec.ofNat 8 (s.nld.get NReg.FIFEp_SLEEP_target p.val))
          (BitVec.ofNat 48 (s.nld.fife p.val).sleepTick))) ∧
      Nld.only [.regs, .hwErr, .chains] s.nld n)) ∧
  (∀ (s : State) (p : Fin 16), s.nld.runs → s.nld.get NReg.FIFEp_SLEEP_phase p.val = 1 →
    (s.nld.now < s.nld.tickAt ((s.nld.fife p.val).sleepTick - 1) + 50000 → NldDoes (.sleepDecision p) s fun n => Nld.only [] s.nld n) ∧
    (s.nld.tickAt ((s.nld.fife p.val).sleepTick - 1) + 50000 ≤ s.nld.now →
      ((s.nld.fife p.val).broken = false → (∀ x ∈ (s.nld.fife p.val).positions, x ∈ (s.nld.fife p.val).agreed) →
        NldDoes (.sleepDecision p) s fun n =>
          n.get NReg.FIFEp_SLEEP_phase p.val = 2 ∧
          (n.fife p.val).link.waits (.sleepPropose 1 (BitVec.ofNat 8 (s.nld.get NReg.FIFEp_SLEEP_target p.val))
            (BitVec.ofNat 48 (s.nld.fife p.val).sleepTick)) ∧ Nld.only [.regs, .chains] s.nld n ∧
          Nld.regsOnly [(NReg.FIFEp_SLEEP_phase, p.val)] s.nld n) ∧
      ((s.nld.fife p.val).broken = true ∨ (∃ x ∈ (s.nld.fife p.val).positions, x ∉ (s.nld.fife p.val).agreed) →
        NldDoes (.sleepDecision p) s fun n =>
          n.get NReg.FIFEp_SLEEP_phase p.val = 3 ∧
          (n.fife p.val).link.waits (.sleepPropose 2 (BitVec.ofNat 8 (s.nld.get NReg.FIFEp_SLEEP_target p.val))
            (BitVec.ofNat 48 (s.nld.fife p.val).sleepTick)) ∧ Nld.only [.regs, .chains] s.nld n ∧
          Nld.regsOnly [(NReg.FIFEp_SLEEP_phase, p.val)] s.nld n))) ∧
  (∀ (s : State) (p : Fin 16) (e : EnumInfo), s.nld.runs → NldDoes (.enumResponse p e) s fun n =>
    (∃ r, (n.fife p.val).entry (addrN e.addr.toNat) = ⟨true, r, e.slots.toNat, e.leaf, e.profile.toNat, e.revision.toNat,
        e.uid.toNat, e.schema.toNat⟩ ∧
      (((s.nld.fife p.val).entry (addrN e.addr.toNat)).valid = true → ((s.nld.fife p.val).entry (addrN e.addr.toNat)).uid ≠ e.uid.toNat →
        r = 0 ∧ 32 * p.val + addrN e.addr.toNat ∉ n.tick.members ∧ 32 * p.val + addrN e.addr.toNat ∈ n.series.dieChanged) ∧
      (((s.nld.fife p.val).entry (addrN e.addr.toNat)).uid = e.uid.toNat →
        r = ((s.nld.fife p.val).entry (addrN e.addr.toNat)).ratio ∧ n.series = s.nld.series)) ∧
    (∀ q, q ≠ addrN e.addr.toNat → e.leaf = false → (n.fife p.val).entry q = (s.nld.fife p.val).entry q) ∧
    (∀ q, addrN e.addr.toNat < q → e.leaf = true → (n.fife p.val).entry q = {}) ∧
    (∀ q, q ≠ p.val → (n.fife q).table = (s.nld.fife q).table) ∧
    Nld.only [.regs, .hwErr, .tick, .chains, .series, .verdict, .fw] s.nld n)

/-- What the chains answer (R178, R187, R302 to R304, R577, R582, R631): an answer or a timeout ends the request that waits and
completes its descriptor; trace and Tail records go to the rings of their owner's function; firmware reads the halt registers of an
observe-only KTU again. -/
def Obligations.ChainAnswers : Prop :=
  (∀ (s : State) (p : Fin 16) (m : CmdAckMsg), s.nld.runs → m.id ≠ 0 →
    (s.nld.fwAnswers = false → NldDoes (.cmdAck p m) s fun n => Nld.only [] s.nld n) ∧
    (∀ q, s.nld.fwAnswers = true → s.nld.chains.reqs.find? (fun q => !q.reg && q.port == p.val && q.id == m.id.toNat &&
        q.left.contains m.addr.toNat) = some q →
      (q.left.filter (· ≠ m.addr.toNat) ≠ [] → NldDoes (.cmdAck p m) s fun n =>
        n.chains.reqs.length = s.nld.chains.reqs.length ∧ (∃ x ∈ n.chains.reqs, x.id = q.id ∧ x.who = q.who ∧
          x.left = q.left.filter (· ≠ m.addr.toNat) ∧ x.ack ≠ none) ∧ n.chains.ports = s.nld.chains.ports ∧
        Nld.only [.chains] s.nld n) ∧
      (∀ fn ring slot, q.left.filter (· ≠ m.addr.toNat) = [] → q.who = .desc fn ring slot →
        (s.nld.ring (ringKey fn ring)).error = 0 → (∃ d ∈ (s.nld.ring (ringKey fn ring)).held, d.slot = slot) →
        NldDoes (.cmdAck p m) s fun n =>
          s.nld.completes n (ringKey fn ring) slot 0 ∧ n.chains.reqs.length + 1 = s.nld.chains.reqs.length ∧
          n.chains.ports = s.nld.chains.ports ∧ Nld.only [.chains, .host] s.nld n))) ∧
  (∀ (s : State) (p : Fin 16) (w : Bool) (r : RegResp) (q : PendReq) (fn ring slot : Nat), s.nld.runs → s.nld.fwAnswers = true →
    s.nld.chains.reqs.find? (fun q => q.reg && q.port == p.val && q.id == r.tag.toNat && q.addr == r.addr.toNat &&
      q.isWrite == w) = some q →
    q.who = .desc fn ring slot → (s.nld.ring (ringKey fn ring)).error = 0 →
    (∃ d ∈ (s.nld.ring (ringKey fn ring)).held, d.slot = slot) → NldDoes (.regResponse p w r) s fun n =>
      s.nld.completes n (ringKey fn ring) slot 0 ∧ n.chains.reqs = s.nld.chains.reqs.erase q ∧
      Nld.only [.chains, .host] s.nld n) ∧
  (∀ (s : State) (reg : Bool) (p : Fin 16) (id : Word) (a : BitVec 20) (q : PendReq) (fn ring slot : Nat), s.nld.runs →
    s.nld.fwAnswers = true → s.nld.chains.reqs.find? (fun q => q.reg == reg && q.port == p.val && q.id == id.toNat &&
      q.addr == a.toNat && !q.left.isEmpty) = some q →
    q.who = .desc fn ring slot → (reg = false → q.ack = none) → (s.nld.ring (ringKey fn ring)).error = 0 →
    (∃ d ∈ (s.nld.ring (ringKey fn ring)).held, d.slot = slot) → NldDoes (.requestTimeout reg p id a) s fun n =>
      s.nld.completes n (ringKey fn ring) slot 5 ∧ n.chains.reqs = s.nld.chains.reqs.erase q ∧
      Nld.only [.chains, .host] s.nld n) ∧
  (∀ (s : State) (a : BitVec 20) (q : Word) (rs : List TraceRec) (key : Nat), s.nld.runs → fnOwner (key / 32) < 17 →
    NldDoes (.trace a q rs) s fun n =>
      (s.nld.delivers key = true → s.nld.takes2 7 key = true → (∃ r ∈ rs, r.owner.toNat = fnOwner (key / 32)) →
        ∃ d ∈ (n.ring key).formed, d.type = 8 ∧ d.body = leBytes 4 a.toNat ++ leBytes 4 q.toNat ++
          leBytes 1 (rs.filter (fun r => r.owner.toNat = fnOwner (key / 32))).length ++ leBytes 7 0 ++
          (rs.filter (fun r => r.owner.toNat = fnOwner (key / 32))).flatMap TraceRec.bytes) ∧
      ((∀ r ∈ rs, r.owner.toNat ≠ fnOwner (key / 32)) → n.ring key = s.nld.ring key) ∧ Nld.only [.host] s.nld n) ∧
  (∀ (s : State) (a : BitVec 20) (t : TailImage) (o : Fin 17) (key : Nat), s.nld.runs → NldDoes (.taildump a t o) s fun n =>
    (s.nld.delivers key = true → s.nld.takes2 8 key = true → fnOwner (key / 32) = o.val →
      ∃ d ∈ (n.ring key).formed, d.type = 9 ∧ d.body = leBytes 4 a.toNat ++ leBytes 2 t.unit.toNat ++ leBytes 1 t.recs.length ++
        leBytes 1 0 ++ leBytes 8 t.hdr0.toNat ++ leBytes 8 t.hdr1.toNat ++ t.recs.flatMap (fun r => leBytes 8 r.toNat)) ∧
    (fnOwner (key / 32) ≠ o.val → n.ring key = s.nld.ring key) ∧ Nld.only [.host] s.nld n) ∧
  (∀ (s : State) (pos : Fin 512), s.nld.runs →
    (s.nld.fwRuns = true → s.nld.obsv pos.val = true → (s.nld.entryOf pos.val).valid = true →
      NldDoes (.observeOnlyRecheck pos) s fun n =>
        n.chains.reqs.length = s.nld.chains.reqs.length + 2 ∧
        (∃ r, (n.fife (addrP (s.nld.posAddr pos.val))).link.waits (.regRd r) ∧
          r.offset.toNat = KReg.HALT_COREc_halt_en.base % 65536 ∧ r.count = 8) ∧
        Nld.only [.chains] s.nld n) ∧
    (s.nld.fwRuns = false ∨ s.nld.obsv pos.val = false → NldDoes (.observeOnlyRecheck pos) s fun n => Nld.only [] s.nld n))

/-- Alarm pairs at Naloder and its own aborts (R194, R285, R463, R489, R519 to R521, R524, R531): a damaged or repeated pair is only
counted; a new abort is accepted and goes on, twice, by every other Fife port; Naloder's own is sent three times. -/
def Obligations.NldAlarms : Prop :=
  (∀ (s : State) (pr : BitVec 112), s.nld.runs →
    ((alarmFields pr).crcOk = false → ∀ p : Fin 16, NldDoes (.alarm (.nldFife p) pr) s fun n =>
      n.get NReg.ALM_BAD_count = min (s.nld.get NReg.ALM_BAD_count + 1) NReg.ALM_BAD_count.max ∧
      Nld.only [.regs] s.nld n ∧ Nld.regsOnly [(NReg.ALM_BAD_count, 0)] s.nld n) ∧
    ((alarmFields pr).crcOk = true → (alarmFields pr).kind < 4 → s.nld.seenAlarms.any (fun a => a.kind = (alarmFields pr).kind ∧
        a.origin = (alarmFields pr).origin ∧ a.scope = (alarmFields pr).scope ∧ a.arg = (alarmFields pr).arg) = true →
      ∀ p : Fin 8, NldDoes (.alarm (.nldHorn p) pr) s fun n =>
        n.get NReg.ALM_DUP_count = min (s.nld.get NReg.ALM_DUP_count + 1) NReg.ALM_DUP_count.max ∧
        Nld.only [.regs] s.nld n ∧ Nld.regsOnly [(NReg.ALM_DUP_count, 0)] s.nld n) ∧
    ((alarmFields pr).crcOk = true → (alarmFields pr).kind = 1 → s.nld.seenAlarms.any (fun a => a.kind = (alarmFields pr).kind ∧
        a.origin = (alarmFields pr).origin ∧ a.scope = (alarmFields pr).scope ∧ a.arg = (alarmFields pr).arg) = false →
      (∀ p : Fin 16, NldDoes (.alarm (.nldFife p) pr) s fun n =>
        n.get NReg.ALM_ACCEPT_count = min (s.nld.get NReg.ALM_ACCEPT_count + 1) NReg.ALM_ACCEPT_count.max ∧
        n.bit NReg.ABT_EVT_accepted = true ∧ n.get NReg.ABT_LAST_origin = (alarmFields pr).origin % 2 ^ NReg.ABT_LAST_origin.width ∧
        (∀ q < 16, q ≠ p.val → s.nld.isEzcia q = false →
          (n.fife q).link.alarms = (s.nld.fife q).link.alarms ++ [pr, pr]) ∧
        (n.fife p.val).link.alarms = (s.nld.fife p.val).link.alarms ∧
        Nld.only [.regs, .hwErr, .chains, .host, .group, .verdict, .rdma] s.nld n) ∧
      (∀ site : Site, NldDoes (.fabricAlarm site pr) s fun n =>
        n.get NReg.ALM_ACCEPT_count = min (s.nld.get NReg.ALM_ACCEPT_count + 1) NReg.ALM_ACCEPT_count.max ∧
        n.bit NReg.ABT_EVT_accepted = true ∧
        (∀ q < 16, s.nld.isEzcia q = false → (n.fife q).link.alarms = (s.nld.fife q).link.alarms ++ [pr, pr]) ∧
        Nld.only [.regs, .hwErr, .chains, .host, .group, .verdict, .rdma] s.nld n))) ∧
  (∀ s : State, s.nld.runs → s.nld.verdict.alarm.repeats = [] → NldDoes .alarmRepeat s fun n => Nld.only [] s.nld n) ∧
  (∀ (s : State) (pr : BitVec 112) (k : Nat) (t : List (BitVec 112 × Nat)), s.nld.runs →
    s.nld.verdict.alarm.repeats = (pr, k) :: t → NldDoes .alarmRepeat s fun n =>
      n.verdict.alarm.repeats = (if 1 < k then t ++ [(pr, k - 1)] else t) ∧
      (∀ q < 16, s.nld.isEzcia q = false → (n.fife q).link.alarms = (s.nld.fife q).link.alarms ++ [pr, pr]) ∧
      n.verdict.live = s.nld.verdict.live ∧ n.verdict.jobs = s.nld.verdict.jobs ∧
      Nld.only [.regs, .chains, .group, .verdict, .rdma] s.nld n) ∧
  (∀ (s : State) (sc : BitVec 17), s.nld.writable →
    (sc.toNat - (sc.toNat &&& s.nld.abortedScope) = 0 → NldDoes (.abortCmd sc) s fun n =>
      (sc ≠ 0 → n.bit NReg.ABT_EVT_suppressed = true) ∧ n.verdict = s.nld.verdict ∧ Nld.only [.regs, .hwErr] s.nld n) ∧
    (sc.toNat &&& s.nld.abortedScope = 0 → sc ≠ 0 → NldDoes (.abortCmd sc) s fun n =>
      n.get NReg.ABT_ORIG_count = min (s.nld.get NReg.ABT_ORIG_count + 1) NReg.ABT_ORIG_count.max ∧
      n.bit NReg.ABT_EVT_originated = true ∧ n.bit NReg.ABT_EVT_accepted = true ∧
      n.verdict.alarm.counter = (s.nld.verdict.alarm.counter + 1) % 65536 ∧
      (∃ pr, n.verdict.alarm.repeats = s.nld.verdict.alarm.repeats ++ [(pr, 2)] ∧
        ∀ q < 16, s.nld.isEzcia q = false → (n.fife q).link.alarms = (s.nld.fife q).link.alarms ++ [pr, pr]) ∧
      Nld.only [.regs, .hwErr, .chains, .host, .group, .verdict, .recorder, .rdma] s.nld n))

/-- Descriptors for model programs and series (R327, R353, R354, R361, R444, R445, R562, R577, R579): QUERY, LOAD, ADMIT, WITHDRAW, TRACK,
CTX_CFG and TAP_OWNER have their effect and complete with status 0, or are refused with none of it. -/
def Obligations.HostPrograms : Prop :=
  ∀ (s : State) (h : DescHdr), s.nld.runs → s.nld.turn h →
    NldDoes (.query h) s (fun n => s.nld.completes n h.key h.slot 0 ∧ Nld.only [.host, .fw] s.nld n) ∧
    (∀ (o : Nat) (bs : List Byte),
      (s.nld.inShare h.owner o bs.length = true → NldDoes (.load h o bs) s fun n =>
        s.nld.completes n h.key h.slot 0 ∧ (∀ j < bs.length, Tbl.get 0 (o + j) n.sched.pool = (bs.getD j 0).toNat) ∧
        (∀ a, a < o ∨ o + bs.length ≤ a → Tbl.get 0 a n.sched.pool = Tbl.get 0 a s.nld.sched.pool) ∧
        n.sched.programs = s.nld.sched.programs ∧ Nld.only [.regs, .pkg, .host, .sched, .fw] s.nld n) ∧
      (s.nld.inShare h.owner o bs.length = false → NldDoes (.load h o bs) s fun n =>
        s.nld.completes n h.key h.slot 1 ∧ Nld.only [.host, .fw] s.nld n)) ∧
    (∀ (o len : Nat) (ps : List OpParams) (sg : Bool), s.nld.sec.down = false → s.nld.opened = false →
      ((s.nld.takeImage h.fn.val o len ps sg).2 = 0 → NldDoes (.admitImage h o len ps sg) s fun n =>
        s.nld.completes n h.key h.slot 0 ∧ (∃ p, n.sched.programs = s.nld.sched.programs ++ [p] ∧ p.at_ = o ∧
          p.first = s.nld.firstTick (fieldAt (s.nld.poolBytes o len) 20 2) (fieldAt (s.nld.poolBytes o len) 22 2)) ∧
        n.sched.pool = s.nld.sched.pool ∧ Nld.only [.host, .sched, .fw] s.nld n) ∧
      (1 < (s.nld.takeImage h.fn.val o len ps sg).2 → NldDoes (.admitImage h o len ps sg) s fun n =>
        s.nld.completes n h.key h.slot 1 ∧ Nld.only [.host, .fw] s.nld n)) ∧
    (∀ im : BitVec 64,
      ((∃ p ∈ s.nld.sched.programs, p.owner = h.owner ∧ p.image = im.toNat ∧ p.withdrawn = false) →
        NldDoes (.withdraw h im) s fun n =>
          s.nld.completes n h.key h.slot 0 ∧
          n.sched.programs = s.nld.sched.programs.map (fun p =>
            if p.owner = h.owner ∧ p.image = im.toNat then { p with withdrawn := true } else p) ∧
          n.sched.pool = s.nld.sched.pool ∧ Nld.only [.host, .sched, .fw] s.nld n) ∧
      ((∀ p ∈ s.nld.sched.programs, p.owner = h.owner → p.image = im.toNat → p.withdrawn = true) →
        NldDoes (.withdraw h im) s fun n => s.nld.completes n h.key h.slot 1 ∧ Nld.only [.host, .fw] s.nld n)) ∧
    (∀ (ws : List TrackWord) (m : Nld),
      m = ws.foldl (fun m w => m.stageWord w.pos.val w.word.val w.value.toNat) s.nld →
      ((∀ w ∈ ws, s.nld.rowOwned h.owner w.pos.val (s.nld.stagedRow w.pos.val) (m.stagedRow w.pos.val) = true) →
        (m.positionsOk = true → NldDoes (.track h ws) s fun n =>
          s.nld.completes n h.key h.slot 0 ∧ n.series.staged = m.series.staged ∧ n.series.committed = some m.series.staged ∧
          n.series.table = s.nld.series.table ∧ n.series.ctx = s.nld.series.ctx ∧ Nld.only [.series, .host, .fw] s.nld n) ∧
        (m.positionsOk = false → NldDoes (.track h ws) s fun n =>
          s.nld.completes n h.key h.slot 1 ∧ n.bit NReg.SER_EVT_alloc_refused = true ∧
          Nld.only [.regs, .hwErr, .host, .fw] s.nld n)) ∧
      ((∃ w ∈ ws, s.nld.rowOwned h.owner w.pos.val (s.nld.stagedRow w.pos.val) (m.stagedRow w.pos.val) = false) →
        NldDoes (.track h ws) s fun n => s.nld.completes n h.key h.slot 2 ∧ Nld.only [.host, .fw] s.nld n)) ∧
    (∀ (c : Nat) (bp k : BitVec 8), bp.toNat ≤ 96 → k.toNat ≤ 15 → c < 262144 →
      ((Tbl.get ({} : SerCtx) c s.nld.series.ctx).owner = h.owner →
        NldDoes (.ctxCfg h c bp k none) s (fun n =>
          s.nld.completes n h.key h.slot 0 ∧ (c, bp.toNat, k.toNat) ∈ n.series.cfgs ∧ n.series.ctx = s.nld.series.ctx ∧
          n.series.epochs = s.nld.series.epochs ∧ Nld.only [.series, .host, .fw] s.nld n) ∧
        ∀ e : BitVec 48, NldDoes (.ctxCfg h c bp k (some e)) s fun n =>
          s.nld.completes n h.key h.slot 0 ∧ n.series.ctx = s.nld.series.ctx ∧
          (s.nld.tick.newestSealed = none → n.series.epochs = s.nld.series.epochs ++ [(c, e.toNat)]) ∧
          (∀ t, s.nld.tick.newestSealed = some t → n.series.epochs = s.nld.series.epochs ++ [(c, max e.toNat (t + 1))]) ∧
          Nld.only [.series, .host, .fw] s.nld n) ∧
      ((Tbl.get ({} : SerCtx) c s.nld.series.ctx).owner ≠ h.owner → ∀ e, NldDoes (.ctxCfg h c bp k e) s fun n =>
        s.nld.completes n h.key h.slot 2 ∧ Nld.only [.host, .fw] s.nld n)) ∧
    (∀ (tap : Fin 16) (o : BitVec 8),
      (h.owner = fleet → o.toNat ≤ 16 → NldDoes (.tapOwner h tap o) s fun n =>
        s.nld.completes n h.key h.slot 0 ∧ n.tapOwner tap.val = o.toNat ∧
        (∀ u, u ≠ tap.val → n.tapOwner u = s.nld.tapOwner u) ∧ Nld.only [.host, .fw] s.nld n) ∧
      (h.owner ≠ fleet → NldDoes (.tapOwner h tap o) s fun n =>
        s.nld.completes n h.key h.slot 2 ∧ n.host.taps = s.nld.host.taps ∧ Nld.only [.host, .fw] s.nld n))

/-- Descriptors for jobs and their defences (R508, R511, R514, R519, R542, R551, R552): JOB_REPORT, MEMBERSHIP, CHECKPOINT, VOTE, TALLY,
VECTOR_SET and ABORT have their effect where the issuer may ask for it, and are refused where it may not. -/
def Obligations.HostJobs : Prop :=
  ∀ (s : State) (h : DescHdr), s.nld.runs → s.nld.turn h →
    (∀ (pt : Fin 16) (a : BitVec 20) (d : Bool),
      (h.owner = fleet ∨ h.owner = pt.val → s.nld.isMember pt.val a.toNat = true → NldDoes (.jobReport h pt a d) s fun n =>
        s.nld.completes n h.key h.slot 0 ∧
        (n.job pt.val).reports = (s.nld.job pt.val).reports.filter (fun r => decide (r.1 ≠ a.toNat)) ++ [(a.toNat, d)] ∧
        (∀ q, q ≠ pt.val → n.job q = s.nld.job q) ∧
        Nld.only [.regs, .hwErr, .host, .verdict, .recorder, .fw] s.nld n) ∧
      (h.owner = fleet ∨ h.owner = pt.val → s.nld.isMember pt.val a.toNat = false → NldDoes (.jobReport h pt a d) s fun n =>
        s.nld.completes n h.key h.slot 1 ∧ Nld.only [.host, .fw] s.nld n) ∧
      (h.owner ≠ fleet → h.owner ≠ pt.val → NldDoes (.jobReport h pt a d) s fun n =>
        s.nld.completes n h.key h.slot 2 ∧ Nld.only [.host, .fw] s.nld n)) ∧
    (∀ (pt : Fin 16) (e : Word) (t : BitVec 48) (l : List (BitVec 18)),
      (h.owner = fleet → s.nld.now + 2000000 ≤ s.nld.tickAt t.toNat → (s.nld.job pt.val).accepts e.toNat (bitmapList l) = true →
        NldDoes (.membership h pt e t l) s fun n =>
          s.nld.completes n h.key h.slot 0 ∧
          (n.job pt.val).coming = (s.nld.job pt.val).coming ++ [⟨e.toNat, t.toNat, bitmapList l⟩] ∧
          (n.job pt.val).members = (s.nld.job pt.val).members ∧ Nld.only [.host, .verdict, .fw] s.nld n) ∧
      (h.owner = fleet → s.nld.now + 2000000 ≤ s.nld.tickAt t.toNat → (s.nld.job pt.val).accepts e.toNat (bitmapList l) = false →
        NldDoes (.membership h pt e t l) s fun n => s.nld.completes n h.key h.slot 8 ∧ Nld.only [.host, .fw] s.nld n) ∧
      (h.owner ≠ fleet → NldDoes (.membership h pt e t l) s fun n =>
        s.nld.completes n h.key h.slot 2 ∧ Nld.only [.host, .fw] s.nld n)) ∧
    (∀ (pt : Fin 16) (e : Word) (c : BitVec 48), h.owner = fleet ∨ h.owner = pt.val →
      (e.toNat = (s.nld.job pt.val).epoch → (∀ t, s.nld.tick.newestSealed = some t → t < c.toNat) →
        NldDoes (.checkpoint h pt e c) s fun n =>
          s.nld.completes n h.key h.slot 0 ∧ (n.job pt.val).checkpoint = some c.toNat ∧
          (n.job pt.val).members = (s.nld.job pt.val).members ∧ Nld.only [.regs, .hwErr, .host, .verdict, .fw] s.nld n) ∧
      (e.toNat ≠ (s.nld.job pt.val).epoch → NldDoes (.checkpoint h pt e c) s fun n =>
        s.nld.completes n h.key h.slot 1 ∧ Nld.only [.host, .fw] s.nld n)) ∧
    (∀ (o : Fin 17) (sl : BitVec 8) (rs : List (BitVec 20 × BitVec 6)) (x : Bool) (e : Word) (t : BitVec 48),
      h.owner = fleet ∨ h.owner = o.val →
      (s.nld.voteOk h.owner o.val sl.toNat (rs.map fun r => (r.1.toNat, r.2.toNat)) = true →
        NldDoes (.vote h (.slot o sl rs x)) s fun n =>
          s.nld.completes n h.key h.slot 0 ∧
          n.voteSlot (8 * o.val + sl.toNat) = some ⟨rs.map fun r => (r.1.toNat, r.2.toNat), x, []⟩ ∧
          Nld.only [.host, .defence, .fw] s.nld n) ∧
      ((s.nld.voteSlot (8 * o.val + sl.toNat)).isSome = true → sl.toNat < 8 → NldDoes (.vote h (.round o sl e t)) s fun n =>
        s.nld.completes n h.key h.slot 0 ∧
        (∃ v, n.voteSlot (8 * o.val + sl.toNat) = some v ∧ ∃ r ∈ v.rounds, r.epoch = e.toNat ∧ r.tick = t.toNat ∧ r.got = []) ∧
        Nld.only [.regs, .hwErr, .host, .group, .defence, .fw] s.nld n)) ∧
    (∀ (sl : BitVec 8) (id : Word) (t : BitVec 48),
      (h.owner = fleet → 8 ≤ sl.toNat → sl.toNat ≤ 15 → s.nld.summariesOk
        (s.nld.slotBytes + (if (Tbl.find? sl.toNat s.nld.defence.tallies).isSome then 0 else 96))
        (s.nld.sched.programs.filter fun q => !q.withdrawn) = true → NldDoes (.tally h sl id t) s fun n =>
          s.nld.completes n h.key h.slot 0 ∧
          Tbl.find? sl.toNat n.defence.tallies = some ⟨id.toNat, t.toNat, emptyTally⟩ ∧
          n.defence.votes = s.nld.defence.votes ∧ Nld.only [.host, .defence, .fw] s.nld n) ∧
      (h.owner = fleet → sl.toNat < 8 → NldDoes (.tally h sl id t) s fun n =>
        s.nld.completes n h.key h.slot 3 ∧ Nld.only [.host, .fw] s.nld n) ∧
      (h.owner ≠ fleet → NldDoes (.tally h sl id t) s fun n =>
        s.nld.completes n h.key h.slot 2 ∧ Nld.only [.host, .fw] s.nld n)) ∧
    (∀ v : VecSet, s.nld.sec.down = false → s.nld.opened = false → h.owner = fleet →
      (v.good = true → (∃ k, s.nld.keyFor v.key.toNat 2 = some k ∧ k.owner = fleet) →
        (s.nld.vectorSet true (v.keys.map BitVec.toNat) (v.vectors.map checkVector)).2 = true → NldDoes (.vectorSet h v) s fun n =>
          s.nld.completes n h.key h.slot 0 ∧ n.defence.vectors = v.vectors.map checkVector ∧
          n.defence.keys = v.keys.map BitVec.toNat ∧ n.defence.next = (0, 0) ∧ Nld.only [.host, .defence, .fw] s.nld n) ∧
      (v.good = false → NldDoes (.vectorSet h v) s fun n =>
        s.nld.completes n h.key h.slot 1 ∧ n.bit NReg.CHK_EVT_set_refused = true ∧
        Nld.only [.regs, .hwErr, .host, .recorder, .sec, .fw] s.nld n)) ∧
    (∀ sc : BitVec 17,
      (h.owner = fleet ∨ sc.toNat = 2 ^ h.owner → sc ≠ 0 → sc.toNat &&& s.nld.abortedScope = 0 → NldDoes (.abort h sc) s fun n =>
        s.nld.completes n h.key h.slot 0 ∧
        n.get NReg.ABT_ORIG_count = min (s.nld.get NReg.ABT_ORIG_count + 1) NReg.ABT_ORIG_count.max ∧
        n.bit NReg.ABT_EVT_originated = true ∧
        Nld.only [.regs, .hwErr, .chains, .host, .group, .verdict, .recorder, .rdma, .fw] s.nld n) ∧
      (h.owner ≠ fleet → sc.toNat ≠ 2 ^ h.owner → NldDoes (.abort h sc) s fun n =>
        s.nld.completes n h.key h.slot 2 ∧ Nld.only [.host, .fw] s.nld n))

/-- R510: a job report moves no liveness state, no expected set, no bitmap and nothing at a KTU, and sends no abort. -/
def Obligations.JobReportsGovernNothing : Prop :=
  ∀ (s : State) (h : DescHdr) (pt : Fin 16) (a : BitVec 20) (d : Bool), s.nld.runs → NldDoes (.jobReport h pt a d) s fun n =>
    n.verdict.live = s.nld.verdict.live ∧ n.verdict.alarm = s.nld.verdict.alarm ∧ n.tick.members = s.nld.tick.members ∧
    (∀ t, (n.tickRec t).map (·.expected) = (s.nld.tickRec t).map (·.expected)) ∧ (∀ q, (n.job q).members = (s.nld.job q).members) ∧
    n.chains = s.nld.chains ∧ Nld.only [.regs, .hwErr, .host, .verdict, .recorder, .fw] s.nld n

/-- Commands to KTUs from the host and the fleet (R299, R303, R466, R577, R631, R636, R665): KTU_CMD and KTU_REG send a request that
waits for its answer; a Bugle command that is new and accepted goes on by every other Horn port, one seen before or refused is
counted and dropped. -/
def Obligations.KtuRequests : Prop :=
  (∀ (s : State) (h : DescHdr) (p : Fin 16) (a : BitVec 20) (sc : BitVec 17) (ss : Bool) (b : CmdBody), s.nld.runs → s.nld.turn h →
    (addrGT a.toNat = s.nld.name → s.nld.obsv (addrPos a.toNat) = false → (∀ u t, b ≠ .halt u t) →
      (∀ q ∈ s.nld.chains.reqs, q.who ≠ .desc h.fn.val h.ring.val h.slot) →
      Tbl.get 0 (addrPos a.toNat) s.nld.fw.cmdIds + 1 < 0x7FFFF000 → NldDoes (.ktuCmd h p a 0 sc ss b) s fun n =>
        Tbl.get 0 (addrPos a.toNat) n.fw.cmdIds = Tbl.get 0 (addrPos a.toNat) s.nld.fw.cmdIds + 1 ∧
        (∃ g : CmdHdr, (n.fife (addrP a.toNat)).link.waits (.cmd g b) ∧ g.addr = a ∧ g.route = 0 ∧
          g.id.toNat = Tbl.get 0 (addrPos a.toNat) s.nld.fw.cmdIds + 1 ∧ g.issuer = BitVec.ofNat 5 h.owner ∧ g.scope = sc ∧
          g.scopeSet = ss) ∧
        (∃ q ∈ n.chains.reqs, q.who = .desc h.fn.val h.ring.val h.slot ∧ q.left = [a.toNat] ∧ q.reg = false) ∧
        n.chains.reqs.length = s.nld.chains.reqs.length + 1 ∧ Nld.only [.chains, .host, .fw] s.nld n) ∧
    (addrGT a.toNat ≠ s.nld.name → NldDoes (.ktuCmd h p a 0 sc ss b) s fun n =>
      s.nld.completes n h.key h.slot 1 ∧ Nld.only [.host, .fw] s.nld n) ∧
    (addrGT a.toNat = s.nld.name → s.nld.obsv (addrPos a.toNat) = true → NldDoes (.ktuCmd h p a 0 sc ss b) s fun n =>
      s.nld.completes n h.key h.slot 1 ∧ Nld.only [.host, .fw] s.nld n)) ∧
  (∀ (s : State) (h : DescHdr) (w : Bool) (a : BitVec 20) (o : BitVec 16) (c : BitVec 8) (ws : List Word), s.nld.runs →
    s.nld.turn h →
    (1 ≤ (if w then ws.length else c.toNat) → (if w then ws.length else c.toNat) ≤ 8 → addrGT a.toNat = s.nld.name →
      s.nld.obsv (addrPos a.toNat) = false → NldDoes (.ktuReg h w a o c ws) s fun n =>
        n.chains.tag = (s.nld.chains.tag + 1) % 65536 ∧
        (∃ r : RegReq, (n.fife (addrP a.toNat)).link.waits (if w then .regWr r else .regRd r) ∧ r.addr = a ∧ r.offset = o ∧
          r.tag = BitVec.ofNat 16 n.chains.tag ∧ r.issuer = BitVec.ofNat 5 h.owner ∧ r.words = (if w then ws else [])) ∧
        n.chains.reqs.length = s.nld.chains.reqs.length + 1 ∧ Nld.only [.chains, .host, .fw] s.nld n) ∧
    ((if w then ws.length else c.toNat) = 0 ∨ 8 < (if w then ws.length else c.toNat) → NldDoes (.ktuReg h w a o c ws) s fun n =>
      s.nld.completes n h.key h.slot 3 ∧ Nld.only [.host, .fw] s.nld n)) ∧
  (∀ (s : State) (m : BugleMsg), s.nld.runs → 2 ^ 31 ≤ m.hdr.id.toNat → s.nld.sec.down = false →
    (∀ o, s.nld.checkBugle m = .accepted o → s.nld.group.bugles.contains m.hdr.id.toNat = false →
      (∀ site : Site, NldDoes (.hornCmd site m) s fun n =>
        n.group.bugles = (m.hdr.id.toNat :: s.nld.group.bugles).take 4096 ∧ n.group.dropped = s.nld.group.dropped ∧
        (∀ p : Fin 8, s.nld.hornRole p.val ≠ 0 → site ≠ .horn p → (n.horn p.val).link.waits (.bugle m)) ∧
        Nld.only [.regs, .hwErr, .doms, .chains, .host, .group, .rdma] s.nld n) ∧
      (∀ h : DescHdr, s.nld.turn h → h.owner = fleet → NldDoes (.bugle h m) s fun n =>
        n.group.bugles = (m.hdr.id.toNat :: s.nld.group.bugles).take 4096 ∧ n.group.dropped = s.nld.group.dropped ∧
        (∀ p : Fin 8, s.nld.hornRole p.val ≠ 0 → (n.horn p.val).link.waits (.bugle m)) ∧
        Nld.only [.regs, .hwErr, .doms, .chains, .host, .group, .rdma, .fw] s.nld n)) ∧
    (s.nld.group.bugles.contains m.hdr.id.toNat = true →
      (∀ site : Site, NldDoes (.hornCmd site m) s fun n =>
        n.group.dropped = s.nld.group.dropped + 1 ∧ n.group.bugles = s.nld.group.bugles ∧ n.group.horns = s.nld.group.horns ∧
        Nld.only [.regs, .hwErr, .group, .rdma] s.nld n) ∧
      (∀ h : DescHdr, s.nld.turn h → h.owner = fleet → NldDoes (.bugle h m) s fun n =>
        s.nld.completes n h.key h.slot 1 ∧ n.group.dropped = s.nld.group.dropped + 1 ∧ n.group.horns = s.nld.group.horns ∧
        Nld.only [.host, .group, .fw] s.nld n)))

/-- The host's rings (R565, R566, R568, R569, R572, R576, R581, R583, R588): a poll moves the host's indices and fetches the descriptor
of the next generation; enabling starts a ring that passes its check, disabling discards what is not written; the next
record is written where it fits; a function reset clears its rings; a failed read is counted. -/
def Obligations.HostRings : Prop :=
  (∀ (s : State) (fn : Fin 17) (g : Fin 32) (r : RingRt) (sp cc dc : Word), s.nld.runs →
    r = s.nld.ring (ringKey fn.val g.val) → s.nld.ringRuns (ringKey fn.val g.val) = true → s.nld.ringType (ringKey fn.val g.val) = 1 →
    NldDoes (.doorbellPoll [⟨fn, [⟨g, sp, cc, dc, []⟩]⟩]) s (fun n =>
      (n.ring (ringKey fn.val g.val)).subProd = indexTo r.subProd sp.toNat ∧
      (n.ring (ringKey fn.val g.val)).compCons = indexTo r.compCons cc.toNat ∧
      (n.ring (ringKey fn.val g.val)).dataCons = indexTo r.dataCons dc.toNat ∧
      (n.ring (ringKey fn.val g.val)).held = r.held ∧ (n.ring (ringKey fn.val g.val)).subCons = r.subCons ∧
      Nld.only [.host] s.nld n) ∧
    ∀ d : FetchedDesc, s.nld.fwRuns = true → s.nld.fw.holding = false → r.held = [] → opcodeKnown 1 d.opcode.toNat = true →
      r.subCons < indexTo r.subProd sp.toNat →
      r.compProd - indexTo r.compCons cc.toNat < s.nld.ringSlots (ringKey fn.val g.val) →
      d.gen.toNat = Tbl.get 0 (r.subCons % s.nld.ringSlots (ringKey fn.val g.val)) r.lastGen % 65535 + 1 →
      NldDoes (.doorbellPoll [⟨fn, [⟨g, sp, cc, dc, [d]⟩]⟩]) s fun n =>
        (n.ring (ringKey fn.val g.val)).subCons = r.subCons + 1 ∧
        (∃ x, (n.ring (ringKey fn.val g.val)).held = [x] ∧ x.slot = r.subCons % s.nld.ringSlots (ringKey fn.val g.val) ∧
          x.gen = d.gen.toNat ∧ x.tag = d.tag.toNat ∧ x.opcode = d.opcode.toNat ∧ x.phase = none) ∧
        Nld.only [.host] s.nld n) ∧
  (∀ (s : State) (fn : Fin 17) (g : Fin 32), s.nld.writable → g.val < ringCount fn.val →
    ((s.nld.ring (ringKey fn.val g.val)).enabled = false → s.nld.contextOk (ringKey fn.val g.val) = true →
      NldDoes (.ringEnable fn g) s fun n =>
        n.ring (ringKey fn.val g.val) = { enabled := true, restarted := (s.nld.ring (ringKey fn.val g.val)).restarted } ∧
        n.host.ctx = s.nld.host.ctx ∧ Nld.only [.regs, .host] s.nld n) ∧
    ((s.nld.ring (ringKey fn.val g.val)).enabled = false → s.nld.contextOk (ringKey fn.val g.val) = false →
      NldDoes (.ringEnable fn g) s fun n =>
        n.ring (ringKey fn.val g.val) = s.nld.ring (ringKey fn.val g.val) ∧ Nld.only [.regs] s.nld n) ∧
    ((s.nld.ring (ringKey fn.val g.val)).enabled = true → NldDoes (.ringDisable fn g) s fun n =>
      (n.ring (ringKey fn.val g.val)).enabled = false ∧ (n.ring (ringKey fn.val g.val)).error = 0 ∧
      (n.ring (ringKey fn.val g.val)).formed = [] ∧ (n.ring (ringKey fn.val g.val)).overflow = [] ∧
      (n.ring (ringKey fn.val g.val)).held = (s.nld.ring (ringKey fn.val g.val)).held ∧ n.host.ctx = s.nld.host.ctx ∧
      Nld.only [.regs, .host] s.nld n)) ∧
  (∀ (s : State) (fn : Fin 17), s.nld.runs → NldDoes (.functionLevelReset fn) s fun n =>
    (∀ g < 32, n.ring (ringKey fn.val g) = { restarted := (n.ring (ringKey fn.val g)).restarted } ∧
      ∀ w < 32, n.ctxWord (ringKey fn.val g) w = 0) ∧
    (∀ k, k / 32 ≠ fn.val → n.ring k = s.nld.ring k ∧ ∀ w < 32, n.ctxWord k w = s.nld.ctxWord k w) ∧
    n.host.staged = s.nld.host.staged ∧ Nld.only [.regs, .host] s.nld n) ∧
  (∀ (s : State) (fn : Fin 17) (g : Fin 32), s.nld.runs →
    ((s.nld.ring (ringKey fn.val g.val)).unsignalled = 0 → NldDoes (.irqTimer fn g) s fun n => Nld.only [] s.nld n) ∧
    ((s.nld.ring (ringKey fn.val g.val)).unsignalled ≠ 0 → NldDoes (.irqTimer fn g) s fun n =>
      (n.ring (ringKey fn.val g.val)).unsignalled = 0 ∧
      (s.nld.vecMasked fn.val (s.nld.ctxBits (ringKey fn.val g.val) 0 23 16) = false →
        s.nld.emits n (.msix fn.val (s.nld.ctxBits (ringKey fn.val g.val) 0 23 16))) ∧
      (s.nld.vecMasked fn.val (s.nld.ctxBits (ringKey fn.val g.val) 0 23 16) = true →
        64 * fn.val + s.nld.ctxBits (ringKey fn.val g.val) 0 23 16 ∈ n.host.pba) ∧ Nld.only [.host] s.nld n)) ∧
  (∀ (s : State) (fn : Fin 17) (g : Fin 32) (r : RingRt) (f : DelivRec) (fs : List DelivRec), s.nld.runs →
    r = s.nld.ring (ringKey fn.val g.val) → s.nld.delivers (ringKey fn.val g.val) = true → r.loss = none → r.overflow = [] →
    r.formed = f :: fs → f.type ≠ 0 →
    (s.nld.fits (ringKey fn.val g.val) f = true → s.nld.padFor (ringKey fn.val g.val) f.length = 0 →
      NldDoes (.deliveryRecordWrite fn g) s fun n =>
        (n.ring (ringKey fn.val g.val)).formed = fs ∧ (n.ring (ringKey fn.val g.val)).recSeq = r.recSeq + 1 ∧
        (n.ring (ringKey fn.val g.val)).compProd = r.compProd + 1 ∧
        (n.ring (ringKey fn.val g.val)).dataProd = r.dataProd + (f.bytes s.nld.periodUs).length ∧
        s.nld.emits n (.buffer (s.nld.ctxWord (ringKey fn.val g.val) 2 + s.nld.ctxWord (ringKey fn.val g.val) 3 * 2 ^ 32 +
          r.dataProd % s.nld.areaSize (ringKey fn.val g.val)) (f.bytes s.nld.periodUs)) ∧
        Nld.only [.regs, .hwErr, .tick, .host, .rdma] s.nld n) ∧
    (s.nld.fits (ringKey fn.val g.val) f = false → s.nld.ovfLimit (ringKey fn.val g.val) = 0 →
      NldDoes (.deliveryRecordWrite fn g) s fun n =>
        (n.ring (ringKey fn.val g.val)).formed = fs ∧ (n.ring (ringKey fn.val g.val)).recSeq = r.recSeq ∧
        (n.ring (ringKey fn.val g.val)).loss = some ⟨1, 2 ^ f.type, f.tick, f.tick⟩ ∧
        Nld.only [.regs, .hwErr, .tick, .host] s.nld n)) ∧
  (∀ s : State, s.nld.runs →
    (∀ fn : Fin 17, NldDoes (.hostReadError (.doorbell fn)) s fun n =>
      n.get (hqField NReg.HQ_HOSTERR_count NReg.VHQ_HOSTERR_count fn.val).1 (hqField NReg.HQ_HOSTERR_count NReg.VHQ_HOSTERR_count fn.val).2 =
        min (s.nld.get (hqField NReg.HQ_HOSTERR_count NReg.VHQ_HOSTERR_count fn.val).1
          (hqField NReg.HQ_HOSTERR_count NReg.VHQ_HOSTERR_count fn.val).2 + 1) NReg.HQ_HOSTERR_count.max ∧
      Nld.only [.regs] s.nld n) ∧
    (∀ h : DescHdr, s.nld.turn h →
      NldDoes (.hostReadError (.descriptor h)) s (fun n => s.nld.completes n h.key h.slot 9 ∧ Nld.only [.regs, .host] s.nld n) ∧
      NldDoes (.hostReadError (.operands h)) s (fun n => s.nld.completes n h.key h.slot 9 ∧ Nld.only [.regs, .host] s.nld n)))

/-- Content taps and bulk jobs (R263, R266, R366, R431, R579, R580): a sequence of the tap's owner is staged, and expires untaken; a
bulk job waits for or takes a lane, and completes; history is read by the owner of its context. -/
def Obligations.HostDevices : Prop :=
  (∀ (s : State) (h : DescHdr) (tap : Fin 16) (q : BitVec 28) (bs : List Byte), s.nld.runs → s.nld.deviceTurn h 4 →
    (s.nld.tapOwner tap.val = h.owner → 1 ≤ bs.length → bs.length ≤ 65536 → NldDoes (.contentTapSubmit h tap q bs) s fun n =>
      s.nld.completes n h.key h.slot 0 ∧ n.host.staged = s.nld.host.staged ++
        [⟨tap.val, q.toNat, 0, s.nld.now, s.nld.host.tapCount, words64 bs⟩] ∧
      n.host.tapCount = s.nld.host.tapCount + 1 ∧ Nld.only [.host] s.nld n) ∧
    (s.nld.tapOwner tap.val = h.owner → bs.length = 0 ∨ 65536 < bs.length → NldDoes (.contentTapSubmit h tap q bs) s fun n =>
      s.nld.completes n h.key h.slot 3 ∧ n.host.staged = s.nld.host.staged ∧ Nld.only [.host] s.nld n) ∧
    (s.nld.tapOwner tap.val ≠ h.owner → NldDoes (.contentTapSubmit h tap q bs) s fun n =>
      s.nld.completes n h.key h.slot 2 ∧ n.host.staged = s.nld.host.staged ∧ Nld.only [.host] s.nld n)) ∧
  (∀ (s : State) (o : Nat), s.nld.runs →
    (∀ q, s.nld.host.staged.find? (fun q => q.order = o) = some q → s.nld.tapTaken q = false → NldDoes (.tapSequenceExpiry o) s fun n =>
      (∀ x ∈ n.host.staged, x.order ≠ o) ∧ (∀ x ∈ s.nld.host.staged, x.order ≠ o → x ∈ n.host.staged) ∧
      Nld.only [.regs, .host] s.nld n) ∧
    (s.nld.host.staged.find? (fun q => q.order = o) = none → NldDoes (.tapSequenceExpiry o) s fun n => Nld.only [] s.nld n)) ∧
  (∀ (s : State) (h : DescHdr) (o : BulkOperands), s.nld.runs → s.nld.deviceTurn h 5 →
    NldDoes (.bulkCompress h o) s (fun n =>
      (∃ j, (j ∈ n.host.waiting ∨ j ∈ n.lane 0 ∨ j ∈ n.lane 1) ∧ j.fn = h.fn.val ∧ j.ring = h.ring.val ∧ j.hdr.slot = h.slot ∧
        j.decompress = false ∧ j.input = o.input ∧ j.dst = o.dst) ∧ Nld.only [.regs, .host] s.nld n) ∧
    NldDoes (.bulkDecompress h o) s (fun n =>
      (∃ j, (j ∈ n.host.waiting ∨ j ∈ n.lane 0 ∨ j ∈ n.lane 1) ∧ j.fn = h.fn.val ∧ j.ring = h.ring.val ∧ j.hdr.slot = h.slot ∧
        j.decompress = true ∧ j.input = o.input ∧ j.dst = o.dst) ∧ Nld.only [.regs, .host] s.nld n)) ∧
  (∀ (s : State) (l : Fin 2), s.nld.runs →
    (s.nld.lane l.val = [] → NldDoes (.bulkJobComplete l) s fun n => Nld.only [] s.nld n) ∧
    (∀ j t, s.nld.lane l.val = j :: t → (s.nld.ring (ringKey j.fn j.ring)).error = 0 →
      (∃ d ∈ (s.nld.ring (ringKey j.fn j.ring)).held, d.slot = j.hdr.slot) → NldDoes (.bulkJobComplete l) s fun n =>
        (∃ st ≤ 6, s.nld.completes n (ringKey j.fn j.ring) j.hdr.slot st) ∧ Nld.only [.regs, .host] s.nld n)) ∧
  (∀ (s : State) (v : BitVec 2), s.nld.writable → NldDoes (.bulkLaneEnable v) s fun n =>
    n.get NReg.BULK_CTRL_lane_en = v.toNat ∧ (v = 0 → n.host.waiting = s.nld.host.waiting ∧ n.host.lanes = s.nld.host.lanes) ∧
    Nld.only [.regs, .host] s.nld n) ∧
  (∀ (s : State) (h : DescHdr) (c : Nat) (first : BitVec 48) (k : Nat) (dst : BitVec 64) (len : Nat), s.nld.runs →
    s.nld.deviceTurn h 5 →
    (c < 262144 → 1 ≤ k → k ≤ 65536 → (Tbl.get ({} : SerCtx) c s.nld.series.ctx).owner = h.owner →
      NldDoes (.historyRead h c first k dst len) s fun n =>
        (∃ st ≤ 1, s.nld.completes n h.key h.slot st) ∧ Nld.only [.host] s.nld n) ∧
    (c < 262144 → 1 ≤ k → k ≤ 65536 → (Tbl.get ({} : SerCtx) c s.nld.series.ctx).owner ≠ h.owner →
      NldDoes (.historyRead h c first k dst len) s fun n => s.nld.completes n h.key h.slot 2 ∧ Nld.only [.host] s.nld n))

/-- Rounds and owners' windows (R437, R438, R443, R454): a round starts once its time has come, with the committed windows and with
no program that was withdrawn before it; an owner's window opens on all clusters; a staged table that does not fit is refused.

Runs of programs (R60, R443, R448, R451, R453): a run that is due ends with what it took counted against its window and is then
no longer listed; one without room for its provisional budget is dropped; one that is not due does nothing. -/
def Obligations.ProgramRuns : Prop :=
  (∀ (s : State) (r : BitVec 48), s.nld.runs →
    (s.nld.bit NReg.TICK_CTRL_run = true →
      s.nld.tickAt r.toNat + (s.nld.get NReg.TICK_L_offset_us + 16) * 1000 ≤ s.nld.now →
      (∀ k, s.nld.sched.round = some k → k < r.toNat) → NldDoes (.roundStart r) s fun n =>
        n.sched.round = some r.toNat ∧ n.get NReg.SCHED_STATUS_round = r.toNat % 65536 ∧ n.sched.running = none ∧
        (∀ w, s.nld.sched.committed = some w → n.sched.windows = w ∧ n.sched.committed = none ∧
          n.get NReg.SCHED_STATUS_pending = 0) ∧
        (s.nld.sched.committed = none → n.sched.windows = s.nld.sched.windows) ∧
        (∀ p ∈ n.sched.programs, p.withdrawn = false) ∧
        Nld.only [.regs, .hwErr, .tick, .host, .group, .verdict, .sched, .rdma] s.nld n) ∧
    (s.nld.bit NReg.TICK_CTRL_run = false → NldDoes (.roundStart r) s fun n => Nld.only [] s.nld n)) ∧
  (∀ (s : State) (o : Fin 17), s.nld.runs →
    (s.nld.sched.round ≠ none → (winOf s.nld.sched.windows o.val).2.1 ≠ 0 → NldDoes (.windowStart o) s fun n =>
      n.sched.running = some o.val ∧ n.sched.used = 0 ∧ n.get NReg.SCHED_STATUS_owner = o.val ∧
      (∀ c < 10, n.get NReg.CLc_STATUS_owner c = o.val) ∧ Nld.only [.regs, .sched] s.nld n) ∧
    (s.nld.sched.round = none ∨ (winOf s.nld.sched.windows o.val).2.1 = 0 → NldDoes (.windowStart o) s fun n =>
      Nld.only [] s.nld n)) ∧
  (∀ s : State, s.nld.writable →
    (s.nld.stagedFits = true → NldDoes .schedTableCommit s fun n =>
      n.sched = { s.nld.sched with committed := some s.nld.stagedWindows } ∧ n.get NReg.SCHED_STATUS_pending = 1 ∧
      Nld.only [.regs, .sched] s.nld n ∧ Nld.regsOnly [(NReg.SCHED_STATUS_pending, 0)] s.nld n) ∧
    (s.nld.stagedFits = false → NldDoes .schedTableCommit s fun n =>
      n.bit NReg.SCHED_EVT_win_refused = true ∧ Nld.only [.regs, .hwErr] s.nld n)) ∧
  (∀ (s : State) (owner : Fin 17) (image : BitVec 64) (t : BitVec 48) (x : TickRec) (p : Program), s.nld.runs →
    s.nld.tickRec t.toNat = some x → s.nld.program owner.val image.toNat = some p →
    (∀ (kind : RunKind) (cycles : Nat) (faults : List ArrFault) (clocks : List (Nat × Nat)),
      (s.nld.runDue x owner.val image.toNat (kindNum kind) = true →
        (kind = .provisional → s.nld.provFits p x = true) → cycles < p.budget (kindNum kind) →
        NldDoes (.runComplete owner image t kind cycles faults clocks) s fun n =>
          (∀ y ∈ n.tick.ticks, y.num = t.toNat → (owner.val, image.toNat, kindNum kind) ∉ y.runs) ∧
          n.sched.used = s.nld.sched.used + cycles ∧ n.sched.running = s.nld.sched.running ∧
          n.sched.windows = s.nld.sched.windows ∧
          Nld.only [.regs, .hwErr, .tick, .chains, .series, .host, .group, .verdict, .recorder, .sched, .rdma] s.nld n) ∧
      (s.nld.runDue x owner.val image.toNat 1 = true → s.nld.provFits p x = false → kind = .provisional →
        NldDoes (.runComplete owner image t kind cycles faults clocks) s fun n =>
          (∀ y ∈ n.tick.ticks, y.num = t.toNat → (owner.val, image.toNat, 1) ∉ y.runs) ∧
          n.get NReg.SCHED_PROVDROP_count = min (s.nld.get NReg.SCHED_PROVDROP_count + 1) NReg.SCHED_PROVDROP_count.max ∧
          n.bit NReg.SCHED_EVT_prov_drop = true ∧ n.sched = s.nld.sched ∧ Nld.only [.regs, .hwErr, .tick] s.nld n) ∧
      (s.nld.runDue x owner.val image.toNat (kindNum kind) = false →
        NldDoes (.runComplete owner image t kind cycles faults clocks) s fun n => Nld.only [] s.nld n)) ∧
    (∀ clocks : List (Nat × Nat),
      (s.nld.runDue x owner.val image.toNat 0 = true → NldDoes (.sealedRunBudgetExhausted owner image t clocks) s fun n =>
        (∀ y ∈ n.tick.ticks, y.num = t.toNat → (owner.val, image.toNat, 0) ∉ y.runs) ∧
        n.get NReg.SCHED_WINo_RUNS_faulted owner.val =
          min (s.nld.get NReg.SCHED_WINo_RUNS_faulted owner.val + 1) NReg.SCHED_WINo_RUNS_faulted.max ∧
        n.bit NReg.SCHED_EVT_run_fault = true ∧ n.sched.used = s.nld.sched.used + p.budgetSealed ∧
        Nld.only [.regs, .hwErr, .tick, .chains, .series, .host, .group, .verdict, .recorder, .sched, .rdma] s.nld n) ∧
      (s.nld.runDue x owner.val image.toNat 0 = false → NldDoes (.sealedRunBudgetExhausted owner image t clocks) s fun n =>
        Nld.only [] s.nld n)))

/-- The tree engine and the self checks (R410, R425, R552, R553): a call is counted and its outputs are those of its trees; a vector
runs while checks are enabled, and one whose digest differs is reported.

Digests and pattern results at Naloder (R543, R544, R551): a digest that no open round of a vote slot names is late, and one that
does becomes its replica's entry; a pattern result joins its tally or is late. -/
def Obligations.ChecksAndTallies : Prop :=
  (∀ (s : State) (owner : Fin 17) (addr : Nat) (samples : List (List (Nat × Bool))) (waited : Bool), s.nld.runs →
    (s.nld.bit NReg.TREE_CTRL_enable = true → NldDoes (.treeCallStart owner addr samples waited) s fun n =>
      n.get NReg.TREE_CALLS_count = min (s.nld.get NReg.TREE_CALLS_count + 1) NReg.TREE_CALLS_count.max ∧
      n.sched.treeOwner = owner.val ∧
      n.sched.treeOut = (samples.map (s.nld.readEnsemble owner.val addr).traverse).flatMap
        (fun t => (s.nld.readEnsemble owner.val addr).outputs t 0) ∧
      (waited = true → n.bit NReg.TREE_EVT_queue_wait = true) ∧
      n.sched.programs = s.nld.sched.programs ∧ n.sched.running = s.nld.sched.running ∧
      Nld.only [.regs, .hwErr, .sched] s.nld n) ∧
    (s.nld.bit NReg.TREE_CTRL_enable = false → NldDoes (.treeCallStart owner addr samples waited) s fun n =>
      Nld.only [] s.nld n)) ∧
  (∀ (s : State) (flips : List (Nat × Nat)) (v : CheckVector), s.nld.runs →
    s.nld.defence.vectors[s.nld.defence.next.2]? = some v →
    (s.nld.bit NReg.CHK_CTRL_enable = true → NldDoes (.selfCheckVector flips) s fun n =>
      n.get NReg.CHK_RUNS_count = min (s.nld.get NReg.CHK_RUNS_count + 1) NReg.CHK_RUNS_count.max ∧
      n.defence.next = (if s.nld.defence.next.2 + 1 < s.nld.defence.vectors.length
        then (s.nld.defence.next.1, s.nld.defence.next.2 + 1) else ((s.nld.defence.next.1 + 1) % 10, 0)) ∧
      n.defence.vectors = s.nld.defence.vectors ∧
      (linesDigest s.nld.defence.keys (flipBytes (packRows v.dst.1 v.dst.2.2 (s.nld.vectorOutput v)) flips) ≠ v.digest →
        n.bit NReg.CHK_EVT_fail = true) ∧
      (linesDigest s.nld.defence.keys (flipBytes (packRows v.dst.1 v.dst.2.2 (s.nld.vectorOutput v)) flips) = v.digest →
        n.bit NReg.CHK_EVT_fail = s.nld.bit NReg.CHK_EVT_fail ∧ n.recorder = s.nld.recorder) ∧
      Nld.only [.regs, .hwErr, .recorder, .defence] s.nld n) ∧
    (s.nld.bit NReg.CHK_CTRL_enable = false → NldDoes (.selfCheckVector flips) s fun n => Nld.only [] s.nld n)) ∧
  (∀ (s : State) (flips : List (Nat × Nat)), s.nld.runs → s.nld.defence.vectors = [] →
    NldDoes (.selfCheckVector flips) s fun n => Nld.only [] s.nld n) ∧
  (∀ (s : State) (m : DigestMsg), s.nld.runs →
    ((∀ e ∈ s.nld.defence.votes, e.2.replica m = none ∨ ∀ r ∈ e.2.rounds, s.nld.roundOpen m r = false) →
      NldDoes (.digest m) s fun n =>
        n.get NReg.VOTE_LATE_count = min (s.nld.get NReg.VOTE_LATE_count + 1) NReg.VOTE_LATE_count.max ∧
        n.bit NReg.VOTE_EVT_late = true ∧ Nld.only [.regs, .hwErr] s.nld n) ∧
    (∀ (key i : Nat) (v : VoteSlot), Tbl.find? key s.nld.defence.votes = some v →
      (∀ w, (key, w) ∈ s.nld.defence.votes → w = v) → v.replica m = some i → (∃ r ∈ v.rounds, s.nld.roundOpen m r = true) →
      NldDoes (.digest m) s fun n =>
        Tbl.find? key n.defence.votes = some { v with rounds := v.rounds.map (fun x =>
          if x.epoch = m.epoch.toNat ∧ (Tbl.find? i x.got).isNone = true
          then { x with got := Tbl.insert i (voteEntry i m) x.got } else x) } ∧
        n.defence.tallies = s.nld.defence.tallies ∧ Nld.only [.group, .defence] s.nld n)) ∧
  (∀ (s : State) (m : PatternResultMsg), s.nld.runs →
    ((∃ e ∈ s.nld.defence.tallies, e.2.patternId = m.patternId.toNat ∧
        s.nld.now < s.nld.tickAt e.2.tick + s.nld.get NReg.TICK_L_offset_us * 1000) → NldDoes (.patternResult m) s fun n =>
      n.get NReg.PAT_ACCEPT_count = min (s.nld.get NReg.PAT_ACCEPT_count + 1) NReg.PAT_ACCEPT_count.max ∧
      (∀ e ∈ s.nld.defence.tallies, e.2.patternId = m.patternId.toNat →
        s.nld.now < s.nld.tickAt e.2.tick + s.nld.get NReg.TICK_L_offset_us * 1000 →
        (e.1, e.2.add m.status.toNat m.digest.toNat) ∈ n.defence.tallies) ∧
      n.defence.votes = s.nld.defence.votes ∧ Nld.only [.regs, .defence] s.nld n) ∧
    ((∀ e ∈ s.nld.defence.tallies, e.2.patternId ≠ m.patternId.toNat ∨
        s.nld.tickAt e.2.tick + s.nld.get NReg.TICK_L_offset_us * 1000 ≤ s.nld.now) → NldDoes (.patternResult m) s fun n =>
      n.get NReg.PAT_LATE_count = min (s.nld.get NReg.PAT_LATE_count + 1) NReg.PAT_LATE_count.max ∧
      n.bit NReg.VOTE_EVT_late = true ∧ n.defence = s.nld.defence ∧ Nld.only [.regs, .hwErr] s.nld n))

/-- PARTIALs (R465, R469, R478, R483): a damaged one is counted and discarded; a tray forwards its child's on both parent ports; a root
counts each of its trays once for a tick and notes what it brought.

SEALs on their way down (R474, R475): a new one is remembered and goes to every child; a second copy is discarded; one that has
not come by its deadline is reported. A root waits for none. -/
def Obligations.PartialsAndSeals : Prop :=
  (∀ (s : State) (b : List Byte), s.nld.runs →
    (∀ p : Fin 8, partialShape b = false → NldDoes (.partialMsg (.horn p) b) s fun n =>
      n.get NReg.HORNp_MSGDROP_count p.val =
        min (s.nld.get NReg.HORNp_MSGDROP_count p.val + 1) NReg.HORNp_MSGDROP_count.max ∧
      Nld.only [.regs] s.nld n ∧ Nld.regsOnly [(NReg.HORNp_MSGDROP_count, p.val)] s.nld n) ∧
    (∀ p : Fin 8, partialShape b = true → s.nld.isRoot = false →
      (s.nld.hornRole p.val = 3 → trailerOk b = true → fieldAt b 20 4 = s.nld.profile →
        s.nld.now < s.nld.boundary (fieldAt b 14 6) + s.nld.get NReg.TICK_G_offset_us * 1000 →
        NldDoes (.partialMsg (.horn p) b) s fun n =>
          (∀ q < 8, (s.nld.hornRole q = 1 ∨ s.nld.hornRole q = 2) → (n.horn q).link.waits (.horn b)) ∧
          Nld.only [.group] s.nld n) ∧
      (s.nld.hornRole p.val ≠ 3 → NldDoes (.partialMsg (.horn p) b) s fun n => Nld.only [] s.nld n)) ∧
    (∀ site : Site, partialShape b = true → s.nld.isRoot = true →
      (trailerOk b = false → NldDoes (.partialMsg site b) s fun n =>
        n.get NReg.RED_PCRC_count = min (s.nld.get NReg.RED_PCRC_count + 1) NReg.RED_PCRC_count.max ∧
        n.group = s.nld.group ∧ Nld.only [.regs, .hwErr, .rdma] s.nld n) ∧
      (trailerOk b = true → fieldAt b 20 4 = s.nld.profile → hornOrigin b / 32 = s.nld.groupNo →
        bitOf (s.nld.get NReg.GRP_TRAYS_trays) (hornOrigin b % 32) = true →
        (((s.nld.rdv (sealObject 2 (fieldAt b 14 6))).arrive s.nld.now (fieldAt b 14 6) (hornOrigin b % 32)).2 = .counted →
          NldDoes (.partialMsg site b) s fun n =>
            Tbl.find? (hornOrigin b % 32) (n.groupTick (fieldAt b 14 6)).trays =
              some ((b.drop 26).take 8 ++ (b.drop 64).take 128) ∧
            n.rdv (sealObject 2 (fieldAt b 14 6)) =
              ((s.nld.rdv (sealObject 2 (fieldAt b 14 6))).arrive s.nld.now (fieldAt b 14 6) (hornOrigin b % 32)).1 ∧
            Nld.only [.regs, .hwErr, .host, .group, .verdict, .rdma] s.nld n) ∧
        (((s.nld.rdv (sealObject 2 (fieldAt b 14 6))).arrive s.nld.now (fieldAt b 14 6) (hornOrigin b % 32)).2 = .duplicate →
          NldDoes (.partialMsg site b) s fun n =>
            n.get NReg.RED_PDUP_count = min (s.nld.get NReg.RED_PDUP_count + 1) NReg.RED_PDUP_count.max ∧
            n.group.groups = s.nld.group.groups ∧ Nld.only [.regs, .hwErr, .group, .rdma] s.nld n)))) ∧
  (∀ (s : State) (p : Fin 8) (b : List Byte), s.nld.runs →
    (fieldAt b 0 1 ≠ 0x12 → NldDoes (.sealMsg p b) s fun n =>
      n.get NReg.HORNp_MSGDROP_count p.val =
        min (s.nld.get NReg.HORNp_MSGDROP_count p.val + 1) NReg.HORNp_MSGDROP_count.max ∧
      Nld.only [.regs] s.nld n ∧ Nld.regsOnly [(NReg.HORNp_MSGDROP_count, p.val)] s.nld n) ∧
    (fieldAt b 0 1 = 0x12 → fieldAt b 8 2 = 0x534C → fieldAt b 10 1 = 1 → trailerOk b = true →
      fieldAt b 22 4 = s.nld.profile →
      (s.nld.sealKnown (fieldAt b 11 1) (fieldAt b 16 6) (sealProgram (fieldAt b 11 1) ((b.take (b.length - 4)).drop 64)) = true →
        NldDoes (.sealMsg p b) s fun n => Nld.only [] s.nld n) ∧
      (s.nld.sealKnown (fieldAt b 11 1) (fieldAt b 16 6) (sealProgram (fieldAt b 11 1) ((b.take (b.length - 4)).drop 64)) = false →
        NldDoes (.sealMsg p b) s fun n =>
          n.sealKnown (fieldAt b 11 1) (fieldAt b 16 6) (sealProgram (fieldAt b 11 1) ((b.take (b.length - 4)).drop 64)) = true ∧
          (∀ q < 8, s.nld.hornRole q = 3 → (n.horn q).link.waits (.horn b)) ∧
          Nld.only [.regs, .hwErr, .host, .group] s.nld n))) ∧
  (∀ (s : State) (kind : Fin 3) (t : BitVec 48) (owner : Fin 17) (image : BitVec 64), s.nld.runs →
    (s.nld.roleAt t.toNat ≠ 0 → NldDoes (.sealMissingTimeout kind t owner image) s fun n => Nld.only [] s.nld n) ∧
    (s.nld.roleAt t.toNat = 0 → kind.val < 2 → s.nld.sealKnown kind.val t.toNat 0 = false →
      NldDoes (.sealMissingTimeout kind t owner image) s fun n =>
        n.sealKnown kind.val t.toNat 0 = true ∧ n.bit NReg.RED_EVT_seal_missing = true ∧
        Nld.only [.regs, .hwErr, .host, .group] s.nld n) ∧
    (s.nld.roleAt t.toNat = 0 → ∀ p, kind.val = 2 → s.nld.program owner.val image.toNat = some p → p.fleetStage = true →
      p.serves t.toNat = true → s.nld.sealKnown 2 t.toNat (owner.val * 2 ^ 64 + image.toNat) = false →
      NldDoes (.sealMissingTimeout kind t owner image) s fun n =>
        n.sealKnown 2 t.toNat (owner.val * 2 ^ 64 + image.toNat) = true ∧ n.bit NReg.RED_EVT_seal_missing = true ∧
        Nld.only [.regs, .hwErr, .host, .group] s.nld n))

/-- Summaries between the roots and rendezvous objects (R477, R486, R488): a group's summary is kept once for a tick; the acting root
offers its full summary to every root of another group; an armed object ends at its deadline. -/
def Obligations.SummariesAndRendezvous : Prop :=
  (∀ (s : State) (site : Site) (b : List Byte), s.nld.runs →
    (s.nld.isRoot = false → NldDoes (.groupSummary site b) s fun n =>
      n.group = s.nld.group ∧ Nld.only [.regs, .hwErr, .rdma] s.nld n) ∧
    (s.nld.isRoot = true → fieldAt b 0 1 = 0x14 → fieldAt b 8 2 = 0x4753 → fieldAt b 10 1 = 1 →
      (trailerOk b = false → NldDoes (.groupSummary site b) s fun n =>
        n.get NReg.RED_GCRC_count = min (s.nld.get NReg.RED_GCRC_count + 1) NReg.RED_GCRC_count.max ∧
        n.group = s.nld.group ∧ Nld.only [.regs, .hwErr, .rdma] s.nld n) ∧
      (trailerOk b = true → fieldAt b 20 4 = s.nld.profile → bitOf s.nld.groups (fieldAt b 11 1 % 64) = true →
        ((s.nld.rdv (sealObject 3 (fieldAt b 14 6))).arrive s.nld.now (fieldAt b 14 6) (fieldAt b 11 1 % 64)).2 = .counted →
        NldDoes (.groupSummary site b) s fun n =>
          Tbl.find? (fieldAt b 11 1 % 64) (n.fleetTick (fieldAt b 14 6)).groups = some b ∧
          n.group.groups = s.nld.group.groups ∧ Nld.only [.regs, .hwErr, .host, .group, .rdma] s.nld n))) ∧
  (∀ s : State, s.nld.runs →
    (s.nld.get NReg.GRP_CFG_role ≠ 1 → NldDoes .fullSummarySend s fun n => Nld.only [] s.nld n) ∧
    (s.nld.get NReg.GRP_CFG_role = 1 → NldDoes .fullSummarySend s fun n =>
      (∀ sl ∈ s.nld.peerSlots, sl / 2 ≠ s.nld.get NReg.GRP_CFG_name / 32 → (s.nld.qp (2 * sl + 1)).state = 3 →
        (s.nld.qp (2 * sl + 1)).sendQ.length < 256 →
        ∃ m, (n.qp (2 * sl + 1)).sendQ = (s.nld.qp (2 * sl + 1)).sendQ ++ [m] ∧ m.bytes.getD 0 0 = 0x15) ∧
      (∀ q, q % 2 = 0 ∨ q / 4 = s.nld.get NReg.GRP_CFG_name / 32 → n.qp q = s.nld.qp q) ∧ Nld.only [.rdma] s.nld n)) ∧
  (∀ (s : State) (site : Site) (gt : BitVec 11) (tick : BitVec 48) (check : Word) (decls : List OutDecl), s.nld.runs →
    (s.nld.isRoot = false → NldDoes (.fullSummary site gt tick check decls) s fun n =>
      n.verdict = s.nld.verdict ∧ Nld.only [.regs, .hwErr, .rdma] s.nld n) ∧
    (s.nld.isRoot = true → sameSet (decls.map declOf) s.nld.declarations = false →
      NldDoes (.fullSummary site gt tick check decls) s fun n =>
        n.bit NReg.RED_EVT_decl_mismatch = true ∧ Nld.only [.regs, .hwErr, .host, .verdict, .rdma] s.nld n) ∧
    (s.nld.isRoot = true → sameSet (decls.map declOf) s.nld.declarations = true →
      (∀ l, Tbl.find? tick.toNat s.nld.group.memberCheck = some l → membershipCheck l = check.toNat) →
      NldDoes (.fullSummary site gt tick check decls) s fun n =>
        n.bit NReg.RED_EVT_decl_mismatch = s.nld.bit NReg.RED_EVT_decl_mismatch ∧ Nld.only [.regs, .hwErr, .rdma] s.nld n)) ∧
  (∀ (s : State) (k : Fin 16384), s.nld.runs →
    ((s.nld.rdv k.val).state = 1 → (s.nld.rdv k.val).deadline ≤ s.nld.now → NldDoes (.rdvDeadline k) s fun n =>
      n.rdv k.val = { s.nld.rdv k.val with state := 3, doneAt := s.nld.now } ∧
      Nld.only [.host, .group] s.nld n) ∧
    ((s.nld.rdv k.val).state ≠ 1 ∨ s.nld.now < (s.nld.rdv k.val).deadline → NldDoes (.rdvDeadline k) s fun n =>
      Nld.only [] s.nld n))

/-- Corroboration (R501, R503, R504): a query takes a new number and goes out with the die's identifier; a reply must repeat both, and
one for a state that has been left is stale; statuses 0 and 1 show a telemetry-blind die, 2 and 3 a dead one.

What else moves a position's state (R501, R502, R504, R529): a witness of a die that is Live is a conflict; corr_ms after it became
Suspect a position is Unresolved; a clear takes it back to Live. -/
def Obligations.Liveness : Prop :=
  (∀ (s : State) (pos : Fin 512),
    (s.nld.runs → s.nld.fwRuns = true → (s.nld.liveOf pos.val).state ∈ [LiveState.suspect, .unresolved, .blind] →
      NldDoes (.corroborationQuery pos) s fun n =>
        n.verdict.lastQuery = s.nld.verdict.lastQuery % (2 ^ 32 - 1) + 1 ∧
        n.liveOf pos.val = { s.nld.liveOf pos.val with query := some (n.verdict.lastQuery, (s.nld.liveOf pos.val).state) } ∧
        n.get NReg.LIVE_QUERIES_count = min (s.nld.get NReg.LIVE_QUERIES_count + 1) NReg.LIVE_QUERIES_count.max ∧
        s.nld.emits n (.mgmt (corrBytes 1 n.verdict.lastQuery (s.nld.entryOf pos.val).uid (s.nld.posAddr pos.val) 0)) ∧
        Nld.only [.regs, .verdict] s.nld n) ∧
    (s.nld.runs → (s.nld.liveOf pos.val).state = .live ∨ (s.nld.liveOf pos.val).state = .dead →
      NldDoes (.corroborationQuery pos) s fun n => Nld.only [] s.nld n) ∧
    (s.nld.writable → NldDoes (.liveQuery pos) s fun n =>
      (n.liveOf pos.val).query = some (n.verdict.lastQuery, (s.nld.liveOf pos.val).state) ∧
      s.nld.emits n (.mgmt (corrBytes 1 n.verdict.lastQuery (s.nld.entryOf pos.val).uid (s.nld.posAddr pos.val) 0)) ∧
      Nld.only [.regs, .verdict] s.nld n)) ∧
  (∀ (s : State) (b : List Byte), s.nld.runs →
    (s.nld.corrPosition b = none → NldDoes (.corroborationReply b) s fun n =>
      n.get NReg.LIVE_BADMSG_count = min (s.nld.get NReg.LIVE_BADMSG_count + 1) NReg.LIVE_BADMSG_count.max ∧
      Nld.only [.regs] s.nld n ∧ Nld.regsOnly [(NReg.LIVE_BADMSG_count, 0)] s.nld n) ∧
    (∀ (pos id : Nat) (st : LiveState), s.nld.corrPosition b = some pos → (s.nld.liveOf pos).query = some (id, st) →
      corrGood 2 b = true → fieldAt b 4 4 = id →
      ((s.nld.liveOf pos).state ≠ st → NldDoes (.corroborationReply b) s fun n =>
        n.get NReg.LIVE_STALE_count = min (s.nld.get NReg.LIVE_STALE_count + 1) NReg.LIVE_STALE_count.max ∧
        Nld.only [.regs] s.nld n ∧ Nld.regsOnly [(NReg.LIVE_STALE_count, 0)] s.nld n) ∧
      ((s.nld.liveOf pos).state = st → st = .suspect ∨ st = .unresolved → fieldAt b 20 1 < 2 →
        NldDoes (.corroborationReply b) s fun n =>
          (n.liveOf pos).state = .blind ∧ n.bit NReg.LIVE_EVT_blind = true ∧ n.tick.members = s.nld.tick.members ∧
          Nld.only [.regs, .hwErr, .host, .verdict, .recorder] s.nld n) ∧
      ((s.nld.liveOf pos).state = st → st = .suspect ∨ st = .unresolved ∨ st = .blind →
        fieldAt b 20 1 = 2 ∨ fieldAt b 20 1 = 3 → NldDoes (.corroborationReply b) s fun n =>
          (n.liveOf pos).state = .dead ∧
          n.get NReg.LIVE_DEADS_count = min (s.nld.get NReg.LIVE_DEADS_count + 1) NReg.LIVE_DEADS_count.max ∧
          n.tick.members = s.nld.tick.members.filter (fun x => x ≠ pos) ∧
          Nld.only [.regs, .hwErr, .tick, .chains, .host, .group, .verdict, .recorder, .rdma] s.nld n))) ∧
  (∀ (s : State) (b : List Byte) (pos : Nat), s.nld.runs → s.nld.corrPosition b = some pos →
    (corrGood 3 b = false → NldDoes (.witnessReport b) s fun n =>
      n.get NReg.LIVE_BADMSG_count = min (s.nld.get NReg.LIVE_BADMSG_count + 1) NReg.LIVE_BADMSG_count.max ∧
      Nld.only [.regs] s.nld n ∧ Nld.regsOnly [(NReg.LIVE_BADMSG_count, 0)] s.nld n) ∧
    (corrGood 3 b = true → (s.nld.liveOf pos).state = .live → fieldAt b 20 1 = 2 ∨ fieldAt b 20 1 = 3 →
      NldDoes (.witnessReport b) s fun n =>
        n.bit NReg.LIVE_EVT_witness_conflict = true ∧ n.verdict = s.nld.verdict ∧
        Nld.only [.regs, .hwErr, .host] s.nld n) ∧
    (corrGood 3 b = true → (s.nld.liveOf pos).state = .suspect ∨ (s.nld.liveOf pos).state = .unresolved →
      fieldAt b 20 1 < 2 → NldDoes (.witnessReport b) s fun n =>
        (n.liveOf pos).state = .blind ∧ Nld.only [.regs, .hwErr, .host, .verdict, .recorder] s.nld n)) ∧
  (∀ (s : State) (pos : Fin 512), s.nld.runs →
    ((s.nld.liveOf pos.val).state = .suspect → NldDoes (.corroborationTimeout pos) s fun n =>
      n.liveOf pos.val = { s.nld.liveOf pos.val with state := .unresolved } ∧ n.bit NReg.LIVE_EVT_unresolved = true ∧
      n.get NReg.LIVE_QTIMEOUT_count = min (s.nld.get NReg.LIVE_QTIMEOUT_count + 1) NReg.LIVE_QTIMEOUT_count.max ∧
      (∀ q, q ≠ pos.val → n.liveOf q = s.nld.liveOf q) ∧ n.verdict.jobs = s.nld.verdict.jobs ∧
      Nld.only [.regs, .hwErr, .host, .verdict, .recorder] s.nld n) ∧
    ((s.nld.liveOf pos.val).state ≠ .suspect → NldDoes (.corroborationTimeout pos) s fun n => Nld.only [] s.nld n)) ∧
  (∀ (s : State) (pos : Fin 512), s.nld.writable → NldDoes (.liveClear pos) s fun n =>
    n.liveOf pos.val = { s.nld.liveOf pos.val with state := .live, returned := false } ∧
    (∀ q, q ≠ pos.val → n.liveOf q = s.nld.liveOf q) ∧ n.verdict.jobs = s.nld.verdict.jobs ∧
    Nld.only [.regs, .hwErr, .host, .verdict, .recorder] s.nld n)

/-- Owner maps, the position table, contexts and codec tables (R265, R350, R353, R361, R376): what is staged is armed, committed or
applied, and what may not be is refused. -/
def Obligations.SeriesAndTables : Prop :=
  (∀ (s : State) (pos : Fin 512), s.nld.writable → NldDoes (.ownMapArm pos) s fun n =>
    n.ownMap pos.val = { s.nld.ownMap pos.val with armedAt := some s.nld.elapsed } ∧
    (∀ q, q ≠ pos.val → n.ownMap q = s.nld.ownMap q) ∧ Nld.only [.own] s.nld n) ∧
  (∀ s : State, s.nld.writable →
    (s.nld.positionsOk = true → NldDoes .positionTableCommit s fun n =>
      n.series = { s.nld.series with committed := some s.nld.series.staged } ∧ Nld.only [.series] s.nld n) ∧
    (s.nld.positionsOk = false → NldDoes .positionTableCommit s fun n =>
      n.bit NReg.SER_EVT_alloc_refused = true ∧ Nld.only [.regs, .hwErr] s.nld n)) ∧
  (∀ (s : State) (c : BitVec 18) (bp : BitVec 7) (k : BitVec 4), s.nld.writable →
    (bp.toNat ≤ 96 → NldDoes (.ctxCfgApply c bp k) s fun n =>
      n.series = { s.nld.series with
        cfgs := s.nld.series.cfgs.filter (fun e => e.1 ≠ c.toNat) ++ [(c.toNat, bp.toNat, k.toNat)] } ∧
      Nld.only [.series] s.nld n) ∧
    (96 < bp.toNat → NldDoes (.ctxCfgApply c bp k) s fun n => Nld.only [] s.nld n) ∧
    NldDoes (.ctxEpochStart c) s (fun n =>
      n.series = { s.nld.series with
        epochs := s.nld.series.epochs ++ [(c.toNat, (s.nld.tick.newestSealed.map (· + 1)).getD 0)] } ∧
      Nld.only [.series] s.nld n)) ∧
  (∀ (s : State) (t : Fin 16) (gen : BitVec 16), s.nld.writable →
    (2 ≤ t.val → gen ≠ 0 → tableValid s.nld.stagedLens = true → NldDoes (.codecTableCommit t gen) s fun n =>
      n.codeLens t.val gen.toNat = some s.nld.stagedLens ∧
      (∀ u g, u ≠ t.val → n.codeLens u g = s.nld.codeLens u g) ∧ Nld.only [.tables] s.nld n) ∧
    (t.val < 2 ∨ gen = 0 ∨ tableValid s.nld.stagedLens = false → NldDoes (.codecTableCommit t gen) s fun n =>
      n.bit NReg.CODEC_DECSTAT_tbl_refused = true ∧ n.tables = s.nld.tables ∧ Nld.only [.regs, .hwErr] s.nld n))

/-- Horn links (R456, R458 to R461, R493): the ENUM is kept while the link trains and names the peer; with it exchanged the link comes
up; flits, timeouts, reset and retrain move the link layer as on Fife, with 16-bit numbers. -/
def Obligations.HornLinks : Prop :=
  ∀ (s : State) (p : Fin 8), s.nld.runs →
    (∀ (o : BitVec 11) (e r : BitVec 8) (res : Bool) (nx : BitVec 16) (pf : BitVec 32),
      ((s.nld.horn p.val).link.state = .training ∨ (s.nld.horn p.val).link.state = .retrain →
        NldDoes (.hornEnum p o e r res nx pf) s fun n =>
          (n.horn p.val).gotEnum = true ∧ (n.horn p.val).peerNext = nx.toNat ∧ (n.horn p.val).peerResume = res ∧
          (n.horn p.val).link = (s.nld.horn p.val).link ∧ n.get NReg.HORNp_STATUS_peer p.val = o.toNat ∧
          (n.bit NReg.HORNp_STATUS_peer_ok p.val = true ↔ o.toNat = s.nld.get NReg.HORNp_PEER_expected p.val) ∧
          (o.toNat ≠ s.nld.get NReg.HORNp_PEER_expected p.val → n.bit NReg.HORNp_EVT_peer_mismatch p.val = true) ∧
          Nld.only [.regs, .hwErr, .group] s.nld n) ∧
      ((s.nld.horn p.val).link.state ≠ .training → (s.nld.horn p.val).link.state ≠ .retrain →
        NldDoes (.hornEnum p o e r res nx pf) s fun n => Nld.only [] s.nld n)) ∧
    ((s.nld.horn p.val).gotEnum = true → s.nld.bit NReg.HORNp_STATUS_peer_ok p.val = true →
      ((s.nld.horn p.val).link.state = .training → NldDoes (.hornLinkUp p) s fun n =>
        (n.horn p.val).link = { (s.nld.horn p.val).link with state := .active } ∧ (n.horn p.val).gotEnum = false ∧
        Nld.only [.regs, .hwErr, .group] s.nld n) ∧
      (∀ i, (s.nld.horn p.val).link.state = .retrain → (s.nld.horn p.val).peerResume = true →
        (s.nld.horn p.val).link.replay.findIdx? (fun f => f.seq = (s.nld.horn p.val).peerNext) = some i →
        NldDoes (.hornLinkUp p) s fun n =>
          (n.horn p.val).link.state = .active ∧ (n.horn p.val).link.resend = (s.nld.horn p.val).link.replay.drop i ∧
          (n.horn p.val).link.txSeq = (s.nld.horn p.val).link.txSeq ∧ Nld.only [.regs, .hwErr, .group] s.nld n) ∧
      ((s.nld.horn p.val).link.state = .retrain → (s.nld.horn p.val).peerResume = false → NldDoes (.hornLinkUp p) s fun n =>
        (n.horn p.val).link.state = .reset ∧ (n.horn p.val).link.anew ∧ Nld.only [.regs, .hwErr, .group] s.nld n)) ∧
    ((s.nld.horn p.val).gotEnum = false ∨ s.nld.bit NReg.HORNp_STATUS_peer_ok p.val = false →
      NldDoes (.hornLinkUp p) s fun n => Nld.only [] s.nld n) ∧
    (∀ (f : Flit) (corrected bad : Nat), (s.nld.horn p.val).link.carries = true →
      (f.crcOk = true → f.stomped = false → f.ftype = 0 → f.nak = false →
        seqPlace 65536 (s.nld.horn p.val).link.rxExp f.seq.toNat = 0 → NldDoes (.hornFlitReceive p f corrected bad) s fun n =>
          (n.horn p.val).link.rxExp = ((s.nld.horn p.val).link.rxExp + 1) % 65536 ∧ (n.horn p.val).link.ackDue = true ∧
          (corrected ≠ 0 → n.get NReg.HORNp_FECCORR_count p.val =
            min (s.nld.get NReg.HORNp_FECCORR_count p.val + corrected) NReg.HORNp_FECCORR_count.max) ∧
          (bad ≠ 0 → n.bit NReg.HORNp_EVT_fec_unc p.val = true) ∧ Nld.only [.regs, .hwErr, .group] s.nld n) ∧
      (f.crcOk = false ∨ f.stomped = true → NldDoes (.hornFlitReceive p f corrected bad) s fun n =>
        (n.horn p.val).link.nakOut = true ∧ (s.nld.horn p.val).link.sameLayer (n.horn p.val).link ∧
        n.get NReg.HORNp_CRCERR_count p.val =
          min (s.nld.get NReg.HORNp_CRCERR_count p.val + 1) NReg.HORNp_CRCERR_count.max ∧
        Nld.only [.regs, .hwErr, .group] s.nld n)) ∧
    ((s.nld.horn p.val).link.carries = true → (s.nld.horn p.val).link.replay ≠ [] →
      ((s.nld.horn p.val).link.episode = none → LinkDoes (.hornAckTimeout p) s (.nldHorn p) fun e =>
        e.state = .retry ∧ e.resend = (s.nld.horn p.val).link.replay ∧ (s.nld.horn p.val).link.sameLayer e) ∧
      (∀ q k, (s.nld.horn p.val).link.episode = some (q, k) → 8 ≤ k → LinkDoes (.hornAckTimeout p) s (.nldHorn p) fun e =>
        e.state = .retrain ∧ (s.nld.horn p.val).link.sameLayer e)) ∧
    ((s.nld.horn p.val).link.state = .retry → (s.nld.horn p.val).link.episode ≠ none →
      LinkDoes (.hornRetryTimeout p) s (.nldHorn p) fun e => e.state = .retrain ∧ (s.nld.horn p.val).link.sameLayer e) ∧
    ((s.nld.horn p.val).link.state = .retrain →
      LinkDoes (.hornRetrainTimeout p) s (.nldHorn p) fun e => e.state = .reset ∧ e.anew) ∧
    (s.nld.writable → (s.nld.horn p.val).link.state ≠ .off → (s.nld.horn p.val).link.state ≠ .down →
      LinkDoes (.hornReset p) s (.nldHorn p) fun e => e.state = .reset ∧ e.anew) ∧
    (s.nld.writable → (s.nld.horn p.val).link.carries = true →
      LinkDoes (.hornRetrain p) s (.nldHorn p) fun e => e.state = .retrain ∧ (s.nld.horn p.val).link.sameLayer e)

/-- Received CNPs (R596): counted, and nothing else moves. -/
def Obligations.CnpsChangeNoRate : Prop :=
  ∀ (s : State) (e : Fin 2) (qpn : BitVec 24), s.nld.runs → s.nld.ethUp e.val = true → 0x1000 ≤ qpn.toNat →
    qpn.toNat - 0x1000 < 4096 → (s.nld.qp (qpn.toNat - 0x1000)).state = 2 ∨ (s.nld.qp (qpn.toNat - 0x1000)).state = 3 →
    NldDoes (.rocePacketReceive e qpn .cnp) s fun n =>
      n.get NReg.RDMA_CNPRX_count = min (s.nld.get NReg.RDMA_CNPRX_count + 1) NReg.RDMA_CNPRX_count.max ∧
      n.rdma.shapers = s.nld.rdma.shapers ∧ Nld.only [.regs] s.nld n ∧
      Nld.regsOnly [(NReg.RDMA_CNPRX_count, 0)] s.nld n

/-- Packets (R593, R594, R595, R601, R604, R606, R614, R616): what a port that is down, an absent queue pair, an acknowledgement, an
unprotected and an expected packet do; and what leaves a port. -/
def Obligations.RocePackets : Prop :=
  (∀ (s : State) (e : Fin 2) (qpn : BitVec 24) (pk : RocePkt), s.nld.runs →
    (s.nld.ethUp e.val = false → NldDoes (.rocePacketReceive e qpn pk) s fun n => Nld.only [] s.nld n) ∧
    (s.nld.ethUp e.val = true → qpn.toNat < 0x1000 ∨ 0x2000 ≤ qpn.toNat → NldDoes (.rocePacketReceive e qpn pk) s fun n =>
      n.get NReg.RDMA_INVREQ_count = min (s.nld.get NReg.RDMA_INVREQ_count + 1) NReg.RDMA_INVREQ_count.max ∧
      Nld.only [.regs] s.nld n ∧ Nld.regsOnly [(NReg.RDMA_INVREQ_count, 0)] s.nld n)) ∧
  (∀ (s : State) (e : Fin 2) (q : Fin 4096), s.nld.runs → s.nld.ethUp e.val = true →
    (s.nld.qp q.val).state = 2 ∨ (s.nld.qp q.val).state = 3 →
    (∀ psn : BitVec 24, NldDoes (.rocePacketReceive e (BitVec.ofNat 24 (0x1000 + q.val)) (.ack psn)) s fun n =>
      n.qp q.val = (s.nld.qp q.val).acked psn.toNat ∧ (∀ r, r ≠ q.val → n.qp r = s.nld.qp r) ∧ Nld.only [.rdma] s.nld n) ∧
    (∀ p : SendPkt, p.ce = false → p.sealed = false → (s.nld.qp q.val).keyed = true →
      NldDoes (.rocePacketReceive e (BitVec.ofNat 24 (0x1000 + q.val)) (.send p)) s fun n =>
        n.get NReg.RDMA_PLAINDROP_count = min (s.nld.get NReg.RDMA_PLAINDROP_count + 1) NReg.RDMA_PLAINDROP_count.max ∧
        Nld.only [.regs] s.nld n ∧ Nld.regsOnly [(NReg.RDMA_PLAINDROP_count, 0)] s.nld n) ∧
    (∀ p : SendPkt, p.ce = false → p.sealed = true → p.tagOk = true → (s.nld.qp q.val).keyed = true →
      (s.nld.qp q.val).keys ≠ [] → psnDiff p.psn.toNat (s.nld.qp q.val).epsn = 0 → p.first = true → p.last = true →
      (∃ b ∈ p.bytes.head?, b.toNat ≠ 0x20 ∧ b.toNat ≠ 0x21) → (s.nld.qp q.val).part = none → qpClass q.val = 0 →
      p.bytes.length ≤ 256 →
      (0 < (s.nld.qp q.val).ownFree →
        NldDoes (.rocePacketReceive e (BitVec.ofNat 24 (0x1000 + q.val)) (.send p)) s fun n =>
          (n.qp q.val).epsn = psnNext (s.nld.qp q.val).epsn ∧ (n.qp q.val).ownFree = (s.nld.qp q.val).ownFree - 1 ∧
          (n.qp q.val).ctl = (s.nld.qp q.val).ctl ++ [.ack (s.nld.qp q.val).epsn] ∧ (n.qp q.val).part = none ∧
          (∀ r, r ≠ q.val → n.qp r = s.nld.qp r) ∧ Nld.only [.rdma] s.nld n) ∧
      ((s.nld.qp q.val).ownFree = 0 →
        NldDoes (.rocePacketReceive e (BitVec.ofNat 24 (0x1000 + q.val)) (.send p)) s fun n =>
          (n.qp q.val).epsn = (s.nld.qp q.val).epsn ∧
          (n.qp q.val).ctl = (s.nld.qp q.val).ctl ++ [.rnrNak p.psn.toNat (s.nld.qp q.val).minRnr] ∧
          n.get NReg.RDMA_RNRSENT_count = min (s.nld.get NReg.RDMA_RNRSENT_count + 1) NReg.RDMA_RNRSENT_count.max ∧
          Nld.only [.regs, .rdma] s.nld n))) ∧
  (∀ (s : State) (e : Fin 2), s.nld.runs →
    (s.nld.ethUp e.val = false → NldDoes (.packetTransmit e) s fun n => Nld.only [] s.nld n) ∧
    (s.nld.ethUp e.val = true →
      (∀ (q : Nat) (x : Qp) (c : QpCtl) (rest : List QpCtl), List.find? (fun (t : Nat × Qp) =>
          !t.2.ctl.isEmpty && s.nld.portOf t.2 == some e.val) s.nld.rdma.qps = some (q, x) →
        x.ctl = c :: rest → NldDoes (.packetTransmit e) s fun n =>
          n.qp q = { x with ctl := rest } ∧ (∀ r, r ≠ q → n.qp r = s.nld.qp r) ∧ n.rdma.shapers = s.nld.rdma.shapers ∧
          Nld.only [.rdma] s.nld n) ∧
      (∀ q rr p, s.nld.sendCtl e.val = none →
        arbitrate 4096 (fun q => 3 - qpClass q) (fun q => (s.nld.nextPkt q).any (fun p =>
          s.nld.portOf (s.nld.qp q) == some e.val && s.nld.mayStart e.val q p)) (s.nld.portRr e.val) = some (q, rr) →
        s.nld.nextPkt q = some p →
        (s.nld.sourceOk q = true → NldDoes (.packetTransmit e) s fun n =>
          s.nld.emits n (.roce e.val q p.psn (sendOpcode p) p.imm ((s.nld.qp q).sealed p)) ∧
          ((s.nld.qp q).again = 0 → n.qp q = ((s.nld.qp q).sent p).dropOld) ∧
          (∀ r, r ≠ q → n.qp r = s.nld.qp r) ∧ Nld.only [.regs, .rdma] s.nld n) ∧
        (s.nld.sourceOk q = false → (s.nld.qp q).state ≠ 0 → (s.nld.qp q).state ≠ 4 → NldDoes (.packetTransmit e) s fun n =>
          (n.qp q).state = 4 ∧ (n.qp q).cause = 4 ∧ n.bit NReg.RDMA_EVT_qp_error = true ∧
          Nld.only [.regs, .hwErr, .rdma] s.nld n))))

/-- Timers, ports and shapers of the transport (R595, R602, R607, R611, R612, R616): what is not acknowledged is sent again until the
retries end; a stopped queue pair goes on after its timer; every shaper refills. -/
def Obligations.TransportTimers : Prop :=
  (∀ (s : State) (q : Fin 4096), s.nld.runs →
    ((s.nld.qp q.val).state = 2 ∨ (s.nld.qp q.val).state = 3 → (s.nld.qp q.val).rnrWait = false →
      (s.nld.qp q.val).unacked ≠ [] →
      ((s.nld.qp q.val).retries < (s.nld.qp q.val).retryCnt → NldDoes (.qpAckTimeout q) s fun n =>
        n.qp q.val = { s.nld.qp q.val with
          retries := (s.nld.qp q.val).retries + 1, again := (s.nld.qp q.val).unacked.length } ∧ Nld.only [.rdma] s.nld n) ∧
      ((s.nld.qp q.val).retryCnt ≤ (s.nld.qp q.val).retries → NldDoes (.qpAckTimeout q) s fun n =>
        (n.qp q.val).state = 4 ∧ (n.qp q.val).cause = 1 ∧ (n.qp q.val).sendQ = [] ∧
        n.bit NReg.RDMA_EVT_qp_error = true ∧ Nld.only [.regs, .hwErr, .rdma] s.nld n)) ∧
    ((s.nld.qp q.val).unacked = [] → NldDoes (.qpAckTimeout q) s fun n => Nld.only [] s.nld n) ∧
    ((s.nld.qp q.val).rnrWait = true → NldDoes (.rnrTimer q) s fun n =>
      n.qp q.val = { s.nld.qp q.val with rnrWait := false, again := (s.nld.qp q.val).unacked.length } ∧
      Nld.only [.rdma] s.nld n) ∧
    ((s.nld.qp q.val).rnrWait = false → NldDoes (.rnrTimer q) s fun n => Nld.only [] s.nld n) ∧
    ((s.nld.qp q.val).keying = none → NldDoes (.keyingTimeout q) s fun n => Nld.only [] s.nld n) ∧
    (∀ g, (s.nld.qp q.val).keying = some g → (s.nld.qp q.val).state ≠ 0 → (s.nld.qp q.val).state ≠ 4 →
      NldDoes (.keyingTimeout q) s fun n =>
        (n.qp q.val).state = 4 ∧ (n.qp q.val).cause = 6 ∧ (n.qp q.val).keying = none ∧
        n.bit NReg.RDMA_EVT_qp_error = true ∧ Nld.only [.regs, .hwErr, .rdma] s.nld n) ∧
    ((s.nld.qp q.val).state = 3 → (s.nld.qp q.val).keying = none → s.nld.initiates q.val = true → s.nld.sec.down = false →
      NldDoes (.rekeyTimer q) s fun n =>
        (∃ g, (n.qp q.val).keying = some g ∧ g.gen = nextGen (s.nld.qp q.val).gen ∧ g.sent = false) ∧
        (n.qp q.val).state = 3 ∧ (n.qp q.val).sendQ.length = (s.nld.qp q.val).sendQ.length + 1 ∧
        Nld.only [.rdma, .sec] s.nld n) ∧
    ((s.nld.qp q.val).state ≠ 3 → NldDoes (.rekeyTimer q) s fun n => Nld.only [] s.nld n) ∧
    (q.val < 256 → (s.nld.qp q.val).state = 4 → s.nld.fwRuns = true → s.nld.isRoot = true →
      s.nld.peerValid (q.val / 2) = true → NldDoes (.qpRecreateTimer q) s fun n =>
        (n.qp q.val).state = 2 ∧ (n.qp q.val).used = true ∧ (n.qp q.val).shaper = q.val / 2 ∧
        (∀ r, r ≠ q.val → n.qp r = s.nld.qp r) ∧ Nld.only [.rdma, .sec] s.nld n) ∧
    (256 ≤ q.val ∨ (s.nld.qp q.val).state ≠ 4 → NldDoes (.qpRecreateTimer q) s fun n => Nld.only [] s.nld n)) ∧
  (∀ s : State, s.nld.runs → NldDoes .shaperRefill s fun n =>
    (∀ sh < 256, n.shaper sh = (s.nld.shaper sh).refill (s.nld.waitsOn sh)) ∧ n.rdma.qps = s.nld.rdma.qps ∧
    Nld.only [.rdma] s.nld n) ∧
  (∀ (s : State) (e : Fin 2) (up : Bool), s.nld.runs → NldDoes (.ethLinkChange e up) s fun n =>
    n.bit NReg.ETHe_CFG_link_up e.val = up ∧ n.rdma = s.nld.rdma ∧ Nld.only [.regs, .hwErr] s.nld n)

/-- Keying and the driver's queue pair commands (R600, R609 to R612, R621, R640): an offer or answer that fails its checks is counted;
one that passes leaves keys; KEYOK ends the keying; the commands act on consumer queue pairs alone. -/
def Obligations.KeyingAndQpCommands : Prop :=
  (∀ (s : State) (q : Fin 4096) (k : KeyxMsg), s.nld.runs →
    (s.nld.sec.down = true → NldDoes (.keyx q k) s fun n =>
      n.sec.held = s.nld.sec.held ++ [.keyx q.val k] ∧ Nld.only [.sec] s.nld n) ∧
    (s.nld.sec.down = false → (s.nld.qp q.val).state = 2 ∨ (s.nld.qp q.val).state = 3 →
      (s.nld.keyxOk q.val k = false → NldDoes (.keyx q k) s fun n =>
        n.get NReg.RDMA_KEYXFAIL_count = min (s.nld.get NReg.RDMA_KEYXFAIL_count + 1) NReg.RDMA_KEYXFAIL_count.max ∧
        n.bit NReg.RDMA_EVT_key_fail = true ∧ n.rdma = s.nld.rdma ∧ Nld.only [.regs, .hwErr] s.nld n) ∧
      (s.nld.keyxOk q.val k = true → NldDoes (.keyx q k) s fun n =>
        (n.qp q.val).keyed = true ∧ (n.qp q.val).keys.map (·.gen) =
          k.gen.toNat :: ((s.nld.qp q.val).keys.take 1).map (·.gen) ∧
        (∀ r, r ≠ q.val → n.qp r = s.nld.qp r) ∧ Nld.only [.rdma, .sec] s.nld n))) ∧
  (∀ (s : State) (q : Fin 4096) (g : QpKeying), s.nld.runs → (s.nld.qp q.val).keying = some g →
    (((s.nld.qp q.val).keys.any (fun k => k.gen = g.gen)) = true → NldDoes (.keyok q) s fun n =>
      (n.qp q.val).keying = none ∧ (n.qp q.val).keys = (s.nld.qp q.val).keys ∧
      (n.qp q.val).sendQ.length = (s.nld.qp q.val).sendQ.length + (if s.nld.initiates q.val = true then 1 else 0) ∧
      Nld.only [.rdma] s.nld n) ∧
    (s.nld.initiates q.val = true → g.sent = true → ((s.nld.qp q.val).keys.any (fun k => k.gen = g.gen)) = false →
      ((s.nld.qp q.val).sendQ.any (fun m => m.kind = 1)) = false → NldDoes (.keyxResendTimer q) s fun n =>
        (n.qp q.val).sendQ.length = (s.nld.qp q.val).sendQ.length + 1 ∧ (n.qp q.val).keying = some g ∧
        Nld.only [.rdma] s.nld n) ∧
    (s.nld.initiates q.val = false → NldDoes (.keyxResendTimer q) s fun n => Nld.only [] s.nld n)) ∧
  (∀ s : State, s.nld.writable →
    ((∀ i < 3840, (s.nld.qp (256 + i)).used = true) → NldDoes .qpAlloc s fun n =>
      n.get NReg.RDMA_QP_CMD_status = 1 ∧ n.bit NReg.RDMA_EVT_create_refused = true ∧ n.rdma = s.nld.rdma ∧
      Nld.only [.regs, .hwErr] s.nld n) ∧
    (∀ i < 3840, (s.nld.qp (256 + i)).used = false → (∀ j < i, (s.nld.qp (256 + j)).used = true) →
      NldDoes .qpAlloc s fun n =>
        (n.qp (256 + i)).used = true ∧ (n.qp (256 + i)).state = 0 ∧ n.get NReg.RDMA_QP_CMD_qp = 256 + i ∧
        n.get NReg.RDMA_QP_CMD_status = 0 ∧ (∀ r, r ≠ 256 + i → n.qp r = s.nld.qp r) ∧ Nld.only [.regs, .rdma] s.nld n)) ∧
  (∀ (s : State) (q : Fin 4096), s.nld.writable →
    (q.val < 256 → ∀ c ∈ [Instr.qpInit q, .qpErrorCmd q, .qpResetFree q], NldDoes c s fun n =>
      n.get NReg.RDMA_QP_CMD_status = 2 ∧ n.get NReg.RDMA_QP_CMD_qp = q.val ∧ Nld.only [.regs] s.nld n ∧
      Nld.regsOnly [(NReg.RDMA_QP_CMD_status, 0), (NReg.RDMA_QP_CMD_qp, 0)] s.nld n) ∧
    (256 ≤ q.val →
      ((s.nld.qp q.val).used = true → (s.nld.qp q.val).state = 0 → s.nld.qpContextOk (s.nld.qp q.val) = true →
        NldDoes (.qpInit q) s fun n =>
          (n.qp q.val).state = 2 ∧ n.get NReg.RDMA_QP_CMD_status = 0 ∧ (∀ r, r ≠ q.val → n.qp r = s.nld.qp r) ∧
          Nld.only [.regs, .rdma, .sec] s.nld n) ∧
      ((s.nld.qp q.val).used = true → (s.nld.qp q.val).state = 0 → s.nld.qpContextOk (s.nld.qp q.val) = false →
        NldDoes (.qpInit q) s fun n => n.get NReg.RDMA_QP_CMD_status = 3 ∧ Nld.only [.regs] s.nld n) ∧
      ((s.nld.qp q.val).state ≠ 0 → (s.nld.qp q.val).state ≠ 4 → NldDoes (.qpErrorCmd q) s fun n =>
        (n.qp q.val).state = 4 ∧ (n.qp q.val).cause = 7 ∧ n.get NReg.RDMA_QP_CMD_status = 0 ∧
        Nld.only [.regs, .hwErr, .rdma] s.nld n) ∧
      ((s.nld.qp q.val).used = true → NldDoes (.qpResetFree q) s fun n =>
        n.qp q.val = {} ∧ n.get NReg.RDMA_QP_CMD_status = 0 ∧ (∀ r, r ≠ q.val → n.qp r = s.nld.qp r) ∧
        Nld.only [.regs, .rdma] s.nld n) ∧
      ((s.nld.qp q.val).used = false → NldDoes (.qpResetFree q) s fun n =>
        n.get NReg.RDMA_QP_CMD_status = 4 ∧ n.rdma = s.nld.rdma ∧ Nld.only [.regs] s.nld n)))

/-- Loads of control images (R628, R629, R644, R645): a load starts where one is allowed and ends with the code of its checks; an
update waits for its takeover tick, at which the new image takes over or is turned away.

The watchdogs (R637 to R640): a kick is noted; a firing stops the cores, and the third within 1 s ends in the absent state; the
cores start again from a slot that verifies; the security core holds what needs it while it restarts. -/
def Obligations.FirmwareAndWatchdogs : Prop :=
  (∀ (s : State) (b : FwBlob), s.nld.runs → s.nld.pkg.resetting = false →
    (s.nld.bit NReg.FW_LOAD_STAT_busy = false →
      s.nld.bootStage = 2 ∨ (s.nld.bootStage = 5 ∧ s.nld.get NReg.FW_STATUS_state = 0) → NldDoes (.fwLoad b) s fun n =>
        n.fw = { s.nld.fw with load := some ⟨false, s.nld.loadCode b false, imageOf b⟩ } ∧
        n.bit NReg.FW_LOAD_STAT_busy = true ∧ n.get NReg.FW_LOAD_STAT_code = 0 ∧ n.bootStage = 3 ∧
        Nld.only [.regs, .fw] s.nld n) ∧
    (s.nld.bit NReg.FW_LOAD_STAT_busy = true ∨
      ¬ (s.nld.bootStage = 2 ∨ (s.nld.bootStage = 5 ∧ s.nld.get NReg.FW_STATUS_state = 0)) → NldDoes (.fwLoad b) s fun n =>
      n.get NReg.FW_LOAD_STAT_code = 11 ∧ Nld.only [.regs] s.nld n ∧ Nld.regsOnly [(NReg.FW_LOAD_STAT_code, 0)] s.nld n) ∧
    (s.nld.fwRuns = true → s.nld.bit NReg.FW_LOAD_STAT_busy = false → NldDoes (.fwUpdate b) s fun n =>
      n.fw = { s.nld.fw with load := some ⟨true, s.nld.loadCode b true, imageOf b⟩ } ∧
      n.bit NReg.FW_LOAD_STAT_busy = true ∧ n.get NReg.FW_LOAD_STAT_code = 0 ∧ n.bootStage = s.nld.bootStage ∧
      Nld.only [.regs, .fw] s.nld n) ∧
    (s.nld.fwRuns = false → NldDoes (.fwUpdate b) s fun n =>
      n.get NReg.FW_LOAD_STAT_code = 11 ∧ Nld.only [.regs] s.nld n ∧ Nld.regsOnly [(NReg.FW_LOAD_STAT_code, 0)] s.nld n)) ∧
  (∀ (s : State) (l : FwLoad), s.nld.runs → s.nld.sec.down = false → s.nld.fw.load = some l →
    (l.update = false → s.nld.bootStage = 3 → l.code = 2 → NldDoes .fwLoadComplete s fun n =>
      n.fw.load = none ∧ Tbl.find? (s.nld.get NReg.FW_STATUS_slot) n.fw.images = some l.image ∧
      n.bit NReg.FW_LOAD_STAT_busy = false ∧ n.get NReg.FW_LOAD_STAT_code = 2 ∧ n.bootStage = 4 ∧
      Nld.only [.regs, .fw] s.nld n) ∧
    (l.update = false → s.nld.bootStage = 3 → l.code ≠ 2 → l.code ≠ 6 → l.code ≠ 9 → l.code < 16 →
      NldDoes .fwLoadComplete s fun n =>
        n.fw.load = none ∧ n.fw.images = s.nld.fw.images ∧ n.bit NReg.FW_LOAD_STAT_busy = false ∧
        n.get NReg.FW_LOAD_STAT_code = l.code ∧ n.bootStage = 15 ∧ n.get NReg.BOOT_STATUS_fail_code = 7 ∧
        Nld.only [.regs, .hwErr, .recorder, .fw] s.nld n) ∧
    (l.update = true → l.code = 2 → s.nld.fwRuns = true → NldDoes .fwLoadComplete s fun n =>
      n.fw.takeover = some s.nld.takeoverTick ∧ n.get NReg.FW_STATUS_state = 3 ∧
      Tbl.find? (1 - s.nld.get NReg.FW_STATUS_slot) n.fw.images = some l.image ∧
      n.get NReg.FW_STATUS_slot = s.nld.get NReg.FW_STATUS_slot ∧ Nld.only [.regs, .hwErr, .fw] s.nld n)) ∧
  (∀ s : State, s.nld.runs → s.nld.sec.down = true ∨ s.nld.fw.load = none →
    NldDoes .fwLoadComplete s fun n => Nld.only [] s.nld n) ∧
  (∀ (s : State) (l : FwLoad) (t : Nat) (accepted : Bool), s.nld.runs → s.nld.fw.takeover = some t → s.nld.fw.load = some l →
    (s.nld.boundaryNow < t → NldDoes (.fwTakeover accepted) s fun n => Nld.only [] s.nld n) ∧
    (s.nld.get NReg.FW_STATUS_state = 3 → t ≤ s.nld.boundaryNow → NldDoes (.fwTakeover accepted) s fun n =>
      n.get NReg.FW_STATUS_state = 1 ∧ n.fw.load = none ∧ n.fw.takeover = none ∧ n.fw.images = s.nld.fw.images ∧
      n.bit NReg.FW_LOAD_STAT_busy = false ∧ n.get NReg.FW_LOAD_STAT_code = (if accepted = true then 2 else 12) ∧
      (accepted = true → s.nld.get NReg.FW_STATUS_slot ≤ 1 →
        n.get NReg.FW_STATUS_slot = 1 - s.nld.get NReg.FW_STATUS_slot ∧ n.fw.holding = true) ∧
      (accepted = false → n.get NReg.FW_STATUS_slot = s.nld.get NReg.FW_STATUS_slot ∧ n.fw.holding = s.nld.fw.holding) ∧
      Nld.only [.regs, .hwErr, .chains, .series, .host, .recorder, .sched, .fw] s.nld n)) ∧
  (∀ s : State, s.nld.runs →
    (s.nld.fw.holding = true → NldDoes .updateHoldEnd s fun n =>
      n.fw.holding = false ∧ n.fw.copySeq = s.nld.fw.copySeq + 1 ∧ Nld.only [.fw] s.nld n) ∧
    (s.nld.fw.holding = false → NldDoes .updateHoldEnd s fun n => Nld.only [] s.nld n)) ∧
  (∀ (s : State) (mask : BitVec 4), s.nld.runs → s.nld.pkg.resetting = false → NldDoes (.watchdogKick mask) s fun n =>
    (∀ c < 4, bitOf mask.toNat c = true → Tbl.find? c n.fw.kicks = some s.nld.elapsed) ∧
    n.fw.images = s.nld.fw.images ∧ Nld.only [.fw] s.nld n) ∧
  (∀ (s : State) (core : Fin 4), s.nld.runs →
    (s.nld.get NReg.FW_STATUS_state = 1 → s.nld.fw.holding = false → NldDoes (.watchdogFire core) s fun n =>
      n.get NReg.FW_STATUS_last_cause = core.val ∧
      n.get NReg.FW_STATUS_restarts = min (s.nld.get NReg.FW_STATUS_restarts + 1) NReg.FW_STATUS_restarts.max ∧
      n.get NReg.FW_STATUS_state =
        (if 2 ≤ (s.nld.fw.fired.filter (fun t => decide (s.nld.elapsed < t + 1000000000))).length then 0 else 2) ∧
      Nld.only [.regs, .hwErr, .recorder, .fw] s.nld n) ∧
    (s.nld.get NReg.FW_STATUS_state ≠ 1 → s.nld.get NReg.FW_STATUS_state ≠ 3 → NldDoes (.watchdogFire core) s fun n =>
      Nld.only [] s.nld n)) ∧
  (∀ (s : State) (verified : Bool), s.nld.runs →
    (s.nld.get NReg.FW_STATUS_state ≠ 2 → NldDoes (.controlCoreRestart verified) s fun n => Nld.only [] s.nld n) ∧
    (s.nld.get NReg.FW_STATUS_state = 2 → verified = false → NldDoes (.controlCoreRestart verified) s fun n =>
      n.get NReg.FW_STATUS_state = 0 ∧ Nld.only [.regs, .hwErr] s.nld n) ∧
    (s.nld.get NReg.FW_STATUS_state = 2 → verified = true → s.nld.image ≠ none → s.nld.fw.copySchema ≠ none →
      NldDoes (.controlCoreRestart verified) s fun n =>
        n.get NReg.FW_STATUS_state = 1 ∧ n.fw.kicks = [] ∧ n.recorder.staged = [] ∧ n.host.reads = [] ∧ n.host.writes = [] ∧
        Nld.only [.regs, .hwErr, .chains, .series, .host, .recorder, .sched, .fw] s.nld n)) ∧
  (∀ s : State, s.nld.runs →
    (s.nld.sec.down = false →
      NldDoes .securityWatchdogFire s (fun n => n.sec = { s.nld.sec with down := true } ∧
        n.get NReg.FW_STATUS_last_cause = 4 ∧
        n.get NReg.FW_STATUS_restarts = min (s.nld.get NReg.FW_STATUS_restarts + 1) NReg.FW_STATUS_restarts.max ∧
        Nld.only [.regs, .hwErr, .recorder, .sec] s.nld n) ∧
      NldDoes .securityCoreRestart s fun n => Nld.only [] s.nld n) ∧
    (s.nld.sec.down = true →
      NldDoes .securityWatchdogFire s (fun n => Nld.only [] s.nld n) ∧
      (s.nld.sec.held = [] → NldDoes .securityCoreRestart s fun n =>
        n.sec = { s.nld.sec with down := false } ∧ Nld.only [.sec] s.nld n) ∧
      (∀ nonce, s.nld.sec.held = [.request (.attest nonce)] → NldDoes .securityCoreRestart s fun n =>
        n.sec = { s.nld.sec with down := false, held := [] } ∧
        s.nld.emits n (.buffer s.nld.rspAddr (s.nld.quote nonce.toNat)) ∧ n.get NReg.SEC_REQ_STAT_code = 1 ∧
        n.bit NReg.SEC_REQ_STAT_busy = false ∧ Nld.only [.regs, .sec] s.nld n)))

/-- The recorder and clearing it (R651, R654, R656, R660 to R662): the head of the queue commits to its slot; a token is checked once, its
clear waits for its own record, and what was erased is shown.

The security core (R640, R664, R666, R668, R669, R671): test access takes every key with it; requests answer with the code of
their checks, or wait while the core restarts. -/
def Obligations.RecorderAndSecurity : Prop :=
  (∀ s : State, s.nld.runs →
    (s.nld.recorder.queue = [] → NldDoes .recordCommit s fun n =>
      n.recorder = s.nld.recorder ∧ n.get NReg.REC_STATUS_queued = 0 ∧ Nld.only [.regs] s.nld n ∧
      Nld.regsOnly [(NReg.REC_STATUS_queued, 0)] s.nld n) ∧
    (∀ e rest, s.nld.recorder.queue = e :: rest → s.nld.recorder.lost = none → NldDoes .recordCommit s fun n =>
      n.recorder.queue = rest ∧ n.get NReg.REC_STATUS_queued = rest.length % 2 ^ NReg.REC_STATUS_queued.width ∧
      n.recSlot (recKey (recArea e.type) (s.nld.recPtr (recArea e.type)).1) =
        (s.nld.recSlot (recKey (recArea e.type) (s.nld.recPtr (recArea e.type)).1)).write e.body ∧
      (n.recPtr (recArea e.type)).1 = (if (s.nld.recPtr (recArea e.type)).1 + 1 = recSlots (recArea e.type) then 0
        else (s.nld.recPtr (recArea e.type)).1 + 1) ∧
      n.recorder.nextSeq = s.nld.recorder.nextSeq ∧ Nld.only [.regs, .recorder] s.nld n ∧
      Nld.regsOnly [(NReg.REC_STATUS_queued, 0)] s.nld n)) ∧
  (∀ (s : State) (t : ClearToken), s.nld.writable →
    (s.nld.sec.down = true → NldDoes (.recorderClear t) s fun n =>
      n.sec.held = s.nld.sec.held ++ [.clear t] ∧ n.bit NReg.REC_CLR_STAT_busy = true ∧ Nld.only [.regs, .sec] s.nld n) ∧
    (s.nld.sec.down = false →
      (s.nld.clearCode t = 0 → NldDoes (.recorderClear t) s fun n =>
        n.recorder.clear = some ⟨fieldAt t.bytes 3 1, fieldAt t.bytes 16 8⟩ ∧ n.bit NReg.REC_STATUS_clearing = true ∧
        n.bit NReg.REC_CLR_STAT_busy = true ∧ n.recorder.slots = s.nld.recorder.slots ∧
        Nld.only [.regs, .hwErr, .recorder, .sec] s.nld n) ∧
      (s.nld.clearCode t = 8 → NldDoes (.recorderClear t) s fun n =>
        n.get NReg.REC_CLR_STAT_code = 8 ∧ Nld.only [.regs] s.nld n ∧
        Nld.regsOnly [(NReg.REC_CLR_STAT_code, 0)] s.nld n) ∧
      (s.nld.clearCode t ∈ [3, 4, 7, 9] → NldDoes (.recorderClear t) s fun n =>
        n.get NReg.REC_CLR_STAT_code = s.nld.clearCode t ∧ n.bit NReg.REC_CLR_STAT_busy = false ∧ Nld.only [.regs] s.nld n ∧
        Nld.regsOnly [(NReg.REC_CLR_STAT_code, 0), (NReg.REC_CLR_STAT_busy, 0)] s.nld n) ∧
      (s.nld.clearCode t = 2 → NldDoes (.recorderClear t) s fun n =>
        n.get NReg.REC_CLR_STAT_code = 2 ∧ n.recorder.clear = s.nld.recorder.clear ∧
        n.get NReg.SEC_SIGFAIL_count = min (s.nld.get NReg.SEC_SIGFAIL_count + 1) NReg.SEC_SIGFAIL_count.max ∧
        Nld.only [.regs, .hwErr, .recorder, .sec] s.nld n))) ∧
  (∀ s : State, s.nld.runs →
    (s.nld.recorder.clear = none → NldDoes .recorderClearDone s fun n => Nld.only [] s.nld n) ∧
    (∀ c, s.nld.recorder.clear = some c →
      (s.nld.recorder.queue.any (fun e => e.type = 0x0100) = true →
        NldDoes .recorderClearDone s fun n => Nld.only [] s.nld n) ∧
      (s.nld.recorder.queue.any (fun e => e.type = 0x0100) = false → NldDoes .recorderClearDone s fun n =>
        n.recorder.clear = none ∧ n.bit NReg.REC_STATUS_clearing = false ∧ n.bit NReg.REC_CLR_STAT_busy = false ∧
        n.get NReg.REC_CLR_STAT_code = 1 ∧ n.recorder.queue = s.nld.recorder.queue ∧
        (∀ key, (∀ e ∈ s.nld.recorder.slots, erasable c e.1 e.2 = true → e.1 ≠ key) → n.recSlot key = s.nld.recSlot key) ∧
        (∀ e ∈ s.nld.recorder.slots, erasable c e.1 e.2 = true → (n.recSlot e.1).body = emptyBody) ∧
        Nld.only [.regs, .recorder] s.nld n))) ∧
  (∀ s : State, s.nld.runs → NldDoes .testAccessOpen s fun n =>
    n.sec.keys = [] ∧ n.sec.identity = none ∧ n.sec.zeroised = true ∧ n.bit NReg.SEC_STATUS_opened = true ∧
    n.bit NReg.SEC_STATUS_puf_off = true ∧ n.bit NReg.SEC_STATUS_provisioned = false ∧
    n.get NReg.SEC_OPENCNT_opened = min (s.nld.get NReg.SEC_OPENCNT_opened + 1) NReg.SEC_OPENCNT_opened.max ∧
    (∀ q, (n.qp q).keys = [] ∧ (n.qp q).sendQ = (s.nld.qp q).sendQ) ∧ Nld.only [.regs, .rdma, .sec] s.nld n) ∧
  (∀ s : State, s.nld.writable →
    (s.nld.sec.down = true → ∀ (nonce : BitVec 256) (e : EnrolBlob) (b : ProvBundle) (root : Word) (good : Bool),
      ∀ x ∈ [(Instr.attest nonce, SecRequest.attest nonce), (.enrolRevoke e, .enrol e), (.provisioningBundle b, .bundle b),
        (.generateIdentity, .generate), (.installChain root good, .chain root good)], NldDoes x.1 s fun n =>
          n.sec = { s.nld.sec with held := s.nld.sec.held ++ [.request x.2] } ∧ n.bit NReg.SEC_REQ_STAT_busy = true ∧
          Nld.only [.regs, .sec] s.nld n) ∧
    (s.nld.sec.down = false →
      (∀ nonce, NldDoes (.attest nonce) s fun n =>
        s.nld.emits n (.buffer s.nld.rspAddr (s.nld.quote nonce.toNat)) ∧ n.get NReg.SEC_REQ_STAT_code = 1 ∧
        n.bit NReg.SEC_REQ_STAT_busy = false ∧ Nld.only [.regs] s.nld n) ∧
      (∀ b : EnrolBlob,
        (s.nld.enrolCode b = 0 → NldDoes (.enrolRevoke b) s fun n =>
          n.sec.keys = s.nld.sec.keys.filter (fun k => k.id ≠ b.key.toNat) ++
            (if b.revoke = true then [] else [⟨b.key.toNat, b.owner.toNat, b.uses.toNat⟩]) ∧
          n.get NReg.SEC_REQ_STAT_code = 1 ∧ n.bit NReg.SEC_REQ_STAT_busy = false ∧
          Nld.only [.regs, .hwErr, .recorder, .sec] s.nld n) ∧
        (s.nld.enrolCode b ∈ [3, 4, 5, 6, 7, 9] → NldDoes (.enrolRevoke b) s fun n =>
          n.get NReg.SEC_REQ_STAT_code = s.nld.enrolCode b ∧ n.bit NReg.SEC_REQ_STAT_busy = false ∧
          Nld.only [.regs] s.nld n)) ∧
      (∀ b : ProvBundle, s.nld.opened = false → s.nld.sec.step = 0 → s.nld.bit NReg.SEC_STATUS_provisioned = false →
        b.shape = true → b.serial.toNat = s.nld.serial → bitOf s.nld.sec.revokedMask b.carivo.val = false → b.keyOk = true →
        b.good = true → s.nld.sec.keys.length < 64 → NldDoes (.provisioningBundle b) s fun n =>
          n.sec.keys = s.nld.sec.keys.filter (fun k => k.id ≠ b.key.toNat) ++ [⟨b.key.toNat, fleet, 0x3F⟩] ∧
          n.sec.step = 1 ∧ n.get NReg.SEC_REQ_STAT_code = 1 ∧ Nld.only [.regs, .hwErr, .recorder, .sec] s.nld n) ∧
      (s.nld.opened = false → s.nld.sec.step = 1 → NldDoes .generateIdentity s fun n =>
        n.sec.identity = some (Config.identityKey s.nld.sec.drawn) ∧ n.sec.step = 2 ∧
        s.nld.emits n (.buffer s.nld.rspAddr (Config.identityReply (Config.identityKey s.nld.sec.drawn))) ∧
        n.get NReg.SEC_REQ_STAT_code = 1 ∧ Nld.only [.regs, .sec] s.nld n) ∧
      (s.nld.opened = false → s.nld.sec.step ≠ 1 → NldDoes .generateIdentity s fun n =>
        n.get NReg.SEC_REQ_STAT_code = 5 ∧ Nld.only [.regs] s.nld n) ∧
      (∀ root : Word, s.nld.opened = false → s.nld.sec.step = 2 → s.nld.keyFor root.toNat 5 ≠ none →
        NldDoes (.installChain root true) s fun n =>
          n.sec.step = 0 ∧ n.sec.installed = true ∧ n.bit NReg.SEC_STATUS_provisioned = true ∧
          n.get NReg.SEC_OPENCNT_provisioned =
            s.nld.get NReg.SEC_OPENCNT_opened % 2 ^ NReg.SEC_OPENCNT_provisioned.width ∧
          n.get NReg.SEC_REQ_STAT_code = 1 ∧ Nld.only [.regs, .hwErr, .recorder, .sec] s.nld n) ∧
      (s.nld.opened = true → ∀ b root good, ∀ c ∈ [Instr.provisioningBundle b, .generateIdentity, .installChain root good],
        NldDoes c s fun n => n.get NReg.SEC_REQ_STAT_code = 9 ∧ n.bit NReg.SEC_REQ_STAT_busy = false ∧
          Nld.only [.regs] s.nld n)))

/-- What stops Naloder, and its clocks (R333, R334, R694, R697): a thermal trip writes its record first; each stop takes every link Down
and is told by last_fault; a port reference takes its own links alone.

Power (R333, R339, R340): a droop raises the throttle level by 2 and an evaluation above a limit by 1, to 7 at most; it falls by 1
after 100 calm evaluations in a row. -/
def Obligations.PackagePower : Prop :=
  (∀ s : State, s.nld.runs →
    (∀ sensor temp, NldDoes (.thermalTrip sensor temp) s fun n =>
      n.pkg.stopped = true ∧ n.get NReg.RST_CAUSE_last_fault = 1 ∧ n.recorder.queue = [] ∧
      (∀ p < 16, (n.fife p).link.state = .down ∨ (n.fife p).link.state = .off) ∧ (∀ p < 8, (n.horn p).link.state = .down) ∧
      Nld.only [.regs, .pkg, .hwErr, .chains, .group, .recorder] s.nld n) ∧
    NldDoes .supplyMonitorTrip s (fun n =>
      n.pkg.stopped = true ∧ n.get NReg.RST_CAUSE_last_fault = 3 ∧
      (∀ p < 16, (n.fife p).link.state = .down ∨ (n.fife p).link.state = .off) ∧ (∀ p < 8, (n.horn p).link.state = .down) ∧
      n.recorder = s.nld.recorder ∧ Nld.only [.regs, .pkg, .hwErr, .chains, .group] s.nld n) ∧
    NldDoes (.pllLockLoss none) s (fun n =>
      n.pkg.stopped = true ∧ n.get NReg.RST_CAUSE_last_fault = 2 ∧ n.bit NReg.CLK_STATUS_ref_sys = false ∧
      n.bit NReg.CLK_STATUS_pll_io = false ∧ n.bit NReg.CLK_STATUS_pll_cmp = false ∧ n.bit NReg.CLK_STATUS_pll_hbm = false ∧
      Nld.only [.regs, .pkg, .hwErr, .chains, .group] s.nld n) ∧
    (s.nld.pkg.pllSeen = true → ∀ p, NldDoes (.pllLockLoss (some p)) s fun n =>
      n.pkg.stopped = true ∧ n.get NReg.RST_CAUSE_last_fault = 2 ∧
      Nld.only [.regs, .pkg, .hwErr, .chains, .group] s.nld n) ∧
    (s.nld.pkg.pllSeen = false → NldDoes (.pllLockLoss (some 1)) s fun n =>
      n.bit NReg.CLK_STATUS_pll_cmp = false ∧ Nld.only [.regs] s.nld n ∧
      Nld.regsOnly [(NReg.CLK_STATUS_pll_cmp, 0)] s.nld n) ∧
    (∀ r : PortRef,
      NldDoes (.referenceLoss r) s (fun n =>
        n.bit (refBit r) = false ∧ n.bit NReg.PKG_EVT_ref_lost = true ∧
        (r = .fife → ∀ p < 16, (n.fife p).link.state = .down ∨ (n.fife p).link.state = .off) ∧
        (r ≠ .fife → n.chains = s.nld.chains) ∧ (r = .horn → ∀ p < 8, (n.horn p).link.state = .down) ∧
        (r ≠ .horn → n.group = s.nld.group) ∧ n.pkg = s.nld.pkg ∧
        Nld.only [.regs, .hwErr, .chains, .group] s.nld n) ∧
      NldDoes (.referenceReturn r) s (fun n =>
        n.bit (refBit r) = true ∧ Nld.only [.regs] s.nld n ∧ Nld.regsOnly [(refBit r, 0)] s.nld n)) ∧
    (s.nld.pkg.resetting = false → NldDoes .clearFault s fun n =>
      n.get NReg.RST_CAUSE_last_fault = 0 ∧ Nld.only [.regs] s.nld n ∧
      Nld.regsOnly [(NReg.RST_CAUSE_last_fault, 0)] s.nld n)) ∧
  (∀ s : State, s.nld.runs →
    (s.nld.get NReg.PWR_STATUS_level < 7 → NldDoes .droopTrip s fun n =>
      n.get NReg.PWR_STATUS_level = min 7 (s.nld.get NReg.PWR_STATUS_level + 2) ∧ n.get NReg.PWR_STATUS_cause = 4 ∧
      n.bit NReg.PWR_STATUS_thr_event = true ∧ n.pkg = { s.nld.pkg with calm := 0 } ∧
      Nld.only [.regs, .pkg, .hwErr] s.nld n) ∧
    (7 ≤ s.nld.get NReg.PWR_STATUS_level → NldDoes .droopTrip s fun n =>
      n.pkg = { s.nld.pkg with calm := 0 } ∧ Nld.only [.pkg] s.nld n) ∧
    (∀ watts tj : Nat,
      (s.nld.powerLimit < watts → tj < s.nld.throttleTemp → s.nld.get NReg.PWR_STATUS_level < 7 →
        NldDoes (.powerEvaluation watts tj) s fun n =>
          n.get NReg.PWR_STATUS_level = min 7 (s.nld.get NReg.PWR_STATUS_level + 1) ∧ n.get NReg.PWR_STATUS_cause = 1 ∧
          n.get NReg.PWR_STATUS_power_w = min watts 1023 ∧ n.get NReg.PWR_STATUS_tj_c = min tj 255 ∧
          n.bit NReg.PWR_STATUS_thr_event = true ∧ Nld.only [.regs, .pkg, .hwErr] s.nld n) ∧
      (watts * 100 < s.nld.powerLimit * 95 → tj + 3 ≤ s.nld.throttleTemp → s.nld.pkg.calm < 99 →
        NldDoes (.powerEvaluation watts tj) s fun n =>
          n.get NReg.PWR_STATUS_level = s.nld.get NReg.PWR_STATUS_level ∧
          n.pkg = { s.nld.pkg with calm := s.nld.pkg.calm + 1 } ∧ Nld.only [.regs, .pkg] s.nld n ∧
          Nld.regsOnly [(NReg.PWR_STATUS_power_w, 0), (NReg.PWR_STATUS_tj_c, 0)] s.nld n) ∧
      (watts * 100 < s.nld.powerLimit * 95 → tj + 3 ≤ s.nld.throttleTemp → 99 ≤ s.nld.pkg.calm →
        s.nld.get NReg.PWR_STATUS_level ≤ 7 → NldDoes (.powerEvaluation watts tj) s fun n =>
          n.get NReg.PWR_STATUS_level = s.nld.get NReg.PWR_STATUS_level - 1 ∧ n.pkg = { s.nld.pkg with calm := 0 } ∧
          Nld.only [.regs, .pkg] s.nld n)))

/-- Power-up, boot and resets of Naloder (R335, R338, R655, R657, R692, R694, R696, R697, R561): what a reset leaves, how boot goes from
stage to stage, and what a reset of the PCIe port clears. -/
def Obligations.PackageBoot : Prop :=
  (∀ s : State, NldDoes .nldPorAssert s fun n =>
    n.pkg = { elapsed := s.nld.pkg.elapsed, porLow := true } ∧ n.bootStage = 0 ∧ n.chains = {} ∧ n.group = {} ∧ n.host = {} ∧
    n.sched = {} ∧ n.rdma = {} ∧ n.sec.keys = s.nld.sec.keys ∧ n.sec.identity = s.nld.sec.identity ∧
    n.recorder.slots = s.nld.recorder.slots ∧ n.recorder.queue = [] ∧
    n.get NReg.RST_CAUSE_last_fault =
      s.nld.get NReg.RST_CAUSE_last_fault % 2 ^ NReg.RST_CAUSE_last_fault.width ∧
    n.bit NReg.CLK_STATUS_ref_sys = false) ∧
  (∀ s : State,
    (s.nld.pkg.porLow = true → NldDoes .nldPor s fun n =>
      n.pkg = { s.nld.pkg with porLow := false, pllSeen := true } ∧
      n.recorder.cycles = (s.nld.recorder.cycles + 1) % 2 ^ 32 ∧
      n.recorder.nextSeq = s.nld.recorder.nextSeq / 4096 * 4096 + 4096 ∧ n.bit NReg.CLK_STATUS_ref_sys = true ∧
      n.recorder.slots = s.nld.recorder.slots ∧ Nld.only [.regs, .pkg, .recorder] s.nld n) ∧
    (s.nld.pkg.porLow = false → NldDoes .nldPor s fun n => Nld.only [] s.nld n)) ∧
  (∀ s : State, s.nld.runs → s.nld.pkg.resetting = false →
    (s.nld.bootStage = 14 ∨ s.nld.bootStage = 15 → NldDoes .packageReset s fun n =>
      n.bit NReg.PKG_EVT_reset_refused = true ∧ Nld.only [.regs, .hwErr] s.nld n) ∧
    (s.nld.bootStage ≠ 14 → s.nld.bootStage ≠ 15 → NldDoes .packageReset s fun n =>
      n.pkg.resetting = true ∧ n.pkg.portsOn = false ∧ n.bootStage = 0 ∧ n.bit NReg.RST_CAUSE_by_cmd = true ∧
      n.bit NReg.RST_CAUSE_por = false ∧ n.chains = {} ∧ n.group = {} ∧ n.host.rings = [] ∧ n.host.msix = s.nld.host.msix ∧
      n.sched = {} ∧ n.rdma = {} ∧ n.sec.keys = s.nld.sec.keys ∧ n.recorder.slots = s.nld.recorder.slots ∧
      n.recorder.queue = [])) ∧
  (∀ s : State, s.nld.runs →
    (s.nld.bootStage = 0 → s.nld.bit NReg.SEC_STATUS_puf_off = false → NldDoes (.bootStageComplete .ok) s fun n =>
      n.bootStage = 1 ∧ n.bit NReg.BOOT_STATUS_puf_ok = true ∧ n.bit NReg.BOOT_STATUS_nv_ok = true ∧
      n.pkg = { s.nld.pkg with resetting := false } ∧ Nld.only [.regs, .pkg, .hwErr, .recorder, .sec] s.nld n) ∧
    (s.nld.bootStage = 0 → s.nld.bit NReg.SEC_STATUS_puf_off = true → NldDoes (.bootStageComplete .ok) s fun n =>
      n.bootStage = 15 ∧ n.get NReg.BOOT_STATUS_fail_code = 3 ∧ Nld.only [.regs, .pkg, .hwErr, .recorder] s.nld n) ∧
    (s.nld.bootStage = 1 → NldDoes (.bootStageComplete .ok) s fun n =>
      n.bootStage = 2 ∧ n.bit NReg.BOOT_STATUS_hbm_ok = true ∧ Nld.only [.regs, .pkg] s.nld n ∧
      Nld.regsOnly [(NReg.BOOT_STATUS_stage, 0), (NReg.BOOT_STATUS_hbm_ok, 0)] s.nld n) ∧
    (s.nld.bootStage = 4 → NldDoes (.bootStageComplete .ok) s fun n =>
      n.bootStage = 5 ∧ n.bit NReg.BOOT_STATUS_compute_on = true ∧ n.pkg.portsOn = true ∧
      n.get NReg.FW_STATUS_state = 1 ∧ n.bit NReg.FW_LOAD_STAT_restored = s.nld.copyReadable ∧
      n.doms = s.nld.doms ∧ n.recorder.slots = s.nld.recorder.slots) ∧
    (∀ code, s.nld.bootStage = 0 ∨ s.nld.bootStage = 1 → NldDoes (.bootStageComplete (.failed code)) s fun n =>
      n.bootStage = 15 ∧ n.get NReg.BOOT_STATUS_fail_code = code.toNat ∧
      Nld.only [.regs, .pkg, .hwErr, .recorder] s.nld n) ∧
    (∀ e, s.nld.bootStage = 2 ∨ s.nld.bootStage = 3 ∨ 5 ≤ s.nld.bootStage → NldDoes (.bootStageComplete e) s fun n =>
      n.pkg = { s.nld.pkg with resetting := false } ∧ Nld.only [.pkg] s.nld n)) ∧
  (∀ s : State, s.nld.runs → NldDoes .pcieReset s fun n =>
    (∀ key, key / 32 < 17 → (n.ring key).enabled = false ∧ (n.ring key).held = []) ∧ n.host.reads = [] ∧ n.host.writes = [] ∧
    Nld.only [.regs, .host] s.nld n)

/-- Errors of Naloder's memories, die link and queues (R217, R218, R230, R322, R323, R325, R373, R492, R702, R703): each is counted and
raises its event; an uncorrectable granule is marked and recorded, and the first keeps its place. -/
def Obligations.NldErrors : Prop :=
  (∀ (s : State) (addr : BitVec 37) (hit : HbmHit), s.nld.runs → NldDoes (.hbmUe addr hit) s fun n =>
    n.bit NReg.MEM_EVT_ue = true ∧
    n.get NReg.MEM_UE_HBM_count = min (s.nld.get NReg.MEM_UE_HBM_count + 1) NReg.MEM_UE_HBM_count.max ∧
    (hit = .other → addr.toNat / 256 ∈ n.pkg.marked) ∧
    (s.nld.bit NReg.MEM_EVT_ue = false → n.get NReg.MEM_FIRST_structure = (if addr.toNat / 256 % 64 < 32 then 6 else 7) ∧
      n.get NReg.MEM_ADDR_LO_addr_lo = addr.toNat % 2 ^ 32) ∧
    (s.nld.bit NReg.MEM_EVT_ue = true → n.get NReg.MEM_FIRST_structure = s.nld.get NReg.MEM_FIRST_structure) ∧
    Nld.only [.regs, .pkg, .hwErr, .tick, .series, .host, .recorder] s.nld n) ∧
  (∀ s : State, s.nld.runs →
    (s.nld.bit NReg.HBM_SCRUB_enable = true → NldDoes .scrubPassComplete s fun n =>
      n.bit NReg.MEM_EVT_scrub_pass = true ∧ n.get NReg.HBM_SCRUB_progress = 0 ∧ Nld.only [.regs, .hwErr] s.nld n) ∧
    (s.nld.bit NReg.HBM_SCRUB_enable = false → NldDoes .scrubPassComplete s fun n => Nld.only [] s.nld n) ∧
    (∀ x ∈ [(NldMem.sram, NReg.MEM_CE_SRAM_count), (.network, NReg.MEM_CE_NOC_count), (.hbm, NReg.MEM_CE_HBM_count)],
      NldDoes (.correctableError (some x.1)) s fun n =>
        n.get x.2 = min (s.nld.get x.2 + 1) x.2.max ∧ n.bit NReg.MEM_EVT_ce = true ∧ Nld.only [.regs, .hwErr] s.nld n) ∧
    (∀ ns : Nat, NldDoes (.d2dReplay ns) s fun n =>
      n.get NReg.D2D_REPLAY_count = min (s.nld.get NReg.D2D_REPLAY_count + 1) NReg.D2D_REPLAY_count.max ∧
      n.get NReg.D2D_MAXNS_max_ns = min 65535 (max ns (s.nld.get NReg.D2D_MAXNS_max_ns)) ∧
      n.bit NReg.D2D_EVT_replay = true ∧ Nld.only [.regs, .hwErr] s.nld n) ∧
    NldDoes .d2dReplayLimit s (fun n =>
      n.get NReg.D2D_UNC_count = min (s.nld.get NReg.D2D_UNC_count + 1) NReg.D2D_UNC_count.max ∧
      n.bit NReg.D2D_EVT_unc = true ∧ Nld.only [.regs, .hwErr] s.nld n)) ∧
  (∀ (s : State) (id : BitVec 16), s.nld.runs →
    (nldQueueNamed id.toNat = true → NldDoes (.queueCheckFailure (.nld id)) s fun n =>
      n.bit NReg.QCHK_STATUS_chk_err = true ∧
      n.get NReg.QCHK_COUNT_count = min (s.nld.get NReg.QCHK_COUNT_count + 1) NReg.QCHK_COUNT_count.max ∧
      n.get NReg.QCHK_STATUS_first_id = (if s.nld.bit NReg.QCHK_STATUS_chk_err = true
        then s.nld.get NReg.QCHK_STATUS_first_id else id.toNat % 2 ^ NReg.QCHK_STATUS_first_id.width) ∧
      Nld.only [.regs, .hwErr, .chains, .group, .rdma] s.nld n) ∧
    (nldQueueNamed id.toNat = false → NldDoes (.queueCheckFailure (.nld id)) s fun n => Nld.only [] s.nld n))

/-- Reads of Naloder's registers (R14, R156, R691): the word read goes to the host; a read clears the RC fields it returns, and a _LO
read latches the words that belong to it. Nothing else changes.

Writes of Naloder's registers (R14, R336, R340, R531, R533, R691, R700, R704, R708): a plain word takes its fields from either side of
the block; a partial or early write of the PF is ignored and reported; the interrupt registers take enables and clear what
is written 1, and a set that is not empty then has its message. -/
def Obligations.NldRegisterAccess : Prop :=
  (∀ (s : State) (fn : Fin 17) (a : BitVec 24), s.nld.writable → inBar fn.val a.toNat = true → a.toNat % 4 = 0 →
    emulatedBlock fn.val a.toNat = false → inMsix fn.val a.toNat = false → inPba fn.val a.toNat = false →
    ∀ c ∈ [Instr.readClear (.nld fn a), .loReadLatch (.nld fn a)], NldDoes c s fun n =>
      s.nld.emits n (.readData fn.val a.toNat
        ((Tbl.find? (nldAddr fn.val a.toNat) s.nld.host.latch).getD (s.nld.live (nldAddr fn.val a.toNat)))) ∧
      (∀ x ∈ nldFields (nldAddr fn.val a.toNat), x.1.acc = .rc → x.1 ≠ NReg.SHP_WAIT_count → n.get x.1 x.2 = 0) ∧
      (∀ x ∈ nldLatched (nldAddr fn.val a.toNat), Tbl.find? x n.host.latch = some (s.nld.live x)) ∧
      Nld.only [.regs, .host, .rdma] s.nld n ∧
      Nld.regsOnly ((nldFields (nldAddr fn.val a.toNat)).filter (fun x => x.1.acc = .rc)) s.nld n) ∧
  (∀ (s : State) (v : Word), ∀ f ∈ [NReg.ABT_ON_HOST_scope, NReg.ABT_ON_KTU_scope, NReg.ABT_ON_VERDICT_scope, NReg.ABT_ON_DEAD_scope,
      NReg.ADV_CFG_lead_ticks],
    (s.nld.writable → NldDoes (.registerWrite (.nld 0 (BitVec.ofNat 24 f.base) v true)) s fun n =>
      n.get f = f.part v.toNat ∧ Nld.only [.regs] s.nld n ∧ Nld.regsOnly [(f, 0)] s.nld n) ∧
    (s.nld.runs → s.nld.fwRuns = true → NldDoes (.registerWrite (.firmware (BitVec.ofNat 24 f.base) v)) s fun n =>
      n.get f = f.part v.toNat ∧ Nld.only [.regs] s.nld n ∧ Nld.regsOnly [(f, 0)] s.nld n) ∧
    (s.nld.runs → s.nld.fwRuns = false → NldDoes (.registerWrite (.firmware (BitVec.ofNat 24 f.base) v)) s fun n =>
      Nld.only [] s.nld n) ∧
    (s.nld.runs → s.nld.pkg.resetting = false → NldDoes (.registerWrite (.nld 0 (BitVec.ofNat 24 f.base) v false)) s fun n =>
      n.bit NReg.ACC_EVT_partial_write = true ∧
      n.get NReg.ACC_IGNORED_count = min (s.nld.get NReg.ACC_IGNORED_count + 1) NReg.ACC_IGNORED_count.max ∧
      n.get f = s.nld.get f ∧ Nld.only [.regs, .hwErr] s.nld n) ∧
    (s.nld.runs → s.nld.pkg.resetting = false → s.nld.bootStage < 5 →
      NldDoes (.registerWrite (.nld 0 (BitVec.ofNat 24 f.base) v true)) s fun n =>
        n.bit NReg.ACC_EVT_early_write = true ∧
        n.get NReg.ACC_IGNORED_count = min (s.nld.get NReg.ACC_IGNORED_count + 1) NReg.ACC_IGNORED_count.max ∧
        n.get f = s.nld.get f ∧ Nld.only [.regs, .hwErr] s.nld n)) ∧
  (∀ (s : State) (v : Word), s.nld.writable →
    NldDoes (.nldIrqWrite true v) s (fun n =>
      n.get NReg.IRQ_EN_en = v.toNat % 2 ^ 18 ∧ n.get NReg.IRQ_PEND_pend = s.nld.get NReg.IRQ_PEND_pend ∧
      (n.irqSet ≠ 0 → s.nld.vecMasked 0 0 = false → s.nld.emits n (.msix 0 0)) ∧
      Nld.only [.regs] s.nld n ∧ Nld.regsOnly [(NReg.IRQ_EN_en, 0)] s.nld n) ∧
    NldDoes (.nldIrqWrite false v) s (fun n =>
      n.get NReg.IRQ_PEND_pend =
        (s.nld.get NReg.IRQ_PEND_pend - (s.nld.get NReg.IRQ_PEND_pend &&& v.toNat % 2 ^ 18)) % 2 ^ 18 ∧
      (n.irqSet ≠ 0 → s.nld.vecMasked 0 0 = false → s.nld.emits n (.msix 0 0)) ∧ Nld.only [] s.nld n) ∧
    (∀ p : Fin 16,
      NldDoes (.vfIrqWrite p true v) s (fun n =>
        n.get NReg.VF_EN_en p.val = v.toNat % 2 ^ 7 ∧ Nld.only [.regs] s.nld n ∧
        Nld.regsOnly [(NReg.VF_EN_en, p.val)] s.nld n) ∧
      NldDoes (.vfIrqWrite p false v) s (fun n =>
        (s.nld.get NReg.VF_EVT_abort p.val ≤ 1 →
          n.get NReg.VF_EVT_abort p.val = (if bitOf v.toNat 4 = true then 0 else s.nld.get NReg.VF_EVT_abort p.val)) ∧
        Nld.only [.regs] s.nld n ∧
        Nld.regsOnly ([NReg.VF_EVT_run_fault, NReg.VF_EVT_abort, NReg.VF_EVT_fw_state, NReg.VF_EVT_window, NReg.VF_EVT_epoch,
          NReg.VF_EVT_members].map (fun f => (f, p.val))) s.nld n)))

/-- The emulated window (R589, R590, R706): firmware answers a read and applies a write while it runs; otherwise a read waits, until its
time is over and it reads all ones, and a write waits among 64 at most. -/
def Obligations.EmulatedWindow : Prop :=
  ∀ (s : State) (fn : Fin 17) (a : BitVec 24), s.nld.writable → inBar fn.val a.toNat = true → a.toNat % 4 = 0 →
    emulatedBlock fn.val a.toNat = true →
    (s.nld.serves = true → NldDoes (.emulatedRead fn a) s fun n =>
      s.nld.emits n (.readData fn.val a.toNat (s.nld.emulatedValue fn.val a.toNat)) ∧ Nld.only [] s.nld n) ∧
    (s.nld.serves = false → NldDoes (.emulatedRead fn a) s fun n =>
      n.host.reads = s.nld.host.reads ++ [(fn.val, a.toNat)] ∧ n.host.rings = s.nld.host.rings ∧ Nld.only [.host] s.nld n) ∧
    ((fn.val, a.toNat) ∈ s.nld.host.reads → NldDoes (.emulatedReadTimeout fn a) s fun n =>
      s.nld.emits n (.readData fn.val a.toNat 0xFFFFFFFF) ∧ n.host.reads = s.nld.host.reads.erase (fn.val, a.toNat) ∧
      (fn.val = 0 → n.bit NReg.HQ_EVT_emul_timeout = true) ∧ Nld.only [.regs, .hwErr, .host] s.nld n) ∧
    ((fn.val, a.toNat) ∉ s.nld.host.reads → NldDoes (.emulatedReadTimeout fn a) s fun n => Nld.only [] s.nld n) ∧
    (∀ v : Word,
      (s.nld.serves = false → s.nld.host.writes.length < 64 → NldDoes (.emulatedWrite fn a v) s fun n =>
        n.host.writes = s.nld.host.writes ++ [(fn.val, a.toNat, v.toNat)] ∧ n.host.reads = s.nld.host.reads ∧
        Nld.only [.host] s.nld n) ∧
      (s.nld.serves = false → 64 ≤ s.nld.host.writes.length → fn.val = 0 → NldDoes (.emulatedWrite fn a v) s fun n =>
        n.bit NReg.HQ_EVT_emul_drop = true ∧
        n.get NReg.HQ_EMULDROP_count = min (s.nld.get NReg.HQ_EMULDROP_count + 1) NReg.HQ_EMULDROP_count.max ∧
        Nld.only [.regs, .hwErr] s.nld n) ∧
      (s.nld.serves = true → fn.val ≠ 0 → NldDoes (.emulatedWrite fn a v) s fun n => Nld.only [] s.nld n) ∧
      (s.nld.serves = true → a = 0x20010 → fn = 0 → s.nld.bit NReg.TICK_CTRL_run = false → 8 ≤ v.toNat % 64 →
        v.toNat % 64 ≤ 62 → v.toNat % 64 ≠ s.nld.get NReg.FWE_HIST_gib → s.nld.sched.shares = [] →
        NldDoes (.emulatedWrite fn a v) s fun n =>
          n.get NReg.FWE_HIST_gib = v.toNat % 64 ∧ n.sched = s.nld.sched ∧ Nld.only [.regs, .series] s.nld n))

/-- Writes before boot stage 5 (R336, R689, R704): they change nothing but the report that they were ignored. -/
def Obligations.EarlyWritesIgnored : Prop :=
  ∀ (s : State) (c : Instr), pfWriteRow c = true → s.nld.runs → s.nld.pkg.resetting = false → s.nld.bootStage < 5 →
    NldDoes c s fun n =>
      n.bit NReg.ACC_EVT_early_write = true ∧
      n.get NReg.ACC_IGNORED_count = min (s.nld.get NReg.ACC_IGNORED_count + 1) NReg.ACC_IGNORED_count.max ∧
      Nld.only [.regs, .hwErr] s.nld n ∧
      Nld.regsOnly [(NReg.ACC_EVT_early_write, 0), (NReg.ACC_EVT_reason, 0), (NReg.ACC_IGNORED_count, 0),
        (NReg.HWERR_PROD_seq, 0), (NReg.HWERR_LOST_count, 0)] s.nld n

/-- What is locked while ticks run (R100): NLD_TIME_CFG and NLD_TDd_SRC take a write only while run = 0; another is ignored and sets
cfg_refused. -/
def Obligations.TimeConfigLocked : Prop :=
  ∀ (s : State) (v : Word), s.nld.writable →
    (s.nld.bit NReg.TICK_CTRL_run = false →
      (∀ x ∈ nldFields 0xC1000, x.1.acc = .rw → NldDoes (.registerWrite (.nld 0 0xC1000 v true)) s fun n =>
        n.get x.1 x.2 = x.1.part v.toNat ∧ Nld.only [.regs] s.nld n) ∧
      (∀ (d : Fin 8) (w : BitVec 12), NldDoes (.tickSrcWrite (.nld d w)) s fun n =>
        n.get NReg.TDd_SRC_primary d.val = w.toNat % 16 ∧ n.get NReg.TDd_SRC_secondary d.val = w.toNat / 16 % 16 ∧
        n.get NReg.TDd_SRC_ref_domain d.val = w.toNat / 256 % 8 ∧ n.get NReg.TDd_SRC_revertive d.val = w.toNat / 2048)) ∧
    (s.nld.bit NReg.TICK_CTRL_run = true →
      (∀ x ∈ nldFields 0xC1000, x.1.acc = .rw → NldDoes (.registerWrite (.nld 0 0xC1000 v true)) s fun n =>
        n.get x.1 x.2 = s.nld.get x.1 x.2 ∧ n.bit NReg.TICK_ERR_cfg_refused = true ∧ Nld.only [.regs, .hwErr] s.nld n) ∧
      (∀ (d : Fin 8) (w : BitVec 12), NldDoes (.tickSrcWrite (.nld d w)) s fun n =>
        n.dom d.val = s.nld.dom d.val ∧ n.bit NReg.TICK_ERR_cfg_refused = true ∧ Nld.only [.regs, .hwErr] s.nld n ∧
        Nld.regsOnly [(NReg.TICK_ERR_cfg_refused, 0), (NReg.HWERR_PROD_seq, 0), (NReg.HWERR_LOST_count, 0)] s.nld n))

/-- No command faults, and the one refusal there is has one ground (R104): a command of the KTU, after ktu_clk has stopped while
ktu_por_n was high, until ktu_por_n is next asserted. -/
def Obligations.OnlyAStoppedClockRefuses : Prop :=
  ∀ (s : State) (c : Instr),
    (∀ f, exec c s ≠ .fault f) ∧
    (∀ r, exec c s = .refused r → r = .ktuUndefined ∧ actsOnKtu c = true ∧ s.ktu.pins.clkStopped = true) ∧
    (actsOnKtu c = true → ktuPower c = false → s.ktu.pins.clkStopped = true → exec c s = .refused .ktuUndefined) ∧
    (s.ktu.pins.clkStopped = false → ∃ t, exec c s = .next t)

/-- In reset, and after a stop, nothing acts (R334, R679, R697, R714): the state stays as it is, but for the commands of power and reset. -/
def Obligations.NothingActsInReset : Prop :=
  ∀ (s : State) (c : Instr),
    (actsOnKtu c = true → ktuPower c = false → s.ktu.pins.porLow = true → s.ktu.pins.clkStopped = false →
      exec c s = .next s) ∧
    (actsOnKtu c = false → nldPower c = false → s.nld.pkg.porLow = true ∨ s.nld.pkg.stopped = true → exec c s = .next s) ∧
    (s.pending = [] → s.ktu.pins.porLow = true → s.nld.pkg.porLow = true → step s = .next s)

/-- The two sides stay apart: a command acts on one of them, does not touch the other or the queue, and what it does does not depend
on the other. -/
def Obligations.SidesApart : Prop :=
  ∀ (s t : State) (c : Instr), exec c s = .next t →
    t.pending = s.pending ∧
    (actsOnKtu c = true → t.nld = s.nld ∧
      ∀ (n : Nld) (q : List Instr), exec c { s with nld := n, pending := q } = .next { t with nld := n, pending := q }) ∧
    (actsOnKtu c = false → t.ktu = s.ktu ∧ t.free = s.free ∧
      ∀ (k : Ktu) (q : List Instr), exec c { s with ktu := k, pending := q } = .next { t with ktu := k, pending := q })

/-- Awake is kept by every step (R309): no link of the KTU stays in L0q or L1 while a wake source is pending. -/
def Obligations.AwakeIsKept : Prop := ∀ s t : State, s.awake → step s = .next t → t.awake

/-- What the opening of ticks knows of domain 0 is kept by every step (R83). -/
def Obligations.LockKnownIsKept : Prop := ∀ s t : State, s.lockKnown → step s = .next t → t.lockKnown
end

