-- ==== Sys2Proof/Laws/State.lean ====
section
/-! SUPPORT. One lemma for each field and each named update of a KTU and of a Naloder: what the update leaves alone. -/

namespace Sys2Proof.Machine

open Sys2Proof

/-! ### Ktu.put -/

@[simp] theorem Ktu.put_pins (k : Ktu) (f : Fld) (v : Nat) (i : Nat) : (k.put f v i).pins = k.pins := rfl
@[simp] theorem Ktu.put_remoteIdx (k : Ktu) (f : Fld) (v : Nat) (i : Nat) : (k.put f v i).remoteIdx = k.remoteIdx := rfl
@[simp] theorem Ktu.put_latchL (k : Ktu) (f : Fld) (v : Nat) (i : Nat) : (k.put f v i).latchL = k.latchL := rfl
@[simp] theorem Ktu.put_latchR (k : Ktu) (f : Fld) (v : Nat) (i : Nat) : (k.put f v i).latchR = k.latchR := rfl
@[simp] theorem Ktu.put_time (k : Ktu) (f : Fld) (v : Nat) (i : Nat) : (k.put f v i).time = k.time := rfl
@[simp] theorem Ktu.put_cnt (k : Ktu) (f : Fld) (v : Nat) (i : Nat) : (k.put f v i).cnt = k.cnt := rfl
@[simp] theorem Ktu.put_tail (k : Ktu) (f : Fld) (v : Nat) (i : Nat) : (k.put f v i).tail = k.tail := rfl
@[simp] theorem Ktu.put_trace (k : Ktu) (f : Fld) (v : Nat) (i : Nat) : (k.put f v i).trace = k.trace := rfl
@[simp] theorem Ktu.put_halts (k : Ktu) (f : Fld) (v : Nat) (i : Nat) : (k.put f v i).halts = k.halts := rfl
@[simp] theorem Ktu.put_queues (k : Ktu) (f : Fld) (v : Nat) (i : Nat) : (k.put f v i).queues = k.queues := rfl
@[simp] theorem Ktu.put_codec (k : Ktu) (f : Fld) (v : Nat) (i : Nat) : (k.put f v i).codec = k.codec := rfl
@[simp] theorem Ktu.put_fife (k : Ktu) (f : Fld) (v : Nat) (i : Nat) : (k.put f v i).fife = k.fife := rfl
@[simp] theorem Ktu.put_check (k : Ktu) (f : Fld) (v : Nat) (i : Nat) : (k.put f v i).check = k.check := rfl
@[simp] theorem Ktu.put_resetPending (k : Ktu) (f : Fld) (v : Nat) (i : Nat) : (k.put f v i).resetPending = k.resetPending := rfl
@[simp] theorem Ktu.put_errHeld (k : Ktu) (f : Fld) (v : Nat) (i : Nat) : (k.put f v i).errHeld = k.errHeld := rfl
@[simp] theorem Ktu.put_lastRead (k : Ktu) (f : Fld) (v : Nat) (i : Nat) : (k.put f v i).lastRead = k.lastRead := rfl

/-! ### Ktu.count -/

@[simp] theorem Ktu.count_pins (k : Ktu) (f : Fld) (v : Nat) (i : Nat) : (k.count f v i).pins = k.pins := rfl
@[simp] theorem Ktu.count_remoteIdx (k : Ktu) (f : Fld) (v : Nat) (i : Nat) : (k.count f v i).remoteIdx = k.remoteIdx := rfl
@[simp] theorem Ktu.count_latchL (k : Ktu) (f : Fld) (v : Nat) (i : Nat) : (k.count f v i).latchL = k.latchL := rfl
@[simp] theorem Ktu.count_latchR (k : Ktu) (f : Fld) (v : Nat) (i : Nat) : (k.count f v i).latchR = k.latchR := rfl
@[simp] theorem Ktu.count_time (k : Ktu) (f : Fld) (v : Nat) (i : Nat) : (k.count f v i).time = k.time := rfl
@[simp] theorem Ktu.count_cnt (k : Ktu) (f : Fld) (v : Nat) (i : Nat) : (k.count f v i).cnt = k.cnt := rfl
@[simp] theorem Ktu.count_tail (k : Ktu) (f : Fld) (v : Nat) (i : Nat) : (k.count f v i).tail = k.tail := rfl
@[simp] theorem Ktu.count_trace (k : Ktu) (f : Fld) (v : Nat) (i : Nat) : (k.count f v i).trace = k.trace := rfl
@[simp] theorem Ktu.count_halts (k : Ktu) (f : Fld) (v : Nat) (i : Nat) : (k.count f v i).halts = k.halts := rfl
@[simp] theorem Ktu.count_queues (k : Ktu) (f : Fld) (v : Nat) (i : Nat) : (k.count f v i).queues = k.queues := rfl
@[simp] theorem Ktu.count_codec (k : Ktu) (f : Fld) (v : Nat) (i : Nat) : (k.count f v i).codec = k.codec := rfl
@[simp] theorem Ktu.count_fife (k : Ktu) (f : Fld) (v : Nat) (i : Nat) : (k.count f v i).fife = k.fife := rfl
@[simp] theorem Ktu.count_check (k : Ktu) (f : Fld) (v : Nat) (i : Nat) : (k.count f v i).check = k.check := rfl
@[simp] theorem Ktu.count_resetPending (k : Ktu) (f : Fld) (v : Nat) (i : Nat) : (k.count f v i).resetPending = k.resetPending := rfl
@[simp] theorem Ktu.count_errHeld (k : Ktu) (f : Fld) (v : Nat) (i : Nat) : (k.count f v i).errHeld = k.errHeld := rfl
@[simp] theorem Ktu.count_lastRead (k : Ktu) (f : Fld) (v : Nat) (i : Nat) : (k.count f v i).lastRead = k.lastRead := rfl

/-! ### Ktu.setTb -/

@[simp] theorem Ktu.setTb_pins (k : Ktu) (x : TbId) (b : TimeBase) : (k.setTb x b).pins = k.pins := by cases x <;> rfl
@[simp] theorem Ktu.setTb_regs (k : Ktu) (x : TbId) (b : TimeBase) : (k.setTb x b).regs = k.regs := by cases x <;> rfl
@[simp] theorem Ktu.setTb_remoteIdx (k : Ktu) (x : TbId) (b : TimeBase) : (k.setTb x b).remoteIdx = k.remoteIdx := by cases x <;> rfl
@[simp] theorem Ktu.setTb_latchL (k : Ktu) (x : TbId) (b : TimeBase) : (k.setTb x b).latchL = k.latchL := by cases x <;> rfl
@[simp] theorem Ktu.setTb_latchR (k : Ktu) (x : TbId) (b : TimeBase) : (k.setTb x b).latchR = k.latchR := by cases x <;> rfl
@[simp] theorem Ktu.setTb_cnt (k : Ktu) (x : TbId) (b : TimeBase) : (k.setTb x b).cnt = k.cnt := by cases x <;> rfl
@[simp] theorem Ktu.setTb_tail (k : Ktu) (x : TbId) (b : TimeBase) : (k.setTb x b).tail = k.tail := by cases x <;> rfl
@[simp] theorem Ktu.setTb_trace (k : Ktu) (x : TbId) (b : TimeBase) : (k.setTb x b).trace = k.trace := by cases x <;> rfl
@[simp] theorem Ktu.setTb_halts (k : Ktu) (x : TbId) (b : TimeBase) : (k.setTb x b).halts = k.halts := by cases x <;> rfl
@[simp] theorem Ktu.setTb_queues (k : Ktu) (x : TbId) (b : TimeBase) : (k.setTb x b).queues = k.queues := by cases x <;> rfl
@[simp] theorem Ktu.setTb_codec (k : Ktu) (x : TbId) (b : TimeBase) : (k.setTb x b).codec = k.codec := by cases x <;> rfl
@[simp] theorem Ktu.setTb_fife (k : Ktu) (x : TbId) (b : TimeBase) : (k.setTb x b).fife = k.fife := by cases x <;> rfl
@[simp] theorem Ktu.setTb_check (k : Ktu) (x : TbId) (b : TimeBase) : (k.setTb x b).check = k.check := by cases x <;> rfl
@[simp] theorem Ktu.setTb_resetPending (k : Ktu) (x : TbId) (b : TimeBase) : (k.setTb x b).resetPending = k.resetPending := by cases x <;> rfl
@[simp] theorem Ktu.setTb_errHeld (k : Ktu) (x : TbId) (b : TimeBase) : (k.setTb x b).errHeld = k.errHeld := by cases x <;> rfl
@[simp] theorem Ktu.setTb_lastRead (k : Ktu) (x : TbId) (b : TimeBase) : (k.setTb x b).lastRead = k.lastRead := by cases x <;> rfl

/-! ### Ktu.setHalt -/

@[simp] theorem Ktu.setHalt_pins (k : Ktu) (j : Nat) (c : HaltCtx) : (k.setHalt j c).pins = k.pins := rfl
@[simp] theorem Ktu.setHalt_regs (k : Ktu) (j : Nat) (c : HaltCtx) : (k.setHalt j c).regs = k.regs := rfl
@[simp] theorem Ktu.setHalt_remoteIdx (k : Ktu) (j : Nat) (c : HaltCtx) : (k.setHalt j c).remoteIdx = k.remoteIdx := rfl
@[simp] theorem Ktu.setHalt_latchL (k : Ktu) (j : Nat) (c : HaltCtx) : (k.setHalt j c).latchL = k.latchL := rfl
@[simp] theorem Ktu.setHalt_latchR (k : Ktu) (j : Nat) (c : HaltCtx) : (k.setHalt j c).latchR = k.latchR := rfl
@[simp] theorem Ktu.setHalt_time (k : Ktu) (j : Nat) (c : HaltCtx) : (k.setHalt j c).time = k.time := rfl
@[simp] theorem Ktu.setHalt_cnt (k : Ktu) (j : Nat) (c : HaltCtx) : (k.setHalt j c).cnt = k.cnt := rfl
@[simp] theorem Ktu.setHalt_tail (k : Ktu) (j : Nat) (c : HaltCtx) : (k.setHalt j c).tail = k.tail := rfl
@[simp] theorem Ktu.setHalt_trace (k : Ktu) (j : Nat) (c : HaltCtx) : (k.setHalt j c).trace = k.trace := rfl
@[simp] theorem Ktu.setHalt_queues (k : Ktu) (j : Nat) (c : HaltCtx) : (k.setHalt j c).queues = k.queues := rfl
@[simp] theorem Ktu.setHalt_codec (k : Ktu) (j : Nat) (c : HaltCtx) : (k.setHalt j c).codec = k.codec := rfl
@[simp] theorem Ktu.setHalt_fife (k : Ktu) (j : Nat) (c : HaltCtx) : (k.setHalt j c).fife = k.fife := rfl
@[simp] theorem Ktu.setHalt_check (k : Ktu) (j : Nat) (c : HaltCtx) : (k.setHalt j c).check = k.check := rfl
@[simp] theorem Ktu.setHalt_resetPending (k : Ktu) (j : Nat) (c : HaltCtx) : (k.setHalt j c).resetPending = k.resetPending := rfl
@[simp] theorem Ktu.setHalt_errHeld (k : Ktu) (j : Nat) (c : HaltCtx) : (k.setHalt j c).errHeld = k.errHeld := rfl
@[simp] theorem Ktu.setHalt_lastRead (k : Ktu) (j : Nat) (c : HaltCtx) : (k.setHalt j c).lastRead = k.lastRead := rfl

/-! ### Ktu.setRing -/

@[simp] theorem Ktu.setRing_pins (k : Ktu) (u : Nat) (r : TailRing) : (k.setRing u r).pins = k.pins := rfl
@[simp] theorem Ktu.setRing_regs (k : Ktu) (u : Nat) (r : TailRing) : (k.setRing u r).regs = k.regs := rfl
@[simp] theorem Ktu.setRing_remoteIdx (k : Ktu) (u : Nat) (r : TailRing) : (k.setRing u r).remoteIdx = k.remoteIdx := rfl
@[simp] theorem Ktu.setRing_latchL (k : Ktu) (u : Nat) (r : TailRing) : (k.setRing u r).latchL = k.latchL := rfl
@[simp] theorem Ktu.setRing_latchR (k : Ktu) (u : Nat) (r : TailRing) : (k.setRing u r).latchR = k.latchR := rfl
@[simp] theorem Ktu.setRing_time (k : Ktu) (u : Nat) (r : TailRing) : (k.setRing u r).time = k.time := rfl
@[simp] theorem Ktu.setRing_cnt (k : Ktu) (u : Nat) (r : TailRing) : (k.setRing u r).cnt = k.cnt := rfl
@[simp] theorem Ktu.setRing_trace (k : Ktu) (u : Nat) (r : TailRing) : (k.setRing u r).trace = k.trace := rfl
@[simp] theorem Ktu.setRing_halts (k : Ktu) (u : Nat) (r : TailRing) : (k.setRing u r).halts = k.halts := rfl
@[simp] theorem Ktu.setRing_queues (k : Ktu) (u : Nat) (r : TailRing) : (k.setRing u r).queues = k.queues := rfl
@[simp] theorem Ktu.setRing_codec (k : Ktu) (u : Nat) (r : TailRing) : (k.setRing u r).codec = k.codec := rfl
@[simp] theorem Ktu.setRing_fife (k : Ktu) (u : Nat) (r : TailRing) : (k.setRing u r).fife = k.fife := rfl
@[simp] theorem Ktu.setRing_check (k : Ktu) (u : Nat) (r : TailRing) : (k.setRing u r).check = k.check := rfl
@[simp] theorem Ktu.setRing_resetPending (k : Ktu) (u : Nat) (r : TailRing) : (k.setRing u r).resetPending = k.resetPending := rfl
@[simp] theorem Ktu.setRing_errHeld (k : Ktu) (u : Nat) (r : TailRing) : (k.setRing u r).errHeld = k.errHeld := rfl
@[simp] theorem Ktu.setRing_lastRead (k : Ktu) (u : Nat) (r : TailRing) : (k.setRing u r).lastRead = k.lastRead := rfl

/-! ### Ktu.setRegion -/

@[simp] theorem Ktu.setRegion_pins (k : Ktu) (j : Nat) (g : DigRegion) : (k.setRegion j g).pins = k.pins := rfl
@[simp] theorem Ktu.setRegion_regs (k : Ktu) (j : Nat) (g : DigRegion) : (k.setRegion j g).regs = k.regs := rfl
@[simp] theorem Ktu.setRegion_remoteIdx (k : Ktu) (j : Nat) (g : DigRegion) : (k.setRegion j g).remoteIdx = k.remoteIdx := rfl
@[simp] theorem Ktu.setRegion_latchL (k : Ktu) (j : Nat) (g : DigRegion) : (k.setRegion j g).latchL = k.latchL := rfl
@[simp] theorem Ktu.setRegion_latchR (k : Ktu) (j : Nat) (g : DigRegion) : (k.setRegion j g).latchR = k.latchR := rfl
@[simp] theorem Ktu.setRegion_time (k : Ktu) (j : Nat) (g : DigRegion) : (k.setRegion j g).time = k.time := rfl
@[simp] theorem Ktu.setRegion_cnt (k : Ktu) (j : Nat) (g : DigRegion) : (k.setRegion j g).cnt = k.cnt := rfl
@[simp] theorem Ktu.setRegion_tail (k : Ktu) (j : Nat) (g : DigRegion) : (k.setRegion j g).tail = k.tail := rfl
@[simp] theorem Ktu.setRegion_trace (k : Ktu) (j : Nat) (g : DigRegion) : (k.setRegion j g).trace = k.trace := rfl
@[simp] theorem Ktu.setRegion_halts (k : Ktu) (j : Nat) (g : DigRegion) : (k.setRegion j g).halts = k.halts := rfl
@[simp] theorem Ktu.setRegion_queues (k : Ktu) (j : Nat) (g : DigRegion) : (k.setRegion j g).queues = k.queues := rfl
@[simp] theorem Ktu.setRegion_codec (k : Ktu) (j : Nat) (g : DigRegion) : (k.setRegion j g).codec = k.codec := rfl
@[simp] theorem Ktu.setRegion_fife (k : Ktu) (j : Nat) (g : DigRegion) : (k.setRegion j g).fife = k.fife := rfl
@[simp] theorem Ktu.setRegion_resetPending (k : Ktu) (j : Nat) (g : DigRegion) : (k.setRegion j g).resetPending = k.resetPending := rfl
@[simp] theorem Ktu.setRegion_errHeld (k : Ktu) (j : Nat) (g : DigRegion) : (k.setRegion j g).errHeld = k.errHeld := rfl
@[simp] theorem Ktu.setRegion_lastRead (k : Ktu) (j : Nat) (g : DigRegion) : (k.setRegion j g).lastRead = k.lastRead := rfl

/-! ### Ktu.setRuns -/

@[simp] theorem Ktu.setRuns_pins (k : Ktu) (l : List PatRun) : (k.setRuns l).pins = k.pins := rfl
@[simp] theorem Ktu.setRuns_regs (k : Ktu) (l : List PatRun) : (k.setRuns l).regs = k.regs := rfl
@[simp] theorem Ktu.setRuns_remoteIdx (k : Ktu) (l : List PatRun) : (k.setRuns l).remoteIdx = k.remoteIdx := rfl
@[simp] theorem Ktu.setRuns_latchL (k : Ktu) (l : List PatRun) : (k.setRuns l).latchL = k.latchL := rfl
@[simp] theorem Ktu.setRuns_latchR (k : Ktu) (l : List PatRun) : (k.setRuns l).latchR = k.latchR := rfl
@[simp] theorem Ktu.setRuns_time (k : Ktu) (l : List PatRun) : (k.setRuns l).time = k.time := rfl
@[simp] theorem Ktu.setRuns_cnt (k : Ktu) (l : List PatRun) : (k.setRuns l).cnt = k.cnt := rfl
@[simp] theorem Ktu.setRuns_tail (k : Ktu) (l : List PatRun) : (k.setRuns l).tail = k.tail := rfl
@[simp] theorem Ktu.setRuns_trace (k : Ktu) (l : List PatRun) : (k.setRuns l).trace = k.trace := rfl
@[simp] theorem Ktu.setRuns_halts (k : Ktu) (l : List PatRun) : (k.setRuns l).halts = k.halts := rfl
@[simp] theorem Ktu.setRuns_queues (k : Ktu) (l : List PatRun) : (k.setRuns l).queues = k.queues := rfl
@[simp] theorem Ktu.setRuns_codec (k : Ktu) (l : List PatRun) : (k.setRuns l).codec = k.codec := rfl
@[simp] theorem Ktu.setRuns_fife (k : Ktu) (l : List PatRun) : (k.setRuns l).fife = k.fife := rfl
@[simp] theorem Ktu.setRuns_resetPending (k : Ktu) (l : List PatRun) : (k.setRuns l).resetPending = k.resetPending := rfl
@[simp] theorem Ktu.setRuns_errHeld (k : Ktu) (l : List PatRun) : (k.setRuns l).errHeld = k.errHeld := rfl
@[simp] theorem Ktu.setRuns_lastRead (k : Ktu) (l : List PatRun) : (k.setRuns l).lastRead = k.lastRead := rfl

/-! ### Ktu.setStore -/

@[simp] theorem Ktu.setStore_pins (k : Ktu) (l : List StoredFrame) : (k.setStore l).pins = k.pins := rfl
@[simp] theorem Ktu.setStore_regs (k : Ktu) (l : List StoredFrame) : (k.setStore l).regs = k.regs := rfl
@[simp] theorem Ktu.setStore_remoteIdx (k : Ktu) (l : List StoredFrame) : (k.setStore l).remoteIdx = k.remoteIdx := rfl
@[simp] theorem Ktu.setStore_latchL (k : Ktu) (l : List StoredFrame) : (k.setStore l).latchL = k.latchL := rfl
@[simp] theorem Ktu.setStore_latchR (k : Ktu) (l : List StoredFrame) : (k.setStore l).latchR = k.latchR := rfl
@[simp] theorem Ktu.setStore_time (k : Ktu) (l : List StoredFrame) : (k.setStore l).time = k.time := rfl
@[simp] theorem Ktu.setStore_cnt (k : Ktu) (l : List StoredFrame) : (k.setStore l).cnt = k.cnt := rfl
@[simp] theorem Ktu.setStore_tail (k : Ktu) (l : List StoredFrame) : (k.setStore l).tail = k.tail := rfl
@[simp] theorem Ktu.setStore_trace (k : Ktu) (l : List StoredFrame) : (k.setStore l).trace = k.trace := rfl
@[simp] theorem Ktu.setStore_halts (k : Ktu) (l : List StoredFrame) : (k.setStore l).halts = k.halts := rfl
@[simp] theorem Ktu.setStore_queues (k : Ktu) (l : List StoredFrame) : (k.setStore l).queues = k.queues := rfl
@[simp] theorem Ktu.setStore_fife (k : Ktu) (l : List StoredFrame) : (k.setStore l).fife = k.fife := rfl
@[simp] theorem Ktu.setStore_check (k : Ktu) (l : List StoredFrame) : (k.setStore l).check = k.check := rfl
@[simp] theorem Ktu.setStore_resetPending (k : Ktu) (l : List StoredFrame) : (k.setStore l).resetPending = k.resetPending := rfl
@[simp] theorem Ktu.setStore_errHeld (k : Ktu) (l : List StoredFrame) : (k.setStore l).errHeld = k.errHeld := rfl
@[simp] theorem Ktu.setStore_lastRead (k : Ktu) (l : List StoredFrame) : (k.setStore l).lastRead = k.lastRead := rfl

/-! ### Ktu.setQueueCtl -/

@[simp] theorem Ktu.setQueueCtl_pins (k : Ktu) (j : Nat) (c : QueueCtl) : (k.setQueueCtl j c).pins = k.pins := rfl
@[simp] theorem Ktu.setQueueCtl_regs (k : Ktu) (j : Nat) (c : QueueCtl) : (k.setQueueCtl j c).regs = k.regs := rfl
@[simp] theorem Ktu.setQueueCtl_remoteIdx (k : Ktu) (j : Nat) (c : QueueCtl) : (k.setQueueCtl j c).remoteIdx = k.remoteIdx := rfl
@[simp] theorem Ktu.setQueueCtl_latchL (k : Ktu) (j : Nat) (c : QueueCtl) : (k.setQueueCtl j c).latchL = k.latchL := rfl
@[simp] theorem Ktu.setQueueCtl_latchR (k : Ktu) (j : Nat) (c : QueueCtl) : (k.setQueueCtl j c).latchR = k.latchR := rfl
@[simp] theorem Ktu.setQueueCtl_time (k : Ktu) (j : Nat) (c : QueueCtl) : (k.setQueueCtl j c).time = k.time := rfl
@[simp] theorem Ktu.setQueueCtl_cnt (k : Ktu) (j : Nat) (c : QueueCtl) : (k.setQueueCtl j c).cnt = k.cnt := rfl
@[simp] theorem Ktu.setQueueCtl_tail (k : Ktu) (j : Nat) (c : QueueCtl) : (k.setQueueCtl j c).tail = k.tail := rfl
@[simp] theorem Ktu.setQueueCtl_trace (k : Ktu) (j : Nat) (c : QueueCtl) : (k.setQueueCtl j c).trace = k.trace := rfl
@[simp] theorem Ktu.setQueueCtl_halts (k : Ktu) (j : Nat) (c : QueueCtl) : (k.setQueueCtl j c).halts = k.halts := rfl
@[simp] theorem Ktu.setQueueCtl_codec (k : Ktu) (j : Nat) (c : QueueCtl) : (k.setQueueCtl j c).codec = k.codec := rfl
@[simp] theorem Ktu.setQueueCtl_fife (k : Ktu) (j : Nat) (c : QueueCtl) : (k.setQueueCtl j c).fife = k.fife := rfl
@[simp] theorem Ktu.setQueueCtl_check (k : Ktu) (j : Nat) (c : QueueCtl) : (k.setQueueCtl j c).check = k.check := rfl
@[simp] theorem Ktu.setQueueCtl_resetPending (k : Ktu) (j : Nat) (c : QueueCtl) : (k.setQueueCtl j c).resetPending = k.resetPending := rfl
@[simp] theorem Ktu.setQueueCtl_errHeld (k : Ktu) (j : Nat) (c : QueueCtl) : (k.setQueueCtl j c).errHeld = k.errHeld := rfl
@[simp] theorem Ktu.setQueueCtl_lastRead (k : Ktu) (j : Nat) (c : QueueCtl) : (k.setQueueCtl j c).lastRead = k.lastRead := rfl

/-! ### Ktu.setSrc -/

@[simp] theorem Ktu.setSrc_pins (k : Ktu) (j : Nat) (t : TraceSource) : (k.setSrc j t).pins = k.pins := rfl
@[simp] theorem Ktu.setSrc_regs (k : Ktu) (j : Nat) (t : TraceSource) : (k.setSrc j t).regs = k.regs := rfl
@[simp] theorem Ktu.setSrc_remoteIdx (k : Ktu) (j : Nat) (t : TraceSource) : (k.setSrc j t).remoteIdx = k.remoteIdx := rfl
@[simp] theorem Ktu.setSrc_latchL (k : Ktu) (j : Nat) (t : TraceSource) : (k.setSrc j t).latchL = k.latchL := rfl
@[simp] theorem Ktu.setSrc_latchR (k : Ktu) (j : Nat) (t : TraceSource) : (k.setSrc j t).latchR = k.latchR := rfl
@[simp] theorem Ktu.setSrc_time (k : Ktu) (j : Nat) (t : TraceSource) : (k.setSrc j t).time = k.time := rfl
@[simp] theorem Ktu.setSrc_cnt (k : Ktu) (j : Nat) (t : TraceSource) : (k.setSrc j t).cnt = k.cnt := rfl
@[simp] theorem Ktu.setSrc_tail (k : Ktu) (j : Nat) (t : TraceSource) : (k.setSrc j t).tail = k.tail := rfl
@[simp] theorem Ktu.setSrc_halts (k : Ktu) (j : Nat) (t : TraceSource) : (k.setSrc j t).halts = k.halts := rfl
@[simp] theorem Ktu.setSrc_queues (k : Ktu) (j : Nat) (t : TraceSource) : (k.setSrc j t).queues = k.queues := rfl
@[simp] theorem Ktu.setSrc_codec (k : Ktu) (j : Nat) (t : TraceSource) : (k.setSrc j t).codec = k.codec := rfl
@[simp] theorem Ktu.setSrc_fife (k : Ktu) (j : Nat) (t : TraceSource) : (k.setSrc j t).fife = k.fife := rfl
@[simp] theorem Ktu.setSrc_check (k : Ktu) (j : Nat) (t : TraceSource) : (k.setSrc j t).check = k.check := rfl
@[simp] theorem Ktu.setSrc_resetPending (k : Ktu) (j : Nat) (t : TraceSource) : (k.setSrc j t).resetPending = k.resetPending := rfl
@[simp] theorem Ktu.setSrc_errHeld (k : Ktu) (j : Nat) (t : TraceSource) : (k.setSrc j t).errHeld = k.errHeld := rfl
@[simp] theorem Ktu.setSrc_lastRead (k : Ktu) (j : Nat) (t : TraceSource) : (k.setSrc j t).lastRead = k.lastRead := rfl

/-! ### Ktu.setLink -/

@[simp] theorem Ktu.setLink_pins (k : Ktu) (b : Bool) (e : LinkEnd) : (k.setLink b e).pins = k.pins := by cases b <;> rfl
@[simp] theorem Ktu.setLink_regs (k : Ktu) (b : Bool) (e : LinkEnd) : (k.setLink b e).regs = k.regs := by cases b <;> rfl
@[simp] theorem Ktu.setLink_remoteIdx (k : Ktu) (b : Bool) (e : LinkEnd) : (k.setLink b e).remoteIdx = k.remoteIdx := by cases b <;> rfl
@[simp] theorem Ktu.setLink_latchL (k : Ktu) (b : Bool) (e : LinkEnd) : (k.setLink b e).latchL = k.latchL := by cases b <;> rfl
@[simp] theorem Ktu.setLink_latchR (k : Ktu) (b : Bool) (e : LinkEnd) : (k.setLink b e).latchR = k.latchR := by cases b <;> rfl
@[simp] theorem Ktu.setLink_time (k : Ktu) (b : Bool) (e : LinkEnd) : (k.setLink b e).time = k.time := by cases b <;> rfl
@[simp] theorem Ktu.setLink_cnt (k : Ktu) (b : Bool) (e : LinkEnd) : (k.setLink b e).cnt = k.cnt := by cases b <;> rfl
@[simp] theorem Ktu.setLink_tail (k : Ktu) (b : Bool) (e : LinkEnd) : (k.setLink b e).tail = k.tail := by cases b <;> rfl
@[simp] theorem Ktu.setLink_trace (k : Ktu) (b : Bool) (e : LinkEnd) : (k.setLink b e).trace = k.trace := by cases b <;> rfl
@[simp] theorem Ktu.setLink_halts (k : Ktu) (b : Bool) (e : LinkEnd) : (k.setLink b e).halts = k.halts := by cases b <;> rfl
@[simp] theorem Ktu.setLink_queues (k : Ktu) (b : Bool) (e : LinkEnd) : (k.setLink b e).queues = k.queues := by cases b <;> rfl
@[simp] theorem Ktu.setLink_codec (k : Ktu) (b : Bool) (e : LinkEnd) : (k.setLink b e).codec = k.codec := by cases b <;> rfl
@[simp] theorem Ktu.setLink_check (k : Ktu) (b : Bool) (e : LinkEnd) : (k.setLink b e).check = k.check := by cases b <;> rfl
@[simp] theorem Ktu.setLink_resetPending (k : Ktu) (b : Bool) (e : LinkEnd) : (k.setLink b e).resetPending = k.resetPending := by cases b <;> rfl
@[simp] theorem Ktu.setLink_errHeld (k : Ktu) (b : Bool) (e : LinkEnd) : (k.setLink b e).errHeld = k.errHeld := by cases b <;> rfl
@[simp] theorem Ktu.setLink_lastRead (k : Ktu) (b : Bool) (e : LinkEnd) : (k.setLink b e).lastRead = k.lastRead := by cases b <;> rfl

/-! ### Ktu.sendUp -/

@[simp] theorem Ktu.sendUp_pins (k : Ktu) (m : Msg) : (k.sendUp m).pins = k.pins := rfl
@[simp] theorem Ktu.sendUp_regs (k : Ktu) (m : Msg) : (k.sendUp m).regs = k.regs := rfl
@[simp] theorem Ktu.sendUp_remoteIdx (k : Ktu) (m : Msg) : (k.sendUp m).remoteIdx = k.remoteIdx := rfl
@[simp] theorem Ktu.sendUp_latchL (k : Ktu) (m : Msg) : (k.sendUp m).latchL = k.latchL := rfl
@[simp] theorem Ktu.sendUp_latchR (k : Ktu) (m : Msg) : (k.sendUp m).latchR = k.latchR := rfl
@[simp] theorem Ktu.sendUp_time (k : Ktu) (m : Msg) : (k.sendUp m).time = k.time := rfl
@[simp] theorem Ktu.sendUp_cnt (k : Ktu) (m : Msg) : (k.sendUp m).cnt = k.cnt := rfl
@[simp] theorem Ktu.sendUp_tail (k : Ktu) (m : Msg) : (k.sendUp m).tail = k.tail := rfl
@[simp] theorem Ktu.sendUp_trace (k : Ktu) (m : Msg) : (k.sendUp m).trace = k.trace := rfl
@[simp] theorem Ktu.sendUp_halts (k : Ktu) (m : Msg) : (k.sendUp m).halts = k.halts := rfl
@[simp] theorem Ktu.sendUp_queues (k : Ktu) (m : Msg) : (k.sendUp m).queues = k.queues := rfl
@[simp] theorem Ktu.sendUp_codec (k : Ktu) (m : Msg) : (k.sendUp m).codec = k.codec := rfl
@[simp] theorem Ktu.sendUp_check (k : Ktu) (m : Msg) : (k.sendUp m).check = k.check := rfl
@[simp] theorem Ktu.sendUp_resetPending (k : Ktu) (m : Msg) : (k.sendUp m).resetPending = k.resetPending := rfl
@[simp] theorem Ktu.sendUp_errHeld (k : Ktu) (m : Msg) : (k.sendUp m).errHeld = k.errHeld := rfl
@[simp] theorem Ktu.sendUp_lastRead (k : Ktu) (m : Msg) : (k.sendUp m).lastRead = k.lastRead := rfl

/-! ### Ktu.sendDn -/

@[simp] theorem Ktu.sendDn_pins (k : Ktu) (m : Msg) : (k.sendDn m).pins = k.pins := rfl
@[simp] theorem Ktu.sendDn_regs (k : Ktu) (m : Msg) : (k.sendDn m).regs = k.regs := rfl
@[simp] theorem Ktu.sendDn_remoteIdx (k : Ktu) (m : Msg) : (k.sendDn m).remoteIdx = k.remoteIdx := rfl
@[simp] theorem Ktu.sendDn_latchL (k : Ktu) (m : Msg) : (k.sendDn m).latchL = k.latchL := rfl
@[simp] theorem Ktu.sendDn_latchR (k : Ktu) (m : Msg) : (k.sendDn m).latchR = k.latchR := rfl
@[simp] theorem Ktu.sendDn_time (k : Ktu) (m : Msg) : (k.sendDn m).time = k.time := rfl
@[simp] theorem Ktu.sendDn_cnt (k : Ktu) (m : Msg) : (k.sendDn m).cnt = k.cnt := rfl
@[simp] theorem Ktu.sendDn_tail (k : Ktu) (m : Msg) : (k.sendDn m).tail = k.tail := rfl
@[simp] theorem Ktu.sendDn_trace (k : Ktu) (m : Msg) : (k.sendDn m).trace = k.trace := rfl
@[simp] theorem Ktu.sendDn_halts (k : Ktu) (m : Msg) : (k.sendDn m).halts = k.halts := rfl
@[simp] theorem Ktu.sendDn_queues (k : Ktu) (m : Msg) : (k.sendDn m).queues = k.queues := rfl
@[simp] theorem Ktu.sendDn_codec (k : Ktu) (m : Msg) : (k.sendDn m).codec = k.codec := rfl
@[simp] theorem Ktu.sendDn_check (k : Ktu) (m : Msg) : (k.sendDn m).check = k.check := rfl
@[simp] theorem Ktu.sendDn_resetPending (k : Ktu) (m : Msg) : (k.sendDn m).resetPending = k.resetPending := rfl
@[simp] theorem Ktu.sendDn_errHeld (k : Ktu) (m : Msg) : (k.sendDn m).errHeld = k.errHeld := rfl
@[simp] theorem Ktu.sendDn_lastRead (k : Ktu) (m : Msg) : (k.sendDn m).lastRead = k.lastRead := rfl

/-! ### Ktu.stage -/

@[simp] theorem Ktu.stage_pins (k : Ktu) (f : Fld) (v : Nat) (i : Nat) : (k.stage f v i).pins = k.pins := rfl
@[simp] theorem Ktu.stage_regs (k : Ktu) (f : Fld) (v : Nat) (i : Nat) : (k.stage f v i).regs = k.regs := rfl
@[simp] theorem Ktu.stage_remoteIdx (k : Ktu) (f : Fld) (v : Nat) (i : Nat) : (k.stage f v i).remoteIdx = k.remoteIdx := rfl
@[simp] theorem Ktu.stage_latchL (k : Ktu) (f : Fld) (v : Nat) (i : Nat) : (k.stage f v i).latchL = k.latchL := rfl
@[simp] theorem Ktu.stage_latchR (k : Ktu) (f : Fld) (v : Nat) (i : Nat) : (k.stage f v i).latchR = k.latchR := rfl
@[simp] theorem Ktu.stage_time (k : Ktu) (f : Fld) (v : Nat) (i : Nat) : (k.stage f v i).time = k.time := rfl
@[simp] theorem Ktu.stage_tail (k : Ktu) (f : Fld) (v : Nat) (i : Nat) : (k.stage f v i).tail = k.tail := rfl
@[simp] theorem Ktu.stage_trace (k : Ktu) (f : Fld) (v : Nat) (i : Nat) : (k.stage f v i).trace = k.trace := rfl
@[simp] theorem Ktu.stage_halts (k : Ktu) (f : Fld) (v : Nat) (i : Nat) : (k.stage f v i).halts = k.halts := rfl
@[simp] theorem Ktu.stage_queues (k : Ktu) (f : Fld) (v : Nat) (i : Nat) : (k.stage f v i).queues = k.queues := rfl
@[simp] theorem Ktu.stage_codec (k : Ktu) (f : Fld) (v : Nat) (i : Nat) : (k.stage f v i).codec = k.codec := rfl
@[simp] theorem Ktu.stage_fife (k : Ktu) (f : Fld) (v : Nat) (i : Nat) : (k.stage f v i).fife = k.fife := rfl
@[simp] theorem Ktu.stage_check (k : Ktu) (f : Fld) (v : Nat) (i : Nat) : (k.stage f v i).check = k.check := rfl
@[simp] theorem Ktu.stage_resetPending (k : Ktu) (f : Fld) (v : Nat) (i : Nat) : (k.stage f v i).resetPending = k.resetPending := rfl
@[simp] theorem Ktu.stage_errHeld (k : Ktu) (f : Fld) (v : Nat) (i : Nat) : (k.stage f v i).errHeld = k.errHeld := rfl
@[simp] theorem Ktu.stage_lastRead (k : Ktu) (f : Fld) (v : Nat) (i : Nat) : (k.stage f v i).lastRead = k.lastRead := rfl

/-! ### Nld.put -/

@[simp] theorem Nld.put_pkg (n : Nld) (f : Fld) (v : Nat) (i : Nat) : (n.put f v i).pkg = n.pkg := rfl
@[simp] theorem Nld.put_hwErr (n : Nld) (f : Fld) (v : Nat) (i : Nat) : (n.put f v i).hwErr = n.hwErr := rfl
@[simp] theorem Nld.put_log (n : Nld) (f : Fld) (v : Nat) (i : Nat) : (n.put f v i).log = n.log := rfl
@[simp] theorem Nld.put_logSeq (n : Nld) (f : Fld) (v : Nat) (i : Nat) : (n.put f v i).logSeq = n.logSeq := rfl
@[simp] theorem Nld.put_out (n : Nld) (f : Fld) (v : Nat) (i : Nat) : (n.put f v i).out = n.out := rfl
@[simp] theorem Nld.put_doms (n : Nld) (f : Fld) (v : Nat) (i : Nat) : (n.put f v i).doms = n.doms := rfl
@[simp] theorem Nld.put_ktuTimes (n : Nld) (f : Fld) (v : Nat) (i : Nat) : (n.put f v i).ktuTimes = n.ktuTimes := rfl
@[simp] theorem Nld.put_ptp (n : Nld) (f : Fld) (v : Nat) (i : Nat) : (n.put f v i).ptp = n.ptp := rfl
@[simp] theorem Nld.put_tick (n : Nld) (f : Fld) (v : Nat) (i : Nat) : (n.put f v i).tick = n.tick := rfl
@[simp] theorem Nld.put_own (n : Nld) (f : Fld) (v : Nat) (i : Nat) : (n.put f v i).own = n.own := rfl
@[simp] theorem Nld.put_chains (n : Nld) (f : Fld) (v : Nat) (i : Nat) : (n.put f v i).chains = n.chains := rfl
@[simp] theorem Nld.put_series (n : Nld) (f : Fld) (v : Nat) (i : Nat) : (n.put f v i).series = n.series := rfl
@[simp] theorem Nld.put_tables (n : Nld) (f : Fld) (v : Nat) (i : Nat) : (n.put f v i).tables = n.tables := rfl
@[simp] theorem Nld.put_host (n : Nld) (f : Fld) (v : Nat) (i : Nat) : (n.put f v i).host = n.host := rfl
@[simp] theorem Nld.put_group (n : Nld) (f : Fld) (v : Nat) (i : Nat) : (n.put f v i).group = n.group := rfl
@[simp] theorem Nld.put_verdict (n : Nld) (f : Fld) (v : Nat) (i : Nat) : (n.put f v i).verdict = n.verdict := rfl
@[simp] theorem Nld.put_recorder (n : Nld) (f : Fld) (v : Nat) (i : Nat) : (n.put f v i).recorder = n.recorder := rfl
@[simp] theorem Nld.put_sec (n : Nld) (f : Fld) (v : Nat) (i : Nat) : (n.put f v i).sec = n.sec := rfl
@[simp] theorem Nld.put_sched (n : Nld) (f : Fld) (v : Nat) (i : Nat) : (n.put f v i).sched = n.sched := rfl
@[simp] theorem Nld.put_defence (n : Nld) (f : Fld) (v : Nat) (i : Nat) : (n.put f v i).defence = n.defence := rfl
@[simp] theorem Nld.put_rdma (n : Nld) (f : Fld) (v : Nat) (i : Nat) : (n.put f v i).rdma = n.rdma := rfl
@[simp] theorem Nld.put_fw (n : Nld) (f : Fld) (v : Nat) (i : Nat) : (n.put f v i).fw = n.fw := rfl

/-! ### Nld.count -/

@[simp] theorem Nld.count_pkg (n : Nld) (f : Fld) (v : Nat) (i : Nat) : (n.count f v i).pkg = n.pkg := rfl
@[simp] theorem Nld.count_hwErr (n : Nld) (f : Fld) (v : Nat) (i : Nat) : (n.count f v i).hwErr = n.hwErr := rfl
@[simp] theorem Nld.count_log (n : Nld) (f : Fld) (v : Nat) (i : Nat) : (n.count f v i).log = n.log := rfl
@[simp] theorem Nld.count_logSeq (n : Nld) (f : Fld) (v : Nat) (i : Nat) : (n.count f v i).logSeq = n.logSeq := rfl
@[simp] theorem Nld.count_out (n : Nld) (f : Fld) (v : Nat) (i : Nat) : (n.count f v i).out = n.out := rfl
@[simp] theorem Nld.count_doms (n : Nld) (f : Fld) (v : Nat) (i : Nat) : (n.count f v i).doms = n.doms := rfl
@[simp] theorem Nld.count_ktuTimes (n : Nld) (f : Fld) (v : Nat) (i : Nat) : (n.count f v i).ktuTimes = n.ktuTimes := rfl
@[simp] theorem Nld.count_ptp (n : Nld) (f : Fld) (v : Nat) (i : Nat) : (n.count f v i).ptp = n.ptp := rfl
@[simp] theorem Nld.count_tick (n : Nld) (f : Fld) (v : Nat) (i : Nat) : (n.count f v i).tick = n.tick := rfl
@[simp] theorem Nld.count_own (n : Nld) (f : Fld) (v : Nat) (i : Nat) : (n.count f v i).own = n.own := rfl
@[simp] theorem Nld.count_chains (n : Nld) (f : Fld) (v : Nat) (i : Nat) : (n.count f v i).chains = n.chains := rfl
@[simp] theorem Nld.count_series (n : Nld) (f : Fld) (v : Nat) (i : Nat) : (n.count f v i).series = n.series := rfl
@[simp] theorem Nld.count_tables (n : Nld) (f : Fld) (v : Nat) (i : Nat) : (n.count f v i).tables = n.tables := rfl
@[simp] theorem Nld.count_host (n : Nld) (f : Fld) (v : Nat) (i : Nat) : (n.count f v i).host = n.host := rfl
@[simp] theorem Nld.count_group (n : Nld) (f : Fld) (v : Nat) (i : Nat) : (n.count f v i).group = n.group := rfl
@[simp] theorem Nld.count_verdict (n : Nld) (f : Fld) (v : Nat) (i : Nat) : (n.count f v i).verdict = n.verdict := rfl
@[simp] theorem Nld.count_recorder (n : Nld) (f : Fld) (v : Nat) (i : Nat) : (n.count f v i).recorder = n.recorder := rfl
@[simp] theorem Nld.count_sec (n : Nld) (f : Fld) (v : Nat) (i : Nat) : (n.count f v i).sec = n.sec := rfl
@[simp] theorem Nld.count_sched (n : Nld) (f : Fld) (v : Nat) (i : Nat) : (n.count f v i).sched = n.sched := rfl
@[simp] theorem Nld.count_defence (n : Nld) (f : Fld) (v : Nat) (i : Nat) : (n.count f v i).defence = n.defence := rfl
@[simp] theorem Nld.count_rdma (n : Nld) (f : Fld) (v : Nat) (i : Nat) : (n.count f v i).rdma = n.rdma := rfl
@[simp] theorem Nld.count_fw (n : Nld) (f : Fld) (v : Nat) (i : Nat) : (n.count f v i).fw = n.fw := rfl

/-! ### Nld.emit -/

@[simp] theorem Nld.emit_regs (n : Nld) (o : HostOut) : (n.emit o).regs = n.regs := rfl
@[simp] theorem Nld.emit_pkg (n : Nld) (o : HostOut) : (n.emit o).pkg = n.pkg := rfl
@[simp] theorem Nld.emit_hwErr (n : Nld) (o : HostOut) : (n.emit o).hwErr = n.hwErr := rfl
@[simp] theorem Nld.emit_log (n : Nld) (o : HostOut) : (n.emit o).log = n.log := rfl
@[simp] theorem Nld.emit_logSeq (n : Nld) (o : HostOut) : (n.emit o).logSeq = n.logSeq := rfl
@[simp] theorem Nld.emit_doms (n : Nld) (o : HostOut) : (n.emit o).doms = n.doms := rfl
@[simp] theorem Nld.emit_ktuTimes (n : Nld) (o : HostOut) : (n.emit o).ktuTimes = n.ktuTimes := rfl
@[simp] theorem Nld.emit_ptp (n : Nld) (o : HostOut) : (n.emit o).ptp = n.ptp := rfl
@[simp] theorem Nld.emit_tick (n : Nld) (o : HostOut) : (n.emit o).tick = n.tick := rfl
@[simp] theorem Nld.emit_own (n : Nld) (o : HostOut) : (n.emit o).own = n.own := rfl
@[simp] theorem Nld.emit_chains (n : Nld) (o : HostOut) : (n.emit o).chains = n.chains := rfl
@[simp] theorem Nld.emit_series (n : Nld) (o : HostOut) : (n.emit o).series = n.series := rfl
@[simp] theorem Nld.emit_tables (n : Nld) (o : HostOut) : (n.emit o).tables = n.tables := rfl
@[simp] theorem Nld.emit_host (n : Nld) (o : HostOut) : (n.emit o).host = n.host := rfl
@[simp] theorem Nld.emit_group (n : Nld) (o : HostOut) : (n.emit o).group = n.group := rfl
@[simp] theorem Nld.emit_verdict (n : Nld) (o : HostOut) : (n.emit o).verdict = n.verdict := rfl
@[simp] theorem Nld.emit_recorder (n : Nld) (o : HostOut) : (n.emit o).recorder = n.recorder := rfl
@[simp] theorem Nld.emit_sec (n : Nld) (o : HostOut) : (n.emit o).sec = n.sec := rfl
@[simp] theorem Nld.emit_sched (n : Nld) (o : HostOut) : (n.emit o).sched = n.sched := rfl
@[simp] theorem Nld.emit_defence (n : Nld) (o : HostOut) : (n.emit o).defence = n.defence := rfl
@[simp] theorem Nld.emit_rdma (n : Nld) (o : HostOut) : (n.emit o).rdma = n.rdma := rfl
@[simp] theorem Nld.emit_fw (n : Nld) (o : HostOut) : (n.emit o).fw = n.fw := rfl

/-! ### Nld.setFife -/

@[simp] theorem Nld.setFife_regs (n : Nld) (p : Nat) (x : NFife) : (n.setFife p x).regs = n.regs := rfl
@[simp] theorem Nld.setFife_pkg (n : Nld) (p : Nat) (x : NFife) : (n.setFife p x).pkg = n.pkg := rfl
@[simp] theorem Nld.setFife_hwErr (n : Nld) (p : Nat) (x : NFife) : (n.setFife p x).hwErr = n.hwErr := rfl
@[simp] theorem Nld.setFife_log (n : Nld) (p : Nat) (x : NFife) : (n.setFife p x).log = n.log := rfl
@[simp] theorem Nld.setFife_logSeq (n : Nld) (p : Nat) (x : NFife) : (n.setFife p x).logSeq = n.logSeq := rfl
@[simp] theorem Nld.setFife_out (n : Nld) (p : Nat) (x : NFife) : (n.setFife p x).out = n.out := rfl
@[simp] theorem Nld.setFife_doms (n : Nld) (p : Nat) (x : NFife) : (n.setFife p x).doms = n.doms := rfl
@[simp] theorem Nld.setFife_ktuTimes (n : Nld) (p : Nat) (x : NFife) : (n.setFife p x).ktuTimes = n.ktuTimes := rfl
@[simp] theorem Nld.setFife_ptp (n : Nld) (p : Nat) (x : NFife) : (n.setFife p x).ptp = n.ptp := rfl
@[simp] theorem Nld.setFife_tick (n : Nld) (p : Nat) (x : NFife) : (n.setFife p x).tick = n.tick := rfl
@[simp] theorem Nld.setFife_own (n : Nld) (p : Nat) (x : NFife) : (n.setFife p x).own = n.own := rfl
@[simp] theorem Nld.setFife_series (n : Nld) (p : Nat) (x : NFife) : (n.setFife p x).series = n.series := rfl
@[simp] theorem Nld.setFife_tables (n : Nld) (p : Nat) (x : NFife) : (n.setFife p x).tables = n.tables := rfl
@[simp] theorem Nld.setFife_host (n : Nld) (p : Nat) (x : NFife) : (n.setFife p x).host = n.host := rfl
@[simp] theorem Nld.setFife_group (n : Nld) (p : Nat) (x : NFife) : (n.setFife p x).group = n.group := rfl
@[simp] theorem Nld.setFife_verdict (n : Nld) (p : Nat) (x : NFife) : (n.setFife p x).verdict = n.verdict := rfl
@[simp] theorem Nld.setFife_recorder (n : Nld) (p : Nat) (x : NFife) : (n.setFife p x).recorder = n.recorder := rfl
@[simp] theorem Nld.setFife_sec (n : Nld) (p : Nat) (x : NFife) : (n.setFife p x).sec = n.sec := rfl
@[simp] theorem Nld.setFife_sched (n : Nld) (p : Nat) (x : NFife) : (n.setFife p x).sched = n.sched := rfl
@[simp] theorem Nld.setFife_defence (n : Nld) (p : Nat) (x : NFife) : (n.setFife p x).defence = n.defence := rfl
@[simp] theorem Nld.setFife_rdma (n : Nld) (p : Nat) (x : NFife) : (n.setFife p x).rdma = n.rdma := rfl
@[simp] theorem Nld.setFife_fw (n : Nld) (p : Nat) (x : NFife) : (n.setFife p x).fw = n.fw := rfl

/-! ### Nld.setHorn -/

@[simp] theorem Nld.setHorn_regs (n : Nld) (p : Nat) (x : NHorn) : (n.setHorn p x).regs = n.regs := rfl
@[simp] theorem Nld.setHorn_pkg (n : Nld) (p : Nat) (x : NHorn) : (n.setHorn p x).pkg = n.pkg := rfl
@[simp] theorem Nld.setHorn_hwErr (n : Nld) (p : Nat) (x : NHorn) : (n.setHorn p x).hwErr = n.hwErr := rfl
@[simp] theorem Nld.setHorn_log (n : Nld) (p : Nat) (x : NHorn) : (n.setHorn p x).log = n.log := rfl
@[simp] theorem Nld.setHorn_logSeq (n : Nld) (p : Nat) (x : NHorn) : (n.setHorn p x).logSeq = n.logSeq := rfl
@[simp] theorem Nld.setHorn_out (n : Nld) (p : Nat) (x : NHorn) : (n.setHorn p x).out = n.out := rfl
@[simp] theorem Nld.setHorn_doms (n : Nld) (p : Nat) (x : NHorn) : (n.setHorn p x).doms = n.doms := rfl
@[simp] theorem Nld.setHorn_ktuTimes (n : Nld) (p : Nat) (x : NHorn) : (n.setHorn p x).ktuTimes = n.ktuTimes := rfl
@[simp] theorem Nld.setHorn_ptp (n : Nld) (p : Nat) (x : NHorn) : (n.setHorn p x).ptp = n.ptp := rfl
@[simp] theorem Nld.setHorn_tick (n : Nld) (p : Nat) (x : NHorn) : (n.setHorn p x).tick = n.tick := rfl
@[simp] theorem Nld.setHorn_own (n : Nld) (p : Nat) (x : NHorn) : (n.setHorn p x).own = n.own := rfl
@[simp] theorem Nld.setHorn_chains (n : Nld) (p : Nat) (x : NHorn) : (n.setHorn p x).chains = n.chains := rfl
@[simp] theorem Nld.setHorn_series (n : Nld) (p : Nat) (x : NHorn) : (n.setHorn p x).series = n.series := rfl
@[simp] theorem Nld.setHorn_tables (n : Nld) (p : Nat) (x : NHorn) : (n.setHorn p x).tables = n.tables := rfl
@[simp] theorem Nld.setHorn_host (n : Nld) (p : Nat) (x : NHorn) : (n.setHorn p x).host = n.host := rfl
@[simp] theorem Nld.setHorn_verdict (n : Nld) (p : Nat) (x : NHorn) : (n.setHorn p x).verdict = n.verdict := rfl
@[simp] theorem Nld.setHorn_recorder (n : Nld) (p : Nat) (x : NHorn) : (n.setHorn p x).recorder = n.recorder := rfl
@[simp] theorem Nld.setHorn_sec (n : Nld) (p : Nat) (x : NHorn) : (n.setHorn p x).sec = n.sec := rfl
@[simp] theorem Nld.setHorn_sched (n : Nld) (p : Nat) (x : NHorn) : (n.setHorn p x).sched = n.sched := rfl
@[simp] theorem Nld.setHorn_defence (n : Nld) (p : Nat) (x : NHorn) : (n.setHorn p x).defence = n.defence := rfl
@[simp] theorem Nld.setHorn_rdma (n : Nld) (p : Nat) (x : NHorn) : (n.setHorn p x).rdma = n.rdma := rfl
@[simp] theorem Nld.setHorn_fw (n : Nld) (p : Nat) (x : NHorn) : (n.setHorn p x).fw = n.fw := rfl

/-! ### Nld.setDom -/

@[simp] theorem Nld.setDom_regs (n : Nld) (d : Nat) (x : NDomain) : (n.setDom d x).regs = n.regs := rfl
@[simp] theorem Nld.setDom_pkg (n : Nld) (d : Nat) (x : NDomain) : (n.setDom d x).pkg = n.pkg := rfl
@[simp] theorem Nld.setDom_hwErr (n : Nld) (d : Nat) (x : NDomain) : (n.setDom d x).hwErr = n.hwErr := rfl
@[simp] theorem Nld.setDom_log (n : Nld) (d : Nat) (x : NDomain) : (n.setDom d x).log = n.log := rfl
@[simp] theorem Nld.setDom_logSeq (n : Nld) (d : Nat) (x : NDomain) : (n.setDom d x).logSeq = n.logSeq := rfl
@[simp] theorem Nld.setDom_out (n : Nld) (d : Nat) (x : NDomain) : (n.setDom d x).out = n.out := rfl
@[simp] theorem Nld.setDom_ktuTimes (n : Nld) (d : Nat) (x : NDomain) : (n.setDom d x).ktuTimes = n.ktuTimes := rfl
@[simp] theorem Nld.setDom_ptp (n : Nld) (d : Nat) (x : NDomain) : (n.setDom d x).ptp = n.ptp := rfl
@[simp] theorem Nld.setDom_tick (n : Nld) (d : Nat) (x : NDomain) : (n.setDom d x).tick = n.tick := rfl
@[simp] theorem Nld.setDom_own (n : Nld) (d : Nat) (x : NDomain) : (n.setDom d x).own = n.own := rfl
@[simp] theorem Nld.setDom_chains (n : Nld) (d : Nat) (x : NDomain) : (n.setDom d x).chains = n.chains := rfl
@[simp] theorem Nld.setDom_series (n : Nld) (d : Nat) (x : NDomain) : (n.setDom d x).series = n.series := rfl
@[simp] theorem Nld.setDom_tables (n : Nld) (d : Nat) (x : NDomain) : (n.setDom d x).tables = n.tables := rfl
@[simp] theorem Nld.setDom_host (n : Nld) (d : Nat) (x : NDomain) : (n.setDom d x).host = n.host := rfl
@[simp] theorem Nld.setDom_group (n : Nld) (d : Nat) (x : NDomain) : (n.setDom d x).group = n.group := rfl
@[simp] theorem Nld.setDom_verdict (n : Nld) (d : Nat) (x : NDomain) : (n.setDom d x).verdict = n.verdict := rfl
@[simp] theorem Nld.setDom_recorder (n : Nld) (d : Nat) (x : NDomain) : (n.setDom d x).recorder = n.recorder := rfl
@[simp] theorem Nld.setDom_sec (n : Nld) (d : Nat) (x : NDomain) : (n.setDom d x).sec = n.sec := rfl
@[simp] theorem Nld.setDom_sched (n : Nld) (d : Nat) (x : NDomain) : (n.setDom d x).sched = n.sched := rfl
@[simp] theorem Nld.setDom_defence (n : Nld) (d : Nat) (x : NDomain) : (n.setDom d x).defence = n.defence := rfl
@[simp] theorem Nld.setDom_rdma (n : Nld) (d : Nat) (x : NDomain) : (n.setDom d x).rdma = n.rdma := rfl
@[simp] theorem Nld.setDom_fw (n : Nld) (d : Nat) (x : NDomain) : (n.setDom d x).fw = n.fw := rfl

/-! ### Nld.setTb -/

@[simp] theorem Nld.setTb_regs (n : Nld) (d : Nat) (b : TimeBase) : (n.setTb d b).regs = n.regs := rfl
@[simp] theorem Nld.setTb_pkg (n : Nld) (d : Nat) (b : TimeBase) : (n.setTb d b).pkg = n.pkg := rfl
@[simp] theorem Nld.setTb_hwErr (n : Nld) (d : Nat) (b : TimeBase) : (n.setTb d b).hwErr = n.hwErr := rfl
@[simp] theorem Nld.setTb_log (n : Nld) (d : Nat) (b : TimeBase) : (n.setTb d b).log = n.log := rfl
@[simp] theorem Nld.setTb_logSeq (n : Nld) (d : Nat) (b : TimeBase) : (n.setTb d b).logSeq = n.logSeq := rfl
@[simp] theorem Nld.setTb_out (n : Nld) (d : Nat) (b : TimeBase) : (n.setTb d b).out = n.out := rfl
@[simp] theorem Nld.setTb_ktuTimes (n : Nld) (d : Nat) (b : TimeBase) : (n.setTb d b).ktuTimes = n.ktuTimes := rfl
@[simp] theorem Nld.setTb_ptp (n : Nld) (d : Nat) (b : TimeBase) : (n.setTb d b).ptp = n.ptp := rfl
@[simp] theorem Nld.setTb_tick (n : Nld) (d : Nat) (b : TimeBase) : (n.setTb d b).tick = n.tick := rfl
@[simp] theorem Nld.setTb_own (n : Nld) (d : Nat) (b : TimeBase) : (n.setTb d b).own = n.own := rfl
@[simp] theorem Nld.setTb_chains (n : Nld) (d : Nat) (b : TimeBase) : (n.setTb d b).chains = n.chains := rfl
@[simp] theorem Nld.setTb_series (n : Nld) (d : Nat) (b : TimeBase) : (n.setTb d b).series = n.series := rfl
@[simp] theorem Nld.setTb_tables (n : Nld) (d : Nat) (b : TimeBase) : (n.setTb d b).tables = n.tables := rfl
@[simp] theorem Nld.setTb_host (n : Nld) (d : Nat) (b : TimeBase) : (n.setTb d b).host = n.host := rfl
@[simp] theorem Nld.setTb_group (n : Nld) (d : Nat) (b : TimeBase) : (n.setTb d b).group = n.group := rfl
@[simp] theorem Nld.setTb_verdict (n : Nld) (d : Nat) (b : TimeBase) : (n.setTb d b).verdict = n.verdict := rfl
@[simp] theorem Nld.setTb_recorder (n : Nld) (d : Nat) (b : TimeBase) : (n.setTb d b).recorder = n.recorder := rfl
@[simp] theorem Nld.setTb_sec (n : Nld) (d : Nat) (b : TimeBase) : (n.setTb d b).sec = n.sec := rfl
@[simp] theorem Nld.setTb_sched (n : Nld) (d : Nat) (b : TimeBase) : (n.setTb d b).sched = n.sched := rfl
@[simp] theorem Nld.setTb_defence (n : Nld) (d : Nat) (b : TimeBase) : (n.setTb d b).defence = n.defence := rfl
@[simp] theorem Nld.setTb_rdma (n : Nld) (d : Nat) (b : TimeBase) : (n.setTb d b).rdma = n.rdma := rfl
@[simp] theorem Nld.setTb_fw (n : Nld) (d : Nat) (b : TimeBase) : (n.setTb d b).fw = n.fw := rfl

/-! ### Nld.setOwnMap -/

@[simp] theorem Nld.setOwnMap_regs (n : Nld) (p : Nat) (m : OwnMap) : (n.setOwnMap p m).regs = n.regs := rfl
@[simp] theorem Nld.setOwnMap_pkg (n : Nld) (p : Nat) (m : OwnMap) : (n.setOwnMap p m).pkg = n.pkg := rfl
@[simp] theorem Nld.setOwnMap_hwErr (n : Nld) (p : Nat) (m : OwnMap) : (n.setOwnMap p m).hwErr = n.hwErr := rfl
@[simp] theorem Nld.setOwnMap_log (n : Nld) (p : Nat) (m : OwnMap) : (n.setOwnMap p m).log = n.log := rfl
@[simp] theorem Nld.setOwnMap_logSeq (n : Nld) (p : Nat) (m : OwnMap) : (n.setOwnMap p m).logSeq = n.logSeq := rfl
@[simp] theorem Nld.setOwnMap_out (n : Nld) (p : Nat) (m : OwnMap) : (n.setOwnMap p m).out = n.out := rfl
@[simp] theorem Nld.setOwnMap_doms (n : Nld) (p : Nat) (m : OwnMap) : (n.setOwnMap p m).doms = n.doms := rfl
@[simp] theorem Nld.setOwnMap_ktuTimes (n : Nld) (p : Nat) (m : OwnMap) : (n.setOwnMap p m).ktuTimes = n.ktuTimes := rfl
@[simp] theorem Nld.setOwnMap_ptp (n : Nld) (p : Nat) (m : OwnMap) : (n.setOwnMap p m).ptp = n.ptp := rfl
@[simp] theorem Nld.setOwnMap_tick (n : Nld) (p : Nat) (m : OwnMap) : (n.setOwnMap p m).tick = n.tick := rfl
@[simp] theorem Nld.setOwnMap_chains (n : Nld) (p : Nat) (m : OwnMap) : (n.setOwnMap p m).chains = n.chains := rfl
@[simp] theorem Nld.setOwnMap_series (n : Nld) (p : Nat) (m : OwnMap) : (n.setOwnMap p m).series = n.series := rfl
@[simp] theorem Nld.setOwnMap_tables (n : Nld) (p : Nat) (m : OwnMap) : (n.setOwnMap p m).tables = n.tables := rfl
@[simp] theorem Nld.setOwnMap_host (n : Nld) (p : Nat) (m : OwnMap) : (n.setOwnMap p m).host = n.host := rfl
@[simp] theorem Nld.setOwnMap_group (n : Nld) (p : Nat) (m : OwnMap) : (n.setOwnMap p m).group = n.group := rfl
@[simp] theorem Nld.setOwnMap_verdict (n : Nld) (p : Nat) (m : OwnMap) : (n.setOwnMap p m).verdict = n.verdict := rfl
@[simp] theorem Nld.setOwnMap_recorder (n : Nld) (p : Nat) (m : OwnMap) : (n.setOwnMap p m).recorder = n.recorder := rfl
@[simp] theorem Nld.setOwnMap_sec (n : Nld) (p : Nat) (m : OwnMap) : (n.setOwnMap p m).sec = n.sec := rfl
@[simp] theorem Nld.setOwnMap_sched (n : Nld) (p : Nat) (m : OwnMap) : (n.setOwnMap p m).sched = n.sched := rfl
@[simp] theorem Nld.setOwnMap_defence (n : Nld) (p : Nat) (m : OwnMap) : (n.setOwnMap p m).defence = n.defence := rfl
@[simp] theorem Nld.setOwnMap_rdma (n : Nld) (p : Nat) (m : OwnMap) : (n.setOwnMap p m).rdma = n.rdma := rfl
@[simp] theorem Nld.setOwnMap_fw (n : Nld) (p : Nat) (m : OwnMap) : (n.setOwnMap p m).fw = n.fw := rfl

/-! ### Nld.setRing -/

@[simp] theorem Nld.setRing_regs (n : Nld) (p : Nat) (r : RingRt) : (n.setRing p r).regs = n.regs := rfl
@[simp] theorem Nld.setRing_pkg (n : Nld) (p : Nat) (r : RingRt) : (n.setRing p r).pkg = n.pkg := rfl
@[simp] theorem Nld.setRing_hwErr (n : Nld) (p : Nat) (r : RingRt) : (n.setRing p r).hwErr = n.hwErr := rfl
@[simp] theorem Nld.setRing_log (n : Nld) (p : Nat) (r : RingRt) : (n.setRing p r).log = n.log := rfl
@[simp] theorem Nld.setRing_logSeq (n : Nld) (p : Nat) (r : RingRt) : (n.setRing p r).logSeq = n.logSeq := rfl
@[simp] theorem Nld.setRing_out (n : Nld) (p : Nat) (r : RingRt) : (n.setRing p r).out = n.out := rfl
@[simp] theorem Nld.setRing_doms (n : Nld) (p : Nat) (r : RingRt) : (n.setRing p r).doms = n.doms := rfl
@[simp] theorem Nld.setRing_ktuTimes (n : Nld) (p : Nat) (r : RingRt) : (n.setRing p r).ktuTimes = n.ktuTimes := rfl
@[simp] theorem Nld.setRing_ptp (n : Nld) (p : Nat) (r : RingRt) : (n.setRing p r).ptp = n.ptp := rfl
@[simp] theorem Nld.setRing_tick (n : Nld) (p : Nat) (r : RingRt) : (n.setRing p r).tick = n.tick := rfl
@[simp] theorem Nld.setRing_own (n : Nld) (p : Nat) (r : RingRt) : (n.setRing p r).own = n.own := rfl
@[simp] theorem Nld.setRing_chains (n : Nld) (p : Nat) (r : RingRt) : (n.setRing p r).chains = n.chains := rfl
@[simp] theorem Nld.setRing_series (n : Nld) (p : Nat) (r : RingRt) : (n.setRing p r).series = n.series := rfl
@[simp] theorem Nld.setRing_tables (n : Nld) (p : Nat) (r : RingRt) : (n.setRing p r).tables = n.tables := rfl
@[simp] theorem Nld.setRing_group (n : Nld) (p : Nat) (r : RingRt) : (n.setRing p r).group = n.group := rfl
@[simp] theorem Nld.setRing_verdict (n : Nld) (p : Nat) (r : RingRt) : (n.setRing p r).verdict = n.verdict := rfl
@[simp] theorem Nld.setRing_recorder (n : Nld) (p : Nat) (r : RingRt) : (n.setRing p r).recorder = n.recorder := rfl
@[simp] theorem Nld.setRing_sec (n : Nld) (p : Nat) (r : RingRt) : (n.setRing p r).sec = n.sec := rfl
@[simp] theorem Nld.setRing_sched (n : Nld) (p : Nat) (r : RingRt) : (n.setRing p r).sched = n.sched := rfl
@[simp] theorem Nld.setRing_defence (n : Nld) (p : Nat) (r : RingRt) : (n.setRing p r).defence = n.defence := rfl
@[simp] theorem Nld.setRing_rdma (n : Nld) (p : Nat) (r : RingRt) : (n.setRing p r).rdma = n.rdma := rfl
@[simp] theorem Nld.setRing_fw (n : Nld) (p : Nat) (r : RingRt) : (n.setRing p r).fw = n.fw := rfl

/-! ### Nld.setRdv -/

@[simp] theorem Nld.setRdv_regs (n : Nld) (p : Nat) (o : RdvObj) : (n.setRdv p o).regs = n.regs := rfl
@[simp] theorem Nld.setRdv_pkg (n : Nld) (p : Nat) (o : RdvObj) : (n.setRdv p o).pkg = n.pkg := rfl
@[simp] theorem Nld.setRdv_hwErr (n : Nld) (p : Nat) (o : RdvObj) : (n.setRdv p o).hwErr = n.hwErr := rfl
@[simp] theorem Nld.setRdv_log (n : Nld) (p : Nat) (o : RdvObj) : (n.setRdv p o).log = n.log := rfl
@[simp] theorem Nld.setRdv_logSeq (n : Nld) (p : Nat) (o : RdvObj) : (n.setRdv p o).logSeq = n.logSeq := rfl
@[simp] theorem Nld.setRdv_out (n : Nld) (p : Nat) (o : RdvObj) : (n.setRdv p o).out = n.out := rfl
@[simp] theorem Nld.setRdv_doms (n : Nld) (p : Nat) (o : RdvObj) : (n.setRdv p o).doms = n.doms := rfl
@[simp] theorem Nld.setRdv_ktuTimes (n : Nld) (p : Nat) (o : RdvObj) : (n.setRdv p o).ktuTimes = n.ktuTimes := rfl
@[simp] theorem Nld.setRdv_ptp (n : Nld) (p : Nat) (o : RdvObj) : (n.setRdv p o).ptp = n.ptp := rfl
@[simp] theorem Nld.setRdv_tick (n : Nld) (p : Nat) (o : RdvObj) : (n.setRdv p o).tick = n.tick := rfl
@[simp] theorem Nld.setRdv_own (n : Nld) (p : Nat) (o : RdvObj) : (n.setRdv p o).own = n.own := rfl
@[simp] theorem Nld.setRdv_chains (n : Nld) (p : Nat) (o : RdvObj) : (n.setRdv p o).chains = n.chains := rfl
@[simp] theorem Nld.setRdv_series (n : Nld) (p : Nat) (o : RdvObj) : (n.setRdv p o).series = n.series := rfl
@[simp] theorem Nld.setRdv_tables (n : Nld) (p : Nat) (o : RdvObj) : (n.setRdv p o).tables = n.tables := rfl
@[simp] theorem Nld.setRdv_host (n : Nld) (p : Nat) (o : RdvObj) : (n.setRdv p o).host = n.host := rfl
@[simp] theorem Nld.setRdv_verdict (n : Nld) (p : Nat) (o : RdvObj) : (n.setRdv p o).verdict = n.verdict := rfl
@[simp] theorem Nld.setRdv_recorder (n : Nld) (p : Nat) (o : RdvObj) : (n.setRdv p o).recorder = n.recorder := rfl
@[simp] theorem Nld.setRdv_sec (n : Nld) (p : Nat) (o : RdvObj) : (n.setRdv p o).sec = n.sec := rfl
@[simp] theorem Nld.setRdv_sched (n : Nld) (p : Nat) (o : RdvObj) : (n.setRdv p o).sched = n.sched := rfl
@[simp] theorem Nld.setRdv_defence (n : Nld) (p : Nat) (o : RdvObj) : (n.setRdv p o).defence = n.defence := rfl
@[simp] theorem Nld.setRdv_rdma (n : Nld) (p : Nat) (o : RdvObj) : (n.setRdv p o).rdma = n.rdma := rfl
@[simp] theorem Nld.setRdv_fw (n : Nld) (p : Nat) (o : RdvObj) : (n.setRdv p o).fw = n.fw := rfl

/-! ### Nld.setJob -/

@[simp] theorem Nld.setJob_regs (n : Nld) (p : Nat) (j : Job) : (n.setJob p j).regs = n.regs := rfl
@[simp] theorem Nld.setJob_pkg (n : Nld) (p : Nat) (j : Job) : (n.setJob p j).pkg = n.pkg := rfl
@[simp] theorem Nld.setJob_hwErr (n : Nld) (p : Nat) (j : Job) : (n.setJob p j).hwErr = n.hwErr := rfl
@[simp] theorem Nld.setJob_log (n : Nld) (p : Nat) (j : Job) : (n.setJob p j).log = n.log := rfl
@[simp] theorem Nld.setJob_logSeq (n : Nld) (p : Nat) (j : Job) : (n.setJob p j).logSeq = n.logSeq := rfl
@[simp] theorem Nld.setJob_out (n : Nld) (p : Nat) (j : Job) : (n.setJob p j).out = n.out := rfl
@[simp] theorem Nld.setJob_doms (n : Nld) (p : Nat) (j : Job) : (n.setJob p j).doms = n.doms := rfl
@[simp] theorem Nld.setJob_ktuTimes (n : Nld) (p : Nat) (j : Job) : (n.setJob p j).ktuTimes = n.ktuTimes := rfl
@[simp] theorem Nld.setJob_ptp (n : Nld) (p : Nat) (j : Job) : (n.setJob p j).ptp = n.ptp := rfl
@[simp] theorem Nld.setJob_tick (n : Nld) (p : Nat) (j : Job) : (n.setJob p j).tick = n.tick := rfl
@[simp] theorem Nld.setJob_own (n : Nld) (p : Nat) (j : Job) : (n.setJob p j).own = n.own := rfl
@[simp] theorem Nld.setJob_chains (n : Nld) (p : Nat) (j : Job) : (n.setJob p j).chains = n.chains := rfl
@[simp] theorem Nld.setJob_series (n : Nld) (p : Nat) (j : Job) : (n.setJob p j).series = n.series := rfl
@[simp] theorem Nld.setJob_tables (n : Nld) (p : Nat) (j : Job) : (n.setJob p j).tables = n.tables := rfl
@[simp] theorem Nld.setJob_host (n : Nld) (p : Nat) (j : Job) : (n.setJob p j).host = n.host := rfl
@[simp] theorem Nld.setJob_group (n : Nld) (p : Nat) (j : Job) : (n.setJob p j).group = n.group := rfl
@[simp] theorem Nld.setJob_recorder (n : Nld) (p : Nat) (j : Job) : (n.setJob p j).recorder = n.recorder := rfl
@[simp] theorem Nld.setJob_sec (n : Nld) (p : Nat) (j : Job) : (n.setJob p j).sec = n.sec := rfl
@[simp] theorem Nld.setJob_sched (n : Nld) (p : Nat) (j : Job) : (n.setJob p j).sched = n.sched := rfl
@[simp] theorem Nld.setJob_defence (n : Nld) (p : Nat) (j : Job) : (n.setJob p j).defence = n.defence := rfl
@[simp] theorem Nld.setJob_rdma (n : Nld) (p : Nat) (j : Job) : (n.setJob p j).rdma = n.rdma := rfl
@[simp] theorem Nld.setJob_fw (n : Nld) (p : Nat) (j : Job) : (n.setJob p j).fw = n.fw := rfl

/-! ### Nld.setLive -/

@[simp] theorem Nld.setLive_regs (n : Nld) (p : Nat) (r : LiveRec) : (n.setLive p r).regs = n.regs := rfl
@[simp] theorem Nld.setLive_pkg (n : Nld) (p : Nat) (r : LiveRec) : (n.setLive p r).pkg = n.pkg := rfl
@[simp] theorem Nld.setLive_hwErr (n : Nld) (p : Nat) (r : LiveRec) : (n.setLive p r).hwErr = n.hwErr := rfl
@[simp] theorem Nld.setLive_log (n : Nld) (p : Nat) (r : LiveRec) : (n.setLive p r).log = n.log := rfl
@[simp] theorem Nld.setLive_logSeq (n : Nld) (p : Nat) (r : LiveRec) : (n.setLive p r).logSeq = n.logSeq := rfl
@[simp] theorem Nld.setLive_out (n : Nld) (p : Nat) (r : LiveRec) : (n.setLive p r).out = n.out := rfl
@[simp] theorem Nld.setLive_doms (n : Nld) (p : Nat) (r : LiveRec) : (n.setLive p r).doms = n.doms := rfl
@[simp] theorem Nld.setLive_ktuTimes (n : Nld) (p : Nat) (r : LiveRec) : (n.setLive p r).ktuTimes = n.ktuTimes := rfl
@[simp] theorem Nld.setLive_ptp (n : Nld) (p : Nat) (r : LiveRec) : (n.setLive p r).ptp = n.ptp := rfl
@[simp] theorem Nld.setLive_tick (n : Nld) (p : Nat) (r : LiveRec) : (n.setLive p r).tick = n.tick := rfl
@[simp] theorem Nld.setLive_own (n : Nld) (p : Nat) (r : LiveRec) : (n.setLive p r).own = n.own := rfl
@[simp] theorem Nld.setLive_chains (n : Nld) (p : Nat) (r : LiveRec) : (n.setLive p r).chains = n.chains := rfl
@[simp] theorem Nld.setLive_series (n : Nld) (p : Nat) (r : LiveRec) : (n.setLive p r).series = n.series := rfl
@[simp] theorem Nld.setLive_tables (n : Nld) (p : Nat) (r : LiveRec) : (n.setLive p r).tables = n.tables := rfl
@[simp] theorem Nld.setLive_host (n : Nld) (p : Nat) (r : LiveRec) : (n.setLive p r).host = n.host := rfl
@[simp] theorem Nld.setLive_group (n : Nld) (p : Nat) (r : LiveRec) : (n.setLive p r).group = n.group := rfl
@[simp] theorem Nld.setLive_recorder (n : Nld) (p : Nat) (r : LiveRec) : (n.setLive p r).recorder = n.recorder := rfl
@[simp] theorem Nld.setLive_sec (n : Nld) (p : Nat) (r : LiveRec) : (n.setLive p r).sec = n.sec := rfl
@[simp] theorem Nld.setLive_sched (n : Nld) (p : Nat) (r : LiveRec) : (n.setLive p r).sched = n.sched := rfl
@[simp] theorem Nld.setLive_defence (n : Nld) (p : Nat) (r : LiveRec) : (n.setLive p r).defence = n.defence := rfl
@[simp] theorem Nld.setLive_rdma (n : Nld) (p : Nat) (r : LiveRec) : (n.setLive p r).rdma = n.rdma := rfl
@[simp] theorem Nld.setLive_fw (n : Nld) (p : Nat) (r : LiveRec) : (n.setLive p r).fw = n.fw := rfl

/-! ### Nld.setAlarm -/

@[simp] theorem Nld.setAlarm_regs (n : Nld) (a : NAlarm) : (n.setAlarm a).regs = n.regs := rfl
@[simp] theorem Nld.setAlarm_pkg (n : Nld) (a : NAlarm) : (n.setAlarm a).pkg = n.pkg := rfl
@[simp] theorem Nld.setAlarm_hwErr (n : Nld) (a : NAlarm) : (n.setAlarm a).hwErr = n.hwErr := rfl
@[simp] theorem Nld.setAlarm_log (n : Nld) (a : NAlarm) : (n.setAlarm a).log = n.log := rfl
@[simp] theorem Nld.setAlarm_logSeq (n : Nld) (a : NAlarm) : (n.setAlarm a).logSeq = n.logSeq := rfl
@[simp] theorem Nld.setAlarm_out (n : Nld) (a : NAlarm) : (n.setAlarm a).out = n.out := rfl
@[simp] theorem Nld.setAlarm_doms (n : Nld) (a : NAlarm) : (n.setAlarm a).doms = n.doms := rfl
@[simp] theorem Nld.setAlarm_ktuTimes (n : Nld) (a : NAlarm) : (n.setAlarm a).ktuTimes = n.ktuTimes := rfl
@[simp] theorem Nld.setAlarm_ptp (n : Nld) (a : NAlarm) : (n.setAlarm a).ptp = n.ptp := rfl
@[simp] theorem Nld.setAlarm_tick (n : Nld) (a : NAlarm) : (n.setAlarm a).tick = n.tick := rfl
@[simp] theorem Nld.setAlarm_own (n : Nld) (a : NAlarm) : (n.setAlarm a).own = n.own := rfl
@[simp] theorem Nld.setAlarm_chains (n : Nld) (a : NAlarm) : (n.setAlarm a).chains = n.chains := rfl
@[simp] theorem Nld.setAlarm_series (n : Nld) (a : NAlarm) : (n.setAlarm a).series = n.series := rfl
@[simp] theorem Nld.setAlarm_tables (n : Nld) (a : NAlarm) : (n.setAlarm a).tables = n.tables := rfl
@[simp] theorem Nld.setAlarm_host (n : Nld) (a : NAlarm) : (n.setAlarm a).host = n.host := rfl
@[simp] theorem Nld.setAlarm_group (n : Nld) (a : NAlarm) : (n.setAlarm a).group = n.group := rfl
@[simp] theorem Nld.setAlarm_recorder (n : Nld) (a : NAlarm) : (n.setAlarm a).recorder = n.recorder := rfl
@[simp] theorem Nld.setAlarm_sec (n : Nld) (a : NAlarm) : (n.setAlarm a).sec = n.sec := rfl
@[simp] theorem Nld.setAlarm_sched (n : Nld) (a : NAlarm) : (n.setAlarm a).sched = n.sched := rfl
@[simp] theorem Nld.setAlarm_defence (n : Nld) (a : NAlarm) : (n.setAlarm a).defence = n.defence := rfl
@[simp] theorem Nld.setAlarm_rdma (n : Nld) (a : NAlarm) : (n.setAlarm a).rdma = n.rdma := rfl
@[simp] theorem Nld.setAlarm_fw (n : Nld) (a : NAlarm) : (n.setAlarm a).fw = n.fw := rfl

/-! ### Nld.setReqs -/

@[simp] theorem Nld.setReqs_regs (n : Nld) (l : List PendReq) : (n.setReqs l).regs = n.regs := rfl
@[simp] theorem Nld.setReqs_pkg (n : Nld) (l : List PendReq) : (n.setReqs l).pkg = n.pkg := rfl
@[simp] theorem Nld.setReqs_hwErr (n : Nld) (l : List PendReq) : (n.setReqs l).hwErr = n.hwErr := rfl
@[simp] theorem Nld.setReqs_log (n : Nld) (l : List PendReq) : (n.setReqs l).log = n.log := rfl
@[simp] theorem Nld.setReqs_logSeq (n : Nld) (l : List PendReq) : (n.setReqs l).logSeq = n.logSeq := rfl
@[simp] theorem Nld.setReqs_out (n : Nld) (l : List PendReq) : (n.setReqs l).out = n.out := rfl
@[simp] theorem Nld.setReqs_doms (n : Nld) (l : List PendReq) : (n.setReqs l).doms = n.doms := rfl
@[simp] theorem Nld.setReqs_ktuTimes (n : Nld) (l : List PendReq) : (n.setReqs l).ktuTimes = n.ktuTimes := rfl
@[simp] theorem Nld.setReqs_ptp (n : Nld) (l : List PendReq) : (n.setReqs l).ptp = n.ptp := rfl
@[simp] theorem Nld.setReqs_tick (n : Nld) (l : List PendReq) : (n.setReqs l).tick = n.tick := rfl
@[simp] theorem Nld.setReqs_own (n : Nld) (l : List PendReq) : (n.setReqs l).own = n.own := rfl
@[simp] theorem Nld.setReqs_series (n : Nld) (l : List PendReq) : (n.setReqs l).series = n.series := rfl
@[simp] theorem Nld.setReqs_tables (n : Nld) (l : List PendReq) : (n.setReqs l).tables = n.tables := rfl
@[simp] theorem Nld.setReqs_host (n : Nld) (l : List PendReq) : (n.setReqs l).host = n.host := rfl
@[simp] theorem Nld.setReqs_group (n : Nld) (l : List PendReq) : (n.setReqs l).group = n.group := rfl
@[simp] theorem Nld.setReqs_verdict (n : Nld) (l : List PendReq) : (n.setReqs l).verdict = n.verdict := rfl
@[simp] theorem Nld.setReqs_recorder (n : Nld) (l : List PendReq) : (n.setReqs l).recorder = n.recorder := rfl
@[simp] theorem Nld.setReqs_sec (n : Nld) (l : List PendReq) : (n.setReqs l).sec = n.sec := rfl
@[simp] theorem Nld.setReqs_sched (n : Nld) (l : List PendReq) : (n.setReqs l).sched = n.sched := rfl
@[simp] theorem Nld.setReqs_defence (n : Nld) (l : List PendReq) : (n.setReqs l).defence = n.defence := rfl
@[simp] theorem Nld.setReqs_rdma (n : Nld) (l : List PendReq) : (n.setReqs l).rdma = n.rdma := rfl
@[simp] theorem Nld.setReqs_fw (n : Nld) (l : List PendReq) : (n.setReqs l).fw = n.fw := rfl

/-! ### Nld.setPtp -/

@[simp] theorem Nld.setPtp_regs (n : Nld) (e : Nat) (x : PtpPort) : (n.setPtp e x).regs = n.regs := rfl
@[simp] theorem Nld.setPtp_pkg (n : Nld) (e : Nat) (x : PtpPort) : (n.setPtp e x).pkg = n.pkg := rfl
@[simp] theorem Nld.setPtp_hwErr (n : Nld) (e : Nat) (x : PtpPort) : (n.setPtp e x).hwErr = n.hwErr := rfl
@[simp] theorem Nld.setPtp_log (n : Nld) (e : Nat) (x : PtpPort) : (n.setPtp e x).log = n.log := rfl
@[simp] theorem Nld.setPtp_logSeq (n : Nld) (e : Nat) (x : PtpPort) : (n.setPtp e x).logSeq = n.logSeq := rfl
@[simp] theorem Nld.setPtp_out (n : Nld) (e : Nat) (x : PtpPort) : (n.setPtp e x).out = n.out := rfl
@[simp] theorem Nld.setPtp_doms (n : Nld) (e : Nat) (x : PtpPort) : (n.setPtp e x).doms = n.doms := rfl
@[simp] theorem Nld.setPtp_ktuTimes (n : Nld) (e : Nat) (x : PtpPort) : (n.setPtp e x).ktuTimes = n.ktuTimes := rfl
@[simp] theorem Nld.setPtp_tick (n : Nld) (e : Nat) (x : PtpPort) : (n.setPtp e x).tick = n.tick := rfl
@[simp] theorem Nld.setPtp_own (n : Nld) (e : Nat) (x : PtpPort) : (n.setPtp e x).own = n.own := rfl
@[simp] theorem Nld.setPtp_chains (n : Nld) (e : Nat) (x : PtpPort) : (n.setPtp e x).chains = n.chains := rfl
@[simp] theorem Nld.setPtp_series (n : Nld) (e : Nat) (x : PtpPort) : (n.setPtp e x).series = n.series := rfl
@[simp] theorem Nld.setPtp_tables (n : Nld) (e : Nat) (x : PtpPort) : (n.setPtp e x).tables = n.tables := rfl
@[simp] theorem Nld.setPtp_host (n : Nld) (e : Nat) (x : PtpPort) : (n.setPtp e x).host = n.host := rfl
@[simp] theorem Nld.setPtp_group (n : Nld) (e : Nat) (x : PtpPort) : (n.setPtp e x).group = n.group := rfl
@[simp] theorem Nld.setPtp_verdict (n : Nld) (e : Nat) (x : PtpPort) : (n.setPtp e x).verdict = n.verdict := rfl
@[simp] theorem Nld.setPtp_recorder (n : Nld) (e : Nat) (x : PtpPort) : (n.setPtp e x).recorder = n.recorder := rfl
@[simp] theorem Nld.setPtp_sec (n : Nld) (e : Nat) (x : PtpPort) : (n.setPtp e x).sec = n.sec := rfl
@[simp] theorem Nld.setPtp_sched (n : Nld) (e : Nat) (x : PtpPort) : (n.setPtp e x).sched = n.sched := rfl
@[simp] theorem Nld.setPtp_defence (n : Nld) (e : Nat) (x : PtpPort) : (n.setPtp e x).defence = n.defence := rfl
@[simp] theorem Nld.setPtp_rdma (n : Nld) (e : Nat) (x : PtpPort) : (n.setPtp e x).rdma = n.rdma := rfl
@[simp] theorem Nld.setPtp_fw (n : Nld) (e : Nat) (x : PtpPort) : (n.setPtp e x).fw = n.fw := rfl

/-! ### Nld.setQp -/

@[simp] theorem Nld.setQp_regs (n : Nld) (q : Nat) (x : Qp) : (n.setQp q x).regs = n.regs := rfl
@[simp] theorem Nld.setQp_pkg (n : Nld) (q : Nat) (x : Qp) : (n.setQp q x).pkg = n.pkg := rfl
@[simp] theorem Nld.setQp_hwErr (n : Nld) (q : Nat) (x : Qp) : (n.setQp q x).hwErr = n.hwErr := rfl
@[simp] theorem Nld.setQp_log (n : Nld) (q : Nat) (x : Qp) : (n.setQp q x).log = n.log := rfl
@[simp] theorem Nld.setQp_logSeq (n : Nld) (q : Nat) (x : Qp) : (n.setQp q x).logSeq = n.logSeq := rfl
@[simp] theorem Nld.setQp_out (n : Nld) (q : Nat) (x : Qp) : (n.setQp q x).out = n.out := rfl
@[simp] theorem Nld.setQp_doms (n : Nld) (q : Nat) (x : Qp) : (n.setQp q x).doms = n.doms := rfl
@[simp] theorem Nld.setQp_ktuTimes (n : Nld) (q : Nat) (x : Qp) : (n.setQp q x).ktuTimes = n.ktuTimes := rfl
@[simp] theorem Nld.setQp_ptp (n : Nld) (q : Nat) (x : Qp) : (n.setQp q x).ptp = n.ptp := rfl
@[simp] theorem Nld.setQp_tick (n : Nld) (q : Nat) (x : Qp) : (n.setQp q x).tick = n.tick := rfl
@[simp] theorem Nld.setQp_own (n : Nld) (q : Nat) (x : Qp) : (n.setQp q x).own = n.own := rfl
@[simp] theorem Nld.setQp_chains (n : Nld) (q : Nat) (x : Qp) : (n.setQp q x).chains = n.chains := rfl
@[simp] theorem Nld.setQp_series (n : Nld) (q : Nat) (x : Qp) : (n.setQp q x).series = n.series := rfl
@[simp] theorem Nld.setQp_tables (n : Nld) (q : Nat) (x : Qp) : (n.setQp q x).tables = n.tables := rfl
@[simp] theorem Nld.setQp_host (n : Nld) (q : Nat) (x : Qp) : (n.setQp q x).host = n.host := rfl
@[simp] theorem Nld.setQp_group (n : Nld) (q : Nat) (x : Qp) : (n.setQp q x).group = n.group := rfl
@[simp] theorem Nld.setQp_verdict (n : Nld) (q : Nat) (x : Qp) : (n.setQp q x).verdict = n.verdict := rfl
@[simp] theorem Nld.setQp_recorder (n : Nld) (q : Nat) (x : Qp) : (n.setQp q x).recorder = n.recorder := rfl
@[simp] theorem Nld.setQp_sec (n : Nld) (q : Nat) (x : Qp) : (n.setQp q x).sec = n.sec := rfl
@[simp] theorem Nld.setQp_sched (n : Nld) (q : Nat) (x : Qp) : (n.setQp q x).sched = n.sched := rfl
@[simp] theorem Nld.setQp_defence (n : Nld) (q : Nat) (x : Qp) : (n.setQp q x).defence = n.defence := rfl
@[simp] theorem Nld.setQp_fw (n : Nld) (q : Nat) (x : Qp) : (n.setQp q x).fw = n.fw := rfl

/-! ### Nld.setShaper -/

@[simp] theorem Nld.setShaper_regs (n : Nld) (p : Nat) (x : Shaper) : (n.setShaper p x).regs = n.regs := rfl
@[simp] theorem Nld.setShaper_pkg (n : Nld) (p : Nat) (x : Shaper) : (n.setShaper p x).pkg = n.pkg := rfl
@[simp] theorem Nld.setShaper_hwErr (n : Nld) (p : Nat) (x : Shaper) : (n.setShaper p x).hwErr = n.hwErr := rfl
@[simp] theorem Nld.setShaper_log (n : Nld) (p : Nat) (x : Shaper) : (n.setShaper p x).log = n.log := rfl
@[simp] theorem Nld.setShaper_logSeq (n : Nld) (p : Nat) (x : Shaper) : (n.setShaper p x).logSeq = n.logSeq := rfl
@[simp] theorem Nld.setShaper_out (n : Nld) (p : Nat) (x : Shaper) : (n.setShaper p x).out = n.out := rfl
@[simp] theorem Nld.setShaper_doms (n : Nld) (p : Nat) (x : Shaper) : (n.setShaper p x).doms = n.doms := rfl
@[simp] theorem Nld.setShaper_ktuTimes (n : Nld) (p : Nat) (x : Shaper) : (n.setShaper p x).ktuTimes = n.ktuTimes := rfl
@[simp] theorem Nld.setShaper_ptp (n : Nld) (p : Nat) (x : Shaper) : (n.setShaper p x).ptp = n.ptp := rfl
@[simp] theorem Nld.setShaper_tick (n : Nld) (p : Nat) (x : Shaper) : (n.setShaper p x).tick = n.tick := rfl
@[simp] theorem Nld.setShaper_own (n : Nld) (p : Nat) (x : Shaper) : (n.setShaper p x).own = n.own := rfl
@[simp] theorem Nld.setShaper_chains (n : Nld) (p : Nat) (x : Shaper) : (n.setShaper p x).chains = n.chains := rfl
@[simp] theorem Nld.setShaper_series (n : Nld) (p : Nat) (x : Shaper) : (n.setShaper p x).series = n.series := rfl
@[simp] theorem Nld.setShaper_tables (n : Nld) (p : Nat) (x : Shaper) : (n.setShaper p x).tables = n.tables := rfl
@[simp] theorem Nld.setShaper_host (n : Nld) (p : Nat) (x : Shaper) : (n.setShaper p x).host = n.host := rfl
@[simp] theorem Nld.setShaper_group (n : Nld) (p : Nat) (x : Shaper) : (n.setShaper p x).group = n.group := rfl
@[simp] theorem Nld.setShaper_verdict (n : Nld) (p : Nat) (x : Shaper) : (n.setShaper p x).verdict = n.verdict := rfl
@[simp] theorem Nld.setShaper_recorder (n : Nld) (p : Nat) (x : Shaper) : (n.setShaper p x).recorder = n.recorder := rfl
@[simp] theorem Nld.setShaper_sec (n : Nld) (p : Nat) (x : Shaper) : (n.setShaper p x).sec = n.sec := rfl
@[simp] theorem Nld.setShaper_sched (n : Nld) (p : Nat) (x : Shaper) : (n.setShaper p x).sched = n.sched := rfl
@[simp] theorem Nld.setShaper_defence (n : Nld) (p : Nat) (x : Shaper) : (n.setShaper p x).defence = n.defence := rfl
@[simp] theorem Nld.setShaper_fw (n : Nld) (p : Nat) (x : Shaper) : (n.setShaper p x).fw = n.fw := rfl

/-! ### Nld.setTick -/

@[simp] theorem Nld.setTick_regs (n : Nld) (t : TickRec) : (n.setTick t).regs = n.regs := rfl
@[simp] theorem Nld.setTick_pkg (n : Nld) (t : TickRec) : (n.setTick t).pkg = n.pkg := rfl
@[simp] theorem Nld.setTick_hwErr (n : Nld) (t : TickRec) : (n.setTick t).hwErr = n.hwErr := rfl
@[simp] theorem Nld.setTick_log (n : Nld) (t : TickRec) : (n.setTick t).log = n.log := rfl
@[simp] theorem Nld.setTick_logSeq (n : Nld) (t : TickRec) : (n.setTick t).logSeq = n.logSeq := rfl
@[simp] theorem Nld.setTick_out (n : Nld) (t : TickRec) : (n.setTick t).out = n.out := rfl
@[simp] theorem Nld.setTick_doms (n : Nld) (t : TickRec) : (n.setTick t).doms = n.doms := rfl
@[simp] theorem Nld.setTick_ktuTimes (n : Nld) (t : TickRec) : (n.setTick t).ktuTimes = n.ktuTimes := rfl
@[simp] theorem Nld.setTick_ptp (n : Nld) (t : TickRec) : (n.setTick t).ptp = n.ptp := rfl
@[simp] theorem Nld.setTick_own (n : Nld) (t : TickRec) : (n.setTick t).own = n.own := rfl
@[simp] theorem Nld.setTick_chains (n : Nld) (t : TickRec) : (n.setTick t).chains = n.chains := rfl
@[simp] theorem Nld.setTick_series (n : Nld) (t : TickRec) : (n.setTick t).series = n.series := rfl
@[simp] theorem Nld.setTick_tables (n : Nld) (t : TickRec) : (n.setTick t).tables = n.tables := rfl
@[simp] theorem Nld.setTick_host (n : Nld) (t : TickRec) : (n.setTick t).host = n.host := rfl
@[simp] theorem Nld.setTick_group (n : Nld) (t : TickRec) : (n.setTick t).group = n.group := rfl
@[simp] theorem Nld.setTick_verdict (n : Nld) (t : TickRec) : (n.setTick t).verdict = n.verdict := rfl
@[simp] theorem Nld.setTick_recorder (n : Nld) (t : TickRec) : (n.setTick t).recorder = n.recorder := rfl
@[simp] theorem Nld.setTick_sec (n : Nld) (t : TickRec) : (n.setTick t).sec = n.sec := rfl
@[simp] theorem Nld.setTick_sched (n : Nld) (t : TickRec) : (n.setTick t).sched = n.sched := rfl
@[simp] theorem Nld.setTick_defence (n : Nld) (t : TickRec) : (n.setTick t).defence = n.defence := rfl
@[simp] theorem Nld.setTick_rdma (n : Nld) (t : TickRec) : (n.setTick t).rdma = n.rdma := rfl
@[simp] theorem Nld.setTick_fw (n : Nld) (t : TickRec) : (n.setTick t).fw = n.fw := rfl

/-! ### Nld.setProgram -/

@[simp] theorem Nld.setProgram_regs (n : Nld) (p : Program) : (n.setProgram p).regs = n.regs := rfl
@[simp] theorem Nld.setProgram_pkg (n : Nld) (p : Program) : (n.setProgram p).pkg = n.pkg := rfl
@[simp] theorem Nld.setProgram_hwErr (n : Nld) (p : Program) : (n.setProgram p).hwErr = n.hwErr := rfl
@[simp] theorem Nld.setProgram_log (n : Nld) (p : Program) : (n.setProgram p).log = n.log := rfl
@[simp] theorem Nld.setProgram_logSeq (n : Nld) (p : Program) : (n.setProgram p).logSeq = n.logSeq := rfl
@[simp] theorem Nld.setProgram_out (n : Nld) (p : Program) : (n.setProgram p).out = n.out := rfl
@[simp] theorem Nld.setProgram_doms (n : Nld) (p : Program) : (n.setProgram p).doms = n.doms := rfl
@[simp] theorem Nld.setProgram_ktuTimes (n : Nld) (p : Program) : (n.setProgram p).ktuTimes = n.ktuTimes := rfl
@[simp] theorem Nld.setProgram_ptp (n : Nld) (p : Program) : (n.setProgram p).ptp = n.ptp := rfl
@[simp] theorem Nld.setProgram_tick (n : Nld) (p : Program) : (n.setProgram p).tick = n.tick := rfl
@[simp] theorem Nld.setProgram_own (n : Nld) (p : Program) : (n.setProgram p).own = n.own := rfl
@[simp] theorem Nld.setProgram_chains (n : Nld) (p : Program) : (n.setProgram p).chains = n.chains := rfl
@[simp] theorem Nld.setProgram_series (n : Nld) (p : Program) : (n.setProgram p).series = n.series := rfl
@[simp] theorem Nld.setProgram_tables (n : Nld) (p : Program) : (n.setProgram p).tables = n.tables := rfl
@[simp] theorem Nld.setProgram_host (n : Nld) (p : Program) : (n.setProgram p).host = n.host := rfl
@[simp] theorem Nld.setProgram_group (n : Nld) (p : Program) : (n.setProgram p).group = n.group := rfl
@[simp] theorem Nld.setProgram_verdict (n : Nld) (p : Program) : (n.setProgram p).verdict = n.verdict := rfl
@[simp] theorem Nld.setProgram_recorder (n : Nld) (p : Program) : (n.setProgram p).recorder = n.recorder := rfl
@[simp] theorem Nld.setProgram_sec (n : Nld) (p : Program) : (n.setProgram p).sec = n.sec := rfl
@[simp] theorem Nld.setProgram_defence (n : Nld) (p : Program) : (n.setProgram p).defence = n.defence := rfl
@[simp] theorem Nld.setProgram_rdma (n : Nld) (p : Program) : (n.setProgram p).rdma = n.rdma := rfl
@[simp] theorem Nld.setProgram_fw (n : Nld) (p : Program) : (n.setProgram p).fw = n.fw := rfl

/-! ### Nld.setVote -/

@[simp] theorem Nld.setVote_regs (n : Nld) (p : Nat) (v : VoteSlot) : (n.setVote p v).regs = n.regs := rfl
@[simp] theorem Nld.setVote_pkg (n : Nld) (p : Nat) (v : VoteSlot) : (n.setVote p v).pkg = n.pkg := rfl
@[simp] theorem Nld.setVote_hwErr (n : Nld) (p : Nat) (v : VoteSlot) : (n.setVote p v).hwErr = n.hwErr := rfl
@[simp] theorem Nld.setVote_log (n : Nld) (p : Nat) (v : VoteSlot) : (n.setVote p v).log = n.log := rfl
@[simp] theorem Nld.setVote_logSeq (n : Nld) (p : Nat) (v : VoteSlot) : (n.setVote p v).logSeq = n.logSeq := rfl
@[simp] theorem Nld.setVote_out (n : Nld) (p : Nat) (v : VoteSlot) : (n.setVote p v).out = n.out := rfl
@[simp] theorem Nld.setVote_doms (n : Nld) (p : Nat) (v : VoteSlot) : (n.setVote p v).doms = n.doms := rfl
@[simp] theorem Nld.setVote_ktuTimes (n : Nld) (p : Nat) (v : VoteSlot) : (n.setVote p v).ktuTimes = n.ktuTimes := rfl
@[simp] theorem Nld.setVote_ptp (n : Nld) (p : Nat) (v : VoteSlot) : (n.setVote p v).ptp = n.ptp := rfl
@[simp] theorem Nld.setVote_tick (n : Nld) (p : Nat) (v : VoteSlot) : (n.setVote p v).tick = n.tick := rfl
@[simp] theorem Nld.setVote_own (n : Nld) (p : Nat) (v : VoteSlot) : (n.setVote p v).own = n.own := rfl
@[simp] theorem Nld.setVote_chains (n : Nld) (p : Nat) (v : VoteSlot) : (n.setVote p v).chains = n.chains := rfl
@[simp] theorem Nld.setVote_series (n : Nld) (p : Nat) (v : VoteSlot) : (n.setVote p v).series = n.series := rfl
@[simp] theorem Nld.setVote_tables (n : Nld) (p : Nat) (v : VoteSlot) : (n.setVote p v).tables = n.tables := rfl
@[simp] theorem Nld.setVote_host (n : Nld) (p : Nat) (v : VoteSlot) : (n.setVote p v).host = n.host := rfl
@[simp] theorem Nld.setVote_group (n : Nld) (p : Nat) (v : VoteSlot) : (n.setVote p v).group = n.group := rfl
@[simp] theorem Nld.setVote_verdict (n : Nld) (p : Nat) (v : VoteSlot) : (n.setVote p v).verdict = n.verdict := rfl
@[simp] theorem Nld.setVote_recorder (n : Nld) (p : Nat) (v : VoteSlot) : (n.setVote p v).recorder = n.recorder := rfl
@[simp] theorem Nld.setVote_sec (n : Nld) (p : Nat) (v : VoteSlot) : (n.setVote p v).sec = n.sec := rfl
@[simp] theorem Nld.setVote_sched (n : Nld) (p : Nat) (v : VoteSlot) : (n.setVote p v).sched = n.sched := rfl
@[simp] theorem Nld.setVote_rdma (n : Nld) (p : Nat) (v : VoteSlot) : (n.setVote p v).rdma = n.rdma := rfl
@[simp] theorem Nld.setVote_fw (n : Nld) (p : Nat) (v : VoteSlot) : (n.setVote p v).fw = n.fw := rfl

/-! ### Nld.setSec -/

@[simp] theorem Nld.setSec_regs (n : Nld) (x : NSecurity) : (n.setSec x).regs = n.regs := rfl
@[simp] theorem Nld.setSec_pkg (n : Nld) (x : NSecurity) : (n.setSec x).pkg = n.pkg := rfl
@[simp] theorem Nld.setSec_hwErr (n : Nld) (x : NSecurity) : (n.setSec x).hwErr = n.hwErr := rfl
@[simp] theorem Nld.setSec_log (n : Nld) (x : NSecurity) : (n.setSec x).log = n.log := rfl
@[simp] theorem Nld.setSec_logSeq (n : Nld) (x : NSecurity) : (n.setSec x).logSeq = n.logSeq := rfl
@[simp] theorem Nld.setSec_out (n : Nld) (x : NSecurity) : (n.setSec x).out = n.out := rfl
@[simp] theorem Nld.setSec_doms (n : Nld) (x : NSecurity) : (n.setSec x).doms = n.doms := rfl
@[simp] theorem Nld.setSec_ktuTimes (n : Nld) (x : NSecurity) : (n.setSec x).ktuTimes = n.ktuTimes := rfl
@[simp] theorem Nld.setSec_ptp (n : Nld) (x : NSecurity) : (n.setSec x).ptp = n.ptp := rfl
@[simp] theorem Nld.setSec_tick (n : Nld) (x : NSecurity) : (n.setSec x).tick = n.tick := rfl
@[simp] theorem Nld.setSec_own (n : Nld) (x : NSecurity) : (n.setSec x).own = n.own := rfl
@[simp] theorem Nld.setSec_chains (n : Nld) (x : NSecurity) : (n.setSec x).chains = n.chains := rfl
@[simp] theorem Nld.setSec_series (n : Nld) (x : NSecurity) : (n.setSec x).series = n.series := rfl
@[simp] theorem Nld.setSec_tables (n : Nld) (x : NSecurity) : (n.setSec x).tables = n.tables := rfl
@[simp] theorem Nld.setSec_host (n : Nld) (x : NSecurity) : (n.setSec x).host = n.host := rfl
@[simp] theorem Nld.setSec_group (n : Nld) (x : NSecurity) : (n.setSec x).group = n.group := rfl
@[simp] theorem Nld.setSec_verdict (n : Nld) (x : NSecurity) : (n.setSec x).verdict = n.verdict := rfl
@[simp] theorem Nld.setSec_recorder (n : Nld) (x : NSecurity) : (n.setSec x).recorder = n.recorder := rfl
@[simp] theorem Nld.setSec_sched (n : Nld) (x : NSecurity) : (n.setSec x).sched = n.sched := rfl
@[simp] theorem Nld.setSec_defence (n : Nld) (x : NSecurity) : (n.setSec x).defence = n.defence := rfl
@[simp] theorem Nld.setSec_rdma (n : Nld) (x : NSecurity) : (n.setSec x).rdma = n.rdma := rfl
@[simp] theorem Nld.setSec_fw (n : Nld) (x : NSecurity) : (n.setSec x).fw = n.fw := rfl

/-! ### Nld.setFw -/

@[simp] theorem Nld.setFw_regs (n : Nld) (f : NFw) : (n.setFw f).regs = n.regs := rfl
@[simp] theorem Nld.setFw_pkg (n : Nld) (f : NFw) : (n.setFw f).pkg = n.pkg := rfl
@[simp] theorem Nld.setFw_hwErr (n : Nld) (f : NFw) : (n.setFw f).hwErr = n.hwErr := rfl
@[simp] theorem Nld.setFw_log (n : Nld) (f : NFw) : (n.setFw f).log = n.log := rfl
@[simp] theorem Nld.setFw_logSeq (n : Nld) (f : NFw) : (n.setFw f).logSeq = n.logSeq := rfl
@[simp] theorem Nld.setFw_out (n : Nld) (f : NFw) : (n.setFw f).out = n.out := rfl
@[simp] theorem Nld.setFw_doms (n : Nld) (f : NFw) : (n.setFw f).doms = n.doms := rfl
@[simp] theorem Nld.setFw_ktuTimes (n : Nld) (f : NFw) : (n.setFw f).ktuTimes = n.ktuTimes := rfl
@[simp] theorem Nld.setFw_ptp (n : Nld) (f : NFw) : (n.setFw f).ptp = n.ptp := rfl
@[simp] theorem Nld.setFw_tick (n : Nld) (f : NFw) : (n.setFw f).tick = n.tick := rfl
@[simp] theorem Nld.setFw_own (n : Nld) (f : NFw) : (n.setFw f).own = n.own := rfl
@[simp] theorem Nld.setFw_chains (n : Nld) (f : NFw) : (n.setFw f).chains = n.chains := rfl
@[simp] theorem Nld.setFw_series (n : Nld) (f : NFw) : (n.setFw f).series = n.series := rfl
@[simp] theorem Nld.setFw_tables (n : Nld) (f : NFw) : (n.setFw f).tables = n.tables := rfl
@[simp] theorem Nld.setFw_host (n : Nld) (f : NFw) : (n.setFw f).host = n.host := rfl
@[simp] theorem Nld.setFw_group (n : Nld) (f : NFw) : (n.setFw f).group = n.group := rfl
@[simp] theorem Nld.setFw_verdict (n : Nld) (f : NFw) : (n.setFw f).verdict = n.verdict := rfl
@[simp] theorem Nld.setFw_recorder (n : Nld) (f : NFw) : (n.setFw f).recorder = n.recorder := rfl
@[simp] theorem Nld.setFw_sec (n : Nld) (f : NFw) : (n.setFw f).sec = n.sec := rfl
@[simp] theorem Nld.setFw_sched (n : Nld) (f : NFw) : (n.setFw f).sched = n.sched := rfl
@[simp] theorem Nld.setFw_defence (n : Nld) (f : NFw) : (n.setFw f).defence = n.defence := rfl
@[simp] theorem Nld.setFw_rdma (n : Nld) (f : NFw) : (n.setFw f).rdma = n.rdma := rfl

/-! ### Nld.sendFife -/

@[simp] theorem Nld.sendFife_regs (n : Nld) (p : Nat) (m : Msg) : (n.sendFife p m).regs = n.regs := rfl
@[simp] theorem Nld.sendFife_pkg (n : Nld) (p : Nat) (m : Msg) : (n.sendFife p m).pkg = n.pkg := rfl
@[simp] theorem Nld.sendFife_hwErr (n : Nld) (p : Nat) (m : Msg) : (n.sendFife p m).hwErr = n.hwErr := rfl
@[simp] theorem Nld.sendFife_log (n : Nld) (p : Nat) (m : Msg) : (n.sendFife p m).log = n.log := rfl
@[simp] theorem Nld.sendFife_logSeq (n : Nld) (p : Nat) (m : Msg) : (n.sendFife p m).logSeq = n.logSeq := rfl
@[simp] theorem Nld.sendFife_out (n : Nld) (p : Nat) (m : Msg) : (n.sendFife p m).out = n.out := rfl
@[simp] theorem Nld.sendFife_doms (n : Nld) (p : Nat) (m : Msg) : (n.sendFife p m).doms = n.doms := rfl
@[simp] theorem Nld.sendFife_ktuTimes (n : Nld) (p : Nat) (m : Msg) : (n.sendFife p m).ktuTimes = n.ktuTimes := rfl
@[simp] theorem Nld.sendFife_ptp (n : Nld) (p : Nat) (m : Msg) : (n.sendFife p m).ptp = n.ptp := rfl
@[simp] theorem Nld.sendFife_tick (n : Nld) (p : Nat) (m : Msg) : (n.sendFife p m).tick = n.tick := rfl
@[simp] theorem Nld.sendFife_own (n : Nld) (p : Nat) (m : Msg) : (n.sendFife p m).own = n.own := rfl
@[simp] theorem Nld.sendFife_series (n : Nld) (p : Nat) (m : Msg) : (n.sendFife p m).series = n.series := rfl
@[simp] theorem Nld.sendFife_tables (n : Nld) (p : Nat) (m : Msg) : (n.sendFife p m).tables = n.tables := rfl
@[simp] theorem Nld.sendFife_host (n : Nld) (p : Nat) (m : Msg) : (n.sendFife p m).host = n.host := rfl
@[simp] theorem Nld.sendFife_group (n : Nld) (p : Nat) (m : Msg) : (n.sendFife p m).group = n.group := rfl
@[simp] theorem Nld.sendFife_verdict (n : Nld) (p : Nat) (m : Msg) : (n.sendFife p m).verdict = n.verdict := rfl
@[simp] theorem Nld.sendFife_recorder (n : Nld) (p : Nat) (m : Msg) : (n.sendFife p m).recorder = n.recorder := rfl
@[simp] theorem Nld.sendFife_sec (n : Nld) (p : Nat) (m : Msg) : (n.sendFife p m).sec = n.sec := rfl
@[simp] theorem Nld.sendFife_sched (n : Nld) (p : Nat) (m : Msg) : (n.sendFife p m).sched = n.sched := rfl
@[simp] theorem Nld.sendFife_defence (n : Nld) (p : Nat) (m : Msg) : (n.sendFife p m).defence = n.defence := rfl
@[simp] theorem Nld.sendFife_rdma (n : Nld) (p : Nat) (m : Msg) : (n.sendFife p m).rdma = n.rdma := rfl
@[simp] theorem Nld.sendFife_fw (n : Nld) (p : Nat) (m : Msg) : (n.sendFife p m).fw = n.fw := rfl

/-! ### Nld.sendHorn -/

@[simp] theorem Nld.sendHorn_regs (n : Nld) (p : Nat) (m : Msg) : (n.sendHorn p m).regs = n.regs := rfl
@[simp] theorem Nld.sendHorn_pkg (n : Nld) (p : Nat) (m : Msg) : (n.sendHorn p m).pkg = n.pkg := rfl
@[simp] theorem Nld.sendHorn_hwErr (n : Nld) (p : Nat) (m : Msg) : (n.sendHorn p m).hwErr = n.hwErr := rfl
@[simp] theorem Nld.sendHorn_log (n : Nld) (p : Nat) (m : Msg) : (n.sendHorn p m).log = n.log := rfl
@[simp] theorem Nld.sendHorn_logSeq (n : Nld) (p : Nat) (m : Msg) : (n.sendHorn p m).logSeq = n.logSeq := rfl
@[simp] theorem Nld.sendHorn_out (n : Nld) (p : Nat) (m : Msg) : (n.sendHorn p m).out = n.out := rfl
@[simp] theorem Nld.sendHorn_doms (n : Nld) (p : Nat) (m : Msg) : (n.sendHorn p m).doms = n.doms := rfl
@[simp] theorem Nld.sendHorn_ktuTimes (n : Nld) (p : Nat) (m : Msg) : (n.sendHorn p m).ktuTimes = n.ktuTimes := rfl
@[simp] theorem Nld.sendHorn_ptp (n : Nld) (p : Nat) (m : Msg) : (n.sendHorn p m).ptp = n.ptp := rfl
@[simp] theorem Nld.sendHorn_tick (n : Nld) (p : Nat) (m : Msg) : (n.sendHorn p m).tick = n.tick := rfl
@[simp] theorem Nld.sendHorn_own (n : Nld) (p : Nat) (m : Msg) : (n.sendHorn p m).own = n.own := rfl
@[simp] theorem Nld.sendHorn_chains (n : Nld) (p : Nat) (m : Msg) : (n.sendHorn p m).chains = n.chains := rfl
@[simp] theorem Nld.sendHorn_series (n : Nld) (p : Nat) (m : Msg) : (n.sendHorn p m).series = n.series := rfl
@[simp] theorem Nld.sendHorn_tables (n : Nld) (p : Nat) (m : Msg) : (n.sendHorn p m).tables = n.tables := rfl
@[simp] theorem Nld.sendHorn_host (n : Nld) (p : Nat) (m : Msg) : (n.sendHorn p m).host = n.host := rfl
@[simp] theorem Nld.sendHorn_verdict (n : Nld) (p : Nat) (m : Msg) : (n.sendHorn p m).verdict = n.verdict := rfl
@[simp] theorem Nld.sendHorn_recorder (n : Nld) (p : Nat) (m : Msg) : (n.sendHorn p m).recorder = n.recorder := rfl
@[simp] theorem Nld.sendHorn_sec (n : Nld) (p : Nat) (m : Msg) : (n.sendHorn p m).sec = n.sec := rfl
@[simp] theorem Nld.sendHorn_sched (n : Nld) (p : Nat) (m : Msg) : (n.sendHorn p m).sched = n.sched := rfl
@[simp] theorem Nld.sendHorn_defence (n : Nld) (p : Nat) (m : Msg) : (n.sendHorn p m).defence = n.defence := rfl
@[simp] theorem Nld.sendHorn_rdma (n : Nld) (p : Nat) (m : Msg) : (n.sendHorn p m).rdma = n.rdma := rfl
@[simp] theorem Nld.sendHorn_fw (n : Nld) (p : Nat) (m : Msg) : (n.sendHorn p m).fw = n.fw := rfl

end Sys2Proof.Machine
end

