-- ==== Sys2Proof/Laws/Tbl.lean ====
section
/-! SUPPORT. The laws of sparse tables: a read after a write to the same key gives the value written, a write leaves every other
key alone, and every write keeps the canonical form. -/

namespace Sys2Proof.Machine

variable {β : Type}

@[simp] theorem Tbl.get_nil (d : β) (k : Nat) : Tbl.get d k [] = d := rfl

theorem Tbl.get_cons (d : β) (k k' : Nat) (v : β) (t : Tbl β) :
    Tbl.get d k ((k', v) :: t) = if k = k' then v else Tbl.get d k t := rfl

/-- A removed key reads as the default. -/
@[simp] theorem Tbl.get_erase_same (d : β) (k : Nat) (t : Tbl β) : Tbl.get d k (Tbl.erase k t) = d := by
  induction t with
  | nil => rfl
  | cons e t ih =>
    obtain ⟨k', v⟩ := e
    by_cases h : k = k'
    · simp only [Tbl.erase, if_pos h, ih]
    · simp only [Tbl.erase, if_neg h, Tbl.get_cons, ih]

/-- Removing a key leaves the others. -/
@[simp] theorem Tbl.get_erase_ne (d : β) {j k : Nat} (hj : j ≠ k) (t : Tbl β) :
    Tbl.get d j (Tbl.erase k t) = Tbl.get d j t := by
  induction t with
  | nil => rfl
  | cons e t ih =>
    obtain ⟨k', v⟩ := e
    by_cases h : k = k'
    · subst h
      simp only [Tbl.erase, if_true, Tbl.get_cons, if_neg hj, ih]
    · simp only [Tbl.erase, if_neg h, Tbl.get_cons, ih]

/-- A listed key reads as its value. -/
@[simp] theorem Tbl.get_insert_same (d : β) (k : Nat) (v : β) (t : Tbl β) : Tbl.get d k (Tbl.insert k v t) = v := by
  induction t with
  | nil => simp [Tbl.insert, Tbl.get_cons]
  | cons e t ih =>
    obtain ⟨k', v'⟩ := e
    by_cases h : k = k'
    · simp [Tbl.insert, h, Tbl.get_cons]
    · by_cases h2 : k < k' <;> simp [Tbl.insert, h, h2, Tbl.get_cons, ih]

/-- Listing a key leaves the others. -/
@[simp] theorem Tbl.get_insert_ne (d : β) {j k : Nat} (hj : j ≠ k) (v : β) (t : Tbl β) :
    Tbl.get d j (Tbl.insert k v t) = Tbl.get d j t := by
  induction t with
  | nil => simp [Tbl.insert, Tbl.get_cons, hj]
  | cons e t ih =>
    obtain ⟨k', v'⟩ := e
    by_cases h : k = k'
    · subst h; simp [Tbl.insert, Tbl.get_cons, hj]
    · by_cases h2 : k < k' <;> simp [Tbl.insert, h, h2, Tbl.get_cons, ih, hj]

/-- A read of the key written gives the value written. -/
@[simp] theorem Tbl.get_set_same [DecidableEq β] (d : β) (k : Nat) (v : β) (t : Tbl β) :
    Tbl.get d k (Tbl.set d k v t) = v := by
  by_cases h : v = d <;> simp [Tbl.set, h]

/-- A write leaves every other key alone, whatever default the reader names. -/
@[simp] theorem Tbl.get_set_ne [DecidableEq β] (d d' : β) {j k : Nat} (hj : j ≠ k) (v : β) (t : Tbl β) :
    Tbl.get d' j (Tbl.set d k v t) = Tbl.get d' j t := by
  by_cases h : v = d <;> simp [Tbl.set, h, hj]

theorem Tbl.get_set [DecidableEq β] (d : β) (j k : Nat) (v : β) (t : Tbl β) :
    Tbl.get d j (Tbl.set d k v t) = if j = k then v else Tbl.get d j t := by
  by_cases h : j = k
  · subst h; simp
  · simp [h]

/-- What a listed key is found as. -/
@[simp] theorem Tbl.find?_insert_same (k : Nat) (v : β) (t : Tbl β) : Tbl.find? k (Tbl.insert k v t) = some v := by
  induction t with
  | nil => simp [Tbl.insert, Tbl.find?]
  | cons e t ih =>
    obtain ⟨k', v'⟩ := e
    by_cases h : k = k'
    · simp [Tbl.insert, h, Tbl.find?]
    · by_cases h2 : k < k' <;> simp [Tbl.insert, h, h2, Tbl.find?, ih]

@[simp] theorem Tbl.find?_insert_ne {j k : Nat} (hj : j ≠ k) (v : β) (t : Tbl β) :
    Tbl.find? j (Tbl.insert k v t) = Tbl.find? j t := by
  induction t with
  | nil => simp [Tbl.insert, Tbl.find?, hj]
  | cons e t ih =>
    obtain ⟨k', v'⟩ := e
    by_cases h : k = k'
    · subst h; simp [Tbl.insert, Tbl.find?, hj]
    · by_cases h2 : k < k' <;> simp [Tbl.insert, h, h2, Tbl.find?, ih, hj]

/-! ### The canonical form -/

theorem Tbl.sorted_cons (k : Nat) (v : β) (t : Tbl β) :
    Tbl.sorted ((k, v) :: t) = true ↔ Tbl.above k t = true ∧ Tbl.sorted t = true := by
  simp [Tbl.sorted]

theorem Tbl.above_erase (k j : Nat) (t : Tbl β) (ha : Tbl.above k t = true) (hs : Tbl.sorted t = true) :
    Tbl.above k (Tbl.erase j t) = true := by
  induction t generalizing k with
  | nil => rfl
  | cons e t ih =>
    obtain ⟨k', v⟩ := e
    rw [Tbl.sorted_cons] at hs
    by_cases h : j = k'
    · simp only [Tbl.erase, if_pos h]
      refine ih k ?_ hs.2
      have h1 : k < k' := by simpa [Tbl.above] using ha
      cases t with
      | nil => rfl
      | cons e2 t2 =>
        have h2 : k' < e2.1 := by simpa [Tbl.above] using hs.1
        simpa [Tbl.above] using h1.trans h2
    · simpa [Tbl.erase, h, Tbl.above] using ha

/-- Removing a key keeps the keys strictly rising. -/
theorem Tbl.sorted_erase (j : Nat) (t : Tbl β) (hs : Tbl.sorted t = true) : Tbl.sorted (Tbl.erase j t) = true := by
  induction t with
  | nil => rfl
  | cons e t ih =>
    obtain ⟨k', v⟩ := e
    rw [Tbl.sorted_cons] at hs
    by_cases h : j = k'
    · simp only [Tbl.erase, if_pos h]; exact ih hs.2
    · simp only [Tbl.erase, if_neg h]
      rw [Tbl.sorted_cons]
      exact ⟨Tbl.above_erase _ _ _ hs.1 hs.2, ih hs.2⟩

theorem Tbl.above_insert (k j : Nat) (v : β) (t : Tbl β) (ha : Tbl.above k t = true) (hj : k < j) :
    Tbl.above k (Tbl.insert j v t) = true := by
  cases t with
  | nil => simpa [Tbl.insert, Tbl.above] using hj
  | cons e t =>
    obtain ⟨k', v'⟩ := e
    by_cases h : j = k'
    · simpa [Tbl.insert, h, Tbl.above] using h ▸ hj
    · by_cases h2 : j < k'
      · simpa [Tbl.insert, h, h2, Tbl.above] using hj
      · simpa [Tbl.insert, h, h2, Tbl.above] using ha

/-- Listing a key keeps the keys strictly rising. -/
theorem Tbl.sorted_insert (j : Nat) (v : β) (t : Tbl β) (hs : Tbl.sorted t = true) : Tbl.sorted (Tbl.insert j v t) = true := by
  induction t with
  | nil => rfl
  | cons e t ih =>
    obtain ⟨k', v'⟩ := e
    have hs' := (Tbl.sorted_cons _ _ _).1 hs
    by_cases h : j = k'
    · subst h; simp only [Tbl.insert, if_true]; rw [Tbl.sorted_cons]; exact hs'
    · by_cases h2 : j < k'
      · simp only [Tbl.insert, if_neg h, if_pos h2]
        rw [Tbl.sorted_cons]; exact ⟨by simpa [Tbl.above] using h2, hs⟩
      · simp only [Tbl.insert, if_neg h, if_neg h2]
        rw [Tbl.sorted_cons]
        exact ⟨Tbl.above_insert _ _ _ _ hs'.1 (by omega), ih hs'.2⟩

theorem Tbl.mem_erase {e : Nat × β} (j : Nat) (t : Tbl β) (h : e ∈ Tbl.erase j t) : e ∈ t := by
  induction t with
  | nil => simp [Tbl.erase] at h
  | cons e' t ih =>
    obtain ⟨k', v⟩ := e'
    by_cases hk : j = k'
    · simp only [Tbl.erase, if_pos hk] at h; exact List.mem_cons_of_mem _ (ih h)
    · simp only [Tbl.erase, if_neg hk, List.mem_cons] at h
      rcases h with h | h
      · simp [h]
      · exact List.mem_cons_of_mem _ (ih h)

theorem Tbl.mem_insert {e : Nat × β} (j : Nat) (v : β) (t : Tbl β) (h : e ∈ Tbl.insert j v t) : e = (j, v) ∨ e ∈ t := by
  induction t with
  | nil => simpa [Tbl.insert] using h
  | cons e' t ih =>
    obtain ⟨k', v'⟩ := e'
    by_cases hk : j = k'
    · simp only [Tbl.insert, if_pos hk, List.mem_cons] at h
      rcases h with h | h <;> simp [h]
    · by_cases h2 : j < k'
      · simp only [Tbl.insert, if_neg hk, if_pos h2, List.mem_cons] at h
        rcases h with h | h | h <;> simp [h]
      · simp only [Tbl.insert, if_neg hk, if_neg h2, List.mem_cons] at h
        rcases h with h | h
        · simp [h]
        · rcases ih h with h | h <;> simp [h]

/-- Every write keeps the canonical form. -/
theorem Tbl.wf_set [DecidableEq β] (d : β) (k : Nat) (v : β) (t : Tbl β) (h : Tbl.wf d t = true) :
    Tbl.wf d (Tbl.set d k v t) = true := by
  simp only [Tbl.wf, Bool.and_eq_true, List.all_eq_true, decide_eq_true_eq] at h ⊢
  by_cases hv : v = d
  · simp only [Tbl.set, if_pos hv]
    exact ⟨Tbl.sorted_erase _ _ h.1, fun e he => h.2 e (Tbl.mem_erase _ _ he)⟩
  · simp only [Tbl.set, if_neg hv]
    refine ⟨Tbl.sorted_insert _ _ _ h.1, fun e he => ?_⟩
    rcases Tbl.mem_insert _ _ _ he with rfl | he
    · exact hv
    · exact h.2 e he

/-- Two writes of the same key: the second stands. -/
theorem Tbl.get_set_set [DecidableEq β] (d : β) (j k : Nat) (v w : β) (t : Tbl β) :
    Tbl.get d j (Tbl.set d k w (Tbl.set d k v t)) = Tbl.get d j (Tbl.set d k w t) := by
  by_cases h : j = k
  · subst h; simp
  · simp [h]

end Sys2Proof.Machine
end

