-- ==== Sys2Proof/Laws/Regs.lean ====
section
/-! SUPPORT. Reading a field after another has been written: of the KTU's register map and of Naloder's. -/

namespace Sys2Proof.Machine

open Sys2Proof

/-! ### Register files -/

@[simp] theorem Regs.get_set_same (r : Regs) (f : Fld) (v i : Nat) : (r.set f v i).get f i = v % 2 ^ f.width := by
  simp [Regs.get, Regs.set]

/-- A write leaves every field at another place alone. -/
theorem Regs.get_set_ne (r : Regs) (f g : Fld) (v i j : Nat) (h : g.key j ≠ f.key i) : (r.set f v i).get g j = r.get g j := by
  simp [Regs.get, Regs.set, h]

theorem Regs.get_bump_ne (r : Regs) (f g : Fld) (n i j : Nat) (h : g.key j ≠ f.key i) : (r.bump f n i).get g j = r.get g j :=
  Regs.get_set_ne _ _ _ _ _ _ h

@[simp] theorem Regs.get_bump_same (r : Regs) (f : Fld) (n i : Nat) :
    (r.bump f n i).get f i = min (r.get f i + n) f.max := by
  have h : f.max < 2 ^ f.width := by
    have := Nat.one_le_two_pow (n := f.width)
    simp only [Fld.max]; omega
  simp only [Regs.bump, Regs.get_set_same]
  exact Nat.mod_eq_of_lt (lt_of_le_of_lt (Nat.min_le_right _ _) h)

/-! ### The KTU's -/

@[simp] theorem Ktu.get_put_same (k : Ktu) (f : Fld) (v i : Nat) : (k.put f v i).get f i = v % 2 ^ f.width := by
  simp [Ktu.get, Ktu.put]

theorem Ktu.get_put_ne (k : Ktu) (f g : Fld) (v i j : Nat) (h : g.key j ≠ f.key i) : (k.put f v i).get g j = k.get g j := by
  simp [Ktu.get, Ktu.put, Regs.get_set_ne _ _ _ _ _ _ h]

@[simp] theorem Ktu.get_count_same (k : Ktu) (f : Fld) (v i : Nat) : (k.count f v i).get f i = min (k.get f i + v) f.max := by
  simp [Ktu.get, Ktu.count]

theorem Ktu.get_count_ne (k : Ktu) (f g : Fld) (v i j : Nat) (h : g.key j ≠ f.key i) : (k.count f v i).get g j = k.get g j := by
  simp [Ktu.get, Ktu.count, Regs.get_bump_ne _ _ _ _ _ _ h]

/-- Setting pending bits changes no field but KTU_IRQ_PEND. -/
theorem Ktu.get_pend_ne (b k : Ktu) (g : Fld) (j : Nat) (h : g.key j ≠ KReg.IRQ_PEND_pend.key 0) :
    (Ktu.pend b k).get g j = k.get g j := by
  unfold Ktu.pend
  simp only []
  split
  · rfl
  · exact Ktu.get_put_ne _ _ _ _ _ _ h

theorem Ktu.get_raise_ne (k : Ktu) (f g : Fld) (v i j : Nat) (h : g.key j ≠ f.key i)
    (h' : g.key j ≠ KReg.IRQ_PEND_pend.key 0) : (k.raise f v i).get g j = k.get g j := by
  rw [Ktu.raise, Ktu.get_pend_ne _ _ _ _ h', Ktu.get_put_ne _ _ _ _ _ _ h]

theorem Ktu.get_raise_same (k : Ktu) (f : Fld) (v i : Nat) (h' : f.key i ≠ KReg.IRQ_PEND_pend.key 0) :
    (k.raise f v i).get f i = (k.get f i ||| v) % 2 ^ f.width := by
  rw [Ktu.raise, Ktu.get_pend_ne _ _ _ _ h', Ktu.get_put_same]

/-- Setting pending bits changes nothing but registers. -/
theorem Ktu.pend_eq (b k : Ktu) : ∃ r, Ktu.pend b k = { k with regs := r } := by
  unfold Ktu.pend
  simp only []
  split
  · exact ⟨k.regs, rfl⟩
  · exact ⟨_, rfl⟩

/-- Raising an event changes nothing but registers. -/
theorem Ktu.raise_eq (k : Ktu) (f : Fld) (v i : Nat) : ∃ r, k.raise f v i = { k with regs := r } := by
  obtain ⟨r, hr⟩ := Ktu.pend_eq k (k.put f (k.get f i ||| v) i)
  exact ⟨r, by rw [Ktu.raise, hr]; rfl⟩

/-! ### Naloder's -/

@[simp] theorem Nld.get_put_same (n : Nld) (f : Fld) (v i : Nat) : (n.put f v i).get f i = v % 2 ^ f.width := by
  simp [Nld.get, Nld.put]

theorem Nld.get_put_ne (n : Nld) (f g : Fld) (v i j : Nat) (h : g.key j ≠ f.key i) : (n.put f v i).get g j = n.get g j := by
  simp [Nld.get, Nld.put, Regs.get_set_ne _ _ _ _ _ _ h]

@[simp] theorem Nld.get_count_same (n : Nld) (f : Fld) (v i : Nat) : (n.count f v i).get f i = min (n.get f i + v) f.max := by
  simp [Nld.get, Nld.count]

theorem Nld.get_count_ne (n : Nld) (f g : Fld) (v i j : Nat) (h : g.key j ≠ f.key i) : (n.count f v i).get g j = n.get g j := by
  simp [Nld.get, Nld.count, Regs.get_bump_ne _ _ _ _ _ _ h]

/-- A record of the hardware error ring changes nothing but that ring and its registers. -/
theorem Nld.hwRecord_eq (n : Nld) (a b : Nat) : ∃ r h, n.hwRecord a b = { n with regs := r, hwErr := h } := by
  unfold Nld.hwRecord
  simp only []
  split
  · exact ⟨_, _, rfl⟩
  · exact ⟨_, _, rfl⟩

/-- Raising an event changes nothing but registers and the hardware error ring. -/
theorem Nld.raise_eq (n : Nld) (f : Fld) (v i : Nat) : ∃ r h, n.raise f v i = { n with regs := r, hwErr := h } := by
  unfold Nld.raise
  simp only []
  split
  · exact ⟨n.regs, n.hwErr, rfl⟩
  · obtain ⟨r, h, e⟩ := Nld.hwRecord_eq (n.put f (n.get f i ||| v) i) (f.addr i) ((v - (v &&& n.get f i)) * 2 ^ f.lo)
    exact ⟨r, h, by rw [e]; rfl⟩

theorem Nld.get_hwRecord_ne (n : Nld) (a b : Nat) (g : Fld) (j : Nat) (h1 : g.key j ≠ NReg.HWERR_PROD_seq.key 0)
    (h2 : g.key j ≠ NReg.HWERR_LOST_count.key 0) : (n.hwRecord a b).get g j = n.get g j := by
  unfold Nld.hwRecord
  simp only []
  split
  · rw [Nld.get_count_ne _ _ _ _ _ _ h2, Nld.get_put_ne _ _ _ _ _ _ h1]
  · exact Nld.get_put_ne _ _ _ _ _ _ h1

theorem Nld.get_raise_ne (n : Nld) (f g : Fld) (v i j : Nat) (h : g.key j ≠ f.key i)
    (h1 : g.key j ≠ NReg.HWERR_PROD_seq.key 0) (h2 : g.key j ≠ NReg.HWERR_LOST_count.key 0) :
    (n.raise f v i).get g j = n.get g j := by
  unfold Nld.raise
  simp only []
  split
  · rfl
  · rw [Nld.get_hwRecord_ne _ _ _ _ _ h1 h2, Nld.get_put_ne _ _ _ _ _ _ h]

/-- A one-bit event that is raised reads as 1. -/
theorem Nld.get_raise_one (n : Nld) (f : Fld) (i : Nat) (hw : f.width = 1) (hv : n.get f i ≤ 1)
    (h1 : f.key i ≠ NReg.HWERR_PROD_seq.key 0) (h2 : f.key i ≠ NReg.HWERR_LOST_count.key 0) :
    (n.raise f 1 i).get f i = 1 := by
  unfold Nld.raise
  simp only []
  rcases (show n.get f i = 0 ∨ n.get f i = 1 by omega) with h | h
  · simp [h, Nld.get_hwRecord_ne _ _ _ _ _ h1 h2, hw]
  · simp [h]

@[simp] theorem Nld.bit_put_same (n : Nld) (f : Fld) (v i : Nat) : (n.put f v i).bit f i = (v % 2 ^ f.width != 0) := by
  simp [Nld.bit, Regs.bit, Nld.put]

section
variable (k : Ktu) (f : Fld) (v i : Nat)
@[simp] theorem Ktu.raise_pins : (k.raise f v i).pins = k.pins := by obtain ⟨r, e⟩ := Ktu.raise_eq k f v i; rw [e]
@[simp] theorem Ktu.raise_remoteIdx : (k.raise f v i).remoteIdx = k.remoteIdx := by obtain ⟨r, e⟩ := Ktu.raise_eq k f v i; rw [e]
@[simp] theorem Ktu.raise_latchL : (k.raise f v i).latchL = k.latchL := by obtain ⟨r, e⟩ := Ktu.raise_eq k f v i; rw [e]
@[simp] theorem Ktu.raise_latchR : (k.raise f v i).latchR = k.latchR := by obtain ⟨r, e⟩ := Ktu.raise_eq k f v i; rw [e]
@[simp] theorem Ktu.raise_time : (k.raise f v i).time = k.time := by obtain ⟨r, e⟩ := Ktu.raise_eq k f v i; rw [e]
@[simp] theorem Ktu.raise_cnt : (k.raise f v i).cnt = k.cnt := by obtain ⟨r, e⟩ := Ktu.raise_eq k f v i; rw [e]
@[simp] theorem Ktu.raise_tail : (k.raise f v i).tail = k.tail := by obtain ⟨r, e⟩ := Ktu.raise_eq k f v i; rw [e]
@[simp] theorem Ktu.raise_trace : (k.raise f v i).trace = k.trace := by obtain ⟨r, e⟩ := Ktu.raise_eq k f v i; rw [e]
@[simp] theorem Ktu.raise_halts : (k.raise f v i).halts = k.halts := by obtain ⟨r, e⟩ := Ktu.raise_eq k f v i; rw [e]
@[simp] theorem Ktu.raise_queues : (k.raise f v i).queues = k.queues := by obtain ⟨r, e⟩ := Ktu.raise_eq k f v i; rw [e]
@[simp] theorem Ktu.raise_codec : (k.raise f v i).codec = k.codec := by obtain ⟨r, e⟩ := Ktu.raise_eq k f v i; rw [e]
@[simp] theorem Ktu.raise_fife : (k.raise f v i).fife = k.fife := by obtain ⟨r, e⟩ := Ktu.raise_eq k f v i; rw [e]
@[simp] theorem Ktu.raise_check : (k.raise f v i).check = k.check := by obtain ⟨r, e⟩ := Ktu.raise_eq k f v i; rw [e]
@[simp] theorem Ktu.raise_resetPending : (k.raise f v i).resetPending = k.resetPending := by obtain ⟨r, e⟩ := Ktu.raise_eq k f v i; rw [e]
@[simp] theorem Ktu.raise_errHeld : (k.raise f v i).errHeld = k.errHeld := by obtain ⟨r, e⟩ := Ktu.raise_eq k f v i; rw [e]
@[simp] theorem Ktu.raise_lastRead : (k.raise f v i).lastRead = k.lastRead := by obtain ⟨r, e⟩ := Ktu.raise_eq k f v i; rw [e]
variable (b : Ktu)
@[simp] theorem Ktu.pend_pins : (Ktu.pend b k).pins = k.pins := by obtain ⟨r, e⟩ := Ktu.pend_eq b k; rw [e]
@[simp] theorem Ktu.pend_remoteIdx : (Ktu.pend b k).remoteIdx = k.remoteIdx := by obtain ⟨r, e⟩ := Ktu.pend_eq b k; rw [e]
@[simp] theorem Ktu.pend_latchL : (Ktu.pend b k).latchL = k.latchL := by obtain ⟨r, e⟩ := Ktu.pend_eq b k; rw [e]
@[simp] theorem Ktu.pend_latchR : (Ktu.pend b k).latchR = k.latchR := by obtain ⟨r, e⟩ := Ktu.pend_eq b k; rw [e]
@[simp] theorem Ktu.pend_time : (Ktu.pend b k).time = k.time := by obtain ⟨r, e⟩ := Ktu.pend_eq b k; rw [e]
@[simp] theorem Ktu.pend_cnt : (Ktu.pend b k).cnt = k.cnt := by obtain ⟨r, e⟩ := Ktu.pend_eq b k; rw [e]
@[simp] theorem Ktu.pend_tail : (Ktu.pend b k).tail = k.tail := by obtain ⟨r, e⟩ := Ktu.pend_eq b k; rw [e]
@[simp] theorem Ktu.pend_trace : (Ktu.pend b k).trace = k.trace := by obtain ⟨r, e⟩ := Ktu.pend_eq b k; rw [e]
@[simp] theorem Ktu.pend_halts : (Ktu.pend b k).halts = k.halts := by obtain ⟨r, e⟩ := Ktu.pend_eq b k; rw [e]
@[simp] theorem Ktu.pend_queues : (Ktu.pend b k).queues = k.queues := by obtain ⟨r, e⟩ := Ktu.pend_eq b k; rw [e]
@[simp] theorem Ktu.pend_codec : (Ktu.pend b k).codec = k.codec := by obtain ⟨r, e⟩ := Ktu.pend_eq b k; rw [e]
@[simp] theorem Ktu.pend_fife : (Ktu.pend b k).fife = k.fife := by obtain ⟨r, e⟩ := Ktu.pend_eq b k; rw [e]
@[simp] theorem Ktu.pend_check : (Ktu.pend b k).check = k.check := by obtain ⟨r, e⟩ := Ktu.pend_eq b k; rw [e]
@[simp] theorem Ktu.pend_resetPending : (Ktu.pend b k).resetPending = k.resetPending := by obtain ⟨r, e⟩ := Ktu.pend_eq b k; rw [e]
@[simp] theorem Ktu.pend_errHeld : (Ktu.pend b k).errHeld = k.errHeld := by obtain ⟨r, e⟩ := Ktu.pend_eq b k; rw [e]
@[simp] theorem Ktu.pend_lastRead : (Ktu.pend b k).lastRead = k.lastRead := by obtain ⟨r, e⟩ := Ktu.pend_eq b k; rw [e]
end

section
variable (n : Nld) (f : Fld) (v i : Nat)
@[simp] theorem Nld.raise_pkg : (n.raise f v i).pkg = n.pkg := by obtain ⟨r, h, e⟩ := Nld.raise_eq n f v i; rw [e]
@[simp] theorem Nld.raise_log : (n.raise f v i).log = n.log := by obtain ⟨r, h, e⟩ := Nld.raise_eq n f v i; rw [e]
@[simp] theorem Nld.raise_logSeq : (n.raise f v i).logSeq = n.logSeq := by obtain ⟨r, h, e⟩ := Nld.raise_eq n f v i; rw [e]
@[simp] theorem Nld.raise_out : (n.raise f v i).out = n.out := by obtain ⟨r, h, e⟩ := Nld.raise_eq n f v i; rw [e]
@[simp] theorem Nld.raise_doms : (n.raise f v i).doms = n.doms := by obtain ⟨r, h, e⟩ := Nld.raise_eq n f v i; rw [e]
@[simp] theorem Nld.raise_ktuTimes : (n.raise f v i).ktuTimes = n.ktuTimes := by obtain ⟨r, h, e⟩ := Nld.raise_eq n f v i; rw [e]
@[simp] theorem Nld.raise_ptp : (n.raise f v i).ptp = n.ptp := by obtain ⟨r, h, e⟩ := Nld.raise_eq n f v i; rw [e]
@[simp] theorem Nld.raise_tick : (n.raise f v i).tick = n.tick := by obtain ⟨r, h, e⟩ := Nld.raise_eq n f v i; rw [e]
@[simp] theorem Nld.raise_own : (n.raise f v i).own = n.own := by obtain ⟨r, h, e⟩ := Nld.raise_eq n f v i; rw [e]
@[simp] theorem Nld.raise_chains : (n.raise f v i).chains = n.chains := by obtain ⟨r, h, e⟩ := Nld.raise_eq n f v i; rw [e]
@[simp] theorem Nld.raise_series : (n.raise f v i).series = n.series := by obtain ⟨r, h, e⟩ := Nld.raise_eq n f v i; rw [e]
@[simp] theorem Nld.raise_tables : (n.raise f v i).tables = n.tables := by obtain ⟨r, h, e⟩ := Nld.raise_eq n f v i; rw [e]
@[simp] theorem Nld.raise_host : (n.raise f v i).host = n.host := by obtain ⟨r, h, e⟩ := Nld.raise_eq n f v i; rw [e]
@[simp] theorem Nld.raise_group : (n.raise f v i).group = n.group := by obtain ⟨r, h, e⟩ := Nld.raise_eq n f v i; rw [e]
@[simp] theorem Nld.raise_verdict : (n.raise f v i).verdict = n.verdict := by obtain ⟨r, h, e⟩ := Nld.raise_eq n f v i; rw [e]
@[simp] theorem Nld.raise_recorder : (n.raise f v i).recorder = n.recorder := by obtain ⟨r, h, e⟩ := Nld.raise_eq n f v i; rw [e]
@[simp] theorem Nld.raise_sec : (n.raise f v i).sec = n.sec := by obtain ⟨r, h, e⟩ := Nld.raise_eq n f v i; rw [e]
@[simp] theorem Nld.raise_sched : (n.raise f v i).sched = n.sched := by obtain ⟨r, h, e⟩ := Nld.raise_eq n f v i; rw [e]
@[simp] theorem Nld.raise_defence : (n.raise f v i).defence = n.defence := by obtain ⟨r, h, e⟩ := Nld.raise_eq n f v i; rw [e]
@[simp] theorem Nld.raise_rdma : (n.raise f v i).rdma = n.rdma := by obtain ⟨r, h, e⟩ := Nld.raise_eq n f v i; rw [e]
@[simp] theorem Nld.raise_fw : (n.raise f v i).fw = n.fw := by obtain ⟨r, h, e⟩ := Nld.raise_eq n f v i; rw [e]
end

end Sys2Proof.Machine
end

