-- ==== Sys2Proof/Laws/Ops.lean ====
section
/-! SUPPORT. What the wrappers of the commands do, said once: `onKtu`, `onNld`, `onNldWrite`, and what follows every change of a
KTU (`Ktu.wakeCheck`) and of a Naloder (`Nld.after`). -/

namespace Sys2Proof.Machine

open Sys2Proof

/-! ### The wrappers -/

theorem onKtu_run (f : Ktu → Ktu) (s : State) (h : s.ktu.runs) : onKtu f s = .next { s with ktu := (f s.ktu).wakeCheck } := by
  simp [onKtu, h.1, h.2]

theorem onKtuFree_run (f : Nat → Ktu → Ktu) (s : State) (h : s.ktu.runs) :
    onKtuFree f s = .next { s with ktu := (f (Config.freeValue s.free) s.ktu).wakeCheck, free := s.free + 1 } := by
  simp [onKtuFree, h.1, h.2]

theorem onNld_run (f : Nld → Nld) (s : State) (h : s.nld.runs) : onNld f s = .next { s with nld := Nld.after s.nld (f s.nld) } := by
  simp [onNld, h.1, h.2]

theorem onNldWrite_run (f : Nld → Nld) (s : State) (h : s.nld.writable) :
    onNldWrite f s = .next { s with nld := Nld.after s.nld (f s.nld) } := by
  have h5 : ¬ s.nld.bootStage < 5 := by have := h.2.2; omega
  simp [onNldWrite, onNld, Nld.pfWrite, h.1.1, h.1.2, h.2.1, h5]

/-- Everything a KTU wrapper can answer. -/
theorem onKtu_cases (f : Ktu → Ktu) (s : State) :
    (s.ktu.pins.clkStopped = true ∧ onKtu f s = .refused .ktuUndefined) ∨
    (s.ktu.pins.clkStopped = false ∧ s.ktu.pins.porLow = true ∧ onKtu f s = .next s) ∨
    (s.ktu.runs ∧ onKtu f s = .next { s with ktu := (f s.ktu).wakeCheck }) := by
  unfold onKtu Ktu.runs
  cases hc : s.ktu.pins.clkStopped <;> cases hp : s.ktu.pins.porLow <;> simp

/-- Everything a Naloder wrapper can answer. -/
theorem onNld_cases (f : Nld → Nld) (s : State) :
    (¬ s.nld.runs ∧ onNld f s = .next s) ∨
    (s.nld.runs ∧ onNld f s = .next { s with nld := Nld.after s.nld (f s.nld) }) := by
  unfold onNld Nld.runs
  cases hc : s.nld.pkg.porLow <;> cases hp : s.nld.pkg.stopped <;> simp

/-! ### What follows every change of a KTU -/

/-- What the check of the wake sources may touch. -/
def Ktu.wakeTouch (k : Ktu) (latch once : Bool) (up dn : LinkEnd) (phase : Nat) (owed : Bool) : Ktu :=
  { k with pins := { k.pins with wakeLatch := latch, wakeOnce := once },
           fife := { k.fife with up := up, dn := dn, sleepPhase := phase, wakeOwed := owed } }

theorem Ktu.sendWake_eq (k : Ktu) : ∃ a b u w, k.sendWake = k.wakeTouch a b u k.fife.dn k.fife.sleepPhase w := by
  unfold Ktu.sendWake
  split
  · exact ⟨false, false, _, false, rfl⟩
  · exact ⟨k.pins.wakeLatch, k.pins.wakeOnce, k.fife.up, k.fife.wakeOwed, rfl⟩

theorem Ktu.stayAwake_eq (k : Ktu) : ∃ u d, k.stayAwake = { k with fife := { k.fife with up := u, dn := d } } := by
  by_cases h1 : k.fife.up.lp ≠ 0
  · by_cases h2 : k.fife.dn.lp ≠ 0
    · exact ⟨_, _, by simp only [Ktu.stayAwake, if_pos h1]; exact if_pos h2⟩
    · exact ⟨_, k.fife.dn, by simp only [Ktu.stayAwake, if_pos h1]; exact if_neg h2⟩
  · by_cases h2 : k.fife.dn.lp ≠ 0
    · exact ⟨k.fife.up, _, by simp only [Ktu.stayAwake, if_neg h1]; exact if_pos h2⟩
    · exact ⟨k.fife.up, k.fife.dn, by simp only [Ktu.stayAwake, if_neg h1]; exact if_neg h2⟩

theorem Ktu.wakeCheck_eq (k : Ktu) : ∃ a b u d p w, k.wakeCheck = k.wakeTouch a b u d p w := by
  unfold Ktu.wakeCheck
  split
  · obtain ⟨a, b, u, w, h⟩ := k.sendWake_eq
    exact ⟨a, b, u, _, _, w, h⟩
  · obtain ⟨u, d, hf⟩ := k.stayAwake_eq
    simp only [hf]
    generalize hg : ({ k with fife := _ } : Ktu) = g
    obtain ⟨a, b, u', w, h⟩ := g.sendWake_eq
    refine ⟨a, b, u', d, 0, w, ?_⟩
    rw [h, ← hg]; rfl

section
variable (k : Ktu)
@[simp] theorem Ktu.wakeCheck_regs : k.wakeCheck.regs = k.regs := by obtain ⟨a, b, u, d, p, w, h⟩ := k.wakeCheck_eq; rw [h]; rfl
@[simp] theorem Ktu.wakeCheck_remoteIdx : k.wakeCheck.remoteIdx = k.remoteIdx := by obtain ⟨a, b, u, d, p, w, h⟩ := k.wakeCheck_eq; rw [h]; rfl
@[simp] theorem Ktu.wakeCheck_latchL : k.wakeCheck.latchL = k.latchL := by obtain ⟨a, b, u, d, p, w, h⟩ := k.wakeCheck_eq; rw [h]; rfl
@[simp] theorem Ktu.wakeCheck_latchR : k.wakeCheck.latchR = k.latchR := by obtain ⟨a, b, u, d, p, w, h⟩ := k.wakeCheck_eq; rw [h]; rfl
@[simp] theorem Ktu.wakeCheck_time : k.wakeCheck.time = k.time := by obtain ⟨a, b, u, d, p, w, h⟩ := k.wakeCheck_eq; rw [h]; rfl
@[simp] theorem Ktu.wakeCheck_cnt : k.wakeCheck.cnt = k.cnt := by obtain ⟨a, b, u, d, p, w, h⟩ := k.wakeCheck_eq; rw [h]; rfl
@[simp] theorem Ktu.wakeCheck_tail : k.wakeCheck.tail = k.tail := by obtain ⟨a, b, u, d, p, w, h⟩ := k.wakeCheck_eq; rw [h]; rfl
@[simp] theorem Ktu.wakeCheck_trace : k.wakeCheck.trace = k.trace := by obtain ⟨a, b, u, d, p, w, h⟩ := k.wakeCheck_eq; rw [h]; rfl
@[simp] theorem Ktu.wakeCheck_halts : k.wakeCheck.halts = k.halts := by obtain ⟨a, b, u, d, p, w, h⟩ := k.wakeCheck_eq; rw [h]; rfl
@[simp] theorem Ktu.wakeCheck_queues : k.wakeCheck.queues = k.queues := by obtain ⟨a, b, u, d, p, w, h⟩ := k.wakeCheck_eq; rw [h]; rfl
@[simp] theorem Ktu.wakeCheck_codec : k.wakeCheck.codec = k.codec := by obtain ⟨a, b, u, d, p, w, h⟩ := k.wakeCheck_eq; rw [h]; rfl
@[simp] theorem Ktu.wakeCheck_check : k.wakeCheck.check = k.check := by obtain ⟨a, b, u, d, p, w, h⟩ := k.wakeCheck_eq; rw [h]; rfl
@[simp] theorem Ktu.wakeCheck_resetPending : k.wakeCheck.resetPending = k.resetPending := by
  obtain ⟨a, b, u, d, p, w, h⟩ := k.wakeCheck_eq; rw [h]; rfl
@[simp] theorem Ktu.wakeCheck_errHeld : k.wakeCheck.errHeld = k.errHeld := by obtain ⟨a, b, u, d, p, w, h⟩ := k.wakeCheck_eq; rw [h]; rfl
@[simp] theorem Ktu.wakeCheck_lastRead : k.wakeCheck.lastRead = k.lastRead := by obtain ⟨a, b, u, d, p, w, h⟩ := k.wakeCheck_eq; rw [h]; rfl
@[simp] theorem Ktu.wakeCheck_get (f : Fld) (i : Nat) : k.wakeCheck.get f i = k.get f i := by simp [Ktu.get]
end

/-! ### What follows every change of a Naloder -/

/-- Naloder apart from what signalling its host touches. -/
theorem Nld.signal_eq (n : Nld) (fn v : Nat) : ∃ p o, n.signal fn v = { n with host := { n.host with pba := p }, out := o } := by
  unfold Nld.signal
  split
  · split
    · exact ⟨n.host.pba, n.out, rfl⟩
    · exact ⟨_, n.out, rfl⟩
  · exact ⟨n.host.pba, _, rfl⟩

theorem Nld.settle_eq (b n : Nld) : ∃ r p o, Nld.settle b n = { n with regs := r, host := { n.host with pba := p }, out := o } ∧
    ∀ (f : Fld) (i : Nat), f.key i ≠ NReg.IRQ_PEND_pend.key 0 → r.get f i = n.get f i := by
  have hl : ∀ (l : List Nat) (m : Nld), ∃ p o,
      l.foldl (fun m p => if b.vfSet p = 0 ∧ m.vfSet p ≠ 0 then m.signal (p + 1) 0 else m) m =
        { m with host := { m.host with pba := p }, out := o } := by
    intro l
    induction l with
    | nil => intro m; exact ⟨m.host.pba, m.out, rfl⟩
    | cons a l ih =>
      intro m
      rw [List.foldl_cons]
      split
      · obtain ⟨p, o, h⟩ := Nld.signal_eq m (a + 1) 0
        rw [h]
        obtain ⟨p', o', h'⟩ := ih { m with host := { m.host with pba := p }, out := o }
        exact ⟨p', o', h'⟩
      · exact ih m
  unfold Nld.settle
  simp only []
  generalize hn1 : (if n.irqSrc - (n.irqSrc &&& b.irqSrc) = 0 then n
    else n.put NReg.IRQ_PEND_pend (n.get NReg.IRQ_PEND_pend ||| n.irqSrc - (n.irqSrc &&& b.irqSrc))) = n1
  have e1 : ∃ r, n1 = { n with regs := r } ∧ ∀ (f : Fld) (i : Nat), f.key i ≠ NReg.IRQ_PEND_pend.key 0 → r.get f i = n.get f i := by
    subst hn1
    split
    · exact ⟨n.regs, rfl, fun _ _ _ => rfl⟩
    · exact ⟨_, rfl, fun f i h => Regs.get_set_ne _ _ _ _ _ _ h⟩
  obtain ⟨r, e1, hr⟩ := e1
  generalize hn2 : (if b.irqSet = 0 ∧ n1.irqSet ≠ 0 then n1.signal 0 0 else n1) = n2
  have e2 : ∃ p o, n2 = { n1 with host := { n1.host with pba := p }, out := o } := by
    subst hn2
    split
    · exact Nld.signal_eq _ _ _
    · exact ⟨n1.host.pba, n1.out, rfl⟩
  obtain ⟨p, o, e2⟩ := e2
  obtain ⟨p', o', e3⟩ := hl (List.range 16) n2
  refine ⟨r, p', o', ?_, hr⟩
  rw [e3, e2, e1]

/-- What follows a change that does not raise NLD_TICK_CTRL.run. -/
theorem Nld.after_eq (b n : Nld) (h : n.bit NReg.TICK_CTRL_run = b.bit NReg.TICK_CTRL_run) :
    ∃ r p o c l, Nld.after b n =
      { n with regs := r, host := { n.host with pba := p }, out := o, tick := { n.tick with crossed := c, everLocked := l } } ∧
    ∀ (f : Fld) (i : Nat), f.key i ≠ NReg.IRQ_PEND_pend.key 0 → r.get f i = n.get f i := by
  have hlc : ∃ c l, n.lockCheck = { n with tick := { n.tick with crossed := c, everLocked := l } } := by
    unfold Nld.lockCheck
    simp only []
    split
    · exact ⟨_, _, rfl⟩
    · exact ⟨n.tick.crossed, _, rfl⟩
  obtain ⟨c, l, e⟩ := hlc
  have hrun : Nld.runCheck b n.lockCheck = n.lockCheck := by
    have hb : n.lockCheck.bit NReg.TICK_CTRL_run = n.bit NReg.TICK_CTRL_run := by rw [e]; rfl
    unfold Nld.runCheck
    rw [hb, h]
    simp
  obtain ⟨r, p, o, e2, hr⟩ := Nld.settle_eq b n.lockCheck
  refine ⟨r, p, o, c, l, ?_, ?_⟩
  · rw [Nld.after, hrun, e2, e]
  · intro f i hf
    rw [hr f i hf, e]; rfl

section
variable {b n : Nld}
theorem Nld.after_get (h : n.bit NReg.TICK_CTRL_run = b.bit NReg.TICK_CTRL_run) (f : Fld) (i : Nat)
    (hf : f.key i ≠ NReg.IRQ_PEND_pend.key 0) : (Nld.after b n).get f i = n.get f i := by
  obtain ⟨r, p, o, c, l, e, hr⟩ := Nld.after_eq b n h
  rw [e]; exact hr f i hf
end

section
variable {b n : Nld}
theorem Nld.after_pkg (h : n.bit NReg.TICK_CTRL_run = b.bit NReg.TICK_CTRL_run) : (Nld.after b n).pkg = n.pkg := by
  obtain ⟨r, p, o, c, l, e, hr⟩ := Nld.after_eq b n h; rw [e]
theorem Nld.after_hwErr (h : n.bit NReg.TICK_CTRL_run = b.bit NReg.TICK_CTRL_run) : (Nld.after b n).hwErr = n.hwErr := by
  obtain ⟨r, p, o, c, l, e, hr⟩ := Nld.after_eq b n h; rw [e]
theorem Nld.after_log (h : n.bit NReg.TICK_CTRL_run = b.bit NReg.TICK_CTRL_run) : (Nld.after b n).log = n.log := by
  obtain ⟨r, p, o, c, l, e, hr⟩ := Nld.after_eq b n h; rw [e]
theorem Nld.after_logSeq (h : n.bit NReg.TICK_CTRL_run = b.bit NReg.TICK_CTRL_run) : (Nld.after b n).logSeq = n.logSeq := by
  obtain ⟨r, p, o, c, l, e, hr⟩ := Nld.after_eq b n h; rw [e]
theorem Nld.after_doms (h : n.bit NReg.TICK_CTRL_run = b.bit NReg.TICK_CTRL_run) : (Nld.after b n).doms = n.doms := by
  obtain ⟨r, p, o, c, l, e, hr⟩ := Nld.after_eq b n h; rw [e]
theorem Nld.after_ktuTimes (h : n.bit NReg.TICK_CTRL_run = b.bit NReg.TICK_CTRL_run) : (Nld.after b n).ktuTimes = n.ktuTimes := by
  obtain ⟨r, p, o, c, l, e, hr⟩ := Nld.after_eq b n h; rw [e]
theorem Nld.after_ptp (h : n.bit NReg.TICK_CTRL_run = b.bit NReg.TICK_CTRL_run) : (Nld.after b n).ptp = n.ptp := by
  obtain ⟨r, p, o, c, l, e, hr⟩ := Nld.after_eq b n h; rw [e]
theorem Nld.after_own (h : n.bit NReg.TICK_CTRL_run = b.bit NReg.TICK_CTRL_run) : (Nld.after b n).own = n.own := by
  obtain ⟨r, p, o, c, l, e, hr⟩ := Nld.after_eq b n h; rw [e]
theorem Nld.after_chains (h : n.bit NReg.TICK_CTRL_run = b.bit NReg.TICK_CTRL_run) : (Nld.after b n).chains = n.chains := by
  obtain ⟨r, p, o, c, l, e, hr⟩ := Nld.after_eq b n h; rw [e]
theorem Nld.after_series (h : n.bit NReg.TICK_CTRL_run = b.bit NReg.TICK_CTRL_run) : (Nld.after b n).series = n.series := by
  obtain ⟨r, p, o, c, l, e, hr⟩ := Nld.after_eq b n h; rw [e]
theorem Nld.after_tables (h : n.bit NReg.TICK_CTRL_run = b.bit NReg.TICK_CTRL_run) : (Nld.after b n).tables = n.tables := by
  obtain ⟨r, p, o, c, l, e, hr⟩ := Nld.after_eq b n h; rw [e]
theorem Nld.after_group (h : n.bit NReg.TICK_CTRL_run = b.bit NReg.TICK_CTRL_run) : (Nld.after b n).group = n.group := by
  obtain ⟨r, p, o, c, l, e, hr⟩ := Nld.after_eq b n h; rw [e]
theorem Nld.after_verdict (h : n.bit NReg.TICK_CTRL_run = b.bit NReg.TICK_CTRL_run) : (Nld.after b n).verdict = n.verdict := by
  obtain ⟨r, p, o, c, l, e, hr⟩ := Nld.after_eq b n h; rw [e]
theorem Nld.after_recorder (h : n.bit NReg.TICK_CTRL_run = b.bit NReg.TICK_CTRL_run) : (Nld.after b n).recorder = n.recorder := by
  obtain ⟨r, p, o, c, l, e, hr⟩ := Nld.after_eq b n h; rw [e]
theorem Nld.after_sec (h : n.bit NReg.TICK_CTRL_run = b.bit NReg.TICK_CTRL_run) : (Nld.after b n).sec = n.sec := by
  obtain ⟨r, p, o, c, l, e, hr⟩ := Nld.after_eq b n h; rw [e]
theorem Nld.after_sched (h : n.bit NReg.TICK_CTRL_run = b.bit NReg.TICK_CTRL_run) : (Nld.after b n).sched = n.sched := by
  obtain ⟨r, p, o, c, l, e, hr⟩ := Nld.after_eq b n h; rw [e]
theorem Nld.after_defence (h : n.bit NReg.TICK_CTRL_run = b.bit NReg.TICK_CTRL_run) : (Nld.after b n).defence = n.defence := by
  obtain ⟨r, p, o, c, l, e, hr⟩ := Nld.after_eq b n h; rw [e]
theorem Nld.after_rdma (h : n.bit NReg.TICK_CTRL_run = b.bit NReg.TICK_CTRL_run) : (Nld.after b n).rdma = n.rdma := by
  obtain ⟨r, p, o, c, l, e, hr⟩ := Nld.after_eq b n h; rw [e]
theorem Nld.after_fw (h : n.bit NReg.TICK_CTRL_run = b.bit NReg.TICK_CTRL_run) : (Nld.after b n).fw = n.fw := by
  obtain ⟨r, p, o, c, l, e, hr⟩ := Nld.after_eq b n h; rw [e]
end

section
variable (k : Ktu)
@[simp] theorem Ktu.wakeCheck_pins_porLow : k.wakeCheck.pins.porLow = k.pins.porLow := by
  obtain ⟨a, b, u, d, p, w, h⟩ := k.wakeCheck_eq; rw [h]; rfl
@[simp] theorem Ktu.wakeCheck_pins_clkStopped : k.wakeCheck.pins.clkStopped = k.pins.clkStopped := by
  obtain ⟨a, b, u, d, p, w, h⟩ := k.wakeCheck_eq; rw [h]; rfl
@[simp] theorem Ktu.wakeCheck_pins_ready : k.wakeCheck.pins.ready = k.pins.ready := by
  obtain ⟨a, b, u, d, p, w, h⟩ := k.wakeCheck_eq; rw [h]; rfl
@[simp] theorem Ktu.wakeCheck_pins_straps : k.wakeCheck.pins.straps = k.pins.straps := by
  obtain ⟨a, b, u, d, p, w, h⟩ := k.wakeCheck_eq; rw [h]; rfl
@[simp] theorem Ktu.wakeCheck_pins_rstN : k.wakeCheck.pins.rstN = k.pins.rstN := by
  obtain ⟨a, b, u, d, p, w, h⟩ := k.wakeCheck_eq; rw [h]; rfl
@[simp] theorem Ktu.wakeCheck_pins_pgood : k.wakeCheck.pins.pgood = k.pins.pgood := by
  obtain ⟨a, b, u, d, p, w, h⟩ := k.wakeCheck_eq; rw [h]; rfl
@[simp] theorem Ktu.wakeCheck_pins_trcPgood : k.wakeCheck.pins.trcPgood = k.pins.trcPgood := by
  obtain ⟨a, b, u, d, p, w, h⟩ := k.wakeCheck_eq; rw [h]; rfl
@[simp] theorem Ktu.wakeCheck_pins_units : k.wakeCheck.pins.units = k.pins.units := by
  obtain ⟨a, b, u, d, p, w, h⟩ := k.wakeCheck_eq; rw [h]; rfl
@[simp] theorem Ktu.wakeCheck_pins_hostAlarm : k.wakeCheck.pins.hostAlarm = k.pins.hostAlarm := by
  obtain ⟨a, b, u, d, p, w, h⟩ := k.wakeCheck_eq; rw [h]; rfl
@[simp] theorem Ktu.wakeCheck_pins_abort : k.wakeCheck.pins.abort = k.pins.abort := by
  obtain ⟨a, b, u, d, p, w, h⟩ := k.wakeCheck_eq; rw [h]; rfl
@[simp] theorem Ktu.wakeCheck_pins_abortPart : k.wakeCheck.pins.abortPart = k.pins.abortPart := by
  obtain ⟨a, b, u, d, p, w, h⟩ := k.wakeCheck_eq; rw [h]; rfl
@[simp] theorem Ktu.wakeCheck_pins_abortHeld : k.wakeCheck.pins.abortHeld = k.pins.abortHeld := by
  obtain ⟨a, b, u, d, p, w, h⟩ := k.wakeCheck_eq; rw [h]; rfl
@[simp] theorem Ktu.wakeCheck_pins_abortAck : k.wakeCheck.pins.abortAck = k.pins.abortAck := by
  obtain ⟨a, b, u, d, p, w, h⟩ := k.wakeCheck_eq; rw [h]; rfl
@[simp] theorem Ktu.wakeCheck_pins_bkpt : k.wakeCheck.pins.bkpt = k.pins.bkpt := by
  obtain ⟨a, b, u, d, p, w, h⟩ := k.wakeCheck_eq; rw [h]; rfl
@[simp] theorem Ktu.wakeCheck_pins_dbgHalted : k.wakeCheck.pins.dbgHalted = k.pins.dbgHalted := by
  obtain ⟨a, b, u, d, p, w, h⟩ := k.wakeCheck_eq; rw [h]; rfl
@[simp] theorem Ktu.wakeCheck_pins_engDrained : k.wakeCheck.pins.engDrained = k.pins.engDrained := by
  obtain ⟨a, b, u, d, p, w, h⟩ := k.wakeCheck_eq; rw [h]; rfl
@[simp] theorem Ktu.wakeCheck_pins_tsCap : k.wakeCheck.pins.tsCap = k.pins.tsCap := by
  obtain ⟨a, b, u, d, p, w, h⟩ := k.wakeCheck_eq; rw [h]; rfl
@[simp] theorem Ktu.wakeCheck_pins_tsVal : k.wakeCheck.pins.tsVal = k.pins.tsVal := by
  obtain ⟨a, b, u, d, p, w, h⟩ := k.wakeCheck_eq; rw [h]; rfl
@[simp] theorem Ktu.wakeCheck_pins_tsBusy : k.wakeCheck.pins.tsBusy = k.pins.tsBusy := by
  obtain ⟨a, b, u, d, p, w, h⟩ := k.wakeCheck_eq; rw [h]; rfl
@[simp] theorem Ktu.wakeCheck_pins_tsPulse : k.wakeCheck.pins.tsPulse = k.pins.tsPulse := by
  obtain ⟨a, b, u, d, p, w, h⟩ := k.wakeCheck_eq; rw [h]; rfl
@[simp] theorem Ktu.wakeCheck_pins_tsLatch : k.wakeCheck.pins.tsLatch = k.pins.tsLatch := by
  obtain ⟨a, b, u, d, p, w, h⟩ := k.wakeCheck_eq; rw [h]; rfl
@[simp] theorem Ktu.wakeCheck_fife_addr : k.wakeCheck.fife.addr = k.fife.addr := by
  obtain ⟨a, b, u, d, p, w, h⟩ := k.wakeCheck_eq; rw [h]; rfl
@[simp] theorem Ktu.wakeCheck_fife_addrValid : k.wakeCheck.fife.addrValid = k.fife.addrValid := by
  obtain ⟨a, b, u, d, p, w, h⟩ := k.wakeCheck_eq; rw [h]; rfl
@[simp] theorem Ktu.wakeCheck_fife_addrEver : k.wakeCheck.fife.addrEver = k.fife.addrEver := by
  obtain ⟨a, b, u, d, p, w, h⟩ := k.wakeCheck_eq; rw [h]; rfl
@[simp] theorem Ktu.wakeCheck_fife_overlong : k.wakeCheck.fife.overlong = k.fife.overlong := by
  obtain ⟨a, b, u, d, p, w, h⟩ := k.wakeCheck_eq; rw [h]; rfl
@[simp] theorem Ktu.wakeCheck_fife_mayForward : k.wakeCheck.fife.mayForward = k.fife.mayForward := by
  obtain ⟨a, b, u, d, p, w, h⟩ := k.wakeCheck_eq; rw [h]; rfl
@[simp] theorem Ktu.wakeCheck_fife_frameLeft : k.wakeCheck.fife.frameLeft = k.fife.frameLeft := by
  obtain ⟨a, b, u, d, p, w, h⟩ := k.wakeCheck_eq; rw [h]; rfl
@[simp] theorem Ktu.wakeCheck_fife_traceLeft : k.wakeCheck.fife.traceLeft = k.fife.traceLeft := by
  obtain ⟨a, b, u, d, p, w, h⟩ := k.wakeCheck_eq; rw [h]; rfl
@[simp] theorem Ktu.wakeCheck_fife_cmdLeft : k.wakeCheck.fife.cmdLeft = k.fife.cmdLeft := by
  obtain ⟨a, b, u, d, p, w, h⟩ := k.wakeCheck_eq; rw [h]; rfl
@[simp] theorem Ktu.wakeCheck_fife_alarmCount : k.wakeCheck.fife.alarmCount = k.fife.alarmCount := by
  obtain ⟨a, b, u, d, p, w, h⟩ := k.wakeCheck_eq; rw [h]; rfl
@[simp] theorem Ktu.wakeCheck_fife_seen : k.wakeCheck.fife.seen = k.fife.seen := by
  obtain ⟨a, b, u, d, p, w, h⟩ := k.wakeCheck_eq; rw [h]; rfl
@[simp] theorem Ktu.wakeCheck_fife_heldAlarms : k.wakeCheck.fife.heldAlarms = k.fife.heldAlarms := by
  obtain ⟨a, b, u, d, p, w, h⟩ := k.wakeCheck_eq; rw [h]; rfl
@[simp] theorem Ktu.wakeCheck_fife_history : k.wakeCheck.fife.history = k.fife.history := by
  obtain ⟨a, b, u, d, p, w, h⟩ := k.wakeCheck_eq; rw [h]; rfl
@[simp] theorem Ktu.wakeCheck_fife_running : k.wakeCheck.fife.running = k.fife.running := by
  obtain ⟨a, b, u, d, p, w, h⟩ := k.wakeCheck_eq; rw [h]; rfl
@[simp] theorem Ktu.wakeCheck_fife_sleepTarget : k.wakeCheck.fife.sleepTarget = k.fife.sleepTarget := by
  obtain ⟨a, b, u, d, p, w, h⟩ := k.wakeCheck_eq; rw [h]; rfl
@[simp] theorem Ktu.wakeCheck_fife_sleepTick : k.wakeCheck.fife.sleepTick = k.fife.sleepTick := by
  obtain ⟨a, b, u, d, p, w, h⟩ := k.wakeCheck_eq; rw [h]; rfl

/-- The check of the wake sources moves no part that a frame names. -/
theorem Ktu.same_wakeCheck (a : Ktu) (x : KPart) : Ktu.same a k.wakeCheck x ↔ Ktu.same a k x := by
  obtain ⟨l, o, u, d, p, w, h⟩ := k.wakeCheck_eq
  cases x <;> simp [Ktu.same, h, Ktu.wakeTouch]

theorem Ktu.only_wakeCheck (l : List KPart) (a : Ktu) : Ktu.only l a k.wakeCheck ↔ Ktu.only l a k := by
  simp [Ktu.only, Ktu.same_wakeCheck]

@[simp] theorem Ktu.same_refl (x : KPart) : Ktu.same k k x := by cases x <;> simp [Ktu.same]
end

/-- What follows a change moves no part that a frame names. -/
theorem Nld.same_after {b n : Nld} (h : n.bit NReg.TICK_CTRL_run = b.bit NReg.TICK_CTRL_run) (a : Nld) (x : NPart) :
    Nld.same a (Nld.after b n) x ↔ Nld.same a n x := by
  obtain ⟨r, p, o, c, l, e, hr⟩ := Nld.after_eq b n h
  cases x <;> simp only [Nld.same, e]
  constructor
  · intro g f i hf; rw [← g f i hf]; exact (hr f i hf).symm
  · intro g f i hf; rw [← g f i hf]; exact hr f i hf

theorem Nld.only_after {b n : Nld} (h : n.bit NReg.TICK_CTRL_run = b.bit NReg.TICK_CTRL_run) (l : List NPart) (a : Nld) :
    Nld.only l a (Nld.after b n) ↔ Nld.only l a n := by
  simp [Nld.only, Nld.same_after h]

theorem Nld.regsOnly_after {b n : Nld} (h : n.bit NReg.TICK_CTRL_run = b.bit NReg.TICK_CTRL_run) (l : List (Fld × Nat)) (a : Nld) :
    Nld.regsOnly l a (Nld.after b n) ↔ Nld.regsOnly l a n := by
  constructor
  · intro g f i hf hl; rw [← g f i hf hl, Nld.after_get h _ _ hf]
  · intro g f i hf hl; rw [Nld.after_get h _ _ hf]; exact g f i hf hl

@[simp] theorem Nld.same_refl (n : Nld) (x : NPart) : Nld.same n n x := by cases x <;> simp [Nld.same]

/-! ### Link ends and the check of the wake sources -/

/-- A message that waits still does when another is handed to the port. -/
theorem LinkEnd.waits_queue {e : LinkEnd} {m : Msg} (h : e.waits m) (r : Nat) (gc : Bool) (x : Msg) : (e.queue r gc x).waits m := by
  obtain ⟨r', g, hm⟩ := h
  refine ⟨r', g, ?_⟩
  by_cases hr : r' = r
  · subst hr; simp [LinkEnd.queue, hm]
  · simp [LinkEnd.queue, hr, hm]

/-- A message handed to a port waits there. -/
theorem LinkEnd.waits_queue_same (e : LinkEnd) (r : Nat) (gc : Bool) (x : Msg) : (e.queue r gc x).waits x :=
  ⟨r, gc, by simp [LinkEnd.queue]⟩

theorem LinkEnd.sendState_tx (e : LinkEnd) (c : Nat) : (e.sendState c).tx = e.tx := by
  unfold LinkEnd.sendState; simp only []; split_ifs <;> rfl

theorem LinkEnd.waits_sendState {e : LinkEnd} {m : Msg} (h : e.waits m) (c : Nat) : (e.sendState c).waits m := by
  simpa [LinkEnd.waits, LinkEnd.sendState_tx] using h

/-- A message that waits upstream still does after the check of the wake sources. -/
theorem Ktu.waits_up_wakeCheck {k : Ktu} {m : Msg} (h : k.fife.up.waits m) : k.wakeCheck.fife.up.waits m := by
  have hs : ∀ {k : Ktu}, k.fife.up.waits m → k.sendWake.fife.up.waits m := by
    intro k h
    unfold Ktu.sendWake
    split
    · exact LinkEnd.waits_queue h _ _ _
    · exact h
  unfold Ktu.wakeCheck
  split
  · exact hs h
  · apply hs
    show k.stayAwake.fife.up.waits m
    unfold Ktu.stayAwake
    by_cases h1 : k.fife.up.lp ≠ 0 <;> by_cases h2 : k.fife.dn.lp ≠ 0 <;>
      simp [Ktu.setLink, h1, h2, h, LinkEnd.waits_sendState h]

/-- The same downstream. -/
theorem Ktu.waits_dn_wakeCheck {k : Ktu} {m : Msg} (h : k.fife.dn.waits m) : k.wakeCheck.fife.dn.waits m := by
  have hs : ∀ {k : Ktu}, k.sendWake.fife.dn = k.fife.dn := by
    intro k; unfold Ktu.sendWake; split <;> rfl
  unfold Ktu.wakeCheck
  split
  · rw [hs]; exact h
  · rw [hs]
    show k.stayAwake.fife.dn.waits m
    unfold Ktu.stayAwake
    by_cases h1 : k.fife.up.lp ≠ 0 <;> by_cases h2 : k.fife.dn.lp ≠ 0 <;>
      simp [Ktu.setLink, h1, h2, h, LinkEnd.waits_sendState h]

section
variable (k : Ktu) (e : LinkEnd) (c : Nat)
theorem LinkEnd.sendState_state : (e.sendState c).state = e.state := by
  unfold LinkEnd.sendState; simp only []; split_ifs <;> rfl
theorem LinkEnd.sendState_role : (e.sendState c).role = e.role := by
  unfold LinkEnd.sendState; simp only []; split_ifs <;> rfl
theorem LinkEnd.sendState_txSeq : (e.sendState c).txSeq = e.txSeq := by
  unfold LinkEnd.sendState; simp only []; split_ifs <;> rfl
theorem LinkEnd.sendState_rxExp : (e.sendState c).rxExp = e.rxExp := by
  unfold LinkEnd.sendState; simp only []; split_ifs <;> rfl
theorem LinkEnd.sendState_ackDue : (e.sendState c).ackDue = e.ackDue := by
  unfold LinkEnd.sendState; simp only []; split_ifs <;> rfl
theorem LinkEnd.sendState_nakOut : (e.sendState c).nakOut = e.nakOut := by
  unfold LinkEnd.sendState; simp only []; split_ifs <;> rfl
theorem LinkEnd.sendState_nakDue : (e.sendState c).nakDue = e.nakDue := by
  unfold LinkEnd.sendState; simp only []; split_ifs <;> rfl
theorem LinkEnd.sendState_replay : (e.sendState c).replay = e.replay := by
  unfold LinkEnd.sendState; simp only []; split_ifs <;> rfl
theorem LinkEnd.sendState_resend : (e.sendState c).resend = e.resend := by
  unfold LinkEnd.sendState; simp only []; split_ifs <;> rfl
theorem LinkEnd.sendState_episode : (e.sendState c).episode = e.episode := by
  unfold LinkEnd.sendState; simp only []; split_ifs <;> rfl
theorem LinkEnd.sendState_used : (e.sendState c).used = e.used := by
  unfold LinkEnd.sendState; simp only []; split_ifs <;> rfl
theorem LinkEnd.sendState_lastRep : (e.sendState c).lastRep = e.lastRep := by
  unfold LinkEnd.sendState; simp only []; split_ifs <;> rfl
theorem LinkEnd.sendState_freed : (e.sendState c).freed = e.freed := by
  unfold LinkEnd.sendState; simp only []; split_ifs <;> rfl
theorem LinkEnd.sendState_reported : (e.sendState c).reported = e.reported := by
  unfold LinkEnd.sendState; simp only []; split_ifs <;> rfl
theorem LinkEnd.sendState_rrVc : (e.sendState c).rrVc = e.rrVc := by
  unfold LinkEnd.sendState; simp only []; split_ifs <;> rfl
theorem LinkEnd.sendState_partialRx : (e.sendState c).partialRx = e.partialRx := by
  unfold LinkEnd.sendState; simp only []; split_ifs <;> rfl
theorem LinkEnd.sendState_rxHeld : (e.sendState c).rxHeld = e.rxHeld := by
  unfold LinkEnd.sendState; simp only []; split_ifs <;> rfl
theorem LinkEnd.sendState_rrTx : (e.sendState c).rrTx = e.rrTx := by
  unfold LinkEnd.sendState; simp only []; split_ifs <;> rfl
theorem LinkEnd.sendState_alarms : (e.sendState c).alarms = e.alarms := by
  unfold LinkEnd.sendState; simp only []; split_ifs <;> rfl
@[simp] theorem Ktu.wakeCheck_up_state : k.wakeCheck.fife.up.state = k.fife.up.state := by
  have hs : ∀ k : Ktu, k.sendWake.fife.up.state = k.fife.up.state := by intro k; unfold Ktu.sendWake; split <;> rfl
  unfold Ktu.wakeCheck; split
  · exact hs k
  · rw [hs]; unfold Ktu.stayAwake
    by_cases h1 : k.fife.up.lp ≠ 0 <;> by_cases h2 : k.fife.dn.lp ≠ 0 <;> simp [Ktu.setLink, h1, h2, LinkEnd.sendState_state]
@[simp] theorem Ktu.wakeCheck_dn_state : k.wakeCheck.fife.dn.state = k.fife.dn.state := by
  have hs : ∀ k : Ktu, k.sendWake.fife.dn.state = k.fife.dn.state := by intro k; unfold Ktu.sendWake; split <;> rfl
  unfold Ktu.wakeCheck; split
  · exact hs k
  · rw [hs]; unfold Ktu.stayAwake
    by_cases h1 : k.fife.up.lp ≠ 0 <;> by_cases h2 : k.fife.dn.lp ≠ 0 <;> simp [Ktu.setLink, h1, h2, LinkEnd.sendState_state]
@[simp] theorem Ktu.wakeCheck_up_role : k.wakeCheck.fife.up.role = k.fife.up.role := by
  have hs : ∀ k : Ktu, k.sendWake.fife.up.role = k.fife.up.role := by intro k; unfold Ktu.sendWake; split <;> rfl
  unfold Ktu.wakeCheck; split
  · exact hs k
  · rw [hs]; unfold Ktu.stayAwake
    by_cases h1 : k.fife.up.lp ≠ 0 <;> by_cases h2 : k.fife.dn.lp ≠ 0 <;> simp [Ktu.setLink, h1, h2, LinkEnd.sendState_role]
@[simp] theorem Ktu.wakeCheck_dn_role : k.wakeCheck.fife.dn.role = k.fife.dn.role := by
  have hs : ∀ k : Ktu, k.sendWake.fife.dn.role = k.fife.dn.role := by intro k; unfold Ktu.sendWake; split <;> rfl
  unfold Ktu.wakeCheck; split
  · exact hs k
  · rw [hs]; unfold Ktu.stayAwake
    by_cases h1 : k.fife.up.lp ≠ 0 <;> by_cases h2 : k.fife.dn.lp ≠ 0 <;> simp [Ktu.setLink, h1, h2, LinkEnd.sendState_role]
@[simp] theorem Ktu.wakeCheck_up_txSeq : k.wakeCheck.fife.up.txSeq = k.fife.up.txSeq := by
  have hs : ∀ k : Ktu, k.sendWake.fife.up.txSeq = k.fife.up.txSeq := by intro k; unfold Ktu.sendWake; split <;> rfl
  unfold Ktu.wakeCheck; split
  · exact hs k
  · rw [hs]; unfold Ktu.stayAwake
    by_cases h1 : k.fife.up.lp ≠ 0 <;> by_cases h2 : k.fife.dn.lp ≠ 0 <;> simp [Ktu.setLink, h1, h2, LinkEnd.sendState_txSeq]
@[simp] theorem Ktu.wakeCheck_dn_txSeq : k.wakeCheck.fife.dn.txSeq = k.fife.dn.txSeq := by
  have hs : ∀ k : Ktu, k.sendWake.fife.dn.txSeq = k.fife.dn.txSeq := by intro k; unfold Ktu.sendWake; split <;> rfl
  unfold Ktu.wakeCheck; split
  · exact hs k
  · rw [hs]; unfold Ktu.stayAwake
    by_cases h1 : k.fife.up.lp ≠ 0 <;> by_cases h2 : k.fife.dn.lp ≠ 0 <;> simp [Ktu.setLink, h1, h2, LinkEnd.sendState_txSeq]
@[simp] theorem Ktu.wakeCheck_up_rxExp : k.wakeCheck.fife.up.rxExp = k.fife.up.rxExp := by
  have hs : ∀ k : Ktu, k.sendWake.fife.up.rxExp = k.fife.up.rxExp := by intro k; unfold Ktu.sendWake; split <;> rfl
  unfold Ktu.wakeCheck; split
  · exact hs k
  · rw [hs]; unfold Ktu.stayAwake
    by_cases h1 : k.fife.up.lp ≠ 0 <;> by_cases h2 : k.fife.dn.lp ≠ 0 <;> simp [Ktu.setLink, h1, h2, LinkEnd.sendState_rxExp]
@[simp] theorem Ktu.wakeCheck_dn_rxExp : k.wakeCheck.fife.dn.rxExp = k.fife.dn.rxExp := by
  have hs : ∀ k : Ktu, k.sendWake.fife.dn.rxExp = k.fife.dn.rxExp := by intro k; unfold Ktu.sendWake; split <;> rfl
  unfold Ktu.wakeCheck; split
  · exact hs k
  · rw [hs]; unfold Ktu.stayAwake
    by_cases h1 : k.fife.up.lp ≠ 0 <;> by_cases h2 : k.fife.dn.lp ≠ 0 <;> simp [Ktu.setLink, h1, h2, LinkEnd.sendState_rxExp]
@[simp] theorem Ktu.wakeCheck_up_ackDue : k.wakeCheck.fife.up.ackDue = k.fife.up.ackDue := by
  have hs : ∀ k : Ktu, k.sendWake.fife.up.ackDue = k.fife.up.ackDue := by intro k; unfold Ktu.sendWake; split <;> rfl
  unfold Ktu.wakeCheck; split
  · exact hs k
  · rw [hs]; unfold Ktu.stayAwake
    by_cases h1 : k.fife.up.lp ≠ 0 <;> by_cases h2 : k.fife.dn.lp ≠ 0 <;> simp [Ktu.setLink, h1, h2, LinkEnd.sendState_ackDue]
@[simp] theorem Ktu.wakeCheck_dn_ackDue : k.wakeCheck.fife.dn.ackDue = k.fife.dn.ackDue := by
  have hs : ∀ k : Ktu, k.sendWake.fife.dn.ackDue = k.fife.dn.ackDue := by intro k; unfold Ktu.sendWake; split <;> rfl
  unfold Ktu.wakeCheck; split
  · exact hs k
  · rw [hs]; unfold Ktu.stayAwake
    by_cases h1 : k.fife.up.lp ≠ 0 <;> by_cases h2 : k.fife.dn.lp ≠ 0 <;> simp [Ktu.setLink, h1, h2, LinkEnd.sendState_ackDue]
@[simp] theorem Ktu.wakeCheck_up_nakOut : k.wakeCheck.fife.up.nakOut = k.fife.up.nakOut := by
  have hs : ∀ k : Ktu, k.sendWake.fife.up.nakOut = k.fife.up.nakOut := by intro k; unfold Ktu.sendWake; split <;> rfl
  unfold Ktu.wakeCheck; split
  · exact hs k
  · rw [hs]; unfold Ktu.stayAwake
    by_cases h1 : k.fife.up.lp ≠ 0 <;> by_cases h2 : k.fife.dn.lp ≠ 0 <;> simp [Ktu.setLink, h1, h2, LinkEnd.sendState_nakOut]
@[simp] theorem Ktu.wakeCheck_dn_nakOut : k.wakeCheck.fife.dn.nakOut = k.fife.dn.nakOut := by
  have hs : ∀ k : Ktu, k.sendWake.fife.dn.nakOut = k.fife.dn.nakOut := by intro k; unfold Ktu.sendWake; split <;> rfl
  unfold Ktu.wakeCheck; split
  · exact hs k
  · rw [hs]; unfold Ktu.stayAwake
    by_cases h1 : k.fife.up.lp ≠ 0 <;> by_cases h2 : k.fife.dn.lp ≠ 0 <;> simp [Ktu.setLink, h1, h2, LinkEnd.sendState_nakOut]
@[simp] theorem Ktu.wakeCheck_up_nakDue : k.wakeCheck.fife.up.nakDue = k.fife.up.nakDue := by
  have hs : ∀ k : Ktu, k.sendWake.fife.up.nakDue = k.fife.up.nakDue := by intro k; unfold Ktu.sendWake; split <;> rfl
  unfold Ktu.wakeCheck; split
  · exact hs k
  · rw [hs]; unfold Ktu.stayAwake
    by_cases h1 : k.fife.up.lp ≠ 0 <;> by_cases h2 : k.fife.dn.lp ≠ 0 <;> simp [Ktu.setLink, h1, h2, LinkEnd.sendState_nakDue]
@[simp] theorem Ktu.wakeCheck_dn_nakDue : k.wakeCheck.fife.dn.nakDue = k.fife.dn.nakDue := by
  have hs : ∀ k : Ktu, k.sendWake.fife.dn.nakDue = k.fife.dn.nakDue := by intro k; unfold Ktu.sendWake; split <;> rfl
  unfold Ktu.wakeCheck; split
  · exact hs k
  · rw [hs]; unfold Ktu.stayAwake
    by_cases h1 : k.fife.up.lp ≠ 0 <;> by_cases h2 : k.fife.dn.lp ≠ 0 <;> simp [Ktu.setLink, h1, h2, LinkEnd.sendState_nakDue]
@[simp] theorem Ktu.wakeCheck_up_replay : k.wakeCheck.fife.up.replay = k.fife.up.replay := by
  have hs : ∀ k : Ktu, k.sendWake.fife.up.replay = k.fife.up.replay := by intro k; unfold Ktu.sendWake; split <;> rfl
  unfold Ktu.wakeCheck; split
  · exact hs k
  · rw [hs]; unfold Ktu.stayAwake
    by_cases h1 : k.fife.up.lp ≠ 0 <;> by_cases h2 : k.fife.dn.lp ≠ 0 <;> simp [Ktu.setLink, h1, h2, LinkEnd.sendState_replay]
@[simp] theorem Ktu.wakeCheck_dn_replay : k.wakeCheck.fife.dn.replay = k.fife.dn.replay := by
  have hs : ∀ k : Ktu, k.sendWake.fife.dn.replay = k.fife.dn.replay := by intro k; unfold Ktu.sendWake; split <;> rfl
  unfold Ktu.wakeCheck; split
  · exact hs k
  · rw [hs]; unfold Ktu.stayAwake
    by_cases h1 : k.fife.up.lp ≠ 0 <;> by_cases h2 : k.fife.dn.lp ≠ 0 <;> simp [Ktu.setLink, h1, h2, LinkEnd.sendState_replay]
@[simp] theorem Ktu.wakeCheck_up_resend : k.wakeCheck.fife.up.resend = k.fife.up.resend := by
  have hs : ∀ k : Ktu, k.sendWake.fife.up.resend = k.fife.up.resend := by intro k; unfold Ktu.sendWake; split <;> rfl
  unfold Ktu.wakeCheck; split
  · exact hs k
  · rw [hs]; unfold Ktu.stayAwake
    by_cases h1 : k.fife.up.lp ≠ 0 <;> by_cases h2 : k.fife.dn.lp ≠ 0 <;> simp [Ktu.setLink, h1, h2, LinkEnd.sendState_resend]
@[simp] theorem Ktu.wakeCheck_dn_resend : k.wakeCheck.fife.dn.resend = k.fife.dn.resend := by
  have hs : ∀ k : Ktu, k.sendWake.fife.dn.resend = k.fife.dn.resend := by intro k; unfold Ktu.sendWake; split <;> rfl
  unfold Ktu.wakeCheck; split
  · exact hs k
  · rw [hs]; unfold Ktu.stayAwake
    by_cases h1 : k.fife.up.lp ≠ 0 <;> by_cases h2 : k.fife.dn.lp ≠ 0 <;> simp [Ktu.setLink, h1, h2, LinkEnd.sendState_resend]
@[simp] theorem Ktu.wakeCheck_up_episode : k.wakeCheck.fife.up.episode = k.fife.up.episode := by
  have hs : ∀ k : Ktu, k.sendWake.fife.up.episode = k.fife.up.episode := by intro k; unfold Ktu.sendWake; split <;> rfl
  unfold Ktu.wakeCheck; split
  · exact hs k
  · rw [hs]; unfold Ktu.stayAwake
    by_cases h1 : k.fife.up.lp ≠ 0 <;> by_cases h2 : k.fife.dn.lp ≠ 0 <;> simp [Ktu.setLink, h1, h2, LinkEnd.sendState_episode]
@[simp] theorem Ktu.wakeCheck_dn_episode : k.wakeCheck.fife.dn.episode = k.fife.dn.episode := by
  have hs : ∀ k : Ktu, k.sendWake.fife.dn.episode = k.fife.dn.episode := by intro k; unfold Ktu.sendWake; split <;> rfl
  unfold Ktu.wakeCheck; split
  · exact hs k
  · rw [hs]; unfold Ktu.stayAwake
    by_cases h1 : k.fife.up.lp ≠ 0 <;> by_cases h2 : k.fife.dn.lp ≠ 0 <;> simp [Ktu.setLink, h1, h2, LinkEnd.sendState_episode]
@[simp] theorem Ktu.wakeCheck_up_used : k.wakeCheck.fife.up.used = k.fife.up.used := by
  have hs : ∀ k : Ktu, k.sendWake.fife.up.used = k.fife.up.used := by intro k; unfold Ktu.sendWake; split <;> rfl
  unfold Ktu.wakeCheck; split
  · exact hs k
  · rw [hs]; unfold Ktu.stayAwake
    by_cases h1 : k.fife.up.lp ≠ 0 <;> by_cases h2 : k.fife.dn.lp ≠ 0 <;> simp [Ktu.setLink, h1, h2, LinkEnd.sendState_used]
@[simp] theorem Ktu.wakeCheck_dn_used : k.wakeCheck.fife.dn.used = k.fife.dn.used := by
  have hs : ∀ k : Ktu, k.sendWake.fife.dn.used = k.fife.dn.used := by intro k; unfold Ktu.sendWake; split <;> rfl
  unfold Ktu.wakeCheck; split
  · exact hs k
  · rw [hs]; unfold Ktu.stayAwake
    by_cases h1 : k.fife.up.lp ≠ 0 <;> by_cases h2 : k.fife.dn.lp ≠ 0 <;> simp [Ktu.setLink, h1, h2, LinkEnd.sendState_used]
@[simp] theorem Ktu.wakeCheck_up_lastRep : k.wakeCheck.fife.up.lastRep = k.fife.up.lastRep := by
  have hs : ∀ k : Ktu, k.sendWake.fife.up.lastRep = k.fife.up.lastRep := by intro k; unfold Ktu.sendWake; split <;> rfl
  unfold Ktu.wakeCheck; split
  · exact hs k
  · rw [hs]; unfold Ktu.stayAwake
    by_cases h1 : k.fife.up.lp ≠ 0 <;> by_cases h2 : k.fife.dn.lp ≠ 0 <;> simp [Ktu.setLink, h1, h2, LinkEnd.sendState_lastRep]
@[simp] theorem Ktu.wakeCheck_dn_lastRep : k.wakeCheck.fife.dn.lastRep = k.fife.dn.lastRep := by
  have hs : ∀ k : Ktu, k.sendWake.fife.dn.lastRep = k.fife.dn.lastRep := by intro k; unfold Ktu.sendWake; split <;> rfl
  unfold Ktu.wakeCheck; split
  · exact hs k
  · rw [hs]; unfold Ktu.stayAwake
    by_cases h1 : k.fife.up.lp ≠ 0 <;> by_cases h2 : k.fife.dn.lp ≠ 0 <;> simp [Ktu.setLink, h1, h2, LinkEnd.sendState_lastRep]
@[simp] theorem Ktu.wakeCheck_up_freed : k.wakeCheck.fife.up.freed = k.fife.up.freed := by
  have hs : ∀ k : Ktu, k.sendWake.fife.up.freed = k.fife.up.freed := by intro k; unfold Ktu.sendWake; split <;> rfl
  unfold Ktu.wakeCheck; split
  · exact hs k
  · rw [hs]; unfold Ktu.stayAwake
    by_cases h1 : k.fife.up.lp ≠ 0 <;> by_cases h2 : k.fife.dn.lp ≠ 0 <;> simp [Ktu.setLink, h1, h2, LinkEnd.sendState_freed]
@[simp] theorem Ktu.wakeCheck_dn_freed : k.wakeCheck.fife.dn.freed = k.fife.dn.freed := by
  have hs : ∀ k : Ktu, k.sendWake.fife.dn.freed = k.fife.dn.freed := by intro k; unfold Ktu.sendWake; split <;> rfl
  unfold Ktu.wakeCheck; split
  · exact hs k
  · rw [hs]; unfold Ktu.stayAwake
    by_cases h1 : k.fife.up.lp ≠ 0 <;> by_cases h2 : k.fife.dn.lp ≠ 0 <;> simp [Ktu.setLink, h1, h2, LinkEnd.sendState_freed]
@[simp] theorem Ktu.wakeCheck_up_reported : k.wakeCheck.fife.up.reported = k.fife.up.reported := by
  have hs : ∀ k : Ktu, k.sendWake.fife.up.reported = k.fife.up.reported := by intro k; unfold Ktu.sendWake; split <;> rfl
  unfold Ktu.wakeCheck; split
  · exact hs k
  · rw [hs]; unfold Ktu.stayAwake
    by_cases h1 : k.fife.up.lp ≠ 0 <;> by_cases h2 : k.fife.dn.lp ≠ 0 <;> simp [Ktu.setLink, h1, h2, LinkEnd.sendState_reported]
@[simp] theorem Ktu.wakeCheck_dn_reported : k.wakeCheck.fife.dn.reported = k.fife.dn.reported := by
  have hs : ∀ k : Ktu, k.sendWake.fife.dn.reported = k.fife.dn.reported := by intro k; unfold Ktu.sendWake; split <;> rfl
  unfold Ktu.wakeCheck; split
  · exact hs k
  · rw [hs]; unfold Ktu.stayAwake
    by_cases h1 : k.fife.up.lp ≠ 0 <;> by_cases h2 : k.fife.dn.lp ≠ 0 <;> simp [Ktu.setLink, h1, h2, LinkEnd.sendState_reported]
@[simp] theorem Ktu.wakeCheck_up_rrVc : k.wakeCheck.fife.up.rrVc = k.fife.up.rrVc := by
  have hs : ∀ k : Ktu, k.sendWake.fife.up.rrVc = k.fife.up.rrVc := by intro k; unfold Ktu.sendWake; split <;> rfl
  unfold Ktu.wakeCheck; split
  · exact hs k
  · rw [hs]; unfold Ktu.stayAwake
    by_cases h1 : k.fife.up.lp ≠ 0 <;> by_cases h2 : k.fife.dn.lp ≠ 0 <;> simp [Ktu.setLink, h1, h2, LinkEnd.sendState_rrVc]
@[simp] theorem Ktu.wakeCheck_dn_rrVc : k.wakeCheck.fife.dn.rrVc = k.fife.dn.rrVc := by
  have hs : ∀ k : Ktu, k.sendWake.fife.dn.rrVc = k.fife.dn.rrVc := by intro k; unfold Ktu.sendWake; split <;> rfl
  unfold Ktu.wakeCheck; split
  · exact hs k
  · rw [hs]; unfold Ktu.stayAwake
    by_cases h1 : k.fife.up.lp ≠ 0 <;> by_cases h2 : k.fife.dn.lp ≠ 0 <;> simp [Ktu.setLink, h1, h2, LinkEnd.sendState_rrVc]
@[simp] theorem Ktu.wakeCheck_up_partialRx : k.wakeCheck.fife.up.partialRx = k.fife.up.partialRx := by
  have hs : ∀ k : Ktu, k.sendWake.fife.up.partialRx = k.fife.up.partialRx := by intro k; unfold Ktu.sendWake; split <;> rfl
  unfold Ktu.wakeCheck; split
  · exact hs k
  · rw [hs]; unfold Ktu.stayAwake
    by_cases h1 : k.fife.up.lp ≠ 0 <;> by_cases h2 : k.fife.dn.lp ≠ 0 <;> simp [Ktu.setLink, h1, h2, LinkEnd.sendState_partialRx]
@[simp] theorem Ktu.wakeCheck_dn_partialRx : k.wakeCheck.fife.dn.partialRx = k.fife.dn.partialRx := by
  have hs : ∀ k : Ktu, k.sendWake.fife.dn.partialRx = k.fife.dn.partialRx := by intro k; unfold Ktu.sendWake; split <;> rfl
  unfold Ktu.wakeCheck; split
  · exact hs k
  · rw [hs]; unfold Ktu.stayAwake
    by_cases h1 : k.fife.up.lp ≠ 0 <;> by_cases h2 : k.fife.dn.lp ≠ 0 <;> simp [Ktu.setLink, h1, h2, LinkEnd.sendState_partialRx]
@[simp] theorem Ktu.wakeCheck_up_rxHeld : k.wakeCheck.fife.up.rxHeld = k.fife.up.rxHeld := by
  have hs : ∀ k : Ktu, k.sendWake.fife.up.rxHeld = k.fife.up.rxHeld := by intro k; unfold Ktu.sendWake; split <;> rfl
  unfold Ktu.wakeCheck; split
  · exact hs k
  · rw [hs]; unfold Ktu.stayAwake
    by_cases h1 : k.fife.up.lp ≠ 0 <;> by_cases h2 : k.fife.dn.lp ≠ 0 <;> simp [Ktu.setLink, h1, h2, LinkEnd.sendState_rxHeld]
@[simp] theorem Ktu.wakeCheck_dn_rxHeld : k.wakeCheck.fife.dn.rxHeld = k.fife.dn.rxHeld := by
  have hs : ∀ k : Ktu, k.sendWake.fife.dn.rxHeld = k.fife.dn.rxHeld := by intro k; unfold Ktu.sendWake; split <;> rfl
  unfold Ktu.wakeCheck; split
  · exact hs k
  · rw [hs]; unfold Ktu.stayAwake
    by_cases h1 : k.fife.up.lp ≠ 0 <;> by_cases h2 : k.fife.dn.lp ≠ 0 <;> simp [Ktu.setLink, h1, h2, LinkEnd.sendState_rxHeld]
@[simp] theorem Ktu.wakeCheck_up_rrTx : k.wakeCheck.fife.up.rrTx = k.fife.up.rrTx := by
  have hs : ∀ k : Ktu, k.sendWake.fife.up.rrTx = k.fife.up.rrTx := by intro k; unfold Ktu.sendWake; split <;> rfl
  unfold Ktu.wakeCheck; split
  · exact hs k
  · rw [hs]; unfold Ktu.stayAwake
    by_cases h1 : k.fife.up.lp ≠ 0 <;> by_cases h2 : k.fife.dn.lp ≠ 0 <;> simp [Ktu.setLink, h1, h2, LinkEnd.sendState_rrTx]
@[simp] theorem Ktu.wakeCheck_dn_rrTx : k.wakeCheck.fife.dn.rrTx = k.fife.dn.rrTx := by
  have hs : ∀ k : Ktu, k.sendWake.fife.dn.rrTx = k.fife.dn.rrTx := by intro k; unfold Ktu.sendWake; split <;> rfl
  unfold Ktu.wakeCheck; split
  · exact hs k
  · rw [hs]; unfold Ktu.stayAwake
    by_cases h1 : k.fife.up.lp ≠ 0 <;> by_cases h2 : k.fife.dn.lp ≠ 0 <;> simp [Ktu.setLink, h1, h2, LinkEnd.sendState_rrTx]
@[simp] theorem Ktu.wakeCheck_up_alarms : k.wakeCheck.fife.up.alarms = k.fife.up.alarms := by
  have hs : ∀ k : Ktu, k.sendWake.fife.up.alarms = k.fife.up.alarms := by intro k; unfold Ktu.sendWake; split <;> rfl
  unfold Ktu.wakeCheck; split
  · exact hs k
  · rw [hs]; unfold Ktu.stayAwake
    by_cases h1 : k.fife.up.lp ≠ 0 <;> by_cases h2 : k.fife.dn.lp ≠ 0 <;> simp [Ktu.setLink, h1, h2, LinkEnd.sendState_alarms]
@[simp] theorem Ktu.wakeCheck_dn_alarms : k.wakeCheck.fife.dn.alarms = k.fife.dn.alarms := by
  have hs : ∀ k : Ktu, k.sendWake.fife.dn.alarms = k.fife.dn.alarms := by intro k; unfold Ktu.sendWake; split <;> rfl
  unfold Ktu.wakeCheck; split
  · exact hs k
  · rw [hs]; unfold Ktu.stayAwake
    by_cases h1 : k.fife.up.lp ≠ 0 <;> by_cases h2 : k.fife.dn.lp ≠ 0 <;> simp [Ktu.setLink, h1, h2, LinkEnd.sendState_alarms]
end

/-! ### What goes out to the host -/

theorem Nld.signal_out (n : Nld) (fn v : Nat) : ∃ l, (n.signal fn v).out = n.out ++ l := by
  unfold Nld.signal Nld.emit
  split
  · split <;> exact ⟨[], by simp⟩
  · exact ⟨_, rfl⟩

/-- What follows a change only adds to what has gone out. -/
theorem Nld.after_out {b n : Nld} (h : n.bit NReg.TICK_CTRL_run = b.bit NReg.TICK_CTRL_run) :
    ∃ l, (Nld.after b n).out = n.out ++ l := by
  have hl : ∀ (l : List Nat) (m : Nld), ∃ x,
      (l.foldl (fun m p => if b.vfSet p = 0 ∧ m.vfSet p ≠ 0 then m.signal (p + 1) 0 else m) m).out = m.out ++ x := by
    intro l
    induction l with
    | nil => intro m; exact ⟨[], by simp⟩
    | cons a l ih =>
      intro m
      rw [List.foldl_cons]
      split
      · obtain ⟨x, hx⟩ := Nld.signal_out m (a + 1) 0
        obtain ⟨y, hy⟩ := ih (m.signal (a + 1) 0)
        exact ⟨x ++ y, by rw [hy, hx, List.append_assoc]⟩
      · exact ih m
  have hlc : n.lockCheck.out = n.out ∧ n.lockCheck.bit NReg.TICK_CTRL_run = n.bit NReg.TICK_CTRL_run := by
    unfold Nld.lockCheck; simp only []; split <;> exact ⟨rfl, rfl⟩
  have hrun : Nld.runCheck b n.lockCheck = n.lockCheck := by
    unfold Nld.runCheck; rw [hlc.2, h]; simp
  rw [Nld.after, hrun, ← hlc.1]
  generalize n.lockCheck = m
  unfold Nld.settle
  simp only []
  generalize hm1 : (if m.irqSrc - (m.irqSrc &&& b.irqSrc) = 0 then m
    else m.put NReg.IRQ_PEND_pend (m.get NReg.IRQ_PEND_pend ||| m.irqSrc - (m.irqSrc &&& b.irqSrc))) = m1
  have e1 : m1.out = m.out := by subst hm1; split <;> rfl
  obtain ⟨x, hx⟩ : ∃ x, (if b.irqSet = 0 ∧ m1.irqSet ≠ 0 then m1.signal 0 0 else m1).out = m1.out ++ x := by
    split
    · exact Nld.signal_out _ _ _
    · exact ⟨[], by simp⟩
  obtain ⟨y, hy⟩ := hl (List.range 16) (if b.irqSet = 0 ∧ m1.irqSet ≠ 0 then m1.signal 0 0 else m1)
  exact ⟨x ++ y, by rw [hy, hx, e1, List.append_assoc]⟩

/-- What has gone out before the checks that follow a change has gone out after them. -/
theorem Nld.emits_after {b n : Nld} (h : n.bit NReg.TICK_CTRL_run = b.bit NReg.TICK_CTRL_run) {a : Nld} {o : HostOut}
    (he : Nld.emits a n o) : Nld.emits a (Nld.after b n) o := by
  obtain ⟨l, e, ho⟩ := he
  obtain ⟨x, hx⟩ := Nld.after_out h
  exact ⟨l ++ x, by rw [hx, e, List.append_assoc], List.mem_append_left _ ho⟩

end Sys2Proof.Machine
end

