-- ==== Sys2Proof/WellFormed.lean ====
section
/-! DEFINITION. Which commands are well formed: what the layouts of the messages, the register ports and the pins can carry. The
types of the operands carry most of it; these are the lengths and ranges that they do not. -/

namespace Sys2Proof

/-- R297: a correction fills 64 bits. -/
def corrOk (c : Int) : Bool := decide (-(2 ^ 63 : Int) ≤ c ∧ c < 2 ^ 63)

/-- R297: a reported offset fills 32 bits. -/
def offsetOk (c : Int) : Bool := decide (-(2 ^ 31 : Int) ≤ c ∧ c < 2 ^ 31)

/-- R297: a TRACE carries 1 to 6 records. -/
def recsOk (l : List TraceRec) : Bool := decide (1 ≤ l.length ∧ l.length ≤ 6)

/-- R297: a TAILDUMP carries 0 to 32 records. -/
def imageOk (t : TailImage) : Bool := decide (t.recs.length ≤ 32)

/-- R297: a FRAME message holds at most bytes 4 to 2,087. -/
def frameOk (l : List Byte) : Bool := decide (l.length ≤ 2084)

/-- R246: a TABLE_LOAD holds 33 code lengths. -/
def lensOk (p : TableLoad) : Bool := p.lens.length == 33

/-- R303: a register message carries at most 8 words. -/
def wordsOk (l : List Word) : Bool := decide (l.length ≤ 8)

/-- R660: a clear token is 136 bytes. -/
def tokenOk (t : ClearToken) : Bool := t.bytes.length == 136

/-- R691: an access of a BAR is aligned to 32 bits. -/
def aligned (a : BitVec 24) : Bool := a.toNat % 4 == 0

/-- R552: a vector set has four digest keys. -/
def keysOk4 (s : VecSet) : Bool := s.keys.length == 4

/-- R437: Naloder has 10 clusters. -/
def clocksOk (l : List (Nat × Nat)) : Bool := l.all (fun e => decide (e.1 < 10))

/-- R137, R141, R144: the tap ports of a domain. -/
def tapsOk (t : TapSample) : Bool := decide (t.occ.length ≤ 32 ∧ t.ret.length ≤ 8 ∧ t.waste.length ≤ 8 ∧ t.sfe.length ≤ 8 ∧ t.sbe.length ≤ 8)

/-- A message that flits carry is within its layout. -/
def msgOk : Msg → Bool
  | .frame _ b => frameOk b
  | .trace _ _ _ r => recsOk r
  | .tailDump _ t => imageOk t
  | .sync m => corrOk m.corr
  | .delayReq m => corrOk m.corr && offsetOk m.offset
  | .delayResp m => corrOk m.corr
  | .regRd r => wordsOk r.words
  | .regWr r => wordsOk r.words
  | .regRdResp r => wordsOk r.words
  | .regWrResp r => wordsOk r.words
  | _ => true

/-- The message a flit completes or belongs to is within its layout. -/
def flitMsgOk (m : Option Msg) : Bool := m.all msgOk

/-- A link of Naloder. -/
def LinkId.nld : LinkId → Bool
  | .nldFife _ => true
  | .nldHorn _ => true
  | _ => false

/-- A Fife link. -/
def LinkId.fife : LinkId → Bool
  | .nldHorn _ => false
  | _ => true

/-- The command is well formed. -/
def Instr.wf : Instr → Bool
  | .tickFire => true
  | .frameCoded _ => true
  | .ktuTickRun _ _ => true
  | .ktuTickPeriodWrite _ _ => true
  | .nldTickRun _ => true
  | .tickSetpointWrite _ _ => true
  | .tickOpen => true
  | .provisionalPoint _ => true
  | .traySeal _ => true
  | .groupSeal _ => true
  | .fleetSeal _ => true
  | .frame _ bytes _ _ => frameOk bytes
  | .sealDrainEnd _ _ => true
  | .sealSweepEnd _ _ => true
  | .historyCompressDone => true
  | .provisionalDrainEnd _ => true
  | .syncSend l => l.nld
  | .sync _ m _ _ => corrOk m.corr
  | .delayReqSend _ _ => true
  | .domainDelayReqSend _ _ => true
  | .delayReq _ m _ _ => corrOk m.corr && offsetOk m.offset
  | .delayResp _ m => corrOk m.corr
  | .delayReqTimeout _ _ _ => true
  | .delayValidExpiry _ _ => true
  | .holdoverTimeout _ => true
  | .revertTimer _ => true
  | .timeBaseHold _ _ => true
  | .timeBaseEnable _ _ => true
  | .stepApply _ => true
  | .stepAcceptPending _ => true
  | .stepAct _ => true
  | .tickSrcWrite _ => true
  | .ptpMessage _ h _ _ => corrOk h.corr
  | .tsCap _ => true
  | .ktuPorAssert => true
  | .ktuPorDeassert _ _ => true
  | .ktuReady => true
  | .hostDomainChange _ _ _ => true
  | .unitStatUpdate _ _ => true
  | .hostWakeReq _ => true
  | .hostAlarm _ _ => true
  | .abortAck => true
  | .abortAckFall => true
  | .abortForceClear _ => true
  | .tailEvent _ _ _ => true
  | .tailFreeze _ _ _ => true
  | .tailRelease _ _ _ => true
  | .tailClear _ _ _ => true
  | .tailEccUe _ _ => true
  | .traceRecord _ _ _ _ => true
  | .traceFunnelAdmit => true
  | .traceResyncTimer => true
  | .traceResyncCmd _ => true
  | .funnelEccUe _ => true
  | .breakpoint _ => true
  | .haltReq _ => true
  | .drainComplete _ _ => true
  | .haltTimeout _ => true
  | .resumeComplete _ => true
  | .queueFlush _ _ => true
  | .queueCheckFailure _ => true
  | .pmuClear _ _ => true
  | .counterEccUe _ => true
  | .tableLoad _ p => lensOk p
  | .tailDump _ _ _ _ _ _ => true
  | .resend _ _ _ => true
  | .halt _ _ _ => true
  | .resume _ _ _ => true
  | .timeStep _ _ _ _ _ => true
  | .patternRun _ _ => true
  | .digestOpen _ _ => true
  | .digestAbandon _ _ _ => true
  | .slotAssign _ _ => true
  | .digestLine _ _ _ _ => true
  | .patternResponse _ => true
  | .patternWordTimeout => true
  | .signalDetect _ => true
  | .linkUp l _ _ => l.fife
  | .trainingTimeout _ => true
  | .retrainTimeout _ => true
  | .resetSlotEnd _ => true
  | .lossOfSignal _ => true
  | .hiBer _ => true
  | .flitReceive _ _ m => flitMsgOk m
  | .ackTimeout _ => true
  | .nakResendTimeout _ => true
  | .retryEpisodeTimeout _ => true
  | .controlFlitTimer _ => true
  | .trainingPair _ => true
  | .alarm _ _ => true
  | .alarmRepeat => true
  | .linkStatePair l _ => l.fife
  | .enum _ => true
  | .enumResponse _ _ => true
  | .trace _ _ recs => recsOk recs
  | .taildump _ t _ => imageOk t
  | .cmdAck _ _ => true
  | .regRd r => wordsOk r.words
  | .regWr r => wordsOk r.words
  | .requestTimeout _ _ _ _ => true
  | .sleepGo _ _ => true
  | .sleepPropose _ _ _ => true
  | .sleepAgree _ _ _ _ => true
  | .sleepDecision _ => true
  | .wake _ _ _ _ => true
  | .fifeUpReset _ => true
  | .fifeDnReset _ => true
  | .fifeUpRetrain _ => true
  | .fifeDnRetrain _ => true
  | .fifeWake _ => true
  | .fifeDnEnable _ _ => true
  | .nldFifeReset _ => true
  | .nldFifeRetrain _ => true
  | .nldFifeWake _ => true
  | .nldFifeEnable _ _ => true
  | .d2dReplayLimit => true
  | .powerEvaluation _ _ => true
  | .droopTrip => true
  | .thermalTrip _ _ => true
  | .nldPor => true
  | .bootStageComplete _ => true
  | .hbmUe _ _ => true
  | .scrubPassComplete => true
  | .ownMapArm _ => true
  | .positionTableCommit => true
  | .ctxCfgApply _ _ _ => true
  | .ctxEpochStart _ => true
  | .codecTableCommit _ _ => true
  | .bulkLaneEnable _ => true
  | .roundStart _ => true
  | .runComplete _ _ _ _ _ _ clocks => clocksOk clocks
  | .sealedRunBudgetExhausted _ _ _ clocks => clocksOk clocks
  | .treeCallStart _ _ _ _ => true
  | .schedTableCommit => true
  | .hornLinkUp _ => true
  | .hornEnum _ _ _ _ _ _ _ => true
  | .hornFlitReceive _ _ _ _ => true
  | .hornAckTimeout _ => true
  | .hornRetryTimeout _ => true
  | .hornRetrainTimeout _ => true
  | .hornReset _ => true
  | .hornRetrain _ => true
  | .hornCmd _ _ => true
  | .partialMsg _ _ => true
  | .sealMsg _ _ => true
  | .groupSummary _ _ => true
  | .fullSummarySend => true
  | .fullSummary _ _ _ _ _ => true
  | .fabricAlarm _ _ => true
  | .sealMissingTimeout _ _ _ _ => true
  | .rdvDeadline _ => true
  | .corroborationQuery _ => true
  | .corroborationReply _ => true
  | .witnessReport _ => true
  | .corroborationTimeout _ => true
  | .liveClear _ => true
  | .liveQuery _ => true
  | .abortCmd _ => true
  | .digest _ => true
  | .patternResult _ => true
  | .selfCheckVector _ => true
  | .doorbellPoll _ => true
  | .query _ => true
  | .load _ _ _ => true
  | .admitImage _ _ _ _ _ => true
  | .withdraw _ _ => true
  | .track _ _ => true
  | .ctxCfg _ _ _ _ _ => true
  | .jobReport _ _ _ _ => true
  | .membership _ _ _ _ _ => true
  | .checkpoint _ _ _ _ => true
  | .vote _ _ => true
  | .tally _ _ _ _ => true
  | .vectorSet _ s => keysOk4 s
  | .ktuCmd _ _ _ _ _ _ _ => true
  | .ktuReg _ _ _ _ _ _ => true
  | .bugle _ _ => true
  | .abort _ _ => true
  | .tapOwner _ _ _ => true
  | .contentTapSubmit _ _ _ _ => true
  | .tapSequenceExpiry _ => true
  | .bulkCompress _ _ => true
  | .bulkDecompress _ _ => true
  | .historyRead _ _ _ _ _ _ => true
  | .deliveryRecordWrite _ _ => true
  | .ringEnable _ _ => true
  | .ringDisable _ _ => true
  | .functionLevelReset _ => true
  | .hostReadError _ => true
  | .irqTimer _ _ => true
  | .emulatedRead _ a => aligned a
  | .emulatedReadTimeout _ a => aligned a
  | .emulatedWrite _ a _ => aligned a
  | .rocePacketReceive _ _ _ => true
  | .packetTransmit _ => true
  | .qpAckTimeout _ => true
  | .rnrTimer _ => true
  | .keyx _ _ => true
  | .keyok _ => true
  | .keyxResendTimer _ => true
  | .keyingTimeout _ => true
  | .rekeyTimer _ => true
  | .qpRecreateTimer _ => true
  | .qpAlloc => true
  | .qpInit _ => true
  | .qpErrorCmd _ => true
  | .qpResetFree _ => true
  | .shaperRefill => true
  | .ethLinkChange _ _ => true
  | .fwLoad _ => true
  | .fwUpdate _ => true
  | .fwLoadComplete => true
  | .fwTakeover _ => true
  | .watchdogKick _ => true
  | .watchdogFire _ => true
  | .controlCoreRestart _ => true
  | .securityWatchdogFire => true
  | .recordCommit => true
  | .recorderClear t => tokenOk t
  | .recorderClearDone => true
  | .testAccessOpen => true
  | .attest _ => true
  | .enrolRevoke _ => true
  | .provisioningBundle _ => true
  | .generateIdentity => true
  | .installChain _ _ => true
  | .ktuResetCounters _ => true
  | .ktuResetOwners _ => true
  | .ktuResetTime _ => true
  | .ktuResetFife _ => true
  | .histRevalidate _ => true
  | .ktuStateUe _ => true
  | .packageReset => true
  | .clearFault => true
  | .pllLockLoss _ => true
  | .referenceLoss _ => true
  | .supplyMonitorTrip => true
  | .nldIrqWrite _ _ => true
  | .vfIrqWrite _ _ _ => true
  | .ktuIrqPendWrite _ _ _ => true
  | .readClear _ => true
  | .loReadLatch _ => true
  | .registerWrite _ => true
  | .flitTransmit _ _ => true
  | .tapSample _ t => tapsOk t
  | .nldPorAssert => true
  | .ptpTransmit _ _ _ => true
  | .regResponse _ _ r => wordsOk r.words
  | .laneRelock _ => true
  | .trcSrcPgoodChange _ _ => true
  | .tsCaptureComplete _ => true
  | .tsCapFall _ => true
  | .digestEccUe _ => true
  | .d2dReplay _ => true
  | .bulkJobComplete _ => true
  | .windowStart _ => true
  | .observeOnlyRecheck _ => true
  | .securityCoreRestart => true
  | .referenceReturn _ => true
  | .ktuClockStop => true
  | .pcieReset => true
  | .unknownOpcode _ _ => true
  | .updateHoldEnd => true
  | .correctableError _ => true

end Sys2Proof
end

