-- ==== Sys2Proof/Tests/Slice0.lean ====
section
/-! SUPPORT. Tests. -/

namespace Sys2Proof.Tests

open Sys2Proof Sys2Proof.Machine

theorem test_decode_none : decodeTableWord 8 0 = none := rfl

end Sys2Proof.Tests
end

section
/-! SUPPORT. The statement on the state after reset (R16, R679, R692). -/

namespace Sys2Proof.Machine

open Sys2Proof

/-- An empty register file holds every field at its reset value. -/
theorem Regs.get_nil (f : Fld) (i : Nat) : Regs.get [] f i = f.reset i := rfl

theorem State.reset_get (f : Fld) (i : Nat) : State.reset.ktu.get f i = f.reset i ∧ State.reset.nld.get f i = f.reset i :=
  ⟨Regs.get_nil f i, Regs.get_nil f i⟩

/-- After reset both link ends of the KTU are in L0. -/
theorem State.reset_awake : State.reset.awake := fun _ => ⟨rfl, rfl⟩

/-- After reset domain 0 has not been Locked, and the opening of ticks says so. -/
theorem State.reset_lockKnown : State.reset.lockKnown := rfl

/-- Settles O2: every register file is empty after reset, and the named fields have the reset values of the map. -/
theorem resetState : Obligations.ResetState := by
  unfold Obligations.ResetState
  have hk (f : Fld) (i : Nat) : State.reset.ktu.get f i = f.reset i := (State.reset_get f i).1
  have hn (f : Fld) (i : Nat) : State.reset.nld.get f i = f.reset i := (State.reset_get f i).2
  exact ⟨rfl, State.reset_awake, State.reset_lockKnown, State.reset_get, hk _ _, hk _ _, hk _ _, hk _ _, hn _ _, hn _ _, rfl, rfl⟩

end Sys2Proof.Machine
end


section
/-! SUPPORT. How a claim about one command (`KtuDoes`, `NldDoes`) follows from what the command's function does. -/

namespace Sys2Proof.Machine

open Sys2Proof

/-- A command that is a function on a running KTU has every property its result has after the check of the wake sources. -/
theorem KtuDoes.of_onKtu {c : Instr} {s : State} {P : Ktu → Prop} (f : Ktu → Ktu) (hc : exec c s = onKtu f s) (hr : s.ktu.runs)
    (hP : P (f s.ktu).wakeCheck) : KtuDoes c s P :=
  ⟨_, hc.trans (onKtu_run f s hr), hP⟩

/-- A command that is a function on a running Naloder has every property its result has after what follows a change. -/
theorem NldDoes.of_onNld {c : Instr} {s : State} {P : Nld → Prop} (f : Nld → Nld) (hc : exec c s = onNld f s) (hr : s.nld.runs)
    (hP : P (Nld.after s.nld (f s.nld))) : NldDoes c s P :=
  ⟨_, hc.trans (onNld_run f s hr), hP⟩

end Sys2Proof.Machine
end

section
/-! SUPPORT. The fields that lie at an address of a register map. -/

namespace Sys2Proof.Machine

theorem Fld.mem_at {a : Nat} {t : List Fld} {x : Fld × Nat} : x ∈ Fld.at a t ↔ x.1 ∈ t ∧ x.1.indexAt a = some x.2 := by
  induction t with
  | nil => simp [Fld.at]
  | cons f t ih =>
    obtain ⟨g, i⟩ := x
    simp only [Fld.at, List.mem_cons]
    cases h : f.indexAt a with
    | none =>
      simp only [ih]
      constructor
      · rintro ⟨hm, hi⟩; exact ⟨.inr hm, hi⟩
      · rintro ⟨rfl | hm, hi⟩
        · simp [h] at hi
        · exact ⟨hm, hi⟩
    | some j =>
      simp only [List.mem_cons, ih, Prod.mk.injEq]
      constructor
      · rintro (⟨rfl, rfl⟩ | ⟨hm, hi⟩)
        · exact ⟨.inl rfl, h⟩
        · exact ⟨.inr hm, hi⟩
      · rintro ⟨rfl | hm, hi⟩
        · exact .inl ⟨rfl, by simpa [h] using hi.symm⟩
        · exact .inr ⟨hm, hi⟩

/-- The copy found at an address lies at that address. -/
theorem Fld.addr_of_indexAt {f : Fld} {a i : Nat} (h : f.indexAt a = some i) : f.addr i = a := by
  unfold Fld.indexAt at h
  by_cases hs : f.stride = 0
  · simp only [if_pos hs, Option.ite_none_right_eq_some] at h
    obtain ⟨ha, -⟩ := h
    simp [Fld.addr, hs, ha]
  · simp only [if_neg hs, Option.ite_none_right_eq_some, Option.some.injEq] at h
    obtain ⟨⟨hle, hm, -⟩, rfl⟩ := h
    have := Nat.div_add_mod (a - f.base) f.stride
    simp only [Fld.addr]; omega

end Sys2Proof.Machine
end

section
/-! SUPPORT. One word of the KTU's registers read and written on a path (R14, R156, R674): the rules of a word that holds one
field. -/

namespace Sys2Proof.Machine

open Sys2Proof

/-! ### Frames -/

/-- What a message handed to the upstream port leaves alone. -/
theorem Ktu.same_sendUp (k : Ktu) (m : Msg) (a : Ktu) (x : KPart) : Ktu.same a (k.sendUp m) x ↔ Ktu.same a k x := by
  cases x <;> simp [Ktu.same, Ktu.sendUp]

theorem Ktu.only_sendUp (k : Ktu) (m : Msg) (l : List KPart) (a : Ktu) : Ktu.only l a (k.sendUp m) ↔ Ktu.only l a k := by
  simp [Ktu.only, Ktu.same_sendUp]

@[simp] theorem Ktu.only_refl (k : Ktu) (l : List KPart) : Ktu.only l k k := fun x _ => Ktu.same_refl k x

/-- A KTU that differs in registers, in the error latch and in the local port's answer alone. -/
theorem Ktu.only_regs_rest (k : Ktu) (r : Regs) (e : Bool) (v : Option (Word × Bool)) :
    Ktu.only [.regs, .rest] k { k with regs := r, errHeld := e, lastRead := v } := by
  intro x hx
  cases x <;> simp [Ktu.same] at hx ⊢

/-- A KTU that differs in the local port's latch and answer alone. -/
theorem Ktu.only_latches_rest (k : Ktu) (t : Tbl Nat) (v : Option (Word × Bool)) :
    Ktu.only [.latches, .rest] k { k with latchL := t, lastRead := v } := by
  intro x hx
  cases x <;> simp [Ktu.same] at hx ⊢

theorem Ktu.regsOnly_put (k : Ktu) (f : Fld) (v i : Nat) : Ktu.regsOnly [(f, i)] k (k.put f v i) :=
  fun g j h => Ktu.get_put_ne k f g v i j (h (f, i) (List.mem_singleton_self _))

theorem Ktu.regsOnly_count (k : Ktu) (f : Fld) (v i : Nat) : Ktu.regsOnly [(f, i)] k (k.count f v i) :=
  fun g j h => Ktu.get_count_ne k f g v i j (h (f, i) (List.mem_singleton_self _))

/-- The frame of the registers is about the register file alone. -/
theorem Ktu.regsOnly_congr {l : List (Fld × Nat)} {a b c : Ktu} (h : c.regs = b.regs) : Ktu.regsOnly l a c ↔ Ktu.regsOnly l a b := by
  simp [Ktu.regsOnly, Ktu.get, h]

@[simp] theorem Ktu.sendUp_waits (k : Ktu) (m : Msg) : (k.sendUp m).fife.up.waits m := LinkEnd.waits_queue_same _ _ _ _

/-! ### Reads -/

section
variable {k : Ktu} {p : Path} {o a : Nat} {f : Fld} {i : Nat}

theorem Ktu.peek_single (hw : wordFields a = [(f, i)]) (hm : k.mayRead p o f i = true)
    (hl : Tbl.find? (k.latchKey p a) (k.latch p) = none) : k.peek p o a = (k.view p f i * 2 ^ f.lo, false) := by
  simp [Ktu.peek, hw, Ktu.readPart, hm, hl]

theorem Ktu.readLatch_of_none (h : latchedBy a = []) : k.readLatch p o a = k := by
  simp [Ktu.readLatch, h]

theorem Ktu.readClear_single (hw : wordFields a = [(f, i)]) :
    k.readClear p o a = if f.acc = .rc ∧ k.mayRead p o f i = true then k.put f 0 i else k := by
  simp [Ktu.readClear, hw]

/-- A read of a word of one field, not read-clear, that latches nothing: its value, and no effect. -/
theorem Ktu.readWord_plain (hw : wordFields a = [(f, i)]) (hm : k.mayRead p o f i = true) (hn : latchedBy a = [])
    (hl : Tbl.find? (k.latchKey p a) (k.latch p) = none) (hc : f.acc ≠ .rc) :
    k.readWord p o a = (k, k.view p f i * 2 ^ f.lo, false) := by
  simp [Ktu.readWord, Ktu.peek_single hw hm hl, Ktu.readLatch_of_none hn, Ktu.readClear_single hw, hc, Ktu.refusal]

/-- A read of a word of one read-clear field (R14): its value, and the field is cleared. -/
theorem Ktu.readWord_clears (hw : wordFields a = [(f, i)]) (hm : k.mayRead p o f i = true) (hn : latchedBy a = [])
    (hl : Tbl.find? (k.latchKey p a) (k.latch p) = none) (hc : f.acc = .rc) :
    k.readWord p o a = (k.put f 0 i, k.view p f i * 2 ^ f.lo, false) := by
  simp [Ktu.readWord, Ktu.peek_single hw hm hl, Ktu.readLatch_of_none hn, Ktu.readClear_single hw, hc, hm, Ktu.refusal]

/-- A local read of a _LO word of one field (R156): its value, and its partner is latched. -/
theorem Ktu.readWord_latches {b : Nat} (hw : wordFields a = [(f, i)]) (hm : k.mayRead .loc o f i = true) (hn : latchedBy a = [b])
    (hl : Tbl.find? (k.latchKey .loc a) k.latchL = none) (hc : f.acc ≠ .rc) :
    k.readWord .loc o a = ({ k with latchL := [(k.latchKey .loc b, k.live .loc b)] }, k.view .loc f i * 2 ^ f.lo, false) := by
  simp [Ktu.readWord, Ktu.peek_single hw hm hl, Ktu.readLatch, hn, Ktu.readClear_single hw, hc, Ktu.refusal, Tbl.insert]

/-- The words read by a REG_RD are as many as it asks for. -/
theorem Ktu.readMany_length (o a n j : Nat) (k : Ktu) : (Ktu.readMany o a n j k).2.1.length = n := by
  induction n generalizing j k with
  | zero => rfl
  | succ n ih => simp [Ktu.readMany, ih]

end

/-! ### Writes -/

/-- Rearming the first error changes nothing but the latch of the first error. -/
theorem Ktu.errRearm_eq (k : Ktu) : ∃ e, k.errRearm = { k with errHeld := e } := by
  unfold Ktu.errRearm
  split
  · exact ⟨_, rfl⟩
  · exact ⟨k.errHeld, rfl⟩

section
variable {k : Ktu} {p : Path} {o a : Nat} {f : Fld} {i : Nat} (w : Nat)

/-- A write of a word of one field that the owner may write. -/
theorem Ktu.writeWord_allowed (hw : wordFields a = [(f, i)]) (hm : k.mayWrite o f i = true) :
    k.writeWord p o a w = (((k.writeField p f (f.part w) i).writeCmd o a w).errRearm, false) := by
  simp [Ktu.writeWord, Ktu.writeRefused, hw, hm, Ktu.refusal]

/-- A write of a word of one field that the owner may not write and that would have an effect (R674). -/
theorem Ktu.writeWord_refused (hw : wordFields a = [(f, i)]) (hm : k.mayWrite o f i = false)
    (he : k.writeEffect p f i (f.part w) = true) :
    k.writeWord p o a w = ((k.writeCmd o a w).errRearm.refusal p true, true) := by
  simp [Ktu.writeWord, Ktu.writeRefused, hw, hm, he]

end

/-! ### The local port and the requests of Naloder once ktu_ready is set -/

section
variable {k : Ktu}

theorem Ktu.localRead_ready (o : Fin 16) (a : Nat) (h : k.pins.ready = true) :
    k.localRead o a = { (k.readWord .loc o.val a).1 with
      lastRead := some (BitVec.ofNat 32 (k.readWord .loc o.val a).2.1, (k.readWord .loc o.val a).2.2) } := by
  simp [Ktu.localRead, h]

theorem Ktu.localWrite_ready (o : Fin 16) (a : Nat) (w : Word) (h : k.pins.ready = true) :
    k.localWrite o a w = { (k.writeWord .loc o.val a w.toNat).1 with
      lastRead := some (0, (k.writeWord .loc o.val a w.toNat).2) } := by
  simp [Ktu.localWrite, h]

variable {r : RegReq}

theorem Ktu.regRd_bad (hm : k.isMe r.addr = true) (hr : k.pins.ready = true) (hb : regBad r = true) :
    k.regRd r = k.sendUp (.regRdResp (regAnswer r 1)) := by
  simp [Ktu.regRd, hm, hr, hb]

theorem Ktu.regWr_bad (hm : k.isMe r.addr = true) (hr : k.pins.ready = true) (hb : regBad r = true) :
    k.regWr r = k.sendUp (.regWrResp (regAnswer r 1)) := by
  simp [Ktu.regWr, hm, hr, hb]

theorem Ktu.regRd_good (hm : k.isMe r.addr = true) (hr : k.pins.ready = true) (hb : regBad r = false) :
    k.regRd r = (Ktu.readMany r.issuer.toNat r.offset.toNat r.count.toNat 0 k).1.sendUp (.regRdResp { regAnswer r 0 with
      mask := BitVec.ofNat 8 (Ktu.readMany r.issuer.toNat r.offset.toNat r.count.toNat 0 k).2.2,
      words := (Ktu.readMany r.issuer.toNat r.offset.toNat r.count.toNat 0 k).2.1 }) := by
  simp [Ktu.regRd, hm, hr, hb]

theorem Ktu.regWr_good (hm : k.isMe r.addr = true) (hr : k.pins.ready = true) (hb : regBad r = false) :
    k.regWr r = (Ktu.writeMany r.issuer.toNat r.offset.toNat (r.words.take r.count.toNat) 0 k).1.sendUp
      (.regWrResp { regAnswer r 0 with
        mask := BitVec.ofNat 8 (Ktu.writeMany r.issuer.toNat r.offset.toNat (r.words.take r.count.toNat) 0 k).2 }) := by
  simp [Ktu.regWr, hm, hr, hb]

end

end Sys2Proof.Machine
end

section
/-! SUPPORT. The registers that the statement on the KTU's register access names, and that statement (R14, R110, R156, R303, R674,
R677, R681). -/

namespace Sys2Proof.Machine

open Sys2Proof

/-! ### The words -/

theorem wordFields_scratch : wordFields 0x408 = [(KReg.SCRATCH_data, 0)] := by decide +kernel
theorem wordFields_tickPeriod : wordFields 0x1804 = [(KReg.TICK_PERIOD_period_us, 0)] := by decide +kernel
theorem wordFields_tickNumLo : wordFields 0x1808 = [(KReg.TICK_NUM_LO_tick_lo, 0)] := by decide +kernel
theorem wordFields_tickNumHi : wordFields 0x180C = [(KReg.TICK_NUM_HI_tick_hi, 0)] := by decide +kernel
theorem wordFields_tickSkip : wordFields 0x1810 = [(KReg.TICK_SKIP_skipped, 0)] := by decide +kernel

section
variable (k : Ktu) (p : Path) (o : Nat)

theorem Ktu.view_scratch : k.view p KReg.SCRATCH_data 0 = k.get KReg.SCRATCH_data % 2 ^ 32 := rfl
theorem Ktu.view_tickPeriod : k.view p KReg.TICK_PERIOD_period_us 0 = k.get KReg.TICK_PERIOD_period_us % 2 ^ 14 := rfl
theorem Ktu.view_tickNumLo : k.view p KReg.TICK_NUM_LO_tick_lo 0 = k.get KReg.TICK_NUM_LO_tick_lo % 2 ^ 32 := rfl
theorem Ktu.view_tickNumHi : k.view p KReg.TICK_NUM_HI_tick_hi 0 = k.get KReg.TICK_NUM_HI_tick_hi % 2 ^ 16 := rfl
theorem Ktu.view_tickSkip : k.view p KReg.TICK_SKIP_skipped 0 = k.get KReg.TICK_SKIP_skipped % 2 ^ 32 := rfl

/-- R672: every owner reads the registers below the counters. -/
theorem Ktu.mayRead_of_base_lt {f : Fld} {i : Nat} (h : f.base < 0x2000) : k.mayRead p o f i = true := by
  by_cases ho : o = fleet
  · rw [Ktu.mayRead, if_pos ho]
  · rw [Ktu.mayRead, if_neg ho]
    repeat rw [if_neg (by omega)]

theorem Ktu.mayWrite_scratch : k.mayWrite o KReg.SCRATCH_data 0 = true := by
  by_cases h : o = fleet
  · rw [Ktu.mayWrite, if_pos h]
  · rw [Ktu.mayWrite, if_neg h]; rfl

/-- R68: only *fleet* writes KTU_TICK_PERIOD. -/
theorem Ktu.mayWrite_tickPeriod (h : o ≠ fleet) : k.mayWrite o KReg.TICK_PERIOD_period_us 0 = false := by
  unfold Ktu.mayWrite
  rw [if_neg h]; rfl

/-- R674: a write of KTU_TICK_PERIOD has an effect when it would change what the field reads as. -/
theorem Ktu.writeEffect_tickPeriod (v : Nat) (h : v % 2 ^ 14 ≠ k.get KReg.TICK_PERIOD_period_us % 2 ^ 14) :
    k.writeEffect p KReg.TICK_PERIOD_period_us 0 (KReg.TICK_PERIOD_period_us.part v) = true := by
  have hp : KReg.TICK_PERIOD_period_us.part v = v % 2 ^ 14 := by simp [Fld.part, Fld.width, KReg.TICK_PERIOD_period_us]
  show (k.view p KReg.TICK_PERIOD_period_us 0 != _) = true
  rw [Ktu.view_tickPeriod, hp]
  exact bne_iff_ne.2 h.symm

theorem Ktu.writeField_scratch (v : Nat) : k.writeField p KReg.SCRATCH_data v 0 = k.put KReg.SCRATCH_data v := rfl

/-- The words at these addresses hold no command. -/
theorem Ktu.writeCmd_scratch (w : Nat) : k.writeCmd o 0x408 w = k := rfl
theorem Ktu.writeCmd_tickPeriod (w : Nat) : k.writeCmd o 0x1804 w = k := rfl

/-- R681: the scratch register takes a word under every owner. -/
theorem Ktu.writeWord_scratch (w : Word) : ∃ e,
    k.writeWord p o 0x408 w.toNat = ({ k.put KReg.SCRATCH_data w.toNat with errHeld := e }, false) := by
  have hp : KReg.SCRATCH_data.part w.toNat = w.toNat := by
    simpa [Fld.part, Fld.width, KReg.SCRATCH_data] using w.isLt
  obtain ⟨e, he⟩ := (k.put KReg.SCRATCH_data w.toNat).errRearm_eq
  refine ⟨e, ?_⟩
  rw [Ktu.writeWord_allowed _ wordFields_scratch (k.mayWrite_scratch o), hp, Ktu.writeField_scratch, Ktu.writeCmd_scratch, he]

/-- R677: a refused local write of KTU_TICK_PERIOD is counted, and nothing else follows. -/
theorem Ktu.writeWord_tickPeriod_refused (w : Nat) (ho : o ≠ fleet)
    (hv : w % 2 ^ 14 ≠ k.get KReg.TICK_PERIOD_period_us % 2 ^ 14) : ∃ e,
    k.writeWord .loc o 0x1804 w = ({ k.count KReg.ERR_REGREF_local with errHeld := e }, true) := by
  obtain ⟨e, he⟩ := k.errRearm_eq
  refine ⟨e, ?_⟩
  rw [Ktu.writeWord_refused _ wordFields_tickPeriod (k.mayWrite_tickPeriod o ho) (k.writeEffect_tickPeriod .loc w hv),
    Ktu.writeCmd_tickPeriod, he]
  rfl

theorem Ktu.get_put_scratch (w : Word) : (k.put KReg.SCRATCH_data w.toNat).get KReg.SCRATCH_data = w.toNat := by
  rw [Ktu.get_put_same]
  exact Nat.mod_eq_of_lt w.isLt

/-- Below the counters no index selects what a latch is of. -/
theorem Ktu.latchKey_of_lt {a : Nat} (h : a < 0x4000) : k.latchKey p a = a * 2 ^ 20 := by
  simp [Ktu.latchKey, show ¬ (0x4000 ≤ a ∧ a < 0x8000 ∧ a % 64 = 0x38) by omega, show a ≠ 0x8010 by omega]

theorem Ktu.live_tickNumHi : k.live p 0x180C = k.get KReg.TICK_NUM_HI_tick_hi % 2 ^ 16 := by
  rw [Ktu.live, wordFields_tickNumHi]
  show 0 + k.view p KReg.TICK_NUM_HI_tick_hi 0 * 2 ^ 0 = _
  rw [Ktu.view_tickNumHi]; omega

end

/-- Reading modulo 2^32 makes no difference to the word that is returned. -/
theorem word_of_mod (v : Nat) : BitVec.ofNat 32 (v % 2 ^ 32 * 2 ^ 0) = BitVec.ofNat 32 v := by
  apply BitVec.eq_of_toNat_eq
  simp

/-! ### Requests from Naloder -/

section
variable {k : Ktu} {r : RegReq}

/-- A request for the scratch register is well formed. -/
theorem regBad_scratch (ho : r.offset = 0x408) (hc : r.count = 1) : regBad r = false := by
  simp [regBad, ho, hc]

theorem Ktu.readWord_scratch (p : Path) (o : Nat) (hl : Tbl.find? (0x408 * 2 ^ 20) (k.latch p) = none) :
    k.readWord p o 0x408 = (k, k.get KReg.SCRATCH_data % 2 ^ 32 * 2 ^ 0, false) := by
  rw [← k.view_scratch p]
  exact Ktu.readWord_plain wordFields_scratch (k.mayRead_of_base_lt p o (by decide)) rfl
    (by rwa [Ktu.latchKey_of_lt k p (by decide)]) (by decide)

theorem Ktu.regRd_scratch (hm : k.isMe r.addr = true) (hr : k.pins.ready = true) (ho : r.offset = 0x408) (hc : r.count = 1)
    (hl : Tbl.find? (0x408 * 2 ^ 20) k.latchR = none) :
    k.regRd r = k.sendUp (.regRdResp { regAnswer r 0 with words := [BitVec.ofNat 32 (k.get KReg.SCRATCH_data)] }) := by
  have hmany : Ktu.readMany r.issuer.toNat r.offset.toNat r.count.toNat 0 k =
      (k, [BitVec.ofNat 32 (k.get KReg.SCRATCH_data)], 0) := by
    rw [ho, hc]
    show Ktu.readMany _ 0x408 1 0 k = _
    simp only [Ktu.readMany, Nat.mul_zero, Nat.add_zero, Ktu.readWord_scratch .remote _ hl, word_of_mod]
    rfl
  rw [Ktu.regRd_good hm hr (regBad_scratch ho hc), hmany]
  rfl

theorem Ktu.regWr_scratch {w : Word} (hm : k.isMe r.addr = true) (hr : k.pins.ready = true) (ho : r.offset = 0x408)
    (hc : r.count = 1) (hw : r.words = [w]) : ∃ e,
    k.regWr r = ({ k.put KReg.SCRATCH_data w.toNat with errHeld := e } : Ktu).sendUp (.regWrResp (regAnswer r 0)) := by
  obtain ⟨e, he⟩ := k.writeWord_scratch .remote r.issuer.toNat w
  have hmany : Ktu.writeMany r.issuer.toNat r.offset.toNat (r.words.take r.count.toNat) 0 k =
      ({ k.put KReg.SCRATCH_data w.toNat with errHeld := e }, 0) := by
    rw [ho, hc, hw]
    show Ktu.writeMany _ 0x408 [w] 0 k = _
    simp only [Ktu.writeMany, Nat.mul_zero, Nat.add_zero, he]
    rfl
  refine ⟨e, ?_⟩
  rw [Ktu.regWr_good hm hr (regBad_scratch ho hc), hmany]
  rfl

end

section
variable {s : State} {r : RegReq}

/-- An answer that waits upstream still waits after the check of the wake sources, and it moved nothing else. -/
theorem Ktu.answered_only (k : Ktu) (m : Msg) : (k.sendUp m).wakeCheck.fife.up.waits m ∧ Ktu.only [] k (k.sendUp m).wakeCheck :=
  ⟨Ktu.waits_up_wakeCheck (k.sendUp_waits m), (Ktu.only_wakeCheck _ _ _).2 ((k.only_sendUp m [] k).2 (k.only_refl []))⟩

/-- R303: a malformed REG_RD is answered with code 1 and does nothing. -/
theorem regRd_bad_answers (h : s.ktu.runs) (hm : s.ktu.isMe r.addr = true) (hr : s.ktu.pins.ready = true) (hb : regBad r = true) :
    KtuDoes (.regRd r) s fun k => k.fife.up.waits (.regRdResp (regAnswer r 1)) ∧ Ktu.only [] s.ktu k := by
  refine .of_onKtu (fun k => k.regRd r) rfl h ?_
  rw [Ktu.regRd_bad hm hr hb]
  exact s.ktu.answered_only _

/-- R303: a malformed REG_WR is answered with code 1 and does nothing. -/
theorem regWr_bad_answers (h : s.ktu.runs) (hm : s.ktu.isMe r.addr = true) (hr : s.ktu.pins.ready = true) (hb : regBad r = true) :
    KtuDoes (.regWr r) s fun k => k.fife.up.waits (.regWrResp (regAnswer r 1)) ∧ Ktu.only [] s.ktu k := by
  refine .of_onKtu (fun k => k.regWr r) rfl h ?_
  rw [Ktu.regWr_bad hm hr hb]
  exact s.ktu.answered_only _

/-- R303: a REG_RD is answered with as many words as it asks for. -/
theorem regRd_answers (h : s.ktu.runs) (hm : s.ktu.isMe r.addr = true) (hr : s.ktu.pins.ready = true) (hb : regBad r = false) :
    KtuDoes (.regRd r) s fun k =>
      ∃ ws m, k.fife.up.waits (.regRdResp { regAnswer r 0 with mask := m, words := ws }) ∧ ws.length = r.count.toNat := by
  refine .of_onKtu (fun k => k.regRd r) rfl h ?_
  rw [Ktu.regRd_good hm hr hb]
  exact ⟨_, _, Ktu.waits_up_wakeCheck (Ktu.sendUp_waits _ _), Ktu.readMany_length _ _ _ _ _⟩

theorem regRd_scratch_answers (h : s.ktu.runs) (hm : s.ktu.isMe r.addr = true) (hr : s.ktu.pins.ready = true)
    (ho : r.offset = 0x408) (hc : r.count = 1) (hl : Tbl.find? (0x408 * 2 ^ 20) s.ktu.latchR = none) :
    KtuDoes (.regRd r) s fun k =>
      k.fife.up.waits (.regRdResp { regAnswer r 0 with words := [BitVec.ofNat 32 (s.ktu.get KReg.SCRATCH_data)] }) ∧
      Ktu.only [] s.ktu k := by
  refine .of_onKtu (fun k => k.regRd r) rfl h ?_
  rw [Ktu.regRd_scratch hm hr ho hc hl]
  exact s.ktu.answered_only _

/-- What a write of the scratch register leaves: the word in it, and no other register changed. -/
theorem Ktu.scratch_written (k : Ktu) (w : Word) (e : Bool) (v : Option (Word × Bool)) {b : Ktu}
    (hb : b = { k.put KReg.SCRATCH_data w.toNat with errHeld := e, lastRead := v }) :
    b.get KReg.SCRATCH_data = w.toNat ∧ Ktu.only [.regs, .rest] k b ∧ Ktu.regsOnly [(KReg.SCRATCH_data, 0)] k b := by
  subst hb
  exact ⟨k.get_put_scratch w, k.only_regs_rest _ e v, k.regsOnly_put KReg.SCRATCH_data w.toNat 0⟩

theorem regWr_scratch_answers {w : Word} (h : s.ktu.runs) (hm : s.ktu.isMe r.addr = true) (hr : s.ktu.pins.ready = true)
    (ho : r.offset = 0x408) (hc : r.count = 1) (hw : r.words = [w]) :
    KtuDoes (.regWr r) s fun k =>
      k.get KReg.SCRATCH_data = w.toNat ∧ k.fife.up.waits (.regWrResp (regAnswer r 0)) ∧ Ktu.only [.regs, .rest] s.ktu k ∧
      Ktu.regsOnly [(KReg.SCRATCH_data, 0)] s.ktu k := by
  obtain ⟨e, he⟩ := Ktu.regWr_scratch hm hr ho hc hw
  obtain ⟨hget, honly, hregs⟩ := s.ktu.scratch_written w e s.ktu.lastRead rfl
  refine .of_onKtu (fun k => k.regWr r) rfl h ?_
  rw [he]
  refine ⟨?_, Ktu.waits_up_wakeCheck (Ktu.sendUp_waits _ _), (Ktu.only_wakeCheck _ _ _).2 ((Ktu.only_sendUp _ _ _ _).2 honly), ?_⟩
  · rw [Ktu.wakeCheck_get]; exact hget
  · exact (Ktu.regsOnly_congr (by simp)).2 hregs

end

/-! ### The local port -/

section
variable {s : State} (o : Fin 16)

theorem localWrite_scratch_does (v : Word) (h : s.ktu.runs) (hr : s.ktu.pins.ready = true) :
    KtuDoes (.registerWrite (.ktu o 0x408 v)) s fun k =>
      k.get KReg.SCRATCH_data = v.toNat ∧ k.lastRead = some (0, false) ∧ Ktu.only [.regs, .rest] s.ktu k ∧
      Ktu.regsOnly [(KReg.SCRATCH_data, 0)] s.ktu k := by
  obtain ⟨e, he⟩ := s.ktu.writeWord_scratch .loc o.val v
  obtain ⟨hget, honly, hregs⟩ := s.ktu.scratch_written v e (some (0, false)) rfl
  refine .of_onKtu (fun k => k.localWrite o 0x408 v) rfl h ?_
  rw [Ktu.localWrite_ready o _ v hr, he]
  refine ⟨?_, by simp, (Ktu.only_wakeCheck _ _ _).2 honly, ?_⟩
  · rw [Ktu.wakeCheck_get]; exact hget
  · exact (Ktu.regsOnly_congr (by simp)).2 hregs

/-- R674, R677: a local write of KTU_TICK_PERIOD under an owner other than *fleet* is refused and counted. -/
theorem localWrite_tickPeriod_refused (v : Word) (h : s.ktu.runs) (hr : s.ktu.pins.ready = true)
    (hv : v.toNat % 2 ^ 14 ≠ s.ktu.get KReg.TICK_PERIOD_period_us % 2 ^ 14) :
    KtuDoes (.registerWrite (.ktu o 0x1804 v)) s fun k =>
      k.lastRead = some (0, true) ∧
      k.get KReg.ERR_REGREF_local = min (s.ktu.get KReg.ERR_REGREF_local + 1) KReg.ERR_REGREF_local.max ∧
      Ktu.only [.regs, .rest] s.ktu k ∧ Ktu.regsOnly [(KReg.ERR_REGREF_local, 0)] s.ktu k := by
  have ho : o.val ≠ fleet := by have := o.isLt; simp only [fleet]; omega
  obtain ⟨e, he⟩ := s.ktu.writeWord_tickPeriod_refused o.val v.toNat ho hv
  refine .of_onKtu (fun k => k.localWrite o 0x1804 v) rfl h ?_
  rw [Ktu.localWrite_ready o _ v hr, he]
  refine ⟨by simp, ?_, (Ktu.only_wakeCheck _ _ _).2 (s.ktu.only_regs_rest _ e _), ?_⟩
  · rw [Ktu.wakeCheck_get]; exact s.ktu.get_count_same KReg.ERR_REGREF_local 1 0
  · exact (Ktu.regsOnly_congr (by simp)).2 (s.ktu.regsOnly_count KReg.ERR_REGREF_local 1 0)

/-- R14: a local read of KTU_TICK_SKIP answers its value and clears it. -/
theorem localRead_tickSkip_clears (h : s.ktu.runs) (hr : s.ktu.pins.ready = true)
    (hl : Tbl.find? (0x1810 * 2 ^ 20) s.ktu.latchL = none) :
    KtuDoes (.readClear (.ktu o 0x1810)) s fun k =>
      k.lastRead = some (BitVec.ofNat 32 (s.ktu.get KReg.TICK_SKIP_skipped), false) ∧ k.get KReg.TICK_SKIP_skipped = 0 ∧
      Ktu.only [.regs, .rest] s.ktu k ∧ Ktu.regsOnly [(KReg.TICK_SKIP_skipped, 0)] s.ktu k := by
  have hread : s.ktu.readWord .loc o.val 0x1810 =
      (s.ktu.put KReg.TICK_SKIP_skipped 0, s.ktu.get KReg.TICK_SKIP_skipped % 2 ^ 32 * 2 ^ 0, false) := by
    rw [← s.ktu.view_tickSkip .loc]
    exact Ktu.readWord_clears wordFields_tickSkip (s.ktu.mayRead_of_base_lt .loc o.val (by decide)) rfl
      (by rwa [Ktu.latchKey_of_lt _ _ (by decide)]) rfl
  refine .of_onKtu (fun k => k.localRead o 0x1810) rfl h ?_
  rw [Ktu.localRead_ready o _ hr, hread, word_of_mod]
  refine ⟨by simp, ?_, (Ktu.only_wakeCheck _ _ _).2 (s.ktu.only_regs_rest _ s.ktu.errHeld _), ?_⟩
  · rw [Ktu.wakeCheck_get]; exact s.ktu.get_put_same KReg.TICK_SKIP_skipped 0 0
  · exact (Ktu.regsOnly_congr (by simp)).2 (s.ktu.regsOnly_put KReg.TICK_SKIP_skipped 0 0)

/-- R156: a local read of KTU_TICK_NUM_LO answers its value and latches KTU_TICK_NUM_HI. -/
theorem localRead_tickNumLo_latches (h : s.ktu.runs) (hr : s.ktu.pins.ready = true)
    (hl : Tbl.find? (0x1808 * 2 ^ 20) s.ktu.latchL = none) :
    KtuDoes (.loReadLatch (.ktu o 0x1808)) s fun k =>
      k.lastRead = some (BitVec.ofNat 32 (s.ktu.get KReg.TICK_NUM_LO_tick_lo), false) ∧
      Tbl.find? (0x180C * 2 ^ 20) k.latchL = some (s.ktu.get KReg.TICK_NUM_HI_tick_hi % 2 ^ 16) ∧
      Ktu.only [.latches, .rest] s.ktu k := by
  have hread : s.ktu.readWord .loc o.val 0x1808 =
      ({ s.ktu with latchL := [(0x180C * 2 ^ 20, s.ktu.get KReg.TICK_NUM_HI_tick_hi % 2 ^ 16)] },
        s.ktu.get KReg.TICK_NUM_LO_tick_lo % 2 ^ 32 * 2 ^ 0, false) := by
    rw [Ktu.readWord_latches wordFields_tickNumLo (s.ktu.mayRead_of_base_lt .loc o.val (by decide)) rfl
      (by rwa [Ktu.latchKey_of_lt _ _ (by decide)]) (by decide), Ktu.latchKey_of_lt _ _ (by decide), Ktu.live_tickNumHi,
      Ktu.view_tickNumLo]
    rfl
  refine .of_onKtu (fun k => k.localRead o 0x1808) rfl h ?_
  rw [Ktu.localRead_ready o _ hr, hread, word_of_mod]
  exact ⟨by simp, by simp [Tbl.find?], (Ktu.only_wakeCheck _ _ _).2 (s.ktu.only_latches_rest _ _)⟩

end

/-! ### The statement -/

/-- Settles O24: each clause is a lemma about one access. -/
theorem ktuRegisterAccess : Obligations.KtuRegisterAccess := by
  unfold Obligations.KtuRegisterAccess
  refine ⟨fun s r h hm hr => ⟨regRd_bad_answers h hm hr, regWr_bad_answers h hm hr, regRd_answers h hm hr,
    regRd_scratch_answers h hm hr, fun w ho hc hw => regWr_scratch_answers h hm hr ho hc hw⟩, fun s o h hr => ⟨?_, ?_, ?_, ?_⟩⟩
  · exact fun v => localWrite_scratch_does o v h hr
  · exact fun v hv => localWrite_tickPeriod_refused o v h hr hv
  · exact localRead_tickSkip_clears o h hr
  · exact localRead_tickNumLo_latches o h hr

end Sys2Proof.Machine
end

section
/-! SUPPORT. One word of Naloder's registers read (R14, R156): the fields a read clears, the words it latches, and what it leaves
alone. -/

namespace Sys2Proof.Machine

open Sys2Proof

/-! ### The register map -/

theorem nldTable_lo_lt : ∀ f ∈ NReg.table, f.lo < 32 := by decide +kernel

/-- A read-clear field of Naloder's map has the reset value 0. -/
theorem nldTable_rc_reset : ∀ f ∈ NReg.table, f.acc = .rc → f.rst = 0 ∧ f.special = none := by decide +kernel

theorem mem_nldFields {a : Nat} {x : Fld × Nat} : x ∈ nldFields a ↔ x.1 ∈ NReg.table ∧ x.1.indexAt a = some x.2 := Fld.mem_at

theorem nldFields_key {a : Nat} {x : Fld × Nat} (h : x ∈ nldFields a) : x.1.key x.2 / 32 = a := by
  obtain ⟨hm, hi⟩ := mem_nldFields.1 h
  have hlo := nldTable_lo_lt _ hm
  have ha := Fld.addr_of_indexAt hi
  simp only [Fld.key]; omega

theorem nldFields_reset {a : Nat} {x : Fld × Nat} (h : x ∈ nldFields a) (hc : x.1.acc = .rc) : x.1.reset x.2 = 0 := by
  obtain ⟨hr, hs⟩ := nldTable_rc_reset _ (mem_nldFields.1 h).1 hc
  simp [Fld.reset, hs, hr]

/-- A read-clear field lies elsewhere than a field at an address that has no read-clear field. -/
theorem nldFields_key_ne {a : Nat} {x : Fld × Nat} (h : x ∈ nldFields a) (hc : x.1.acc = .rc) {f : Fld} {i : Nat}
    (hf : ∀ y ∈ nldFields (f.key i / 32), y.1.acc ≠ .rc) : f.key i ≠ x.1.key x.2 := by
  intro he
  rw [he, nldFields_key h] at hf
  exact hf x h hc

theorem tickRun_word_not_rc : ∀ y ∈ nldFields (NReg.TICK_CTRL_run.key 0 / 32), y.1.acc ≠ .rc := by decide +kernel
theorem irqPend_word_not_rc : ∀ y ∈ nldFields (NReg.IRQ_PEND_pend.key 0 / 32), y.1.acc ≠ .rc := by decide +kernel

/-! ### Clearing -/

/-- What a read does to one of the fields it returns. -/
def Nld.clearField (n : Nld) (x : Fld × Nat) : Nld :=
  if x.1.acc ≠ .rc then n
  else if x.1 = NReg.SHP_WAIT_count then
    let s := n.get NReg.SHP_IDX_shaper
    n.setShaper s { n.shaper s with wait := 0 }
  else n.put x.1 0 x.2

theorem Nld.readClear_eq_foldl (n : Nld) (a : Nat) : n.readClear a = (nldFields a).foldl Nld.clearField n := rfl

section
variable {n : Nld} {x : Fld × Nat} {f : Fld} {i : Nat}

theorem Nld.clearField_of_not_rc (h : x.1.acc ≠ .rc) : n.clearField x = n := if_pos h

theorem Nld.clearField_of_rc (h : x.1.acc = .rc) (hs : x.1 ≠ NReg.SHP_WAIT_count) : n.clearField x = n.put x.1 0 x.2 := by
  simp [Nld.clearField, h, hs]

/-- Clearing the wait count of a shaper touches no register. -/
theorem Nld.clearField_of_shpWait (h : x.1 = NReg.SHP_WAIT_count) : ∃ d, n.clearField x = { n with rdma := d } := by
  exact ⟨_, by simp only [Nld.clearField, h, if_true]; rfl⟩

theorem Nld.clearField_eq (n : Nld) (x : Fld × Nat) : ∃ r d, n.clearField x = { n with regs := r, rdma := d } := by
  by_cases hc : x.1.acc = .rc
  · by_cases hs : x.1 = NReg.SHP_WAIT_count
    · obtain ⟨d, hd⟩ := Nld.clearField_of_shpWait (n := n) hs
      exact ⟨n.regs, d, hd⟩
    · exact ⟨_, n.rdma, Nld.clearField_of_rc hc hs⟩
  · exact ⟨n.regs, n.rdma, Nld.clearField_of_not_rc hc⟩

theorem Nld.get_clearField_ne (h : x.1.acc = .rc → f.key i ≠ x.1.key x.2) : (n.clearField x).get f i = n.get f i := by
  by_cases hc : x.1.acc = .rc
  · by_cases hs : x.1 = NReg.SHP_WAIT_count
    · obtain ⟨d, hd⟩ := Nld.clearField_of_shpWait (n := n) hs
      rw [hd]; rfl
    · rw [Nld.clearField_of_rc hc hs, Nld.get_put_ne _ _ _ _ _ _ (h hc)]
  · rw [Nld.clearField_of_not_rc hc]

theorem Nld.get_clearField_same (h : x.1.acc = .rc) (hs : x.1 ≠ NReg.SHP_WAIT_count) : (n.clearField x).get x.1 x.2 = 0 := by
  rw [Nld.clearField_of_rc h hs, Nld.get_put_same, Nat.zero_mod]

/-- A field that resets to 0 and reads as 0 stays so when a field that resets to 0 is set to 0, be it at the same place. -/
theorem Regs.get_set_zero {r : Regs} {g : Fld} {j : Nat} (hf : f.reset i = 0) (hg : g.reset j = 0) (h : r.get f i = 0) :
    (r.set g 0 j).get f i = 0 := by
  by_cases hk : f.key i = g.key j
  · simp [Regs.get, Regs.set, hf, hg, hk]
  · rw [Regs.get_set_ne _ _ _ _ _ _ hk, h]

theorem Nld.get_clearField_zero (hx : x.1.acc = .rc → x.1.reset x.2 = 0) (hf : f.reset i = 0) (h : n.get f i = 0) :
    (n.clearField x).get f i = 0 := by
  by_cases hc : x.1.acc = .rc
  · by_cases hs : x.1 = NReg.SHP_WAIT_count
    · obtain ⟨d, hd⟩ := Nld.clearField_of_shpWait (n := n) hs
      rw [hd]; exact h
    · rw [Nld.clearField_of_rc hc hs]
      exact Regs.get_set_zero hf (hx hc) h
  · rwa [Nld.clearField_of_not_rc hc]

end

/-- A list of fields is cleared: what is set to 0 stays 0. -/
theorem Nld.get_foldl_clearField {l : List (Fld × Nat)} (hl : ∀ y ∈ l, y.1.acc = .rc → y.1.reset y.2 = 0) {x : Fld × Nat}
    (hx : x ∈ l) (hc : x.1.acc = .rc) (hs : x.1 ≠ NReg.SHP_WAIT_count) (n : Nld) : (l.foldl Nld.clearField n).get x.1 x.2 = 0 := by
  induction l generalizing n with
  | nil => simp at hx
  | cons y t ih =>
    have ht : ∀ z ∈ t, z.1.acc = .rc → z.1.reset z.2 = 0 := fun z hz => hl z (List.mem_cons_of_mem _ hz)
    rcases List.mem_cons.1 hx with rfl | hx
    · exact List.foldlRecOn t Nld.clearField (motive := fun m => m.get x.1 x.2 = 0) (Nld.get_clearField_same hc hs)
        fun m hm z hz => Nld.get_clearField_zero (ht z hz) (hl x List.mem_cons_self hc) hm
    · exact ih ht hx _

/-- R14: a read-clear field that a read returns is 0 afterwards. The wait count of a shaper is not a register of its own. -/
theorem Nld.readClear_get_same (n : Nld) {a : Nat} {x : Fld × Nat} (hx : x ∈ nldFields a) (hc : x.1.acc = .rc)
    (hs : x.1 ≠ NReg.SHP_WAIT_count) : (n.readClear a).get x.1 x.2 = 0 := by
  rw [Nld.readClear_eq_foldl]
  exact Nld.get_foldl_clearField (fun _ hy => nldFields_reset hy) hx hc hs n

/-- A read leaves every field alone that lies elsewhere than the read-clear fields it returns. -/
theorem Nld.readClear_get_ne (n : Nld) {a : Nat} {f : Fld} {i : Nat}
    (h : ∀ x ∈ nldFields a, x.1.acc = .rc → f.key i ≠ x.1.key x.2) : (n.readClear a).get f i = n.get f i := by
  rw [Nld.readClear_eq_foldl]
  exact List.foldlRecOn (nldFields a) Nld.clearField (motive := fun m => m.get f i = n.get f i) rfl
    fun _ hm x hx => (Nld.get_clearField_ne (h x hx)).trans hm

theorem Nld.readClear_eq (n : Nld) (a : Nat) : ∃ r d, n.readClear a = { n with regs := r, rdma := d } := by
  rw [Nld.readClear_eq_foldl]
  refine List.foldlRecOn (nldFields a) Nld.clearField (motive := fun m => ∃ r d, m = { n with regs := r, rdma := d })
    ⟨n.regs, n.rdma, rfl⟩ ?_
  rintro _ ⟨r, d, rfl⟩ x -
  exact Nld.clearField_eq { n with regs := r, rdma := d } x

/-! ### Latching -/

/-- Of keys that are written in order, each with its own value, every one is found. -/
theorem Tbl.find?_foldl_insert {β : Type} (g : Nat → β) {l : List Nat} {x : Nat} (hx : x ∈ l) (t : Tbl β) :
    Tbl.find? x (l.foldl (fun u y => Tbl.insert y (g y) u) t) = some (g x) := by
  have hkeep : ∀ (l : List Nat) (t : Tbl β), Tbl.find? x t = some (g x) →
      Tbl.find? x (l.foldl (fun u y => Tbl.insert y (g y) u) t) = some (g x) := by
    intro l t ht
    refine List.foldlRecOn l _ (motive := fun u => Tbl.find? x u = some (g x)) ht fun u hu y _ => ?_
    by_cases hy : x = y
    · rw [hy, Tbl.find?_insert_same]
    · rw [Tbl.find?_insert_ne hy, hu]
  induction l generalizing t with
  | nil => simp at hx
  | cons y l ih =>
    rcases List.mem_cons.1 hx with rfl | hx
    · exact hkeep l _ (Tbl.find?_insert_same _ _ _)
    · exact ih hx _

theorem Nld.readLatch_eq (n : Nld) (a : Nat) : ∃ t, n.readLatch a = { n with host := { n.host with latch := t } } := by
  unfold Nld.readLatch
  split
  · exact ⟨n.host.latch, rfl⟩
  · exact ⟨_, rfl⟩

/-- R156: a word that belongs to a _LO word is latched with its value at the read. -/
theorem Nld.readLatch_find (n : Nld) {a x : Nat} (hx : x ∈ nldLatched a) : Tbl.find? x (n.readLatch a).host.latch = some (n.live x) := by
  unfold Nld.readLatch
  split
  · next h => simp [h] at hx
  · exact Tbl.find?_foldl_insert n.live hx _

/-! ### A read through a BAR -/

/-- What the read of a word outside the MSI-X table and the PBA does: it latches, and it clears. -/
def Nld.afterRead (n : Nld) (a : Nat) : Nld := (n.readLatch a).readClear a

/-- R336, R691: after boot, a read of the hardware's registers answers the word, latched or live. -/
theorem Nld.readBar_hard {n : Nld} {fn off : Nat} (hw : n.writable) (hb : inBar fn off = true) (ha : off % 4 = 0)
    (he : emulatedBlock fn off = false) (hm : inMsix fn off = false) (hp : inPba fn off = false) :
    n.readBar fn off = (n.afterRead (nldAddr fn off)).emit (.readData fn off
      ((Tbl.find? (nldAddr fn off) n.host.latch).getD (n.live (nldAddr fn off)))) := by
  obtain ⟨-, hr, h5⟩ := hw
  have h5 : ¬ n.bootStage < 5 := by omega
  simp [Nld.readBar, Nld.readHard, Nld.afterRead, hb, ha, hr, h5, he, hm, hp]

section
variable (n : Nld) (a : Nat)

theorem Nld.afterRead_eq : ∃ r t d, n.afterRead a = { n with regs := r, host := { n.host with latch := t }, rdma := d } := by
  obtain ⟨t, ht⟩ := n.readLatch_eq a
  obtain ⟨r, d, hr⟩ := (n.readLatch a).readClear_eq a
  exact ⟨r, t, d, by rw [Nld.afterRead, hr, ht]⟩

theorem Nld.readLatch_get (f : Fld) (i : Nat) : (n.readLatch a).get f i = n.get f i := by
  obtain ⟨t, ht⟩ := n.readLatch_eq a
  rw [ht]; rfl

theorem Nld.afterRead_get_ne {f : Fld} {i : Nat} (h : ∀ x ∈ nldFields a, x.1.acc = .rc → f.key i ≠ x.1.key x.2) :
    (n.afterRead a).get f i = n.get f i := by
  rw [Nld.afterRead, Nld.readClear_get_ne _ h, Nld.readLatch_get]

/-- A read does not touch NLD_TICK_CTRL.run. -/
theorem Nld.afterRead_run : (n.afterRead a).bit NReg.TICK_CTRL_run = n.bit NReg.TICK_CTRL_run := by
  have h := n.afterRead_get_ne a (f := NReg.TICK_CTRL_run) (i := 0) fun _ hx hc => nldFields_key_ne hx hc tickRun_word_not_rc
  simp only [Nld.get] at h
  simp only [Nld.bit, Regs.bit, h]

theorem Nld.afterRead_find {x : Nat} (hx : x ∈ nldLatched a) : Tbl.find? x (n.afterRead a).host.latch = some (n.live x) := by
  obtain ⟨r, d, hr⟩ := (n.readLatch a).readClear_eq a
  rw [Nld.afterRead, hr]
  exact n.readLatch_find hx

end

end Sys2Proof.Machine
end

section
/-! SUPPORT. What signalling its host leaves of a Naloder, and the interrupt registers (R588, R699, R700, R708). -/

namespace Sys2Proof.Machine

open Sys2Proof

/-! ### Signalling -/

/-- Between two states Naloder has signalled its host and done nothing else. -/
def Nld.signalled (a b : Nld) : Prop := ∃ p l, b = { a with host := { a.host with pba := p }, out := a.out ++ l }

section
variable {a b c : Nld}

theorem Nld.signalled_refl (a : Nld) : Nld.signalled a a := ⟨a.host.pba, [], by simp⟩

theorem Nld.signalled.trans (h : Nld.signalled a b) (h' : Nld.signalled b c) : Nld.signalled a c := by
  obtain ⟨p, l, rfl⟩ := h
  obtain ⟨p', l', rfl⟩ := h'
  exact ⟨p', l ++ l', by simp⟩

theorem Nld.signal_signalled (n : Nld) (fn v : Nat) : Nld.signalled n (n.signal fn v) := by
  obtain ⟨p, o, e⟩ := n.signal_eq fn v
  obtain ⟨l, hl⟩ := n.signal_out fn v
  rw [e] at hl
  exact ⟨p, l, by rw [e, ← hl]⟩

/-- R588: an unmasked vector that is signalled has its message. -/
theorem Nld.signal_emits {n : Nld} {fn v : Nat} (h : n.vecMasked fn v = false) : Nld.emits n (n.signal fn v) (.msix fn v) :=
  ⟨[.msix fn v], by simp [Nld.signal, Nld.emit, h], List.mem_singleton_self _⟩

theorem Nld.signalled.get (h : Nld.signalled a b) (f : Fld) (i : Nat) : b.get f i = a.get f i := by
  obtain ⟨p, l, rfl⟩ := h; rfl

theorem Nld.signalled.bit (h : Nld.signalled a b) (f : Fld) (i : Nat) : b.bit f i = a.bit f i := by
  obtain ⟨p, l, rfl⟩ := h; rfl

theorem Nld.signalled.irqSrc (h : Nld.signalled a b) : b.irqSrc = a.irqSrc := by obtain ⟨p, l, rfl⟩ := h; rfl

theorem Nld.signalled.irqSet (h : Nld.signalled a b) : b.irqSet = a.irqSet := by obtain ⟨p, l, rfl⟩ := h; rfl

theorem Nld.signalled.vecMasked (h : Nld.signalled a b) (fn v : Nat) : b.vecMasked fn v = a.vecMasked fn v := by
  obtain ⟨p, l, rfl⟩ := h; rfl

theorem Nld.signalled.same (h : Nld.signalled a b) (n : Nld) (x : NPart) : Nld.same n b x ↔ Nld.same n a x := by
  obtain ⟨p, l, rfl⟩ := h
  cases x <;> exact Iff.rfl

theorem Nld.signalled.only (h : Nld.signalled a b) (l : List NPart) (n : Nld) : Nld.only l n b ↔ Nld.only l n a := by
  simp [Nld.only, h.same]

theorem Nld.signalled.regsOnly (h : Nld.signalled a b) (l : List (Fld × Nat)) (n : Nld) :
    Nld.regsOnly l n b ↔ Nld.regsOnly l n a := by
  simp [Nld.regsOnly, h.get]

/-- What has gone out before a signal has gone out after it. -/
theorem Nld.signalled.emits (h : Nld.signalled b c) {o : HostOut} (he : Nld.emits a b o) : Nld.emits a c o := by
  obtain ⟨p, l, rfl⟩ := h
  obtain ⟨l', hl', ho⟩ := he
  exact ⟨l' ++ l, by simp [hl'], List.mem_append_left _ ho⟩

/-- What goes out is counted from the output before, whatever else differs. -/
theorem Nld.emits_congr (h : a.out = b.out) {o : HostOut} : Nld.emits a c o ↔ Nld.emits b c o := by simp [Nld.emits, h]

theorem Nld.rearm_signalled (b n : Nld) : Nld.signalled n (Nld.rearm b n) := by
  unfold Nld.rearm
  split
  · exact Nld.signalled_refl n
  · exact n.signal_signalled 0 0

theorem Nld.rearmVf_signalled (b n : Nld) (p : Nat) : Nld.signalled n (Nld.rearmVf b n p) := by
  unfold Nld.rearmVf
  split
  · exact Nld.signalled_refl n
  · exact n.signal_signalled (p + 1) 0

end

/-! ### The sources -/

/-- An entry of the register file that is no event bit raises no source. -/
theorem nldSources_cons_quiet {k : Nat} (h : nldEventSource (k / 32) (k % 32) = none) (v : Nat) (t : Regs) :
    nldSources ((k, v) :: t) = nldSources t := by
  simp [nldSources, h]

section
variable {k : Nat} (h : nldEventSource (k / 32) (k % 32) = none)
include h

theorem nldSources_erase (t : Regs) : nldSources (Tbl.erase k t) = nldSources t := by
  induction t with
  | nil => rfl
  | cons e t ih =>
    obtain ⟨k', v'⟩ := e
    by_cases hk : k = k'
    · subst hk
      rw [nldSources_cons_quiet h, Tbl.erase, if_pos rfl, ih]
    · simp only [Tbl.erase, if_neg hk, nldSources, ih]

theorem nldSources_insert (v : Nat) (t : Regs) : nldSources (Tbl.insert k v t) = nldSources t := by
  induction t with
  | nil => exact nldSources_cons_quiet h v []
  | cons e t ih =>
    obtain ⟨k', v'⟩ := e
    by_cases hk : k = k'
    · subst hk
      rw [Tbl.insert, if_pos rfl, nldSources_cons_quiet h, nldSources_cons_quiet h]
    · by_cases hlt : k < k'
      · rw [Tbl.insert, if_neg hk, if_pos hlt, nldSources_cons_quiet h]
      · simp only [Tbl.insert, if_neg hk, if_neg hlt, nldSources, ih]

theorem nldSources_set (d v : Nat) (t : Regs) : nldSources (Tbl.set d k v t) = nldSources t := by
  unfold Tbl.set
  split
  · exact nldSources_erase h t
  · exact nldSources_insert h v t

end

/-- A write of a field that is no event bit moves no source. -/
theorem Nld.irqSrc_put (n : Nld) {f : Fld} {i : Nat} (h : nldEventSource (f.key i / 32) (f.key i % 32) = none) (v : Nat) :
    (n.put f v i).irqSrc = n.irqSrc := by
  simp only [Nld.irqSrc, Nld.put, Regs.set, nldSources_set h]

/-! ### What follows a change that moves no source -/

/-- R708: the messages of the VFs whose masked set went from empty to non-empty. -/
def Nld.signalVfs (b n : Nld) : Nld :=
  (List.range 16).foldl (fun n p => if b.vfSet p = 0 ∧ n.vfSet p ≠ 0 then n.signal (p + 1) 0 else n) n

theorem Nld.signalVfs_signalled (b n : Nld) : Nld.signalled n (Nld.signalVfs b n) := by
  refine List.foldlRecOn (List.range 16) _ (motive := Nld.signalled n) (Nld.signalled_refl n) fun m hm p _ => ?_
  split
  · exact hm.trans (m.signal_signalled _ _)
  · exact hm

section
variable {b n : Nld}

theorem Nld.settle_quiet (h : n.irqSrc = b.irqSrc) :
    Nld.settle b n = Nld.signalVfs b (if b.irqSet = 0 ∧ n.irqSet ≠ 0 then n.signal 0 0 else n) := by
  simp [Nld.settle, Nld.signalVfs, h]

theorem Nld.settle_signalled (h : n.irqSrc = b.irqSrc) : Nld.signalled n (Nld.settle b n) := by
  rw [Nld.settle_quiet h]
  refine Nld.signalled.trans ?_ (Nld.signalVfs_signalled b _)
  split
  · exact n.signal_signalled 0 0
  · exact Nld.signalled_refl n

/-- R700: a set that became non-empty has the message of vector 0. -/
theorem Nld.settle_emits (h : n.irqSrc = b.irqSrc) (h0 : b.irqSet = 0) (h1 : n.irqSet ≠ 0) (hm : n.vecMasked 0 0 = false) :
    Nld.emits n (Nld.settle b n) (.msix 0 0) := by
  rw [Nld.settle_quiet h, if_pos ⟨h0, h1⟩]
  exact (Nld.signalVfs_signalled b _).emits (Nld.signal_emits hm)

/-- A change that leaves NLD_TICK_CTRL.run is settled as it is, but for what the opening of ticks knows of domain 0. -/
theorem Nld.after_eq_settle (h : n.bit NReg.TICK_CTRL_run = b.bit NReg.TICK_CTRL_run) :
    ∃ m, Nld.after b n = Nld.settle b m ∧ ∃ t, m = { n with tick := t } := by
  obtain ⟨t, ht⟩ : ∃ t, n.lockCheck = { n with tick := t } := by
    unfold Nld.lockCheck
    simp only []
    split
    · exact ⟨_, rfl⟩
    · exact ⟨_, rfl⟩
  have hb : n.lockCheck.bit NReg.TICK_CTRL_run = b.bit NReg.TICK_CTRL_run := by rw [ht]; exact h
  exact ⟨n.lockCheck, by rw [Nld.after, Nld.runCheck, hb, if_neg (by simp)], t, ht⟩

section
variable (h : n.bit NReg.TICK_CTRL_run = b.bit NReg.TICK_CTRL_run) (hs : n.irqSrc = b.irqSrc)
include h hs

/-- Where no source has risen, no register changes, not even NLD_IRQ_PEND. -/
theorem Nld.after_quiet_get (f : Fld) (i : Nat) : (Nld.after b n).get f i = n.get f i := by
  obtain ⟨m, e, t, hm⟩ := Nld.after_eq_settle h
  have hsm : m.irqSrc = b.irqSrc := by rw [hm]; exact hs
  rw [e, (Nld.settle_signalled hsm).get, hm]; rfl

theorem Nld.after_quiet_irqSet : (Nld.after b n).irqSet = n.irqSet := by
  obtain ⟨m, e, t, hm⟩ := Nld.after_eq_settle h
  have hsm : m.irqSrc = b.irqSrc := by rw [hm]; exact hs
  rw [e, (Nld.settle_signalled hsm).irqSet, hm]; rfl

theorem Nld.after_quiet_emits (h0 : b.irqSet = 0) (h1 : n.irqSet ≠ 0) (hv : n.vecMasked 0 0 = false) :
    Nld.emits n (Nld.after b n) (.msix 0 0) := by
  obtain ⟨m, e, t, hm⟩ := Nld.after_eq_settle h
  have hsm : m.irqSrc = b.irqSrc := by rw [hm]; exact hs
  have hset : m.irqSet = n.irqSet := by rw [hm]; rfl
  have hvm : m.vecMasked 0 0 = n.vecMasked 0 0 := by rw [hm]; rfl
  have hout : m.out = n.out := by rw [hm]
  rw [e, ← Nld.emits_congr hout]
  exact Nld.settle_emits hsm h0 (hset ▸ h1) (hvm ▸ hv)

/-- R700: after a write of the interrupt registers, a set that is not empty has its message. -/
theorem Nld.after_rearm_emits (h1 : n.irqSet ≠ 0) (hm : n.vecMasked 0 0 = false) :
    Nld.emits n (Nld.after b (Nld.rearm b n)) (.msix 0 0) := by
  by_cases h0 : b.irqSet = 0
  · have hr : Nld.rearm b n = n := by simp [Nld.rearm, h0]
    rw [hr]
    exact Nld.after_quiet_emits h hs h0 h1 hm
  · have hr : Nld.rearm b n = n.signal 0 0 := by simp [Nld.rearm, h0, h1]
    rw [hr]
    exact Nld.emits_after ((n.signal_signalled 0 0).bit _ _ |>.trans h) (Nld.signal_emits hm)

end
end

/-! ### Registers that are set -/

theorem Nld.bit_congr {a b : Nld} {f : Fld} {i : Nat} (h : b.get f i = a.get f i) : b.bit f i = a.bit f i := by
  simp only [Nld.get] at h
  simp only [Nld.bit, Regs.bit, h]

theorem Nld.put_run (n : Nld) {f : Fld} {i : Nat} (v : Nat) (h : NReg.TICK_CTRL_run.key 0 ≠ f.key i) :
    (n.put f v i).bit NReg.TICK_CTRL_run = n.bit NReg.TICK_CTRL_run :=
  Nld.bit_congr (Nld.get_put_ne _ _ _ _ _ _ h)

theorem Nld.only_put {a n : Nld} {l : List NPart} (h : Nld.only l a n) (hr : .regs ∈ l) (f : Fld) (v i : Nat) :
    Nld.only l a (n.put f v i) := by
  intro x hx
  have hn := h x hx
  cases x with
  | regs => exact absurd hr hx
  | _ => exact hn

@[simp] theorem Nld.only_refl (n : Nld) (l : List NPart) : Nld.only l n n := fun x _ => Nld.same_refl n x

theorem Nld.regsOnly_put {a n : Nld} {l : List (Fld × Nat)} (h : Nld.regsOnly l a n) {f : Fld} {i : Nat} (hm : (f, i) ∈ l) (v : Nat) :
    Nld.regsOnly l a (n.put f v i) := fun g j hp hl => by
  rw [Nld.get_put_ne n f g v i j (hl (f, i) hm), h g j hp hl]

@[simp] theorem Nld.regsOnly_refl (n : Nld) (l : List (Fld × Nat)) : Nld.regsOnly l n n := fun _ _ _ _ => rfl

/-- What a write of one field, the signals it gives and what follows a change leave: the value in the field, and every other register
as it was. -/
theorem Nld.after_put {b m : Nld} {f : Fld} {v i : Nat} (hm : Nld.signalled (b.put f v i) m)
    (hr : NReg.TICK_CTRL_run.key 0 ≠ f.key i) (hp : f.key i ≠ NReg.IRQ_PEND_pend.key 0) :
    (Nld.after b m).get f i = v % 2 ^ f.width ∧ Nld.only [.regs] b (Nld.after b m) ∧ Nld.regsOnly [(f, i)] b (Nld.after b m) := by
  have hrun : m.bit NReg.TICK_CTRL_run = b.bit NReg.TICK_CTRL_run := (hm.bit _ _).trans (b.put_run v hr)
  refine ⟨?_, (Nld.only_after hrun _ _).2 ((hm.only _ _).2 ?_), (Nld.regsOnly_after hrun _ _).2 ((hm.regsOnly _ _).2 ?_)⟩
  · rw [Nld.after_get hrun _ _ hp, hm.get, Nld.get_put_same]
  · exact Nld.only_put (b.only_refl _) (List.mem_singleton_self _) f v i
  · exact Nld.regsOnly_put (b.regsOnly_refl _) (List.mem_singleton_self _) v

end Sys2Proof.Machine
end

section
/-! SUPPORT. One word written to Naloder's registers (R14, R336, R691, R704): where a write lands, and what an ignored one reports. -/

namespace Sys2Proof.Machine

open Sys2Proof

/-! ### Where a write lands -/

section
variable {n : Nld} {fn off : Nat}

/-- After boot a write of a block outside the identity block and the emulated window reaches the hardware's registers. -/
theorem Nld.writeBar_hard (hw : n.writable) (hb : inBar fn off = true) (ha : off % 4 = 0) (hr : reservedBlock fn off = false)
    (hi : identityBlock fn off = false) (he : emulatedBlock fn off = false) (w : Nat) :
    n.writeBar fn off w true = n.writeHard false fn off w := by
  obtain ⟨-, hp, h5⟩ := hw
  have h5 : ¬ n.bootStage < 5 := by omega
  simp [Nld.writeBar, Nld.earlyAt, hb, ha, hr, hp, hi, he, h5]

/-- R691: a write of the PF without all its byte enables is ignored. -/
theorem Nld.writeBar_partial (hp : n.pkg.resetting = false) (hb : inBar 0 off = true) (ha : off % 4 = 0)
    (hr : reservedBlock 0 off = false) (w : Nat) : n.writeBar 0 off w false = n.ignoredWrite 1 := by
  simp [Nld.writeBar, hb, ha, hr, hp]

/-- R336, R704: a write of the PF that comes before its block accepts writes is ignored. -/
theorem Nld.writeBar_early (hp : n.pkg.resetting = false) (hb : inBar 0 off = true) (ha : off % 4 = 0)
    (hr : reservedBlock 0 off = false) (he : n.earlyAt 0 off = true) (w : Nat) : n.writeBar 0 off w true = n.ignoredWrite 2 := by
  simp [Nld.writeBar, hb, ha, hr, hp, he]

theorem Nld.writeFw_hard (hf : n.fwRuns = true) (hb : inBar 0 off = true) (ha : off % 4 = 0) (hi : identityBlock 0 off = false)
    (he : emulatedBlock 0 off = false) (w : Nat) : n.writeFw off w = n.writeHard true 0 off w := by
  simp [Nld.writeFw, hf, hb, ha, hi, he]

theorem Nld.writeFw_stopped (hf : n.fwRuns = false) (w : Nat) : n.writeFw off w = n := by
  simp [Nld.writeFw, hf]

/-- A write of the hardware's registers outside the MSI-X table. -/
theorem Nld.writeHard_fields (hm : inMsix fn off = false) (firmware : Bool) (w : Nat) :
    n.writeHard firmware fn off w = Nld.rearmAt n
      (((nldFields (nldAddr fn off)).foldl (fun (m : Nld) x => m.writeField firmware x.1 (x.1.part w) x.2) n).writeCmd
        (nldAddr fn off) w) (nldAddr fn off) := by
  simp [Nld.writeHard, hm]

end

/-! ### Ignored writes -/

/-- The event bit that reports an ignored write: 1 partial, 2 early. -/
def ignoredFlag (reason : Nat) : Fld := if reason = 1 then NReg.ACC_EVT_partial_write else NReg.ACC_EVT_early_write

/-- An ignored write is counted before its event is raised; the first one's reason is kept. -/
def Nld.countIgnored (n : Nld) (reason : Nat) : Nld :=
  (if n.bit NReg.ACC_EVT_partial_write = true ∨ n.bit NReg.ACC_EVT_early_write = true then n
    else n.put NReg.ACC_EVT_reason reason).count NReg.ACC_IGNORED_count

/-- The fields that an ignored write may touch. -/
def ignoredFields : List Fld :=
  [NReg.ACC_EVT_partial_write, NReg.ACC_EVT_early_write, NReg.ACC_EVT_reason, NReg.ACC_IGNORED_count, NReg.HWERR_PROD_seq,
   NReg.HWERR_LOST_count]

section
variable (n : Nld) (reason : Nat)

theorem Nld.ignoredWrite_eq : n.ignoredWrite reason = (n.countIgnored reason).raise (ignoredFlag reason) := by
  unfold Nld.ignoredWrite Nld.countIgnored ignoredFlag
  by_cases h : reason = 1
  · simp only [if_pos h]
  · simp only [if_neg h]

theorem Nld.countIgnored_eq : ∃ r, n.countIgnored reason = { n with regs := r } := by
  unfold Nld.countIgnored
  split
  · exact ⟨_, rfl⟩
  · exact ⟨_, rfl⟩

theorem Nld.countIgnored_count :
    (n.countIgnored reason).get NReg.ACC_IGNORED_count = min (n.get NReg.ACC_IGNORED_count + 1) NReg.ACC_IGNORED_count.max := by
  unfold Nld.countIgnored
  rw [Nld.get_count_same]
  split
  · rfl
  · rw [Nld.get_put_ne _ _ _ _ _ _ (by decide)]

theorem Nld.countIgnored_get_ne {g : Fld} {j : Nat} (hc : g.key j ≠ NReg.ACC_IGNORED_count.key 0)
    (hr : g.key j ≠ NReg.ACC_EVT_reason.key 0) : (n.countIgnored reason).get g j = n.get g j := by
  unfold Nld.countIgnored
  rw [Nld.get_count_ne _ _ _ _ _ _ hc]
  split
  · rfl
  · rw [Nld.get_put_ne _ _ _ _ _ _ hr]

/-- What an ignored write leaves alone. -/
theorem Nld.ignoredWrite_eq_with : ∃ r h, n.ignoredWrite reason = { n with regs := r, hwErr := h } := by
  obtain ⟨r, hr⟩ := n.countIgnored_eq reason
  obtain ⟨r', h', e⟩ := (n.countIgnored reason).raise_eq (ignoredFlag reason) 1 0
  exact ⟨r', h', by rw [Nld.ignoredWrite_eq, e, hr]⟩

theorem Nld.ignoredWrite_only : Nld.only [.regs, .hwErr] n (n.ignoredWrite reason) := by
  obtain ⟨r, h, e⟩ := n.ignoredWrite_eq_with reason
  rw [e]
  intro x hx
  cases x <;> simp [Nld.same] at hx ⊢

theorem ignoredFlag_mem : ignoredFlag reason ∈ ignoredFields := by
  unfold ignoredFlag
  split <;> decide

theorem Nld.ignoredWrite_get_ne {g : Fld} {j : Nat} (h : ∀ f ∈ ignoredFields, g.key j ≠ f.key 0) :
    (n.ignoredWrite reason).get g j = n.get g j := by
  rw [Nld.ignoredWrite_eq, Nld.get_raise_ne _ _ _ _ _ _ (h _ (ignoredFlag_mem reason)) (h _ (by decide)) (h _ (by decide)),
    Nld.countIgnored_get_ne _ _ (h _ (by decide)) (h _ (by decide))]

theorem Nld.ignoredWrite_count :
    (n.ignoredWrite reason).get NReg.ACC_IGNORED_count = min (n.get NReg.ACC_IGNORED_count + 1) NReg.ACC_IGNORED_count.max := by
  have hflag : NReg.ACC_IGNORED_count.key 0 ≠ (ignoredFlag reason).key 0 := by
    unfold ignoredFlag
    split <;> decide
  rw [Nld.ignoredWrite_eq, Nld.get_raise_ne _ _ _ _ _ _ hflag (by decide) (by decide), Nld.countIgnored_count]

/-- A one-bit event that is raised is set. -/
theorem Nld.bit_raise {f : Fld} {i : Nat} (hw : f.width = 1) (h1 : f.key i ≠ NReg.HWERR_PROD_seq.key 0)
    (h2 : f.key i ≠ NReg.HWERR_LOST_count.key 0) : (n.raise f 1 i).bit f i = true := by
  have hand : 1 &&& n.get f i = n.get f i % 2 := by rw [Nat.and_comm, Nat.and_one_is_mod]
  rcases Nat.mod_two_eq_zero_or_one (n.get f i) with h | h
  · have hor : (n.get f i ||| 1) % 2 = 1 := by rw [Nat.or_mod_two_eq_one]; exact .inr rfl
    have hget : (n.raise f 1 i).get f i = 1 := by
      simp [Nld.raise, hand, h, Nld.get_hwRecord_ne _ _ _ _ _ h1 h2, hw, hor]
    simp [Nld.bit, Regs.bit, show (n.raise f 1 i).regs.get f i = 1 from hget]
  · have hne : n.get f i ≠ 0 := by omega
    have hraise : n.raise f 1 i = n := by simp [Nld.raise, hand, h]
    rw [hraise]
    simpa [Nld.bit, Regs.bit, Nld.get] using hne

theorem Nld.ignoredWrite_flag : (n.ignoredWrite reason).bit (ignoredFlag reason) = true := by
  rw [Nld.ignoredWrite_eq]
  unfold ignoredFlag
  split
  · exact Nld.bit_raise _ rfl (by decide) (by decide)
  · exact Nld.bit_raise _ rfl (by decide) (by decide)

theorem Nld.ignoredWrite_run : (n.ignoredWrite reason).bit NReg.TICK_CTRL_run = n.bit NReg.TICK_CTRL_run :=
  Nld.bit_congr (Nld.ignoredWrite_get_ne n reason (by decide))

/-- An ignored write of the PF, with what follows it: it is reported and counted, and no field outside the report has changed. -/
theorem Nld.after_ignoredWrite {g : Fld} {j : Nat} (hg : ∀ f ∈ ignoredFields, g.key j ≠ f.key 0)
    (hp : g.key j ≠ NReg.IRQ_PEND_pend.key 0) :
    (Nld.after n (n.ignoredWrite reason)).bit (ignoredFlag reason) = true ∧
    (Nld.after n (n.ignoredWrite reason)).get NReg.ACC_IGNORED_count =
      min (n.get NReg.ACC_IGNORED_count + 1) NReg.ACC_IGNORED_count.max ∧
    (Nld.after n (n.ignoredWrite reason)).get g j = n.get g j ∧
    Nld.only [.regs, .hwErr] n (Nld.after n (n.ignoredWrite reason)) := by
  have hrun := n.ignoredWrite_run reason
  have hflag : (ignoredFlag reason).key 0 ≠ NReg.IRQ_PEND_pend.key 0 := by
    unfold ignoredFlag
    split <;> decide
  refine ⟨?_, ?_, ?_, (Nld.only_after hrun _ _).2 (n.ignoredWrite_only reason)⟩
  · rw [Nld.bit_congr (Nld.after_get hrun _ _ hflag), n.ignoredWrite_flag]
  · rw [Nld.after_get hrun _ _ (by decide), n.ignoredWrite_count]
  · rw [Nld.after_get hrun _ _ hp, n.ignoredWrite_get_ne reason hg]

end

end Sys2Proof.Machine
end

section
/-! SUPPORT. The registers that the statement on Naloder's register access names, and that statement (R14, R156, R336, R531, R533,
R691, R700, R704, R708). -/

namespace Sys2Proof.Machine

open Sys2Proof

/-! ### Reads -/

theorem Nld.after_latch {b n : Nld} (h : n.bit NReg.TICK_CTRL_run = b.bit NReg.TICK_CTRL_run) :
    (Nld.after b n).host.latch = n.host.latch := by
  obtain ⟨r, p, o, c, l, e, -⟩ := Nld.after_eq b n h
  rw [e]

/-- R14, R156: both commands that read a word of Naloder's registers do what the read of the word does, and its value goes out. -/
theorem nldRead_does {s : State} {c : Instr} {fn off : Nat} (hc : exec c s = onNld (fun n => n.readBar fn off) s) (hw : s.nld.writable)
    (hb : inBar fn off = true) (ha : off % 4 = 0) (he : emulatedBlock fn off = false) (hm : inMsix fn off = false)
    (hp : inPba fn off = false) : NldDoes c s fun n =>
      s.nld.emits n (.readData fn off ((Tbl.find? (nldAddr fn off) s.nld.host.latch).getD (s.nld.live (nldAddr fn off)))) ∧
      (∀ x ∈ nldFields (nldAddr fn off), x.1.acc = .rc → x.1 ≠ NReg.SHP_WAIT_count → n.get x.1 x.2 = 0) ∧
      (∀ x ∈ nldLatched (nldAddr fn off), Tbl.find? x n.host.latch = some (s.nld.live x)) ∧
      Nld.only [.regs, .host, .rdma] s.nld n ∧
      Nld.regsOnly ((nldFields (nldAddr fn off)).filter (fun x => x.1.acc = .rc)) s.nld n := by
  refine .of_onNld (fun n => n.readBar fn off) hc hw.1 ?_
  rw [Nld.readBar_hard hw hb ha he hm hp]
  generalize nldAddr fn off = a
  generalize (Tbl.find? a s.nld.host.latch).getD (s.nld.live a) = v
  have hrun : ((s.nld.afterRead a).emit (.readData fn off v)).bit NReg.TICK_CTRL_run = s.nld.bit NReg.TICK_CTRL_run :=
    s.nld.afterRead_run a
  obtain ⟨r, t, d, heq⟩ := s.nld.afterRead_eq a
  refine ⟨Nld.emits_after hrun ⟨[.readData fn off v], ?_, List.mem_singleton_self _⟩, ?_, ?_, (Nld.only_after hrun _ _).2 ?_,
    (Nld.regsOnly_after hrun _ _).2 ?_⟩
  · rw [heq]; rfl
  · intro x hx hrc hs
    rw [Nld.after_get hrun _ _ (nldFields_key_ne hx hrc irqPend_word_not_rc).symm]
    exact Nld.readClear_get_same _ hx hrc hs
  · intro x hx
    rw [Nld.after_latch hrun]
    exact s.nld.afterRead_find a hx
  · rw [heq]
    intro x hx
    cases x <;> simp [Nld.same] at hx ⊢
  · intro f i _ hl
    exact s.nld.afterRead_get_ne a fun x hx hrc => hl x (List.mem_filter.2 ⟨hx, decide_eq_true hrc⟩)

/-! ### Plain words -/

/-- The plain registers of the statement: the abort policy and the advice lead (R531, R533). -/
def nldPlain : List Fld :=
  [NReg.ABT_ON_HOST_scope, NReg.ABT_ON_KTU_scope, NReg.ABT_ON_VERDICT_scope, NReg.ABT_ON_DEAD_scope, NReg.ADV_CFG_lead_ticks]

theorem nldPlain_fields : ∀ f ∈ nldPlain, nldFields f.base = [(f, 0)] := by decide +kernel

/-- Where they lie: aligned words of the PF's BAR, outside every block with a rule of its own. -/
theorem nldPlain_block : ∀ f ∈ nldPlain, inBar 0 f.base = true ∧ f.base % 4 = 0 ∧ reservedBlock 0 f.base = false ∧
    identityBlock 0 f.base = false ∧ emulatedBlock 0 f.base = false ∧ inMsix 0 f.base = false ∧ resetBlock 0 f.base = false := by
  decide

/-- They are no field of the report of an ignored write, nor of the interrupts, nor NLD_TICK_CTRL.run. -/
theorem nldPlain_key : ∀ f ∈ nldPlain, (∀ g ∈ ignoredFields, f.key 0 ≠ g.key 0) ∧ f.key 0 ≠ NReg.IRQ_PEND_pend.key 0 ∧
    NReg.TICK_CTRL_run.key 0 ≠ f.key 0 := by decide

theorem nldPlain_toNat : ∀ f ∈ nldPlain, (BitVec.ofNat 24 f.base).toNat = f.base := by decide

section
variable {f : Fld} (hf : f ∈ nldPlain) (n : Nld) (firmware : Bool)
include hf

theorem nldPlain_cases : f = NReg.ABT_ON_HOST_scope ∨ f = NReg.ABT_ON_KTU_scope ∨ f = NReg.ABT_ON_VERDICT_scope ∨
    f = NReg.ABT_ON_DEAD_scope ∨ f = NReg.ADV_CFG_lead_ticks := by
  simpa [nldPlain] using hf

theorem Nld.writeField_plain (v : Nat) : n.writeField firmware f v 0 = n.put f v := by
  rcases nldPlain_cases hf with rfl | rfl | rfl | rfl | rfl <;> rfl

theorem Nld.writeCmd_plain (w : Nat) : n.writeCmd f.base w = n := by
  rcases nldPlain_cases hf with rfl | rfl | rfl | rfl | rfl <;> rfl

theorem Nld.rearmAt_plain (b : Nld) : Nld.rearmAt b n f.base = n := by
  rcases nldPlain_cases hf with rfl | rfl | rfl | rfl | rfl <;> rfl

/-- A plain word takes its field, from either side of the block. -/
theorem Nld.writeHard_plain (w : Nat) : n.writeHard firmware 0 f.base w = n.put f (f.part w) := by
  obtain ⟨-, -, -, -, -, hm, -⟩ := nldPlain_block f hf
  have ha : nldAddr 0 f.base = f.base := rfl
  rw [Nld.writeHard_fields hm, ha, nldPlain_fields f hf]
  simp only [List.foldl, Nld.writeField_plain hf, Nld.writeCmd_plain hf, Nld.rearmAt_plain hf]

/-- The state that a plain write leaves. -/
theorem Nld.after_put_plain (w : Nat) : (Nld.after n (n.put f (f.part w))).get f = f.part w ∧
    Nld.only [.regs] n (Nld.after n (n.put f (f.part w))) ∧ Nld.regsOnly [(f, 0)] n (Nld.after n (n.put f (f.part w))) := by
  obtain ⟨-, hp, hr⟩ := nldPlain_key f hf
  obtain ⟨hget, hframe⟩ := Nld.after_put (b := n) (v := f.part w) (Nld.signalled_refl _) hr hp
  exact ⟨hget.trans (Nat.mod_mod _ _), hframe⟩

end

/-- Firmware that does not run writes nothing. -/
theorem fwWrite_stopped_does {s : State} (v : Word) (h : s.nld.runs) (hfw : s.nld.fwRuns = false) (a : BitVec 24) :
    NldDoes (.registerWrite (.firmware a v)) s fun n => Nld.only [] s.nld n := by
  refine .of_onNld (fun n => n.writeFw a.toNat v.toNat) rfl h ?_
  rw [Nld.writeFw_stopped hfw]
  exact (Nld.only_after rfl _ _).2 (s.nld.only_refl [])

section
variable {s : State} {f : Fld} (hf : f ∈ nldPlain) (v : Word)
include hf

theorem nldWrite_plain_does (h : s.nld.writable) : NldDoes (.registerWrite (.nld 0 (BitVec.ofNat 24 f.base) v true)) s fun n =>
    n.get f = f.part v.toNat ∧ Nld.only [.regs] s.nld n ∧ Nld.regsOnly [(f, 0)] s.nld n := by
  obtain ⟨hb, ha, hr, hi, he, -, -⟩ := nldPlain_block f hf
  refine .of_onNld (fun n => n.writeBar 0 (BitVec.ofNat 24 f.base).toNat v.toNat true) rfl h.1 ?_
  rw [nldPlain_toNat f hf, Nld.writeBar_hard h hb ha hr hi he, Nld.writeHard_plain hf]
  exact Nld.after_put_plain hf s.nld v.toNat

theorem fwWrite_plain_does (h : s.nld.runs) (hfw : s.nld.fwRuns = true) :
    NldDoes (.registerWrite (.firmware (BitVec.ofNat 24 f.base) v)) s fun n =>
      n.get f = f.part v.toNat ∧ Nld.only [.regs] s.nld n ∧ Nld.regsOnly [(f, 0)] s.nld n := by
  obtain ⟨hb, ha, -, hi, he, -, -⟩ := nldPlain_block f hf
  refine .of_onNld (fun n => n.writeFw (BitVec.ofNat 24 f.base).toNat v.toNat) rfl h ?_
  rw [nldPlain_toNat f hf, Nld.writeFw_hard hfw hb ha hi he, Nld.writeHard_plain hf]
  exact Nld.after_put_plain hf s.nld v.toNat

/-- R691: a partial write is ignored and reported. -/
theorem nldWrite_partial_does (h : s.nld.runs) (hp : s.nld.pkg.resetting = false) :
    NldDoes (.registerWrite (.nld 0 (BitVec.ofNat 24 f.base) v false)) s fun n =>
      n.bit NReg.ACC_EVT_partial_write = true ∧
      n.get NReg.ACC_IGNORED_count = min (s.nld.get NReg.ACC_IGNORED_count + 1) NReg.ACC_IGNORED_count.max ∧
      n.get f = s.nld.get f ∧ Nld.only [.regs, .hwErr] s.nld n := by
  obtain ⟨hb, ha, hr, -, -, -, -⟩ := nldPlain_block f hf
  obtain ⟨hkey, hpend, -⟩ := nldPlain_key f hf
  refine .of_onNld (fun n => n.writeBar 0 (BitVec.ofNat 24 f.base).toNat v.toNat false) rfl h ?_
  rw [nldPlain_toNat f hf, Nld.writeBar_partial hp hb ha hr]
  exact s.nld.after_ignoredWrite 1 hkey hpend

/-- R336, R704: a write before boot stage 5 is ignored and reported. -/
theorem nldWrite_early_does (h : s.nld.runs) (hp : s.nld.pkg.resetting = false) (h5 : s.nld.bootStage < 5) :
    NldDoes (.registerWrite (.nld 0 (BitVec.ofNat 24 f.base) v true)) s fun n =>
      n.bit NReg.ACC_EVT_early_write = true ∧
      n.get NReg.ACC_IGNORED_count = min (s.nld.get NReg.ACC_IGNORED_count + 1) NReg.ACC_IGNORED_count.max ∧
      n.get f = s.nld.get f ∧ Nld.only [.regs, .hwErr] s.nld n := by
  obtain ⟨hb, ha, hr, -, -, -, hs⟩ := nldPlain_block f hf
  obtain ⟨hkey, hpend, -⟩ := nldPlain_key f hf
  have he : s.nld.earlyAt 0 f.base = true := by simp [Nld.earlyAt, hs, h5]
  refine .of_onNld (fun n => n.writeBar 0 (BitVec.ofNat 24 f.base).toNat v.toNat true) rfl h ?_
  rw [nldPlain_toNat f hf, Nld.writeBar_early hp hb ha hr he]
  exact s.nld.after_ignoredWrite 2 hkey hpend

end

/-! ### The PF's interrupt registers (R700) -/

theorem nldFields_irqPend : nldFields (nldAddr 0 0x340004) = [(NReg.IRQ_PEND_pend, 0)] := by decide +kernel
theorem nldFields_irqEn : nldFields (nldAddr 0 0x340008) = [(NReg.IRQ_EN_en, 0)] := by decide +kernel

theorem irqPend_part (w : Nat) : NReg.IRQ_PEND_pend.part w = w % 2 ^ 18 := by simp [Fld.part, Fld.width, NReg.IRQ_PEND_pend]
theorem irqEn_part (w : Nat) : NReg.IRQ_EN_en.part w = w % 2 ^ 18 := by simp [Fld.part, Fld.width, NReg.IRQ_EN_en]

section
variable (n : Nld) (w : Nat)

theorem Nld.writeHard_irqEn : n.writeHard false 0 0x340008 w = Nld.rearm n (n.put NReg.IRQ_EN_en (w % 2 ^ 18)) := by
  rw [Nld.writeHard_fields rfl, nldFields_irqEn, ← irqEn_part]
  rfl

theorem Nld.writeHard_irqPend : n.writeHard false 0 0x340004 w = Nld.rearm n (n.put NReg.IRQ_PEND_pend
    (n.get NReg.IRQ_PEND_pend - (n.get NReg.IRQ_PEND_pend &&& w % 2 ^ 18))) := by
  rw [Nld.writeHard_fields rfl, nldFields_irqPend, ← irqPend_part]
  rfl

end

/-- What a write of an interrupt register, arming vector 0 again, leaves: no source has risen, and a set that is not empty has its
message. -/
theorem Nld.after_rearm_put {b : Nld} {f : Fld} {v : Nat} (hq : nldEventSource (f.key 0 / 32) (f.key 0 % 32) = none)
    (hr : NReg.TICK_CTRL_run.key 0 ≠ f.key 0) {n : Nld} (hn : n = Nld.after b (Nld.rearm b (b.put f v))) :
    (∀ (g : Fld) (j : Nat), n.get g j = (b.put f v).get g j) ∧
    (n.irqSet ≠ 0 → b.vecMasked 0 0 = false → b.emits n (.msix 0 0)) := by
  have hsig := Nld.rearm_signalled b (b.put f v)
  have hrun : (b.put f v).bit NReg.TICK_CTRL_run = b.bit NReg.TICK_CTRL_run := b.put_run v hr
  have hrun' := (hsig.bit NReg.TICK_CTRL_run 0).trans hrun
  have hsrc : (b.put f v).irqSrc = b.irqSrc := b.irqSrc_put hq v
  have hsrc' := hsig.irqSrc.trans hsrc
  refine ⟨fun g j => ?_, fun hset hv => ?_⟩
  · rw [hn, Nld.after_quiet_get hrun' hsrc', hsig.get]
  · rw [hn, Nld.after_quiet_irqSet hrun' hsrc', hsig.irqSet] at hset
    have hv' : (b.put f v).vecMasked 0 0 = false := hv
    rw [hn, Nld.emits_congr (a := b) (b := b.put f v) rfl]
    exact Nld.after_rearm_emits hrun hsrc hset hv'

section
variable {s : State} (h : s.nld.writable) (v : Word)
include h

theorem nldIrqEn_does : NldDoes (.nldIrqWrite true v) s fun n =>
    n.get NReg.IRQ_EN_en = v.toNat % 2 ^ 18 ∧ n.get NReg.IRQ_PEND_pend = s.nld.get NReg.IRQ_PEND_pend ∧
    (n.irqSet ≠ 0 → s.nld.vecMasked 0 0 = false → s.nld.emits n (.msix 0 0)) ∧
    Nld.only [.regs] s.nld n ∧ Nld.regsOnly [(NReg.IRQ_EN_en, 0)] s.nld n := by
  refine .of_onNld (fun n => n.writeBar 0 0x340008 v.toNat true) rfl h.1 ?_
  rw [Nld.writeBar_hard h rfl rfl rfl rfl rfl, Nld.writeHard_irqEn]
  obtain ⟨hget, hmsg⟩ := Nld.after_rearm_put (b := s.nld) (f := NReg.IRQ_EN_en) (v := v.toNat % 2 ^ 18) rfl (by decide) rfl
  obtain ⟨hen, hframe⟩ := Nld.after_put (f := NReg.IRQ_EN_en) (Nld.rearm_signalled s.nld (s.nld.put NReg.IRQ_EN_en (v.toNat % 2 ^ 18)))
    (by decide) (by decide)
  refine ⟨hen.trans (Nat.mod_mod _ _), ?_, hmsg, hframe⟩
  rw [hget, Nld.get_put_ne _ _ _ _ _ _ (by decide)]

theorem nldIrqPend_does : NldDoes (.nldIrqWrite false v) s fun n =>
    n.get NReg.IRQ_PEND_pend = (s.nld.get NReg.IRQ_PEND_pend - (s.nld.get NReg.IRQ_PEND_pend &&& v.toNat % 2 ^ 18)) % 2 ^ 18 ∧
    (n.irqSet ≠ 0 → s.nld.vecMasked 0 0 = false → s.nld.emits n (.msix 0 0)) ∧ Nld.only [] s.nld n := by
  refine .of_onNld (fun n => n.writeBar 0 0x340004 v.toNat true) rfl h.1 ?_
  rw [Nld.writeBar_hard h rfl rfl rfl rfl rfl, Nld.writeHard_irqPend]
  generalize s.nld.get NReg.IRQ_PEND_pend - (s.nld.get NReg.IRQ_PEND_pend &&& v.toNat % 2 ^ 18) = u
  obtain ⟨hget, hmsg⟩ := Nld.after_rearm_put (b := s.nld) (f := NReg.IRQ_PEND_pend) (v := u) rfl (by decide) rfl
  have hsig := Nld.rearm_signalled s.nld (s.nld.put NReg.IRQ_PEND_pend u)
  have hrun := (hsig.bit NReg.TICK_CTRL_run 0).trans (s.nld.put_run u (by decide))
  refine ⟨(hget _ _).trans (Nld.get_put_same _ _ _ _), hmsg, fun x hx => ?_⟩
  cases x with
  | regs => exact fun f i hf => (hget f i).trans (Nld.get_put_ne _ _ _ _ _ _ hf)
  | _ => exact (Nld.same_after hrun _ _).2 ((hsig.same _ _).2 (Nld.only_put (s.nld.only_refl [.regs]) (by decide) _ _ _ _ (by decide)))

end

/-! ### A VF's interrupt registers (R708) -/

theorem nldFields_vfEn : ∀ p : Fin 16, nldFields (nldAddr (p.val + 1) 0x1024) = [(NReg.VF_EN_en, p.val)] := by decide +kernel

/-- The partition events that a write of 1 clears. -/
def vfEventFields : List Fld :=
  [NReg.VF_EVT_run_fault, NReg.VF_EVT_abort, NReg.VF_EVT_fw_state, NReg.VF_EVT_window, NReg.VF_EVT_epoch, NReg.VF_EVT_members]

theorem nldFields_vfEvt : ∀ p : Fin 16, nldFields (nldAddr (p.val + 1) 0x1020) =
    (NReg.VF_EVT_hq, p.val) :: vfEventFields.map (fun f => (f, p.val)) := by decide +kernel

/-- Clear an event of a VF where a word has a 1. -/
def Nld.clearEvent (p w : Nat) (n : Nld) (f : Fld) : Nld := n.put f (n.get f p - (n.get f p &&& f.part w)) p

/-- Clear the partition events of a VF that a word names. -/
def Nld.clearVfEvents (n : Nld) (p w : Nat) : Nld := vfEventFields.foldl (Nld.clearEvent p w) n

/-- The registers of a VF below its commands hold no command. -/
theorem Nld.writeCmd_vf (n : Nld) {a : Nat} (h : 0x1000000 ≤ a) (h' : a % 0x10000 ≠ 0x18) (w : Nat) : n.writeCmd a w = n := by
  unfold Nld.writeCmd
  repeat rw [if_neg (by omega)]

theorem nldAddr_vf (p off : Nat) : nldAddr (p + 1) off = 0x1010000 + 0x10000 * p + off := by
  simp only [nldAddr, Nat.add_one_ne_zero, if_false]; omega

section
variable (p : Fin 16)

theorem Nld.rearmAt_vf (b n : Nld) {off : Nat} (h : off = 0x1020 ∨ off = 0x1024) :
    Nld.rearmAt b n (nldAddr (p.val + 1) off) = Nld.rearmVf b n p.val := by
  have hp := p.isLt
  rw [nldAddr_vf]
  unfold Nld.rearmAt
  rw [if_neg (by omega), if_pos (by omega), show (0x1010000 + 0x10000 * p.val + off - 0x1010000) / 0x10000 = p.val by omega]

/-- Where the two registers lie: aligned words of the VF's BAR, outside every block with a rule of its own. -/
theorem vfIrq_block {off : Nat} (h : off = 0x1020 ∨ off = 0x1024) : inBar (p.val + 1) off = true ∧ off % 4 = 0 ∧
    reservedBlock (p.val + 1) off = false ∧ identityBlock (p.val + 1) off = false ∧ emulatedBlock (p.val + 1) off = false ∧
    inMsix (p.val + 1) off = false := by
  rcases h with rfl | rfl <;> simp [inBar, reservedBlock, identityBlock, emulatedBlock, inMsix, msixBase]

variable (n : Nld) (w : Nat)

theorem Nld.writeHard_vfEn : n.writeHard false (p.val + 1) 0x1024 w =
    Nld.rearmVf n (n.put NReg.VF_EN_en (NReg.VF_EN_en.part w) p.val) p.val := by
  obtain ⟨-, -, -, -, -, hm⟩ := vfIrq_block p (.inr rfl)
  rw [Nld.writeHard_fields hm, Nld.rearmAt_vf p _ _ (.inr rfl), nldFields_vfEn,
    Nld.writeCmd_vf _ (by rw [nldAddr_vf]; omega) (by rw [nldAddr_vf]; omega)]
  rfl

theorem Nld.writeHard_vfEvt : n.writeHard false (p.val + 1) 0x1020 w = Nld.rearmVf n (n.clearVfEvents p.val w) p.val := by
  obtain ⟨-, -, -, -, -, hm⟩ := vfIrq_block p (.inl rfl)
  rw [Nld.writeHard_fields hm, Nld.rearmAt_vf p _ _ (.inl rfl), nldFields_vfEvt,
    Nld.writeCmd_vf _ (by rw [nldAddr_vf]; omega) (by rw [nldAddr_vf]; omega)]
  rfl

end

section
variable (n : Nld) (p w : Nat)

theorem vfEventFields_place : ∀ f ∈ vfEventFields, f.base = 0x1011020 ∧ f.stride = 0x10000 := by decide

/-- The events of a VF lie above every register of the PF. -/
theorem vfEvent_key_gt {f : Fld} (hf : f ∈ vfEventFields) {k : Nat} (hk : k < 0x1000000 * 32) : k ≠ f.key p := by
  obtain ⟨hbase, -⟩ := vfEventFields_place f hf
  simp only [Fld.key, Fld.addr, hbase]; omega

/-- Two events of a VF at different bits of its word. -/
theorem vfEvent_key_ne {f g : Fld} (hf : f ∈ vfEventFields) (hg : g ∈ vfEventFields) (h : f.lo ≠ g.lo) : f.key p ≠ g.key p := by
  obtain ⟨hfb, hfs⟩ := vfEventFields_place f hf
  obtain ⟨hgb, hgs⟩ := vfEventFields_place g hg
  simp only [Fld.key, Fld.addr, hfb, hfs, hgb, hgs]; omega

theorem Nld.get_foldl_clearEvent_ne {l : List Fld} {g : Fld} (h : ∀ f ∈ l, g.key p ≠ f.key p) :
    (l.foldl (Nld.clearEvent p w) n).get g p = n.get g p :=
  List.foldlRecOn l (Nld.clearEvent p w) (motive := fun m => m.get g p = n.get g p) rfl
    fun _ hm f hf => (Nld.get_put_ne _ _ _ _ _ _ (h f hf)).trans hm

theorem Nld.clearVfEvents_run : (n.clearVfEvents p w).bit NReg.TICK_CTRL_run = n.bit NReg.TICK_CTRL_run :=
  List.foldlRecOn vfEventFields (Nld.clearEvent p w) (motive := fun m => m.bit NReg.TICK_CTRL_run = n.bit NReg.TICK_CTRL_run) rfl
    fun m hm _ hf => (m.put_run _ (vfEvent_key_gt p hf (by decide))).trans hm

theorem Nld.clearVfEvents_only : Nld.only [.regs] n (n.clearVfEvents p w) :=
  List.foldlRecOn vfEventFields (Nld.clearEvent p w) (motive := Nld.only [.regs] n) (n.only_refl _)
    fun _ hm _ _ => Nld.only_put hm (List.mem_singleton_self _) _ _ _

theorem Nld.clearVfEvents_regsOnly : Nld.regsOnly (vfEventFields.map (fun f => (f, p))) n (n.clearVfEvents p w) :=
  List.foldlRecOn vfEventFields (Nld.clearEvent p w) (motive := Nld.regsOnly (vfEventFields.map (fun f => (f, p))) n)
    (n.regsOnly_refl _) fun _ hm _ hf => Nld.regsOnly_put hm (List.mem_map_of_mem hf) _

/-- Of the events of a VF, abort is cleared second. -/
theorem Nld.clearVfEvents_abort : (n.clearVfEvents p w).get NReg.VF_EVT_abort p =
    (n.get NReg.VF_EVT_abort p - (n.get NReg.VF_EVT_abort p &&& NReg.VF_EVT_abort.part w)) % 2 := by
  have hrest : ∀ f ∈ [NReg.VF_EVT_fw_state, NReg.VF_EVT_window, NReg.VF_EVT_epoch, NReg.VF_EVT_members],
      f ∈ vfEventFields ∧ NReg.VF_EVT_abort.lo ≠ f.lo := by decide
  have hfirst : NReg.VF_EVT_abort.key p ≠ NReg.VF_EVT_run_fault.key p := vfEvent_key_ne p (by decide) (by decide) (by decide)
  show (List.foldl (Nld.clearEvent p w) (Nld.clearEvent p w (Nld.clearEvent p w n NReg.VF_EVT_run_fault) NReg.VF_EVT_abort)
    [NReg.VF_EVT_fw_state, NReg.VF_EVT_window, NReg.VF_EVT_epoch, NReg.VF_EVT_members]).get _ p = _
  rw [Nld.get_foldl_clearEvent_ne _ p w fun f hf => vfEvent_key_ne p (by decide) (hrest f hf).1 (hrest f hf).2, Nld.clearEvent,
    Nld.get_put_same, Nld.clearEvent, Nld.get_put_ne _ _ _ _ _ _ hfirst]
  rfl

end

/-- A one-bit event that is written 1 is cleared, and one that is written 0 is kept. -/
theorem clearedBit_eq {x w i : Nat} (h : x ≤ 1) : (x - (x &&& w / 2 ^ i % 2)) % 2 = if bitOf w i = true then 0 else x := by
  have hx : x = 0 ∨ x = 1 := by omega
  unfold bitOf
  rcases hx with rfl | rfl <;> rcases Nat.mod_two_eq_zero_or_one (w / 2 ^ i) with hb | hb <;> simp [hb]

section
variable {s : State} (h : s.nld.writable) (v : Word) (p : Fin 16)
include h

theorem vfIrqEn_does : NldDoes (.vfIrqWrite p true v) s fun n =>
    n.get NReg.VF_EN_en p.val = v.toNat % 2 ^ 7 ∧ Nld.only [.regs] s.nld n ∧ Nld.regsOnly [(NReg.VF_EN_en, p.val)] s.nld n := by
  obtain ⟨hb, ha, hr, hi, he, -⟩ := vfIrq_block p (.inr rfl)
  refine .of_onNld (fun n => n.writeBar (p.val + 1) 0x1024 v.toNat true) rfl h.1 ?_
  rw [Nld.writeBar_hard h hb ha hr hi he, Nld.writeHard_vfEn]
  have hpart : NReg.VF_EN_en.part v.toNat = v.toNat % 2 ^ 7 := by simp [Fld.part, Fld.width, NReg.VF_EN_en]
  have hrun : NReg.TICK_CTRL_run.key 0 ≠ NReg.VF_EN_en.key p.val := by
    simp only [Fld.key, Fld.addr, NReg.TICK_CTRL_run, NReg.VF_EN_en]; omega
  have hpend : NReg.VF_EN_en.key p.val ≠ NReg.IRQ_PEND_pend.key 0 := by
    simp only [Fld.key, Fld.addr, NReg.IRQ_PEND_pend, NReg.VF_EN_en]; omega
  obtain ⟨hget, hframe⟩ := Nld.after_put (Nld.rearmVf_signalled s.nld (s.nld.put NReg.VF_EN_en (NReg.VF_EN_en.part v.toNat) p.val)
    p.val) hrun hpend
  refine ⟨?_, hframe⟩
  rw [hget, hpart]
  exact Nat.mod_mod _ _

theorem vfIrqEvt_does : NldDoes (.vfIrqWrite p false v) s fun n =>
    (s.nld.get NReg.VF_EVT_abort p ≤ 1 →
      n.get NReg.VF_EVT_abort p = (if bitOf v.toNat 4 = true then 0 else s.nld.get NReg.VF_EVT_abort p)) ∧
    Nld.only [.regs] s.nld n ∧ Nld.regsOnly (vfEventFields.map (fun f => (f, p.val))) s.nld n := by
  obtain ⟨hb, ha, hr, hi, he, -⟩ := vfIrq_block p (.inl rfl)
  refine .of_onNld (fun n => n.writeBar (p.val + 1) 0x1020 v.toNat true) rfl h.1 ?_
  rw [Nld.writeBar_hard h hb ha hr hi he, Nld.writeHard_vfEvt]
  have hsig := Nld.rearmVf_signalled s.nld (s.nld.clearVfEvents p.val v.toNat) p.val
  have hrun := (hsig.bit NReg.TICK_CTRL_run 0).trans (s.nld.clearVfEvents_run p.val v.toNat)
  refine ⟨fun habt => ?_, (Nld.only_after hrun _ _).2 ((hsig.only _ _).2 (s.nld.clearVfEvents_only _ _)),
    (Nld.regsOnly_after hrun _ _).2 ((hsig.regsOnly _ _).2 (s.nld.clearVfEvents_regsOnly _ _))⟩
  rw [Nld.after_get hrun _ _ (vfEvent_key_gt p.val (f := NReg.VF_EVT_abort) (by decide) (by decide)).symm, hsig.get,
    Nld.clearVfEvents_abort]
  exact clearedBit_eq habt

end

/-! ### The statement -/

/-- Settles O52: the reads, the plain words and the interrupt registers are a lemma each. -/
theorem nldRegisterAccess : Obligations.NldRegisterAccess := by
  unfold Obligations.NldRegisterAccess
  refine ⟨fun s fn a hw hb ha he hm hp c hc => ?_, fun s v f hf => ⟨nldWrite_plain_does hf v, fwWrite_plain_does hf v,
    fun h hfw => fwWrite_stopped_does v h hfw _, nldWrite_partial_does hf v, nldWrite_early_does hf v⟩,
    fun s v h => ⟨nldIrqEn_does h v, nldIrqPend_does h v, fun p => ⟨vfIrqEn_does h v p, vfIrqEvt_does h v p⟩⟩⟩
  have hexec : exec c s = onNld (fun n => n.readBar fn.val a.toNat) s := by
    rcases List.mem_pair.1 hc with rfl | rfl <;> rfl
  exact nldRead_does hexec hw hb ha he hm hp

end Sys2Proof.Machine
end

section
/-! SUPPORT. What the stages of a firing tick leave alone (R21 to R24, R155): the parts of the KTU they do not name, the digest
epochs, the registers that number the tick, and what waits upstream. -/

namespace Sys2Proof.Machine

-- One theorem at a time: elaborated side by side, those of this text need more stacks than the check has memory for.
set_option Elab.async false

open Sys2Proof

/-! ### The relation -/

/-- The registers of the tick contract that a firing tick sets by itself (R68, R255). -/
def tickRegs : List Fld :=
  [KReg.TICK_PERIOD_period_us, KReg.TICK_NUM_LO_tick_lo, KReg.TICK_NUM_HI_tick_hi, KReg.TICK_SKIP_skipped, KReg.CODEC_HELD_held]

/-- Copy `i` of a field lies elsewhere than the tick registers. -/
abbrev Fld.apart (f : Fld) (i : Nat) : Prop := ∀ g ∈ tickRegs, g.key 0 ≠ f.key i

/-- The keys of the tick registers. -/
theorem Fld.apart_iff {f : Fld} {i : Nat} : f.apart i ↔
    0x30080 ≠ f.key i ∧ 0x30100 ≠ f.key i ∧ 0x30180 ≠ f.key i ∧ 0x30200 ≠ f.key i ∧ 0x160200 ≠ f.key i := by
  simp only [Fld.apart, tickRegs, List.forall_mem_cons, List.not_mem_nil, false_implies, implies_true, and_true]
  rfl

/-- Between two KTUs only the parts in `l`, and the digest regions whose phase is in `ps`, have moved; the tick registers hold what
they held, and what waited upstream still waits. -/
structure Ktu.Keeps (l : List KPart) (ps : List Nat) (a b : Ktu) : Prop where
  only : Ktu.only l a b
  regions : ∀ r, (a.region r).phase ∉ ps → b.region r = a.region r
  regs : ∀ f ∈ tickRegs, b.get f = a.get f
  sent : ∀ m, a.fife.up.waits m → b.fife.up.waits m

theorem Ktu.same_trans {a b c : Ktu} {x : KPart} (h₁ : Ktu.same a b x) (h₂ : Ktu.same b c x) : Ktu.same a c x := by
  cases x with
  | pins =>
    have h := congrArg (fun p : KPins => { p with wakeLatch := a.pins.wakeLatch, wakeOnce := a.pins.wakeOnce }) h₂
    exact h.trans h₁
  | fife =>
    have h := congrArg (fun f : KFife => { f with up := a.fife.up, dn := a.fife.dn, sleepPhase := a.fife.sleepPhase,
                                                  wakeOwed := a.fife.wakeOwed }) h₂
    exact h.trans h₁
  | latches => exact ⟨h₂.1.trans h₁.1, h₂.2.trans h₁.2⟩
  | rest => exact ⟨h₂.1.trans h₁.1, h₂.2.1.trans h₁.2.1, h₂.2.2.trans h₁.2.2⟩
  | _ => exact Eq.trans h₂ h₁

theorem Ktu.only_trans {l : List KPart} {a b c : Ktu} (h₁ : Ktu.only l a b) (h₂ : Ktu.only l b c) : Ktu.only l a c :=
  fun x hx => Ktu.same_trans (h₁ x hx) (h₂ x hx)

theorem Ktu.only_mono {l l' : List KPart} {a b : Ktu} (h : Ktu.only l a b) (hl : ∀ x ∈ l, x ∈ l') : Ktu.only l' a b :=
  fun x hx => h x (fun hm => hx (hl x hm))

section
variable {l l' : List KPart} {ps ps' : List Nat} {a b c : Ktu}

theorem Ktu.Keeps.refl (l : List KPart) (ps : List Nat) (k : Ktu) : Ktu.Keeps l ps k k :=
  ⟨k.only_refl l, fun _ _ => rfl, fun _ _ => rfl, fun _ h => h⟩

/-- A further stage that moves no more. -/
theorem Ktu.Keeps.step (h : Ktu.Keeps l ps a b) (h' : Ktu.Keeps l' ps' b c) (hl : ∀ x ∈ l', x ∈ l := by decide)
    (hp : ∀ p ∈ ps', p ∈ ps := by decide) : Ktu.Keeps l ps a c where
  only := Ktu.only_trans h.only (Ktu.only_mono h'.only hl)
  regions r hr := by
    have hb := h.regions r hr
    exact (h'.regions r fun hm => hr (hb ▸ hp _ hm)).trans hb
  regs f hf := (h'.regs f hf).trans (h.regs f hf)
  sent m hm := h'.sent m (h.sent m hm)

theorem Ktu.Keeps.mono (h : Ktu.Keeps l' ps' a b) (hl : ∀ x ∈ l', x ∈ l := by decide) (hp : ∀ p ∈ ps', p ∈ ps := by decide) :
    Ktu.Keeps l ps a b := (Ktu.Keeps.refl l ps a).step h hl hp

theorem Ktu.Keeps.foldl {α : Type} {f : Ktu → α → Ktu} (xs : List α) (k : Ktu)
    (h : ∀ (k : Ktu), ∀ x ∈ xs, Ktu.Keeps l ps k (f k x)) : Ktu.Keeps l ps k (xs.foldl f k) :=
  List.foldlRecOn xs f (motive := Ktu.Keeps l ps k) (.refl l ps k) fun b hb x hx =>
    hb.step (h b x hx) (fun _ h => h) (fun _ h => h)

/-- The same for an operation that carries a report along. -/
theorem Ktu.Keeps.foldl_fst {α β : Type} {f : Ktu × β → α → Ktu × β} (xs : List α) (x : Ktu × β)
    (h : ∀ (x : Ktu × β), ∀ e ∈ xs, Ktu.Keeps l ps x.1 (f x e).1) : Ktu.Keeps l ps x.1 (xs.foldl f x).1 :=
  List.foldlRecOn xs f (motive := fun y => Ktu.Keeps l ps x.1 y.1) (.refl l ps x.1) fun b hb e he =>
    hb.step (h b e he) (fun _ h => h) (fun _ h => h)

/-- An operation that touches no register, no region and not the upstream end. -/
theorem Ktu.Keeps.of_only (h : Ktu.only l a b) (hr : b.regs = a.regs) (hc : b.check.regions = a.check.regions)
    (hu : b.fife.up.tx = a.fife.up.tx) : Ktu.Keeps l [] a b where
  only := h
  regions r _ := by rw [Ktu.region, hc, Ktu.region]
  regs f _ := by rw [Ktu.get, hr, Ktu.get]
  sent m hm := by simpa [LinkEnd.waits, hu] using hm

end

/-! ### Registers -/

theorem Ktu.only_regs (k : Ktu) (r : Regs) : Ktu.only [.regs] k { k with regs := r } := by
  intro x hx
  cases x <;> simp [Ktu.same] at hx ⊢

section
variable (k : Ktu) {f : Fld} {i : Nat} (v : Nat)

theorem Ktu.put_keeps (h : f.apart i) : Ktu.Keeps [.regs] [] k (k.put f v i) :=
  ⟨k.only_regs _, fun _ _ => rfl, fun g hg => Ktu.get_put_ne _ _ _ _ _ _ (h g hg), fun _ hm => hm⟩

theorem Ktu.count_keeps (h : f.apart i) : Ktu.Keeps [.regs] [] k (k.count f v i) :=
  ⟨k.only_regs _, fun _ _ => rfl, fun g hg => Ktu.get_count_ne _ _ _ _ _ _ (h g hg), fun _ hm => hm⟩

theorem irqPend_apart : Fld.apart KReg.IRQ_PEND_pend 0 := by decide

theorem Ktu.raise_keeps (h : f.apart i) : Ktu.Keeps [.regs] [] k (k.raise f v i) where
  only := by
    obtain ⟨r, hr⟩ := k.raise_eq f v i
    rw [hr]; exact k.only_regs r
  regions r _ := by simp [Ktu.region]
  regs g hg := Ktu.get_raise_ne _ _ _ _ _ _ (h g hg) (irqPend_apart g hg)
  sent m hm := by simpa using hm

end

/-! ### The other parts -/

section
variable (k : Ktu)

theorem Ktu.setRing_keeps (u : Nat) (r : TailRing) : Ktu.Keeps [.tail] [] k (k.setRing u r) :=
  .of_only (by intro x hx; cases x <;> simp [Ktu.same] at hx ⊢) rfl rfl rfl

theorem Ktu.setSrc_keeps (s : Nat) (t : TraceSource) : Ktu.Keeps [.trace] [] k (k.setSrc s t) :=
  .of_only (by intro x hx; cases x <;> simp [Ktu.same] at hx ⊢) rfl rfl rfl

theorem Ktu.setHalt_keeps (j : Nat) (c : HaltCtx) : Ktu.Keeps [.halts] [] k (k.setHalt j c) :=
  .of_only (by intro x hx; cases x <;> simp [Ktu.same] at hx ⊢) rfl rfl rfl

theorem Ktu.setRuns_keeps (l : List PatRun) : Ktu.Keeps [.check] [] k (k.setRuns l) :=
  .of_only (by intro x hx; cases x <;> simp [Ktu.same] at hx ⊢) rfl rfl rfl

theorem Ktu.withCnt_keeps (c : KCounters) : Ktu.Keeps [.counters] [] k { k with cnt := c } :=
  .of_only (by intro x hx; cases x <;> simp [Ktu.same] at hx ⊢) rfl rfl rfl

theorem Ktu.withCodec_keeps (c : KCodec) : Ktu.Keeps [.codec] [] k { k with codec := c } :=
  .of_only (by intro x hx; cases x <;> simp [Ktu.same] at hx ⊢) rfl rfl rfl

/-- The windows in force, and those written since the last boundary. -/
theorem Ktu.withWindows_keeps (w : Tbl Nat) (l : List Nat) :
    Ktu.Keeps [.check] [] k { k with check := { k.check with win := w, winNext := l } } :=
  .of_only (by intro x hx; cases x <;> simp [Ktu.same] at hx ⊢) rfl rfl rfl

theorem Ktu.sendUp_keeps (m : Msg) : Ktu.Keeps [] [] k (k.sendUp m) :=
  ⟨(k.only_sendUp m [] k).2 (k.only_refl []), fun _ _ => rfl, fun _ _ => rfl, fun _ h => LinkEnd.waits_queue h _ _ _⟩

/-- A region moves only in the phase it has. -/
theorem Ktu.setRegion_keeps (r : Nat) (g : DigRegion) : Ktu.Keeps [.check] [(k.region r).phase] k (k.setRegion r g) where
  only := by intro x hx; cases x <;> simp [Ktu.same] at hx ⊢
  regions j hj := by
    have hne : j ≠ r := fun h => hj (h ▸ List.mem_singleton_self _)
    simp [Ktu.region, Ktu.setRegion, hne]
  regs _ _ := rfl
  sent _ h := h

end

end Sys2Proof.Machine
end

section
/-! SUPPORT. What a firing tick does by its parts: the operations on trace sources, Tail rings, pattern runs, digest epochs and halt
contexts that it calls, and what each leaves alone (R173, R183, R188, R198, R537 to R540, R547 to R550). -/

namespace Sys2Proof.Machine

-- One theorem at a time: elaborated side by side, those of this text need more stacks than the check has memory for.
set_option Elab.async false

open Sys2Proof

/-! ### Trace sources and Tail rings -/

section
variable (k : Ktu)

theorem Ktu.generate_keeps (s type payload : Nat) : Ktu.Keeps [.trace] [] k (k.generate s type payload) := k.setSrc_keeps _ _

theorem Ktu.markDrops_keeps (s : Nat) : Ktu.Keeps [.trace] [] k (k.markDrops s) := by
  unfold Ktu.markDrops
  simp only []
  split
  · exact .refl _ _ _
  · exact k.setSrc_keeps _ _

theorem Ktu.markAllDrops_keeps : Ktu.Keeps [.trace] [] k k.markAllDrops :=
  .foldl _ k fun k s _ => k.markDrops_keeps s

theorem trcDrops_apart {s : Nat} (h : s < 16) : Fld.apart KReg.TRC_DROPs_drops s := by
  simp only [Fld.apart_iff, Fld.key, Fld.addr, KReg.TRC_DROPs_drops]
  omega

theorem Ktu.dropRecord_keeps {s : Nat} (h : s < 16) (prio time : Nat) :
    Ktu.Keeps [.trace, .regs] [] k (k.dropRecord s prio time) :=
  ((k.setSrc_keeps _ _).mono).step (Ktu.count_keeps _ _ (trcDrops_apart h))

theorem Ktu.srcOwnerChange_keeps {s : Nat} (h : s < 16) (ho : Fld.apart KReg.TRC_SRCs_owner s) (new : Nat) :
    Ktu.Keeps [.trace, .regs] [] k (k.srcOwnerChange s new) := by
  have hdrop (k : Ktu) (q : List TraceItem) :
      Ktu.Keeps [.trace, .regs] [] k (q.foldl (fun k i => k.dropRecord s i.prio.val i.time.toNat) k) :=
    .foldl q k fun k i _ => k.dropRecord_keeps h _ _
  exact (((((k.setSrc_keeps _ _).mono).step (hdrop _ _)).step (Ktu.markDrops_keeps _ s)).step (Ktu.put_keeps _ new ho)).step
    (Ktu.generate_keeps _ _ _ _)

theorem Ktu.tailOwnerChange_keeps {b : Nat} (ho : Fld.apart KReg.TAIL_OWNb_owner b) (owner : Nat) :
    Ktu.Keeps [.tail, .regs] [] k (k.tailOwnerChange b owner) :=
  (Ktu.Keeps.foldl _ k fun k _ _ => (k.setRing_keeps _ _).mono).step (Ktu.put_keeps _ _ ho)

theorem Ktu.freezeRings_keeps (cause : Nat) (us : List Nat) : Ktu.Keeps [.tail] [] k (k.freezeRings cause us) := by
  refine .foldl us k fun k u _ => ?_
  unfold Ktu.freezeRing
  split
  · exact k.setRing_keeps _ _
  · exact .refl _ _ _

theorem Ktu.haltMarkers_keeps (scope h : Nat) : Ktu.Keeps [.trace] [] k (k.haltMarkers scope h) := by
  refine .foldl _ k fun k s _ => ?_
  split
  · exact k.generate_keeps _ _ _
  · exact .refl _ _ _

end

/-! ### Pattern runs -/

section
variable (k : Ktu) (r : PatRun) (n : Nat)

theorem patEnded_apart : Fld.apart KReg.PAT_EVT_ended 0 := by decide
theorem patRuns_apart : Fld.apart KReg.PAT_RUNS_count 0 := by decide
theorem patId_apart : Fld.apart KReg.PAT_ID_pattern_id 0 := by decide

theorem Ktu.endRun_keeps (status : Nat) : Ktu.Keeps [.check, .regs] [] k (k.endRun r status) :=
  ((((k.setRuns_keeps _).mono).step (Ktu.sendUp_keeps _ _)).step (Ktu.raise_keeps _ _ patEnded_apart)).step
    (Ktu.count_keeps _ _ patRuns_apart)

theorem Ktu.startRun_keeps : Ktu.Keeps [.check, .regs] [] k (k.startRun r) :=
  ((k.setRuns_keeps _).mono).step (Ktu.put_keeps _ _ patId_apart)

theorem Ktu.startDue_keeps : Ktu.Keeps [.check, .regs] [] k k.startDue := by
  unfold Ktu.startDue
  split
  · exact .refl _ _ _
  · split
    · exact .refl _ _ _
    · split
      · exact k.endRun_keeps _ _
      · exact k.startRun_keeps _

theorem Ktu.dueRun_keeps : Ktu.Keeps [.check, .regs] [] k (k.dueRun n r) := by
  unfold Ktu.dueRun
  split
  · exact .refl _ _ _
  · split
    · exact (k.setRuns_keeps _).mono
    · exact k.endRun_keeps _ _

theorem Ktu.stopRun_keeps : Ktu.Keeps [.check, .regs] [] k (k.stopRun n r) := by
  unfold Ktu.stopRun
  split
  · exact k.endRun_keeps _ _
  · exact .refl _ _ _

theorem Ktu.applyWindows_keeps : Ktu.Keeps [.check] [] k k.applyWindows := by
  refine Ktu.Keeps.step ?_ (Ktu.withWindows_keeps _ _ [])
  exact .foldl _ k fun k d _ => k.withWindows_keeps _ k.check.winNext

theorem Ktu.patternTick_keeps : Ktu.Keeps [.check, .regs] [] k (k.patternTick n) :=
  (((k.applyWindows_keeps.mono).step (.foldl _ _ fun k r _ => k.stopRun_keeps r n)).step
    (.foldl _ _ fun k r _ => k.dueRun_keeps r n)).step (Ktu.startDue_keeps _)

theorem Ktu.interruptRuns_keeps (hit : Nat → Bool) : Ktu.Keeps [.check, .regs] [] k (k.interruptRuns hit) := by
  refine Ktu.Keeps.step (.foldl _ k fun k r _ => ?_) (Ktu.startDue_keeps _)
  split
  · exact k.endRun_keeps _ _
  · exact .refl _ _ _

end

/-! ### Digest epochs -/

section
variable (k : Ktu) (r n : Nat)

theorem digClosed_apart : Fld.apart KReg.DIG_EVT_closed 0 := by decide
theorem digInterrupted_apart : Fld.apart KReg.DIG_EVT_interrupted 0 := by decide

/-- Only an open region is closed. -/
theorem Ktu.closeRegion_keeps : Ktu.Keeps [.check, .regs] [2] k (k.closeRegion n r) := by
  unfold Ktu.closeRegion
  simp only []
  split
  · next h =>
    have hset := k.setRegion_keeps r (k.region r).idle
    rw [h.1] at hset
    exact ((hset.mono).step (Ktu.sendUp_keeps _ _)).step (Ktu.raise_keeps _ _ digClosed_apart)
  · exact .refl _ _ _

/-- Only an open region is interrupted. -/
theorem Ktu.interruptRegion_keeps : Ktu.Keeps [.check, .regs] [2] k (k.interruptRegion r) := by
  unfold Ktu.interruptRegion
  split
  · next h =>
    have hset := k.setRegion_keeps r (k.region r).idle
    rw [h] at hset
    exact (hset.mono).step (Ktu.raise_keeps _ _ digInterrupted_apart)
  · exact .refl _ _ _

theorem Ktu.regionOwnerChange_keeps (ho : Fld.apart KReg.DIG_OWNr_owner r) (new : Nat) :
    Ktu.Keeps [.check, .regs] [2] k (k.regionOwnerChange r new) :=
  (k.interruptRegion_keeps r).step (Ktu.put_keeps _ _ ho)

/-- Only a pending region is opened. -/
theorem Ktu.openRegion_keeps : Ktu.Keeps [.check] [1] k (k.openRegion r) := by
  unfold Ktu.openRegion
  simp only []
  split
  · next h =>
    have hset := k.setRegion_keeps r { k.region r with phase := 2, lastEpoch := (k.region r).epoch, lines := 0, d0 := 0, d1 := 0 }
    rwa [h] at hset
  · exact .refl _ _ _

end

/-! ### Halt contexts -/

section
variable (k : Ktu) (scope n : Nat)

/-- What entering Halting does beside the context itself. -/
theorem Ktu.enterHalting_keeps (h : Nat) :
    Ktu.Keeps [.tail, .trace, .check, .regs] [] (k.setHalt scope { k.halt scope with state := .halting, h := h })
      (k.enterHalting scope h) :=
  (((Ktu.freezeRings_keeps _ 5 _).mono).step (Ktu.haltMarkers_keeps _ _ _)).step (Ktu.interruptRuns_keeps _ _)

theorem Ktu.actResume_keeps : Ktu.Keeps [.halts] [] k (k.actResume scope) := by
  unfold Ktu.actResume
  simp only []
  split
  · exact .refl _ _ _
  · exact .refl _ _ _
  · exact k.setHalt_keeps _ _
  · exact k.setHalt_keeps _ _
  · exact k.setHalt_keeps _ _
  · exact k.setHalt_keeps _ _

end

end Sys2Proof.Machine
end

section
/-! SUPPORT. What the staged changes of a boundary leave alone (R150, R153, R155, R158 to R160, R246, R247). -/

namespace Sys2Proof.Machine

-- One theorem at a time: elaborated side by side, those of this text need more stacks than the check has memory for.
set_option Elab.async false

open Sys2Proof

/-! ### The staged fields -/

theorem rwtFields_apart : ∀ f ∈ rwtFields, ∀ g ∈ tickRegs, f.indexAt (g.key 0 / 32) = none := by decide +kernel

/-- A staged field is named by the key it lies at, and is none of the tick registers. -/
theorem stagedField_apart {key i : Nat} {f : Fld} (h : stagedField key = some (f, i)) : f.apart i ∧ f.indexAt (key / 32) = some i := by
  obtain ⟨g, hg, hf⟩ := List.exists_of_findSome?_eq_some h
  simp only [Option.ite_none_right_eq_some, Option.map_eq_some_iff, Prod.mk.injEq] at hf
  obtain ⟨hlo, j, hj, rfl, rfl⟩ := hf
  refine ⟨fun t ht he => ?_, hj⟩
  have hkey : g.key j = key := by
    rw [Fld.key, Fld.addr_of_indexAt hj, hlo]; omega
  have hnone := rwtFields_apart g hg t ht
  rw [he, hkey, hj] at hnone
  exact absurd hnone (by simp)

theorem Fld.lt_count_of_indexAt {f : Fld} {a i : Nat} (hs : f.stride ≠ 0) (h : f.indexAt a = some i) : i < f.count := by
  simp only [Fld.indexAt, if_neg hs, Option.ite_none_right_eq_some, Option.some.injEq] at h
  obtain ⟨⟨-, -, hlt⟩, rfl⟩ := h
  exact hlt

theorem pmuApplied_apart (i : Nat) : Fld.apart KReg.PMUi_STATUS_cfg_applied i := by
  simp only [Fld.apart_iff, Fld.key, Fld.addr, KReg.PMUi_STATUS_cfg_applied]
  omega

theorem pmuEnable_apart (i : Nat) : Fld.apart KReg.PMUi_CTRL_enable i := by
  simp only [Fld.apart_iff, Fld.key, Fld.addr, KReg.PMUi_CTRL_enable]
  omega

theorem slotWidth_apart (g : Nat) : Fld.apart KReg.SLOTg_CTRL_width g := by
  simp only [Fld.apart_iff, Fld.key, Fld.addr, KReg.SLOTg_CTRL_width]
  omega

theorem tableRefused_apart : Fld.apart KReg.CODEC_STATUS_tbl_refused 0 := by decide
theorem tableId_apart : Fld.apart KReg.CODEC_CTRL_table_id 0 := by decide
theorem codecRatio_apart : Fld.apart KReg.CODEC_CTRL_ratio 0 := by decide

/-! ### Staged values in force -/

section
variable (k : Ktu)

theorem Ktu.putStaged_keeps (l : List (Nat × Nat)) : Ktu.Keeps [.regs] [] k (k.putStaged l) := by
  refine .foldl l k fun k e _ => ?_
  split
  · next h => exact k.put_keeps _ (stagedField_apart h).1
  · exact .refl _ _ _

theorem Ktu.unstage_keeps (lo hi : Nat) : Ktu.Keeps [.counters] [] k (k.unstage lo hi) := k.withCnt_keeps _

theorem Ktu.clearSet_keeps (inSet : Nat → Bool) : Ktu.Keeps [.counters] [] k (k.clearSet inSet).1 := k.withCnt_keeps _

/-- An owner change clears rings, flushes a source or ends an open epoch. -/
theorem Ktu.applyOther_keeps (e : Nat × Nat) : Ktu.Keeps [.regs, .tail, .trace, .check] [2] k (k.applyOther e) := by
  unfold Ktu.applyOther
  split
  · exact .refl _ _ _
  · next f i h =>
    obtain ⟨hap, hix⟩ := stagedField_apart h
    split
    · next hf => exact (k.tailOwnerChange_keeps (hf ▸ hap) _).mono
    · split
      · next hf =>
        have hlt : i < 16 := Fld.lt_count_of_indexAt (f := KReg.TRC_SRCs_owner) (by decide) (hf ▸ hix)
        exact (k.srcOwnerChange_keeps hlt (hf ▸ hap) _).mono
      · split
        · next hf => exact (k.regionOwnerChange_keeps i (hf ▸ hap) _).mono
        · exact (k.put_keeps _ hap).mono

end

/-! ### The coder's settings -/

/-- R246: the table a staged table_id names, if it has been loaded. -/
def Ktu.applyTableId (k : Ktu) : Ktu :=
  match k.staged? KReg.CODEC_CTRL_table_id 0 with
  | none => k
  | some t =>
    if t ≥ 2 ∧ (k.table t).lens.isEmpty then k.raise KReg.CODEC_STATUS_tbl_refused
    else k.put KReg.CODEC_CTRL_table_id t

/-- R247: a staged ratio. -/
def Ktu.applyRatio (k : Ktu) : Ktu :=
  match k.staged? KReg.CODEC_CTRL_ratio 0 with
  | none => k
  | some r => k.put KReg.CODEC_CTRL_ratio r

section
variable (k : Ktu)

theorem Ktu.applyCodec_eq : k.applyCodec = k.applyTables.applyTableId.applyRatio.unstage 0xB000 0xB001 := rfl

theorem Ktu.applyTableId_keeps : Ktu.Keeps [.regs] [] k k.applyTableId := by
  unfold Ktu.applyTableId
  split
  · exact .refl _ _ _
  · split
    · exact k.raise_keeps _ tableRefused_apart
    · exact k.put_keeps _ tableId_apart

theorem Ktu.applyRatio_keeps : Ktu.Keeps [.regs] [] k k.applyRatio := by
  unfold Ktu.applyRatio
  split
  · exact .refl _ _ _
  · exact k.put_keeps _ codecRatio_apart

/-- Beside the tables, the coder's settings are registers. -/
theorem Ktu.applyCodec_keeps_codec : Ktu.Keeps [.regs, .counters] [] k.applyTables k.applyCodec := by
  rw [Ktu.applyCodec_eq]
  exact ((k.applyTables.applyTableId_keeps.mono).step (Ktu.applyRatio_keeps _)).step (Ktu.unstage_keeps _ _ _)

theorem Ktu.applyCodec_keeps : Ktu.Keeps [.regs, .counters, .codec] [] k k.applyCodec :=
  ((k.withCodec_keeps _).mono).step k.applyCodec_keeps_codec

end

/-! ### Every staged change of a boundary -/

/-- R158: the staged values outside the counters take effect. -/
def Ktu.applyOthers (k : Ktu) : Ktu :=
  ((k.cnt.staged.filter (fun e => decide (e.1 / 32 ≥ 0x8000))).foldl Ktu.applyOther k).unstage 0x8000 0x10000

/-- R150, R153, R158: the staged changes of the schema, the series map, the instances and the slot groups. -/
def Ktu.applyCounters (k : Ktu) : Ktu × Applied :=
  let x := Ktu.applySchema (k, {})
  let x := k.cnt.smapStaged.foldl Ktu.applyMap x
  (List.range 32).foldl Ktu.applySlot ((List.range 256).foldl Ktu.applyPmu x)

section
variable (x : Ktu × Applied)

theorem Ktu.applySchema_keeps : Ktu.Keeps [.regs, .counters] [] x.1 (Ktu.applySchema x).1 := by
  unfold Ktu.applySchema
  simp only []
  split
  · exact .refl _ _ _
  · exact ((x.1.putStaged_keeps _).mono).step (Ktu.unstage_keeps _ _ _)

theorem Ktu.applyMap_keeps (e : Nat × Nat) : Ktu.Keeps [.counters] [] x.1 (Ktu.applyMap x e).1 := by
  unfold Ktu.applyMap
  simp only []
  split
  · exact .refl _ _ _
  · exact x.1.withCnt_keeps _

theorem Ktu.applyPmu_keeps (i : Nat) : Ktu.Keeps [.regs, .counters] [] x.1 (Ktu.applyPmu x i).1 := by
  unfold Ktu.applyPmu
  simp only []
  split
  · exact .refl _ _ _
  · refine Ktu.Keeps.step ?_ (Ktu.raise_keeps _ _ (pmuApplied_apart i))
    refine Ktu.Keeps.step ?_ (Ktu.withCnt_keeps _ _)
    refine Ktu.Keeps.step ?_ (Ktu.clearSet_keeps _ _)
    have hput := ((x.1.putStaged_keeps (x.1.stagedIn (0x4000 + 64 * i) (0x4000 + 64 * i + 64))).mono
      (l := [.regs, .counters]) (ps := [])).step (Ktu.unstage_keeps _ (0x4000 + 64 * i) (0x4000 + 64 * i + 64))
    split
    · exact hput.step (Ktu.put_keeps _ _ (pmuEnable_apart i))
    · exact hput

theorem Ktu.applySlot_keeps (g : Nat) : Ktu.Keeps [.regs, .counters] [] x.1 (Ktu.applySlot x g).1 := by
  unfold Ktu.applySlot
  simp only []
  split
  · exact .refl _ _ _
  · refine Ktu.Keeps.step ?_ (Ktu.withCnt_keeps _ _)
    refine Ktu.Keeps.step ?_ (Ktu.clearSet_keeps _ _)
    have hput := ((x.1.putStaged_keeps (x.1.stagedIn (0x2800 + 64 * g) (0x2800 + 64 * g + 64))).mono
      (l := [.regs, .counters]) (ps := [])).step (Ktu.unstage_keeps _ (0x2800 + 64 * g) (0x2800 + 64 * g + 64))
    split
    · exact hput.step (Ktu.put_keeps _ _ (slotWidth_apart g))
    · exact hput

end

section
variable (k : Ktu)

theorem Ktu.applyStaged_eq : k.applyStaged = k.applyCodec.applyOthers.applyCounters := rfl

theorem Ktu.applyOthers_keeps : Ktu.Keeps [.regs, .tail, .trace, .check, .counters] [2] k k.applyOthers :=
  .step (.foldl _ k fun k e _ => (k.applyOther_keeps e).mono) (Ktu.unstage_keeps _ _ _)

theorem Ktu.applyCounters_keeps : Ktu.Keeps [.regs, .counters] [] k k.applyCounters.1 := by
  have hmap (l : List (Nat × Nat)) (x : Ktu × Applied) : Ktu.Keeps [.counters] [] x.1 (l.foldl Ktu.applyMap x).1 :=
    .foldl_fst l x fun x e _ => Ktu.applyMap_keeps x e
  have hpmu (x : Ktu × Applied) : Ktu.Keeps [.regs, .counters] [] x.1 ((List.range 256).foldl Ktu.applyPmu x).1 :=
    .foldl_fst _ x fun x i _ => Ktu.applyPmu_keeps x i
  have hslot (x : Ktu × Applied) : Ktu.Keeps [.regs, .counters] [] x.1 ((List.range 32).foldl Ktu.applySlot x).1 :=
    .foldl_fst _ x fun x g _ => Ktu.applySlot_keeps x g
  simp only [Ktu.applyCounters]
  exact (((Ktu.applySchema_keeps (k, {})).step (hmap _ _)).step (hpmu _)).step (hslot _)

/-- R155: the staged changes move counters, registers and what an owner change clears; only an open epoch can end. -/
theorem Ktu.applyStaged_keeps : Ktu.Keeps [.regs, .counters, .codec, .tail, .trace, .check] [2] k k.applyStaged.1 := by
  rw [Ktu.applyStaged_eq]
  exact ((k.applyCodec_keeps.mono).step (Ktu.applyOthers_keeps _)).step (Ktu.applyCounters_keeps _)

/-- Of the coder, the staged changes move the tables alone. -/
theorem Ktu.applyStaged_codec : k.applyStaged.1.codec = k.applyTables.codec := by
  have h : Ktu.Keeps [.regs, .counters, .tail, .trace, .check] [2] k.applyTables k.applyStaged.1 := by
    rw [Ktu.applyStaged_eq]
    exact ((k.applyCodec_keeps_codec.mono).step (Ktu.applyOthers_keeps _)).step (Ktu.applyCounters_keeps _)
  exact h.only .codec (by decide)

end

end Sys2Proof.Machine
end

section
/-! SUPPORT. The coder finishes the frame it holds (R235, R236, R249, R252 to R255): what it stores, what it reports, and what it
leaves alone. -/

namespace Sys2Proof.Machine

-- One theorem at a time: elaborated side by side, those of this text need more stacks than the check has memory for.
set_option Elab.async false

open Sys2Proof

/-! ### Bytes -/

@[simp] theorem leBytes_length (n v : Nat) : (leBytes n v).length = n := by
  induction n generalizing v with
  | zero => rfl
  | succ n ih => simp [leBytes, ih]

theorem leNat_leBytes (n v : Nat) : leNat (leBytes n v) = v % 256 ^ n := by
  induction n generalizing v with
  | zero => simp [leBytes, leNat, Nat.mod_one]
  | succ n ih =>
    have h8 : (BitVec.ofNat 8 v).toNat = v % 256 := by simp
    rw [leBytes, leNat, ih, h8, pow_succ', Nat.mod_mul]

/-- A number written behind `a` bytes is read there. -/
theorem fieldAt_leBytes {a b : List Byte} {n v : Nat} : fieldAt (a ++ (leBytes n v ++ b)) a.length n = v % 256 ^ n := by
  have htake : ((a ++ (leBytes n v ++ b)).drop a.length).take n = leBytes n v := by
    rw [List.drop_left, List.take_left' (leBytes_length n v)]
  rw [fieldAt, htake, leNat_leBytes]

/-- R235: the tick of a frame lies at byte 8 of its header. -/
theorem FrameHeader.fieldAt_tick (h : FrameHeader) (body : List Byte) : fieldAt (h.bytes ++ body) 8 6 = h.tick % 2 ^ 48 := by
  have hbytes : h.bytes ++ body =
      (leBytes 2 h.magic ++ leBytes 1 h.version ++ leBytes 1 (h.resv3 + h.ratio * 4 + h.table * 16) ++ leBytes 4 h.addr) ++
      (leBytes 6 h.tick ++ (leBytes 2 h.period ++ leBytes 4 h.partMask ++ leBytes 2 h.schema ++ leBytes 2 h.flags ++
        leBytes 2 h.span ++ leBytes 2 h.tableGen ++ leBytes 4 h.seq ++ body)) := by
    simp only [FrameHeader.bytes, List.append_assoc]
  rw [hbytes, show (2 : Nat) ^ 48 = 256 ^ 6 by norm_num]
  exact fieldAt_leBytes

/-! ### Frames of the registers -/

theorem Ktu.regsOnly_refl (l : List (Fld × Nat)) (k : Ktu) : Ktu.regsOnly l k k := fun _ _ _ => rfl

theorem Ktu.regsOnly_step {l l' : List (Fld × Nat)} {a b c : Ktu} (h : Ktu.regsOnly l a b) (h' : Ktu.regsOnly l' b c)
    (hl : ∀ x ∈ l', x ∈ l := by decide) : Ktu.regsOnly l a c :=
  fun f i hf => (h' f i fun x hx => hf x (hl x hx)).trans (h f i hf)

theorem Ktu.regsOnly_foldl {α : Type} {l : List (Fld × Nat)} {f : Ktu → α → Ktu} (xs : List α) (k : Ktu)
    (h : ∀ (k : Ktu), ∀ x ∈ xs, Ktu.regsOnly l k (f k x)) : Ktu.regsOnly l k (xs.foldl f k) :=
  List.foldlRecOn xs f (motive := Ktu.regsOnly l k) (k.regsOnly_refl l) fun b hb x hx => Ktu.regsOnly_step hb (h b x hx) fun _ h => h

theorem Ktu.regsOnly_raise (k : Ktu) (f : Fld) (v i : Nat) :
    Ktu.regsOnly [(f, i), (KReg.IRQ_PEND_pend, 0)] k (k.raise f v i) :=
  fun g j h => Ktu.get_raise_ne k f g v i j (h (f, i) (by simp)) (h (KReg.IRQ_PEND_pend, 0) (by simp))

/-! ### Carries -/

section
variable (k : Ktu) (l : List Nat)

theorem codecDrops_apart : Fld.apart KReg.CODEC_CDROP_drops 0 := by decide

/-- R252: of the coder, discarding carries moves carries alone. -/
theorem Ktu.discardCarries_codec : ∃ c, (k.discardCarries l).codec = { k.codec with carry := c } := by
  refine List.foldlRecOn l _ (motive := fun m : Ktu => ∃ c, m.codec = { k.codec with carry := c }) ⟨k.codec.carry, rfl⟩ ?_
  rintro m ⟨c, hm⟩ s -
  split
  · exact ⟨c, hm⟩
  · exact ⟨Tbl.erase s m.codec.carry, by simp [hm]⟩

theorem Ktu.discardCarries_keeps : Ktu.Keeps [.regs, .codec] [] k (k.discardCarries l) := by
  refine .foldl l k fun k s _ => ?_
  split
  · exact .refl _ _ _
  · exact ((k.withCodec_keeps _).mono).step (Ktu.count_keeps _ _ codecDrops_apart)

theorem Ktu.discardCarries_regsOnly : Ktu.regsOnly [(KReg.CODEC_CDROP_drops, 0)] k (k.discardCarries l) := by
  refine Ktu.regsOnly_foldl l k fun k s _ => ?_
  split
  · exact k.regsOnly_refl _
  · exact Ktu.regsOnly_count _ _ _ _

theorem codecEccUe_apart : Fld.apart KReg.CODEC_STATUS_ecc_ue 0 := by decide

theorem Ktu.carryUe_keeps : Ktu.Keeps [.regs, .codec] [] k (k.carryUe l) := by
  unfold Ktu.carryUe
  split
  · exact .refl _ _ _
  · exact ((k.raise_keeps _ codecEccUe_apart).mono).step (Ktu.withCodec_keeps _ _)

theorem Ktu.carryUe_codec : ∃ c, (k.carryUe l).codec = { k.codec with carry := c } := by
  unfold Ktu.carryUe
  split
  · exact ⟨k.codec.carry, rfl⟩
  · exact ⟨k.codec.carry.filter (fun e => !l.contains e.1), by simp⟩

/-- R253: a carry in error is reported. -/
theorem Ktu.carryUe_reports (h : l ≠ []) : (k.carryUe l).get KReg.CODEC_STATUS_ecc_ue % 2 = 1 := by
  have hraise : (k.carryUe l).get KReg.CODEC_STATUS_ecc_ue = (k.raise KReg.CODEC_STATUS_ecc_ue).get KReg.CODEC_STATUS_ecc_ue := by
    simp [Ktu.carryUe, h, Ktu.get]
  rw [hraise, Ktu.get_raise_same _ _ _ _ (by decide)]
  have hw : KReg.CODEC_STATUS_ecc_ue.width = 1 := rfl
  rw [hw, pow_one, Nat.mod_mod, Nat.or_mod_two_eq_one]
  exact .inr rfl

end

/-! ### The frame -/

/-- R255, R256: the frame coded takes its place in the store, and the next one the next number. -/
def Ktu.storeFrame (k : Ktu) (c : Tbl Nat) (f : StoredFrame) : Ktu :=
  { k with codec := { k.codec with carry := c, job := none, seq := (k.codec.seq + 1) % 2 ^ 32, store := k.codec.store ++ [f] } }

/-- R252, R264: what the coder reports of a frame. -/
def Ktu.reportFrame (k : Ktu) (lossy sat ovf reconf : Bool) : Ktu :=
  let k := if lossy then (k.raise KReg.CODEC_STATUS_lossy_frame).count KReg.CODEC_LOSSY_frames else k
  let k := if sat then k.raise KReg.CODEC_STATUS_carry_sat else k
  let k := if ovf then k.raise KReg.CNT_STATUS_ovf_frame else k
  if reconf then k.raise KReg.CNT_STATUS_reconfig_frame else k

/-- The registers that report a frame. -/
def reportRegs : List (Fld × Nat) :=
  [(KReg.CODEC_STATUS_lossy_frame, 0), (KReg.CODEC_LOSSY_frames, 0), (KReg.CODEC_STATUS_carry_sat, 0),
   (KReg.CNT_STATUS_ovf_frame, 0), (KReg.CNT_STATUS_reconfig_frame, 0), (KReg.IRQ_PEND_pend, 0)]

theorem lossyFrame_apart : Fld.apart KReg.CODEC_STATUS_lossy_frame 0 := by decide
theorem codecLossy_apart : Fld.apart KReg.CODEC_LOSSY_frames 0 := by decide
theorem carrySat_apart : Fld.apart KReg.CODEC_STATUS_carry_sat 0 := by decide
theorem ovfFrame_apart : Fld.apart KReg.CNT_STATUS_ovf_frame 0 := by decide
theorem reconfigFrame_apart : Fld.apart KReg.CNT_STATUS_reconfig_frame 0 := by decide
theorem maxShift_apart : Fld.apart KReg.CODEC_LAST_max_shift 0 := by decide
theorem lossyBlocks_apart : Fld.apart KReg.CODEC_LAST_lossy_blocks 0 := by decide
theorem frameSeq_apart : Fld.apart KReg.FRAME_SEQ_seq 0 := by decide

theorem Ktu.Keeps.ite {l : List KPart} {ps : List Nat} {a b : Ktu} (c : Bool) (h : Ktu.Keeps l ps a b) :
    Ktu.Keeps l ps a (if c then b else a) := by
  split
  · exact h
  · exact .refl l ps a

theorem Ktu.regsOnly_ite {l : List (Fld × Nat)} {a b : Ktu} (c : Bool) (h : Ktu.regsOnly l a b) :
    Ktu.regsOnly l a (if c then b else a) := by
  split
  · exact h
  · exact a.regsOnly_refl l

section
variable (k : Ktu) (lossy sat ovf reconf : Bool)

theorem Ktu.reportFrame_keeps : Ktu.Keeps [.regs] [] k (k.reportFrame lossy sat ovf reconf) :=
  (((Ktu.Keeps.ite lossy ((k.raise_keeps _ lossyFrame_apart).step (Ktu.count_keeps _ _ codecLossy_apart))).step
    (.ite sat (Ktu.raise_keeps _ _ carrySat_apart))).step (.ite ovf (Ktu.raise_keeps _ _ ovfFrame_apart))).step
    (.ite reconf (Ktu.raise_keeps _ _ reconfigFrame_apart))

theorem Ktu.reportFrame_regsOnly : Ktu.regsOnly reportRegs k (k.reportFrame lossy sat ovf reconf) := by
  have hlossy : Ktu.regsOnly reportRegs k ((k.raise KReg.CODEC_STATUS_lossy_frame).count KReg.CODEC_LOSSY_frames) :=
    Ktu.regsOnly_step (Ktu.regsOnly_step (k.regsOnly_refl _) (k.regsOnly_raise _ 1 0)) (Ktu.regsOnly_count _ _ 1 0)
  exact Ktu.regsOnly_step (Ktu.regsOnly_step (Ktu.regsOnly_step (Ktu.regsOnly_ite lossy hlossy)
    (Ktu.regsOnly_ite sat (Ktu.regsOnly_raise _ _ 1 0))) (Ktu.regsOnly_ite ovf (Ktu.regsOnly_raise _ _ 1 0)))
    (Ktu.regsOnly_ite reconf (Ktu.regsOnly_raise _ _ 1 0))

end

/-- The frame of a job takes its place in the store; what it held of the last frame, and its number, are reported. -/
def Ktu.closeJob (k : Ktu) (c : Tbl Nat) (f : StoredFrame) (shift blocks : Nat) : Ktu :=
  (((k.storeFrame c f).put KReg.CODEC_LAST_max_shift shift).put KReg.CODEC_LAST_lossy_blocks blocks).put
    KReg.FRAME_SEQ_seq k.codec.seq

section
variable (k : Ktu) (j : CodeJob) (ue : List Nat)

/-- R235, R255: coding a job stores one frame, whose header has the job's tick. -/
theorem Ktu.codeJob_eq : ∃ (c : Tbl Nat) (bytes : List Byte) (shift blocks : Nat) (lossy sat ovf : Bool),
    fieldAt bytes 8 6 = j.tick % 2 ^ 48 ∧
    k.codeJob j ue = ((((k.carryUe ue).closeJob c { tick := j.tick, ratio := j.ratio, bytes := bytes } shift blocks).reportFrame
      lossy sat ovf j.reconfigured).discardCarries j.discard) := by
  refine ⟨_, _, _, _, _, _, _, ?_, rfl⟩
  rw [List.append_assoc, FrameHeader.fieldAt_tick]

theorem Ktu.closeJob_keeps (c : Tbl Nat) (f : StoredFrame) (shift blocks : Nat) :
    Ktu.Keeps [.regs, .codec] [] k (k.closeJob c f shift blocks) :=
  (((k.withCodec_keeps _).mono.step (Ktu.put_keeps _ _ maxShift_apart)).step (Ktu.put_keeps _ _ lossyBlocks_apart)).step
    (Ktu.put_keeps _ _ frameSeq_apart)

theorem Ktu.codeJob_keeps : Ktu.Keeps [.regs, .codec] [] k (k.codeJob j ue) := by
  obtain ⟨c, bytes, shift, blocks, lossy, sat, ovf, -, h⟩ := k.codeJob_eq j ue
  rw [h]
  exact (((k.carryUe_keeps ue).step (Ktu.closeJob_keeps _ _ _ _ _)).step (Ktu.reportFrame_keeps _ _ _ _ _)).step
    (Ktu.discardCarries_keeps _ _)

theorem Ktu.frameCoded_keeps : Ktu.Keeps [.regs, .codec] [] k (k.frameCoded ue) := by
  unfold Ktu.frameCoded
  split
  · exact .refl _ _ _
  · exact k.codeJob_keeps _ ue

theorem Ktu.frameCoded_none {k : Ktu} (h : k.codec.job = none) : k.frameCoded ue = k := by
  simp [Ktu.frameCoded, h]

theorem Ktu.frameCoded_some {k : Ktu} {j : CodeJob} (h : k.codec.job = some j) : k.frameCoded ue = k.codeJob j ue := by
  simp [Ktu.frameCoded, h]

/-- R235, R255, R256: the coder after a job. -/
theorem Ktu.codeJob_codec : ∃ (c : Tbl Nat) (bytes : List Byte), fieldAt bytes 8 6 = j.tick % 2 ^ 48 ∧
    (k.codeJob j ue).codec = { k.codec with carry := c, job := none, seq := (k.codec.seq + 1) % 2 ^ 32,
                                            store := k.codec.store ++ [{ tick := j.tick, ratio := j.ratio, bytes := bytes }] } := by
  obtain ⟨c, bytes, shift, blocks, lossy, sat, ovf, hf, h⟩ := k.codeJob_eq j ue
  obtain ⟨c₁, h₁⟩ := k.carryUe_codec ue
  obtain ⟨c₂, h₂⟩ := Ktu.discardCarries_codec (((k.carryUe ue).closeJob c
    { tick := j.tick, ratio := j.ratio, bytes := bytes } shift blocks).reportFrame lossy sat ovf j.reconfigured) j.discard
  have hreport := fun m : Ktu => (m.reportFrame_keeps lossy sat ovf j.reconfigured).only .codec (by decide)
  refine ⟨c₂, bytes, hf, ?_⟩
  rw [h, h₂, hreport]
  simp [Ktu.closeJob, Ktu.storeFrame, h₁]

/-- R264: KTU_FRAME_SEQ holds the number of the frame coded. -/
theorem Ktu.codeJob_frameSeq : (k.codeJob j ue).get KReg.FRAME_SEQ_seq = k.codec.seq % 2 ^ 32 := by
  obtain ⟨c, bytes, shift, blocks, lossy, sat, ovf, -, h⟩ := k.codeJob_eq j ue
  obtain ⟨c₁, h₁⟩ := k.carryUe_codec ue
  rw [h, Ktu.discardCarries_regsOnly _ _ _ _ (by decide), Ktu.reportFrame_regsOnly _ _ _ _ _ _ _ (by decide), Ktu.closeJob,
    Ktu.get_put_same, h₁]
  rfl

/-- R253: what the check of the carries reported stays. -/
theorem Ktu.codeJob_eccUe : (k.codeJob j ue).get KReg.CODEC_STATUS_ecc_ue = (k.carryUe ue).get KReg.CODEC_STATUS_ecc_ue := by
  obtain ⟨c, bytes, shift, blocks, lossy, sat, ovf, -, h⟩ := k.codeJob_eq j ue
  rw [h, Ktu.discardCarries_regsOnly _ _ _ _ (by decide), Ktu.reportFrame_regsOnly _ _ _ _ _ _ _ (by decide), Ktu.closeJob,
    Ktu.get_put_ne _ _ _ _ _ _ (by decide), Ktu.get_put_ne _ _ _ _ _ _ (by decide), Ktu.get_put_ne _ _ _ _ _ _ (by decide)]
  rfl

end

end Sys2Proof.Machine
end

section
/-! SUPPORT. The firing edge of a tick in its stages (R21 to R24, R154, R155, R255, R289, R308): the tick is numbered, open epochs
close, the snapshot makes a baseline or a frame, and what waited for the boundary begins. -/

namespace Sys2Proof.Machine

-- One theorem at a time: elaborated side by side, those of this text need more stacks than the check has memory for.
set_option Elab.async false

open Sys2Proof

/-! ### The stages -/

/-- R21: the tick is counted and numbered, the coder having finished the frame it held. -/
def Ktu.numberTick (n : Nat) (k : Ktu) : Ktu :=
  let k := k.frameCoded []
  let k := k.count KReg.TICK_SKIP_skipped (n - k.time.crossed - 1)
  let k := { k with time := { k.time with lastFired := some n, crossed := n } }
  (k.put KReg.TICK_NUM_LO_tick_lo n).put KReg.TICK_NUM_HI_tick_hi (n / 2 ^ 32)

/-- R539: the epochs that end with the tick close. -/
def Ktu.closeEpochs (n : Nat) (k : Ktu) : Ktu := (List.range 64).foldl (Ktu.closeRegion n) k

/-- R24, R255, R310: the baseline, the frame, or why there is none. -/
def Ktu.takeSnapshot (n : Nat) (x : Ktu × Bool) : Ktu :=
  if x.1.time.baselinePending then x.1.takeBaseline n
  else if x.2 ∧ n % 16 ≠ 15 then x.1.count KReg.FIFE_COAL_count
  else if x.1.storeFull then x.1.count KReg.CODEC_HELD_held
  else x.1.formFrame n

/-- R537: the epochs that waited for the tick open. -/
def Ktu.openEpochs (k : Ktu) : Ktu := (List.range 64).foldl Ktu.openRegion k

/-- R198: the tick acts on every halt context. -/
def Ktu.haltTicks (n : Nat) (k : Ktu) : Ktu := (List.range 17).foldl (Ktu.haltTick n) k

/-- R183, R547, R682: what else ends with the tick. -/
def Ktu.endTick (n : Nat) (k : Ktu) : Ktu := (k.patternTick n).markAllDrops.resetsDone

section
variable (k : Ktu) (n : Nat)

theorem Ktu.fire_eq : k.fire n = Ktu.endTick n (Ktu.haltTicks n (Ktu.openEpochs (Ktu.renewAllowances (Ktu.takeSnapshot n
    (Ktu.sleepTick n (Ktu.closeEpochs n (Ktu.numberTick n k))))))) := by
  unfold Ktu.fire Ktu.endTick Ktu.haltTicks Ktu.openEpochs Ktu.takeSnapshot Ktu.closeEpochs Ktu.numberTick
  generalize List.range 17 = scopes
  generalize List.range 64 = regions
  rfl

/-! ### What each stage leaves alone -/

theorem fifeCoal_apart : Fld.apart KReg.FIFE_COAL_count 0 := by decide
theorem resetDone_apart : Fld.apart KReg.RESET_STATUS_done 0 := by decide

theorem Ktu.closeEpochs_keeps : Ktu.Keeps [.check, .regs] [2] k (k.closeEpochs n) :=
  .foldl _ k fun k r _ => k.closeRegion_keeps r n

theorem Ktu.openEpochs_keeps : Ktu.Keeps [.check] [1] k k.openEpochs := .foldl _ k fun k r _ => k.openRegion_keeps r

theorem Ktu.renewAllowances_keeps : Ktu.Keeps [.fife] [] k k.renewAllowances :=
  .of_only (by intro x hx; cases x <;> simp [Ktu.same, Ktu.renewAllowances] at hx ⊢) rfl rfl rfl

theorem Ktu.resetsDone_keeps : Ktu.Keeps [.rest, .regs] [] k k.resetsDone := by
  unfold Ktu.resetsDone
  split
  · refine Ktu.Keeps.step (l' := [.regs]) (b := { k with resetPending := 0 }) (.of_only ?_ rfl rfl rfl)
      (Ktu.raise_keeps _ _ resetDone_apart)
    intro x hx; cases x <;> simp [Ktu.same] at hx ⊢
  · exact .refl _ _ _

theorem Ktu.endTick_keeps : Ktu.Keeps [.check, .regs, .trace, .rest] [] k (k.endTick n) :=
  (((k.patternTick_keeps n).mono).step (Ktu.markAllDrops_keeps _)).step (Ktu.resetsDone_keeps _)

theorem Ktu.haltTick_eq (scope : Nat) : Ktu.haltTick n k scope =
    if (k.halt scope).resumeAt.any (fun r => decide (r ≤ n)) then k.actResume scope
    else if (k.halt scope).state = .armed ∧ (k.halt scope).h ≤ n then k.enterHalting scope n else k := by
  cases h : (k.halt scope).resumeAt with
  | none => simp [Ktu.haltTick, h]
  | some r => simp [Ktu.haltTick, h]

theorem Ktu.haltTick_keeps (scope : Nat) : Ktu.Keeps [.halts, .tail, .trace, .check, .regs] [] k (Ktu.haltTick n k scope) := by
  rw [Ktu.haltTick_eq]
  split
  · exact (k.actResume_keeps scope).mono
  · split
    · exact ((k.setHalt_keeps _ _).mono).step (k.enterHalting_keeps scope n)
    · exact .refl _ _ _

theorem Ktu.haltTicks_keeps : Ktu.Keeps [.halts, .tail, .trace, .check, .regs] [] k (k.haltTicks n) :=
  .foldl _ k fun k s _ => k.haltTick_keeps n s

theorem Ktu.sendStates_keeps (code : Nat) : Ktu.Keeps [] [] k (k.sendStates code) := by
  have hup : Ktu.Keeps [] [] k (k.setLink true (k.fife.up.sendState code)) :=
    .of_only (by intro x hx; cases x <;> simp [Ktu.same, Ktu.setLink]) rfl rfl (LinkEnd.sendState_tx _ _)
  unfold Ktu.sendStates
  simp only []
  split
  · exact hup
  · refine hup.step (l' := []) (.of_only ?_ rfl rfl rfl)
    intro x hx; cases x <;> simp [Ktu.same, Ktu.setLink]

theorem Ktu.sleepTick_keeps : Ktu.Keeps [.fife] [] k (k.sleepTick n).1 := by
  unfold Ktu.sleepTick
  split
  · exact .refl _ _ _
  · refine Ktu.Keeps.step ((k.sendStates_keeps _).mono) (l' := [.fife]) (.of_only ?_ rfl rfl rfl)
    intro x hx; cases x <;> simp [Ktu.same] at hx ⊢

/-- With no sleep committed the tick reads the state of the upstream link, and nothing else. -/
theorem Ktu.sleepTick_none (h : k.fife.sleepTick = 0) : k.sleepTick n = (k, decide (k.fife.up.lp = 2)) := by
  simp [Ktu.sleepTick, h]

end

end Sys2Proof.Machine
end

section
/-! SUPPORT. What the stages of a firing tick do (R21, R22, R24, R151, R154, R155, R198, R255, R537, R539). -/

namespace Sys2Proof.Machine

-- One theorem at a time: elaborated side by side, those of this text need more stacks than the check has memory for.
set_option Elab.async false

open Sys2Proof

/-- A fold that meets `x` once it holds `P` holds `Q` from there on. -/
theorem foldl_reaches {α β : Type} {f : β → α → β} {P Q : β → Prop} {x : α} (hP : ∀ b y, y ≠ x → P b → P (f b y))
    (hx : ∀ b, P b → Q (f b x)) (hQ : ∀ b y, Q b → Q (f b y)) {l : List α} (hm : x ∈ l) {b : β} (hb : P b) : Q (l.foldl f b) := by
  classical
  induction l generalizing b with
  | nil => simp at hm
  | cons y l ih =>
    by_cases hy : y = x
    · subst hy
      exact List.foldlRecOn l f (motive := Q) (hx b hb) fun b hb y _ => hQ b y hb
    · exact ih ((List.mem_cons.1 hm).resolve_left (Ne.symm hy)) (hP b y hy hb)

section
variable (k : Ktu) (n : Nat)

/-! ### The tick is numbered -/

theorem Ktu.numberTick_only : Ktu.only [.regs, .codec, .time] k (k.numberTick n) := by
  refine Ktu.only_trans (Ktu.only_mono (k.frameCoded_keeps []).only (by decide)) ?_
  intro x hx
  cases x <;> simp [Ktu.same, Ktu.numberTick] at hx ⊢

/-- R22: the tick fired is the last tick fired and the last boundary crossed. -/
theorem Ktu.numberTick_time : (k.numberTick n).time = { k.time with lastFired := some n, crossed := n } := by
  have ht : (k.frameCoded []).time = k.time := (k.frameCoded_keeps []).only .time (by decide)
  simp [Ktu.numberTick, ht]

theorem Ktu.numberTick_lo : (k.numberTick n).get KReg.TICK_NUM_LO_tick_lo = n % 2 ^ 32 := by
  rw [Ktu.numberTick, Ktu.get_put_ne _ _ _ _ _ _ (by decide), Ktu.get_put_same]
  rfl

theorem Ktu.numberTick_hi : (k.numberTick n).get KReg.TICK_NUM_HI_tick_hi = n / 2 ^ 32 % 2 ^ 16 := by
  rw [Ktu.numberTick, Ktu.get_put_same]
  rfl

/-- R22: the boundaries passed over since the last one crossed are counted. -/
theorem Ktu.numberTick_skip : (k.numberTick n).get KReg.TICK_SKIP_skipped =
    min (k.get KReg.TICK_SKIP_skipped + (n - k.time.crossed - 1)) KReg.TICK_SKIP_skipped.max := by
  have hk := k.frameCoded_keeps []
  have ht : (k.frameCoded []).time = k.time := hk.only .time (by decide)
  rw [Ktu.numberTick, Ktu.get_put_ne _ _ _ _ _ _ (by decide), Ktu.get_put_ne _ _ _ _ _ _ (by decide), ht,
    ← hk.regs KReg.TICK_SKIP_skipped (by decide)]
  exact Ktu.get_count_same _ _ _ _

/-! ### Epochs close -/

variable {k n}

/-- R539: the DIGEST of the epoch of a region that closes with tick n. -/
def Ktu.digestAt (k : Ktu) (n r : Nat) : Msg :=
  .digest ⟨k.addr, BitVec.ofNat 6 r, BitVec.ofNat 32 (k.region r).epoch, BitVec.ofNat 48 n, BitVec.ofNat 48 (k.region r).lines,
    BitVec.ofNat 128 ((k.region r).d0 + (k.region r).d1 * 2 ^ 64)⟩

theorem Ktu.closeRegion_eq {r : Nat} (hp : (k.region r).phase = 2) (hc : (k.region r).close ≤ n) :
    k.closeRegion n r = ((k.setRegion r (k.region r).idle).sendUp (k.digestAt n r)).raise KReg.DIG_EVT_closed := by
  simp only [Ktu.closeRegion, hp, hc, and_self, if_true]
  rfl

theorem Ktu.digestAt_congr {a b : Ktu} {r : Nat} (hr : b.region r = a.region r) (ha : b.addr = a.addr) :
    b.digestAt n r = a.digestAt n r := by
  simp only [Ktu.digestAt, hr, ha]

@[simp] theorem Ktu.region_setRegion_same (k : Ktu) (r : Nat) (g : DigRegion) : (k.setRegion r g).region r = g := by
  simp [Ktu.region, Ktu.setRegion]

theorem Ktu.region_setRegion_ne (k : Ktu) {r j : Nat} (h : r ≠ j) (g : DigRegion) : (k.setRegion j g).region r = k.region r := by
  simp [Ktu.region, Ktu.setRegion, h]

theorem Ktu.region_closeRegion_ne (k : Ktu) (n : Nat) {r j : Nat} (h : r ≠ j) : (k.closeRegion n j).region r = k.region r := by
  unfold Ktu.closeRegion
  simp only []
  split
  · rw [← k.region_setRegion_ne h (k.region j).idle]
    simp [Ktu.region]
  · rfl

theorem Ktu.addr_of_same {a b : Ktu} (h : Ktu.same a b .fife) : b.addr = a.addr := by
  have hf := congrArg KFife.addr h
  simp only at hf
  rw [Ktu.addr, hf, Ktu.addr]

/-- R539: an open epoch whose last tick has come closes, and its DIGEST goes upstream. -/
theorem Ktu.closeEpochs_closes {r : Nat} (hr : r < 64) (hp : (k.region r).phase = 2) (hc : (k.region r).close ≤ n) :
    ((k.closeEpochs n).region r).phase = 0 ∧ (k.closeEpochs n).fife.up.waits (k.digestAt n r) := by
  have h := foldl_reaches (f := Ktu.closeRegion n) (P := fun m => m.region r = k.region r ∧ m.addr = k.addr)
    (Q := fun m : Ktu => (m.region r).phase = 0 ∧ m.fife.up.waits (k.digestAt n r)) (x := r) ?_ ?_ ?_ (List.mem_range.2 hr)
    (b := k) ⟨rfl, rfl⟩
  · unfold Ktu.closeEpochs
    exact h
  · rintro m j hj ⟨hreg, haddr⟩
    exact ⟨(m.region_closeRegion_ne n hj.symm).trans hreg,
      (Ktu.addr_of_same ((m.closeRegion_keeps j n).only .fife (by decide))).trans haddr⟩
  · rintro m ⟨hreg, haddr⟩
    rw [Ktu.closeRegion_eq (hreg ▸ hp) (hreg ▸ hc), Ktu.digestAt_congr hreg haddr]
    exact ⟨by simp [Ktu.region, Ktu.setRegion, DigRegion.idle], by simp⟩
  · rintro m j ⟨hphase, hwaits⟩
    have hk := m.closeRegion_keeps j n
    exact ⟨by rw [hk.regions r (by simp [hphase]), hphase], hk.sent _ hwaits⟩

/-! ### Epochs open -/

/-- R537: a pending epoch opens. -/
theorem Ktu.openEpochs_opens {r : Nat} (hr : r < 64) (hp : (k.region r).phase = 1) :
    (k.openEpochs.region r).phase = 2 ∧ (k.openEpochs.region r).lastEpoch = (k.region r).epoch ∧ (k.openEpochs.region r).lines = 0 := by
  refine foldl_reaches (P := fun m => m.region r = k.region r)
    (Q := fun m : Ktu => (m.region r).phase = 2 ∧ (m.region r).lastEpoch = (k.region r).epoch ∧ (m.region r).lines = 0)
    ?_ ?_ ?_ (List.mem_range.2 hr) rfl
  · intro m j hj hreg
    unfold Ktu.openRegion
    simp only []
    split
    · rw [Ktu.region_setRegion_ne _ hj.symm, hreg]
    · exact hreg
  · intro m hreg
    simp [Ktu.openRegion, hreg, hp]
  · rintro m j ⟨hphase, hrest⟩
    rw [(m.openRegion_keeps j).regions r (by simp [hphase])]
    exact ⟨hphase, hrest⟩

/-! ### Halts begin -/

@[simp] theorem Ktu.halt_setHalt_same (k : Ktu) (sc : Nat) (c : HaltCtx) : (k.setHalt sc c).halt sc = c := by
  simp [Ktu.halt, Ktu.setHalt]

theorem Ktu.halt_setHalt_ne (k : Ktu) {sc j : Nat} (h : sc ≠ j) (c : HaltCtx) : (k.setHalt j c).halt sc = k.halt sc := by
  simp [Ktu.halt, Ktu.setHalt, h]

theorem Ktu.halt_enterHalting (k : Ktu) (scope h sc : Nat) :
    (k.enterHalting scope h).halt sc = (k.setHalt scope { k.halt scope with state := .halting, h := h }).halt sc := by
  have hh : (k.enterHalting scope h).halts = _ := (k.enterHalting_keeps scope h).only .halts (by decide)
  rw [Ktu.halt, hh]
  rfl

theorem Ktu.halt_actResume_ne (k : Ktu) {sc j : Nat} (h : sc ≠ j) : (k.actResume j).halt sc = k.halt sc := by
  unfold Ktu.actResume
  simp only []
  split
  · rfl
  · rfl
  · exact k.halt_setHalt_ne h _
  · exact k.halt_setHalt_ne h _
  · exact k.halt_setHalt_ne h _
  · exact k.halt_setHalt_ne h _

theorem Ktu.halt_haltTick_ne (k : Ktu) (n : Nat) {sc j : Nat} (h : sc ≠ j) : (Ktu.haltTick n k j).halt sc = k.halt sc := by
  rw [Ktu.haltTick_eq]
  split
  · exact k.halt_actResume_ne h
  · split
    · rw [Ktu.halt_enterHalting, Ktu.halt_setHalt_ne _ h]
    · rfl

/-- A context that waits for no resume and is not armed for a tick that has come stays as it is. -/
theorem Ktu.haltTick_idle {sc : Nat} (hr : (k.halt sc).resumeAt = none) (hs : (k.halt sc).state = .armed → n < (k.halt sc).h) :
    Ktu.haltTick n k sc = k := by
  have hdue : ¬ ((k.halt sc).state = .armed ∧ (k.halt sc).h ≤ n) := fun ⟨ha, hle⟩ => absurd (hs ha) (by omega)
  rw [Ktu.haltTick_eq, hr, if_neg (by simp), if_neg hdue]

/-- R198: an armed context whose tick has come is Halting, at the tick that fires. -/
theorem Ktu.haltTicks_begins {sc : Nat} (hsc : sc < 17) (ha : (k.halt sc).state = .armed) (hr : (k.halt sc).resumeAt = none)
    (hle : (k.halt sc).h ≤ n) : ((k.haltTicks n).halt sc).state = .halting ∧ ((k.haltTicks n).halt sc).h = n := by
  have h := foldl_reaches (f := Ktu.haltTick n) (P := fun m => m.halt sc = k.halt sc)
    (Q := fun m : Ktu => m.halt sc = { k.halt sc with state := .halting, h := n }) (x := sc) ?_ ?_ ?_ (List.mem_range.2 hsc)
    (b := k) rfl
  · rw [Ktu.haltTicks, h]
    exact ⟨rfl, rfl⟩
  · intro m j hj hm
    rw [m.halt_haltTick_ne n hj.symm, hm]
  · intro m hm
    rw [Ktu.haltTick_eq, hm, hr, if_neg (by simp), if_pos ⟨ha, hle⟩, Ktu.halt_enterHalting, Ktu.halt_setHalt_same, hm]
  · intro m j hm
    by_cases hj : j = sc
    · subst hj
      rw [Ktu.haltTick_idle (by rw [hm]; exact hr) (by rw [hm]; simp), hm]
    · rw [m.halt_haltTick_ne n (Ne.symm hj), hm]

/-- A context armed for a later tick stays as it is. -/
theorem Ktu.haltTicks_early {sc : Nat} (hr : (k.halt sc).resumeAt = none) (hlt : n < (k.halt sc).h) :
    (k.haltTicks n).halt sc = k.halt sc := by
  refine List.foldlRecOn (List.range 17) (Ktu.haltTick n) (motive := fun m => m.halt sc = k.halt sc) rfl fun m hm j _ => ?_
  by_cases hj : j = sc
  · subst hj
    rw [Ktu.haltTick_idle (by rw [hm]; exact hr) (by rw [hm]; exact fun _ => hlt), hm]
  · rw [m.halt_haltTick_ne n (Ne.symm hj), hm]

end

end Sys2Proof.Machine
end

section
/-! SUPPORT. The snapshot of a tick (R24, R151, R154, R155, R252, R255): the baseline, the frame, and what they leave alone. -/

namespace Sys2Proof.Machine

-- One theorem at a time: elaborated side by side, those of this text need more stacks than the check has memory for.
set_option Elab.async false

open Sys2Proof

section
variable (k : Ktu) (n : Nat)

theorem Ktu.baseline_keeps : Ktu.Keeps [.counters] [] k k.baseline := by
  refine .foldl _ k fun k s _ => ?_
  split
  · exact .refl _ _ _
  · exact k.withCnt_keeps _

/-- R151: one series of a snapshot, its delta, new base and remainder given by `delta`. -/
def Ktu.formDelta (delta : Nat → Nat → Nat × Nat × Nat) (acc : Ktu × Tbl Nat) (s : Nat) : Ktu × Tbl Nat :=
  match acc.1.seriesCounter s with
  | none => acc
  | some id =>
    let k := acc.1
    let (d, b, r) := delta (Tbl.get 0 id k.cnt.cnt) (Tbl.get 0 s k.cnt.base)
    ({ k with cnt := { k.cnt with base := Tbl.set 0 s b k.cnt.base, rem := Tbl.set 0 s r k.cnt.rem } },
     Tbl.set 0 s d acc.2)

theorem Ktu.formDeltas_eq : k.formDeltas = k.seriesList.foldl (Ktu.formDelta seriesDelta) (k, []) := by
  unfold Ktu.formDeltas
  congr 1

theorem Ktu.formDelta_keeps (delta : Nat → Nat → Nat × Nat × Nat) (x : Ktu × Tbl Nat) (s : Nat) :
    Ktu.Keeps [.counters] [] x.1 (Ktu.formDelta delta x s).1 := by
  unfold Ktu.formDelta
  split
  · exact .refl _ _ _
  · exact x.1.withCnt_keeps _

theorem Ktu.formDeltas_keeps : Ktu.Keeps [.counters] [] k k.formDeltas.1 := by
  rw [Ktu.formDeltas_eq]
  exact .foldl_fst k.seriesList (k, []) fun x s _ => Ktu.formDelta_keeps seriesDelta x s

/-- A delta is about the counters alone. -/
theorem Ktu.formDelta_congr (delta : Nat → Nat → Nat × Nat × Nat) {x y : Ktu × Tbl Nat} (s : Nat) (hcnt : y.1.cnt = x.1.cnt)
    (htbl : y.2 = x.2) : (Ktu.formDelta delta y s).1.cnt = (Ktu.formDelta delta x s).1.cnt ∧
      (Ktu.formDelta delta y s).2 = (Ktu.formDelta delta x s).2 := by
  have hs : y.1.seriesCounter s = x.1.seriesCounter s := by simp only [Ktu.seriesCounter, hcnt]
  unfold Ktu.formDelta
  rw [hs]
  split
  · exact ⟨hcnt, htbl⟩
  · simp only [hcnt, htbl, and_self]

/-- The deltas of a snapshot are about the counters alone. -/
theorem Ktu.formDeltas_congr {a b : Ktu} (h : b.cnt = a.cnt) : b.formDeltas.2 = a.formDeltas.2 := by
  have hfold (l : List Nat) (x y : Ktu × Tbl Nat) (hcnt : y.1.cnt = x.1.cnt) (htbl : y.2 = x.2) :
      (l.foldl (Ktu.formDelta seriesDelta) y).2 = (l.foldl (Ktu.formDelta seriesDelta) x).2 := by
    induction l generalizing x y with
    | nil => exact htbl
    | cons s l ih =>
      obtain ⟨hc, ht⟩ := Ktu.formDelta_congr seriesDelta s hcnt htbl
      exact ih _ _ hc ht
  have hl : b.seriesList = a.seriesList := by simp only [Ktu.seriesList, h]
  rw [Ktu.formDeltas_eq, Ktu.formDeltas_eq, hl]
  exact hfold _ _ _ h rfl

/-! ### The baseline -/

/-- What a baseline's staged changes and discarded carries make of a KTU. -/
def Ktu.rebase (k : Ktu) : Ktu := k.baseline.applyStaged.1.discardCarries k.baseline.applyStaged.2.discard

theorem Ktu.takeBaseline_eq : k.takeBaseline n = { k.rebase with
    cnt := { k.rebase.cnt with wrapped := [] }, time := { k.rebase.time with prevSnapshot := n, baselinePending := false } } := by
  unfold Ktu.takeBaseline Ktu.rebase
  generalize k.baseline.applyStaged = x
  rfl

theorem Ktu.rebase_keeps : Ktu.Keeps [.regs, .counters, .codec, .tail, .trace, .check] [2] k k.rebase :=
  ((k.baseline_keeps.mono).step (Ktu.applyStaged_keeps _)).step (Ktu.discardCarries_keeps _ _)

/-- A KTU that differs in its counters, its coder and its clocks alone. -/
theorem Ktu.withSnapshot_keeps (c : KCounters) (d : KCodec) (t : KTime) :
    Ktu.Keeps [.counters, .codec, .time] [] k { k with cnt := c, codec := d, time := t } :=
  .of_only (by intro x hx; cases x <;> simp [Ktu.same] at hx ⊢) rfl rfl rfl

theorem Ktu.takeBaseline_keeps : Ktu.Keeps [.regs, .counters, .codec, .tail, .trace, .check, .time] [2] k (k.takeBaseline n) := by
  rw [Ktu.takeBaseline_eq]
  exact (k.rebase_keeps.mono).step (Ktu.withSnapshot_keeps _ _ k.rebase.codec _)

/-- R24: a baseline stands for the tick, and no further one is asked for. -/
theorem Ktu.takeBaseline_time : (k.takeBaseline n).time = { k.time with prevSnapshot := n, baselinePending := false } := by
  have ht : k.rebase.time = k.time := k.rebase_keeps.only .time (by decide)
  rw [Ktu.takeBaseline_eq, ht]

/-- R24: a baseline makes no frame. -/
theorem Ktu.takeBaseline_codec :
    (k.takeBaseline n).codec.job = k.codec.job ∧ (k.takeBaseline n).codec.store = k.codec.store := by
  obtain ⟨c, hc⟩ := Ktu.discardCarries_codec k.baseline.applyStaged.1 k.baseline.applyStaged.2.discard
  have hb : k.baseline.codec = k.codec := k.baseline_keeps.only .codec (by decide)
  rw [Ktu.takeBaseline_eq, Ktu.rebase, hc, Ktu.applyStaged_codec]
  show k.baseline.codec.job = _ ∧ k.baseline.codec.store = _
  rw [hb]
  exact ⟨rfl, rfl⟩

/-! ### The frame -/

/-- The job of the coder that a tick fixes (R154, R255), before and after its staged changes. -/
def Ktu.frameJob (k : Ktu) (n : Nat) : CodeJob :=
  let x := k.formDeltas.1.applyStaged
  { tick := n, span := n - x.1.time.prevSnapshot, ratio := x.1.get KReg.CODEC_CTRL_ratio, table := x.1.get KReg.CODEC_CTRL_table_id,
    overflow := k.wrapSeen, reconfigured := x.2.reconf, partMask := k.partMask, period := x.1.get KReg.TICK_PERIOD_period_us,
    deltas := k.formDeltas.2, poisoned := x.1.cnt.poisoned, schema := k.schemaWord, discard := x.2.discard }

theorem Ktu.formFrame_eq : k.formFrame n =
    { k.formDeltas.1.applyStaged.1 with
      cnt := { k.formDeltas.1.applyStaged.1.cnt with wrapped := [], poisoned := [] },
      codec := { k.formDeltas.1.applyStaged.1.codec with job := some (k.frameJob n) },
      time := { k.formDeltas.1.applyStaged.1.time with prevSnapshot := n } } := by
  unfold Ktu.formFrame Ktu.frameJob
  obtain ⟨d, deltas⟩ := k.formDeltas
  dsimp only

theorem Ktu.formDeltas_applyStaged_keeps :
    Ktu.Keeps [.regs, .counters, .codec, .tail, .trace, .check] [2] k k.formDeltas.1.applyStaged.1 :=
  (k.formDeltas_keeps.mono).step (Ktu.applyStaged_keeps _)

theorem Ktu.formFrame_keeps : Ktu.Keeps [.regs, .counters, .codec, .tail, .trace, .check, .time] [2] k (k.formFrame n) := by
  rw [Ktu.formFrame_eq]
  exact (k.formDeltas_applyStaged_keeps.mono).step (Ktu.withSnapshot_keeps _ _ _ _)

theorem Ktu.formDeltas_applyStaged_time : k.formDeltas.1.applyStaged.1.time = k.time :=
  k.formDeltas_applyStaged_keeps.only .time (by decide)

/-- R151: the bases now stand for the tick. -/
theorem Ktu.formFrame_time : (k.formFrame n).time = { k.time with prevSnapshot := n } := by
  rw [Ktu.formFrame_eq, Ktu.formDeltas_applyStaged_time]

/-- R255: the coder holds the tick's job, and the store is as it was. -/
theorem Ktu.formFrame_codec :
    (k.formFrame n).codec.job = some (k.frameJob n) ∧ (k.formFrame n).codec.store = k.codec.store := by
  have hc : k.formDeltas.1.applyStaged.1.codec = k.formDeltas.1.applyTables.codec := Ktu.applyStaged_codec _
  have hd : k.formDeltas.1.codec = k.codec := k.formDeltas_keeps.only .codec (by decide)
  rw [Ktu.formFrame_eq, hc]
  refine ⟨rfl, ?_⟩
  show k.formDeltas.1.codec.store = k.codec.store
  rw [hd]

/-- R24, R154: the job spans the ticks since the last snapshot. -/
theorem Ktu.frameJob_span : (k.frameJob n).span = n - k.time.prevSnapshot := by
  show n - k.formDeltas.1.applyStaged.1.time.prevSnapshot = _
  rw [Ktu.formDeltas_applyStaged_time]

theorem Ktu.frameJob_period : (k.frameJob n).period = k.get KReg.TICK_PERIOD_period_us := by
  simp only [Ktu.frameJob]
  exact k.formDeltas_applyStaged_keeps.regs KReg.TICK_PERIOD_period_us (by decide)

end

/-! ### The snapshot stage -/

section
variable (n : Nat) (x : Ktu × Bool)

theorem Ktu.takeSnapshot_baseline (h : x.1.time.baselinePending = true) : Ktu.takeSnapshot n x = x.1.takeBaseline n := if_pos h

/-- Every tick takes a baseline, forms a frame, or counts why there is none. -/
theorem Ktu.takeSnapshot_cases : Ktu.takeSnapshot n x = x.1.takeBaseline n ∨ Ktu.takeSnapshot n x = x.1.formFrame n ∨
    Ktu.takeSnapshot n x = x.1.count KReg.FIFE_COAL_count ∨ Ktu.takeSnapshot n x = x.1.count KReg.CODEC_HELD_held := by
  unfold Ktu.takeSnapshot
  split
  · exact .inl rfl
  · split
    · exact .inr (.inr (.inl rfl))
    · split
      · exact .inr (.inr (.inr rfl))
      · exact .inr (.inl rfl)

/-- Apart from the count of held frames, the snapshot leaves the tick registers alone. -/
theorem Ktu.takeSnapshot_keeps :
    Ktu.Keeps [.regs, .counters, .codec, .tail, .trace, .check, .time] [2] x.1 (Ktu.takeSnapshot n x) ∨
    Ktu.takeSnapshot n x = x.1.count KReg.CODEC_HELD_held := by
  rcases Ktu.takeSnapshot_cases n x with h | h | h | h
  · rw [h]; exact .inl (x.1.takeBaseline_keeps n)
  · rw [h]; exact .inl (x.1.formFrame_keeps n)
  · rw [h]; exact .inl ((x.1.count_keeps 1 fifeCoal_apart).mono)
  · exact .inr h

theorem Ktu.takeSnapshot_only :
    Ktu.only [.regs, .counters, .codec, .tail, .trace, .check, .time] x.1 (Ktu.takeSnapshot n x) := by
  rcases Ktu.takeSnapshot_keeps n x with h | h
  · exact h.only
  · rw [h]; exact Ktu.only_mono (x.1.only_regs _) (by decide)

/-- The snapshot moves of the clocks only what it is the snapshot of. -/
theorem Ktu.takeSnapshot_time : ∃ p b, (Ktu.takeSnapshot n x).time = { x.1.time with prevSnapshot := p, baselinePending := b } := by
  rcases Ktu.takeSnapshot_cases n x with h | h | h | h
  · rw [h, Ktu.takeBaseline_time]; exact ⟨_, _, rfl⟩
  · rw [h, Ktu.formFrame_time]; exact ⟨_, x.1.time.baselinePending, rfl⟩
  · rw [h]; exact ⟨x.1.time.prevSnapshot, x.1.time.baselinePending, rfl⟩
  · rw [h]; exact ⟨x.1.time.prevSnapshot, x.1.time.baselinePending, rfl⟩

theorem Ktu.takeSnapshot_region {r : Nat} (h : (x.1.region r).phase ≠ 2) : (Ktu.takeSnapshot n x).region r = x.1.region r := by
  rcases Ktu.takeSnapshot_keeps n x with hk | hk
  · exact hk.regions r (by simpa using h)
  · rw [hk]; rfl

theorem Ktu.takeSnapshot_get {f : Fld} (hf : f ∈ tickRegs) (hh : f.key 0 ≠ KReg.CODEC_HELD_held.key 0) :
    (Ktu.takeSnapshot n x).get f = x.1.get f := by
  rcases Ktu.takeSnapshot_keeps n x with hk | hk
  · exact hk.regs f hf
  · rw [hk, Ktu.get_count_ne _ _ _ _ _ _ hh]

theorem Ktu.takeSnapshot_sent {m : Msg} (h : x.1.fife.up.waits m) : (Ktu.takeSnapshot n x).fife.up.waits m := by
  rcases Ktu.takeSnapshot_keeps n x with hk | hk
  · exact hk.sent m h
  · rw [hk]; exact h

end

end Sys2Proof.Machine
end

section
/-! SUPPORT. A KTU fires a tick: the statement (R21, R22, R155, R198, R537, R539). -/

namespace Sys2Proof.Machine

-- One theorem at a time: elaborated side by side, those of this text need more stacks than the check has memory for.
set_option Elab.async false

open Sys2Proof

/-- The firing edge with its tick numbered and the epochs that end with it closed. -/
def Ktu.closed (n : Nat) (k : Ktu) : Ktu := Ktu.closeEpochs n (Ktu.numberTick n k)

/-- The firing edge before its snapshot, and whether the upstream link is now to be in L1. -/
def Ktu.beforeSnapshot (n : Nat) (k : Ktu) : Ktu × Bool := (k.closed n).sleepTick n

/-- The firing edge up to its snapshot. -/
def Ktu.toSnapshot (n : Nat) (k : Ktu) : Ktu := Ktu.takeSnapshot n (k.beforeSnapshot n)

/-- The firing edge after its snapshot. -/
def Ktu.fromSnapshot (n : Nat) (k : Ktu) : Ktu :=
  Ktu.endTick n (Ktu.haltTicks n (Ktu.openEpochs (Ktu.renewAllowances k)))

section
variable (k : Ktu) (n : Nat)

theorem Ktu.fire_eq_snapshot : k.fire n = (k.toSnapshot n).fromSnapshot n := k.fire_eq n

/-! ### Up to the snapshot -/

theorem Ktu.beforeSnapshot_keeps_closed : Ktu.Keeps [.fife] [] (k.closed n) (k.beforeSnapshot n).1 := Ktu.sleepTick_keeps _ n

/-- Between the number of a tick and its snapshot only epochs close and a committed sleep phase ends. -/
theorem Ktu.beforeSnapshot_keeps : Ktu.Keeps [.check, .regs, .fife] [2] (k.numberTick n) (k.beforeSnapshot n).1 :=
  ((Ktu.closeEpochs_keeps _ n).mono).step (k.beforeSnapshot_keeps_closed n)

theorem Ktu.toSnapshot_only :
    Ktu.only [.regs, .codec, .time, .check, .fife, .counters, .tail, .trace] k (k.toSnapshot n) :=
  Ktu.only_trans (Ktu.only_mono (k.numberTick_only n) (by decide))
    (Ktu.only_trans (Ktu.only_mono (k.beforeSnapshot_keeps n).only (by decide))
      (Ktu.only_mono (Ktu.takeSnapshot_only n _) (by decide)))

theorem Ktu.toSnapshot_time : ∃ p b, (k.toSnapshot n).time =
    { k.time with lastFired := some n, crossed := n, prevSnapshot := p, baselinePending := b } := by
  obtain ⟨p, b, h⟩ := Ktu.takeSnapshot_time n (k.beforeSnapshot n)
  have hb : (k.beforeSnapshot n).1.time = (k.numberTick n).time :=
    (k.beforeSnapshot_keeps n).only .time (by decide)
  exact ⟨p, b, by rw [Ktu.toSnapshot, h, hb, Ktu.numberTick_time]⟩

theorem Ktu.toSnapshot_get {f : Fld} (hf : f ∈ tickRegs) (hh : f.key 0 ≠ KReg.CODEC_HELD_held.key 0) :
    (k.toSnapshot n).get f = (k.numberTick n).get f := by
  rw [Ktu.toSnapshot, Ktu.takeSnapshot_get n _ hf hh, (k.beforeSnapshot_keeps n).regs f hf]

theorem Ktu.numberTick_region (r : Nat) : (k.numberTick n).region r = k.region r := by
  have h : (k.numberTick n).check = k.check := k.numberTick_only n .check (by decide)
  rw [Ktu.region, h, Ktu.region]

/-- A region that is not open is the same up to the snapshot. -/
theorem Ktu.toSnapshot_region {r : Nat} (h : (k.region r).phase ≠ 2) : (k.toSnapshot n).region r = k.region r := by
  have hb : (k.beforeSnapshot n).1.region r = k.region r := by
    rw [(k.beforeSnapshot_keeps n).regions r (by simpa [k.numberTick_region n r] using h), Ktu.numberTick_region]
  rw [Ktu.toSnapshot, Ktu.takeSnapshot_region n _ (by rwa [hb]), hb]

theorem Ktu.closed_closes {r : Nat} (hr : r < 64) (hp : (k.region r).phase = 2) (hc : (k.region r).close ≤ n) :
    ((k.closed n).region r).phase = 0 ∧ (k.closed n).fife.up.waits (k.digestAt n r) := by
  have hreg := k.numberTick_region n r
  have haddr : (k.numberTick n).addr = k.addr := Ktu.addr_of_same (k.numberTick_only n .fife (by decide))
  rw [Ktu.closed, ← Ktu.digestAt_congr hreg haddr]
  exact Ktu.closeEpochs_closes hr (hreg ▸ hp) (hreg ▸ hc)

/-- R539: an epoch that ends with the tick has closed by the snapshot, and its DIGEST waits upstream. -/
theorem Ktu.toSnapshot_closes {r : Nat} (hr : r < 64) (hp : (k.region r).phase = 2) (hc : (k.region r).close ≤ n) :
    ((k.toSnapshot n).region r).phase = 0 ∧ (k.toSnapshot n).fife.up.waits (k.digestAt n r) := by
  obtain ⟨hphase, hwaits⟩ := k.closed_closes n hr hp hc
  have hs := k.beforeSnapshot_keeps_closed n
  have hzero : ((k.beforeSnapshot n).1.region r).phase = 0 := by rw [hs.regions r (by simp), hphase]
  rw [Ktu.toSnapshot]
  refine ⟨?_, Ktu.takeSnapshot_sent n _ (hs.sent _ hwaits)⟩
  rw [Ktu.takeSnapshot_region n _ (by rw [hzero]; decide), hzero]

/-! ### From the snapshot on -/

theorem Ktu.fromSnapshot_keeps :
    Ktu.Keeps [.fife, .check, .halts, .tail, .trace, .regs, .rest] [1] k (k.fromSnapshot n) :=
  (((k.renewAllowances_keeps.mono).step (Ktu.openEpochs_keeps _)).step (Ktu.haltTicks_keeps _ n)).step (Ktu.endTick_keeps _ n)

/-- The halt contexts the tick acts on are those of the snapshot. -/
theorem Ktu.fromSnapshot_halt (sc : Nat) : (k.fromSnapshot n).halt sc =
    (Ktu.haltTicks n (Ktu.openEpochs (Ktu.renewAllowances k))).halt sc ∧
    (Ktu.openEpochs (Ktu.renewAllowances k)).halt sc = k.halt sc := by
  have hend : (k.fromSnapshot n).halts = _ := (Ktu.endTick_keeps _ n).only .halts (by decide)
  have hopen : (Ktu.openEpochs (Ktu.renewAllowances k)).halts = k.halts := (Ktu.openEpochs_keeps _).only .halts (by decide)
  exact ⟨by rw [Ktu.halt, hend, Ktu.halt], by rw [Ktu.halt, hopen, Ktu.halt]⟩

theorem Ktu.fromSnapshot_region (r : Nat) : (k.fromSnapshot n).region r = (Ktu.openEpochs (Ktu.renewAllowances k)).region r := by
  rw [Ktu.fromSnapshot, (Ktu.endTick_keeps _ n).regions r (by simp), (Ktu.haltTicks_keeps _ n).regions r (by simp)]

/-- R198: an armed context whose tick has come begins to halt at the tick that fires. -/
theorem Ktu.fromSnapshot_halts {sc : Nat} (hsc : sc < 17) (ha : (k.halt sc).state = .armed) (hr : (k.halt sc).resumeAt = none)
    (hle : (k.halt sc).h ≤ n) : ((k.fromSnapshot n).halt sc).state = .halting ∧ ((k.fromSnapshot n).halt sc).h = n := by
  obtain ⟨hend, hopen⟩ := k.fromSnapshot_halt n sc
  rw [hend]
  rw [← hopen] at ha hr hle
  exact Ktu.haltTicks_begins hsc ha hr hle

/-- A context armed for a later tick is as it was. -/
theorem Ktu.fromSnapshot_early {sc : Nat} (hr : (k.halt sc).resumeAt = none) (hlt : n < (k.halt sc).h) :
    (k.fromSnapshot n).halt sc = k.halt sc := by
  obtain ⟨hend, hopen⟩ := k.fromSnapshot_halt n sc
  rw [← hopen] at hr hlt
  rw [hend, Ktu.haltTicks_early hr hlt, hopen]

/-- R537: an epoch that waits opens. -/
theorem Ktu.fromSnapshot_opens {r : Nat} (hr : r < 64) (hp : (k.region r).phase = 1) :
    ((k.fromSnapshot n).region r).phase = 2 ∧ ((k.fromSnapshot n).region r).lastEpoch = (k.region r).epoch ∧
    ((k.fromSnapshot n).region r).lines = 0 := by
  rw [Ktu.fromSnapshot_region]
  exact Ktu.openEpochs_opens (k := k.renewAllowances) hr hp

/-! ### The whole edge -/

theorem Ktu.fire_time : ∃ p b, (k.fire n).time =
    { k.time with lastFired := some n, crossed := n, prevSnapshot := p, baselinePending := b } := by
  obtain ⟨p, b, h⟩ := k.toSnapshot_time n
  have ht : (k.fire n).time = (k.toSnapshot n).time := by
    rw [Ktu.fire_eq_snapshot]; exact (Ktu.fromSnapshot_keeps _ n).only .time (by decide)
  exact ⟨p, b, ht.trans h⟩

/-- After its number a tick leaves the tick registers alone, but for the count of held frames. -/
theorem Ktu.fire_get {f : Fld} (hf : f ∈ tickRegs) (hh : f.key 0 ≠ KReg.CODEC_HELD_held.key 0) :
    (k.fire n).get f = (k.numberTick n).get f := by
  rw [Ktu.fire_eq_snapshot, (Ktu.fromSnapshot_keeps _ n).regs f hf, k.toSnapshot_get n hf hh]

theorem Ktu.toSnapshot_halt (sc : Nat) : (k.toSnapshot n).halt sc = k.halt sc := by
  have h : (k.toSnapshot n).halts = k.halts := k.toSnapshot_only n .halts (by decide)
  rw [Ktu.halt, h, Ktu.halt]

theorem Ktu.fire_halts {sc : Nat} (hsc : sc < 17) (ha : (k.halt sc).state = .armed) (hr : (k.halt sc).resumeAt = none)
    (hle : (k.halt sc).h ≤ n) : ((k.fire n).halt sc).state = .halting ∧ ((k.fire n).halt sc).h = n := by
  rw [← k.toSnapshot_halt n sc] at ha hr hle
  rw [Ktu.fire_eq_snapshot]
  exact Ktu.fromSnapshot_halts _ n hsc ha hr hle

theorem Ktu.fire_early {sc : Nat} (hr : (k.halt sc).resumeAt = none) (hlt : n < (k.halt sc).h) :
    (k.fire n).halt sc = k.halt sc := by
  rw [← k.toSnapshot_halt n sc] at hr hlt
  rw [Ktu.fire_eq_snapshot, Ktu.fromSnapshot_early _ n hr hlt, Ktu.toSnapshot_halt]

theorem Ktu.fire_closes {r : Nat} (hr : r < 64) (hp : (k.region r).phase = 2) (hc : (k.region r).close ≤ n) :
    ((k.fire n).region r).phase = 0 ∧ (k.fire n).fife.up.waits (k.digestAt n r) := by
  obtain ⟨hphase, hwaits⟩ := k.toSnapshot_closes n hr hp hc
  have hk := Ktu.fromSnapshot_keeps (k.toSnapshot n) n
  rw [Ktu.fire_eq_snapshot]
  exact ⟨by rw [hk.regions r (by simp [hphase]), hphase], hk.sent _ hwaits⟩

theorem Ktu.fire_opens {r : Nat} (hr : r < 64) (hp : (k.region r).phase = 1) :
    ((k.fire n).region r).phase = 2 ∧ ((k.fire n).region r).lastEpoch = (k.region r).epoch ∧ ((k.fire n).region r).lines = 0 := by
  have hreg := k.toSnapshot_region n (r := r) (by rw [hp]; decide)
  rw [Ktu.fire_eq_snapshot, ← hreg]
  exact Ktu.fromSnapshot_opens _ n hr (by rw [hreg, hp])

/-! ### The command -/

/-- R22, R83: when a tick fires, and which. -/
theorem Ktu.tickFire_fires (hrun : k.bit KReg.TICK_CTRL_run = true) (hlock : (k.tb k.source).everLocked = true)
    (hlt : k.time.crossed < k.boundary) : k.tickFire = k.fire k.boundary := if_pos ⟨hrun, hlock, hlt⟩

theorem Ktu.tickFire_stopped (hrun : k.bit KReg.TICK_CTRL_run = false) : k.tickFire = k := by
  simp [Ktu.tickFire, hrun]

theorem Ktu.tickFire_no_boundary (h : k.boundary ≤ k.time.crossed) : k.tickFire = k := by
  have hlt : ¬ k.time.crossed < k.boundary := by omega
  simp [Ktu.tickFire, hlt]

@[simp] theorem Ktu.wakeCheck_halt (sc : Nat) : k.wakeCheck.halt sc = k.halt sc := by simp [Ktu.halt]
@[simp] theorem Ktu.wakeCheck_region (r : Nat) : k.wakeCheck.region r = k.region r := by simp [Ktu.region]

end

section
variable {s : State} (h : s.ktu.runs)
include h

theorem tickFire_idle_does (he : s.ktu.tickFire = s.ktu) : KtuDoes .tickFire s fun k => Ktu.only [] s.ktu k := by
  refine .of_onKtu Ktu.tickFire rfl h ?_
  rw [he]
  exact (Ktu.only_wakeCheck _ _ _).2 (s.ktu.only_refl [])

/-- A tick that fires has every property that the firing edge and the check of the wake sources give. -/
theorem tickFire_fires_does {P : Ktu → Prop} (hrun : s.ktu.bit KReg.TICK_CTRL_run = true)
    (hlock : (s.ktu.tb s.ktu.source).everLocked = true) (hlt : s.ktu.time.crossed < s.ktu.boundary)
    (hP : P (s.ktu.fire s.ktu.boundary).wakeCheck) : KtuDoes .tickFire s P := by
  refine .of_onKtu Ktu.tickFire rfl h ?_
  rwa [s.ktu.tickFire_fires hrun hlock hlt]

end

/-- Settles O19: nothing fires without run or without a boundary, and a tick that fires is numbered, begins halts, and closes and
opens epochs. -/
theorem tickFires : Obligations.TickFires := by
  unfold Obligations.TickFires
  refine ⟨fun s h hrun => tickFire_idle_does h (s.ktu.tickFire_stopped hrun),
    fun s h hb => tickFire_idle_does h (s.ktu.tickFire_no_boundary hb),
    fun s h hrun hlock hlt => tickFire_fires_does h hrun hlock hlt ?_⟩
  generalize s.ktu.boundary = n
  generalize s.ktu = k
  obtain ⟨p, b, ht⟩ := k.fire_time n
  simp only [Ktu.wakeCheck_time, Ktu.wakeCheck_get, Ktu.wakeCheck_halt, Ktu.wakeCheck_region, ht]
  refine ⟨trivial, trivial, trivial, trivial, ?_, ?_, ?_, fun sc hsc ha hr hle => k.fire_halts n hsc ha hr hle,
    fun sc _ _ hr hlt => k.fire_early n hr hlt, fun r hr hp hc => ?_, fun r hr hp => k.fire_opens n hr hp⟩
  · rw [k.fire_get n (by decide) (by decide), k.numberTick_lo n]
  · rw [k.fire_get n (by decide) (by decide), k.numberTick_hi n]
  · rw [k.fire_get n (by decide) (by decide), k.numberTick_skip n]
  · obtain ⟨hphase, hwaits⟩ := k.fire_closes n hr hp hc
    exact ⟨hphase, Ktu.waits_up_wakeCheck hwaits⟩

end Sys2Proof.Machine
end

section
/-! SUPPORT. What a fired tick makes of the counters, the coder finishing a frame, and the writes of the tick registers: the statement
(R22 to R24, R68, R151, R154, R235, R255, R256). -/

namespace Sys2Proof.Machine

-- One theorem at a time: elaborated side by side, those of this text need more stacks than the check has memory for.
set_option Elab.async false

open Sys2Proof

/-! ### What the snapshot reads -/

section
variable {a b : Ktu}

theorem Ktu.straps_of_same (h : Ktu.same a b .pins) : b.pins.straps = a.pins.straps := by
  have hp := congrArg KPins.straps h
  simpa only using hp

theorem Ktu.sleepTick_of_same (h : Ktu.same a b .fife) : b.fife.sleepTick = a.fife.sleepTick := by
  have hf := congrArg KFife.sleepTick h
  simpa only using hf

/-- The counters a series-map entry can name (R164). -/
theorem entryCounter_cases {e id : Nat} (h : entryCounter e = some id) :
    (∃ i c, i < 256 ∧ c ≤ 8 ∧ id = cntPmu i c) ∨ ∃ g c, g < 32 ∧ c ≤ 6 ∧ id = cntSlot g c := by
  unfold entryCounter at h
  simp only [] at h
  split at h
  · simp only [Option.ite_none_right_eq_some, Option.some.injEq] at h
    obtain ⟨⟨-, hc⟩, rfl⟩ := h
    exact .inl ⟨_, _, Nat.mod_lt _ (by decide), hc, rfl⟩
  · split at h
    · simp only [Option.ite_none_right_eq_some, Option.some.injEq] at h
      obtain ⟨⟨-, hc⟩, rfl⟩ := h
      exact .inr ⟨_, _, Nat.mod_lt _ (by decide), hc, rfl⟩
    · simp at h

theorem Ktu.counterOwner_pmu (k : Ktu) {i c : Nat} (hi : i < 256) (hc : c ≤ 8) :
    k.counterOwner (cntPmu i c) = k.get KReg.PMUi_CTRL_owner i := by
  have hdiv : (cntPmu i c - 0x1000) / 16 = i := by simp only [cntPmu]; omega
  rw [Ktu.counterOwner, if_neg (by simp only [cntPmu]; omega), if_pos (by simp only [cntPmu]; omega), hdiv]

theorem Ktu.counterOwner_slot (k : Ktu) {g c : Nat} (hc : c ≤ 6) :
    k.counterOwner (cntSlot g c) = k.get KReg.SLOTg_CTRL_owner g := by
  have hdiv : (cntSlot g c - 0x8000) / 8 = g := by simp only [cntSlot]; omega
  rw [Ktu.counterOwner, if_neg (by simp only [cntSlot]; omega), if_neg (by simp only [cntSlot]; omega), hdiv]

/-- The registers that number a tick and report the epochs it closes. -/
def closingRegs : List (Fld × Nat) :=
  [(KReg.TICK_SKIP_skipped, 0), (KReg.TICK_NUM_LO_tick_lo, 0), (KReg.TICK_NUM_HI_tick_hi, 0), (KReg.DIG_EVT_closed, 0),
   (KReg.IRQ_PEND_pend, 0)]

theorem pmuOwner_closing {i : Nat} (h : i < 256) : ∀ x ∈ closingRegs, KReg.PMUi_CTRL_owner.key i ≠ x.1.key x.2 := by
  simp only [closingRegs, List.forall_mem_cons, Fld.key, Fld.addr, KReg.PMUi_CTRL_owner, KReg.TICK_SKIP_skipped,
    KReg.TICK_NUM_LO_tick_lo, KReg.TICK_NUM_HI_tick_hi, KReg.DIG_EVT_closed, KReg.IRQ_PEND_pend, List.not_mem_nil, false_implies,
    implies_true, and_true]
  omega

theorem slotOwner_closing {g : Nat} (h : g < 32) : ∀ x ∈ closingRegs, KReg.SLOTg_CTRL_owner.key g ≠ x.1.key x.2 := by
  simp only [closingRegs, List.forall_mem_cons, Fld.key, Fld.addr, KReg.SLOTg_CTRL_owner, KReg.TICK_SKIP_skipped,
    KReg.TICK_NUM_LO_tick_lo, KReg.TICK_NUM_HI_tick_hi, KReg.DIG_EVT_closed, KReg.IRQ_PEND_pend, List.not_mem_nil, false_implies,
    implies_true, and_true]
  omega

/-- R154: closing epochs changes no owner of a mapped series. -/
theorem Ktu.partMask_closing (hc : b.cnt = a.cnt) (hr : Ktu.regsOnly closingRegs a b) : b.partMask = a.partMask := by
  have howner {e id : Nat} (h : entryCounter e = some id) : b.counterOwner id = a.counterOwner id := by
    rcases entryCounter_cases h with ⟨i, c, hi, hle, rfl⟩ | ⟨g, c, hg, hle, rfl⟩
    · rw [Ktu.counterOwner_pmu _ hi hle, Ktu.counterOwner_pmu _ hi hle, hr _ _ (pmuOwner_closing hi)]
    · rw [Ktu.counterOwner_slot _ hle, Ktu.counterOwner_slot _ hle, hr _ _ (slotOwner_closing hg)]
  unfold Ktu.partMask
  rw [hc]
  refine List.foldl_ext _ _ _ fun m e _ => ?_
  split
  · next h => rw [howner h]
  · rfl

theorem Ktu.schemaWord_closing (hp : Ktu.same a b .pins) (hr : Ktu.regsOnly closingRegs a b) : b.schemaWord = a.schemaWord := by
  rw [Ktu.schemaWord, Ktu.straps_of_same hp, hr _ _ (by decide), Ktu.schemaWord]

theorem Ktu.storeFull_closing (hc : b.cnt = a.cnt) (hd : b.codec = a.codec) (hr : Ktu.regsOnly closingRegs a b) :
    b.storeFull = a.storeFull := by
  have hratio : b.nextRatio = a.nextRatio := by
    rw [Ktu.nextRatio, Ktu.staged?, hc, hr _ _ (by decide), Ktu.nextRatio, Ktu.staged?]
  rw [Ktu.storeFull, Ktu.slotsUsed, hd, hratio, Ktu.storeFull, Ktu.slotsUsed]

end

section
variable {k : Ktu} {n : Nat}

/-! ### Up to the snapshot, with no frame being coded -/

section
variable (hj : k.codec.job = none)
include hj

theorem Ktu.numberTick_idle_only : Ktu.only [.regs, .time] k (k.numberTick n) := by
  intro x hx
  rw [Ktu.numberTick, Ktu.frameCoded_none [] hj]
  cases x <;> simp [Ktu.same] at hx ⊢

theorem Ktu.numberTick_idle_up : (k.numberTick n).fife.up = k.fife.up := by
  rw [Ktu.numberTick, Ktu.frameCoded_none [] hj]
  rfl

theorem Ktu.numberTick_idle_regsOnly : Ktu.regsOnly closingRegs k (k.numberTick n) := by
  rw [Ktu.numberTick, Ktu.frameCoded_none [] hj]
  have hcount := Ktu.regsOnly_step (k.regsOnly_refl closingRegs)
    (k.regsOnly_count KReg.TICK_SKIP_skipped (n - k.time.crossed - 1) 0)
  have htime := (Ktu.regsOnly_congr (c := { k.count KReg.TICK_SKIP_skipped (n - k.time.crossed - 1) with
    time := { k.time with lastFired := some n, crossed := n } }) rfl).2 hcount
  exact Ktu.regsOnly_step (Ktu.regsOnly_step htime (Ktu.regsOnly_put _ KReg.TICK_NUM_LO_tick_lo n 0))
    (Ktu.regsOnly_put _ KReg.TICK_NUM_HI_tick_hi (n / 2 ^ 32) 0)

end

/-- The flag of an operation that touches no register. -/
theorem Ktu.regsOnly_raise_of {a b : Ktu} (f : Fld) (v i : Nat) (h : b.regs = a.regs) :
    Ktu.regsOnly [(f, i), (KReg.IRQ_PEND_pend, 0)] a (b.raise f v i) :=
  fun g j hg => (b.regsOnly_raise f v i g j hg).trans (by rw [Ktu.get, h, Ktu.get])

theorem Ktu.closeRegion_regsOnly (k : Ktu) (n r : Nat) :
    Ktu.regsOnly [(KReg.DIG_EVT_closed, 0), (KReg.IRQ_PEND_pend, 0)] k (k.closeRegion n r) := by
  unfold Ktu.closeRegion
  simp only []
  split
  · exact Ktu.regsOnly_raise_of _ _ _ rfl
  · exact k.regsOnly_refl _

theorem Ktu.closeRegion_lp (k : Ktu) (n r : Nat) : (k.closeRegion n r).fife.up.lp = k.fife.up.lp := by
  unfold Ktu.closeRegion
  simp only []
  split
  · rw [Ktu.raise_fife]; rfl
  · rfl

theorem Ktu.closeRegions_lp (k : Ktu) (n : Nat) (l : List Nat) : (l.foldl (Ktu.closeRegion n) k).fife.up.lp = k.fife.up.lp :=
  List.foldlRecOn l (Ktu.closeRegion n) (motive := fun m => m.fife.up.lp = k.fife.up.lp) rfl
    fun m hm r _ => (m.closeRegion_lp n r).trans hm

theorem Ktu.closeEpochs_lp (k : Ktu) (n : Nat) : (k.closeEpochs n).fife.up.lp = k.fife.up.lp := by
  rw [Ktu.closeEpochs, Ktu.closeRegions_lp]

theorem Ktu.closeEpochs_regsOnly (k : Ktu) (n : Nat) :
    Ktu.regsOnly [(KReg.DIG_EVT_closed, 0), (KReg.IRQ_PEND_pend, 0)] k (k.closeEpochs n) :=
  Ktu.regsOnly_foldl _ k fun k r _ => k.closeRegion_regsOnly n r

theorem Ktu.closed_time (k : Ktu) (n : Nat) : (k.closed n).time = { k.time with lastFired := some n, crossed := n } := by
  have h : (k.closed n).time = (k.numberTick n).time := (Ktu.closeEpochs_keeps _ n).only .time (by decide)
  rw [h, Ktu.numberTick_time]

section
variable (hj : k.codec.job = none)
include hj

theorem Ktu.closed_only : Ktu.only [.regs, .time, .check] k (k.closed n) :=
  Ktu.only_trans (Ktu.only_mono (Ktu.numberTick_idle_only hj) (by decide))
    (Ktu.only_mono (Ktu.closeEpochs_keeps _ n).only (by decide))

theorem Ktu.closed_regsOnly : Ktu.regsOnly closingRegs k (k.closed n) :=
  Ktu.regsOnly_step (Ktu.numberTick_idle_regsOnly hj) (Ktu.closeEpochs_regsOnly _ n)

theorem Ktu.beforeSnapshot_codec : (k.beforeSnapshot n).1.codec = k.codec := by
  have h₁ : (k.beforeSnapshot n).1.codec = (k.closed n).codec := (k.beforeSnapshot_keeps_closed n).only .codec (by decide)
  have h₂ : (k.closed n).codec = k.codec := Ktu.closed_only hj .codec (by decide)
  exact h₁.trans h₂

/-- With no sleep committed and no link in L1, the snapshot finds the KTU so. -/
theorem Ktu.beforeSnapshot_awake (hs : k.fife.sleepTick = 0) (hl : k.fife.up.lp ≠ 2) :
    k.beforeSnapshot n = (k.closed n, false) := by
  have hst : (k.closed n).fife.sleepTick = 0 := (Ktu.sleepTick_of_same (Ktu.closed_only hj .fife (by decide))).trans hs
  have hlp : (k.closed n).fife.up.lp ≠ 2 := by
    rw [Ktu.closed, Ktu.closeEpochs_lp, Ktu.numberTick_idle_up hj]; exact hl
  rw [Ktu.beforeSnapshot, Ktu.sleepTick_none _ n hst, decide_eq_false hlp]

end

end

end Sys2Proof.Machine
end

section
/-! SUPPORT. What a fired tick makes of the counters, and the coder finishing a frame (R22 to R24, R151, R154, R235, R255, R256). -/

namespace Sys2Proof.Machine

-- One theorem at a time: elaborated side by side, those of this text need more stacks than the check has memory for.
set_option Elab.async false

open Sys2Proof

section
variable (k : Ktu) (n : Nat)

theorem Ktu.frameJob_tick : (k.frameJob n).tick = n := rfl
theorem Ktu.frameJob_deltas : (k.frameJob n).deltas = k.formDeltas.2 := rfl
theorem Ktu.frameJob_partMask : (k.frameJob n).partMask = k.partMask := rfl
theorem Ktu.frameJob_schema : (k.frameJob n).schema = k.schemaWord := rfl

/-- What the snapshot makes of the coder, the clocks and the counters stays to the end of the edge. -/
theorem Ktu.fire_snapshot : (k.fire n).codec = (k.toSnapshot n).codec ∧ (k.fire n).time = (k.toSnapshot n).time ∧
    (k.fire n).cnt = (k.toSnapshot n).cnt := by
  have h := (Ktu.fromSnapshot_keeps (k.toSnapshot n) n).only
  rw [Ktu.fire_eq_snapshot]
  exact ⟨h .codec (by decide), h .time (by decide), h .counters (by decide)⟩

theorem Ktu.beforeSnapshot_time :
    (k.beforeSnapshot n).1.time = { k.time with lastFired := some n, crossed := n } := by
  have h : (k.beforeSnapshot n).1.time = (k.closed n).time := (k.beforeSnapshot_keeps_closed n).only .time (by decide)
  rw [h, Ktu.closed_time]

variable {k n} (hj : k.codec.job = none)
include hj

/-! ### The baseline -/

/-- R24: the first tick since run rose makes no frame. -/
theorem Ktu.fire_baseline (hb : k.time.baselinePending = true) : (k.fire n).codec.job = none ∧
    (k.fire n).codec.store = k.codec.store ∧ (k.fire n).time.baselinePending = false ∧ (k.fire n).time.prevSnapshot = n := by
  have hpending : (k.beforeSnapshot n).1.time.baselinePending = true := by rw [Ktu.beforeSnapshot_time]; exact hb
  have hto : k.toSnapshot n = (k.beforeSnapshot n).1.takeBaseline n := Ktu.takeSnapshot_baseline n _ hpending
  obtain ⟨hcodec, htime, -⟩ := k.fire_snapshot n
  obtain ⟨hjob, hstore⟩ := (k.beforeSnapshot n).1.takeBaseline_codec n
  rw [hcodec, htime, hto, Ktu.takeBaseline_time, hjob, hstore, Ktu.beforeSnapshot_codec hj]
  exact ⟨hj, rfl, rfl, rfl⟩

/-! ### A frame, or none for want of a place -/

section
variable (hb : k.time.baselinePending = false) (hl : k.fife.up.lp ≠ 2) (hs : k.fife.sleepTick = 0)
include hb hl hs

/-- With no link in L1, the state of the store decides between a frame and none. -/
theorem Ktu.toSnapshot_awake : k.toSnapshot n =
    if k.storeFull then (k.closed n).count KReg.CODEC_HELD_held else (k.closed n).formFrame n := by
  have hpending : (k.closed n).time.baselinePending = false := by rw [Ktu.closed_time]; exact hb
  have honly := Ktu.closed_only (n := n) hj
  have hfull : (k.closed n).storeFull = k.storeFull :=
    Ktu.storeFull_closing (honly .counters (by decide)) (honly .codec (by decide)) (Ktu.closed_regsOnly hj)
  rw [Ktu.toSnapshot, Ktu.beforeSnapshot_awake hj hs hl]
  simp [Ktu.takeSnapshot, hpending, hfull]

/-- R154, R255: the frame is of every count since the last snapshot. -/
theorem Ktu.fire_frame (hf : k.storeFull = false) :
    (∃ j, (k.fire n).codec.job = some j ∧ j.tick = n ∧ j.span = n - k.time.prevSnapshot ∧
      j.period = k.get KReg.TICK_PERIOD_period_us ∧ j.deltas = k.formDeltas.2 ∧ j.partMask = k.partMask ∧
      j.schema = k.schemaWord) ∧
    (k.fire n).time.prevSnapshot = n ∧ (k.fire n).codec.store = k.codec.store := by
  have hto : k.toSnapshot n = (k.closed n).formFrame n := by simp [Ktu.toSnapshot_awake hj hb hl hs, hf]
  have honly := Ktu.closed_only (n := n) hj
  have hregs := Ktu.closed_regsOnly (n := n) hj
  have hcnt : (k.closed n).cnt = k.cnt := honly .counters (by decide)
  have hsame : (k.closed n).codec = k.codec := honly .codec (by decide)
  obtain ⟨hcodec, htime, -⟩ := k.fire_snapshot n
  obtain ⟨hjob, hstore⟩ := (k.closed n).formFrame_codec n
  rw [hcodec, htime, hto, Ktu.formFrame_time, hjob, hstore, hsame]
  refine ⟨⟨_, rfl, Ktu.frameJob_tick _ n, ?_, ?_, ?_, ?_, ?_⟩, rfl, rfl⟩
  · rw [Ktu.frameJob_span, Ktu.closed_time]
  · rw [Ktu.frameJob_period, hregs _ _ (by decide)]
  · rw [Ktu.frameJob_deltas, Ktu.formDeltas_congr hcnt]
  · rw [Ktu.frameJob_partMask, Ktu.partMask_closing hcnt hregs]
  · rw [Ktu.frameJob_schema, Ktu.schemaWord_closing (honly .pins (by decide)) hregs]

/-- R255: with no place in the store the counts stay for the next tick. -/
theorem Ktu.fire_held (hf : k.storeFull = true) : (k.fire n).codec.job = none ∧
    (k.fire n).time.prevSnapshot = k.time.prevSnapshot ∧ (k.fire n).cnt = k.cnt ∧
    (k.fire n).get KReg.CODEC_HELD_held = min (k.get KReg.CODEC_HELD_held + 1) KReg.CODEC_HELD_held.max := by
  have hto : k.toSnapshot n = (k.closed n).count KReg.CODEC_HELD_held := by simp [Ktu.toSnapshot_awake hj hb hl hs, hf]
  have honly := Ktu.closed_only (n := n) hj
  have hcnt : (k.closed n).cnt = k.cnt := honly .counters (by decide)
  have hsame : (k.closed n).codec = k.codec := honly .codec (by decide)
  have hheld : (k.fire n).get KReg.CODEC_HELD_held = (k.toSnapshot n).get KReg.CODEC_HELD_held := by
    rw [Ktu.fire_eq_snapshot, (Ktu.fromSnapshot_keeps _ n).regs _ (by decide)]
  obtain ⟨hcodec, htime, hcounters⟩ := k.fire_snapshot n
  refine ⟨?_, ?_, ?_, ?_⟩
  · rw [hcodec, hto, Ktu.count_codec, hsame, hj]
  · rw [htime, hto, Ktu.count_time, Ktu.closed_time]
  · rw [hcounters, hto, Ktu.count_cnt, hcnt]
  · rw [hheld, hto, Ktu.get_count_same, Ktu.closed_regsOnly hj _ _ (by decide)]

end

end

/-! ### The commands -/

section
variable {s : State} (h : s.ktu.runs)
include h

/-- R24, R154, R255: what a tick that fires makes of the counters. -/
theorem tickFire_snapshot_does (hrun : s.ktu.bit KReg.TICK_CTRL_run = true) (hlock : (s.ktu.tb s.ktu.source).everLocked = true)
    (hlt : s.ktu.time.crossed < s.ktu.boundary) (hj : s.ktu.codec.job = none) :
    (s.ktu.time.baselinePending = true → KtuDoes .tickFire s fun k =>
      k.codec.job = none ∧ k.codec.store = s.ktu.codec.store ∧ k.time.baselinePending = false ∧
      k.time.prevSnapshot = s.ktu.boundary) ∧
    (s.ktu.time.baselinePending = false → s.ktu.storeFull = false → s.ktu.fife.up.lp ≠ 2 → s.ktu.fife.sleepTick = 0 →
      KtuDoes .tickFire s fun k =>
        (∃ j, k.codec.job = some j ∧ j.tick = s.ktu.boundary ∧ j.span = s.ktu.boundary - s.ktu.time.prevSnapshot ∧
          j.period = s.ktu.get KReg.TICK_PERIOD_period_us ∧ j.deltas = s.ktu.formDeltas.2 ∧ j.partMask = s.ktu.partMask ∧
          j.schema = s.ktu.schemaWord) ∧
        k.time.prevSnapshot = s.ktu.boundary ∧ k.codec.store = s.ktu.codec.store) ∧
    (s.ktu.time.baselinePending = false → s.ktu.storeFull = true → s.ktu.fife.up.lp ≠ 2 → s.ktu.fife.sleepTick = 0 →
      KtuDoes .tickFire s fun k =>
        k.codec.job = none ∧ k.time.prevSnapshot = s.ktu.time.prevSnapshot ∧ k.cnt = s.ktu.cnt ∧
        k.get KReg.CODEC_HELD_held = min (s.ktu.get KReg.CODEC_HELD_held + 1) KReg.CODEC_HELD_held.max) := by
  refine ⟨fun hb => tickFire_fires_does h hrun hlock hlt ?_, fun hb hf hl hs => tickFire_fires_does h hrun hlock hlt ?_,
    fun hb hf hl hs => tickFire_fires_does h hrun hlock hlt ?_⟩
  · simpa only [Ktu.wakeCheck_codec, Ktu.wakeCheck_time] using Ktu.fire_baseline hj hb
  · simpa only [Ktu.wakeCheck_codec, Ktu.wakeCheck_time] using Ktu.fire_frame hj hb hl hs hf
  · simpa only [Ktu.wakeCheck_codec, Ktu.wakeCheck_time, Ktu.wakeCheck_cnt, Ktu.wakeCheck_get] using
      Ktu.fire_held hj hb hl hs hf

variable (ue : List (Fin 1024))

omit h in
theorem exec_frameCoded : exec (.frameCoded ue) s = onKtu (fun k => k.frameCoded (ue.map (·.val))) s := rfl

theorem frameCoded_idle_does (hj : s.ktu.codec.job = none) : KtuDoes (.frameCoded ue) s fun k => Ktu.only [] s.ktu k := by
  refine .of_onKtu _ (exec_frameCoded ue) h ?_
  rw [Ktu.frameCoded_none _ hj]
  exact (Ktu.only_wakeCheck _ _ _).2 (s.ktu.only_refl [])

/-- R235, R253, R255, R256: the frame coded is the last entry of the store. -/
theorem frameCoded_does {j : CodeJob} (hj : s.ktu.codec.job = some j) : KtuDoes (.frameCoded ue) s fun k =>
    k.codec.job = none ∧
    (∃ b, k.codec.store = s.ktu.codec.store ++ [{ tick := j.tick, ratio := j.ratio, bytes := b }] ∧
      fieldAt b 8 6 = j.tick % 2 ^ 48) ∧
    k.codec.seq = (s.ktu.codec.seq + 1) % 2 ^ 32 ∧ k.get KReg.FRAME_SEQ_seq = s.ktu.codec.seq % 2 ^ 32 ∧
    (ue ≠ [] → k.get KReg.CODEC_STATUS_ecc_ue % 2 = 1) ∧ k.codec.tables = s.ktu.codec.tables ∧
    Ktu.only [.regs, .codec] s.ktu k := by
  refine .of_onKtu _ (exec_frameCoded ue) h ?_
  obtain ⟨c, bytes, htick, hcodec⟩ := s.ktu.codeJob_codec j (ue.map (·.val))
  rw [Ktu.frameCoded_some _ hj, Ktu.wakeCheck_codec, Ktu.wakeCheck_get, Ktu.wakeCheck_get, hcodec]
  refine ⟨rfl, ⟨bytes, rfl, htick⟩, rfl, s.ktu.codeJob_frameSeq j _, fun hue => ?_, rfl,
    (Ktu.only_wakeCheck _ _ _).2 (s.ktu.codeJob_keeps j _).only⟩
  rw [Ktu.codeJob_eccUe]
  exact s.ktu.carryUe_reports _ (by simpa using hue)

end

end Sys2Proof.Machine
end

section
/-! SUPPORT. The writes of the tick registers, and the statement of what a tick makes of them, of the counters and of the coder
(R22 to R24, R68, R110, R151, R154, R235, R255, R256). -/

namespace Sys2Proof.Machine

-- One theorem at a time: elaborated side by side, those of this text need more stacks than the check has memory for.
set_option Elab.async false

open Sys2Proof

/-! ### Reading a register file -/

section
variable {a b : Ktu}

theorem Ktu.get_of_regs (h : b.regs = a.regs) (f : Fld) (i : Nat) : b.get f i = a.get f i := by rw [Ktu.get, h, Ktu.get]

theorem Ktu.bit_of_regs (h : b.regs = a.regs) (f : Fld) (i : Nat) : b.bit f i = a.bit f i := by rw [Ktu.bit, h, Ktu.bit]

theorem Ktu.bit_eq_get (k : Ktu) (f : Fld) (i : Nat) : k.bit f i = (k.get f i != 0) := rfl

theorem Ktu.bit_put_same (k : Ktu) (f : Fld) (v : Bool) (i : Nat) (hw : f.width = 1) : (k.put f v.toNat i).bit f i = v := by
  rw [Ktu.bit_eq_get, Ktu.get_put_same, hw]
  cases v <;> rfl

end

/-! ### One field written for the fleet -/

/-- What a write of a field leaves where it ends in `m`: the registers and the clocks of `m`, and the same frame. -/
structure Ktu.EndsAs (k m b : Ktu) : Prop where
  regs : b.regs = m.regs
  time : b.time = m.time
  only : ∀ {l : List KPart}, .rest ∈ l → Ktu.only l k m → Ktu.only l k b

/-- R110: *fleet* may write every field, and nothing but the latch of the first error follows. -/
theorem Ktu.fieldBy_fleet {k : Ktu} {w : Writer} (hr : k.pins.ready = true) (ho : ownerOf w = fleet) (f : Fld) (i v : Nat) :
    ∃ e, k.fieldBy w f i v = { k.writeField (pathOf w) f (v % 2 ^ f.width) i with errHeld := e } := by
  have hmay : k.mayWrite (ownerOf w) f i = true := by rw [ho]; rfl
  obtain ⟨e, he⟩ := (k.writeField (pathOf w) f (v % 2 ^ f.width) i).errRearm_eq
  exact ⟨e, by simp [Ktu.fieldBy, hr, hmay, he]⟩

/-- The latch of the first error belongs to the rest. -/
theorem Ktu.EndsAs.of_errHeld (k m : Ktu) (e : Bool) : Ktu.EndsAs k m ({ m with errHeld := e } : Ktu).wakeCheck where
  regs := Ktu.wakeCheck_regs _
  time := Ktu.wakeCheck_time _
  only hl h := (Ktu.only_wakeCheck _ _ _).2 (Ktu.only_trans h fun x hx => by
    cases x <;> simp [Ktu.same, hl] at hx ⊢)

/-- A command that writes one field for *fleet* has every property that the field's write gives. -/
theorem KtuDoes.of_fieldBy {c : Instr} {s : State} {P : Ktu → Prop} {w : Writer} {f : Fld} {v : Nat} {m : Ktu}
    (hc : exec c s = onKtu (Ktu.fieldBy w f 0 v) s) (h : s.ktu.runs) (hr : s.ktu.pins.ready = true) (ho : ownerOf w = fleet)
    (hm : s.ktu.writeField (pathOf w) f (v % 2 ^ f.width) 0 = m) (hP : ∀ k, Ktu.EndsAs s.ktu m k → P k) : KtuDoes c s P := by
  obtain ⟨e, he⟩ := Ktu.fieldBy_fleet hr ho f 0 v
  refine .of_onKtu _ hc h ?_
  rw [he, hm]
  exact hP _ (.of_errHeld s.ktu m e)

/-! ### The fields of the tick contract -/

section
variable (k : Ktu) (p : Path)

theorem Ktu.writeField_tickRun (v : Nat) : k.writeField p KReg.TICK_CTRL_run v 0 = k.writeRun (v != 0) := rfl

theorem Ktu.writeField_tickPeriodUs (v : Nat) : k.writeField p KReg.TICK_PERIOD_period_us v 0 = k.writePeriod v := rfl

theorem Ktu.writeRun_rise (h : k.bit KReg.TICK_CTRL_run = false) : k.writeRun true = (k.put KReg.TICK_CTRL_run 1).runRise := by
  simp [Ktu.writeRun, h]

theorem Ktu.writeRun_fall : k.writeRun false = k.put KReg.TICK_CTRL_run 0 := by
  simp [Ktu.writeRun]

theorem Ktu.writePeriod_taken {us : Nat} (h : k.bit KReg.TICK_CTRL_run = false) (hlo : 100 ≤ us) (hhi : us ≤ 10000) :
    k.writePeriod us = k.put KReg.TICK_PERIOD_period_us us := by
  have hin : ¬ (us < 100 ∨ us > 10000) := by omega
  simp [Ktu.writePeriod, h, hin]

theorem Ktu.writePeriod_ignored {us : Nat} (h : k.bit KReg.TICK_CTRL_run = true ∨ us < 100 ∨ 10000 < us) :
    k.writePeriod us = k.raise KReg.TICK_CTRL_period_wr_ignored := if_pos h

/-- R13: where tick time stands is no matter of KTU_TICK_CTRL.run. -/
theorem Ktu.boundary_put_run (v : Nat) : (k.put KReg.TICK_CTRL_run v).boundary = k.boundary := by
  have hsource : (k.put KReg.TICK_CTRL_run v).source = k.source := by
    rw [Ktu.source, Ktu.bit_eq_get, Ktu.get_put_ne _ _ _ _ _ _ (by decide), Ktu.source, Ktu.bit_eq_get]
  have htime : (k.put KReg.TICK_CTRL_run v).tickTime = k.tickTime := by
    rw [Ktu.tickTime, hsource]
    rfl
  rw [Ktu.boundary, Ktu.tickNs, htime, Ktu.periodNs, Ktu.get_put_ne _ _ _ _ _ _ (by decide), Ktu.boundary, Ktu.tickNs, Ktu.periodNs]

theorem Ktu.put_only (f : Fld) (v : Nat) : Ktu.only [.regs, .rest] k (k.put f v) := Ktu.only_mono (k.only_regs _) (by decide)

theorem Ktu.raise_only (f : Fld) : Ktu.only [.regs, .rest] k (k.raise f) := by
  obtain ⟨r, hr⟩ := k.raise_eq f 1 0
  rw [hr]
  exact Ktu.only_mono (k.only_regs r) (by decide)

theorem Ktu.runRise_only : Ktu.only [.time] k k.runRise := by
  intro x hx
  cases x <;> simp [Ktu.same, Ktu.runRise] at hx ⊢

/-- R68: a write that is ignored is flagged. -/
theorem Ktu.periodIgnored_raise :
    (k.raise KReg.TICK_CTRL_period_wr_ignored).bit KReg.TICK_CTRL_period_wr_ignored = true := by
  have hodd : (k.get KReg.TICK_CTRL_period_wr_ignored ||| 1) % 2 = 1 := Nat.or_mod_two_eq_one.2 (.inr rfl)
  have hget : (k.raise KReg.TICK_CTRL_period_wr_ignored).get KReg.TICK_CTRL_period_wr_ignored = 1 :=
    (k.get_raise_same _ 1 0 (by decide)).trans hodd
  rw [Ktu.bit_eq_get, hget]
  rfl

end

/-! ### The commands -/

section
variable {s : State} {w : Writer} (h : s.ktu.runs) (hr : s.ktu.pins.ready = true) (ho : ownerOf w = fleet)
include h hr ho

/-- R24: run rising forgets the last tick fired and asks for a baseline. -/
theorem tickRun_rises (hrun : s.ktu.bit KReg.TICK_CTRL_run = false) : KtuDoes (.ktuTickRun w true) s fun k =>
    k.bit KReg.TICK_CTRL_run = true ∧ k.time.lastFired = none ∧ k.time.baselinePending = true ∧
    k.time.crossed = s.ktu.boundary ∧ k.time.a = s.ktu.time.a ∧ k.time.b = s.ktu.time.b ∧ Ktu.only [.regs, .time, .rest] s.ktu k ∧
    Ktu.regsOnly [(KReg.TICK_CTRL_run, 0)] s.ktu k := by
  have hm : s.ktu.writeField (pathOf w) KReg.TICK_CTRL_run (true.toNat % 2 ^ KReg.TICK_CTRL_run.width) 0 = _ :=
    (s.ktu.writeField_tickRun _ _).trans (s.ktu.writeRun_rise hrun)
  refine .of_fieldBy rfl h hr ho hm fun k ⟨hregs, htime, honly⟩ => ?_
  have hput : k.regs = (s.ktu.put KReg.TICK_CTRL_run 1).regs := hregs
  rw [htime]
  refine ⟨?_, rfl, rfl, s.ktu.boundary_put_run 1, rfl, rfl, ?_, ?_⟩
  · rw [Ktu.bit_of_regs hput]; exact s.ktu.bit_put_same KReg.TICK_CTRL_run true 0 rfl
  · exact honly (by decide) (Ktu.only_trans (Ktu.only_mono (s.ktu.put_only _ 1) (by decide))
      (Ktu.only_mono (Ktu.runRise_only _) (by decide)))
  · exact (Ktu.regsOnly_congr hput).2 (s.ktu.regsOnly_put _ 1 0)

theorem tickRun_falls : KtuDoes (.ktuTickRun w false) s fun k =>
    k.bit KReg.TICK_CTRL_run = false ∧ Ktu.only [.regs, .rest] s.ktu k ∧ Ktu.regsOnly [(KReg.TICK_CTRL_run, 0)] s.ktu k := by
  have hm : s.ktu.writeField (pathOf w) KReg.TICK_CTRL_run (false.toNat % 2 ^ KReg.TICK_CTRL_run.width) 0 = _ :=
    (s.ktu.writeField_tickRun _ _).trans s.ktu.writeRun_fall
  refine .of_fieldBy rfl h hr ho hm fun k ⟨hregs, _, honly⟩ => ⟨?_, honly (by decide) (s.ktu.put_only _ 0), ?_⟩
  · rw [Ktu.bit_of_regs hregs]; exact s.ktu.bit_put_same KReg.TICK_CTRL_run false 0 rfl
  · exact (Ktu.regsOnly_congr hregs).2 (s.ktu.regsOnly_put _ 0 0)

section
variable {us : BitVec 16}

/-- What a write of the period does, the value being one its field holds. -/
theorem tickPeriod_does {P : Ktu → Prop} {m : Ktu} (hlt : us.toNat < 2 ^ 14) (hm : s.ktu.writePeriod us.toNat = m)
    (hP : ∀ k, Ktu.EndsAs s.ktu m k → P k) : KtuDoes (.ktuTickPeriodWrite w us) s P := by
  refine .of_fieldBy (f := KReg.TICK_PERIOD_period_us) (v := us.toNat) rfl h hr ho ?_ hP
  have hv : us.toNat % 2 ^ KReg.TICK_PERIOD_period_us.width = us.toNat := Nat.mod_eq_of_lt hlt
  rw [hv, Ktu.writeField_tickPeriodUs, hm]

/-- R68: the period takes 100 to 10,000 while run = 0. -/
theorem tickPeriod_taken (hrun : s.ktu.bit KReg.TICK_CTRL_run = false) (hlo : 100 ≤ us.toNat) (hhi : us.toNat ≤ 10000) :
    KtuDoes (.ktuTickPeriodWrite w us) s fun k =>
      k.get KReg.TICK_PERIOD_period_us = us.toNat ∧ Ktu.only [.regs, .rest] s.ktu k ∧
      Ktu.regsOnly [(KReg.TICK_PERIOD_period_us, 0)] s.ktu k := by
  have hlt : us.toNat < 2 ^ 14 := by omega
  refine tickPeriod_does h hr ho hlt (s.ktu.writePeriod_taken hrun hlo hhi) fun k ⟨hregs, _, honly⟩ =>
    ⟨?_, honly (by decide) (s.ktu.put_only _ _), (Ktu.regsOnly_congr hregs).2 (s.ktu.regsOnly_put _ _ 0)⟩
  rw [Ktu.get_of_regs hregs, Ktu.get_put_same]
  exact Nat.mod_eq_of_lt hlt

/-- R68: any other write of the period is ignored, and flagged. -/
theorem tickPeriod_ignored (hlt : us.toNat < 2 ^ 14)
    (hbad : s.ktu.bit KReg.TICK_CTRL_run = true ∨ us.toNat < 100 ∨ 10000 < us.toNat) :
    KtuDoes (.ktuTickPeriodWrite w us) s fun k =>
      k.get KReg.TICK_PERIOD_period_us = s.ktu.get KReg.TICK_PERIOD_period_us ∧
      k.bit KReg.TICK_CTRL_period_wr_ignored = true ∧ Ktu.only [.regs, .rest] s.ktu k ∧
      Ktu.regsOnly [(KReg.TICK_CTRL_period_wr_ignored, 0), (KReg.IRQ_PEND_pend, 0)] s.ktu k := by
  refine tickPeriod_does h hr ho hlt (s.ktu.writePeriod_ignored hbad) fun k ⟨hregs, _, honly⟩ =>
    ⟨?_, ?_, honly (by decide) (s.ktu.raise_only _), (Ktu.regsOnly_congr hregs).2 (s.ktu.regsOnly_raise _ 1 0)⟩
  · rw [Ktu.get_of_regs hregs, Ktu.get_raise_ne _ _ _ _ _ _ (by decide) (by decide)]
  · rw [Ktu.bit_of_regs hregs, Ktu.periodIgnored_raise]

end

end

/-- Settles O20: a tick that fires makes a baseline, a frame or none, the coder stores one entry a job, and the writes of run and of
the period do what R22 to R24 and R68 say. -/
theorem tickFrames : Obligations.TickFrames := by
  unfold Obligations.TickFrames
  exact ⟨fun s h hrun hlock hlt hj => tickFire_snapshot_does h hrun hlock hlt hj,
    fun s ue h hj => frameCoded_idle_does h ue hj, fun s ue j h hj => frameCoded_does h ue hj,
    fun s w h hr ho => ⟨fun hrun => tickRun_rises h hr ho hrun, tickRun_falls h hr ho,
      fun us hrun hlo hhi => tickPeriod_taken h hr ho hrun hlo hhi, fun us hlt hbad => tickPeriod_ignored h hr ho hlt hbad⟩⟩

end Sys2Proof.Machine
end

section
/-! SUPPORT. Which side a command acts on, and that it acts on that side through one of the two wrappers. -/

namespace Sys2Proof.Machine

-- One theorem at a time: elaborated side by side, those of this text need more stacks than the check has memory for.
set_option Elab.async false

open Sys2Proof

/-- A meaning that is a function on the KTU (`true`) or on Naloder (`false`). -/
inductive Acts : Bool → (State → Out) → Prop where
  | ktu (f : Ktu → Ktu) : Acts true (onKtu f)
  | nld (f : Nld → Nld) : Acts false (onNld f)

theorem onEnd_acts (l : LinkId) (f : LinkKind → LinkEnd → LinkEnd × LinkActs) : Acts (linkOfKtu l) (onEnd l f) := by
  unfold onEnd
  cases l <;> constructor

theorem onClock_acts (c : ClockId) (f : Ktu → TbId → Ktu) (g : Nld → Nat → Nld) : Acts (clockOfKtu c) (onClock c f g) := by
  unfold onClock
  cases c <;> constructor

theorem clockField_acts (c : ClockWrite) (f : Fld) (v : Bool) (g : Nld → Nat → Nld) :
    Acts (writeOfKtu c) (clockField c f v g) := by
  unfold clockField
  cases c <;> constructor

theorem readReg_acts (r : RegRead) : Acts (readOfKtu r) (readReg r) := by
  unfold readReg
  cases r <;> constructor

/-- Every command outside power and reset is a function on the side it acts on. -/
theorem exec_acts (c : Instr) (hk : ktuPower c = false) (hn : nldPower c = false) : Acts (actsOnKtu c) (exec c) := by
  unfold exec
  cases c with
  | ktuPorAssert | ktuPorDeassert | ktuClockStop | hostDomainChange => cases hk
  | nldPorAssert | nldPor => cases hn
  | trainingTimeout l => unfold execTrainingTimeout doEnd; exact onEnd_acts l _
  | retrainTimeout l => unfold execRetrainTimeout; exact onEnd_acts l _
  | resetSlotEnd l => unfold execResetSlotEnd doEnd; exact onEnd_acts l _
  | lossOfSignal l => unfold execLossOfSignal; exact onEnd_acts l _
  | hiBer l => unfold execHiBer; exact onEnd_acts l _
  | ackTimeout l => unfold execAckTimeout; exact onEnd_acts l _
  | nakResendTimeout l => unfold execNakResendTimeout doEnd; exact onEnd_acts l _
  | retryEpisodeTimeout l => unfold execRetryEpisodeTimeout; exact onEnd_acts l _
  | controlFlitTimer l => unfold execControlFlitTimer; exact onEnd_acts l _
  | trainingPair l => unfold execTrainingPair; exact onEnd_acts l _
  | laneRelock l => unfold execLaneRelock doEnd; exact onEnd_acts l _
  | signalDetect l => unfold execSignalDetect; cases l <;> constructor
  | linkUp l => unfold execLinkUp; cases l <;> constructor
  | flitReceive l => unfold execFlitReceive; cases l <;> constructor
  | alarm l => unfold execAlarm; cases l <;> constructor
  | linkStatePair l => unfold execLinkStatePair; cases l <;> constructor
  | flitTransmit l => unfold execFlitTransmit; cases l <;> constructor
  | delayReqTimeout c => unfold execDelayReqTimeout; exact onClock_acts c _ _
  | delayValidExpiry c => unfold execDelayValidExpiry; exact onClock_acts c _ _
  | holdoverTimeout c => unfold execHoldoverTimeout; exact onClock_acts c _ _
  | stepAct c => unfold execStepAct; exact onClock_acts c _ _
  | timeBaseHold c => unfold execTimeBaseHold; exact clockField_acts c _ _ _
  | timeBaseEnable c => unfold execTimeBaseEnable; exact clockField_acts c _ _ _
  | stepApply c => unfold execStepApply; cases c <;> constructor
  | stepAcceptPending c => unfold execStepAcceptPending; cases c <;> constructor
  | readClear r => unfold execReadClear; exact readReg_acts r
  | loReadLatch r => unfold execLoReadLatch; exact readReg_acts r
  | sync site => unfold execSync; cases site <;> constructor
  | delayReq site => unfold execDelayReq; cases site <;> constructor
  | delayResp site => unfold execDelayResp; cases site <;> constructor
  | revertTimer d => unfold execRevertTimer; cases d <;> constructor
  | tickSrcWrite t => unfold execTickSrcWrite; cases t <;> constructor
  | queueCheckFailure q => unfold execQueueCheckFailure; cases q <;> constructor
  | registerWrite w => unfold execRegisterWrite; cases w <;> constructor
  | correctableError m => unfold execCorrectableError; cases m <;> constructor
  | pllLockLoss pll => unfold execPllLockLoss; cases pll <;> constructor
  | _ => constructor

end Sys2Proof.Machine
end

section
/-! SUPPORT. What the opening of ticks knows of domain 0, kept by every step (R82, R83, R337): whatever a command has done, the check
that follows it makes the record of Naloder's ticks equal to domain 0's own, and nothing that comes after the check touches either. -/

namespace Sys2Proof.Machine

-- One theorem at a time: elaborated side by side, those of this text need more stacks than the check has memory for.
set_option Elab.async false

open Sys2Proof

/-! ### The creation of the queue pairs -/

/-- Naloder has changed in its queue pairs and in its security core alone. -/
def Nld.rekeyed (a b : Nld) : Prop := ∃ r c, b = { a with rdma := r, sec := c }

section
variable {a b c : Nld}

theorem Nld.rekeyed.refl (n : Nld) : Nld.rekeyed n n := ⟨n.rdma, n.sec, rfl⟩

theorem Nld.rekeyed.trans (h : Nld.rekeyed a b) (h' : Nld.rekeyed b c) : Nld.rekeyed a c := by
  obtain ⟨r, x, rfl⟩ := h
  obtain ⟨r', x', rfl⟩ := h'
  exact ⟨r', x', rfl⟩

theorem Nld.rekeyed.foldl {α : Type} {f : Nld → α → Nld} (xs : List α) (n : Nld) (h : ∀ m x, Nld.rekeyed m (f m x)) :
    Nld.rekeyed n (xs.foldl f n) :=
  List.foldlRecOn xs f (motive := Nld.rekeyed n) (.refl n) fun m hm x _ => hm.trans (h m x)

end

section
variable (n : Nld)

theorem Nld.offer_rekeyed (q : Nat) : Nld.rekeyed n (n.offer q) := by
  unfold Nld.offer
  split <;> exact ⟨_, _, rfl⟩

/-- The initiator of a keying offers; the other end leaves everything as it is. -/
theorem Nld.initiated_rekeyed {m : Nld} (h : Nld.rekeyed n m) (q : Nat) :
    Nld.rekeyed n (if m.initiates q then m.offer q else m) := by
  split
  · exact h.trans (m.offer_rekeyed q)
  · exact h

theorem Nld.createQp_rekeyed (q : Nat) : Nld.rekeyed n (n.createQp q) := by
  unfold Nld.createQp
  refine n.initiated_rekeyed ?_ q
  split <;> exact ⟨_, _, rfl⟩

/-- R599: creating the queue pairs of the peers touches neither a domain nor a tick. -/
theorem Nld.createQps_rekeyed : Nld.rekeyed n n.createQps := by
  unfold Nld.createQps
  split
  · refine .foldl _ n fun m s => .trans (b := m.setPeerShaper s) ⟨_, _, rfl⟩ (.foldl _ _ fun m q => ?_)
    split
    · exact m.createQp_rekeyed q
    · exact .refl m
  · exact .refl n

end

/-! ### The check -/

/-- What the opening of ticks knows of domain 0 is what domain 0 records (R83). -/
def Nld.lockKnown (n : Nld) : Prop := n.tick.everLocked = (n.dom 0).tb.everLocked

theorem Nld.lockCheck_lockKnown (n : Nld) : n.lockCheck.lockKnown := by
  unfold Nld.lockCheck
  simp only []
  split
  · next h => exact h.1.symm
  · rfl

/-- What is in neither the ticks nor the domains does not matter. -/
theorem Nld.lockKnown_congr {a b : Nld} (ht : b.tick = a.tick) (hd : b.doms = a.doms) (h : a.lockKnown) : b.lockKnown := by
  unfold Nld.lockKnown Nld.dom
  rw [ht, hd]
  exact h

/-- After every command on Naloder the check has been made. -/
theorem Nld.after_lockKnown (b n : Nld) : (Nld.after b n).lockKnown := by
  have hrun : (Nld.runCheck b n.lockCheck).lockKnown := by
    unfold Nld.runCheck
    split
    · obtain ⟨r, c, h⟩ := n.lockCheck.createQps_rekeyed
      rw [h]
      exact Nld.lockKnown_congr (a := n.lockCheck) rfl rfl n.lockCheck_lockKnown
    · exact n.lockCheck_lockKnown
  obtain ⟨r, p, o, hs, -⟩ := Nld.settle_eq b (Nld.runCheck b n.lockCheck)
  rw [Nld.after, hs]
  exact Nld.lockKnown_congr rfl rfl hrun

/-! ### Reset -/

theorem Nld.porAssert_lockKnown (n : Nld) : n.porAssert.lockKnown := rfl

theorem Nld.porDeassert_lockKnown {n : Nld} (h : n.lockKnown) : n.porDeassert.lockKnown := by
  unfold Nld.porDeassert
  split
  · exact h
  · exact Nld.lockKnown_congr (a := n) rfl rfl h

/-! ### Every step -/

/-- A meaning that answers no state in which the record of the ticks and domain 0's own differ, from none such. -/
def KeepsLock (m : State → Out) : Prop := ∀ s t : State, s.lockKnown → m s = .next t → t.lockKnown

theorem KeepsLock.of_nld_eq {m : State → Out} (h : ∀ s t, m s = .next t → t.nld = s.nld) : KeepsLock m := by
  intro s t hs ht
  unfold State.lockKnown
  rw [h s t ht]
  exact hs

theorem onKtu_nld {f : Ktu → Ktu} {s t : State} (h : onKtu f s = .next t) : t.nld = s.nld := by
  obtain ⟨-, e⟩ | ⟨-, -, e⟩ | ⟨-, e⟩ := onKtu_cases f s <;> rw [e] at h <;> cases h <;> rfl

theorem keepsLock_onNld (f : Nld → Nld) : KeepsLock (onNld f) := by
  intro s t hs ht
  obtain ⟨-, e⟩ | ⟨-, e⟩ := onNld_cases f s <;> rw [e] at ht <;> cases ht
  · exact hs
  · exact Nld.after_lockKnown _ _

theorem Acts.keepsLock {b : Bool} {m : State → Out} (h : Acts b m) : KeepsLock m := by
  cases h with
  | ktu f => exact .of_nld_eq fun _ _ => onKtu_nld
  | nld f => exact keepsLock_onNld f

/-- The commands of the KTU's power leave Naloder as it is. -/
theorem ktuPower_nld {c : Instr} (hk : ktuPower c = true) {s t : State} (h : exec c s = .next t) : t.nld = s.nld := by
  cases c with
  | ktuPorAssert => cases h; rfl
  | ktuPorDeassert straps ran =>
    change (if s.ktu.pins.porLow then _ else _) = _ at h
    split at h <;> cases h <;> rfl
  | ktuClockStop =>
    change (if s.ktu.pins.porLow then _ else _) = _ at h
    split at h <;> cases h <;> rfl
  | hostDomainChange d rst pg =>
    change (if s.ktu.pins.porLow then _ else onKtu _ s) = _ at h
    split at h
    · cases h; rfl
    · exact onKtu_nld h
  | _ => cases hk

theorem nldPower_keepsLock {c : Instr} (hn : nldPower c = true) : KeepsLock (exec c) := by
  intro s t hs ht
  cases c with
  | nldPorAssert => cases ht; exact s.nld.porAssert_lockKnown
  | nldPor => cases ht; exact Nld.porDeassert_lockKnown hs
  | _ => cases hn

theorem exec_keepsLock (c : Instr) : KeepsLock (exec c) := by
  cases hk : ktuPower c with
  | true => exact .of_nld_eq fun _ _ => ktuPower_nld hk
  | false =>
    cases hn : nldPower c with
    | true => exact nldPower_keepsLock hn
    | false => exact (exec_acts c hk hn).keepsLock

/-- The clock edge of an empty queue ends with the same check. -/
theorem State.idle_lockKnown {s : State} (h : s.lockKnown) : s.idle.lockKnown := by
  change s.nld.idle.lockKnown
  unfold Nld.idle
  split
  · exact h
  · exact Nld.after_lockKnown _ _

/-- Settles O60: every command on Naloder and every clock edge ends with the check of domain 0's lock; the others leave Naloder alone
or reset it whole. -/
theorem lockKnownIsKept : Obligations.LockKnownIsKept := by
  unfold Obligations.LockKnownIsKept
  intro s t hs ht
  unfold step at ht
  split at ht
  · cases ht
    exact State.idle_lockKnown hs
  · next c rest _ => exact exec_keepsLock c { s with pending := rest } t hs ht

end Sys2Proof.Machine
end

section
/-! SUPPORT. What the operations on one clock do, case by case (R79 to R85): a change of state, a SYNC in Free, the answer to a delay
request, the hold bit, a step. -/

namespace Sys2Proof.Machine

-- One theorem at a time: elaborated side by side, those of this text need more stacks than the check has memory for.
set_option Elab.async false

open Sys2Proof

/-! ### Changes of state (R82) -/

section
variable (b : TimeBase) (st : ServoState)

/-- A change of state touches the state, the runs of samples and the record of the lock, and nothing else. -/
theorem TimeBase.enter_eq : ∃ l u e, (b.enter st).1 = { b with state := st, lockRun := l, unlockRun := u, everLocked := e } := by
  unfold TimeBase.enter
  split
  · next h => exact ⟨b.lockRun, b.unlockRun, b.everLocked, by rw [← h]⟩
  · exact ⟨_, _, _, rfl⟩

theorem TimeBase.enter_of_ne {b : TimeBase} {st : ServoState} (h : b.state ≠ st) : b.enter st =
    ({ b with state := st, lockRun := 0, unlockRun := 0, everLocked := b.everLocked || st = .locked },
     { lockLost := b.state = .locked, holdoverEntered := st = .holdover }) := if_neg h

@[simp] theorem TimeBase.enter_state : (b.enter st).1.state = st := by obtain ⟨l, u, e, h⟩ := b.enter_eq st; rw [h]
@[simp] theorem TimeBase.enter_value : (b.enter st).1.value = b.value := by obtain ⟨l, u, e, h⟩ := b.enter_eq st; rw [h]
@[simp] theorem TimeBase.enter_sched : (b.enter st).1.sched = b.sched := by obtain ⟨l, u, e, h⟩ := b.enter_eq st; rw [h]
@[simp] theorem TimeBase.enter_pending : (b.enter st).1.pending = b.pending := by obtain ⟨l, u, e, h⟩ := b.enter_eq st; rw [h]

@[simp] theorem TimeBase.toFree_state : b.toFree.1.state = .free := b.enter_state .free
@[simp] theorem TimeBase.toFree_adj : b.toFree.1.adj = 0 := rfl
@[simp] theorem TimeBase.toFree_pending : b.toFree.1.pending = none := rfl

end

/-! ### Holdover (R82) -/

section
variable {c : ServoCfg} {b : TimeBase}

/-- A clock in Converging or Locked goes to Holdover, and reports it; the last adjustment and the value stay. -/
theorem TimeBase.toHoldover_running (h : b.state = .converging ∨ b.state = .locked) : b.toHoldover =
    ({ b with state := .holdover, lockRun := 0, unlockRun := 0, wasLocked := b.state = .locked },
     { lockLost := b.state = .locked, holdoverEntered := true }) := by
  have hne : b.state ≠ .holdover := by rcases h with h | h <;> simp [h]
  simp [TimeBase.toHoldover, h, TimeBase.enter_of_ne hne]

theorem TimeBase.toHoldover_other (h : ¬ (b.state = .converging ∨ b.state = .locked)) : b.toHoldover = (b, {}) := if_neg h

/-- Holdover takes nothing from a clock but its state. -/
theorem TimeBase.toHoldover_keeps (b : TimeBase) : b.toHoldover.1.value = b.value ∧ b.toHoldover.1.adj = b.adj ∧
    b.toHoldover.1.sched = b.sched ∧ b.toHoldover.1.pending = b.pending ∧
    (b.toHoldover.1.state = b.state ∨ b.toHoldover.1.state = .holdover) := by
  by_cases h : b.state = .converging ∨ b.state = .locked
  · rw [TimeBase.toHoldover_running h]; exact ⟨rfl, rfl, rfl, rfl, .inr rfl⟩
  · rw [TimeBase.toHoldover_other h]; exact ⟨rfl, rfl, rfl, rfl, .inl rfl⟩

theorem TimeBase.holdNow_set (h : c.hold = true) : TimeBase.holdNow c b = b.toHoldover := if_pos h

theorem TimeBase.holdNow_clear (h : c.hold = false) : TimeBase.holdNow c b = (b, {}) := if_neg (by simp [h])

theorem TimeBase.holdNow_cases (c : ServoCfg) (b : TimeBase) :
    TimeBase.holdNow c b = b.toHoldover ∨ TimeBase.holdNow c b = (b, {}) := by
  cases h : c.hold
  · exact .inr (TimeBase.holdNow_clear h)
  · exact .inl (TimeBase.holdNow_set h)

/-- What the hold bit leaves of a clock. -/
theorem TimeBase.holdNow_keeps (c : ServoCfg) (b : TimeBase) : (b.holdNow c).1.value = b.value ∧
    (b.holdNow c).1.sched = b.sched ∧ (b.holdNow c).1.pending = b.pending ∧
    ((b.holdNow c).1.state = b.state ∨ (b.holdNow c).1.state = .holdover) := by
  obtain h | h := TimeBase.holdNow_cases c b
  · obtain ⟨hv, -, hs, hp, hst⟩ := b.toHoldover_keeps
    rw [h]; exact ⟨hv, hs, hp, hst⟩
  · rw [h]; exact ⟨rfl, rfl, rfl, .inl rfl⟩

end

/-! ### SYNC and the delay messages (R79, R80, R82) -/

section
variable {c : ServoCfg} {b : TimeBase}

/-- Without a step instant nothing is straddled. -/
theorem TimeBase.straddles_nil (h : b.instants = []) (x y : Int) : b.straddles c x y = false := by
  simp [TimeBase.straddles, h]

theorem PathFilter.sync_dFilt (f : PathFilter) (t1 t2 corr : Int) : (f.sync t1 t2 corr).dFilt = f.dFilt := rfl

/-- In Free the first sample with a valid delay loads the clock, which goes to Converging and reports nothing. -/
theorem TimeBase.takeSync_free (he : c.enable = true) (hh : c.hold = false) (hs : b.state = .free) (hv : b.main.delayValid = true)
    (hi : b.instants = []) (t1 t2 corr shift : Int) : b.takeSync c t1 t2 corr shift =
    ({ b with value := fieldOf 96 ((t1 + corr + b.main.dFilt - shift) * 65536), state := .converging, integ := 0, lockRun := 0,
              unlockRun := 0, main := b.main.sync t1 t2 corr }, {}) := by
  have hd : (b.main.sync t1 t2 corr).delayValid = true := hv
  have hn (x : TimeBase) : TimeBase.holdNow c x = (x, {}) := TimeBase.holdNow_clear hh
  simp [TimeBase.takeSync, he, hd, hi, TimeBase.straddles_nil, hs, hn, TimeBase.enter, TimeBase.load, ClockActs.and,
    PathFilter.sync_dFilt]

/-- The answer to the one outstanding request, whose SYNC is known, is the first delay sample: where its half is exact, the filter
takes it. -/
theorem TimeBase.response_first {f : PathFilter} {p : SyncSample} {seq : Nat} {t3 t4 corr : Int} (hi : b.instants = [])
    (hq : f.reqs = [{ seq := seq, t3 := t3, paired := some p }]) (hv : f.delayValid = false)
    (hx : (p.path + (t4 - t3 - corr)) % 2 = 0) : b.response c f seq t4 corr =
    { f with reqs := [], dFilt := (p.path + (t4 - t3 - corr)) / 2, delayValid := true, loadNext := false } := by
  simp [TimeBase.response, hq, TimeBase.straddles_nil hi, PathFilter.delaySample, hv, filterDiv, hx]

end

/-! ### Steps (R84, R85) -/

/-- R84: a clock in Refusing goes on to Converging. -/
def TimeBase.leaveRefusing (b : TimeBase) : TimeBase × ClockActs :=
  if b.state = .refusing then b.enter .converging else (b, {})

/-- The clock as a step leaves it, before its state is looked at. -/
def TimeBase.stepped (b : TimeBase) (amt : Int) (t : Nat) : TimeBase :=
  let v := fieldOf 96 (b.value + amt * 65536)
  { b with value := v, sched := none, pending := none, refuseRun := 0,
           instants := b.instants.filter (fun i => i.acted.isSome) ++
             [{ instant := if t = 0 then b.reading else (t : Int) * 65536, acted := some v }] }

theorem TimeBase.leaveRefusing_keeps (b : TimeBase) : b.leaveRefusing.1.value = b.value ∧ b.leaveRefusing.1.sched = b.sched ∧
    b.leaveRefusing.1.pending = b.pending ∧ b.leaveRefusing.1.state ≠ .refusing := by
  unfold TimeBase.leaveRefusing
  split
  · exact ⟨b.enter_value _, b.enter_sched _, b.enter_pending _, by simp⟩
  · next h => exact ⟨rfl, rfl, rfl, h⟩

section
variable {c : ServoCfg} {b : TimeBase} {amt : Int} {t : Nat} (hs : b.sched = some (amt, t)) (ht : t ≤ b.ns)
include hs ht

/-- A step that is due: the clock moves, leaves Refusing, and the hold bit acts on what is left. -/
theorem TimeBase.stepAct_eq : b.stepAct c =
    (((b.stepped amt t).leaveRefusing.1.holdNow c).1,
     ((b.stepped amt t).leaveRefusing.2.and ((b.stepped amt t).leaveRefusing.1.holdNow c).2).and { stepApplied := true }) := by
  unfold TimeBase.stepAct
  simp only [hs, if_pos ht]
  rfl

/-- A step that is due moves the clock by its amount; no step and no refused offset are left. -/
theorem TimeBase.stepAct_due :
    (b.stepAct c).1.value = fieldOf 96 (b.value + amt * 65536) ∧ (b.stepAct c).1.sched = none ∧
    (b.stepAct c).1.pending = none ∧ (b.stepAct c).1.state ≠ .refusing ∧ (b.stepAct c).2.stepApplied = true := by
  rw [TimeBase.stepAct_eq hs ht]
  obtain ⟨lv, ls, lp, lst⟩ := (b.stepped amt t).leaveRefusing_keeps
  obtain ⟨hv, hsch, hp, hst⟩ := TimeBase.holdNow_keeps c (b.stepped amt t).leaveRefusing.1
  refine ⟨hv.trans lv, hsch.trans ls, hp.trans lp, ?_, by simp [ClockActs.and]⟩
  rcases hst with h | h <;> simp [h, lst]

end

end Sys2Proof.Machine
end

section
/-! SUPPORT. What an operation on one time base of the KTU leaves of the rest (R82, R91, R92, R97): the other base, the registers that do
not report it, and every part but the registers and the clocks. -/

namespace Sys2Proof.Machine

-- One theorem at a time: elaborated side by side, those of this text need more stacks than the check has memory for.
set_option Elab.async false

open Sys2Proof

/-! ### Registers and clocks alone -/

/-- The second KTU differs from the first in its registers and its clocks alone. -/
def Ktu.Retimed (a b : Ktu) : Prop := ∃ r t, b = { a with regs := r, time := t }

section
variable {a b c : Ktu}

theorem Ktu.Retimed.refl (k : Ktu) : Ktu.Retimed k k := ⟨k.regs, k.time, rfl⟩

theorem Ktu.Retimed.trans (h : Ktu.Retimed a b) (h' : Ktu.Retimed b c) : Ktu.Retimed a c := by
  obtain ⟨r, t, rfl⟩ := h
  obtain ⟨r', t', rfl⟩ := h'
  exact ⟨r', t', rfl⟩

theorem Ktu.Retimed.ite {p : Prop} [Decidable p] (h : Ktu.Retimed a b) (h' : Ktu.Retimed a c) :
    Ktu.Retimed a (if p then b else c) := by
  split
  · exact h
  · exact h'

theorem Ktu.Retimed.only (h : Ktu.Retimed a b) : Ktu.only [.regs, .time] a b := by
  obtain ⟨r, t, rfl⟩ := h
  intro x hx
  cases x <;> simp [Ktu.same] at hx ⊢

theorem Ktu.Retimed.fife (h : Ktu.Retimed a b) : b.fife = a.fife := by obtain ⟨r, t, rfl⟩ := h; rfl

end

theorem Ktu.raise_retimed (k : Ktu) (f : Fld) (v i : Nat) : Ktu.Retimed k (k.raise f v i) := by
  obtain ⟨r, h⟩ := k.raise_eq f v i
  exact ⟨r, k.time, h⟩

theorem Ktu.count_retimed (k : Ktu) (f : Fld) (v i : Nat) : Ktu.Retimed k (k.count f v i) := ⟨_, k.time, rfl⟩

theorem Ktu.put_retimed (k : Ktu) (f : Fld) (v i : Nat) : Ktu.Retimed k (k.put f v i) := ⟨_, k.time, rfl⟩

theorem Ktu.withTime_only (k : Ktu) (t : KTime) : Ktu.only [.time] k { k with time := t } := by
  intro x hx
  cases x <;> simp [Ktu.same] at hx ⊢

/-! ### Bases -/

section
variable (k : Ktu) (x : TbId) (b : TimeBase)

theorem Ktu.tb_congr {a b : Ktu} (h : b.time = a.time) (x : TbId) : b.tb x = a.tb x := by cases x <;> simp [Ktu.tb, h]

@[simp] theorem Ktu.setTb_same : (k.setTb x b).tb x = b := by cases x <;> rfl

@[simp] theorem Ktu.setTb_other : (k.setTb x b).tb x.other = k.tb x.other := by cases x <;> rfl

theorem Ktu.setTb_only : Ktu.only [.time] k (k.setTb x b) := by cases x <;> exact k.withTime_only _

theorem Ktu.setTb_retimed : Ktu.Retimed k (k.setTb x b) := by cases x <;> exact ⟨k.regs, _, rfl⟩

@[simp] theorem Ktu.wakeCheck_tb : k.wakeCheck.tb x = k.tb x := Ktu.tb_congr k.wakeCheck_time x

@[simp] theorem Ktu.wakeCheck_source : k.wakeCheck.source = k.source := by
  rw [Ktu.source, Ktu.bit_of_regs k.wakeCheck_regs, Ktu.source]

end

/-! ### Flags -/

/-- A flag that is raised reads as 1. -/
theorem Ktu.get_raise_odd (k : Ktu) {f : Fld} {i : Nat} (hp : f.key i ≠ KReg.IRQ_PEND_pend.key 0) :
    (k.raise f 1 i).get f i % 2 = 1 := by
  have hdvd : 2 ∣ 2 ^ f.width := dvd_pow_self 2 (by simp [Fld.width])
  rw [Ktu.get_raise_same _ _ _ _ hp, Nat.mod_mod_of_dvd _ hdvd]
  exact Nat.or_mod_two_eq_one.2 (.inr rfl)

/-- What a conditional change leaves of a field that the change does not touch. -/
theorem Ktu.get_ite {p : Prop} [Decidable p] {k m : Ktu} {f : Fld} {i : Nat} (h : m.get f i = k.get f i) :
    (if p then m else k).get f i = k.get f i := by
  split
  · exact h
  · rfl

/-- The fields in which an operation on a base is reported (R97). -/
def tbReports : List Fld :=
  [KReg.TBx_STATUS_holdover_entered, KReg.TBx_STATUS_step_applied, KReg.TBx_STATUS_step_refused, KReg.TBx_REFUSED_refused,
   KReg.TBx_STATUS_lock_lost]

section
variable (k : Ktu) (x : TbId) (a : ClockActs)

theorem Ktu.clockActs_eq : ∃ r, k.clockActs x a = { k with regs := r } := by
  have hraise {m : Ktu} (h : ∃ r, m = { k with regs := r }) (c : Bool) (f : Fld) :
      ∃ r, (if c then m.raise f 1 x.ix else m) = { k with regs := r } := by
    obtain ⟨r, rfl⟩ := h
    cases c
    · exact ⟨r, rfl⟩
    · obtain ⟨r', e⟩ := Ktu.raise_eq { k with regs := r } f 1 x.ix
      exact ⟨r', e⟩
  have hcount {m : Ktu} (h : ∃ r, m = { k with regs := r }) (c : Bool) (f g : Fld) :
      ∃ r, (if c then (m.raise f 1 x.ix).count g 1 x.ix else m) = { k with regs := r } := by
    obtain ⟨r, e⟩ := hraise h c f
    cases c
    · exact ⟨r, e⟩
    · exact ⟨_, by rw [if_pos rfl] at e ⊢; rw [e]; rfl⟩
  exact hraise (hcount (hraise (hraise ⟨k.regs, rfl⟩ _ _) _ _) _ _ _) _ _

theorem Ktu.clockActs_retimed : Ktu.Retimed k (k.clockActs x a) := by
  obtain ⟨r, h⟩ := k.clockActs_eq x a
  exact ⟨r, k.time, h⟩

@[simp] theorem Ktu.clockActs_time : (k.clockActs x a).time = k.time := by obtain ⟨r, h⟩ := k.clockActs_eq x a; rw [h]

/-- What the report of an operation leaves of the registers. -/
theorem Ktu.clockActs_get_ne {f : Fld} {i : Nat} (h : ∀ g ∈ tbReports, f.key i ≠ g.key x.ix)
    (hp : f.key i ≠ KReg.IRQ_PEND_pend.key 0) : (k.clockActs x a).get f i = k.get f i := by
  simp only [tbReports, List.forall_mem_cons] at h
  obtain ⟨hho, hap, href, hcnt, hlost, -⟩ := h
  have hraise (m : Ktu) {g : Fld} (hg : f.key i ≠ g.key x.ix) : (m.raise g 1 x.ix).get f i = m.get f i :=
    Ktu.get_raise_ne _ _ _ _ _ _ hg hp
  exact (Ktu.get_ite (hraise _ hlost)).trans <|
    (Ktu.get_ite ((Ktu.get_count_ne _ _ _ _ _ _ hcnt).trans (hraise _ href))).trans <|
    (Ktu.get_ite (hraise _ hap)).trans <| Ktu.get_ite (hraise _ hho)

end

section
variable (k : Ktu) (x : TbId) {a : ClockActs}

/-- The reports of one base lie at different places, and none at KTU_IRQ_PEND. -/
theorem tbReports_apart : ∀ f ∈ tbReports, f.key x.ix ≠ KReg.IRQ_PEND_pend.key 0 ∧ ∀ g ∈ tbReports, f ≠ g → f.key x.ix ≠ g.key x.ix := by
  cases x <;> decide

/-- Raising another report of the base leaves a report as it is. -/
theorem Ktu.get_raise_report (m : Ktu) {f g : Fld} (hf : f ∈ tbReports := by decide) (hg : g ∈ tbReports := by decide)
    (hne : f ≠ g := by decide) : (m.raise g 1 x.ix).get f x.ix = m.get f x.ix := by
  obtain ⟨hp, hk⟩ := tbReports_apart x f hf
  exact Ktu.get_raise_ne _ _ _ _ _ _ (hk g hg hne) hp

/-- A report of the base that is raised. -/
theorem Ktu.get_ite_raise {c : Bool} (h : c = true) (m : Ktu) {f : Fld} (hf : f ∈ tbReports := by decide) :
    (if c then m.raise f 1 x.ix else m).get f x.ix % 2 = 1 := by
  rw [if_pos h]
  exact Ktu.get_raise_odd _ (tbReports_apart x f hf).1

/-- What the report of a refused step leaves of another report. -/
theorem Ktu.get_refusal (m : Ktu) (c : Bool) {f : Fld} (hf : f ∈ tbReports := by decide)
    (h₁ : f ≠ KReg.TBx_STATUS_step_refused := by decide) (h₂ : f ≠ KReg.TBx_REFUSED_refused := by decide) :
    (if c then (m.raise KReg.TBx_STATUS_step_refused 1 x.ix).count KReg.TBx_REFUSED_refused 1 x.ix else m).get f x.ix =
      m.get f x.ix :=
  Ktu.get_ite <| (Ktu.get_count_ne _ _ _ _ _ _ ((tbReports_apart x f hf).2 _ (by decide) h₂)).trans <|
    Ktu.get_raise_report x m hf (by decide) h₁

theorem Ktu.clockActs_lockLost (h : a.lockLost = true) : (k.clockActs x a).get KReg.TBx_STATUS_lock_lost x.ix % 2 = 1 :=
  Ktu.get_ite_raise x h _

theorem Ktu.clockActs_stepApplied (h : a.stepApplied = true) :
    (k.clockActs x a).get KReg.TBx_STATUS_step_applied x.ix % 2 = 1 := by
  unfold Ktu.clockActs
  simp only
  rw [Ktu.get_ite (Ktu.get_raise_report x _), Ktu.get_refusal x]
  exact Ktu.get_ite_raise x h _

theorem Ktu.clockActs_holdoverEntered (h : a.holdoverEntered = true) :
    (k.clockActs x a).get KReg.TBx_STATUS_holdover_entered x.ix % 2 = 1 := by
  unfold Ktu.clockActs
  simp only
  rw [Ktu.get_ite (Ktu.get_raise_report x _), Ktu.get_refusal x, Ktu.get_ite (Ktu.get_raise_report x _)]
  exact Ktu.get_ite_raise x h _

end

/-! ### The switch of the tick source (R91, R92) -/

/-- The fields in which a switch of the tick source is reported, and KTU_IRQ_PEND. -/
def switchReports : List Fld :=
  [KReg.TIME_SW_current_src, KReg.TIME_SW_switches, KReg.TIME_SW_switch_event, KReg.IRQ_PEND_pend]

section
variable (k : Ktu) (x : TbId)

/-- The difference that a switch to a source freezes (R91). -/
def Ktu.switchOffset (k : Ktu) : TbId → Int
  | .baseB => k.time.tickOffset + k.time.diff * 65536
  | .baseA => k.time.tickOffset - k.time.diff * 65536

theorem Ktu.switchTo_same (h : k.source = x) : k.switchTo x = k := if_pos h

/-- A switch to the other source: the frozen difference, and the reports. -/
theorem Ktu.switchTo_ne {k : Ktu} {x : TbId} (h : k.source ≠ x) : k.switchTo x =
    ((({ k with time := { k.time with tickOffset := k.switchOffset x } } : Ktu).put KReg.TIME_SW_current_src x.ix).count
      KReg.TIME_SW_switches).raise KReg.TIME_SW_switch_event := by
  unfold Ktu.switchTo
  rw [if_neg h]
  cases x <;> rfl

theorem Ktu.switchTo_time (h : k.source ≠ x) : (k.switchTo x).time = { k.time with tickOffset := k.switchOffset x } := by
  rw [Ktu.switchTo_ne h, Ktu.raise_time]; rfl

theorem Ktu.switchTo_retimed : Ktu.Retimed k (k.switchTo x) := by
  by_cases h : k.source = x
  · rw [k.switchTo_same x h]; exact .refl k
  · rw [Ktu.switchTo_ne h]
    exact .trans (.trans (.trans ⟨k.regs, _, rfl⟩ (Ktu.put_retimed _ _ _ _)) (Ktu.count_retimed _ _ _ _)) (Ktu.raise_retimed _ _ _ _)

/-- A switch leaves both bases. -/
theorem Ktu.switchTo_bases : (k.switchTo x).time.a = k.time.a ∧ (k.switchTo x).time.b = k.time.b := by
  by_cases h : k.source = x
  · rw [k.switchTo_same x h]; exact ⟨rfl, rfl⟩
  · rw [k.switchTo_time x h]; exact ⟨rfl, rfl⟩

@[simp] theorem Ktu.switchTo_tb (y : TbId) : (k.switchTo x).tb y = k.tb y := by
  obtain ⟨ha, hb⟩ := k.switchTo_bases x
  cases y
  · exact ha
  · exact hb

theorem Ktu.switchTo_get_ne {f : Fld} {i : Nat} (h : ∀ g ∈ switchReports, f.key i ≠ g.key 0) :
    (k.switchTo x).get f i = k.get f i := by
  simp only [switchReports, List.forall_mem_cons] at h
  obtain ⟨hcur, hsw, hev, hp, -⟩ := h
  by_cases hs : k.source = x
  · rw [k.switchTo_same x hs]
  · rw [Ktu.switchTo_ne hs, Ktu.get_raise_ne _ _ _ _ _ _ hev hp, Ktu.get_count_ne _ _ _ _ _ _ hsw, Ktu.get_put_ne _ _ _ _ _ _ hcur]
    rfl

theorem Ktu.source_of_get (h : k.get KReg.TIME_SW_current_src = x.ix) : k.source = x := by
  have hb : k.bit KReg.TIME_SW_current_src = (x.ix != 0) := by rw [← h]; rfl
  rw [Ktu.source, hb]
  cases x <;> rfl

/-- After a switch its target is the source. -/
theorem Ktu.switchTo_source : (k.switchTo x).source = x := by
  by_cases h : k.source = x
  · rw [k.switchTo_same x h]; exact h
  · apply Ktu.source_of_get
    rw [Ktu.switchTo_ne h, Ktu.get_raise_ne _ _ _ _ _ _ (by decide) (by decide), Ktu.get_count_ne _ _ _ _ _ _ (by decide),
      Ktu.get_put_same]
    cases x <;> rfl

theorem Ktu.switchTo_event (h : k.source ≠ x) : (k.switchTo x).get KReg.TIME_SW_switch_event % 2 = 1 := by
  rw [Ktu.switchTo_ne h]
  exact Ktu.get_raise_odd _ (by decide)

end

/-! ### What follows a change of a base -/

section
variable (k : Ktu)

theorem Ktu.runRise_retimed : Ktu.Retimed k k.runRise := ⟨k.regs, _, rfl⟩

@[simp] theorem Ktu.runRise_tb (y : TbId) : k.runRise.tb y = k.tb y := by cases y <;> rfl

theorem Ktu.uncross_retimed : Ktu.Retimed k k.uncross := by
  unfold Ktu.uncross
  exact .ite ⟨k.regs, _, rfl⟩ (.refl k)

@[simp] theorem Ktu.uncross_tb (y : TbId) : k.uncross.tb y = k.tb y := by
  unfold Ktu.uncross
  split
  · cases y <;> rfl
  · rfl

theorem Ktu.uncross_get (f : Fld) (i : Nat) : k.uncross.get f i = k.get f i := by
  unfold Ktu.uncross
  split <;> rfl

/-- What follows a change of a base is a switch to a source or none, and a rise of run or none. -/
theorem Ktu.afterClock_cases (old : Ktu) : ∃ m, (m = k ∨ ∃ x, m = k.switchTo x) ∧
    (Ktu.afterClock old k = m ∨ Ktu.afterClock old k = m.runRise) := by
  unfold Ktu.afterClock
  simp only
  refine ⟨_, ?_, (ite_eq_or_eq _ _ _).symm⟩
  exact (ite_eq_or_eq _ _ _).symm.imp_right fun h => ⟨_, h⟩

theorem Ktu.afterClock_retimed (old : Ktu) : Ktu.Retimed k (Ktu.afterClock old k) := by
  obtain ⟨m, hm, ha⟩ := k.afterClock_cases old
  have hk : Ktu.Retimed k m := by
    obtain rfl | ⟨x, rfl⟩ := hm
    · exact .refl _
    · exact k.switchTo_retimed x
  rcases ha with ha | ha <;> rw [ha]
  · exact hk
  · exact hk.trans m.runRise_retimed

@[simp] theorem Ktu.afterClock_tb (old : Ktu) (y : TbId) : (Ktu.afterClock old k).tb y = k.tb y := by
  obtain ⟨m, hm, ha⟩ := k.afterClock_cases old
  have hk : m.tb y = k.tb y := by
    obtain rfl | ⟨x, rfl⟩ := hm
    · rfl
    · exact k.switchTo_tb x y
  rcases ha with ha | ha <;> rw [ha]
  · exact hk
  · rw [m.runRise_tb, hk]

theorem Ktu.afterClock_get_ne (old : Ktu) {f : Fld} {i : Nat} (h : ∀ g ∈ switchReports, f.key i ≠ g.key 0) :
    (Ktu.afterClock old k).get f i = k.get f i := by
  obtain ⟨m, hm, ha⟩ := k.afterClock_cases old
  have hk : m.get f i = k.get f i := by
    obtain rfl | ⟨x, rfl⟩ := hm
    · rfl
    · exact k.switchTo_get_ne x h
  rcases ha with ha | ha <;> rw [ha]
  · exact hk
  · exact hk

end

/-! ### A clock operation on a base -/

section
variable (k : Ktu) (x : TbId) (f : ServoCfg → TimeBase → TimeBase × ClockActs)

theorem Ktu.setTb_clockActs_tb (b : TimeBase) (a : ClockActs) (y : TbId) : ((k.setTb x b).clockActs x a).tb y = (k.setTb x b).tb y :=
  Ktu.tb_congr (Ktu.clockActs_time _ _ _) y

@[simp] theorem Ktu.onTb_same : (k.onTb x f).tb x = (f (k.servoCfg x) (k.tb x)).1 := by
  unfold Ktu.onTb
  simp only [Ktu.uncross_tb, Ktu.afterClock_tb, Ktu.setTb_clockActs_tb, Ktu.setTb_same]

@[simp] theorem Ktu.onTb_other : (k.onTb x f).tb x.other = k.tb x.other := by
  unfold Ktu.onTb
  simp only [Ktu.uncross_tb, Ktu.afterClock_tb, Ktu.setTb_clockActs_tb, Ktu.setTb_other]

theorem Ktu.onTb_retimed : Ktu.Retimed k (k.onTb x f) :=
  .trans (.trans (.trans (k.setTb_retimed x _) (Ktu.clockActs_retimed _ x _)) (Ktu.afterClock_retimed _ _)) (Ktu.uncross_retimed _)

/-- A field that no switch reports reads as the report of the operation leaves it. -/
theorem Ktu.onTb_get_report {g : Fld} {i : Nat} (h : ∀ r ∈ switchReports, g.key i ≠ r.key 0) : (k.onTb x f).get g i =
    ((k.setTb x (f (k.servoCfg x) (k.tb x)).1).clockActs x (f (k.servoCfg x) (k.tb x)).2).get g i :=
  (Ktu.uncross_get _ g i).trans (Ktu.afterClock_get_ne _ _ h)

/-- What an operation on a base leaves of the registers. -/
theorem Ktu.onTb_get_ne {g : Fld} {i : Nat} (h : ∀ r ∈ tbReports, g.key i ≠ r.key x.ix)
    (hs : ∀ r ∈ switchReports, g.key i ≠ r.key 0) : (k.onTb x f).get g i = k.get g i := by
  rw [k.onTb_get_report x f hs, Ktu.clockActs_get_ne _ _ _ h (hs _ (by decide))]
  cases x <;> rfl

end

end Sys2Proof.Machine
end

section
/-! SUPPORT. The messages of time at a KTU (R76 to R81), and the statement on them. -/

namespace Sys2Proof.Machine

-- One theorem at a time: elaborated side by side, those of this text need more stacks than the check has memory for.
set_option Elab.async false

open Sys2Proof

/-! ### Frames -/

section
variable (k : Ktu) (m : Msg)

theorem Ktu.only_forwardUp (gc : Bool) (l : List KPart) (a : Ktu) : Ktu.only l a (k.forwardUp gc m) ↔ Ktu.only l a k := by
  have hsame (x : KPart) : Ktu.same a (k.forwardUp gc m) x ↔ Ktu.same a k x := by cases x <;> simp [Ktu.same, Ktu.forwardUp]
  simp [Ktu.only, hsame]

/-- A message forwarded downstream is the downstream port's alone. -/
theorem Ktu.forwardDn_eq : ∃ d, k.forwardDn m = { k with fife := { k.fife with dn := d } } := by
  unfold Ktu.forwardDn
  split
  · exact ⟨k.fife.dn, rfl⟩
  · exact ⟨_, rfl⟩

theorem Ktu.only_forwardDn (l : List KPart) (a : Ktu) : Ktu.only l a (k.forwardDn m) ↔ Ktu.only l a k := by
  obtain ⟨d, h⟩ := k.forwardDn_eq m
  have hsame (x : KPart) : Ktu.same a (k.forwardDn m) x ↔ Ktu.same a k x := by rw [h]; cases x <;> simp [Ktu.same]
  simp [Ktu.only, hsame]

theorem Ktu.forwardDn_waits {k : Ktu} (h : k.pins.straps.leaf = false) : (k.forwardDn m).fife.dn.waits m := by
  simp only [Ktu.forwardDn, h, Bool.false_eq_true, if_false]
  exact LinkEnd.waits_queue_same _ _ _ _

end

/-! ### A SYNC (R79 to R82) -/

section
variable (k : Ktu) (x : TbId) (m : SyncMsg) (dt : Nat)

theorem Ktu.baseSync_taken {k : Ktu} {x : TbId} {m : SyncMsg} (hd : k.get KReg.TBx_CTRL_domain x.ix = m.domain.val)
    (he : k.bit KReg.TBx_CTRL_enable x.ix = true) : k.baseSync x m dt =
    k.onTb x (fun c b => b.takeSync c (m.t1.toNat : Int) (b.reading + dt) (m.corr + k.asym) 0) := if_pos ⟨hd, he⟩

theorem Ktu.baseSync_retimed : Ktu.Retimed k (k.baseSync x m dt) := .ite (k.onTb_retimed x _) (.refl k)

@[simp] theorem Ktu.baseSync_other : (k.baseSync x m dt).tb x.other = k.tb x.other := by
  unfold Ktu.baseSync
  split
  · exact k.onTb_other x _
  · rfl

theorem Ktu.updateDiff_retimed : Ktu.Retimed k k.updateDiff := .ite ⟨k.regs, _, rfl⟩ (.refl k)

@[simp] theorem Ktu.updateDiff_tb : k.updateDiff.tb x = k.tb x := by
  unfold Ktu.updateDiff
  split
  · cases x <;> rfl
  · rfl

/-- A SYNC of the domain of a base that is enabled and in Free, with a valid delay, loads it. -/
theorem Ktu.baseSync_loads {k : Ktu} {x : TbId} {m : SyncMsg} (hd : k.get KReg.TBx_CTRL_domain x.ix = m.domain.val)
    (he : k.bit KReg.TBx_CTRL_enable x.ix = true) (hh : k.bit KReg.TBx_CTRL_hold x.ix = false) (hs : (k.tb x).state = .free)
    (hv : (k.tb x).main.delayValid = true) (hi : (k.tb x).instants = []) :
    ((k.baseSync x m dt).tb x).state = .converging ∧ ((k.baseSync x m dt).tb x).integ = 0 ∧
    ((k.baseSync x m dt).tb x).value = fieldOf 96 ((m.t1.toNat + (m.corr + k.asym) + (k.tb x).main.dFilt) * 65536) := by
  rw [Ktu.baseSync_taken dt hd he, Ktu.onTb_same, TimeBase.takeSync_free he hh hs hv hi]
  exact ⟨rfl, rfl, by rw [sub_zero]⟩

/-- What a KTU does with a SYNC it has forwarded: a sample for each base, and the difference of the two. -/
def Ktu.sampleBases (k : Ktu) (m : SyncMsg) (dt : Nat) : Ktu := ((k.baseSync .baseA m dt).baseSync .baseB m dt).updateDiff

theorem Ktu.takeSync_eq (residence : Nat) : k.takeSync m dt residence =
    (k.forwardDn (.sync { m with corr := m.corr + k.asym + residence })).sampleBases m dt := rfl

theorem Ktu.sampleBases_retimed : Ktu.Retimed k (k.sampleBases m dt) :=
  .trans (.trans (k.baseSync_retimed .baseA m dt) (Ktu.baseSync_retimed _ .baseB m dt)) (Ktu.updateDiff_retimed _)

/-- Base A is as its own sample leaves it. -/
theorem Ktu.sampleBases_baseA : (k.sampleBases m dt).tb .baseA = (k.baseSync .baseA m dt).tb .baseA :=
  (Ktu.updateDiff_tb _ _).trans (Ktu.baseSync_other _ .baseB m dt)

end

/-! ### A DELAY_RESP (R79) -/

section
variable (k : Ktu) (x : TbId) (m : DelayRespMsg)

theorem Ktu.baseResp_only : Ktu.only [.time] k (k.baseResp x m) := by
  unfold Ktu.baseResp
  split
  · exact k.setTb_only x _
  · exact Ktu.only_refl k _

@[simp] theorem Ktu.baseResp_other : (k.baseResp x m).tb x.other = k.tb x.other := by
  unfold Ktu.baseResp
  split
  · exact k.setTb_other x _
  · rfl

theorem Ktu.baseResp_taken {k : Ktu} {x : TbId} {m : DelayRespMsg} (hd : k.get KReg.TBx_CTRL_domain x.ix = m.domain.val) :
    (k.baseResp x m).tb x =
      { k.tb x with main := (k.tb x).response (k.servoCfg x) (k.tb x).main m.seq.toNat (m.t4.toNat : Int) m.corr } := by
  unfold Ktu.baseResp
  rw [if_pos hd]
  exact k.setTb_same x _

end

/-! ### The commands -/

section
variable {s : State} (h : s.ktu.runs)
include h

/-- R76, R79, R82: a SYNC loads base A and goes on downstream. -/
theorem sync_ktu_does {m : SyncMsg} (dt res : Nat) (hd : s.ktu.get KReg.TBx_CTRL_domain 0 = m.domain.val)
    (he : s.ktu.bit KReg.TBx_CTRL_enable 0 = true) (hh : s.ktu.bit KReg.TBx_CTRL_hold 0 = false) (hs : s.ktu.time.a.state = .free)
    (hv : s.ktu.time.a.main.delayValid = true) (hi : s.ktu.time.a.instants = []) :
    KtuDoes (.sync .ktu m dt res) s fun k =>
      k.time.a.state = .converging ∧ k.time.a.integ = 0 ∧
      k.time.a.value = fieldOf 96 ((m.t1.toNat + (m.corr + s.ktu.asym) + s.ktu.time.a.main.dFilt) * 65536) ∧
      (s.ktu.pins.straps.leaf = false → k.fife.dn.waits (.sync { m with corr := m.corr + s.ktu.asym + res })) ∧
      Ktu.only [.regs, .time] s.ktu k := by
  refine .of_onKtu (fun k => k.takeSync m dt res) rfl h ?_
  simp only [Ktu.takeSync_eq]
  generalize hf : s.ktu.forwardDn (.sync { m with corr := m.corr + s.ktu.asym + res }) = k
  obtain ⟨d, hk⟩ := s.ktu.forwardDn_eq (.sync { m with corr := m.corr + s.ktu.asym + res })
  rw [hf] at hk
  have hfwd := k.sampleBases_retimed m dt
  have hload := Ktu.baseSync_loads (k := k) (x := .baseA) dt (by rw [hk]; exact hd) (by rw [hk]; exact he) (by rw [hk]; exact hh)
    (by rw [hk]; exact hs) (by rw [hk]; exact hv) (by rw [hk]; exact hi)
  rw [← k.sampleBases_baseA m dt, hk] at hload
  obtain ⟨hstate, hinteg, hvalue⟩ := hload
  rw [Ktu.wakeCheck_time, hk]
  refine ⟨hstate, hinteg, hvalue, fun hl => ?_, ?_⟩
  · rw [← hk]
    exact Ktu.waits_dn_wakeCheck (by rw [hfwd.fife, ← hf]; exact Ktu.forwardDn_waits _ hl)
  · rw [← hk, Ktu.only_wakeCheck]
    refine Ktu.only_trans ?_ hfwd.only
    rw [← hf, Ktu.only_forwardDn]
    exact Ktu.only_refl _ _

/-- R78, R79: a base's DELAY_REQ waits upstream, and is remembered with the latest SYNC. -/
theorem delayReqSend_does (b : TbId) (dt : Nat) (he : s.ktu.bit KReg.TBx_CTRL_enable b.ix = true)
    (hi : s.ktu.get KReg.TIME_DREQ_interval_us ≠ 0) (ha : s.ktu.fife.addrValid = true) :
    KtuDoes (.delayReqSend b dt) s fun k =>
      (∃ m : DelayReqMsg, k.fife.up.waits (.delayReq m) ∧ m.domain.val = s.ktu.get KReg.TBx_CTRL_domain b.ix % 8 ∧
        m.seq.toNat = (s.ktu.tb b).main.nextSeq % 65536 ∧ m.addr = s.ktu.addr ∧ m.corr = -s.ktu.asym) ∧
      (k.tb b).main.reqs = (s.ktu.tb b).main.reqs ++
        [⟨(s.ktu.tb b).main.nextSeq, (s.ktu.tb b).reading + dt, (s.ktu.tb b).main.lastSync⟩] ∧
      (k.tb b).main.nextSeq = ((s.ktu.tb b).main.nextSeq + 1) % 65536 ∧ k.tb b.other = s.ktu.tb b.other ∧
      Ktu.only [.time] s.ktu k := by
  refine .of_onKtu (fun k => k.sendDelayReq b dt) rfl h ?_
  have hsend : s.ktu.sendDelayReq b dt = _ := if_pos ⟨he, hi, ha⟩
  rw [hsend]
  have hup (k : Ktu) (m : Msg) (y : TbId) : (k.sendUp m).wakeCheck.tb y = k.tb y := Ktu.wakeCheck_tb (k.sendUp m) y
  refine ⟨⟨_, Ktu.waits_up_wakeCheck (LinkEnd.waits_queue_same _ _ _ _), ?_, ?_, rfl, rfl⟩, ?_, ?_, ?_, ?_⟩
  · rfl
  · exact BitVec.toNat_ofNat _ _
  · rw [hup, Ktu.setTb_same]; rfl
  · rw [hup, Ktu.setTb_same]; rfl
  · rw [hup, Ktu.setTb_other]
  · rw [Ktu.only_wakeCheck, Ktu.only_sendUp]
    exact s.ktu.setTb_only b _

/-- R76, R77: a DELAY_REQ from downstream goes on upstream. -/
theorem delayReq_ktu_does (m : DelayReqMsg) (dt res : Nat) (hl : s.ktu.pins.straps.leaf = false) :
    KtuDoes (.delayReq .ktu m dt res) s fun k =>
      k.fife.up.waits (.delayReq { m with corr := m.corr + res - s.ktu.asym }) ∧ Ktu.only [] s.ktu k := by
  refine .of_onKtu (fun k => k.forwardDelayReq m res) rfl h ?_
  simp only [Ktu.forwardDelayReq, hl, Bool.false_eq_true, if_false]
  refine ⟨Ktu.waits_up_wakeCheck (LinkEnd.waits_queue_same _ _ _ _), ?_⟩
  rw [Ktu.only_wakeCheck, Ktu.only_forwardUp]
  exact Ktu.only_refl _ _

/-- R79: the first delay sample of base A loads its filter. -/
theorem delayResp_ktu_does {m : DelayRespMsg} {p : SyncSample} {t3 : Int} (ha : s.ktu.fife.addrValid = true)
    (hm : m.addr = s.ktu.addr) (hd : s.ktu.get KReg.TBx_CTRL_domain 0 = m.domain.val)
    (hq : s.ktu.time.a.main.reqs = [{ seq := m.seq.toNat, t3 := t3, paired := some p }]) (hi : s.ktu.time.a.instants = [])
    (hv : s.ktu.time.a.main.delayValid = false) (hx : (p.path + (m.t4.toNat - t3 - m.corr)) % 2 = 0) :
    KtuDoes (.delayResp .ktu m) s fun k =>
      2 * k.time.a.main.dFilt = p.path + (m.t4.toNat - t3 - m.corr) ∧ k.time.a.main.delayValid = true ∧ k.time.a.main.reqs = [] ∧
      Ktu.only [.time] s.ktu k := by
  refine .of_onKtu (fun k => k.takeDelayResp m) rfl h ?_
  have htake : s.ktu.takeDelayResp m = (s.ktu.baseResp .baseA m).baseResp .baseB m := if_pos ⟨ha, hm⟩
  have hbase : ((s.ktu.baseResp .baseA m).baseResp .baseB m).tb .baseA = (s.ktu.baseResp .baseA m).tb .baseA :=
    Ktu.baseResp_other _ .baseB m
  have hfirst : (s.ktu.tb .baseA).response (s.ktu.servoCfg .baseA) (s.ktu.tb .baseA).main m.seq.toNat m.t4.toNat m.corr = _ :=
    TimeBase.response_first hi hq hv hx
  rw [Ktu.baseResp_taken hd, hfirst] at hbase
  have hbase' : ((s.ktu.baseResp .baseA m).baseResp .baseB m).time.a = _ := hbase
  rw [htake, Ktu.wakeCheck_time, Ktu.only_wakeCheck, hbase']
  exact ⟨Int.mul_ediv_cancel' (Int.dvd_of_emod_eq_zero hx), rfl, rfl,
    Ktu.only_trans (s.ktu.baseResp_only .baseA m) (Ktu.baseResp_only _ .baseB m)⟩

/-- R295: a DELAY_RESP for another KTU goes on downstream. -/
theorem delayResp_forwarded {m : DelayRespMsg} (hn : ¬ (s.ktu.fife.addrValid = true ∧ m.addr = s.ktu.addr))
    (hl : s.ktu.pins.straps.leaf = false) :
    KtuDoes (.delayResp .ktu m) s fun k => k.fife.dn.waits (.delayResp m) ∧ Ktu.only [] s.ktu k := by
  refine .of_onKtu (fun k => k.takeDelayResp m) rfl h ?_
  have htake : s.ktu.takeDelayResp m = s.ktu.forwardDn (.delayResp m) :=
    (if_neg hn).trans (if_neg (by simp [hl]))
  rw [htake]
  refine ⟨Ktu.waits_dn_wakeCheck (Ktu.forwardDn_waits _ hl), ?_⟩
  rw [Ktu.only_wakeCheck, Ktu.only_forwardDn]
  exact Ktu.only_refl _ _

end

/-- Settles O5: the SYNC, the DELAY_REQ and the DELAY_RESP at a KTU do what R76 to R81 say. -/
theorem ktuTimeMessages : Obligations.KtuTimeMessages := by
  unfold Obligations.KtuTimeMessages
  exact ⟨fun s m dt res h hd he hh hs hv hi => sync_ktu_does h dt res hd he hh hs hv hi,
    fun s b dt h he hi ha => delayReqSend_does h b dt he hi ha, fun s m dt res h hl => delayReq_ktu_does h m dt res hl,
    fun s m p t3 h ha hm hd hq hi hv hx => delayResp_ktu_does h ha hm hd hq hi hv hx,
    fun s m h hn hl => delayResp_forwarded h hn hl⟩

end Sys2Proof.Machine
end

section
/-! SUPPORT. The timers and registers of a KTU's bases (R79, R82, R85, R91, R92), and the statement on them. -/

namespace Sys2Proof.Machine

-- One theorem at a time: elaborated side by side, those of this text need more stacks than the check has memory for.
set_option Elab.async false

open Sys2Proof

/-! ### Writes for the fleet -/

/-- A command that writes one field of a base for *fleet* has every property that the field's write gives. -/
theorem KtuDoes.of_fieldAt {c : Instr} {s : State} {P : Ktu → Prop} {w : Writer} {f : Fld} {i v : Nat} {m : Ktu}
    (hc : exec c s = onKtu (Ktu.fieldBy w f i v) s) (h : s.ktu.runs) (hr : s.ktu.pins.ready = true) (ho : ownerOf w = fleet)
    (hm : s.ktu.writeField (pathOf w) f (v % 2 ^ f.width) i = m) (hP : ∀ k, Ktu.EndsAs s.ktu m k → P k) : KtuDoes c s P := by
  obtain ⟨e, he⟩ := Ktu.fieldBy_fleet hr ho f i v
  refine .of_onKtu _ hc h ?_
  rw [he, hm]
  exact hP _ (.of_errHeld s.ktu m e)

section
variable {k m b : Ktu} (h : Ktu.EndsAs k m b)
include h

theorem Ktu.EndsAs.get (f : Fld) (i : Nat) : b.get f i = m.get f i := Ktu.get_of_regs h.regs f i

theorem Ktu.EndsAs.tb (x : TbId) : b.tb x = m.tb x := Ktu.tb_congr h.time x

end

section
variable (k : Ktu) (p : Path) (x : TbId)

theorem Ktu.writeField_hold (v : Nat) : k.writeField p KReg.TBx_CTRL_hold v x.ix = k.writeHold x (v != 0) := by
  have hrow : k.writeField p KReg.TBx_CTRL_hold v x.ix = k.writeHold (if x.ix = 0 then .baseA else .baseB) (v != 0) := rfl
  have hx : (if x.ix = 0 then TbId.baseA else .baseB) = x := by cases x <;> rfl
  rw [hrow, hx]

theorem Ktu.writeField_enable (v : Nat) : k.writeField p KReg.TBx_CTRL_enable v x.ix = k.writeEnable x (v != 0) := by
  cases x <;> rfl

theorem Ktu.put_tb (f : Fld) (v i : Nat) : (k.put f v i).tb x = k.tb x := by cases x <;> rfl

/-! ### The hold and the enable bit (R82) -/

theorem Ktu.writeHold_one : k.writeHold x true = (k.put KReg.TBx_CTRL_hold 1 x.ix).onTb x (fun c b => b.holdNow c) := rfl

theorem Ktu.writeEnable_zero : k.writeEnable x false = (k.put KReg.TBx_CTRL_enable 0 x.ix).onTb x (fun _ b => b.toFree) := by
  simp [Ktu.writeEnable]

/-- Neither bit lies where an operation on the base or a switch reports. -/
theorem ctrl_apart : ∀ f ∈ [KReg.TBx_CTRL_hold, KReg.TBx_CTRL_enable],
    (∀ r ∈ tbReports, f.key x.ix ≠ r.key x.ix) ∧ ∀ r ∈ switchReports, f.key x.ix ≠ r.key 0 := by
  cases x <;> decide

theorem Ktu.onTb_get_ctrl {f : Fld} (hf : f ∈ [KReg.TBx_CTRL_hold, KReg.TBx_CTRL_enable])
    (g : ServoCfg → TimeBase → TimeBase × ClockActs) : (k.onTb x g).get f x.ix = k.get f x.ix := by
  obtain ⟨hr, hs⟩ := ctrl_apart x f hf
  exact k.onTb_get_ne x g hr hs

/-- The reports of a base do not lie where a switch reports. -/
theorem tbReports_apart_switch : ∀ f ∈ tbReports, ∀ r ∈ switchReports, f.key x.ix ≠ r.key 0 := by cases x <;> decide

end

/-! ### STEP_CMD (R85) -/

section
variable (k : Ktu) (x : TbId)

/-- KTU_TBx_STEP_CMD. -/
def stepCmdAddr (x : TbId) : Nat := 0x1048 + 0x80 * x.ix

theorem wordFields_stepCmd : wordFields (stepCmdAddr x) =
    [(KReg.TBx_STEP_CMD_accept_pending, x.ix), (KReg.TBx_STEP_CMD_apply, x.ix)] := by
  cases x <;> decide +kernel

theorem Ktu.writeCmd_step (v : Nat) : k.writeCmd fleet (stepCmdAddr x) v = k.stepCmd x (bitOf v 0) (bitOf v 1) := by
  cases x <;> rfl

/-- For *fleet* a write of STEP_CMD is its command, and nothing but the latch of the first error follows. -/
theorem Ktu.writeBy_stepCmd {k : Ktu} {w : Writer} (hr : k.pins.ready = true) (ho : ownerOf w = fleet) (v : Nat) :
    ∃ e, k.writeBy w (stepCmdAddr x) v = { k.stepCmd x (bitOf v 0) (bitOf v 1) with errHeld := e } := by
  have hmay (f : Fld) (i : Nat) : k.mayWrite fleet f i = true := rfl
  have happly (p : Path) (u : Nat) : k.writeField p KReg.TBx_STEP_CMD_apply u x.ix = k := rfl
  have haccept (p : Path) (u : Nat) : k.writeField p KReg.TBx_STEP_CMD_accept_pending u x.ix = k := rfl
  obtain ⟨e, he⟩ := (k.stepCmd x (bitOf v 0) (bitOf v 1)).errRearm_eq
  refine ⟨e, ?_⟩
  simp [Ktu.writeBy, hr, ho, Ktu.writeWord, Ktu.writeRefused, hmay, wordFields_stepCmd, happly, haccept, Ktu.writeCmd_step,
    Ktu.refusal, he]

theorem Ktu.stepCmd_apply : k.stepCmd x true false = k.setTb x ((k.tb x).schedule (k.stepAmt x) (k.stepAt x)) := rfl

theorem Ktu.stepCmd_accept : k.stepCmd x false true = k.setTb x ((k.tb x).acceptPending (k.stepAt x)) := rfl

theorem TimeBase.acceptPending_some {b : TimeBase} {v : Int} (h : b.pending = some v) (t : Nat) :
    b.acceptPending t = b.schedule (-v) t := by
  simp [TimeBase.acceptPending, h]

end

/-! ### The timers -/

section
variable {s : State} (h : s.ktu.runs)
include h

/-- A command that replaces a base by another. -/
theorem KtuDoes.of_setTb {c : Instr} {P : Ktu → Prop} (x : TbId) (b : TimeBase)
    (f : Ktu → Ktu) (hc : exec c s = onKtu f s) (hf : f s.ktu = s.ktu.setTb x b)
    (hP : ∀ k, k.tb x = b → k.tb x.other = s.ktu.tb x.other → Ktu.only [.time] s.ktu k → P k) : KtuDoes c s P := by
  refine .of_onKtu f hc h ?_
  rw [hf]
  refine hP _ ?_ ?_ ?_
  · rw [Ktu.wakeCheck_tb, Ktu.setTb_same]
  · rw [Ktu.wakeCheck_tb, Ktu.setTb_other]
  · rw [Ktu.only_wakeCheck]; exact s.ktu.setTb_only x b

theorem delayReqTimeout_ktu_does (b : TbId) (seq : BitVec 16) : KtuDoes (.delayReqTimeout (.ktu b) seq false) s fun k =>
    (k.tb b).main.reqs = (s.ktu.tb b).main.reqs.filter (fun r => r.seq ≠ seq.toNat) ∧ k.tb b.other = s.ktu.tb b.other ∧
    (k.tb b).state = (s.ktu.tb b).state ∧ (k.tb b).value = (s.ktu.tb b).value ∧ Ktu.only [.time] s.ktu k :=
  .of_setTb h b _ (fun k => k.dropReq b seq.toNat) rfl rfl fun _ hb ho hk => ⟨by rw [hb]; rfl, ho, by rw [hb], by rw [hb], hk⟩

theorem delayValidExpiry_ktu_does (b : TbId) : KtuDoes (.delayValidExpiry (.ktu b) false) s fun k =>
    (k.tb b).main.delayValid = false ∧ (k.tb b).state = (s.ktu.tb b).state ∧ (k.tb b).value = (s.ktu.tb b).value ∧
    k.tb b.other = s.ktu.tb b.other ∧ Ktu.only [.time] s.ktu k :=
  .of_setTb h b _ (fun k => k.delayExpire b) rfl rfl fun _ hb ho hk => ⟨by rw [hb]; rfl, by rw [hb], by rw [hb], ho, hk⟩

/-- R82: without a sample for too long a base goes to Holdover, and reports it. -/
theorem holdoverTimeout_ktu_does (b : TbId) (hst : (s.ktu.tb b).state = .converging ∨ (s.ktu.tb b).state = .locked) :
    KtuDoes (.holdoverTimeout (.ktu b)) s fun k =>
      (k.tb b).state = .holdover ∧ (k.tb b).adj = (s.ktu.tb b).adj ∧ (k.tb b).value = (s.ktu.tb b).value ∧
      k.get KReg.TBx_STATUS_holdover_entered b.ix % 2 = 1 ∧
      ((s.ktu.tb b).state = .locked → k.get KReg.TBx_STATUS_lock_lost b.ix % 2 = 1) ∧
      k.tb b.other = s.ktu.tb b.other ∧ Ktu.only [.regs, .time] s.ktu k := by
  refine .of_onKtu (fun k => k.onTb b (fun _ t => t.toHoldover)) rfl h ?_
  have hrun := TimeBase.toHoldover_running hst
  have hreport (f : Fld) (hf : f ∈ tbReports) := s.ktu.onTb_get_report b (fun _ t => t.toHoldover) (tbReports_apart_switch b f hf)
  rw [Ktu.only_wakeCheck, Ktu.wakeCheck_tb, Ktu.wakeCheck_tb, Ktu.wakeCheck_get, Ktu.wakeCheck_get, Ktu.onTb_same, Ktu.onTb_other,
    hreport _ (by decide), hreport _ (by decide), hrun]
  exact ⟨rfl, rfl, rfl, Ktu.clockActs_holdoverEntered _ b rfl, fun hl => Ktu.clockActs_lockLost _ b (decide_eq_true hl), rfl,
    (s.ktu.onTb_retimed b _).only⟩

/-- R92: the tick source switches back to base A, and tick time slews to it. -/
theorem revertTimer_ktu_does (ha : s.ktu.autoSource = true) (hr : s.ktu.bit KReg.TIME_SEL_revertive = true)
    (hs : s.ktu.source = .baseB) (hl : s.ktu.time.a.state = .locked) : KtuDoes (.revertTimer none) s fun k =>
      k.source = .baseA ∧ k.time.reverting = true ∧ k.time.tickOffset = s.ktu.time.tickOffset - s.ktu.time.diff * 65536 ∧
      k.time.a = s.ktu.time.a ∧ k.time.b = s.ktu.time.b ∧
      k.get KReg.TIME_SW_switch_event % 2 = 1 ∧ Ktu.only [.regs, .time] s.ktu k := by
  refine .of_onKtu Ktu.revert rfl h ?_
  have hne : s.ktu.source ≠ .baseA := by rw [hs]; decide
  have hrevert : s.ktu.revert = { s.ktu.switchTo .baseA with time := { (s.ktu.switchTo .baseA).time with reverting := true } } :=
    if_pos ⟨ha, hr, hs, hl⟩
  rw [hrevert, Ktu.wakeCheck_source, Ktu.wakeCheck_time, Ktu.wakeCheck_get, Ktu.only_wakeCheck, s.ktu.switchTo_time .baseA hne]
  refine ⟨s.ktu.switchTo_source .baseA, rfl, rfl, rfl, rfl, s.ktu.switchTo_event .baseA hne, ?_⟩
  exact Ktu.only_trans (s.ktu.switchTo_retimed .baseA).only (Ktu.only_mono (Ktu.withTime_only _ _) (by decide))

/-- R84, R85: a step that is due moves its base, and is reported. -/
theorem stepAct_ktu_does (b : TbId) {amt : Int} {t : Nat} (hs : (s.ktu.tb b).sched = some (amt, t)) (ht : t ≤ (s.ktu.tb b).ns) :
    KtuDoes (.stepAct (.ktu b)) s fun k =>
      (k.tb b).value = fieldOf 96 ((s.ktu.tb b).value + amt * 65536) ∧ (k.tb b).sched = none ∧ (k.tb b).pending = none ∧
      k.get KReg.TBx_STATUS_step_applied b.ix % 2 = 1 ∧ (k.tb b).state ≠ .refusing ∧ k.tb b.other = s.ktu.tb b.other ∧
      Ktu.only [.regs, .time] s.ktu k := by
  refine .of_onKtu (fun k => k.onTb b TimeBase.stepAct) rfl h ?_
  obtain ⟨hvalue, hsched, hpending, hstate, happlied⟩ := TimeBase.stepAct_due (c := s.ktu.servoCfg b) hs ht
  rw [Ktu.only_wakeCheck, Ktu.wakeCheck_tb, Ktu.wakeCheck_tb, Ktu.wakeCheck_get, Ktu.onTb_same, Ktu.onTb_other,
    s.ktu.onTb_get_report b _ (tbReports_apart_switch b _ (by decide))]
  exact ⟨hvalue, hsched, hpending, Ktu.clockActs_stepApplied _ b happlied, hstate, rfl, (s.ktu.onTb_retimed b _).only⟩

end

/-! ### The registers -/

section
variable {s : State} {w : Writer} (b : TbId) (h : s.ktu.runs) (hr : s.ktu.pins.ready = true) (ho : ownerOf w = fleet)
include h hr ho

/-- R82: the hold bit takes a base from Locked or Converging to Holdover. -/
theorem timeBaseHold_ktu_does (hst : (s.ktu.tb b).state = .locked ∨ (s.ktu.tb b).state = .converging) :
    KtuDoes (.timeBaseHold (.ktu w b) true) s fun k =>
      k.get KReg.TBx_CTRL_hold b.ix = 1 ∧ (k.tb b).state = .holdover ∧ k.tb b.other = s.ktu.tb b.other := by
  refine .of_fieldAt rfl h hr ho ((s.ktu.writeField_hold _ b _).trans (s.ktu.writeHold_one b)) fun k hk => ?_
  have hhold : ((s.ktu.put KReg.TBx_CTRL_hold 1 b.ix).servoCfg b).hold = true := s.ktu.bit_put_same _ true b.ix rfl
  rw [hk.get, hk.tb, hk.tb, Ktu.onTb_get_ctrl _ b (by decide), Ktu.get_put_same, Ktu.onTb_same, Ktu.onTb_other, Ktu.put_tb, Ktu.put_tb,
    TimeBase.holdNow_set hhold, TimeBase.toHoldover_running hst.symm]
  exact ⟨rfl, rfl, rfl⟩

/-- R82: the enable bit cleared takes a base to Free. -/
theorem timeBaseDisable_ktu_does : KtuDoes (.timeBaseEnable (.ktu w b) false) s fun k =>
    k.get KReg.TBx_CTRL_enable b.ix = 0 ∧ (k.tb b).state = .free ∧ (k.tb b).adj = 0 ∧ (k.tb b).pending = none ∧
    k.tb b.other = s.ktu.tb b.other := by
  refine .of_fieldAt rfl h hr ho ((s.ktu.writeField_enable _ b _).trans (s.ktu.writeEnable_zero b)) fun k hk => ?_
  rw [hk.get, hk.tb, hk.tb, Ktu.onTb_get_ctrl _ b (by decide), Ktu.get_put_same, Ktu.onTb_same, Ktu.onTb_other, Ktu.put_tb, Ktu.put_tb]
  exact ⟨rfl, TimeBase.toFree_state _, TimeBase.toFree_adj _, TimeBase.toFree_pending _, rfl⟩

/-- R85: what a write of STEP_CMD that schedules a step leaves. -/
theorem stepCmd_ktu_does {c : Instr} {v : Nat} {amt : Int} {t : Nat} (hc : exec c s = onKtu (Ktu.writeBy w (stepCmdAddr b) v) s)
    (hcmd : s.ktu.stepCmd b (bitOf v 0) (bitOf v 1) = s.ktu.setTb b ((s.ktu.tb b).schedule amt t)) : KtuDoes c s fun k =>
      (k.tb b).sched = some (amt, t) ∧ (k.tb b).value = (s.ktu.tb b).value ∧ k.tb b.other = s.ktu.tb b.other ∧
      k.regs = s.ktu.regs := by
  obtain ⟨e, he⟩ := Ktu.writeBy_stepCmd b hr ho v
  refine .of_onKtu _ hc h ?_
  rw [he, hcmd]
  have hk := Ktu.EndsAs.of_errHeld s.ktu (s.ktu.setTb b ((s.ktu.tb b).schedule amt t)) e
  rw [hk.tb, hk.tb, hk.regs, Ktu.setTb_same, Ktu.setTb_other, Ktu.setTb_regs]
  exact ⟨rfl, rfl, rfl, rfl⟩

/-- R91, R98: base B chosen as the tick source: a switch without a step. -/
theorem tickSrcWrite_ktu_does : KtuDoes (.tickSrcWrite (.ktu w 1)) s fun k =>
    k.get KReg.TIME_SEL_tick_src = 1 ∧ k.source = .baseB ∧ k.time.a = s.ktu.time.a ∧ k.time.b = s.ktu.time.b ∧
    (s.ktu.source = .baseA → k.time.tickOffset = s.ktu.time.tickOffset + s.ktu.time.diff * 65536) := by
  have hwrite : s.ktu.writeField (pathOf w) KReg.TIME_SEL_tick_src 1 0 = (s.ktu.put KReg.TIME_SEL_tick_src 1).switchTo .baseB := rfl
  refine .of_fieldAt rfl h hr ho hwrite fun k hk => ?_
  generalize hput : s.ktu.put KReg.TIME_SEL_tick_src 1 = m at hk
  have htime : m.time = s.ktu.time := by rw [← hput]; rfl
  have hsource : m.source = s.ktu.source := by
    rw [← hput, Ktu.source, Ktu.bit_eq_get, Ktu.get_put_ne _ _ _ _ _ _ (by decide), Ktu.source, Ktu.bit_eq_get]
  obtain ⟨ha, hb⟩ := m.switchTo_bases .baseB
  refine ⟨?_, ?_, ?_, ?_, fun hs => ?_⟩
  · rw [hk.get, Ktu.switchTo_get_ne _ _ (by decide), ← hput, Ktu.get_put_same]; rfl
  · rw [Ktu.source, Ktu.bit_of_regs hk.regs]; exact m.switchTo_source .baseB
  · rw [hk.time, ha, htime]
  · rw [hk.time, hb, htime]
  · have hne : m.source ≠ .baseB := by rw [hsource, hs]; decide
    rw [hk.time, m.switchTo_time .baseB hne, ← htime]; rfl

end

/-- Settles O6: each timer and register of a base leaves in it what R79, R82, R85, R91 and R92 say, and the other base as it was. -/
theorem ktuTimeControl : Obligations.KtuTimeControl := by
  unfold Obligations.KtuTimeControl
  exact ⟨fun s b seq h => delayReqTimeout_ktu_does h b seq, fun s b h => delayValidExpiry_ktu_does h b,
    fun s b h hst => holdoverTimeout_ktu_does h b hst, fun s h ha hr hs hl => revertTimer_ktu_does h ha hr hs hl,
    fun s w b h hr ho => ⟨fun hst => timeBaseHold_ktu_does b h hr ho hst, timeBaseDisable_ktu_does b h hr ho,
      stepCmd_ktu_does b h hr ho rfl (s.ktu.stepCmd_apply b), fun x hx => stepCmd_ktu_does b h hr ho rfl
        ((s.ktu.stepCmd_accept b).trans (by rw [TimeBase.acceptPending_some hx])), tickSrcWrite_ktu_does h hr ho⟩,
    fun s b amt t h hs ht => stepAct_ktu_does h b hs ht⟩

end Sys2Proof.Machine
end

section
/-! SUPPORT. What an operation on one domain of Naloder leaves of the rest (R82, R91, R92, R99): the other domains, the registers that
do not report it, NLD_TICK_CTRL.run, and every part but the registers, the error ring and the domains. -/

namespace Sys2Proof.Machine

-- One theorem at a time: elaborated side by side, those of this text need more stacks than the check has memory for.
set_option Elab.async false

open Sys2Proof

/-! ### Domains -/

section
variable (n : Nld) (d : Nat) (x : NDomain)

@[simp] theorem Nld.setDom_dom_same : (n.setDom d x).dom d = x := Tbl.get_set_same _ _ _ _

theorem Nld.setDom_dom_other {e : Nat} (h : e ≠ d) : (n.setDom d x).dom e = n.dom e := Tbl.get_set_ne _ _ h _ _

theorem Nld.dom_of_doms {a b : Nld} (h : b.doms = a.doms) (e : Nat) : b.dom e = a.dom e := by rw [Nld.dom, h, Nld.dom]

theorem Nld.withDoms_only (l : Tbl NDomain) : Nld.only [.doms] n { n with doms := l } := by
  intro p hp
  cases p <;> simp [Nld.same] at hp ⊢
  intro f i _
  rfl

theorem Nld.setDom_only : Nld.only [.doms] n (n.setDom d x) := n.withDoms_only _

/-- The codes of a domain rest on the registers and on the domain. -/
theorem Nld.codes_congr {a b : Nld} (hr : b.regs = a.regs) (hd : b.dom d = a.dom d) : b.codes d = a.codes d := by
  simp only [Nld.codes, Nld.get, hr, hd]

theorem Nld.servoCfg_congr {a b : Nld} (hr : b.regs = a.regs) : b.servoCfg d = a.servoCfg d := by
  simp only [Nld.servoCfg, Nld.get, Nld.bit, hr]

end

/-! ### Registers, errors and domains alone -/

/-- The second Naloder differs from the first in its registers but NLD_TICK_CTRL.run, in its error ring and in the domains named. -/
structure Nld.Redomed (ds : List Nat) (a b : Nld) : Prop where
  parts : ∃ r h x, b = { a with regs := r, hwErr := h, doms := x }
  run : b.bit NReg.TICK_CTRL_run = a.bit NReg.TICK_CTRL_run
  others : ∀ e, e ∉ ds → b.dom e = a.dom e

section
variable {ds : List Nat} {a b c : Nld}

theorem Nld.Redomed.refl (n : Nld) : Nld.Redomed ds n n := ⟨⟨n.regs, n.hwErr, n.doms, rfl⟩, rfl, fun _ _ => rfl⟩

theorem Nld.Redomed.trans (h : Nld.Redomed ds a b) (h' : Nld.Redomed ds b c) : Nld.Redomed ds a c := by
  obtain ⟨⟨r, e, x, hb⟩, hrun, hoth⟩ := h
  obtain ⟨⟨r', e', x', hc⟩, hrun', hoth'⟩ := h'
  exact ⟨⟨r', e', x', by rw [hc, hb]⟩, hrun'.trans hrun, fun d hd => (hoth' d hd).trans (hoth d hd)⟩

theorem Nld.Redomed.mono {ds' : List Nat} (h : Nld.Redomed ds a b) (hs : ∀ d ∈ ds, d ∈ ds') : Nld.Redomed ds' a b :=
  ⟨h.parts, h.run, fun e he => h.others e fun hd => he (hs e hd)⟩

theorem Nld.Redomed.ite {p : Prop} [Decidable p] (h : Nld.Redomed ds a b) (h' : Nld.Redomed ds a c) :
    Nld.Redomed ds a (if p then b else c) := by
  split
  · exact h
  · exact h'

theorem Nld.Redomed.foldl {α : Type} {f : Nld → α → Nld} (xs : List α) (n : Nld) (h : ∀ m, ∀ x ∈ xs, Nld.Redomed ds m (f m x)) :
    Nld.Redomed ds n (xs.foldl f n) :=
  List.foldlRecOn xs f (motive := Nld.Redomed ds n) (.refl n) fun m hm x hx => hm.trans (h m x hx)

theorem Nld.Redomed.only (h : Nld.Redomed ds a b) : Nld.only [.regs, .hwErr, .doms] a b := by
  obtain ⟨⟨r, e, x, rfl⟩, -, -⟩ := h
  intro p hp
  cases p <;> simp [Nld.same] at hp ⊢

theorem Nld.Redomed.chains (h : Nld.Redomed ds a b) : b.chains = a.chains := by obtain ⟨⟨r, e, x, rfl⟩, -, -⟩ := h; rfl

theorem Nld.Redomed.group (h : Nld.Redomed ds a b) : b.group = a.group := by obtain ⟨⟨r, e, x, rfl⟩, -, -⟩ := h; rfl

end

/-! ### The fields of a domain that its operations write -/

/-- The fields in which an operation on a domain is reported (R97). -/
def domReports : List Fld :=
  [NReg.TDd_STATUS_holdover_entered, NReg.TDd_STATUS_step_applied, NReg.TDd_STATUS_step_refused, NReg.TDd_REFUSED_refused,
   NReg.TDd_STATUS_lock_lost]

/-- The fields in which a switch of a domain's source is reported (R99). -/
def sourceReports : List Fld := [NReg.TDd_SRCSTAT_current, NReg.TDd_SRCSTAT_failover]

/-- The fields of a domain that its writer sets. -/
def domSettings : List Fld :=
  [NReg.TDd_CTRL_hold, NReg.TDd_CTRL_enable, NReg.TDd_SRC_revertive, NReg.TDd_SRC_ref_domain, NReg.TDd_SRC_secondary,
   NReg.TDd_SRC_primary]

/-- The registers of the error ring. -/
def ringFields : List Fld := [NReg.HWERR_PROD_seq, NReg.HWERR_LOST_count]

/-- NLD_TICK_CTRL.run lies apart from what an operation on a domain writes. -/
theorem tickRun_apart : ∀ d < 8, ∀ f ∈ domReports ++ sourceReports ++ domSettings, NReg.TICK_CTRL_run.key 0 ≠ f.key d := by decide

/-- The settings of a domain lie apart from its reports, from the error ring and from NLD_IRQ_PEND. -/
theorem domSettings_apart : ∀ d < 8, ∀ f ∈ domSettings, (∀ g ∈ domReports ++ sourceReports, f.key d ≠ g.key d) ∧
    (∀ g ∈ ringFields, f.key d ≠ g.key 0) ∧ f.key d ≠ NReg.IRQ_PEND_pend.key 0 := by decide

section
variable {d : Nat} (hd : d < 8) (n : Nld) {ds : List Nat} {f : Fld}
  (hf : f ∈ domReports ++ sourceReports ++ domSettings)
include hd hf

theorem Nld.put_redomed (v : Nat) : Nld.Redomed ds n (n.put f v d) :=
  ⟨⟨_, n.hwErr, n.doms, rfl⟩, n.put_run v (tickRun_apart d hd f hf), fun _ _ => rfl⟩

theorem Nld.count_redomed (v : Nat) : Nld.Redomed ds n (n.count f v d) :=
  ⟨⟨_, n.hwErr, n.doms, rfl⟩, Nld.bit_congr (Nld.get_count_ne _ _ _ _ _ _ (tickRun_apart d hd f hf)), fun _ _ => rfl⟩

theorem Nld.raise_redomed (v : Nat) : Nld.Redomed ds n (n.raise f v d) := by
  obtain ⟨r, e, h⟩ := n.raise_eq f v d
  refine ⟨⟨r, e, n.doms, h⟩, ?_, fun e _ => Nld.dom_of_doms (Nld.raise_doms n f v d) e⟩
  exact Nld.bit_congr (Nld.get_raise_ne _ _ _ _ _ _ (tickRun_apart d hd f hf) (by decide) (by decide))

end

/-! ### The report of an operation -/

section
variable (n : Nld) (d : Nat) (a : ClockActs)

/-- What holds of a Naloder, and stays so when a report is raised and when refused steps are counted, holds after the report of an
operation. -/
theorem Nld.clockActs_keeps {P : Nld → Prop} (hn : P n) (hraise : ∀ m, ∀ f ∈ domReports, P m → P (m.raise f 1 d))
    (hcount : ∀ m, P m → P (m.count NReg.TDd_REFUSED_refused 1 d)) : P (n.clockActs d a) := by
  have hflag {m : Nld} (hm : P m) (c : Bool) (f : Fld) (hf : f ∈ domReports) : P (if c then m.raise f 1 d else m) := by
    cases c
    · exact hm
    · exact hraise m f hf hm
  have hrefused {m : Nld} (hm : P m) (c : Bool) :
      P (if c then (m.raise NReg.TDd_STATUS_step_refused 1 d).count NReg.TDd_REFUSED_refused 1 d else m) := by
    cases c
    · exact hm
    · exact hcount _ (hraise m _ (by decide) hm)
  exact hflag (hrefused (hflag (hflag hn _ _ (by decide)) _ _ (by decide)) _) _ _ (by decide)

@[simp] theorem Nld.clockActs_none : n.clockActs d {} = n := rfl

@[simp] theorem Nld.clockActs_doms : (n.clockActs d a).doms = n.doms :=
  n.clockActs_keeps d a (P := fun m => m.doms = n.doms) rfl (fun m f _ hm => (Nld.raise_doms m f 1 d).trans hm) fun _ hm => hm

@[simp] theorem Nld.clockActs_dom (e : Nat) : (n.clockActs d a).dom e = n.dom e := Nld.dom_of_doms (n.clockActs_doms d a) e

theorem Nld.clockActs_redomed {d : Nat} (hd : d < 8) {ds : List Nat} : Nld.Redomed ds n (n.clockActs d a) :=
  n.clockActs_keeps d a (.refl n) (fun m f hf hm => hm.trans (m.raise_redomed hd (by simp [hf]) 1))
    fun m hm => hm.trans (m.count_redomed hd (by decide) 1)

/-- The report of an operation leaves the settings. -/
theorem Nld.clockActs_get_setting {d : Nat} (hd : d < 8) {f : Fld} (hf : f ∈ domSettings) :
    (n.clockActs d a).get f d = n.get f d := by
  obtain ⟨hr, hring, -⟩ := domSettings_apart d hd f hf
  refine n.clockActs_keeps d a (P := fun m => m.get f d = n.get f d) rfl (fun m g hg hm => ?_) fun m hm => ?_
  · exact (Nld.get_raise_ne _ _ _ _ _ _ (hr g (by simp [hg])) (hring _ (by decide)) (hring _ (by decide))).trans hm
  · exact (Nld.get_count_ne _ _ _ _ _ _ (hr _ (by decide))).trans hm

end

/-! ### A switch of the source -/

section
variable (n : Nld) (d : Nat) (b : TimeBase)

@[simp] theorem Nld.noteSource_doms : (n.noteSource d).doms = n.doms := Nld.raise_doms _ _ _ _

theorem Nld.noteSource_redomed {d : Nat} (hd : d < 8) {ds : List Nat} : Nld.Redomed ds n (n.noteSource d) :=
  .trans (n.put_redomed hd (by decide) _) (Nld.raise_redomed hd _ (by decide) 1)

theorem Nld.noteSource_get_setting {d : Nat} (hd : d < 8) {f : Fld} (hf : f ∈ domSettings) :
    (n.noteSource d).get f d = n.get f d := by
  obtain ⟨hr, hring, -⟩ := domSettings_apart d hd f hf
  exact (Nld.get_raise_ne _ _ _ _ _ _ (hr _ (by decide)) (hring _ (by decide)) (hring _ (by decide))).trans
    (Nld.get_put_ne _ _ _ _ _ _ (hr _ (by decide)))

/-- The reports of a domain's source lie apart from one another and from the error ring. -/
theorem srcstat_apart : ∀ d < 8, NReg.TDd_SRCSTAT_current.key d ≠ NReg.TDd_SRCSTAT_failover.key d ∧
    (∀ g ∈ ringFields, NReg.TDd_SRCSTAT_current.key d ≠ g.key 0) ∧
    NReg.TDd_SRCSTAT_current.key d ≠ NReg.IRQ_PEND_pend.key 0 := by decide

/-- The code of the source is shown below its failover. -/
theorem Nld.raise_failover_current {d : Nat} (hd : d < 8) :
    (n.raise NReg.TDd_SRCSTAT_failover 1 d).get NReg.TDd_SRCSTAT_current d = n.get NReg.TDd_SRCSTAT_current d := by
  obtain ⟨hne, hring, -⟩ := srcstat_apart d hd
  exact Nld.get_raise_ne _ _ _ _ _ _ hne (hring _ (by decide)) (hring _ (by decide))

/-- A domain that was not Locked does not change its source. -/
theorem Nld.failover_of_ne {b : TimeBase} (h : b.state ≠ .locked) : n.failover d b = n := if_neg fun hc => h hc.1

theorem Nld.failover_cases : n.failover d b = n ∨ n.failover d b = (n.setDom d (n.dom d).swap).noteSource d :=
  (ite_eq_or_eq _ _ _).symm

theorem Nld.setDom_redomed (x : NDomain) : Nld.Redomed [d] n (n.setDom d x) :=
  ⟨⟨n.regs, n.hwErr, _, rfl⟩, rfl, fun _ he => n.setDom_dom_other d x (List.ne_of_not_mem_cons he)⟩

theorem Nld.failover_redomed {d : Nat} (hd : d < 8) : Nld.Redomed [d] n (n.failover d b) := by
  obtain h | h := n.failover_cases d b <;> rw [h]
  · exact .refl n
  · exact (n.setDom_redomed d _).trans (Nld.noteSource_redomed _ hd)

/-- A switch of the source leaves the clock's state. -/
theorem Nld.failover_state : ((n.failover d b).dom d).tb.state = (n.dom d).tb.state := by
  obtain h | h := n.failover_cases d b <;> rw [h]
  rw [Nld.dom_of_doms (Nld.noteSource_doms _ d), Nld.setDom_dom_same]
  rfl

theorem Nld.failover_get_setting {d : Nat} (hd : d < 8) {f : Fld} (hf : f ∈ domSettings) :
    (n.failover d b).get f d = n.get f d := by
  obtain h | h := n.failover_cases d b <;> rw [h]
  exact Nld.noteSource_get_setting _ hd hf

end

/-! ### A clock operation on a domain -/

section
variable (n : Nld) (d : Nat) (f : ServoCfg → TimeBase → TimeBase × ClockActs)

/-- The domain with its clock as an operation leaves it. -/
def Nld.ticked (n : Nld) (d : Nat) (f : ServoCfg → TimeBase → TimeBase × ClockActs) : NDomain :=
  { n.dom d with tb := (f (n.servoCfg d) (n.dom d).tb).1 }

theorem Nld.onDom_eq : n.onDom d f =
    ((n.setDom d (n.ticked d f)).clockActs d (f (n.servoCfg d) (n.dom d).tb).2).failover d (n.dom d).tb := rfl

theorem Nld.onDom_redomed {d : Nat} (hd : d < 8) : Nld.Redomed [d] n (n.onDom d f) :=
  .trans (.trans (n.setDom_redomed d _) (Nld.clockActs_redomed _ _ hd)) (Nld.failover_redomed _ _ hd)

/-- A domain that was not Locked is as the operation leaves it. -/
theorem Nld.onDom_dom (h : (n.dom d).tb.state ≠ .locked) : (n.onDom d f).dom d = n.ticked d f := by
  rw [Nld.onDom_eq, Nld.failover_of_ne _ _ h, Nld.clockActs_dom, Nld.setDom_dom_same]

/-- An operation with nothing to report on a domain that was not Locked changes its clock alone. -/
theorem Nld.onDom_quiet (h : (n.dom d).tb.state ≠ .locked) (ha : (f (n.servoCfg d) (n.dom d).tb).2 = {}) :
    n.onDom d f = n.setDom d (n.ticked d f) := by
  rw [Nld.onDom_eq, Nld.failover_of_ne _ _ h, ha, Nld.clockActs_none]

theorem Nld.onDom_state : ((n.onDom d f).dom d).tb.state = (f (n.servoCfg d) (n.dom d).tb).1.state := by
  rw [Nld.onDom_eq, Nld.failover_state, Nld.clockActs_dom, Nld.setDom_dom_same]
  rfl

theorem Nld.onDom_get_setting {d : Nat} (hd : d < 8) {g : Fld} (hg : g ∈ domSettings) : (n.onDom d f).get g d = n.get g d := by
  rw [Nld.onDom_eq, Nld.failover_get_setting _ _ hd hg, Nld.clockActs_get_setting _ _ hd hg]
  rfl

end

/-! ### What follows a change -/

section
variable {b n : Nld} (h : n.bit NReg.TICK_CTRL_run = b.bit NReg.TICK_CTRL_run)
include h

theorem Nld.after_dom (e : Nat) : (Nld.after b n).dom e = n.dom e := Nld.dom_of_doms (Nld.after_doms h) e

theorem Nld.after_fife (p : Nat) : (Nld.after b n).fife p = n.fife p := by rw [Nld.fife, Nld.after_chains h, Nld.fife]

theorem Nld.after_horn (p : Nat) : (Nld.after b n).horn p = n.horn p := by rw [Nld.horn, Nld.after_group h, Nld.horn]

end

section
variable {d : Nat} {b n : Nld} (h : Nld.Redomed [d] b n)
include h

theorem Nld.Redomed.after_dom (e : Nat) : (Nld.after b n).dom e = n.dom e := Nld.after_dom h.run e

theorem Nld.Redomed.after_others (e : Nat) (he : e ≠ d) : (Nld.after b n).dom e = b.dom e :=
  (Nld.after_dom h.run e).trans (h.others e (by simpa using he))

theorem Nld.Redomed.after_only : Nld.only [.regs, .hwErr, .doms] b (Nld.after b n) := (Nld.only_after h.run _ _).2 h.only

theorem Nld.Redomed.after_setting (hd : d < 8) {f : Fld} (hf : f ∈ domSettings) : (Nld.after b n).get f d = n.get f d :=
  Nld.after_get h.run _ _ (domSettings_apart d hd f hf).2.2

end

end Sys2Proof.Machine
end

section
/-! SUPPORT. The timers and registers of Naloder's domains (R79, R82, R85, R92, R99, R100), and the statement on them. -/

namespace Sys2Proof.Machine

-- One theorem at a time: elaborated side by side, those of this text need more stacks than the check has memory for.
set_option Elab.async false

open Sys2Proof

/-! ### How a command's claim follows -/

/-- A write command that is a function on a Naloder that takes writes has every property its result has after what follows a change. -/
theorem NldDoes.of_onNldWrite {c : Instr} {s : State} {P : Nld → Prop} (f : Nld → Nld) (hc : exec c s = onNldWrite f s)
    (hw : s.nld.writable) (hP : P (Nld.after s.nld (f s.nld))) : NldDoes c s P :=
  ⟨_, hc.trans (onNldWrite_run f s hw), hP⟩

/-- A command that replaces one domain has every property that this domain, the others as they were and the frame give. -/
theorem NldDoes.of_setDom {c : Instr} {s : State} {P : Nld → Prop} {d : Nat} {x : NDomain} {m : Nld}
    (hc : exec c s = .next { s with nld := Nld.after s.nld m }) (hm : m = s.nld.setDom d x)
    (hP : ∀ n, n.dom d = x → (∀ e, e ≠ d → n.dom e = s.nld.dom e) → Nld.only [.doms] s.nld n → P n) : NldDoes c s P := by
  have hrun : m.bit NReg.TICK_CTRL_run = s.nld.bit NReg.TICK_CTRL_run := by rw [hm]; rfl
  refine ⟨_, hc, hP _ ?_ (fun e he => ?_) ?_⟩
  · rw [Nld.after_dom hrun, hm, Nld.setDom_dom_same]
  · rw [Nld.after_dom hrun, hm, s.nld.setDom_dom_other d x he]
  · rw [Nld.only_after hrun, hm]
    exact s.nld.setDom_only d x

/-! ### The source of a domain (R91, R99, R100) -/

/-- The fields of NLD_TDd_SRC with a word in them. -/
def Nld.putSrc (n : Nld) (d w : Nat) : Nld :=
  (((n.put NReg.TDd_SRC_revertive (w / 2048) d).put NReg.TDd_SRC_ref_domain (w / 256) d).put
    NReg.TDd_SRC_secondary (w / 16) d).put NReg.TDd_SRC_primary w d

/-- R91, R100: a domain that follows a source it had, or a new one, and no other than its second. -/
def NDomain.follow (x : NDomain) (old : Nat × Nat) (p q : Nat) : NDomain :=
  let x := if p = old.1 then { x with onSecond := false }
    else if p = old.2 then { x.swap with onSecond := false }
    else { x with tb := { x.tb with main := {} }, shift := 0, onSecond := false }
  if q = old.2 ∨ q = old.1 then x else { x with tb := { x.tb with second := {} } }

/-- R99: the source shown, and its change where there was another. -/
def Nld.showSource (n : Nld) (d p : Nat) : Nld :=
  let was := n.get NReg.TDd_SRCSTAT_current d
  let n := n.put NReg.TDd_SRCSTAT_current p d
  if was = p ∨ was = 0 then n else n.raise NReg.TDd_SRCSTAT_failover 1 d

/-- A Naloder whose domain follows the sources that its registers name, in the place of two others. -/
def Nld.followSrc (n : Nld) (d : Nat) (old : Nat × Nat) : Nld :=
  (n.setDom d ((n.dom d).follow old (n.get NReg.TDd_SRC_primary d) (n.get NReg.TDd_SRC_secondary d))).showSource d
    (n.get NReg.TDd_SRC_primary d)

section
variable {n : Nld} {d : Nat} (w : Nat)

theorem Nld.writeSrc_running (h : n.bit NReg.TICK_CTRL_run = true) : n.writeSrc d w = n.refuseCfg := if_pos h

theorem Nld.writeSrc_stopped (h : n.bit NReg.TICK_CTRL_run = false) : n.writeSrc d w = (n.putSrc d w).followSrc d (n.codes d) := by
  unfold Nld.writeSrc
  rw [h, if_neg Bool.false_ne_true]
  rfl

theorem Nld.showSource_dom (n : Nld) (p e : Nat) : (n.showSource d p).dom e = n.dom e := by
  apply Nld.dom_of_doms
  unfold Nld.showSource
  simp only
  split
  · rfl
  · exact Nld.raise_doms _ _ _ _

theorem NDomain.follow_keeps (x : NDomain) (old : Nat × Nat) (p q : Nat) :
    (x.follow old p q).onSecond = false ∧ (x.follow old p q).tb.value = x.tb.value := by
  unfold NDomain.follow
  simp only
  split_ifs <;> exact ⟨rfl, rfl⟩

end

section
variable {d : Nat} (hd : d < 8)
include hd

/-- The settings of a domain lie at different places. -/
theorem domSettings_nodup : ∀ f ∈ domSettings, ∀ g ∈ domSettings, f ≠ g → f.key d ≠ g.key d := by
  revert d
  decide

theorem Nld.get_put_setting (n : Nld) (v : Nat) {f g : Fld} (hf : f ∈ domSettings := by decide) (hg : g ∈ domSettings := by decide)
    (hne : f ≠ g := by decide) : (n.put g v d).get f d = n.get f d :=
  Nld.get_put_ne _ _ _ _ _ _ (domSettings_nodup hd f hf g hg hne)

theorem Nld.putSrc_get (n : Nld) (w : Nat) :
    (n.putSrc d w).get NReg.TDd_SRC_primary d = w % 16 ∧ (n.putSrc d w).get NReg.TDd_SRC_secondary d = w / 16 % 16 ∧
    (n.putSrc d w).get NReg.TDd_SRC_ref_domain d = w / 256 % 8 ∧ (n.putSrc d w).get NReg.TDd_SRC_revertive d = w / 2048 % 2 := by
  unfold Nld.putSrc
  refine ⟨Nld.get_put_same _ _ _ _, ?_, ?_, ?_⟩
  · rw [Nld.get_put_setting hd, Nld.get_put_same]; rfl
  · rw [Nld.get_put_setting hd, Nld.get_put_setting hd, Nld.get_put_same]; rfl
  · rw [Nld.get_put_setting hd, Nld.get_put_setting hd, Nld.get_put_setting hd, Nld.get_put_same]; rfl

theorem Nld.putSrc_redomed (n : Nld) (w : Nat) {ds : List Nat} : Nld.Redomed ds n (n.putSrc d w) :=
  .trans (.trans (.trans (n.put_redomed hd (by decide) _) (Nld.put_redomed hd _ (by decide) _))
    (Nld.put_redomed hd _ (by decide) _)) (Nld.put_redomed hd _ (by decide) _)

theorem Nld.showSource_redomed (n : Nld) (p : Nat) {ds : List Nat} : Nld.Redomed ds n (n.showSource d p) :=
  .ite (n.put_redomed hd (by decide) p) ((n.put_redomed hd (by decide) p).trans (Nld.raise_redomed hd _ (by decide) 1))

theorem Nld.showSource_get_setting (n : Nld) (p : Nat) {f : Fld} (hf : f ∈ domSettings) : (n.showSource d p).get f d = n.get f d := by
  obtain ⟨hr, hring, -⟩ := domSettings_apart d hd f hf
  have hput : (n.put NReg.TDd_SRCSTAT_current p d).get f d = n.get f d := Nld.get_put_ne _ _ _ _ _ _ (hr _ (by decide))
  unfold Nld.showSource
  simp only
  split
  · exact hput
  · exact (Nld.get_raise_ne _ _ _ _ _ _ (hr _ (by decide)) (hring _ (by decide)) (hring _ (by decide))).trans hput

theorem Nld.showSource_current (n : Nld) (p : Nat) : (n.showSource d p).get NReg.TDd_SRCSTAT_current d = p % 16 := by
  unfold Nld.showSource
  simp only
  split
  · exact Nld.get_put_same _ _ _ _
  · exact (Nld.raise_failover_current _ hd).trans (Nld.get_put_same _ _ _ _)

/-- R99, R100: what a write of NLD_TDd_SRC leaves while ticks do not run. -/
theorem Nld.writeSrc_does {n : Nld} (h : n.bit NReg.TICK_CTRL_run = false) (w : Nat) :
    Nld.Redomed [d] n (n.writeSrc d w) ∧ (∀ f ∈ domSettings, (n.writeSrc d w).get f d = (n.putSrc d w).get f d) ∧
    (n.writeSrc d w).get NReg.TDd_SRCSTAT_current d = w % 16 ∧ ((n.writeSrc d w).dom d).onSecond = false ∧
    ((n.writeSrc d w).dom d).tb.value = (n.dom d).tb.value := by
  obtain ⟨hp, -, -, -⟩ := n.putSrc_get hd w
  obtain ⟨hsecond, hvalue⟩ := (n.dom d).follow_keeps (n.codes d) ((n.putSrc d w).get NReg.TDd_SRC_primary d)
    ((n.putSrc d w).get NReg.TDd_SRC_secondary d)
  rw [Nld.writeSrc_stopped w h]
  unfold Nld.followSrc
  refine ⟨?_, fun f hf => ?_, ?_, ?_, ?_⟩
  · exact .trans (.trans (n.putSrc_redomed hd w) (Nld.setDom_redomed _ d _)) (Nld.showSource_redomed hd _ _)
  · exact Nld.showSource_get_setting hd _ _ hf
  · rw [Nld.showSource_current hd, hp]
    exact Nat.mod_mod _ _
  · rw [Nld.showSource_dom, Nld.setDom_dom_same]
    exact hsecond
  · rw [Nld.showSource_dom, Nld.setDom_dom_same]
    exact hvalue

end

/-- R100: a refused write of the configuration is reported, and only that. -/
theorem Nld.refuseCfg_keeps (n : Nld) : n.refuseCfg.bit NReg.TICK_CTRL_run = n.bit NReg.TICK_CTRL_run ∧
    n.refuseCfg.bit NReg.TICK_ERR_cfg_refused = true ∧ n.refuseCfg.doms = n.doms ∧ Nld.only [.regs, .hwErr] n n.refuseCfg := by
  refine ⟨Nld.bit_congr (Nld.get_raise_ne _ _ _ _ _ _ (by decide) (by decide) (by decide)),
    Nld.bit_raise _ rfl (by decide) (by decide), Nld.raise_doms _ _ _ _, ?_⟩
  obtain ⟨r, e, h⟩ := n.raise_eq NReg.TICK_ERR_cfg_refused 1 0
  rw [Nld.refuseCfg, h]
  intro p hp
  cases p <;> simp [Nld.same] at hp ⊢

theorem Nld.refuseCfg_get_setting (n : Nld) {d : Nat} (hd : d < 8) {f : Fld} (hf : f ∈ domSettings) :
    n.refuseCfg.get f d = n.get f d := by
  obtain ⟨-, hring, -⟩ := domSettings_apart d hd f hf
  have hcfg : ∀ d < 8, ∀ f ∈ domSettings, f.key d ≠ NReg.TICK_ERR_cfg_refused.key 0 := by decide
  exact Nld.get_raise_ne _ _ _ _ _ _ (hcfg d hd f hf) (hring _ (by decide)) (hring _ (by decide))

/-! ### The timers -/

section
variable {s : State} (h : s.nld.runs) (d : Fin 8)
include h

theorem delayReqTimeout_nld_does (seq : BitVec 16) : NldDoes (.delayReqTimeout (.nld d) seq true) s fun n =>
    (n.dom d.val).tb.second.reqs = (s.nld.dom d.val).tb.second.reqs.filter (fun r => r.seq ≠ seq.toNat) ∧
    (n.dom d.val).tb.main = (s.nld.dom d.val).tb.main ∧ (n.dom d.val).tb.value = (s.nld.dom d.val).tb.value ∧
    (∀ e, e ≠ d.val → n.dom e = s.nld.dom e) ∧ Nld.only [.doms] s.nld n := by
  have hc : exec (.delayReqTimeout (.nld d) seq true) s = onNld (fun n => n.dropReq d.val seq.toNat true) s := rfl
  exact .of_setDom (hc.trans (onNld_run _ s h)) rfl fun n hn ho hk => ⟨by rw [hn]; rfl, by rw [hn]; rfl, by rw [hn]; rfl, ho, hk⟩

theorem delayValidExpiry_nld_does (snd : Bool) : NldDoes (.delayValidExpiry (.nld d) snd) s fun n =>
    (if snd then (n.dom d.val).tb.second.delayValid = false else (n.dom d.val).tb.main.delayValid = false) ∧
    (n.dom d.val).tb.state = (s.nld.dom d.val).tb.state ∧ (∀ e, e ≠ d.val → n.dom e = s.nld.dom e) ∧ Nld.only [.doms] s.nld n := by
  have hc : exec (.delayValidExpiry (.nld d) snd) s = onNld (fun n => n.delayExpire d.val snd) s := rfl
  refine .of_setDom (hc.trans (onNld_run _ s h)) rfl fun n hn ho hk => ⟨?_, ?_, ho, hk⟩
  · rw [hn]; cases snd <;> rfl
  · rw [hn]; cases snd <;> rfl

/-- R82: without a sample for too long a domain goes from Converging to Holdover. -/
theorem holdoverTimeout_nld_does (hst : (s.nld.dom d.val).tb.state = .converging) : NldDoes (.holdoverTimeout (.nld d)) s fun n =>
    (n.dom d.val).tb.state = .holdover ∧ (n.dom d.val).tb.adj = (s.nld.dom d.val).tb.adj ∧
    (n.dom d.val).tb.value = (s.nld.dom d.val).tb.value ∧ (∀ e, e ≠ d.val → n.dom e = s.nld.dom e) ∧
    Nld.only [.regs, .hwErr, .doms] s.nld n := by
  refine .of_onNld (fun n => n.onDom d.val (fun _ t => t.toHoldover)) rfl h ?_
  have hon := s.nld.onDom_redomed (fun _ t => t.toHoldover) d.isLt
  have hdom := s.nld.onDom_dom d.val (fun _ t => t.toHoldover) (by rw [hst]; decide)
  have hrun := TimeBase.toHoldover_running (.inl hst)
  rw [hon.after_dom, hdom, Nld.ticked, hrun]
  exact ⟨rfl, rfl, rfl, hon.after_others, hon.after_only⟩

/-- R92: a domain goes back to its primary source. -/
theorem revertTimer_nld_does (hsec : (s.nld.dom d.val).onSecond = true) (hrev : s.nld.bit NReg.TDd_SRC_revertive d.val = true)
    (hv : (s.nld.dom d.val).tb.second.delayValid = true) : NldDoes (.revertTimer (some d)) s fun n =>
      (n.dom d.val).onSecond = false ∧ (n.dom d.val).reverting = true ∧
      (n.dom d.val).shift = (s.nld.dom d.val).shift - (s.nld.dom d.val).diff * 65536 ∧
      (n.dom d.val).tb.value = (s.nld.dom d.val).tb.value ∧ (n.dom d.val).tb.main = (s.nld.dom d.val).tb.second ∧
      (n.dom d.val).tb.second = (s.nld.dom d.val).tb.main ∧
      n.get NReg.TDd_SRCSTAT_current d.val = s.nld.get NReg.TDd_SRC_primary d.val % 16 ∧
      (∀ e, e ≠ d.val → n.dom e = s.nld.dom e) ∧ Nld.only [.regs, .hwErr, .doms] s.nld n := by
  refine .of_onNld (fun n => n.revert d.val) rfl h ?_
  obtain ⟨-, -, hpend⟩ := srcstat_apart d.val d.isLt
  have hrevert : s.nld.revert d.val = (s.nld.setDom d.val { (s.nld.dom d.val).swap with reverting := true }).noteSource d.val :=
    if_pos ⟨hsec, hrev, hv⟩
  have hon : Nld.Redomed [d.val] s.nld (s.nld.revert d.val) := by
    rw [hrevert]
    exact (s.nld.setDom_redomed d.val _).trans (Nld.noteSource_redomed _ d.isLt)
  have hdom : (s.nld.revert d.val).dom d.val = { (s.nld.dom d.val).swap with reverting := true } := by
    rw [hrevert, Nld.dom_of_doms (Nld.noteSource_doms _ _), Nld.setDom_dom_same]
  have hback : (s.nld.dom d.val).swap.onSecond = false := by simp [NDomain.swap, hsec]
  have hshift : (s.nld.dom d.val).swap.shift = (s.nld.dom d.val).shift - (s.nld.dom d.val).diff * 65536 := by
    simp [NDomain.swap, hsec]
  rw [hon.after_dom, hdom]
  refine ⟨hback, rfl, hshift, rfl, rfl, rfl, ?_, hon.after_others, hon.after_only⟩
  rw [Nld.after_get hon.run _ _ hpend, hrevert, Nld.noteSource, Nld.setDom_dom_same, hback, if_neg Bool.false_ne_true,
    Nld.raise_failover_current _ d.isLt, Nld.get_put_same]
  rfl

/-- R84, R85: a step that is due moves its domain. -/
theorem stepAct_nld_does {amt : Int} {t : Nat} (hs : (s.nld.dom d.val).tb.sched = some (amt, t)) (ht : t ≤ (s.nld.dom d.val).tb.ns)
    (hl : (s.nld.dom d.val).tb.state ≠ .locked) : NldDoes (.stepAct (.nld d)) s fun n =>
      (n.dom d.val).tb.value = fieldOf 96 ((s.nld.dom d.val).tb.value + amt * 65536) ∧ (n.dom d.val).tb.sched = none ∧
      (n.dom d.val).tb.pending = none ∧ (n.dom d.val).tb.state ≠ .refusing ∧ (∀ e, e ≠ d.val → n.dom e = s.nld.dom e) ∧
      Nld.only [.regs, .hwErr, .doms] s.nld n := by
  refine .of_onNld (fun n => n.onDom d.val TimeBase.stepAct) rfl h ?_
  have hon := s.nld.onDom_redomed TimeBase.stepAct d.isLt
  obtain ⟨hvalue, hsched, hpending, hstate, -⟩ := TimeBase.stepAct_due (c := s.nld.servoCfg d.val) hs ht
  rw [hon.after_dom, s.nld.onDom_dom d.val _ hl]
  exact ⟨hvalue, hsched, hpending, hstate, hon.after_others, hon.after_only⟩

end

/-! ### The registers -/

section
variable {s : State} (d : Fin 8) (hw : s.nld.writable)
include hw

/-- R82: the hold bit takes a domain from Converging to Holdover. -/
theorem timeBaseHold_nld_does (hst : (s.nld.dom d.val).tb.state = .converging) : NldDoes (.timeBaseHold (.nld d) true) s fun n =>
    n.get NReg.TDd_CTRL_hold d.val = 1 ∧ (n.dom d.val).tb.state = .holdover ∧ Nld.only [.regs, .hwErr, .doms] s.nld n := by
  refine .of_onNldWrite (fun n => n.writeHold d.val true) rfl hw ?_
  have hhold : ((s.nld.put NReg.TDd_CTRL_hold true.toNat d.val).servoCfg d.val).hold = true := Nld.bit_put_same _ _ _ _
  have hon : Nld.Redomed [d.val] s.nld (s.nld.writeHold d.val true) :=
    .trans (s.nld.put_redomed d.isLt (by decide) 1) (Nld.onDom_redomed _ _ d.isLt)
  rw [hon.after_setting d.isLt (by decide), hon.after_dom]
  refine ⟨?_, ?_, hon.after_only⟩
  · exact (Nld.onDom_get_setting _ _ d.isLt (by decide)).trans (Nld.get_put_same _ _ _ _)
  · refine (Nld.onDom_state _ _ _).trans ?_
    change (TimeBase.holdNow _ (s.nld.dom d.val).tb).1.state = .holdover
    rw [TimeBase.holdNow_set hhold, TimeBase.toHoldover_running (.inl hst)]

/-- R82: the enable bit cleared takes a domain to Free. -/
theorem timeBaseDisable_nld_does : NldDoes (.timeBaseEnable (.nld d) false) s fun n =>
    n.get NReg.TDd_CTRL_enable d.val = 0 ∧ (n.dom d.val).tb.state = .free ∧ Nld.only [.regs, .hwErr, .doms] s.nld n := by
  refine .of_onNldWrite (fun n => n.writeEnable d.val false) rfl hw ?_
  have hdisable : s.nld.writeEnable d.val false = (s.nld.put NReg.TDd_CTRL_enable 0 d.val).onDom d.val (fun _ b => b.toFree) := by
    simp [Nld.writeEnable]
  have hon : Nld.Redomed [d.val] s.nld (s.nld.writeEnable d.val false) := by
    rw [hdisable]
    exact .trans (s.nld.put_redomed d.isLt (by decide) 0) (Nld.onDom_redomed _ _ d.isLt)
  rw [hon.after_setting d.isLt (by decide), hon.after_dom, hdisable, Nld.onDom_get_setting _ _ d.isLt (by decide), Nld.get_put_same,
    Nld.onDom_state, TimeBase.toFree_state]
  exact ⟨rfl, rfl, hdisable ▸ hon.after_only⟩

/-- R85: what a step scheduled for a domain leaves. -/
theorem stepCmd_nld_does {c : Instr} {f : Nld → Nld} {amt : Int} {t : Nat} (hc : exec c s = onNldWrite f s)
    (hf : f s.nld = s.nld.setTb d.val ((s.nld.dom d.val).tb.schedule amt t)) : NldDoes c s fun n =>
      (n.dom d.val).tb.sched = some (amt, t) ∧ (n.dom d.val).tb.value = (s.nld.dom d.val).tb.value ∧ Nld.only [.doms] s.nld n :=
  .of_setDom (hc.trans (onNldWrite_run f s hw)) hf fun n hn _ hk => ⟨by rw [hn]; rfl, by rw [hn]; rfl, hk⟩

/-- R100: a write of NLD_TDd_SRC while ticks run is ignored. -/
theorem srcWrite_running_does (w : BitVec 12) (hr : s.nld.bit NReg.TICK_CTRL_run = true) : NldDoes (.tickSrcWrite (.nld d w)) s fun n =>
    n.doms = s.nld.doms ∧ n.get NReg.TDd_SRC_primary d.val = s.nld.get NReg.TDd_SRC_primary d.val ∧
    Nld.only [.regs, .hwErr] s.nld n := by
  refine .of_onNldWrite (fun n => n.writeSrc d.val w.toNat) rfl hw ?_
  obtain ⟨hrun, -, hdoms, honly⟩ := s.nld.refuseCfg_keeps
  obtain ⟨-, -, hpend⟩ := domSettings_apart d.val d.isLt NReg.TDd_SRC_primary (by decide)
  simp only [Nld.writeSrc_running _ hr]
  refine ⟨(Nld.after_doms hrun).trans hdoms, ?_, (Nld.only_after hrun _ _).2 honly⟩
  rw [Nld.after_get hrun _ _ hpend, s.nld.refuseCfg_get_setting d.isLt (by decide)]

/-- R99, R100: a write of NLD_TDd_SRC while ticks do not run is taken, without a step. -/
theorem srcWrite_stopped_does (w : BitVec 12) (hr : s.nld.bit NReg.TICK_CTRL_run = false) :
    NldDoes (.tickSrcWrite (.nld d w)) s fun n =>
      n.get NReg.TDd_SRC_primary d.val = w.toNat % 16 ∧ n.get NReg.TDd_SRC_secondary d.val = w.toNat / 16 % 16 ∧
      n.get NReg.TDd_SRCSTAT_current d.val = w.toNat % 16 ∧ (n.dom d.val).onSecond = false ∧
      (n.dom d.val).tb.value = (s.nld.dom d.val).tb.value ∧ (∀ e, e ≠ d.val → n.dom e = s.nld.dom e) ∧
      Nld.only [.regs, .hwErr, .doms] s.nld n := by
  refine .of_onNldWrite (fun n => n.writeSrc d.val w.toNat) rfl hw ?_
  obtain ⟨hon, hset, hcur, hsecond, hvalue⟩ := Nld.writeSrc_does d.isLt hr w.toNat
  obtain ⟨hp, hq, -, -⟩ := s.nld.putSrc_get d.isLt w.toNat
  obtain ⟨-, -, hpend⟩ := srcstat_apart d.val d.isLt
  rw [hon.after_setting d.isLt (by decide), hon.after_setting d.isLt (by decide), Nld.after_get hon.run _ _ hpend, hon.after_dom,
    hset _ (by decide), hset _ (by decide)]
  exact ⟨hp, hq, hcur, hsecond, hvalue, hon.after_others, hon.after_only⟩

end

/-- Settles O8: each timer and register of a domain leaves in it what R79, R82, R85, R92, R99 and R100 say, and the other domains as
they were. -/
theorem nldTimeControl : Obligations.NldTimeControl := by
  unfold Obligations.NldTimeControl
  exact ⟨fun s d seq h => delayReqTimeout_nld_does h d seq, fun s d snd h => delayValidExpiry_nld_does h d snd,
    fun s d h hst => holdoverTimeout_nld_does h d hst, fun s d h hsec hrev hv => revertTimer_nld_does h d hsec hrev hv,
    fun s d hw => ⟨fun hst => timeBaseHold_nld_does d hw hst, timeBaseDisable_nld_does d hw,
      stepCmd_nld_does d hw (f := fun n => n.stepCmd d.val true false) rfl rfl, fun x hx =>
      stepCmd_nld_does d hw (f := fun n => n.stepCmd d.val false true) rfl
        (congrArg (s.nld.setTb d.val) (TimeBase.acceptPending_some hx _))⟩,
    fun s d amt t h hs ht hl => stepAct_nld_does h d hs ht hl,
    fun s d w hw => ⟨fun hr => srcWrite_running_does d hw w hr, fun hr => srcWrite_stopped_does d hw w hr⟩⟩

end Sys2Proof.Machine
end

section
/-! SUPPORT. What is locked while ticks run (R100): NLD_TIME_CFG and NLD_TDd_SRC, and the statement on them. -/

namespace Sys2Proof.Machine

-- One theorem at a time: elaborated side by side, those of this text need more stacks than the check has memory for.
set_option Elab.async false

open Sys2Proof

/-! ### NLD_TICK_ERR.cfg_refused -/

section
variable {n : Nld} {f : Fld} {i : Nat}

/-- An event that is set is not raised again. -/
theorem Nld.raise_of_odd (h : n.get f i % 2 = 1) : n.raise f 1 i = n := by
  have hand : 1 &&& n.get f i = 1 := by rw [Nat.and_comm, Nat.and_one_is_mod, h]
  simp [Nld.raise, hand]

/-- An event that is raised reads as set. -/
theorem Nld.get_raise_odd (hw : f.width = 1) (h1 : f.key i ≠ NReg.HWERR_PROD_seq.key 0) (h2 : f.key i ≠ NReg.HWERR_LOST_count.key 0) :
    (n.raise f 1 i).get f i % 2 = 1 := by
  rcases Nat.mod_two_eq_zero_or_one (n.get f i) with h | h
  · have hand : 1 &&& n.get f i = 0 := by rw [Nat.and_comm, Nat.and_one_is_mod, h]
    have hor : (n.get f i ||| 1) % 2 = 1 := Nat.or_mod_two_eq_one.2 (.inr rfl)
    simp [Nld.raise, hand, Nld.get_hwRecord_ne _ _ _ _ _ h1 h2, hw, hor]
  · rw [Nld.raise_of_odd h, h]

end

/-- Refusing twice is refusing once. -/
theorem Nld.refuseCfg_refuseCfg (n : Nld) : n.refuseCfg.refuseCfg = n.refuseCfg :=
  Nld.raise_of_odd (Nld.get_raise_odd rfl (by decide) (by decide))

/-- The fields that a refusal writes. -/
def refuseFields : List (Fld × Nat) := [(NReg.TICK_ERR_cfg_refused, 0), (NReg.HWERR_PROD_seq, 0), (NReg.HWERR_LOST_count, 0)]

theorem Nld.refuseCfg_regsOnly (n : Nld) : Nld.regsOnly refuseFields n n.refuseCfg := by
  intro f i _ hf
  simp only [refuseFields, List.forall_mem_cons] at hf
  obtain ⟨hcfg, hseq, hlost, -⟩ := hf
  exact Nld.get_raise_ne _ _ _ _ _ _ hcfg hseq hlost

/-- What a refused write leaves once it is settled. -/
theorem Nld.after_refuseCfg (n : Nld) : (∀ e, (Nld.after n n.refuseCfg).dom e = n.dom e) ∧
    (Nld.after n n.refuseCfg).bit NReg.TICK_ERR_cfg_refused = true ∧ Nld.only [.regs, .hwErr] n (Nld.after n n.refuseCfg) ∧
    Nld.regsOnly refuseFields n (Nld.after n n.refuseCfg) := by
  obtain ⟨hrun, hbit, hdoms, honly⟩ := n.refuseCfg_keeps
  refine ⟨fun e => ?_, ?_, (Nld.only_after hrun _ _).2 honly, (Nld.regsOnly_after hrun _ _).2 n.refuseCfg_regsOnly⟩
  · rw [Nld.after_dom hrun, Nld.dom_of_doms hdoms]
  · rw [Nld.bit_congr (Nld.after_get hrun _ _ (by decide)), hbit]

/-! ### NLD_TIME_CFG -/

/-- The fields of NLD_TIME_CFG. -/
def timeCfg : List Fld := [NReg.TIME_CFG_ezcia_port, NReg.TIME_CFG_ezcia_mode, NReg.TIME_CFG_sync_iv_us]

theorem nldFields_timeCfg : nldFields 0xC1000 =
    [(NReg.TIME_CFG_ezcia_port, 0), (NReg.TIME_CFG_ezcia_mode, 0), (NReg.TIME_CFG_sync_iv_us, 0)] := by decide +kernel

theorem mem_timeCfg {x : Fld × Nat} (h : x ∈ nldFields 0xC1000) : x.1 ∈ timeCfg ∧ x.2 = 0 := by
  rw [nldFields_timeCfg] at h
  fin_cases h <;> exact ⟨by decide, rfl⟩

/-- They lie apart from one another, from what a refusal writes, from NLD_IRQ_PEND and from NLD_TICK_CTRL.run. -/
theorem timeCfg_apart : ∀ f ∈ timeCfg, (∀ g ∈ timeCfg, g ≠ f → f.key 0 ≠ g.key 0) ∧
    (∀ x ∈ refuseFields, f.key 0 ≠ x.1.key x.2) ∧ f.key 0 ≠ NReg.IRQ_PEND_pend.key 0 ∧ NReg.TICK_CTRL_run.key 0 ≠ f.key 0 := by
  decide

section
variable {n : Nld} {f : Fld} (hf : f ∈ timeCfg) (v : Nat)
include hf

theorem timeCfg_cases : f = NReg.TIME_CFG_ezcia_port ∨ f = NReg.TIME_CFG_ezcia_mode ∨ f = NReg.TIME_CFG_sync_iv_us := by
  simpa [timeCfg] using hf

theorem Nld.writeField_timeCfg_stopped (h : n.bit NReg.TICK_CTRL_run = false) : n.writeField false f v 0 = n.put f v := by
  have hopen : ¬ (runLocked f = true ∧ n.bit NReg.TICK_CTRL_run = true) := by rw [h]; exact fun hc => Bool.false_ne_true hc.2
  rcases timeCfg_cases hf with rfl | rfl | rfl <;> exact if_neg hopen

theorem Nld.writeField_timeCfg_running (h : n.bit NReg.TICK_CTRL_run = true) : n.writeField false f v 0 = n.refuseCfg := by
  rcases timeCfg_cases hf with rfl | rfl | rfl <;> exact if_pos ⟨rfl, h⟩

end

section
variable {n : Nld} (w : Nat)

/-- The word of NLD_TIME_CFG with its fields written. -/
def Nld.putTimeCfg (n : Nld) (w : Nat) : Nld :=
  ((n.put NReg.TIME_CFG_ezcia_port (NReg.TIME_CFG_ezcia_port.part w)).put NReg.TIME_CFG_ezcia_mode
    (NReg.TIME_CFG_ezcia_mode.part w)).put NReg.TIME_CFG_sync_iv_us (NReg.TIME_CFG_sync_iv_us.part w)

/-- A write of NLD_TIME_CFG is the write of its fields. -/
theorem Nld.writeBar_timeCfg (hw : n.writable) : n.writeBar 0 0xC1000 w true =
    ((n.writeField false NReg.TIME_CFG_ezcia_port (NReg.TIME_CFG_ezcia_port.part w) 0).writeField false NReg.TIME_CFG_ezcia_mode
      (NReg.TIME_CFG_ezcia_mode.part w) 0).writeField false NReg.TIME_CFG_sync_iv_us (NReg.TIME_CFG_sync_iv_us.part w) 0 := by
  have haddr : nldAddr 0 0xC1000 = 0xC1000 := rfl
  rw [Nld.writeBar_hard hw (by decide) (by decide) (by decide) (by decide) (by decide), Nld.writeHard_fields (by decide), haddr,
    nldFields_timeCfg]
  rfl

theorem Nld.putTimeCfg_run : (n.putTimeCfg w).bit NReg.TICK_CTRL_run = n.bit NReg.TICK_CTRL_run :=
  (Nld.put_run _ _ (by decide)).trans ((Nld.put_run _ _ (by decide)).trans (Nld.put_run _ _ (by decide)))

theorem Nld.writeBar_timeCfg_stopped (hw : n.writable) (h : n.bit NReg.TICK_CTRL_run = false) :
    n.writeBar 0 0xC1000 w true = n.putTimeCfg w := by
  have hrun (m : Nld) (hm : m.bit NReg.TICK_CTRL_run = false) {f : Fld} (hf : f ∈ timeCfg) (v : Nat) :
      (m.put f v).bit NReg.TICK_CTRL_run = false := (m.put_run v (timeCfg_apart f hf).2.2.2).trans hm
  have hport := hrun n h (f := NReg.TIME_CFG_ezcia_port) (by decide) (NReg.TIME_CFG_ezcia_port.part w)
  have hmode := hrun _ hport (f := NReg.TIME_CFG_ezcia_mode) (by decide) (NReg.TIME_CFG_ezcia_mode.part w)
  rw [Nld.writeBar_timeCfg w hw, Nld.writeField_timeCfg_stopped (by decide) _ h, Nld.writeField_timeCfg_stopped (by decide) _ hport,
    Nld.writeField_timeCfg_stopped (by decide) _ hmode, Nld.putTimeCfg]

theorem Nld.writeBar_timeCfg_running (hw : n.writable) (h : n.bit NReg.TICK_CTRL_run = true) :
    n.writeBar 0 0xC1000 w true = n.refuseCfg := by
  obtain ⟨hrun, -⟩ := n.refuseCfg_keeps
  have hrun : n.refuseCfg.bit NReg.TICK_CTRL_run = true := hrun.trans h
  rw [Nld.writeBar_timeCfg w hw, Nld.writeField_timeCfg_running (by decide) _ h, Nld.writeField_timeCfg_running (by decide) _ hrun,
    Nld.refuseCfg_refuseCfg, Nld.writeField_timeCfg_running (by decide) _ hrun, Nld.refuseCfg_refuseCfg]

theorem Nld.putTimeCfg_get {f : Fld} (hf : f ∈ timeCfg) : (n.putTimeCfg w).get f = f.part w := by
  have hpart (g : Fld) : g.part w % 2 ^ g.width = g.part w := Nat.mod_mod _ _
  have hput (m : Nld) {g g' : Fld} (v : Nat) (hg : g ∈ timeCfg := by decide) (hg' : g' ∈ timeCfg := by decide)
      (hne : g' ≠ g := by decide) : (m.put g' v).get g = m.get g := Nld.get_put_ne _ _ _ _ _ _ ((timeCfg_apart g hg).1 g' hg' hne)
  unfold Nld.putTimeCfg
  rcases timeCfg_cases hf with rfl | rfl | rfl
  · rw [hput, hput, Nld.get_put_same, hpart]
  · rw [hput, Nld.get_put_same, hpart]
  · rw [Nld.get_put_same, hpart]

end

/-! ### The commands -/

section
variable {s : State} (hw : s.nld.writable)
include hw

/-- R100: NLD_TIME_CFG takes a write while ticks do not run. -/
theorem timeCfgWrite_stopped_does (v : Word) (h : s.nld.bit NReg.TICK_CTRL_run = false) {x : Fld × Nat} (hx : x ∈ nldFields 0xC1000) :
    NldDoes (.registerWrite (.nld 0 0xC1000 v true)) s fun n => n.get x.1 x.2 = x.1.part v.toNat ∧ Nld.only [.regs] s.nld n := by
  refine .of_onNld (fun n => n.writeBar 0 0xC1000 v.toNat true) rfl hw.1 ?_
  obtain ⟨hf, hi⟩ := mem_timeCfg hx
  obtain ⟨-, -, hpend, -⟩ := timeCfg_apart x.1 hf
  have hrun := s.nld.putTimeCfg_run v.toNat
  simp only [Nld.writeBar_timeCfg_stopped _ hw h, hi]
  refine ⟨(Nld.after_get hrun _ _ hpend).trans (s.nld.putTimeCfg_get _ hf), (Nld.only_after hrun _ _).2 ?_⟩
  have hregs : NPart.regs ∈ [NPart.regs] := List.mem_singleton_self _
  exact Nld.only_put (Nld.only_put (Nld.only_put (s.nld.only_refl _) hregs _ _ _) hregs _ _ _) hregs _ _ _

/-- R100: a write of NLD_TIME_CFG while ticks run is ignored, and reported. -/
theorem timeCfgWrite_running_does (v : Word) (h : s.nld.bit NReg.TICK_CTRL_run = true) {x : Fld × Nat} (hx : x ∈ nldFields 0xC1000) :
    NldDoes (.registerWrite (.nld 0 0xC1000 v true)) s fun n =>
      n.get x.1 x.2 = s.nld.get x.1 x.2 ∧ n.bit NReg.TICK_ERR_cfg_refused = true ∧ Nld.only [.regs, .hwErr] s.nld n := by
  refine .of_onNld (fun n => n.writeBar 0 0xC1000 v.toNat true) rfl hw.1 ?_
  obtain ⟨hf, hi⟩ := mem_timeCfg hx
  obtain ⟨-, hrefuse, hpend, -⟩ := timeCfg_apart x.1 hf
  obtain ⟨-, hbit, honly, hregs⟩ := s.nld.after_refuseCfg
  simp only [Nld.writeBar_timeCfg_running _ hw h, hi]
  exact ⟨hregs x.1 0 hpend hrefuse, hbit, honly⟩

/-- R99, R100: NLD_TDd_SRC takes a write while ticks do not run. -/
theorem srcWrite_taken_does (d : Fin 8) (w : BitVec 12) (h : s.nld.bit NReg.TICK_CTRL_run = false) :
    NldDoes (.tickSrcWrite (.nld d w)) s fun n =>
      n.get NReg.TDd_SRC_primary d.val = w.toNat % 16 ∧ n.get NReg.TDd_SRC_secondary d.val = w.toNat / 16 % 16 ∧
      n.get NReg.TDd_SRC_ref_domain d.val = w.toNat / 256 % 8 ∧ n.get NReg.TDd_SRC_revertive d.val = w.toNat / 2048 := by
  refine .of_onNldWrite (fun n => n.writeSrc d.val w.toNat) rfl hw ?_
  obtain ⟨hon, hset, -⟩ := Nld.writeSrc_does d.isLt h w.toNat
  obtain ⟨hp, hq, hr, hv⟩ := s.nld.putSrc_get d.isLt w.toNat
  have hfield {f : Fld} (hf : f ∈ domSettings) := (hon.after_setting d.isLt hf).trans (hset f hf)
  have hbit : w.toNat / 2048 % 2 = w.toNat / 2048 := Nat.mod_eq_of_lt (Nat.div_lt_of_lt_mul w.isLt)
  exact ⟨(hfield (by decide)).trans hp, (hfield (by decide)).trans hq, (hfield (by decide)).trans hr,
    (hfield (by decide)).trans (hv.trans hbit)⟩

/-- R100: a write of NLD_TDd_SRC while ticks run is ignored, and reported. -/
theorem srcWrite_refused_does (d : Fin 8) (w : BitVec 12) (h : s.nld.bit NReg.TICK_CTRL_run = true) :
    NldDoes (.tickSrcWrite (.nld d w)) s fun n =>
      n.dom d.val = s.nld.dom d.val ∧ n.bit NReg.TICK_ERR_cfg_refused = true ∧ Nld.only [.regs, .hwErr] s.nld n ∧
      Nld.regsOnly refuseFields s.nld n := by
  refine .of_onNldWrite (fun n => n.writeSrc d.val w.toNat) rfl hw ?_
  obtain ⟨hdom, hrest⟩ := s.nld.after_refuseCfg
  simp only [Nld.writeSrc_running _ h]
  exact ⟨hdom d.val, hrest⟩

end

/-- Settles O55: NLD_TIME_CFG and NLD_TDd_SRC take a write while ticks do not run; while they run a write changes nothing but the
report that it was refused. -/
theorem timeConfigLocked : Obligations.TimeConfigLocked := by
  unfold Obligations.TimeConfigLocked
  exact fun s v hw => ⟨fun h => ⟨fun x hx _ => timeCfgWrite_stopped_does hw v h hx, fun d w => srcWrite_taken_does hw d w h⟩,
    fun h => ⟨fun x hx _ => timeCfgWrite_running_does hw v h hx, fun d w => srcWrite_refused_does hw d w h⟩⟩

end Sys2Proof.Machine
end

section
/-! SUPPORT. The messages of time in Naloder by their parts (R75, R77, R89 to R93, R99, R727): the frames of what sends them, and what a
SYNC or a DELAY_RESP does to the domains. -/

namespace Sys2Proof.Machine

-- One theorem at a time: elaborated side by side, those of this text need more stacks than the check has memory for.
set_option Elab.async false

open Sys2Proof

/-! ### Frames -/

section
variable {a b c : Nld} {l l' : List NPart}

theorem Nld.same_trans {p : NPart} (h : Nld.same a b p) (h' : Nld.same b c p) : Nld.same a c p := by
  cases p with
  | regs => exact fun f i hf => (h' f i hf).trans (h f i hf)
  | log => exact ⟨h'.1.trans h.1, h'.2.trans h.2⟩
  | tick =>
    have hb : { b.tick with crossed := a.tick.crossed, everLocked := a.tick.everLocked } = a.tick := h
    have hc : { c.tick with crossed := b.tick.crossed, everLocked := b.tick.everLocked } = b.tick := h'
    change { c.tick with crossed := a.tick.crossed, everLocked := a.tick.everLocked } = a.tick
    rw [← hb, ← hc]
  | host =>
    have hb : { b.host with pba := a.host.pba } = a.host := h
    have hc : { c.host with pba := b.host.pba } = b.host := h'
    change { c.host with pba := a.host.pba } = a.host
    rw [← hb, ← hc]
  | _ => exact Eq.trans h' h

theorem Nld.only_trans (h : Nld.only l a b) (h' : Nld.only l b c) : Nld.only l a c := fun p hp => Nld.same_trans (h p hp) (h' p hp)

theorem Nld.only_mono (h : Nld.only l a b) (hl : ∀ p ∈ l, p ∈ l') : Nld.only l' a b := fun p hp => h p fun hm => hp (hl p hm)

end

section
variable (n : Nld)

theorem Nld.withChains_only (c : NChains) : Nld.only [.chains] n { n with chains := c } := by
  intro p hp
  cases p <;> simp [Nld.same] at hp ⊢
  intro f i _
  rfl

theorem Nld.withGroup_only (g : NGroup) : Nld.only [.group] n { n with group := g } := by
  intro p hp
  cases p <;> simp [Nld.same] at hp ⊢
  intro f i _
  rfl

theorem Nld.withKtuTimes_only (t : Tbl KtuTime) : Nld.only [.ktuTimes] n { n with ktuTimes := t } := by
  intro p hp
  cases p <;> simp [Nld.same] at hp ⊢
  intro f i _
  rfl

/-- A change of the IEEE 1588 ports, and what goes out to the host, which is no part. -/
theorem Nld.withPtp_only (t : Tbl PtpPort) (o : List HostOut) : Nld.only [.ptp] n { n with ptp := t, out := o } := by
  intro p hp
  cases p <;> simp [Nld.same] at hp ⊢
  intro f i _
  rfl

end

/-! ### Ports -/

section
variable (n : Nld) (p : Nat) (m : Msg)

/-- A message handed to a Fife port waits there. -/
theorem Nld.sendFife_waits : ((n.sendFife p m).fife p).link.waits m := by
  have hport : (n.sendFife p m).fife p = { n.fife p with link := (n.fife p).link.queue (2 * m.vc) true m } := Tbl.get_set_same _ _ _ _
  rw [hport]
  exact LinkEnd.waits_queue_same _ _ _ _

theorem Nld.sendHorn_waits : ((n.sendHorn p m).horn p).link.waits m := by
  have hport : (n.sendHorn p m).horn p = { n.horn p with link := (n.horn p).link.queue (2 * m.vc) true m } := Tbl.get_set_same _ _ _ _
  rw [hport]
  exact LinkEnd.waits_queue_same _ _ _ _

theorem Nld.sendFife_only : Nld.only [.chains] n (n.sendFife p m) := n.withChains_only _

theorem Nld.sendHorn_only : Nld.only [.group] n (n.sendHorn p m) := n.withGroup_only _

end

/-! ### Domains alone -/

/-- The second Naloder differs from the first in the domains named alone. -/
structure Nld.Redoms (ds : List Nat) (a b : Nld) : Prop where
  parts : ∃ x, b = { a with doms := x }
  others : ∀ e, e ∉ ds → b.dom e = a.dom e

section
variable {ds : List Nat} {a b c : Nld}

theorem Nld.Redoms.refl (n : Nld) : Nld.Redoms ds n n := ⟨⟨n.doms, rfl⟩, fun _ _ => rfl⟩

theorem Nld.Redoms.trans (h : Nld.Redoms ds a b) (h' : Nld.Redoms ds b c) : Nld.Redoms ds a c := by
  obtain ⟨⟨x, hb⟩, hoth⟩ := h
  obtain ⟨⟨x', hc⟩, hoth'⟩ := h'
  exact ⟨⟨x', by rw [hc, hb]⟩, fun d hd => (hoth' d hd).trans (hoth d hd)⟩

theorem Nld.setDom_redoms (n : Nld) (d : Nat) (x : NDomain) (hd : d ∈ ds) : Nld.Redoms ds n (n.setDom d x) :=
  ⟨⟨_, rfl⟩, fun _ he => n.setDom_dom_other d x fun h => he (h ▸ hd)⟩

theorem Nld.Redoms.foldl {f : Nld → Nat → Nld} (xs : List Nat) (n : Nld) (h : ∀ m, ∀ x ∈ xs, Nld.Redoms xs m (f m x)) :
    Nld.Redoms xs n (xs.foldl f n) :=
  List.foldlRecOn xs f (motive := Nld.Redoms xs n) (.refl n) fun m hm x hx => hm.trans (h m x hx)

theorem Nld.Redoms.regs (h : Nld.Redoms ds a b) : b.regs = a.regs := by obtain ⟨⟨x, rfl⟩, -⟩ := h; rfl

theorem Nld.Redoms.run (h : Nld.Redoms ds a b) : b.bit NReg.TICK_CTRL_run = a.bit NReg.TICK_CTRL_run := by
  obtain ⟨⟨x, rfl⟩, -⟩ := h; rfl

theorem Nld.Redoms.only (h : Nld.Redoms ds a b) : Nld.only [.doms] a b := by
  obtain ⟨⟨x, rfl⟩, -⟩ := h
  exact a.withDoms_only x

theorem Nld.Redoms.codes (h : Nld.Redoms ds a b) {e : Nat} (he : e ∉ ds) : b.codes e = a.codes e :=
  Nld.codes_congr e h.regs (h.others e he)

end

/-- Each of the eight domains comes once. -/
theorem range_split {d : Nat} (hd : d < 8) : ∃ l l', List.range 8 = l ++ d :: l' ∧ d ∉ l ∧ d ∉ l' := by
  obtain ⟨l, l', h⟩ := List.append_of_mem (List.mem_range.2 hd)
  have hnodup : (l ++ d :: l').Nodup := h ▸ List.nodup_range
  obtain ⟨-, htail, hdis⟩ := List.nodup_append.1 hnodup
  exact ⟨l, l', h, fun hm => hdis d hm d (List.mem_cons_self ..) rfl, (List.nodup_cons.1 htail).1⟩

theorem foldl_fixed_of_mem {α β : Type} {f : α → β → α} {a : α} {l : List β} (h : ∀ x ∈ l, f a x = a) : l.foldl f a = a :=
  List.foldlRecOn l f (motive := (· = a)) rfl fun b hb x hx => by rw [hb, h x hx]

/-! ### A SYNC at a domain (R79 to R84, R91) -/

section
variable (n : Nld) {code d : Nat} (t1 corr t2 : Int)

/-- A domain that follows another source leaves a SYNC alone. -/
theorem Nld.domSyncAt_other {n : Nld} (h1 : (n.codes d).1 ≠ code) (h2 : (n.codes d).2 ≠ code) : n.domSyncAt code t1 corr t2 d = n := by
  simp [Nld.domSyncAt, h1, h2]

theorem Nld.domSyncAt_redomed (hd : d < 8) : Nld.Redomed [d] n (n.domSyncAt code t1 corr t2 d) :=
  .ite (.refl n) (.ite (.trans (n.onDom_redomed _ hd) (Nld.setDom_redomed _ d _)) (.ite (n.setDom_redomed d _) (.refl n)))

/-- D follows the sources of a domain in Locked alone. -/
theorem NDomain.updateDiff_of_ne {x : NDomain} (h : x.tb.state ≠ .locked) : x.updateDiff = x := if_neg fun hc => h hc.1

/-- What lets a SYNC of its source load a domain: it follows the source, is enabled, not held, in Free, has a valid delay, no step
instant and no frozen difference. -/
structure Nld.Loads (n : Nld) (code d : Nat) : Prop where
  code_ne : code ≠ 0
  code_eq : (n.codes d).1 = code
  enable : n.bit NReg.TDd_CTRL_enable d = true
  hold : n.bit NReg.TDd_CTRL_hold d = false
  free : (n.dom d).tb.state = .free
  valid : (n.dom d).tb.main.delayValid = true
  instants : (n.dom d).tb.instants = []
  shift : (n.dom d).shift = 0

/-- What a SYNC does to a clock. -/
def syncOp (t1 t2 corr shift : Int) (c : ServoCfg) (b : TimeBase) : TimeBase × ClockActs := b.takeSync c t1 t2 corr shift

/-- The domain as a SYNC of its source leaves it. -/
theorem Nld.domSyncAt_taken {n : Nld} (hc : code ≠ 0) (h : (n.codes d).1 = code) : n.domSyncAt code t1 corr t2 d =
    (n.onDom d (syncOp t1 t2 corr ((n.dom d).shift / 65536))).setDom d
      ((n.onDom d (syncOp t1 t2 corr ((n.dom d).shift / 65536))).dom d).updateDiff :=
  (if_neg hc).trans (if_pos h)

/-- A SYNC of its source loads a domain in Free, and changes nothing else. -/
theorem Nld.domSyncAt_loads {n : Nld} (h : n.Loads code d) : Nld.Redoms [d] n (n.domSyncAt code t1 corr t2 d) ∧
    ((n.domSyncAt code t1 corr t2 d).dom d).tb.state = .converging ∧
    ((n.domSyncAt code t1 corr t2 d).dom d).tb.value = fieldOf 96 ((t1 + corr + (n.dom d).tb.main.dFilt) * 65536) := by
  have hne : (n.dom d).tb.state ≠ .locked := by rw [h.free]; decide
  have htake := TimeBase.takeSync_free (c := n.servoCfg d) h.enable h.hold h.free h.valid h.instants t1 t2 corr 0
  have hshift : (n.dom d).shift / 65536 = 0 := by rw [h.shift]; rfl
  have hquiet := n.onDom_quiet d (syncOp t1 t2 corr 0) hne (by rw [syncOp, htake])
  have hstate : (n.ticked d (syncOp t1 t2 corr 0)).tb.state = .converging := by rw [Nld.ticked, syncOp, htake]
  have hvalue : (n.ticked d (syncOp t1 t2 corr 0)).tb.value = fieldOf 96 ((t1 + corr + (n.dom d).tb.main.dFilt) * 65536) := by
    rw [Nld.ticked, syncOp, htake, sub_zero]
  rw [Nld.domSyncAt_taken t1 corr t2 h.code_ne h.code_eq, hshift, hquiet, Nld.setDom_dom_same, Nld.setDom_dom_same,
    NDomain.updateDiff_of_ne (by rw [hstate]; decide)]
  exact ⟨.trans (n.setDom_redoms d _ (by simp)) (Nld.setDom_redoms _ d _ (by simp)), hstate, hvalue⟩

/-- A SYNC of a source that one domain follows, and that loads it: the others are as they were. -/
theorem Nld.allSync_loads {n : Nld} (hd : d < 8) (h : n.Loads code d) (dt : Nat)
    (ho : ∀ e < 8, e ≠ d → (n.codes e).1 ≠ code ∧ (n.codes e).2 ≠ code) :
    n.allSync code t1 corr dt = n.domSync code t1 corr dt d := by
  obtain ⟨l, l', hl, hm, hm'⟩ := range_split hd
  have hmem (e : Nat) (he : e ∈ l ++ d :: l') : e < 8 := List.mem_range.1 (hl ▸ he)
  obtain ⟨hred, -, -⟩ := Nld.domSyncAt_loads t1 corr ((n.dom d).tb.reading + dt) h
  have hbefore : l.foldl (fun m e => m.domSync code t1 corr dt e) n = n := foldl_fixed_of_mem fun e he => by
    obtain ⟨h1, h2⟩ := ho e (hmem e (by simp [he])) fun hc => hm (hc ▸ he)
    exact Nld.domSyncAt_other _ _ _ h1 h2
  have hafter : l'.foldl (fun m e => m.domSync code t1 corr dt e) (n.domSync code t1 corr dt d) = n.domSync code t1 corr dt d :=
    foldl_fixed_of_mem fun e he => by
      have hne : e ≠ d := fun hc => hm' (hc ▸ he)
      obtain ⟨h1, h2⟩ := ho e (hmem e (by simp [he])) hne
      have hcodes : (n.domSync code t1 corr dt d).codes e = n.codes e := hred.codes (by simpa using hne)
      exact Nld.domSyncAt_other _ _ _ (hcodes ▸ h1) (hcodes ▸ h2)
  rw [Nld.allSync, hl, List.foldl_append, List.foldl_cons, hbefore, hafter]

/-- R75, R99: the samples of the domains that follow another. -/
theorem Nld.refSamples_redomed : Nld.Redomed (List.range 8) n n.refSamples := by
  refine .foldl _ n fun m d hd => ?_
  have hd8 : d < 8 := List.mem_range.1 hd
  have hsub : ∀ e ∈ [d], e ∈ List.range 8 := by simpa using hd8
  exact .ite (Nld.Redomed.mono (.trans (m.setDom_redomed d _) (Nld.domSyncAt_redomed _ _ _ _ hd8)) hsub) (.refl m)

end

/-! ### A DELAY_RESP at a domain (R79) -/

section
variable (n : Nld) {code d : Nat} (seq : Nat) (t4 corr : Int)

theorem Nld.domResp_redoms {ds : List Nat} (hd : d ∈ ds) : Nld.Redoms ds n (n.domResp code seq t4 corr d) := by
  unfold Nld.domResp
  simp only
  split_ifs
  · exact .refl n
  · exact n.setDom_redoms d _ hd
  · exact n.setDom_redoms d _ hd
  · exact .refl n

theorem Nld.domResp_main {n : Nld} (hc : code ≠ 0) (h : (n.codes d).1 = code) : ((n.domResp code seq t4 corr d).dom d).tb.main =
    (n.dom d).tb.response (n.servoCfg d) (n.dom d).tb.main seq t4 corr := by
  have hresp : n.domResp code seq t4 corr d = n.setDom d { n.dom d with tb := { (n.dom d).tb with
      main := (n.dom d).tb.response (n.servoCfg d) (n.dom d).tb.main seq t4 corr } } := (if_neg hc).trans (if_pos h)
  rw [hresp, Nld.setDom_dom_same]

/-- A DELAY_RESP of its source does to a domain what its clock makes of it, whatever the other domains make of it. -/
theorem Nld.allResp_main {n : Nld} (hd : d < 8) (hc : code ≠ 0) (h : (n.codes d).1 = code) :
    ((n.allResp code seq t4 corr).dom d).tb.main = (n.dom d).tb.response (n.servoCfg d) (n.dom d).tb.main seq t4 corr := by
  obtain ⟨l, l', hl, hm, hm'⟩ := range_split hd
  have hfold (xs : List Nat) (m : Nld) : Nld.Redoms xs m (xs.foldl (fun k e => k.domResp code seq t4 corr e) m) :=
    .foldl xs m fun k e he => k.domResp_redoms seq t4 corr he
  have hbefore := hfold l n
  have hdom := hbefore.others d hm
  rw [Nld.allResp, hl, List.foldl_append, List.foldl_cons, (hfold l' _).others d hm',
    Nld.domResp_main seq t4 corr hc ((congrArg Prod.fst (hbefore.codes hm)).trans h), hdom, Nld.servoCfg_congr d hbefore.regs]

theorem Nld.allResp_redoms : Nld.Redoms (List.range 8) n (n.allResp code seq t4 corr) :=
  .foldl _ n fun k _ he => k.domResp_redoms seq t4 corr he

end

end Sys2Proof.Machine
end

section
/-! SUPPORT. The commands of Naloder's time messages, over Fife, Horn and Ethernet (R75, R77, R89, R90, R93, R99, R727), and the statement
on them. -/

namespace Sys2Proof.Machine

-- One theorem at a time: elaborated side by side, those of this text need more stacks than the check has memory for.
set_option Elab.async false

open Sys2Proof

/-! ### SYNC sent (R75) -/

section
variable (n : Nld)

/-- The sequence number of a port counted on. -/
def Nld.countSync (n : Nld) (k : Nat) : Nld :=
  { n with group := { n.group with syncSeq := Tbl.set 0 k ((Tbl.get 0 k n.group.syncSeq + 1) % 65536) n.group.syncSeq } }

/-- The SYNC that a port sends. -/
def Nld.syncOf (n : Nld) (k : Nat) : SyncMsg :=
  { domain := 0, seq := BitVec.ofNat 16 (Tbl.get 0 k n.group.syncSeq), t1 := 0, corr := 0 }

theorem Nld.sendSync_fife {n : Nld} {p : Fin 16} (h : n.isMaster (.nldFife p) = true) :
    n.sendSync (.nldFife p) = (n.countSync p.val).sendFife p.val (.sync (n.syncOf p.val)) := if_pos h

theorem Nld.sendSync_horn {n : Nld} {p : Fin 8} (h : n.isMaster (.nldHorn p) = true) :
    n.sendSync (.nldHorn p) = (n.countSync (16 + p.val)).sendHorn p.val (.sync (n.syncOf (16 + p.val))) := if_pos h

theorem Nld.countSync_seq (k : Nat) : Tbl.get 0 k (n.countSync k).group.syncSeq = (Tbl.get 0 k n.group.syncSeq + 1) % 65536 :=
  Tbl.get_set_same _ _ _ _

theorem Nld.countSync_only (k : Nat) : Nld.only [.group] n (n.countSync k) := n.withGroup_only _

/-- The samples of the other domains follow the SYNC of Fife port 0. -/
theorem Nld.syncDue_redomed (p : Fin 16) : Nld.Redomed (List.range 8) (n.sendSync (.nldFife p)) (n.syncDue (.nldFife p)) :=
  .ite (Nld.refSamples_redomed _) (.refl _)

theorem Nld.syncDue_horn (p : Fin 8) : n.syncDue (.nldHorn p) = n.sendSync (.nldHorn p) := by
  simp [Nld.syncDue]

end

/-! ### Requests, reports and the messages of IEEE 1588 -/

/-- A domain with one source over a port asks that source. -/
theorem Nld.domainRequest_first {n : Nld} {d : Nat} (dt : Nat) (h1 : asksOver (n.codes d).1 = true)
    (h2 : asksOver (n.codes d).2 = false) : n.domainRequest d dt =
    (n.requestTo d (n.codes d).1 (n.dom d).tb.main.nextSeq).setDom d { n.dom d with tb := { (n.dom d).tb with
      main := (n.dom d).tb.main.request ((n.dom d).tb.reading + dt) } } := by
  simp [Nld.domainRequest, h1, h2]

/-- R75: what a DELAY_REQ reports of the position that sends it. -/
def reportOf (m : DelayReqMsg) : KtuTime := { stateA := m.stateA.toNat, stateB := m.stateB.toNat, offset := m.offset }

/-- R75, R99: that report kept. -/
def Nld.keepReport (n : Nld) (m : DelayReqMsg) : Nld :=
  { n with ktuTimes := Tbl.set ({} : KtuTime) (addrPos m.addr.toNat) (reportOf m) n.ktuTimes }

/-- A port of IEEE 1588 replaced, with what has gone out since. -/
theorem Nld.ptpSent_port (n : Nld) (e : Nat) (x : PtpPort) (o : List HostOut) :
    Nld.ptpPort { n.setPtp e x with out := n.out ++ o } e = x := Tbl.get_set_same _ _ _ _

theorem Nld.emit_emit (n : Nld) (a b : HostOut) : (n.emit a).emit b = { n with out := n.out ++ [a, b] } := by
  simp [Nld.emit]

/-- R93: a master's Sync is one message or two. -/
theorem Nld.ptpSync_eq (n : Nld) (e dt : Nat) : ∃ l b, n.ptpSync e dt =
    { n.setPtp e { n.ptpPort e with syncSeq := ((n.ptpPort e).syncSeq + 1) % 65536 } with out := n.out ++ l } ∧ .ether e b ∈ l := by
  unfold Nld.ptpSync
  simp only
  split
  · exact ⟨[_], _, rfl, List.mem_singleton_self _⟩
  · exact ⟨_, _, Nld.emit_emit _ _ _, List.mem_cons_self ..⟩

/-- R93: a master's Announce. -/
theorem Nld.ptpAnnounce_eq (n : Nld) (e : Nat) : ∃ l b, n.ptpAnnounce e =
    { n.setPtp e { n.ptpPort e with announceSeq := ((n.ptpPort e).announceSeq + 1) % 65536 } with out := n.out ++ l } ∧
    .ether e b ∈ l :=
  ⟨[_], _, rfl, List.mem_singleton_self _⟩

/-! ### The commands -/

section
variable {s : State} (h : s.nld.runs)
include h

theorem syncSend_fife_does {p : Fin 16} (hm : s.nld.isMaster (.nldFife p) = true) : NldDoes (.syncSend (.nldFife p)) s fun n =>
    (∃ m : SyncMsg, (n.fife p.val).link.waits (.sync m) ∧ m.domain = 0 ∧ m.corr = 0 ∧
      m.seq.toNat = Tbl.get 0 p.val s.nld.group.syncSeq % 65536) ∧
    Tbl.get 0 p.val n.group.syncSeq = (Tbl.get 0 p.val s.nld.group.syncSeq + 1) % 65536 ∧
    Nld.only [.regs, .hwErr, .doms, .chains, .group] s.nld n := by
  refine .of_onNld (fun n => n.syncDue (.nldFife p)) rfl h ?_
  have hred := s.nld.syncDue_redomed p
  rw [Nld.sendSync_fife hm] at hred
  have hrun : (s.nld.syncDue (.nldFife p)).bit NReg.TICK_CTRL_run = s.nld.bit NReg.TICK_CTRL_run := hred.run
  refine ⟨⟨s.nld.syncOf p.val, ?_, rfl, rfl, BitVec.toNat_ofNat _ _⟩, ?_, (Nld.only_after hrun _ _).2 ?_⟩
  · rw [Nld.after_fife hrun, Nld.fife, hred.chains]
    exact Nld.sendFife_waits _ _ _
  · rw [Nld.after_group hrun, hred.group]
    exact s.nld.countSync_seq p.val
  · exact Nld.only_trans (Nld.only_mono (s.nld.countSync_only p.val) (by decide))
      (Nld.only_trans (Nld.only_mono (Nld.sendFife_only _ _ _) (by decide)) (Nld.only_mono hred.only (by decide)))

theorem syncSend_horn_does {p : Fin 8} (hm : s.nld.isMaster (.nldHorn p) = true) : NldDoes (.syncSend (.nldHorn p)) s fun n =>
    (∃ m : SyncMsg, (n.horn p.val).link.waits (.sync m) ∧ m.domain = 0 ∧ m.corr = 0) ∧
    Tbl.get 0 (16 + p.val) n.group.syncSeq = (Tbl.get 0 (16 + p.val) s.nld.group.syncSeq + 1) % 65536 ∧
    Nld.only [.group] s.nld n := by
  refine .of_onNld (fun n => n.syncDue (.nldHorn p)) rfl h ?_
  have hsend : s.nld.syncDue (.nldHorn p) = _ := (s.nld.syncDue_horn p).trans (Nld.sendSync_horn hm)
  have hrun : ((s.nld.countSync (16 + p.val)).sendHorn p.val (.sync (s.nld.syncOf (16 + p.val)))).bit NReg.TICK_CTRL_run =
    s.nld.bit NReg.TICK_CTRL_run := rfl
  rw [hsend]
  refine ⟨⟨s.nld.syncOf (16 + p.val), ?_, rfl, rfl⟩, ?_, (Nld.only_after hrun _ _).2 ?_⟩
  · rw [Nld.after_horn hrun]
    exact Nld.sendHorn_waits _ _ _
  · rw [Nld.after_group hrun]
    exact s.nld.countSync_seq (16 + p.val)
  · exact Nld.only_trans (s.nld.countSync_only _) (Nld.sendHorn_only _ _ _)

/-! ### SYNC received (R77, R79, R82) -/

/-- A command whose SYNC loads a domain. -/
theorem NldDoes.of_loads {c : Instr} {d : Nat} {m : Nld} {v : Nat} (f : Nld → Nld) (hc : exec c s = onNld f s) (hf : f s.nld = m)
    (hm : Nld.Redoms [d] s.nld m ∧ (m.dom d).tb.state = .converging ∧ (m.dom d).tb.value = v) : NldDoes c s fun n =>
      (n.dom d).tb.state = .converging ∧ (n.dom d).tb.value = v ∧ Nld.only [.regs, .hwErr, .doms] s.nld n := by
  obtain ⟨hred, hstate, hvalue⟩ := hm
  refine .of_onNld f hc h ?_
  rw [hf, Nld.after_dom hred.run]
  exact ⟨hstate, hvalue, (Nld.only_after hred.run _ _).2 (Nld.only_mono hred.only (by decide))⟩

theorem sync_horn_does {p d : Fin 8} (m : SyncMsg) (dt res : Nat) (hl : s.nld.Loads (p.val + 1) d.val)
    (ho : ∀ e : Fin 8, e ≠ d → (s.nld.codes e.val).1 ≠ p.val + 1 ∧ (s.nld.codes e.val).2 ≠ p.val + 1) :
    NldDoes (.sync (.horn p) m dt res) s fun n =>
      (n.dom d.val).tb.state = .converging ∧
      (n.dom d.val).tb.value = fieldOf 96 ((m.t1.toNat + (m.corr + s.nld.hornAsym p.val) + (s.nld.dom d.val).tb.main.dFilt) * 65536) ∧
      Nld.only [.regs, .hwErr, .doms] s.nld n := by
  have hothers (e : Nat) (he : e < 8) (hne : e ≠ d.val) := ho ⟨e, he⟩ fun hc => hne (congrArg Fin.val hc)
  exact .of_loads h (fun n => n.hornSync p.val m dt) rfl
    (Nld.allSync_loads (m.t1.toNat : Int) (m.corr + s.nld.hornAsym p.val) d.isLt hl dt hothers) (Nld.domSyncAt_loads _ _ _ hl)

/-- R93: a slave's port takes a one-step Sync of its master. -/
theorem ptpMessage_sync_does {e : Fin 2} {m : PtpHdr} (t dt : Nat) (hon : s.nld.ptpOn e.val = true)
    (hd : m.domain.toNat = s.nld.get NReg.PTP_CFGe_domain_number e.val)
    (ht : m.transport.val = s.nld.get NReg.PTP_CFGe_transport e.val) (hs : s.nld.bit NReg.PTP_CFGe_master e.val = false)
    (hf : s.nld.fromMaster e.val m = true) (hl : s.nld.Loads (ptpCode e.val) (s.nld.ptpDomain e.val)) :
    NldDoes (.ptpMessage e m (.sync false t) dt) s fun n =>
      (n.dom (s.nld.ptpDomain e.val)).tb.state = .converging ∧
      (n.dom (s.nld.ptpDomain e.val)).tb.value =
        fieldOf 96 (((t * 65536 : Nat) + m.corr + (s.nld.dom (s.nld.ptpDomain e.val)).tb.main.dFilt) * 65536) ∧
      Nld.only [.regs, .hwErr, .doms] s.nld n := by
  have hin : s.nld.ptpIn e.val m (.sync false t) dt = s.nld.domSyncAt (ptpCode e.val) (nsTime t) m.corr
      ((s.nld.dom (s.nld.ptpDomain e.val)).tb.reading + dt) (s.nld.ptpDomain e.val) := by
    simp [Nld.ptpIn, hon, hd, ht, hs, hf, Nld.ptpSlave]
  exact .of_loads h (fun n => n.ptpIn e.val m (.sync false t) dt) rfl hin (Nld.domSyncAt_loads _ _ _ hl)

/-! ### DELAY_REQ (R75, R99, R727) -/

theorem domainDelayReqSend_does {d : Fin 8} (dt : Nat) (hlo : 1 ≤ (s.nld.codes d.val).1) (hhi : (s.nld.codes d.val).1 ≤ 8)
    (h2 : (s.nld.codes d.val).2 = 0) : NldDoes (.domainDelayReqSend d dt) s fun n =>
      (∃ m : DelayReqMsg, (n.horn ((s.nld.codes d.val).1 - 1)).link.waits (.delayReq m) ∧ m.domain = 0 ∧
        m.seq.toNat = (s.nld.dom d.val).tb.main.nextSeq % 65536 ∧ m.corr = -s.nld.hornAsym ((s.nld.codes d.val).1 - 1)) ∧
      (n.dom d.val).tb.main.reqs = (s.nld.dom d.val).tb.main.reqs ++
        [⟨(s.nld.dom d.val).tb.main.nextSeq, (s.nld.dom d.val).tb.reading + dt, (s.nld.dom d.val).tb.main.lastSync⟩] ∧
      (∀ e, e ≠ d.val → n.dom e = s.nld.dom e) ∧ Nld.only [.doms, .group] s.nld n := by
  refine .of_onNld (fun n => n.domainRequest d.val dt) rfl h ?_
  have hfirst := Nld.domainRequest_first dt (n := s.nld) (d := d.val) (by simp [asksOver, hlo, hhi]) (by rw [h2]; rfl)
  obtain ⟨q, hq, hdom, hseq, hcorr⟩ : ∃ q : DelayReqMsg, s.nld.requestTo d.val (s.nld.codes d.val).1
      (s.nld.dom d.val).tb.main.nextSeq = s.nld.sendHorn ((s.nld.codes d.val).1 - 1) (.delayReq q) ∧ q.domain = 0 ∧
      q.seq.toNat = (s.nld.dom d.val).tb.main.nextSeq % 65536 ∧ q.corr = -s.nld.hornAsym ((s.nld.codes d.val).1 - 1) :=
    ⟨_, if_pos ⟨hlo, hhi⟩, rfl, BitVec.toNat_ofNat _ _, rfl⟩
  rw [hq] at hfirst
  have hrun : (s.nld.domainRequest d.val dt).bit NReg.TICK_CTRL_run = s.nld.bit NReg.TICK_CTRL_run := by rw [hfirst]; rfl
  refine ⟨⟨q, ?_, hdom, hseq, hcorr⟩, ?_, fun e he => ?_, (Nld.only_after hrun _ _).2 ?_⟩
  · rw [Nld.after_horn hrun, hfirst]
    exact s.nld.sendHorn_waits _ _
  · rw [Nld.after_dom hrun, hfirst, Nld.setDom_dom_same]
    rfl
  · rw [Nld.after_dom hrun, hfirst, Nld.setDom_dom_other _ _ _ he]
    rfl
  · rw [hfirst]
    exact Nld.only_trans (Nld.only_mono (s.nld.sendHorn_only _ _) (by decide)) (Nld.only_mono (Nld.setDom_only _ _ _) (by decide))

/-- R75, R99: a DELAY_REQ of domain 0 is answered, and its report kept. -/
theorem delayReq_fife_does {p : Fin 16} {m : DelayReqMsg} (dt res : Nat) (hd : m.domain = 0) (he : s.nld.isEzcia p.val = false) :
    NldDoes (.delayReq (.fife p) m dt res) s fun n =>
      (n.fife p.val).link.waits (.delayResp
        ⟨0, m.seq, m.addr, BitVec.ofNat 80 (fieldOf 80 ((s.nld.dom 0).tb.reading + dt)), m.corr⟩) ∧
      Tbl.get ({} : KtuTime) (addrPos m.addr.toNat) n.ktuTimes = ⟨m.stateA.toNat, m.stateB.toNat, m.offset⟩ ∧
      Nld.only [.ktuTimes, .chains] s.nld n := by
  refine .of_onNld (fun n => n.fifeDelayReq p.val m dt res) rfl h ?_
  have hfirst : m.domain.val = 0 ∧ ¬ s.nld.isEzcia p.val = true := ⟨by rw [hd]; rfl, by rw [he]; exact Bool.false_ne_true⟩
  have hanswer : s.nld.fifeDelayReq p.val m dt res = (s.nld.keepReport m).sendFife p.val (.delayResp (s.nld.answerTo m dt)) :=
    if_pos hfirst
  have hrun : (s.nld.fifeDelayReq p.val m dt res).bit NReg.TICK_CTRL_run = s.nld.bit NReg.TICK_CTRL_run := by rw [hanswer]; rfl
  refine ⟨?_, ?_, (Nld.only_after hrun _ _).2 ?_⟩
  · rw [Nld.after_fife hrun, hanswer]
    exact Nld.sendFife_waits _ _ _
  · rw [Nld.after_ktuTimes hrun, hanswer]
    exact Tbl.get_set_same _ _ _ _
  · rw [hanswer]
    exact Nld.only_trans (Nld.only_mono (s.nld.withKtuTimes_only _) (by decide)) (Nld.only_mono (Nld.sendFife_only _ _ _) (by decide))

/-! ### DELAY_RESP (R79, R90) -/

/-- The first delay sample of a domain loads its filter. -/
theorem delayResp_horn_does {p d : Fin 8} {m : DelayRespMsg} {x : SyncSample} {t3 : Int} (ha : m.addr.toNat = s.nld.ownAddr)
    (hc : (s.nld.codes d.val).1 = p.val + 1)
    (hq : (s.nld.dom d.val).tb.main.reqs = [{ seq := m.seq.toNat, t3 := t3, paired := some x }])
    (hi : (s.nld.dom d.val).tb.instants = []) (hv : (s.nld.dom d.val).tb.main.delayValid = false)
    (hx : (x.path + (m.t4.toNat - t3 - m.corr)) % 2 = 0) : NldDoes (.delayResp (.horn p) m) s fun n =>
      2 * (n.dom d.val).tb.main.dFilt = x.path + (m.t4.toNat - t3 - m.corr) ∧ (n.dom d.val).tb.main.delayValid = true ∧
      (n.dom d.val).tb.main.reqs = [] ∧ Nld.only [.doms] s.nld n := by
  refine .of_onNld (fun n => n.hornDelayResp p.val m) rfl h ?_
  have hall : s.nld.hornDelayResp p.val m = s.nld.allResp (p.val + 1) m.seq.toNat m.t4.toNat m.corr := if_pos ha
  have hred := s.nld.allResp_redoms (code := p.val + 1) m.seq.toNat m.t4.toNat m.corr
  have hmain := Nld.allResp_main m.seq.toNat m.t4.toNat m.corr d.isLt (Nat.succ_ne_zero _) hc
  rw [TimeBase.response_first hi hq hv hx] at hmain
  rw [hall, Nld.after_dom hred.run, hmain, Nld.only_after hred.run]
  exact ⟨Int.mul_ediv_cancel' (Int.dvd_of_emod_eq_zero hx), rfl, rfl, hred.only⟩

/-! ### IEEE 1588 sent (R93) -/

/-- What a message that a port sends leaves. -/
theorem NldDoes.of_ptpSent {c : Instr} {e : Nat} {x : PtpPort} {m : Nld} (f : Nld → Nld) (hc : exec c s = onNld f s) (hf : f s.nld = m)
    (hm : ∃ l b, m = { s.nld.setPtp e x with out := s.nld.out ++ l } ∧ HostOut.ether e b ∈ l) : NldDoes c s fun n =>
      n.ptpPort e = x ∧ (∃ b, Nld.emits s.nld n (.ether e b)) ∧ Nld.only [.ptp] s.nld n := by
  obtain ⟨l, b, rfl, hb⟩ := hm
  refine .of_onNld f hc h ?_
  have hrun : Nld.bit { s.nld.setPtp e x with out := s.nld.out ++ l } NReg.TICK_CTRL_run = s.nld.bit NReg.TICK_CTRL_run := rfl
  rw [hf]
  refine ⟨?_, ⟨b, Nld.emits_after hrun ⟨l, rfl, hb⟩⟩, (Nld.only_after hrun _ _).2 (s.nld.withPtp_only _ _)⟩
  rw [Nld.ptpPort, Nld.after_ptp hrun]
  exact s.nld.ptpSent_port e x l

section
variable {e : Fin 2} (hon : s.nld.ptpOn e.val = true) (hm : s.nld.bit NReg.PTP_CFGe_master e.val = true)
include hon hm

theorem ptpTransmit_sync_does (dt : Nat) : NldDoes (.ptpTransmit e .sync dt) s fun n =>
    (n.ptpPort e.val).syncSeq = ((s.nld.ptpPort e.val).syncSeq + 1) % 65536 ∧
    (n.ptpPort e.val).announceSeq = (s.nld.ptpPort e.val).announceSeq ∧
    (∃ b, Nld.emits s.nld n (.ether e.val b)) ∧ Nld.only [.ptp] s.nld n := by
  have hsend : s.nld.ptpSend e.val .sync dt = s.nld.ptpSync e.val dt := by simp [Nld.ptpSend, hon, hm]
  obtain ⟨n, hn, hport, hrest⟩ :=
    NldDoes.of_ptpSent h (fun n => n.ptpSend e.val .sync dt) (c := .ptpTransmit e .sync dt) rfl hsend (s.nld.ptpSync_eq e.val dt)
  exact ⟨n, hn, by rw [hport], by rw [hport], hrest⟩

theorem ptpTransmit_announce_does (dt : Nat) : NldDoes (.ptpTransmit e .announce dt) s fun n =>
    (n.ptpPort e.val).announceSeq = ((s.nld.ptpPort e.val).announceSeq + 1) % 65536 ∧
    (n.ptpPort e.val).syncSeq = (s.nld.ptpPort e.val).syncSeq ∧
    (∃ b, Nld.emits s.nld n (.ether e.val b)) ∧ Nld.only [.ptp] s.nld n := by
  have hsend : s.nld.ptpSend e.val .announce dt = s.nld.ptpAnnounce e.val := by simp [Nld.ptpSend, hon, hm]
  obtain ⟨n, hn, hport, hrest⟩ :=
    NldDoes.of_ptpSent h (fun n => n.ptpSend e.val .announce dt) (c := .ptpTransmit e .announce dt) rfl hsend (s.nld.ptpAnnounce_eq e.val)
  exact ⟨n, hn, by rw [hport], by rw [hport], hrest⟩

end

end

/-- Settles O7: Naloder's SYNC, DELAY_REQ and DELAY_RESP, over Fife, Horn and Ethernet, do what R75 to R93, R99 and R727 say. -/
theorem nldTimeMessages : Obligations.NldTimeMessages := by
  unfold Obligations.NldTimeMessages
  exact ⟨fun s p h hm => syncSend_fife_does h hm, fun s p h hm => syncSend_horn_does h hm,
    fun s p d m dt res h hc ho he hh hs hv hi hz => sync_horn_does h m dt res ⟨Nat.succ_ne_zero _, hc, he, hh, hs, hv, hi, hz⟩ ho,
    fun s d dt h hlo hhi h2 => domainDelayReqSend_does h dt hlo hhi h2,
    fun s p m dt res h hd he => delayReq_fife_does h dt res hd he,
    fun s p d m x t3 h ha hc hq hi hv hx => delayResp_horn_does h ha hc hq hi hv hx,
    fun s e m t dt h hon hd ht hs hf hc he hh hst hv hi hz =>
      ptpMessage_sync_does h t dt hon hd ht hs hf ⟨by unfold ptpCode; omega, hc, he, hh, hst, hv, hi, hz⟩,
    fun s e dt h hon hm => ⟨ptpTransmit_sync_does h hon hm dt, ptpTransmit_announce_does h hon hm dt⟩⟩

end Sys2Proof.Machine
end

section
/-! SUPPORT. What the commands of the KTU's reset and clock answer, and the statement that no command faults and that only a stopped
ktu_clk refuses (R104). -/

namespace Sys2Proof.Machine

-- One theorem at a time: elaborated side by side, those of this text need more stacks than the check has memory for.
set_option Elab.async false

open Sys2Proof

/-! ### Reset and clock -/

theorem execKtuPorDeassert_next (st : Straps) (ran : Bool) (s : State) :
    ∃ k, execKtuPorDeassert st ran s = .next { s with ktu := k } := by
  unfold execKtuPorDeassert
  split
  · exact ⟨_, rfl⟩
  · exact ⟨s.ktu, rfl⟩

theorem execKtuClockStop_next (s : State) : ∃ k, execKtuClockStop s = .next { s with ktu := k } := by
  unfold execKtuClockStop
  split
  · exact ⟨s.ktu, rfl⟩
  · exact ⟨_, rfl⟩

/-- Out of ktu_por_n HOST_DOMAIN_CHANGE is a function on the KTU. -/
theorem exec_hostDomainChange {s : State} (hp : s.ktu.pins.porLow = false) (d : Fin 4) (rst pg : Bool) :
    exec (.hostDomainChange d rst pg) s = onKtu (fun k => k.domainChange d rst pg) s := if_neg (by simp [hp])

/-! ### The ways a command can end -/

/-- A command answers a next state, or is one of the KTU's that ktu_clk having stopped refuses (R104). -/
def RefusesOnlyStopped (ktuSide : Bool) (m : State → Out) (s : State) : Prop :=
  (∃ t, m s = .next t) ∨ (m s = .refused .ktuUndefined ∧ ktuSide = true ∧ s.ktu.pins.clkStopped = true)

theorem onKtu_refusesOnlyStopped (f : Ktu → Ktu) (s : State) : RefusesOnlyStopped true (onKtu f) s := by
  obtain ⟨hc, e⟩ | ⟨-, -, e⟩ | ⟨-, e⟩ := onKtu_cases f s
  · exact .inr ⟨e, rfl, hc⟩
  · exact .inl ⟨_, e⟩
  · exact .inl ⟨_, e⟩

theorem onNld_next (f : Nld → Nld) (s : State) : ∃ t, onNld f s = .next t := by
  obtain ⟨-, e⟩ | ⟨-, e⟩ := onNld_cases f s <;> exact ⟨_, e⟩

theorem Acts.refusesOnlyStopped {b : Bool} {m : State → Out} (h : Acts b m) (s : State) : RefusesOnlyStopped b m s := by
  cases h with
  | ktu f => exact onKtu_refusesOnlyStopped f s
  | nld f => exact .inl (onNld_next f s)

theorem ktuPower_refusesOnlyStopped {c : Instr} (hk : ktuPower c = true) (s : State) :
    RefusesOnlyStopped (actsOnKtu c) (exec c) s := by
  cases c with
  | ktuPorAssert => exact .inl ⟨_, rfl⟩
  | ktuPorDeassert st ran =>
    obtain ⟨_, e⟩ := execKtuPorDeassert_next st ran s
    exact .inl ⟨_, e⟩
  | ktuClockStop =>
    obtain ⟨_, e⟩ := execKtuClockStop_next s
    exact .inl ⟨_, e⟩
  | hostDomainChange d rst pg =>
    cases hp : s.ktu.pins.porLow with
    | true => exact .inl ⟨_, if_pos hp⟩
    | false =>
      unfold RefusesOnlyStopped
      rw [exec_hostDomainChange hp]
      exact onKtu_refusesOnlyStopped _ s
  | _ => cases hk

theorem nldPower_next {c : Instr} (hn : nldPower c = true) (s : State) : ∃ t, exec c s = .next t := by
  cases c with
  | nldPorAssert => exact ⟨_, rfl⟩
  | nldPor => exact ⟨_, rfl⟩
  | _ => cases hn

theorem exec_refusesOnlyStopped (c : Instr) (s : State) : RefusesOnlyStopped (actsOnKtu c) (exec c) s := by
  cases hk : ktuPower c with
  | true => exact ktuPower_refusesOnlyStopped hk s
  | false =>
    cases hn : nldPower c with
    | true => exact .inl (nldPower_next hn s)
    | false => exact (exec_acts c hk hn).refusesOnlyStopped s

/-- R104: after ktu_clk has stopped every command of the KTU outside its power and reset is refused. -/
theorem exec_stopped {c : Instr} {s : State} (ha : actsOnKtu c = true) (hk : ktuPower c = false)
    (hs : s.ktu.pins.clkStopped = true) : exec c s = .refused .ktuUndefined := by
  have hn : nldPower c = false := by
    cases c with
    | nldPorAssert | nldPor => cases ha
    | _ => rfl
  have hacts := exec_acts c hk hn
  rw [ha] at hacts
  generalize exec c = m at hacts ⊢
  cases hacts with
  | ktu f => exact if_pos hs

/-- Settles O56: each command is a function on one side, and the KTU's wrapper alone refuses; the commands of power and reset always
answer a next state, but for HOST_DOMAIN_CHANGE outside ktu_por_n. -/
theorem onlyAStoppedClockRefuses : Obligations.OnlyAStoppedClockRefuses := by
  unfold Obligations.OnlyAStoppedClockRefuses
  intro s c
  obtain ⟨t, e⟩ | ⟨e, ha, hc⟩ := exec_refusesOnlyStopped c s
  · exact ⟨fun f hf => (nomatch e.symm.trans hf), fun r hr => (nomatch e.symm.trans hr), exec_stopped, fun _ => ⟨t, e⟩⟩
  · refine ⟨fun f hf => (nomatch e.symm.trans hf), fun r hr => ?_, exec_stopped, fun hs => ?_⟩
    · cases e.symm.trans hr
      exact ⟨rfl, ha, hc⟩
    · rw [hs] at hc
      cases hc

end Sys2Proof.Machine
end

section
/-! SUPPORT. Lines that are one bit of a vector, and event bits that are one bit of a field (R116, R684). -/

namespace Sys2Proof.Machine

-- One theorem at a time: elaborated side by side, those of this text need more stacks than the check has memory for.
set_option Elab.async false

open Sys2Proof

/-! ### One line of a vector -/

section
variable {n : Nat} (v : BitVec n) (d e : Fin n)

theorem getLsbD_line : (BitVec.ofNat n (2 ^ d.val)).getLsbD e.val = decide (d = e) := by
  rw [BitVec.getLsbD_ofNat, decide_eq_true e.isLt, Bool.true_and, Nat.testBit_two_pow]
  exact decide_eq_decide.2 Fin.val_inj

theorem getLsbD_raised : (v ||| BitVec.ofNat n (2 ^ d.val)).getLsbD d.val = true := by
  rw [BitVec.getLsbD_or, getLsbD_line, decide_eq_true rfl, Bool.or_true]

theorem getLsbD_lowered : (v &&& ~~~BitVec.ofNat n (2 ^ d.val)).getLsbD d.val = false := by
  rw [BitVec.getLsbD_and, BitVec.getLsbD_not, getLsbD_line, decide_eq_true rfl, Bool.not_true, Bool.and_false, Bool.and_false]

variable {d e} (h : e ≠ d)
include h

theorem getLsbD_raised_other : (v ||| BitVec.ofNat n (2 ^ d.val)).getLsbD e.val = v.getLsbD e.val := by
  rw [BitVec.getLsbD_or, getLsbD_line, decide_eq_false h.symm, Bool.or_false]

theorem getLsbD_lowered_other : (v &&& ~~~BitVec.ofNat n (2 ^ d.val)).getLsbD e.val = v.getLsbD e.val := by
  rw [BitVec.getLsbD_and, BitVec.getLsbD_not, getLsbD_line, decide_eq_false h.symm, decide_eq_true e.isLt, Bool.not_false,
    Bool.and_true, Bool.and_true]

end

/-! ### One bit of a field -/

theorem bitOf_eq_testBit (v i : Nat) : bitOf v i = v.testBit i := by
  rw [Nat.testBit_eq_decide_div_mod_eq, bitOf, beq_eq_decide]

/-- An event bit that is raised reads as 1. -/
theorem Ktu.bitOf_get_raise (k : Ktu) {f : Fld} {d : Nat} (hd : d < f.width) (hp : f.key 0 ≠ KReg.IRQ_PEND_pend.key 0) :
    bitOf ((k.raise f (2 ^ d)).get f) d = true := by
  rw [Ktu.get_raise_same _ _ _ _ hp, bitOf_eq_testBit, Nat.testBit_mod_two_pow, decide_eq_true hd, Nat.testBit_or,
    Nat.testBit_two_pow_self, Bool.or_true, Bool.and_true]

/-! ### Parts moved alone -/

section
variable (k : Ktu)

theorem Ktu.withPins_only (p : KPins) : Ktu.only [.pins] k { k with pins := p } := by
  intro x hx
  cases x <;> simp [Ktu.same] at hx ⊢

theorem Ktu.raise_only_regs (f : Fld) (v i : Nat) : Ktu.only [.regs] k (k.raise f v i) := by
  obtain ⟨r, hr⟩ := k.raise_eq f v i
  rw [hr]
  exact k.only_regs r

end

section
variable {a b : Ktu} (h : Ktu.same a b .pins)
include h

theorem Ktu.rstN_of_same : b.pins.rstN = a.pins.rstN := by
  have hp := congrArg KPins.rstN h
  simpa only using hp

theorem Ktu.pgood_of_same : b.pins.pgood = a.pins.pgood := by
  have hp := congrArg KPins.pgood h
  simpa only using hp

/-- A domain is masked by its strap and its two lines alone. -/
theorem Ktu.masked_congr (d : Fin 4) : b.masked d = a.masked d := by
  have hstraps : b.pins.straps = a.pins.straps := Ktu.straps_of_same h
  rw [Ktu.masked, Ktu.masked, hstraps, Ktu.rstN_of_same h, Ktu.pgood_of_same h]

end

end Sys2Proof.Machine
end

section
/-! SUPPORT. The KTU's reset, its clock and its straps (R103, R104, R106, R130, R679). -/

namespace Sys2Proof.Machine

-- One theorem at a time: elaborated side by side, those of this text need more stacks than the check has memory for.
set_option Elab.async false

open Sys2Proof

/-! ### The increment of the straps (R106) -/

/-- The fields that the increment of the straps is loaded into. -/
def incrFields : List (Fld × Nat) :=
  [(KReg.TBx_INCR_INT_incr_int, 0), (KReg.TBx_INCR_INT_incr_int, 1), (KReg.TBx_INCR_FRAC_incr_frac, 0),
    (KReg.TBx_INCR_FRAC_incr_frac, 1)]

section
variable (k : Ktu)

theorem Ktu.loadIncr_zero (h : k.pins.straps.tbIncr = 0) : k.loadIncr = k := by
  simp [Ktu.loadIncr, h]

theorem Ktu.loadIncr_regsOnly : Ktu.regsOnly incrFields k k.loadIncr := by
  have hput {m : Ktu} {f : Fld} {i : Nat} (v : Nat) (hm : Ktu.regsOnly incrFields k m) (hf : (f, i) ∈ incrFields) :
      Ktu.regsOnly incrFields k (m.put f v i) := Ktu.regsOnly_step hm (m.regsOnly_put f v i) (by simpa using hf)
  unfold Ktu.loadIncr
  simp only []
  split
  · exact k.regsOnly_refl _
  · exact hput _ (hput _ (hput _ (hput _ (k.regsOnly_refl _) (by decide)) (by decide)) (by decide)) (by decide)

theorem Ktu.loadIncr_eq : ∃ r, k.loadIncr = { k with regs := r } := by
  unfold Ktu.loadIncr
  simp only []
  split
  · exact ⟨k.regs, rfl⟩
  · exact ⟨_, rfl⟩

/-- Both bases take the increment, its low 32 bits as the fraction. -/
theorem Ktu.loadIncr_get (h : k.pins.straps.tbIncr ≠ 0) {i : Nat} (hi : i < 2) :
    k.loadIncr.get KReg.TBx_INCR_INT_incr_int i = k.pins.straps.tbIncr.toNat / 2 ^ 32 ∧
    k.loadIncr.get KReg.TBx_INCR_FRAC_incr_frac i = k.pins.straps.tbIncr.toNat % 2 ^ 32 := by
  have hne : k.pins.straps.tbIncr.toNat ≠ 0 := fun h0 => h (BitVec.eq_of_toNat_eq h0)
  have hint : k.pins.straps.tbIncr.toNat / 2 ^ 32 % 2 ^ 8 = k.pins.straps.tbIncr.toNat / 2 ^ 32 := by
    have := k.pins.straps.tbIncr.isLt
    omega
  unfold Ktu.loadIncr
  simp only [if_neg hne]
  obtain rfl | rfl : i = 0 ∨ i = 1 := by omega
  · constructor
    · rw [Ktu.get_put_ne _ _ _ _ _ _ (by decide), Ktu.get_put_ne _ _ _ _ _ _ (by decide), Ktu.get_put_ne _ _ _ _ _ _ (by decide),
        Ktu.get_put_same]
      exact hint
    · rw [Ktu.get_put_ne _ _ _ _ _ _ (by decide), Ktu.get_put_same]
      rfl
  · constructor
    · rw [Ktu.get_put_ne _ _ _ _ _ _ (by decide), Ktu.get_put_ne _ _ _ _ _ _ (by decide), Ktu.get_put_same]
      exact hint
    · rw [Ktu.get_put_same]
      rfl

end

/-! ### ktu_por_n deasserted -/

/-- What ktu_por_n's deassertion captures, before the increment is loaded: the straps, whether the clock has run, and in leaf mode
that there is no downstream link. -/
def Ktu.captured (k : Ktu) (st : Straps) (ran : Bool) : Ktu :=
  { k with pins := { k.pins with straps := st, porLow := false, clkStopped := !ran },
           fife := if st.leaf then { k.fife with dn := { k.fife.dn with state := .off } } else k.fife }

theorem Ktu.porDeassert_eq (k : Ktu) (st : Straps) (ran : Bool) : k.porDeassert st ran = (k.captured st ran).loadIncr := by
  unfold Ktu.porDeassert Ktu.captured
  cases st.leaf <;> rfl

theorem Ktu.captured_only (k : Ktu) (st : Straps) (ran : Bool) : Ktu.only [.pins, .fife] k (k.captured st ran) := by
  intro x hx
  cases x <;> simp [Ktu.same, Ktu.captured] at hx ⊢

/-! ### The commands -/

section
variable (s : State)

theorem ktuPorAssert_does : KtuDoes .ktuPorAssert s fun k =>
    k.pins.porLow = true ∧ k.pins.clkStopped = false ∧ k.pins.ready = false ∧ k.pins.rstN = s.ktu.pins.rstN ∧
    k.pins.pgood = s.ktu.pins.pgood ∧ k.pins.units = [] ∧ (∀ (f : Fld) (i : Nat), k.get f i = f.reset i) ∧ k.remoteIdx = [] ∧
    k.latchL = [] ∧ k.latchR = [] ∧ k.time = {} ∧ k.cnt = {} ∧ k.tail = {} ∧ k.trace = {} ∧ k.halts = [] ∧ k.queues = [] ∧
    k.codec = {} ∧ k.fife = {} ∧ k.check = {} ∧ k.resetPending = 0 :=
  ⟨s.ktu.porAssert, rfl, rfl, rfl, rfl, rfl, rfl, rfl, Regs.get_nil, rfl, rfl, rfl, rfl, rfl, rfl, rfl, rfl, rfl, rfl, rfl, rfl, rfl⟩

variable {s}

/-- R106: the straps are captured, and an increment of theirs that is not zero is loaded. -/
theorem ktuPorDeassert_does (st : Straps) (ran : Bool) (hp : s.ktu.pins.porLow = true) : KtuDoes (.ktuPorDeassert st ran) s fun k =>
    k.pins.porLow = false ∧ k.pins.straps = st ∧ k.pins.clkStopped = (!ran) ∧ k.pins.ready = s.ktu.pins.ready ∧
    (st.leaf = true → k.fife.dn.state = .off) ∧ (st.leaf = false → k.fife = s.ktu.fife) ∧
    (∀ i < 2, st.tbIncr ≠ 0 → k.get KReg.TBx_INCR_INT_incr_int i = st.tbIncr.toNat / 2 ^ 32 ∧
      k.get KReg.TBx_INCR_FRAC_incr_frac i = st.tbIncr.toNat % 2 ^ 32) ∧
    (st.tbIncr = 0 → k.regs = s.ktu.regs) ∧ Ktu.regsOnly incrFields s.ktu k ∧ Ktu.only [.pins, .regs, .fife] s.ktu k := by
  refine ⟨(s.ktu.captured st ran).loadIncr, ?_, ?_⟩
  · rw [← Ktu.porDeassert_eq]
    exact if_pos hp
  have hget (i : Nat) (hi : i < 2) (hne : st.tbIncr ≠ 0) := (s.ktu.captured st ran).loadIncr_get hne hi
  have hzero (h0 : st.tbIncr = 0) : (s.ktu.captured st ran).loadIncr.regs = s.ktu.regs :=
    congrArg Ktu.regs (a₂ := s.ktu.captured st ran) ((s.ktu.captured st ran).loadIncr_zero h0)
  have hregs : Ktu.regsOnly incrFields s.ktu (s.ktu.captured st ran).loadIncr := (s.ktu.captured st ran).loadIncr_regsOnly
  obtain ⟨r, hr⟩ := (s.ktu.captured st ran).loadIncr_eq
  have honly : Ktu.only [.pins, .regs, .fife] s.ktu (s.ktu.captured st ran).loadIncr := by
    rw [hr]
    exact Ktu.only_trans (Ktu.only_mono (s.ktu.captured_only st ran) (by decide)) (Ktu.only_mono (Ktu.only_regs _ r) (by decide))
  have hpins : (s.ktu.captured st ran).loadIncr.pins = (s.ktu.captured st ran).pins := by rw [hr]
  have hfife : (s.ktu.captured st ran).loadIncr.fife = (s.ktu.captured st ran).fife := by rw [hr]
  beta_reduce
  rw [hpins, hfife]
  exact ⟨rfl, rfl, rfl, rfl, fun hl => by simp [Ktu.captured, hl], fun hl => by simp [Ktu.captured, hl], hget, hzero, hregs, honly⟩

theorem ktuReady_does (h : s.ktu.runs) : KtuDoes .ktuReady s fun k => k.pins.ready = true ∧ Ktu.only [.pins] s.ktu k :=
  .of_onKtu Ktu.becomeReady rfl h ⟨Ktu.wakeCheck_pins_ready _, (Ktu.only_wakeCheck _ _ _).2 (s.ktu.withPins_only _)⟩

/-- R104: in operation the clock stops, and nothing else changes. -/
theorem exec_ktuClockStop (hp : s.ktu.pins.porLow = false) :
    exec .ktuClockStop s = .next { s with ktu := { s.ktu with pins := { s.ktu.pins with clkStopped := true } } } :=
  if_neg (by simp [hp])

end

end Sys2Proof.Machine
end

section
/-! SUPPORT. The lines of the host domains (R108, R116, R117), and the statement on them and on the KTU's reset and clock. -/

namespace Sys2Proof.Machine

-- One theorem at a time: elaborated side by side, those of this text need more stacks than the check has memory for.
set_option Elab.async false

open Sys2Proof

/-! ### The levels of a domain's lines -/

section
variable (k : Ktu) (d : Fin 4) (r p : Bool)

theorem Ktu.setDomain_only : Ktu.only [.pins] k (k.setDomain d r p) := k.withPins_only _

theorem Ktu.setDomain_rstN : (k.setDomain d r p).pins.rstN.getLsbD d.val = r := by
  cases r
  · exact getLsbD_lowered _ d
  · exact getLsbD_raised _ d

theorem Ktu.setDomain_pgood : (k.setDomain d r p).pins.pgood.getLsbD d.val = p := by
  cases p
  · exact getLsbD_lowered _ d
  · exact getLsbD_raised _ d

/-- R116: a domain that is enabled, out of reset and powered is not masked. -/
theorem Ktu.setDomain_unmasks (h : k.pins.straps.domEn.getLsbD d.val = true) : (k.setDomain d true true).masked d = false := by
  have hstraps : (k.setDomain d true true).pins.straps = k.pins.straps := rfl
  rw [Ktu.masked, Ktu.setDomain_rstN, Ktu.setDomain_pgood, hstraps, h]
  rfl

theorem Ktu.setDomain_masked_other {e : Fin 4} (h : e ≠ d) : (k.setDomain d true true).masked e = k.masked e := by
  have hrst : (k.setDomain d true true).pins.rstN.getLsbD e.val = k.pins.rstN.getLsbD e.val := getLsbD_raised_other _ h
  have hpg : (k.setDomain d true true).pins.pgood.getLsbD e.val = k.pins.pgood.getLsbD e.val := getLsbD_raised_other _ h
  rw [Ktu.masked, hrst, hpg]
  rfl

end

/-! ### The report of a line that changes (R117) -/

/-- R117, R183: the event bit of a line that has changed, and the source-state records of its domain. -/
def Ktu.lineChanged (k : Ktu) (f : Fld) (d : Fin 4) (cause : Nat) (changed : Bool) : Ktu :=
  if changed then (k.raise f (2 ^ d.val)).domainRecords d cause else k

section
variable (k : Ktu) (f : Fld) (d : Fin 4) (cause : Nat) (changed : Bool)

theorem Ktu.domainRecords_only : Ktu.only [.trace] k (k.domainRecords d cause) := by
  refine (Ktu.Keeps.foldl (ps := []) _ k fun m x _ => ?_).only
  split
  · exact m.generate_keeps _ _ _
  · exact .refl _ _ m

theorem Ktu.lineChanged_only : Ktu.only [.regs, .trace] k (k.lineChanged f d cause changed) := by
  unfold Ktu.lineChanged
  split
  · exact Ktu.only_trans (Ktu.only_mono (k.raise_only_regs f _ 0) (by decide))
      (Ktu.only_mono (Ktu.domainRecords_only _ d cause) (by decide))
  · exact k.only_refl _

/-- The records leave the registers as the event bit has left them. -/
theorem Ktu.lineChanged_get (g : Fld) : (k.lineChanged f d cause true).get g = (k.raise f (2 ^ d.val)).get g := by
  rw [Ktu.lineChanged, if_pos rfl]
  exact Ktu.get_of_regs (Ktu.domainRecords_only _ d cause .regs (by decide)) g 0

theorem Ktu.lineChanged_event (h : changed = true) (hd : d.val < f.width) (hp : f.key 0 ≠ KReg.IRQ_PEND_pend.key 0) :
    bitOf ((k.lineChanged f d cause changed).get f) d.val = true := by
  rw [h, Ktu.lineChanged_get]
  exact k.bitOf_get_raise hd hp

theorem Ktu.lineChanged_get_ne {g : Fld} (h : g.key 0 ≠ f.key 0) (hp : g.key 0 ≠ KReg.IRQ_PEND_pend.key 0) :
    (k.lineChanged f d cause changed).get g = k.get g := by
  cases changed with
  | false => rfl
  | true => rw [Ktu.lineChanged_get, Ktu.get_raise_ne _ _ _ _ _ _ h hp]

end

/-! ### Both lines raised -/

/-- Both lines of a domain are high, and each that was low is reported. -/
def Ktu.linesUp (k : Ktu) (d : Fin 4) : Ktu :=
  ((k.setDomain d true true).lineChanged KReg.HOSTDOM_rst_event d 0 (!k.pins.rstN.getLsbD d.val)).lineChanged
    KReg.HOSTDOM_pg_event d 1 (!k.pins.pgood.getLsbD d.val)

section
variable (k : Ktu) (d : Fin 4)

theorem Ktu.linesUp_only_setDomain : Ktu.only [.regs, .trace] (k.setDomain d true true) (k.linesUp d) :=
  Ktu.only_trans (Ktu.lineChanged_only _ _ d _ _) (Ktu.lineChanged_only _ _ d _ _)

theorem Ktu.linesUp_only : Ktu.only [.pins, .regs, .trace] k (k.linesUp d) :=
  Ktu.only_trans (Ktu.only_mono (k.setDomain_only d true true) (by decide)) (Ktu.only_mono (k.linesUp_only_setDomain d) (by decide))

theorem Ktu.linesUp_rst_event (h : k.pins.rstN.getLsbD d.val = false) :
    bitOf ((k.linesUp d).get KReg.HOSTDOM_rst_event) d.val = true := by
  rw [Ktu.linesUp, Ktu.lineChanged_get_ne _ _ _ _ _ (by decide) (by decide)]
  exact Ktu.lineChanged_event _ _ d _ _ (by rw [h]; rfl) d.isLt (by decide)

theorem Ktu.linesUp_pg_event (h : k.pins.pgood.getLsbD d.val = false) :
    bitOf ((k.linesUp d).get KReg.HOSTDOM_pg_event) d.val = true :=
  Ktu.lineChanged_event _ _ d _ _ (by rw [h]; rfl) d.isLt (by decide)

/-- R117, R145: an enabled domain is unmasked, and its occupancy samples are forgotten where it was masked. -/
theorem Ktu.domainChange_up (h : k.pins.straps.domEn.getLsbD d.val = true) :
    k.domainChange d true true = if k.masked d then (k.linesUp d).forgetOcc d.val else k.linesUp d := by
  have hmask : (k.linesUp d).masked d = false :=
    (Ktu.masked_congr (k.linesUp_only_setDomain d .pins (by decide)) d).trans (k.setDomain_unmasks d h)
  unfold Ktu.linesUp Ktu.lineChanged at hmask ⊢
  unfold Ktu.domainChange
  simp only [h, hmask, not_true_eq_false, if_false, Bool.true_bne, Bool.not_true, Bool.not_false, Bool.and_false, Bool.and_true,
    Bool.false_eq_true]

theorem Ktu.forgetOcc_only : Ktu.only [.counters] k (k.forgetOcc d.val) := by
  intro x hx
  cases x <;> simp [Ktu.same, Ktu.forgetOcc] at hx ⊢

end

/-! ### The commands -/

section
variable {s : State} (d : Fin 4)

/-- R116, R117: both lines of an enabled domain raised. -/
theorem hostDomainChange_up_does (h : s.ktu.runs) (he : s.ktu.pins.straps.domEn.getLsbD d.val = true) :
    KtuDoes (.hostDomainChange d true true) s fun k =>
      k.masked d = false ∧ (∀ e : Fin 4, e ≠ d → k.masked e = s.ktu.masked e) ∧
      k.pins.rstN = s.ktu.pins.rstN ||| BitVec.ofNat 4 (2 ^ d.val) ∧ k.pins.pgood = s.ktu.pins.pgood ||| BitVec.ofNat 4 (2 ^ d.val) ∧
      (s.ktu.pins.rstN.getLsbD d.val = false → bitOf (k.get KReg.HOSTDOM_rst_event) d.val = true) ∧
      (s.ktu.pins.pgood.getLsbD d.val = false → bitOf (k.get KReg.HOSTDOM_pg_event) d.val = true) ∧
      k.cnt.cnt = s.ktu.cnt.cnt ∧ k.tail = s.ktu.tail ∧ k.halts = s.ktu.halts ∧ k.check = s.ktu.check ∧ k.time = s.ktu.time := by
  refine .of_onKtu _ (exec_hostDomainChange h.1 d true true) h ?_
  rw [Ktu.domainChange_up _ d he]
  generalize hm : (if s.ktu.masked d then (s.ktu.linesUp d).forgetOcc d.val else s.ktu.linesUp d) = m
  have hlast : Ktu.only [.counters] (s.ktu.linesUp d) m := by
    subst hm
    split
    · exact Ktu.forgetOcc_only _ d
    · exact Ktu.only_refl _ _
  have hcnt : m.cnt.cnt = (s.ktu.linesUp d).cnt.cnt := by
    subst hm
    split <;> rfl
  have hset : Ktu.only [.regs, .trace, .counters] (s.ktu.setDomain d true true) m.wakeCheck :=
    (Ktu.only_wakeCheck _ _ _).2 (Ktu.only_trans (Ktu.only_mono (s.ktu.linesUp_only_setDomain d) (by decide))
      (Ktu.only_mono hlast (by decide)))
  have hpins : Ktu.same (s.ktu.setDomain d true true) m.wakeCheck .pins := hset .pins (by decide)
  have hget (f : Fld) : m.wakeCheck.get f = (s.ktu.linesUp d).get f :=
    (m.wakeCheck_get f 0).trans (Ktu.get_of_regs (hlast .regs (by decide)) f 0)
  have hcnt' : (s.ktu.linesUp d).cnt = s.ktu.cnt := s.ktu.linesUp_only d .counters (by decide)
  refine ⟨(Ktu.masked_congr hpins d).trans (s.ktu.setDomain_unmasks d he),
    fun e hne => (Ktu.masked_congr hpins e).trans (s.ktu.setDomain_masked_other d hne), Ktu.rstN_of_same hpins,
    Ktu.pgood_of_same hpins, fun hr => ?_, fun hp => ?_, ?_, hset .tail (by decide), hset .halts (by decide),
    hset .check (by decide), hset .time (by decide)⟩
  · rw [hget]; exact s.ktu.linesUp_rst_event d hr
  · rw [hget]; exact s.ktu.linesUp_pg_event d hp
  · rw [Ktu.wakeCheck_cnt, hcnt, hcnt']

/-- R108: in ktu_por_n only the levels are kept. -/
theorem hostDomainChange_por_does (r p : Bool) (hp : s.ktu.pins.porLow = true) : KtuDoes (.hostDomainChange d r p) s fun k =>
    k.pins.rstN.getLsbD d.val = r ∧ k.pins.pgood.getLsbD d.val = p ∧ k.regs = s.ktu.regs ∧ Ktu.only [.pins] s.ktu k :=
  ⟨s.ktu.setDomain d r p, if_pos hp, s.ktu.setDomain_rstN d r p, s.ktu.setDomain_pgood d r p, rfl, s.ktu.setDomain_only d r p⟩

end

/-- Settles O3: the reset, the straps, the clock and the lines of a host domain are a lemma for each command. -/
theorem ktuResetAndDomains : Obligations.KtuResetAndDomains := by
  unfold Obligations.KtuResetAndDomains
  exact ⟨ktuPorAssert_does, fun s st ran hp => ktuPorDeassert_does st ran hp, fun s h => ktuReady_does h,
    fun s hp => exec_ktuClockStop hp, fun s d h he => hostDomainChange_up_does d h he,
    fun s d r p hp => hostDomainChange_por_does d r p hp⟩

end Sys2Proof.Machine
end

section
/-! SUPPORT. The lines of the sideband: a unit's presence, a wake request, an alarm line and the abort handshake (R113, R114, R119,
R121, R135). -/

namespace Sys2Proof.Machine

-- One theorem at a time: elaborated side by side, those of this text need more stacks than the check has memory for.
set_option Elab.async false

open Sys2Proof

/-! ### A Tail ring frozen (R173) -/

section
variable (k : Ktu) (u : Nat)

theorem TailRing.freeze_frozen (r : TailRing) (cause : Nat) : (r.freeze cause).frozen = true := by
  unfold TailRing.freeze
  split
  · assumption
  · rfl

@[simp] theorem Ktu.setRing_same (r : TailRing) : (k.setRing u r).ring u = r := Tbl.get_set_same _ _ _ _

theorem Ktu.setRing_other (r : TailRing) {v : Nat} (h : v ≠ u) : (k.setRing u r).ring v = k.ring v := Tbl.get_set_ne _ _ h _ _

theorem Ktu.freezeRing_armed {cause : Nat} (h : bitOf (k.get KReg.TAIL_CTRL_arm) (cause - 1) = true) :
    k.freezeRing cause u = k.setRing u ((k.ring u).freeze cause) := if_pos h

theorem Ktu.freezeRings_eq (cause : Nat) (us : List Nat) : ∃ t, k.freezeRings cause us = { k with tail := t } := by
  refine List.foldlRecOn us (Ktu.freezeRing cause) (motive := fun m => ∃ t, m = ({ k with tail := t } : Ktu)) ⟨k.tail, rfl⟩ ?_
  rintro _ ⟨t, rfl⟩ v -
  unfold Ktu.freezeRing
  split
  · exact ⟨_, rfl⟩
  · exact ⟨t, rfl⟩

@[simp] theorem Ktu.wakeCheck_ring : k.wakeCheck.ring u = k.ring u := by rw [Ktu.ring, Ktu.wakeCheck_tail, Ktu.ring]

end

/-! ### A pending wake source (R306, R307, R309) -/

section
variable (k : Ktu)

theorem Ktu.wakeSources_of_latch (h : k.pins.wakeLatch = true) : k.wakeSources ≠ 0 := by
  simp [Ktu.wakeSources, h]

theorem LinkEnd.sendState_stay_lp (e : LinkEnd) : (e.sendState 2).lp = 0 := rfl

theorem Ktu.stayAwake_lp : k.stayAwake.fife.up.lp = 0 ∧ k.stayAwake.fife.dn.lp = 0 := by
  unfold Ktu.stayAwake
  by_cases hu : k.fife.up.lp = 0 <;> by_cases hd : k.fife.dn.lp = 0 <;>
    simp [Ktu.setLink, hu, hd, LinkEnd.sendState_stay_lp]

theorem Ktu.sendWake_up_lp : k.sendWake.fife.up.lp = k.fife.up.lp := by
  unfold Ktu.sendWake
  split <;> rfl

theorem Ktu.sendWake_dn : k.sendWake.fife.dn = k.fife.dn := by obtain ⟨a, b, u, w, h⟩ := k.sendWake_eq; rw [h]; rfl

theorem Ktu.sendWake_sleepPhase : k.sendWake.fife.sleepPhase = k.fife.sleepPhase := by
  obtain ⟨a, b, u, w, h⟩ := k.sendWake_eq; rw [h]; rfl

/-- A pending source brings both links to L0 and ends the sleep phase. -/
theorem Ktu.wakeCheck_wakes (h : k.wakeSources ≠ 0) :
    k.wakeCheck.fife.up.lp = 0 ∧ k.wakeCheck.fife.dn.lp = 0 ∧ k.wakeCheck.fife.sleepPhase = 0 := by
  obtain ⟨hup, hdn⟩ := k.stayAwake_lp
  unfold Ktu.wakeCheck
  rw [if_neg h]
  exact ⟨(Ktu.sendWake_up_lp _).trans hup, (congrArg LinkEnd.lp (Ktu.sendWake_dn _)).trans hdn, Ktu.sendWake_sleepPhase _⟩

end

/-! ### An ALARM originated (R283, R284) -/

section
variable (k : Ktu) (p : BitVec 112)

theorem Ktu.sendAlarm_held (h : k.fife.addrValid = false) :
    k.sendAlarm p = { k with fife := { k.fife with heldAlarms := k.fife.heldAlarms ++ [p] } } := if_neg (by simp [h])

theorem Ktu.sendAlarm_sent (h : k.fife.addrValid = true) :
    k.sendAlarm p = { k with fife := { k.fife with
      up := k.fife.up.sendPair p, dn := if k.pins.straps.leaf then k.fife.dn else k.fife.dn.sendPair p } } := if_pos h

/-- Sending a pair touches the held pairs and the link ends alone. -/
theorem Ktu.sendAlarm_eq : ∃ u d l, k.sendAlarm p = { k with fife := { k.fife with up := u, dn := d, heldAlarms := l } } := by
  cases h : k.fife.addrValid with
  | false => exact ⟨_, _, _, k.sendAlarm_held p h⟩
  | true => exact ⟨_, _, _, k.sendAlarm_sent p h⟩

variable (kind scope sub code : Nat)

theorem Ktu.originate_only : Ktu.only [.fife] k (k.originate kind scope sub code) := by
  obtain ⟨u, d, l, h⟩ := k.sendAlarm_eq (alarmPair kind k.fife.addr scope sub code k.alarmArg)
  unfold Ktu.originate
  rw [h]
  intro x hx
  cases x <;> simp [Ktu.same] at hx ⊢

theorem Ktu.originate_alarmCount : (k.originate kind scope sub code).fife.alarmCount = (k.fife.alarmCount + 1) % 65536 := by
  obtain ⟨u, d, l, h⟩ := k.sendAlarm_eq (alarmPair kind k.fife.addr scope sub code k.alarmArg)
  unfold Ktu.originate
  rw [h]

theorem Ktu.originate_held (h : k.fife.addrValid = false) : (k.originate kind scope sub code).fife.heldAlarms =
    k.fife.heldAlarms ++ [alarmPair kind k.fife.addr scope sub code k.alarmArg] := by
  unfold Ktu.originate
  rw [Ktu.sendAlarm_held _ _ h]

theorem Ktu.originate_sent (h : k.fife.addrValid = true) :
    alarmPair kind k.fife.addr scope sub code k.alarmArg ∈ (k.originate kind scope sub code).fife.up.alarms := by
  unfold Ktu.originate
  rw [Ktu.sendAlarm_sent _ _ h]
  simp [LinkEnd.sendPair]

end

/-! ### The abort handshake (R114, R135) -/

section
variable (k : Ktu)

theorem Ktu.regsOnly_pend (b : Ktu) : Ktu.regsOnly [(KReg.IRQ_PEND_pend, 0)] k (Ktu.pend b k) :=
  fun f i h => Ktu.get_pend_ne b k f i (h _ (List.mem_singleton_self _))

/-- What the fall of ktu_abort_ack makes of the pins: what was held is raised. -/
def KPins.ackFallen (p : KPins) : KPins :=
  { p with abortAck := false, abortHeld := 0, abort := p.abort || decide (p.abortHeld ≠ 0), abortPart := p.abortPart ||| p.abortHeld }

theorem KPins.ackFallen_none {p : KPins} (h : p.abortHeld = 0) : p.ackFallen = { p with abortAck := false, abortHeld := 0 } := by
  simp [KPins.ackFallen, h]

theorem KPins.ackFallen_held {p : KPins} (h : p.abortHeld ≠ 0) :
    p.ackFallen = { p with abortAck := false, abortHeld := 0, abort := true, abortPart := p.abortPart ||| p.abortHeld } := by
  rw [KPins.ackFallen, decide_eq_true h, Bool.or_true]

theorem Ktu.abortAckFall_pends : ∃ b, k.abortAckFall = { k with pins := k.pins.ackFallen } ∨
    k.abortAckFall = Ktu.pend b { k with pins := k.pins.ackFallen } := by
  unfold Ktu.abortAckFall
  by_cases h : k.pins.abortHeld = 0
  · rw [KPins.ackFallen_none h]
    exact ⟨k, .inl (if_pos h)⟩
  · rw [KPins.ackFallen_held h]
    exact ⟨_, .inr (if_neg h)⟩

theorem Ktu.abortAckFall_eq : ∃ r, k.abortAckFall = { k with pins := k.pins.ackFallen, regs := r } ∧
    Ktu.regsOnly [(KReg.IRQ_PEND_pend, 0)] k k.abortAckFall := by
  obtain ⟨b, h | h⟩ := k.abortAckFall_pends
  · exact ⟨k.regs, h, by rw [h]; exact Ktu.regsOnly_refl _ k⟩
  · obtain ⟨r, hr⟩ := Ktu.pend_eq b { k with pins := k.pins.ackFallen }
    refine ⟨r, h.trans hr, ?_⟩
    rw [h]
    exact Ktu.regsOnly_pend _ b

theorem wordFields_abort : wordFields 0x488 = [(KReg.ABORT_force_clear, 0), (KReg.ABORT_pending, 0), (KReg.ABORT_part, 0)] := by
  decide +kernel

/-- For *fleet* force_clear lowers ktu_abort, and nothing but the latch of the first error follows. -/
theorem Ktu.writeBy_forceClear {w : Writer} (hr : k.pins.ready = true) (ho : ownerOf w = fleet) :
    ∃ e, k.writeBy w 0x488 (2 ^ 31) = { k.forceClear with errHeld := e } := by
  have hmay (f : Fld) (i : Nat) : k.mayWrite fleet f i = true := rfl
  have hclear (p : Path) (u : Nat) : k.writeField p KReg.ABORT_force_clear u 0 = k := rfl
  have hpending (p : Path) (u : Nat) : k.writeField p KReg.ABORT_pending u 0 = k := rfl
  have hpart (p : Path) (u : Nat) : k.writeField p KReg.ABORT_part u 0 = k := rfl
  have hcmd : k.writeCmd fleet 0x488 (2 ^ 31) = k.forceClear := rfl
  obtain ⟨e, he⟩ := k.forceClear.errRearm_eq
  refine ⟨e, ?_⟩
  simp [-Nat.reducePow, Ktu.writeBy, hr, ho, Ktu.writeWord, Ktu.writeRefused, hmay, wordFields_abort, hclear, hpending, hpart, hcmd,
    Ktu.refusal, he]

end

/-! ### The commands -/

section
variable {s : State} (h : s.ktu.runs)
include h

theorem unitStatUpdate_present_does (u : Fin 2048) : KtuDoes (.unitStatUpdate u true) s fun k =>
    Tbl.get false u.val k.pins.units = true ∧ (∀ v, v ≠ u.val → Tbl.get false v k.pins.units = Tbl.get false v s.ktu.pins.units) ∧
    Ktu.only [.pins] s.ktu k := by
  refine .of_onKtu (fun k => k.unitStat u true) rfl h ?_
  have hunits : (s.ktu.unitStat u true).pins.units = Tbl.set false u.val true s.ktu.pins.units := rfl
  rw [Ktu.wakeCheck_pins_units, Ktu.only_wakeCheck, hunits]
  exact ⟨Tbl.get_set_same _ _ _ _, fun v hv => Tbl.get_set_ne _ _ hv _ _, s.ktu.withPins_only _⟩

/-- R173: the ring of a unit that is not present any more freezes, where that trigger is armed. -/
theorem unitStatUpdate_absent_does (u : Fin 2048) (ha : bitOf (s.ktu.get KReg.TAIL_CTRL_arm) 2 = true) :
    KtuDoes (.unitStatUpdate u false) s fun k =>
      Tbl.get false u.val k.pins.units = false ∧ (k.ring u.val).frozen = true ∧ (∀ v, v ≠ u.val → k.ring v = s.ktu.ring v) ∧
      Ktu.only [.pins, .tail] s.ktu k := by
  refine .of_onKtu (fun k => k.unitStat u false) rfl h ?_
  generalize hm : ({ s.ktu with pins := { s.ktu.pins with units := Tbl.set false u.val false s.ktu.pins.units } } : Ktu) = m
  have hring (v : Nat) : m.ring v = s.ktu.ring v := by subst hm; rfl
  have harm : bitOf (m.get KReg.TAIL_CTRL_arm) (3 - 1) = true := by subst hm; exact ha
  have hunits : Tbl.get false u.val m.pins.units = false := by subst hm; exact Tbl.get_set_same false u.val false s.ktu.pins.units
  have honly : Ktu.only [.pins] s.ktu m := by subst hm; exact s.ktu.withPins_only _
  have hunit : s.ktu.unitStat u false = m.setRing u.val ((m.ring u.val).freeze 3) := by
    rw [← Ktu.freezeRing_armed _ _ harm, ← hm]
    rfl
  rw [hunit, Ktu.only_wakeCheck, Ktu.wakeCheck_pins_units, Ktu.wakeCheck_ring, Ktu.setRing_same]
  refine ⟨hunits, TailRing.freeze_frozen _ _, fun v hv => ?_, ?_⟩
  · rw [Ktu.wakeCheck_ring, Ktu.setRing_other _ _ _ hv, hring]
  · exact Ktu.only_trans (Ktu.only_mono honly (by decide)) (Ktu.only_mono (Ktu.setRing_keeps m _ _).only (by decide))

/-- R121, R309: a wake request is reported, and brings both links to L0. -/
theorem hostWakeReq_does (d : Fin 4) (he : s.ktu.pins.straps.domEn.getLsbD d.val = true) : KtuDoes (.hostWakeReq d) s fun k =>
    bitOf (k.get KReg.HOSTDOM_wake_seen) d.val = true ∧ k.fife.up.lp = 0 ∧ k.fife.dn.lp = 0 ∧ k.fife.sleepPhase = 0 ∧
    Ktu.only [.regs] s.ktu k ∧ Ktu.regsOnly [(KReg.HOSTDOM_wake_seen, 0), (KReg.IRQ_PEND_pend, 0)] s.ktu k := by
  refine .of_onKtu (fun k => k.hostWake d) rfl h ?_
  generalize hm : ({ s.ktu with pins := { s.ktu.pins with wakeLatch := true } } : Ktu) = m
  have hlatch : m.pins.wakeLatch = true := by subst hm; rfl
  have honly : Ktu.only [.regs] s.ktu m := by
    subst hm
    intro x hx
    cases x <;> simp [Ktu.same] at hx ⊢
  have hregs : m.regs = s.ktu.regs := by subst hm; rfl
  have hwake : s.ktu.hostWake d = m.raise KReg.HOSTDOM_wake_seen (2 ^ d.val) := by
    rw [← hm]
    exact if_pos he
  obtain ⟨hup, hdn, hphase⟩ := Ktu.wakeCheck_wakes (m.raise KReg.HOSTDOM_wake_seen (2 ^ d.val))
    (Ktu.wakeSources_of_latch _ (by rw [Ktu.raise_pins, hlatch]))
  rw [hwake]
  refine ⟨?_, hup, hdn, hphase, ?_, ?_⟩
  · rw [Ktu.wakeCheck_get]
    exact m.bitOf_get_raise d.isLt (by decide)
  · exact (Ktu.only_wakeCheck _ _ _).2 (Ktu.only_trans honly (m.raise_only_regs _ _ 0))
  · exact (Ktu.regsOnly_congr (Ktu.wakeCheck_regs _)).2 (Ktu.regsOnly_raise_of _ _ 0 hregs)

/-- R113, R284: the alarm line of a domain originates an ALARM of kind 0. -/
theorem hostAlarm_does (d : Fin 4) (code : BitVec 8) (he : s.ktu.pins.straps.domEn.getLsbD d.val = true) :
    KtuDoes (.hostAlarm d code) s fun k =>
      k.fife.alarmCount = (s.ktu.fife.alarmCount + 1) % 65536 ∧
      (s.ktu.fife.addrValid = false → k.fife.heldAlarms = s.ktu.fife.heldAlarms ++
        [alarmPair 0 s.ktu.fife.addr (s.ktu.get KReg.FIFE_MEMBER_member) d.val code.toNat s.ktu.alarmArg]) ∧
      (s.ktu.fife.addrValid = true →
        alarmPair 0 s.ktu.fife.addr (s.ktu.get KReg.FIFE_MEMBER_member) d.val code.toNat s.ktu.alarmArg ∈ k.fife.up.alarms) ∧
      Ktu.only [.tail, .fife] s.ktu k := by
  refine .of_onKtu (fun k => k.hostAlarmRise d code) rfl h ?_
  have hfrozen : Ktu.only [.tail, .fife] s.ktu (s.ktu.freezeRings 4 (domainUnits d.val)) :=
    Ktu.only_mono (s.ktu.freezeRings_keeps _ _).only (by decide)
  obtain ⟨t, ht⟩ := s.ktu.freezeRings_eq 4 (domainUnits d.val)
  have hrise : s.ktu.hostAlarmRise d code =
      Ktu.originate { s.ktu with tail := t } 0 (s.ktu.get KReg.FIFE_MEMBER_member) d.val code.toNat := by
    rw [← ht]
    exact if_pos he
  rw [ht] at hfrozen
  rw [hrise, Ktu.only_wakeCheck, Ktu.wakeCheck_fife_alarmCount, Ktu.wakeCheck_fife_heldAlarms, Ktu.wakeCheck_up_alarms]
  exact ⟨Ktu.originate_alarmCount _ _ _ _ _, fun hv => Ktu.originate_held { s.ktu with tail := t } _ _ _ _ hv,
    fun hv => Ktu.originate_sent { s.ktu with tail := t } _ _ _ _ hv,
    Ktu.only_trans hfrozen (Ktu.only_mono (Ktu.originate_only _ _ _ _ _) (by decide))⟩

theorem abortAck_does : KtuDoes .abortAck s fun k =>
    k.pins.abort = false ∧ k.pins.abortPart = 0 ∧ k.pins.abortAck = true ∧ k.pins.abortHeld = s.ktu.pins.abortHeld ∧
    Ktu.only [.pins] s.ktu k := by
  refine .of_onKtu Ktu.abortAckRise rfl h ?_
  rw [Ktu.wakeCheck_pins_abort, Ktu.wakeCheck_pins_abortPart, Ktu.wakeCheck_pins_abortAck, Ktu.wakeCheck_pins_abortHeld,
    Ktu.only_wakeCheck]
  exact ⟨rfl, rfl, rfl, rfl, s.ktu.withPins_only _⟩

theorem abortAckFall_does : KtuDoes .abortAckFall s fun k =>
    k.pins.abortAck = false ∧ k.pins.abortHeld = 0 ∧ k.pins.abort = (s.ktu.pins.abort || decide (s.ktu.pins.abortHeld ≠ 0)) ∧
    k.pins.abortPart = s.ktu.pins.abortPart ||| s.ktu.pins.abortHeld ∧ Ktu.only [.pins, .regs] s.ktu k ∧
    Ktu.regsOnly [(KReg.IRQ_PEND_pend, 0)] s.ktu k := by
  refine .of_onKtu Ktu.abortAckFall rfl h ?_
  obtain ⟨r, hr, hregs⟩ := s.ktu.abortAckFall_eq
  have hpins : s.ktu.abortAckFall.pins = s.ktu.pins.ackFallen := by rw [hr]
  have honly : Ktu.only [.pins, .regs] s.ktu s.ktu.abortAckFall := by
    rw [hr]
    exact Ktu.only_trans (Ktu.only_mono (s.ktu.withPins_only s.ktu.pins.ackFallen) (by decide))
      (Ktu.only_mono (Ktu.only_regs _ r) (by decide))
  rw [Ktu.wakeCheck_pins_abort, Ktu.wakeCheck_pins_abortPart, Ktu.wakeCheck_pins_abortAck, Ktu.wakeCheck_pins_abortHeld,
    Ktu.only_wakeCheck, Ktu.regsOnly_congr (Ktu.wakeCheck_regs _), hpins]
  exact ⟨rfl, rfl, rfl, rfl, honly, hregs⟩

theorem abortForceClear_does {w : Writer} (hr : s.ktu.pins.ready = true) (ho : ownerOf w = fleet) :
    KtuDoes (.abortForceClear w) s fun k =>
      k.pins.abort = false ∧ k.pins.abortPart = 0 ∧ k.pins.abortHeld = s.ktu.pins.abortHeld ∧ k.regs = s.ktu.regs ∧
      Ktu.only [.pins, .rest] s.ktu k := by
  obtain ⟨e, he⟩ := s.ktu.writeBy_forceClear hr ho
  refine .of_onKtu (Ktu.writeBy w 0x488 (2 ^ 31)) rfl h ?_
  rw [he]
  have hk := Ktu.EndsAs.of_errHeld s.ktu s.ktu.forceClear e
  refine ⟨Ktu.wakeCheck_pins_abort _, Ktu.wakeCheck_pins_abortPart _, Ktu.wakeCheck_pins_abortHeld _, hk.regs, ?_⟩
  exact hk.only (by decide) (Ktu.only_mono (s.ktu.withPins_only _) (by decide))

end

end Sys2Proof.Machine
end

section
/-! SUPPORT. The timestamp capture of a host domain (R126), and the statement on the lines of the sideband. -/

namespace Sys2Proof.Machine

-- One theorem at a time: elaborated side by side, those of this text need more stacks than the check has memory for.
set_option Elab.async false

open Sys2Proof

/-! ### A capture begins -/

section
variable {k : Ktu} {d : Fin 4}

/-- What a capture that begins makes of the pins: both bases are latched, and the capture runs. -/
def Ktu.captureBegun (k : Ktu) (d : Fin 4) : KPins :=
  { k.pins with tsBusy := k.pins.tsBusy ||| BitVec.ofNat 4 (2 ^ d.val), tsCap := k.pins.tsCap ||| BitVec.ofNat 4 (2 ^ d.val),
                tsLatch := Tbl.set 0 (2 * d.val + 1) k.time.b.ns (Tbl.set 0 (2 * d.val) k.time.a.ns k.pins.tsLatch) }

theorem Ktu.tsCapRise_idle (hm : k.masked d = false) (hb : k.pins.tsBusy.getLsbD d.val = false) :
    k.tsCapRise d = { k with pins := k.captureBegun d } := by
  simp only [Ktu.tsCapRise, hm, hb, Bool.false_eq_true, if_false]
  rfl

theorem Ktu.tsCapRise_busy (hm : k.masked d = false) (hb : k.pins.tsBusy.getLsbD d.val = true) :
    k.tsCapRise d = k.raise KReg.HOSTDOM_cap_overrun (2 ^ d.val) := by
  simp [Ktu.tsCapRise, hm, hb]

/-! ### A capture completes -/

/-- The fields of KTU_TSCAPd, base A and base B, low word first. -/
def tsCapFields : List Fld := [KReg.TSCAPd_A_LO_ns, KReg.TSCAPd_A_HI_ns, KReg.TSCAPd_B_LO_ns, KReg.TSCAPd_B_HI_ns]

/-- The fields of one domain's capture lie at different places. -/
theorem tsCapFields_apart (d : Fin 4) : ∀ f ∈ tsCapFields, ∀ g ∈ tsCapFields, f ≠ g → f.key d.val ≠ g.key d.val := by
  revert d
  decide

/-- Storing one word of a capture leaves another as it is. -/
theorem Ktu.get_put_tsCap (m : Ktu) (v : Nat) {f g : Fld} (hf : f ∈ tsCapFields := by decide) (hg : g ∈ tsCapFields := by decide)
    (hne : f ≠ g := by decide) : (m.put g v d.val).get f d.val = m.get f d.val :=
  Ktu.get_put_ne _ _ _ _ _ _ (tsCapFields_apart d f hf g hg hne)

/-- KTU_TSCAPd with the readings of both bases. -/
def Ktu.showCapture (k : Ktu) (d : Fin 4) (a b : Nat) : Ktu :=
  (((k.put KReg.TSCAPd_A_LO_ns a d.val).put KReg.TSCAPd_A_HI_ns (a / 2 ^ 32) d.val).put KReg.TSCAPd_B_LO_ns b d.val).put
    KReg.TSCAPd_B_HI_ns (b / 2 ^ 32) d.val

theorem Ktu.showCapture_get (a b : Nat) :
    (k.showCapture d a b).get KReg.TSCAPd_A_LO_ns d.val = a % 2 ^ 32 ∧
    (k.showCapture d a b).get KReg.TSCAPd_A_HI_ns d.val = a / 2 ^ 32 % 2 ^ 32 ∧
    (k.showCapture d a b).get KReg.TSCAPd_B_LO_ns d.val = b % 2 ^ 32 ∧
    (k.showCapture d a b).get KReg.TSCAPd_B_HI_ns d.val = b / 2 ^ 32 % 2 ^ 32 := by
  unfold Ktu.showCapture
  refine ⟨?_, ?_, ?_, ?_⟩
  · rw [Ktu.get_put_tsCap, Ktu.get_put_tsCap, Ktu.get_put_tsCap, Ktu.get_put_same]; rfl
  · rw [Ktu.get_put_tsCap, Ktu.get_put_tsCap, Ktu.get_put_same]; rfl
  · rw [Ktu.get_put_tsCap, Ktu.get_put_same]; rfl
  · rw [Ktu.get_put_same]; rfl

/-- What a capture that completes makes of the pins: ts_val rises where ts_cap is still high, and else for one period alone. -/
def KPins.captureShown (p : KPins) (d : Fin 4) : KPins :=
  { p with tsBusy := p.tsBusy &&& ~~~BitVec.ofNat 4 (2 ^ d.val),
           tsVal := if p.tsCap.getLsbD d.val then p.tsVal ||| BitVec.ofNat 4 (2 ^ d.val) else p.tsVal,
           tsPulse := if p.tsCap.getLsbD d.val then p.tsPulse else p.tsPulse ^^^ BitVec.ofNat 4 (2 ^ d.val) }

theorem KPins.captureShown_high {p : KPins} (h : p.tsCap.getLsbD d.val = true) :
    (p.captureShown d).tsVal = p.tsVal ||| BitVec.ofNat 4 (2 ^ d.val) := if_pos h

theorem KPins.captureShown_fallen {p : KPins} (h : p.tsCap.getLsbD d.val = false) : (p.captureShown d).tsVal = p.tsVal :=
  if_neg (by rw [h]; exact Bool.false_ne_true)

theorem Ktu.tsDone_busy (hb : k.pins.tsBusy.getLsbD d.val = true) : k.tsDone d =
    { k.showCapture d (Tbl.get 0 (2 * d.val) k.pins.tsLatch) (Tbl.get 0 (2 * d.val + 1) k.pins.tsLatch) with
      pins := k.pins.captureShown d } := if_pos hb

end

/-! ### The commands -/

section
variable {s : State} (h : s.ktu.runs) (d : Fin 4)
include h

theorem tsCap_begins (hm : s.ktu.masked d = false) (hb : s.ktu.pins.tsBusy.getLsbD d.val = false) : KtuDoes (.tsCap d) s fun k =>
    Tbl.get 0 (2 * d.val) k.pins.tsLatch = s.ktu.time.a.ns ∧ Tbl.get 0 (2 * d.val + 1) k.pins.tsLatch = s.ktu.time.b.ns ∧
    k.pins.tsBusy.getLsbD d.val = true ∧ k.pins.tsCap.getLsbD d.val = true ∧ k.pins.tsVal = s.ktu.pins.tsVal ∧
    Ktu.only [.pins] s.ktu k := by
  refine .of_onKtu (fun k => k.tsCapRise d) rfl h ?_
  rw [Ktu.tsCapRise_idle hm hb, Ktu.wakeCheck_pins_tsLatch, Ktu.wakeCheck_pins_tsBusy, Ktu.wakeCheck_pins_tsCap,
    Ktu.wakeCheck_pins_tsVal, Ktu.only_wakeCheck]
  refine ⟨?_, Tbl.get_set_same _ _ _ _, getLsbD_raised _ d, getLsbD_raised _ d, rfl, s.ktu.withPins_only _⟩
  exact (Tbl.get_set_ne _ _ (by omega) _ _).trans (Tbl.get_set_same _ _ _ _)

theorem tsCap_overruns (hm : s.ktu.masked d = false) (hb : s.ktu.pins.tsBusy.getLsbD d.val = true) : KtuDoes (.tsCap d) s fun k =>
    bitOf (k.get KReg.HOSTDOM_cap_overrun) d.val = true ∧ k.pins.tsLatch = s.ktu.pins.tsLatch ∧ Ktu.only [.regs] s.ktu k ∧
    Ktu.regsOnly [(KReg.HOSTDOM_cap_overrun, 0), (KReg.IRQ_PEND_pend, 0)] s.ktu k := by
  refine .of_onKtu (fun k => k.tsCapRise d) rfl h ?_
  rw [Ktu.tsCapRise_busy hm hb, Ktu.wakeCheck_get, Ktu.wakeCheck_pins_tsLatch, Ktu.raise_pins, Ktu.only_wakeCheck,
    Ktu.regsOnly_congr (Ktu.wakeCheck_regs _)]
  exact ⟨s.ktu.bitOf_get_raise d.isLt (by decide), rfl, s.ktu.raise_only_regs _ _ 0, s.ktu.regsOnly_raise _ _ 0⟩

theorem tsCaptureComplete_does (hb : s.ktu.pins.tsBusy.getLsbD d.val = true) : KtuDoes (.tsCaptureComplete d) s fun k =>
    k.get KReg.TSCAPd_A_LO_ns d.val = Tbl.get 0 (2 * d.val) s.ktu.pins.tsLatch % 2 ^ 32 ∧
    k.get KReg.TSCAPd_A_HI_ns d.val = Tbl.get 0 (2 * d.val) s.ktu.pins.tsLatch / 2 ^ 32 % 2 ^ 32 ∧
    k.get KReg.TSCAPd_B_LO_ns d.val = Tbl.get 0 (2 * d.val + 1) s.ktu.pins.tsLatch % 2 ^ 32 ∧
    k.get KReg.TSCAPd_B_HI_ns d.val = Tbl.get 0 (2 * d.val + 1) s.ktu.pins.tsLatch / 2 ^ 32 % 2 ^ 32 ∧
    k.pins.tsBusy.getLsbD d.val = false ∧ (s.ktu.pins.tsCap.getLsbD d.val = true → k.pins.tsVal.getLsbD d.val = true) ∧
    (s.ktu.pins.tsCap.getLsbD d.val = false → k.pins.tsVal = s.ktu.pins.tsVal) ∧ Ktu.only [.pins, .regs] s.ktu k := by
  refine .of_onKtu (fun k => k.tsDone d) rfl h ?_
  rw [Ktu.tsDone_busy hb, Ktu.wakeCheck_get, Ktu.wakeCheck_get, Ktu.wakeCheck_get, Ktu.wakeCheck_get, Ktu.wakeCheck_pins_tsBusy,
    Ktu.wakeCheck_pins_tsVal, Ktu.only_wakeCheck]
  obtain ⟨halo, hahi, hblo, hbhi⟩ := s.ktu.showCapture_get (d := d) (Tbl.get 0 (2 * d.val) s.ktu.pins.tsLatch)
    (Tbl.get 0 (2 * d.val + 1) s.ktu.pins.tsLatch)
  refine ⟨halo, hahi, hblo, hbhi, getLsbD_lowered _ d, fun hc => ?_, KPins.captureShown_fallen, ?_⟩
  · rw [KPins.captureShown_high hc]
    exact getLsbD_raised _ d
  · exact Ktu.only_trans (Ktu.only_mono (s.ktu.only_regs _) (by decide)) (Ktu.only_mono (Ktu.withPins_only _ _) (by decide))

theorem tsCapFall_does : KtuDoes (.tsCapFall d) s fun k =>
    k.pins.tsCap.getLsbD d.val = false ∧ k.pins.tsVal.getLsbD d.val = false ∧
    (∀ e : Fin 4, e ≠ d → k.pins.tsVal.getLsbD e.val = s.ktu.pins.tsVal.getLsbD e.val) ∧ Ktu.only [.pins] s.ktu k := by
  refine .of_onKtu (fun k => k.tsCapFall d) rfl h ?_
  rw [Ktu.wakeCheck_pins_tsCap, Ktu.wakeCheck_pins_tsVal, Ktu.only_wakeCheck]
  exact ⟨getLsbD_lowered _ d, getLsbD_lowered _ d, fun e he => getLsbD_lowered_other _ he, s.ktu.withPins_only _⟩

end

/-- Settles O4: each line of the sideband, and each edge of a timestamp capture, is a lemma. -/
theorem sidebandLines : Obligations.SidebandLines := by
  unfold Obligations.SidebandLines
  exact ⟨fun s u h => unitStatUpdate_present_does h u, fun s u h ha => unitStatUpdate_absent_does h u ha,
    fun s d h he => hostWakeReq_does h d he, fun s d code h he => hostAlarm_does h d code he, fun s h => abortAck_does h,
    fun s h => abortAckFall_does h, fun s w h hr ho => abortForceClear_does h hr ho, fun s d h hm hb => tsCap_begins h d hm hb,
    fun s d h hm hb => tsCap_overruns h d hm hb, fun s d h hb => tsCaptureComplete_does h d hb, fun s d h => tsCapFall_does h d⟩

end Sys2Proof.Machine
end

section
/-! SUPPORT. What counting does (R137, R143, R146, R161): one addition to a counter, and what it leaves alone. -/

namespace Sys2Proof.Machine

-- One theorem at a time: elaborated side by side, those of this text need more stacks than the check has memory for.
set_option Elab.async false

open Sys2Proof

/-- What a fold makes of `x`, which its list names once: it holds `P` up to there, and `Q` from there on. -/
theorem foldl_once {α β : Type} {f : β → α → β} {P Q : β → Prop} {x : α} {l : List α} (hn : l.Nodup) (hm : x ∈ l)
    (hP : ∀ b, ∀ y ∈ l, y ≠ x → P b → P (f b y)) (hx : ∀ b, P b → Q (f b x)) (hQ : ∀ b, ∀ y ∈ l, y ≠ x → Q b → Q (f b y)) {b : β}
    (hb : P b) : Q (l.foldl f b) := by
  obtain ⟨l₁, l₂, rfl⟩ := List.append_of_mem hm
  obtain ⟨hnotin, -⟩ := List.nodup_cons.1 (List.nodup_middle.1 hn)
  have hne {y : α} (hy : y ∈ l₁ ++ l₂) : y ≠ x := fun h => hnotin (h ▸ hy)
  rw [List.foldl_append, List.foldl_cons]
  have hbefore : P (l₁.foldl f b) := List.foldlRecOn l₁ f hb fun b hb y hy => hP b y (by simp [hy]) (hne (by simp [hy])) hb
  exact List.foldlRecOn l₂ f (hx _ hbefore) fun b hb y hy => hQ b y (by simp [hy]) (hne (by simp [hy])) hb

/-! ### The registers a PMU counts by -/

/-- The fields that say whether a PMU counts, and where (R143, R146). -/
def pmuControls : List Fld :=
  [KReg.PMUi_CTRL_enable, KReg.PMUi_CTRL_domain, KReg.PMUi_CTRL_owner, KReg.PMU_DOMGRANT_LO_grant, KReg.PMU_DOMGRANT_HI_grant]

/-- A key is of none of those fields, whichever the PMU. -/
def offControls (key : Nat) : Prop := ∀ f ∈ pmuControls, ∀ i, f.key i ≠ key

theorem offControls_iff {key : Nat} : offControls key ↔ ∀ i, 0x80000 + 2048 * i ≠ key ∧ 0x80014 + 2048 * i ≠ key ∧
    0x80016 + 2048 * i ≠ key ∧ 0x60280 ≠ key ∧ 0x60300 ≠ key := by
  have hkeys (i : Nat) : KReg.PMUi_CTRL_enable.key i = 0x80000 + 2048 * i ∧ KReg.PMUi_CTRL_domain.key i = 0x80014 + 2048 * i ∧
      KReg.PMUi_CTRL_owner.key i = 0x80016 + 2048 * i ∧ KReg.PMU_DOMGRANT_LO_grant.key i = 0x60280 ∧
      KReg.PMU_DOMGRANT_HI_grant.key i = 0x60300 := by
    simp only [Fld.key, Fld.addr, KReg.PMUi_CTRL_enable, KReg.PMUi_CTRL_domain, KReg.PMUi_CTRL_owner, KReg.PMU_DOMGRANT_LO_grant,
      KReg.PMU_DOMGRANT_HI_grant]
    omega
  simp only [offControls, pmuControls, List.forall_mem_cons, List.not_mem_nil, false_implies, implies_true, and_true, hkeys,
    forall_and]

/-- The overflow flags and the excess flag lie elsewhere (R161). -/
theorem aonOvf_off {m : Nat} (h : m < 4) : offControls (KReg.AON_OVFm_ovf.key m) := by
  rw [offControls_iff]
  simp only [Fld.key, Fld.addr, KReg.AON_OVFm_ovf]
  omega

theorem pmuCycOvf_off (i : Nat) : offControls (KReg.PMUi_STATUS_cyc_ovf.key i) := by
  rw [offControls_iff]
  simp only [Fld.key, Fld.addr, KReg.PMUi_STATUS_cyc_ovf]
  omega

theorem pmuOvf_off (i : Nat) : offControls (KReg.PMUi_STATUS_ovf.key i) := by
  rw [offControls_iff]
  simp only [Fld.key, Fld.addr, KReg.PMUi_STATUS_ovf]
  omega

theorem slotOvf_off (g : Nat) : offControls (KReg.SLOTg_STATUS_ovf.key g) := by
  rw [offControls_iff]
  simp only [Fld.key, Fld.addr, KReg.SLOTg_STATUS_ovf]
  omega

theorem slotExcess_off (g : Nat) : offControls (KReg.SLOTg_STATUS_excess_seen.key g) := by
  rw [offControls_iff]
  simp only [Fld.key, Fld.addr, KReg.SLOTg_STATUS_excess_seen]
  omega

theorem irqPend_off : offControls (KReg.IRQ_PEND_pend.key 0) := by
  rw [offControls_iff]
  simp only [Fld.key, Fld.addr, KReg.IRQ_PEND_pend]
  omega

/-! ### The relation -/

/-- Between two KTUs counters in `ids` have counted: no other counter and none of the registers a PMU counts by has moved. -/
structure Ktu.Counts (ids : Nat → Prop) (a b : Ktu) : Prop where
  only : Ktu.only [.regs, .counters] a b
  cntOf : ∀ id, ¬ ids id → b.cntOf id = a.cntOf id
  controls : ∀ f ∈ pmuControls, ∀ i, b.get f i = a.get f i

section
variable {ids ids' : Nat → Prop} {a b c k : Ktu}

theorem Ktu.Counts.refl (ids : Nat → Prop) (k : Ktu) : Ktu.Counts ids k k := ⟨k.only_refl _, fun _ _ => rfl, fun _ _ _ => rfl⟩

theorem Ktu.Counts.step (h : Ktu.Counts ids a b) (h' : Ktu.Counts ids' b c) (hi : ∀ id, ids' id → ids id) : Ktu.Counts ids a c where
  only := Ktu.only_trans h.only h'.only
  cntOf id hn := (h'.cntOf id fun hm => hn (hi id hm)).trans (h.cntOf id hn)
  controls f hf i := (h'.controls f hf i).trans (h.controls f hf i)

theorem Ktu.Counts.mono (h : Ktu.Counts ids' a b) (hi : ∀ id, ids' id → ids id) : Ktu.Counts ids a b :=
  (Ktu.Counts.refl ids a).step h hi

theorem Ktu.Counts.foldl {α : Type} {f : Ktu → α → Ktu} (l : List α) (k : Ktu)
    (h : ∀ (k : Ktu), ∀ x ∈ l, Ktu.Counts ids k (f k x)) : Ktu.Counts ids k (l.foldl f k) :=
  List.foldlRecOn l f (.refl ids k) fun b hb x hx => hb.step (h b x hx) fun _ h => h

theorem Ktu.Counts.ite {p : Prop} [Decidable p] (h : Ktu.Counts ids a b) : Ktu.Counts ids a (if p then b else a) := by
  split
  · exact h
  · exact .refl _ _

@[simp] theorem Ktu.wakeCheck_cntOf (k : Ktu) (id : Nat) : k.wakeCheck.cntOf id = k.cntOf id := by
  rw [Ktu.cntOf, Ktu.wakeCheck_cnt, Ktu.cntOf]

/-- What belongs to the counters and is no counter. -/
theorem Ktu.withCnt_counts (k : Ktu) {c : KCounters} (h : c.cnt = k.cnt.cnt) : Ktu.Counts ids k { k with cnt := c } where
  only := Ktu.only_mono (k.withCnt_keeps c).only (by decide)
  cntOf id _ := by simp only [Ktu.cntOf, h]
  controls _ _ _ := rfl

theorem Ktu.raise_counts (k : Ktu) {f : Fld} {i : Nat} (h : offControls (f.key i)) (v : Nat) :
    Ktu.Counts ids k (k.raise f v i) where
  only := Ktu.only_mono (k.raise_only_regs f v i) (by decide)
  cntOf id _ := by simp only [Ktu.cntOf, Ktu.raise_cnt]
  controls g hg j := Ktu.get_raise_ne _ _ _ _ _ _ (h g hg j) (irqPend_off g hg j)

theorem Ktu.Counts.bit (h : Ktu.Counts ids a b) {f : Fld} (hf : f ∈ pmuControls) (i : Nat) : b.bit f i = a.bit f i := by
  rw [Ktu.bit_eq_get, h.controls f hf, Ktu.bit_eq_get]

theorem Ktu.Counts.granted (h : Ktu.Counts ids a b) (o d : Nat) : b.granted o d = a.granted o d := by
  rw [Ktu.granted, h.controls _ (by decide), h.controls _ (by decide), Ktu.granted]

theorem Ktu.Counts.enabledPmus (h : Ktu.Counts ids a b) : b.enabledPmus = a.enabledPmus := by
  rw [Ktu.enabledPmus, Ktu.enabledPmus]
  exact List.filter_congr fun i _ => h.bit (by decide) i

end

/-! ### One addition -/

section
variable (k : Ktu) (id n : Nat)

/-- R161: a counter's overflow bit is a flag outside the registers a PMU counts by. -/
theorem Ktu.overflowed_eq : ∃ f v i, k.overflowed id = k.raise f v i ∧ offControls (f.key i) := by
  unfold Ktu.overflowed
  split
  · next h => exact ⟨_, _, _, rfl, aonOvf_off (by omega)⟩
  · split
    · simp only []
      split
      · exact ⟨_, _, _, rfl, pmuCycOvf_off _⟩
      · exact ⟨_, _, _, rfl, pmuOvf_off _⟩
    · exact ⟨_, _, _, rfl, slotOvf_off _⟩

/-- The counters after an addition, but for the record of wraps. -/
def Ktu.counted (k : Ktu) (id n : Nat) : KCounters :=
  { k.cnt with cnt := Tbl.set 0 id ((k.cntOf id + n) % 2 ^ 48) k.cnt.cnt }

theorem Ktu.cntOf_counted (c : KCounters) (h : c.cnt = (k.counted id n).cnt) (j : Nat) :
    ({ k with cnt := c } : Ktu).cntOf j = if j = id then (k.cntOf id + n) % 2 ^ 48 else k.cntOf j := by
  simp only [Ktu.cntOf, h, Ktu.counted, Tbl.get_set]

/-- An addition counts, and on a wrap it raises the overflow bit and records the counter. -/
theorem Ktu.addCount_cases : k.addCount id n = { k with cnt := k.counted id n } ∨ k.addCount id n =
    { ({ k with cnt := k.counted id n } : Ktu).overflowed id with
      cnt := { k.counted id n with wrapped := id :: k.cnt.wrapped } } := by
  unfold Ktu.addCount
  simp only []
  split
  · exact .inr rfl
  · exact .inl rfl

/-- R137: an addition is modulo 2^48, and moves no other counter. -/
theorem Ktu.cntOf_addCount (j : Nat) : (k.addCount id n).cntOf j = if j = id then (k.cntOf id + n) % 2 ^ 48 else k.cntOf j := by
  rcases k.addCount_cases id n with h | h <;> rw [h]
  · exact k.cntOf_counted id n _ rfl j
  · exact k.cntOf_counted id n { k.counted id n with wrapped := id :: k.cnt.wrapped } rfl j

theorem Ktu.cntOf_addCount_same : (k.addCount id n).cntOf id = (k.cntOf id + n) % 2 ^ 48 := by
  rw [Ktu.cntOf_addCount, if_pos rfl]

theorem Ktu.addCount_counts : Ktu.Counts (· = id) k (k.addCount id n) := by
  have hcounted : Ktu.Counts (· = id) k { k with cnt := k.counted id n } :=
    ⟨Ktu.only_mono (k.withCnt_keeps _).only (by decide), fun j hj => (k.cntOf_counted id n _ rfl j).trans (if_neg hj),
      fun _ _ _ => rfl⟩
  rcases k.addCount_cases id n with h | h <;> rw [h]
  · exact hcounted
  · obtain ⟨f, v, i, hraise, hoff⟩ := ({ k with cnt := k.counted id n } : Ktu).overflowed_eq id
    rw [hraise]
    refine (hcounted.step (Ktu.raise_counts _ hoff v) fun _ h => h).step (Ktu.withCnt_counts _ ?_) fun _ h => h
    rw [Ktu.raise_cnt]

variable {k}

/-- A further addition. -/
theorem Ktu.Counts.add {ids : Nat → Prop} {a : Ktu} (h : Ktu.Counts ids a k) {id : Nat} (hid : ids id) (n : Nat) :
    Ktu.Counts ids a (k.addCount id n) := h.step (k.addCount_counts id n) fun _ hj => hj ▸ hid

/-- A further addition, made or not. -/
theorem Ktu.Counts.add_ite {ids : Nat → Prop} {a : Ktu} (h : Ktu.Counts ids a k) {p : Prop} [Decidable p] {id : Nat} (hid : ids id)
    (n : Nat) : Ktu.Counts ids a (if p then k.addCount id n else k) := by
  split
  · exact h.add hid n
  · exact h

end

end Sys2Proof.Machine
end

section
/-! SUPPORT. The edge of a host domain by its parts (R137, R140, R142 to R148), and the statement on it. -/

namespace Sys2Proof.Machine

-- One theorem at a time: elaborated side by side, those of this text need more stacks than the check has memory for.
set_option Elab.async false

open Sys2Proof

/-! ### The parts of an edge -/

/-- R137, R142: what lines `i` of a domain add. -/
def Ktu.lineEdge (t : TapSample) (d : Nat) (k : Ktu) (i : Nat) : Ktu :=
  let k := if t.util.getLsbD i then k.addCount (cntU (16 * d + i)) 1 else k
  if t.err.getLsbD i then k.addCount (cntE (16 * d + i)) 1 else k

/-- R142: the always-on counters of a domain. -/
def Ktu.alwaysOnEdge (t : TapSample) (d : Nat) (k : Ktu) : Ktu :=
  ((List.range 15).foldl (Ktu.lineEdge t d) k).addCount (cntU (16 * d + 15)) 1

/-- R143: the PMUs of a domain. -/
def Ktu.pmusEdge (t : TapSample) (d : Nat) (k : Ktu) : Ktu := k.enabledPmus.foldl (Ktu.pmuEdge t d) k

/-- R147: the slot groups of a domain. -/
def Ktu.slotsEdge (t : TapSample) (d : Nat) (k : Ktu) : Ktu := (List.range 8).foldl (Ktu.slotEdge t d) k

/-- R145: the occupancies of the edge are the previous ones of the next. -/
def Ktu.keepOcc (t : TapSample) (d : Nat) (k : Ktu) : Ktu :=
  let occ := (List.range 32).foldl (fun o s => Tbl.insert (32 * d + s) (t.occ.getD s 0).toNat o) k.cnt.prevOcc
  { k with cnt := { k.cnt with prevOcc := occ } }

section
variable {k : Ktu} (t : TapSample)

theorem Ktu.tapSample_masked {d : Fin 4} (h : k.masked d = true) : k.tapSample d t = k := if_pos h

theorem Ktu.tapSample_unmasked {d : Fin 4} (h : k.masked d = false) : k.tapSample d t =
    Ktu.keepOcc t d.val (Ktu.slotsEdge t d.val (Ktu.pmusEdge t d.val (k.alwaysOnEdge t d.val))) := by
  rw [Ktu.tapSample, h, if_neg Bool.false_ne_true]
  unfold Ktu.keepOcc Ktu.slotsEdge Ktu.pmusEdge Ktu.alwaysOnEdge
  generalize List.range 15 = lines
  generalize List.range 8 = groups
  generalize List.range 32 = taps
  rfl

/-! ### The lines -/

/-- The counters of lines `i` of a domain. -/
def lineCounters (d i id : Nat) : Prop := id = cntU (16 * d + i) ∨ id = cntE (16 * d + i)

variable (k) (d i : Nat)

/-- An addition made only if a line is high. -/
theorem Ktu.cntOf_ite_addCount (p : Prop) [Decidable p] (id j : Nat) : (if p then k.addCount id 1 else k).cntOf j =
    if p ∧ j = id then (k.cntOf id + 1) % 2 ^ 48 else k.cntOf j := by
  by_cases h : p
  · rw [if_pos h, Ktu.cntOf_addCount]
    simp only [h, true_and]
  · rw [if_neg h, if_neg fun hj => h hj.1]

theorem Ktu.lineEdge_counts : Ktu.Counts (lineCounters d i) k (Ktu.lineEdge t d k i) :=
  ((Ktu.Counts.refl _ k).add_ite (.inl rfl) 1).add_ite (.inr rfl) 1

variable {i}

theorem cntU_ne_cntE {i j : Nat} (h : i < 64) : cntU i ≠ cntE j := by
  simp only [cntU, cntE]; omega

/-- R142: lines `i` add one each where they are high. -/
theorem Ktu.lineEdge_same (hi : 16 * d + i < 64) :
    (Ktu.lineEdge t d k i).cntOf (cntU (16 * d + i)) =
      (if t.util.getLsbD i = true then (k.cntOf (cntU (16 * d + i)) + 1) % 2 ^ 48 else k.cntOf (cntU (16 * d + i))) ∧
    (Ktu.lineEdge t d k i).cntOf (cntE (16 * d + i)) =
      (if t.err.getLsbD i = true then (k.cntOf (cntE (16 * d + i)) + 1) % 2 ^ 48 else k.cntOf (cntE (16 * d + i))) := by
  have hne : cntU (16 * d + i) ≠ cntE (16 * d + i) := cntU_ne_cntE hi
  simp only [Ktu.lineEdge, Ktu.cntOf_ite_addCount, hne, hne.symm, and_false, and_true, if_false, and_self]

variable {d}

/-- The always-on counters of a domain. -/
def domainCounters (d id : Nat) : Prop := ∃ i < 16, lineCounters d i id

theorem Ktu.alwaysOnEdge_counts : Ktu.Counts (domainCounters d) k (k.alwaysOnEdge t d) := by
  refine Ktu.Counts.add (.foldl _ k fun k i hi => ?_) ⟨15, by decide, .inl rfl⟩ 1
  exact (k.lineEdge_counts t d i).mono fun _ h => ⟨i, Nat.lt_succ_of_lt (List.mem_range.1 hi), h⟩

/-- A counter belongs to one line of a domain. -/
theorem lineCounters_other {i j id : Nat} (hi : i < 16) (hj : j < 16) (hne : j ≠ i) (h : lineCounters d i id) :
    ¬ lineCounters d j id := by
  simp only [lineCounters, cntU, cntE] at h ⊢
  omega

/-- R142: the last utilisation counter of a domain counts its edges. -/
theorem Ktu.alwaysOnEdge_edges :
    (k.alwaysOnEdge t d).cntOf (cntU (16 * d + 15)) = (k.cntOf (cntU (16 * d + 15)) + 1) % 2 ^ 48 := by
  have hfold : ((List.range 15).foldl (Ktu.lineEdge t d) k).cntOf (cntU (16 * d + 15)) = k.cntOf (cntU (16 * d + 15)) := by
    refine List.foldlRecOn _ _ (motive := fun b : Ktu => b.cntOf (cntU (16 * d + 15)) = k.cntOf (cntU (16 * d + 15))) rfl
      fun b hb j hj => ((b.lineEdge_counts t d j).cntOf _ ?_).trans hb
    have hlt := List.mem_range.1 hj
    exact lineCounters_other (by decide : 15 < 16) (by omega) (by omega) (.inl rfl)
  rw [Ktu.alwaysOnEdge, Ktu.cntOf_addCount_same, hfold]

variable (hd : d < 4)
include hd

theorem domainCounters_lt {id : Nat} (h : domainCounters d id) : id < 128 := by
  obtain ⟨i, hi, rfl | rfl⟩ := h
  · simp only [cntU]; omega
  · simp only [cntE]; omega

theorem domainCounters_div {i : Nat} (h : domainCounters d (cntU i) ∨ domainCounters d (cntE i)) (hi : i < 64) : i / 16 = d := by
  simp only [domainCounters, lineCounters, cntU, cntE] at h
  obtain ⟨j, hj, h | h⟩ | ⟨j, hj, h | h⟩ := h <;> omega

/-- R142: what an edge adds to a line's counter turns on that counter alone. -/
theorem Ktu.lineEdge_congr {b : Ktu} {i id : Nat} (hi : i < 16) (h : lineCounters d i id) (hb : b.cntOf id = k.cntOf id) :
    (Ktu.lineEdge t d b i).cntOf id = (Ktu.lineEdge t d k i).cntOf id := by
  obtain ⟨hbu, hbe⟩ := b.lineEdge_same t d (i := i) (by omega)
  obtain ⟨hku, hke⟩ := k.lineEdge_same t d (i := i) (by omega)
  rcases h with rfl | rfl
  · rw [hbu, hku, hb]
  · rw [hbe, hke, hb]

/-- The lines of a domain count once each. -/
theorem Ktu.alwaysOnEdge_line {i id : Nat} (hi : i < 15) (h : lineCounters d i id) :
    (k.alwaysOnEdge t d).cntOf id = (Ktu.lineEdge t d k i).cntOf id := by
  have hother (b : Ktu) (j : Nat) (hj : j ∈ List.range 15) (hne : j ≠ i) : (Ktu.lineEdge t d b j).cntOf id = b.cntOf id :=
    (b.lineEdge_counts t d j).cntOf id
      (lineCounters_other (by omega) (Nat.lt_succ_of_lt (List.mem_range.1 hj)) hne h)
  have hlast : id ≠ cntU (16 * d + 15) := fun he => lineCounters_other (by omega) (by decide : 15 < 16) (by omega) h (.inl he)
  rw [Ktu.alwaysOnEdge, Ktu.cntOf_addCount, if_neg hlast]
  refine foldl_once (P := fun b : Ktu => b.cntOf id = k.cntOf id) List.nodup_range (List.mem_range.2 hi)
    (fun b j hj hne hb => (hother b j hj hne).trans hb) (fun b hb => Ktu.lineEdge_congr k t hd (by omega) h hb)
    (fun b j hj hne hb => (hother b j hj hne).trans hb) rfl

end

/-! ### The PMUs -/

/-- The counters of a PMU. -/
def pmuCounters (i id : Nat) : Prop := ∃ c ≤ 8, id = cntPmu i c

/-- R144, R145: the programmable counters of a PMU, given the occupancies of the edge before. -/
def Ktu.selectorsEdge (t : TapSample) (prev : Nat → Option Nat) (i : Nat) (k : Ktu) : Ktu :=
  (List.range 8).foldl (fun k c =>
    if selectorAdds t prev (k.selector i c).1 (k.selector i c).2.1 (k.selector i c).2.2 then k.addCount (cntPmu i c) 1 else k) k

/-- R143, R146: a PMU takes part in the edges of a domain. -/
def Ktu.countsIn (k : Ktu) (i d : Nat) : Prop :=
  k.get KReg.PMUi_CTRL_domain i = d ∧ k.granted (k.get KReg.PMUi_CTRL_owner i) d = true

section
variable (k : Ktu) (t : TapSample) (i d : Nat)

theorem Ktu.selectorsEdge_counts (prev : Nat → Option Nat) :
    Ktu.Counts (fun id => ∃ c < 8, id = cntPmu i c) k (Ktu.selectorsEdge t prev i k) :=
  .foldl _ k fun k c hc => (Ktu.Counts.refl _ k).add_ite ⟨c, List.mem_range.1 hc, rfl⟩ 1

variable {k i d}

theorem Ktu.pmuEdge_out (h : ¬ k.countsIn i d) : Ktu.pmuEdge t d k i = k := if_neg h

theorem Ktu.pmuEdge_in (h : k.countsIn i d) : ∃ prev c, Ktu.pmuEdge t d k i =
      { Ktu.selectorsEdge t prev i (k.addCount (cntPmu i 8) 1) with cnt := c } ∧
    c.cnt = (Ktu.selectorsEdge t prev i (k.addCount (cntPmu i 8) 1)).cnt.cnt := by
  unfold Ktu.countsIn at h
  rw [Ktu.pmuEdge, if_pos h]
  unfold Ktu.selectorsEdge
  generalize List.range 8 = counters
  exact ⟨_, _, rfl, rfl⟩

variable (k i d)

/-- A PMU moves its own counters. -/
theorem Ktu.pmuEdge_counts : Ktu.Counts (pmuCounters i) k (Ktu.pmuEdge t d k i) := by
  by_cases h : k.countsIn i d
  · obtain ⟨prev, c, he, hc⟩ := Ktu.pmuEdge_in t h
    rw [he]
    have hcycle : Ktu.Counts (pmuCounters i) k (k.addCount (cntPmu i 8) 1) := (Ktu.Counts.refl _ k).add ⟨8, le_refl 8, rfl⟩ 1
    exact (hcycle.step (Ktu.selectorsEdge_counts _ t i prev) fun _ ⟨c, hc, he⟩ => ⟨c, hc.le, he⟩).step (Ktu.withCnt_counts _ hc)
      fun _ h => h
  · rw [Ktu.pmuEdge_out t h]
    exact .refl _ _

variable {k i d}

/-- R143: the cycle counter of a PMU that takes part counts the edge. -/
theorem Ktu.pmuEdge_cycles (h : k.countsIn i d) :
    (Ktu.pmuEdge t d k i).cntOf (cntPmu i 8) = (k.cntOf (cntPmu i 8) + 1) % 2 ^ 48 := by
  obtain ⟨prev, c, he, hc⟩ := Ktu.pmuEdge_in t h
  rw [he, (Ktu.withCnt_counts (ids := fun _ => False) _ hc).cntOf _ not_false, (Ktu.selectorsEdge_counts _ t i prev).cntOf,
    Ktu.cntOf_addCount_same]
  rintro ⟨c, hc, h⟩
  simp only [cntPmu] at h
  omega

theorem Ktu.Counts.countsIn {ids : Nat → Prop} {a b : Ktu} (h : Ktu.Counts ids a b) : b.countsIn i d ↔ a.countsIn i d := by
  rw [Ktu.countsIn, h.controls _ (by decide), h.controls _ (by decide), h.granted, Ktu.countsIn]

theorem Ktu.mem_enabledPmus : i ∈ k.enabledPmus ↔ i < 256 ∧ k.bit KReg.PMUi_CTRL_enable i = true := by
  rw [Ktu.enabledPmus, List.mem_filter, List.mem_range]

theorem pmuCounters_ne {j c : Nat} (hj : j ≠ i) (hc : c ≤ 8) : ¬ pmuCounters j (cntPmu i c) := by
  rintro ⟨e, he, h⟩
  simp only [cntPmu] at h
  omega

variable (k d)

/-- The edge moves counters of enabled PMUs alone. -/
theorem Ktu.pmusEdge_counts : Ktu.Counts (fun id => ∃ i ∈ k.enabledPmus, pmuCounters i id) k (k.pmusEdge t d) :=
  .foldl _ k fun k i hi => (k.pmuEdge_counts t i d).mono fun _ h => ⟨i, hi, h⟩

variable {k d}

/-- R143, R146: each enabled PMU that takes part counts the edge once. -/
theorem Ktu.pmusEdge_cycles (hi : i ∈ k.enabledPmus) (h : k.countsIn i d) :
    (k.pmusEdge t d).cntOf (cntPmu i 8) = (k.cntOf (cntPmu i 8) + 1) % 2 ^ 48 := by
  have hother (b : Ktu) (j : Nat) (hj : j ≠ i) : (Ktu.pmuEdge t d b j).cntOf (cntPmu i 8) = b.cntOf (cntPmu i 8) :=
    (b.pmuEdge_counts t j d).cntOf _ (pmuCounters_ne hj (le_refl 8))
  unfold Ktu.pmusEdge
  refine foldl_once (P := fun b : Ktu => b.cntOf (cntPmu i 8) = k.cntOf (cntPmu i 8) ∧ b.countsIn i d)
    (Q := fun b : Ktu => b.cntOf (cntPmu i 8) = (k.cntOf (cntPmu i 8) + 1) % 2 ^ 48)
    (List.nodup_range.filter _) hi ?_ ?_ ?_ ⟨rfl, h⟩
  · rintro b j - hj ⟨hb, hin⟩
    exact ⟨(hother b j hj).trans hb, (b.pmuEdge_counts t j d).countsIn.2 hin⟩
  · rintro b ⟨hb, hin⟩
    rw [Ktu.pmuEdge_cycles t hin, hb]
  · intro b j _ hj hb
    exact (hother b j hj).trans hb

end

/-! ### The slot groups -/

section
variable (k : Ktu) (t : TapSample) (d : Nat)

theorem Ktu.slotEdge_counts (j : Nat) : Ktu.Counts (fun id => 0x8000 ≤ id) k (Ktu.slotEdge t d k j) := by
  have hslot (g c : Nat) : 0x8000 ≤ cntSlot g c := by simp only [cntSlot]; omega
  unfold Ktu.slotEdge
  simp only []
  split
  · exact .refl _ _
  · refine Ktu.Counts.step (b := Ktu.addCount _ _ _) ?_ (Ktu.Counts.ite (Ktu.raise_counts _ (slotExcess_off _) 1)) fun _ h => h
    exact (((((((Ktu.Counts.refl _ k).add (hslot _ _) _).add (hslot _ _) _).add (hslot _ _) _).add (hslot _ _) _).add
      (hslot _ _) _).add (hslot _ _) _).add (hslot _ _) _

theorem Ktu.slotsEdge_counts : Ktu.Counts (fun id => 0x8000 ≤ id) k (k.slotsEdge t d) :=
  .foldl _ k fun k j _ => k.slotEdge_counts t d j

theorem Ktu.keepOcc_counts : Ktu.Counts (fun _ => False) k (k.keepOcc t d) := k.withCnt_counts rfl

end

/-! ### The whole edge -/

section
variable {k : Ktu} (t : TapSample) {d : Fin 4} (hm : k.masked d = false)
include hm

/-- After the always-on counters an edge moves counters of enabled PMUs and of slot groups alone. -/
theorem Ktu.tapSample_counts_later : Ktu.Counts (fun id => (∃ i ∈ k.enabledPmus, pmuCounters i id) ∨ 0x8000 ≤ id)
    (k.alwaysOnEdge t d.val) (k.tapSample d t) := by
  have hpmus := (k.alwaysOnEdge t d.val).pmusEdge_counts t d.val
  rw [(k.alwaysOnEdge_counts t).enabledPmus] at hpmus
  rw [Ktu.tapSample_unmasked t hm]
  exact ((hpmus.mono fun _ h => .inl h).step (Ktu.slotsEdge_counts _ t _) fun _ h => .inr h).step (Ktu.keepOcc_counts _ t _)
    fun _ h => h.elim

theorem Ktu.tapSample_only : Ktu.only [.regs, .counters] k (k.tapSample d t) :=
  Ktu.only_trans (k.alwaysOnEdge_counts t).only (Ktu.tapSample_counts_later t hm).only

/-- R142: what an edge leaves in an always-on counter is what its lines leave. -/
theorem Ktu.tapSample_alwaysOn {id : Nat} (h : id < 128) : (k.tapSample d t).cntOf id = (k.alwaysOnEdge t d.val).cntOf id := by
  refine (Ktu.tapSample_counts_later t hm).cntOf id ?_
  rintro (⟨i, -, c, -, rfl⟩ | hle)
  · simp only [cntPmu] at h; omega
  · omega

variable (k)

theorem Ktu.tapSample_util {i : Nat} (hi : i < 15) : (k.tapSample d t).cntOf (cntU (16 * d.val + i)) =
    if t.util.getLsbD i = true then (k.cntOf (cntU (16 * d.val + i)) + 1) % 2 ^ 48 else k.cntOf (cntU (16 * d.val + i)) := by
  obtain ⟨hutil, -⟩ := k.lineEdge_same t d.val (i := i) (by omega)
  rw [Ktu.tapSample_alwaysOn t hm (by simp only [cntU]; omega), Ktu.alwaysOnEdge_line k t d.isLt hi (.inl rfl), hutil]

theorem Ktu.tapSample_err {i : Nat} (hi : i < 15) : (k.tapSample d t).cntOf (cntE (16 * d.val + i)) =
    if t.err.getLsbD i = true then (k.cntOf (cntE (16 * d.val + i)) + 1) % 2 ^ 48 else k.cntOf (cntE (16 * d.val + i)) := by
  obtain ⟨-, herr⟩ := k.lineEdge_same t d.val (i := i) (by omega)
  rw [Ktu.tapSample_alwaysOn t hm (by simp only [cntE]; omega), Ktu.alwaysOnEdge_line k t d.isLt hi (.inr rfl), herr]

theorem Ktu.tapSample_edges :
    (k.tapSample d t).cntOf (cntU (16 * d.val + 15)) = (k.cntOf (cntU (16 * d.val + 15)) + 1) % 2 ^ 48 := by
  rw [Ktu.tapSample_alwaysOn t hm (by simp only [cntU]; omega), Ktu.alwaysOnEdge_edges]

/-- R142: the always-on counters of the other domains hold. -/
theorem Ktu.tapSample_elsewhere {i : Nat} (hi : i < 64) (hne : i / 16 ≠ d.val) :
    (k.tapSample d t).cntOf (cntU i) = k.cntOf (cntU i) ∧ (k.tapSample d t).cntOf (cntE i) = k.cntOf (cntE i) := by
  have hon := k.alwaysOnEdge_counts t (d := d.val)
  rw [Ktu.tapSample_alwaysOn t hm (by simp only [cntU]; omega), Ktu.tapSample_alwaysOn t hm (by simp only [cntE]; omega)]
  exact ⟨hon.cntOf _ fun h => hne (domainCounters_div d.isLt (.inl h) hi),
    hon.cntOf _ fun h => hne (domainCounters_div d.isLt (.inr h) hi)⟩

omit hm in
theorem Ktu.alwaysOnEdge_pmu (i c : Nat) : (k.alwaysOnEdge t d.val).cntOf (cntPmu i c) = k.cntOf (cntPmu i c) := by
  refine (k.alwaysOnEdge_counts t).cntOf _ fun h => ?_
  have hlt := domainCounters_lt d.isLt h
  simp only [cntPmu] at hlt
  omega

/-- R143, R146: an enabled PMU of the domain whose owner is granted it counts the edge. -/
theorem Ktu.tapSample_cycles {i : Fin 256} (he : k.bit KReg.PMUi_CTRL_enable i.val = true) (hin : k.countsIn i.val d.val) :
    (k.tapSample d t).cntOf (cntPmu i.val 8) = (k.cntOf (cntPmu i.val 8) + 1) % 2 ^ 48 := by
  have hon := k.alwaysOnEdge_counts t (d := d.val)
  have hmem : i.val ∈ (k.alwaysOnEdge t d.val).enabledPmus := by
    rw [hon.enabledPmus]
    exact Ktu.mem_enabledPmus.2 ⟨i.isLt, he⟩
  have hslots : ¬ 0x8000 ≤ cntPmu i.val 8 := by simp only [cntPmu]; omega
  rw [Ktu.tapSample_unmasked t hm, (Ktu.keepOcc_counts _ t _).cntOf _ not_false, (Ktu.slotsEdge_counts _ t _).cntOf _ hslots,
    Ktu.pmusEdge_cycles t hmem (hon.countsIn.2 hin), Ktu.alwaysOnEdge_pmu]

/-- R143: the counters of a disabled PMU hold. -/
theorem Ktu.tapSample_disabled {i : Fin 256} (he : k.bit KReg.PMUi_CTRL_enable i.val = false) {c : Nat} (hc : c ≤ 8) :
    (k.tapSample d t).cntOf (cntPmu i.val c) = k.cntOf (cntPmu i.val c) := by
  rw [(Ktu.tapSample_counts_later t hm).cntOf, Ktu.alwaysOnEdge_pmu]
  rintro (⟨j, hj, h⟩ | hle)
  · obtain ⟨-, hen⟩ := Ktu.mem_enabledPmus.1 hj
    refine pmuCounters_ne (fun hji => ?_) hc h
    rw [hji, he] at hen
    exact Bool.false_ne_true hen
  · simp only [cntPmu] at hle
    omega

end

/-! ### The commands -/

section
variable {s : State} (h : s.ktu.runs) (d : Fin 4) (t : TapSample)
include h

/-- R140: a masked domain's counters hold. -/
theorem tapSample_masked_does (hm : s.ktu.masked d = true) : KtuDoes (.tapSample d t) s fun k => Ktu.only [] s.ktu k := by
  refine .of_onKtu (fun k => k.tapSample d t) rfl h ?_
  rw [Ktu.tapSample_masked t hm, Ktu.only_wakeCheck]
  exact s.ktu.only_refl []

end

/-- Settles O14: a masked domain's edge changes nothing, and an edge of another domain counts in its always-on counters and in its
PMUs. -/
theorem countersCount : Obligations.CountersCount := by
  unfold Obligations.CountersCount
  refine ⟨fun s d t h hm => tapSample_masked_does h d t hm,
    fun s d t h hm => .of_onKtu (fun k => k.tapSample d t) rfl h ?_⟩
  simp only [Ktu.wakeCheck_cntOf, Ktu.only_wakeCheck]
  generalize s.ktu = k at hm
  exact ⟨fun i hi => k.tapSample_util t hm hi, fun i hi => k.tapSample_err t hm hi, k.tapSample_edges t hm,
    fun i hi hne => k.tapSample_elsewhere t hm hi hne, fun i he hd hg => k.tapSample_cycles t hm he ⟨hd, hg⟩,
    fun i he c hc => k.tapSample_disabled t hm he hc, Ktu.tapSample_only t hm⟩

end Sys2Proof.Machine
end

section
/-! SUPPORT. A clear of a PMU is staged (R160, R166, R672). -/

namespace Sys2Proof.Machine

-- One theorem at a time: elaborated side by side, those of this text need more stacks than the check has memory for.
set_option Elab.async false

open Sys2Proof

/-- KTU_PMUi_CMD. -/
def pmuCmdAddr (i : Nat) : Nat := 0x403C + 64 * i

/-- The fields at an address are among those that a filter does not rule out. -/
theorem Fld.at_filter {a : Nat} {p : Fld → Bool} (t : List Fld) (h : ∀ f, p f = false → f.indexAt a = none) :
    Fld.at a t = Fld.at a (t.filter p) := by
  induction t with
  | nil => rfl
  | cons f t ih =>
    by_cases hp : p f
    · rw [List.filter_cons_of_pos hp, Fld.at, Fld.at, ih]
    · rw [List.filter_cons_of_neg hp, Fld.at, h f (by simpa using hp), ih]

/-- A copy of a field is found at its address. -/
theorem Fld.indexAt_addr {f : Fld} {i : Nat} (hs : f.stride ≠ 0) (hi : i < f.count) : f.indexAt (f.addr i) = some i := by
  simp [Fld.indexAt, Fld.addr, hs, hi, Nat.mul_div_cancel_left _ (Nat.pos_of_ne_zero hs)]

/-- A field with copies in the PMUs' part of the map, at a stride other than theirs or at the offset of KTU_PMUi_CMD. -/
def Fld.nearPmuCmd (f : Fld) : Bool :=
  f.base < 0x8000 && 0x4000 < f.base + f.stride * f.count && (f.stride != 0x40 || f.base % 64 == 0x3C)

theorem nearPmuCmd_unique : KReg.table.filter Fld.nearPmuCmd = [KReg.PMUi_CMD_clear] := by decide +kernel

theorem Fld.nearPmuCmd_of_indexAt {f : Fld} {i j : Nat} (hi : i < 256) (h : f.indexAt (pmuCmdAddr i) = some j) :
    f.nearPmuCmd = true := by
  have haddr : f.base + f.stride * j = 0x403C + 64 * i := Fld.addr_of_indexAt h
  have hend : f.stride * j ≤ f.stride * f.count := by
    by_cases hs : f.stride = 0
    · simp [hs]
    · exact Nat.mul_le_mul_left _ (Fld.lt_count_of_indexAt hs h).le
  have hoffset (he : f.stride = 0x40) : f.base % 64 = 0x3C := by rw [he] at haddr; omega
  simp only [Fld.nearPmuCmd, Bool.and_eq_true, decide_eq_true_eq, Bool.or_eq_true, bne_iff_ne, beq_iff_eq]
  exact ⟨⟨by omega, by omega⟩, not_or_of_imp hoffset⟩

theorem wordFields_pmuCmd {i : Nat} (hi : i < 256) : wordFields (pmuCmdAddr i) = [(KReg.PMUi_CMD_clear, i)] := by
  have hindex : KReg.PMUi_CMD_clear.indexAt (pmuCmdAddr i) = some i :=
    Fld.indexAt_addr (f := KReg.PMUi_CMD_clear) (by decide) hi
  have hfilter := Fld.at_filter (a := pmuCmdAddr i) (p := Fld.nearPmuCmd) KReg.table fun f hf =>
    Option.eq_none_iff_forall_ne_some.2 fun j hj => Bool.false_ne_true (hf.symm.trans (Fld.nearPmuCmd_of_indexAt hi hj))
  rw [wordFields, hfilter, nearPmuCmd_unique, Fld.at, hindex]
  rfl

section
variable {k : Ktu} {w : Writer} {i : Fin 256}

/-- R672: a PMU is cleared by its owner and by *fleet*. -/
theorem Ktu.mayWrite_pmuCmd {o i : Nat} (ho : o = fleet ∨ k.get KReg.PMUi_CTRL_owner i = o) :
    k.mayWrite o KReg.PMUi_CMD_clear i = true := by
  rcases ho with rfl | ho
  · rfl
  · have hscratch : KReg.PMUi_CMD_clear ≠ KReg.SCRATCH_data := by decide
    have hmode : KReg.PMUi_CMD_clear ≠ KReg.IRQ_CFG_mode := by decide
    have howner : KReg.PMUi_CMD_clear ≠ KReg.PMUi_CTRL_owner := by decide
    have hbase : KReg.PMUi_CMD_clear.base = 0x403C := rfl
    simp [Ktu.mayWrite, hscratch, hmode, howner, hbase, ho]

theorem Ktu.writeCmd_pmuClear {o i : Nat} (hi : i < 256) (hm : k.mayWrite o KReg.PMUi_CMD_clear i = true) :
    k.writeCmd o (pmuCmdAddr i) 1 = k.stageClear i := by
  have hix : (pmuCmdAddr i - 0x4000) / 64 = i := by simp only [pmuCmdAddr]; omega
  unfold Ktu.writeCmd
  simp only []
  rw [if_neg (by simp only [pmuCmdAddr]; omega), if_neg (by simp only [pmuCmdAddr]; omega),
    if_neg (by simp only [pmuCmdAddr]; omega), if_pos (by simp only [pmuCmdAddr]; omega), hix, if_pos ⟨hm, rfl⟩]

/-- R160: the write stages the clear, and nothing but the latch of the first error follows. -/
theorem Ktu.writeBy_pmuClear (hr : k.pins.ready = true)
    (ho : ownerOf w = fleet ∨ k.get KReg.PMUi_CTRL_owner i.val = ownerOf w) :
    ∃ e, k.writeBy w (pmuCmdAddr i.val) 1 = { k.stageClear i.val with errHeld := e } := by
  have hmay := Ktu.mayWrite_pmuCmd ho
  have hfield (p : Path) (v : Nat) : k.writeField p KReg.PMUi_CMD_clear v i.val = k := rfl
  obtain ⟨e, he⟩ := (k.stageClear i.val).errRearm_eq
  refine ⟨e, ?_⟩
  have hword : k.writeWord (pathOf w) (ownerOf w) (pmuCmdAddr i.val) 1 = ({ k.stageClear i.val with errHeld := e }, false) := by
    rw [Ktu.writeWord_allowed 1 (wordFields_pmuCmd i.isLt) hmay, hfield, Ktu.writeCmd_pmuClear i.isLt hmay, he]
  unfold Ktu.writeBy
  rw [if_neg (not_not.2 hr), hword]

/-- What a staged clear adds to the staged clears, and that it moves nothing else. -/
theorem Ktu.stageClear_cnt (k : Ktu) (i : Nat) : ∃ l, k.stageClear i = { k with cnt := { k.cnt with clears := l } } ∧ i ∈ l ∧
    ∀ j, j ≠ i → (j ∈ l ↔ j ∈ k.cnt.clears) := by
  unfold Ktu.stageClear
  split
  · next h => exact ⟨k.cnt.clears, rfl, List.contains_iff_mem.1 h, fun _ _ => Iff.rfl⟩
  · exact ⟨k.cnt.clears ++ [i], rfl, by simp, fun j hj => by simp [hj]⟩

end

theorem pmuClear_does {s : State} {w : Writer} {i : Fin 256} (h : s.ktu.runs) (hr : s.ktu.pins.ready = true)
    (ho : ownerOf w = fleet ∨ s.ktu.get KReg.PMUi_CTRL_owner i.val = ownerOf w) : KtuDoes (.pmuClear w i) s fun k =>
      i.val ∈ k.cnt.clears ∧ (∀ j, j ≠ i.val → (j ∈ k.cnt.clears ↔ j ∈ s.ktu.cnt.clears)) ∧ k.cnt.cnt = s.ktu.cnt.cnt ∧
      k.cnt.base = s.ktu.cnt.base ∧ k.cnt.staged = s.ktu.cnt.staged ∧ Ktu.only [.counters, .rest] s.ktu k := by
  obtain ⟨e, he⟩ := Ktu.writeBy_pmuClear hr ho
  obtain ⟨l, hl, hmem, hother⟩ := s.ktu.stageClear_cnt i.val
  refine .of_onKtu (Ktu.writeBy w (pmuCmdAddr i.val) 1) rfl h ?_
  rw [he, hl, Ktu.wakeCheck_cnt]
  refine ⟨hmem, hother, rfl, rfl, rfl, ?_⟩
  exact (Ktu.EndsAs.of_errHeld s.ktu _ e).only (by decide) (Ktu.only_mono (s.ktu.withCnt_keeps _).only (by decide))

end Sys2Proof.Machine
end

section
/-! SUPPORT. The staged clears of a boundary with nothing else staged (R24, R150, R155, R158 to R160). -/

namespace Sys2Proof.Machine

-- One theorem at a time: elaborated side by side, those of this text need more stacks than the check has memory for.
set_option Elab.async false

open Sys2Proof

/-! ### One clear -/

theorem Tbl.get_filter_key {β : Type} (d : β) (j : Nat) (p : Nat → Bool) (t : Tbl β) :
    Tbl.get d j (t.filter fun e => p e.1) = if p j then Tbl.get d j t else d := by
  induction t with
  | nil => simp
  | cons e t ih =>
    obtain ⟨i, v⟩ := e
    by_cases hj : j = i
    · subst hj
      cases hp : p j <;> simp [hp, ih, Tbl.get_cons]
    · cases hp : p i <;> simp [hp, ih, hj, Tbl.get_cons]

/-- R150: a PMU cleared. -/
def Ktu.clearPmu (k : Ktu) (i : Nat) : Ktu :=
  let k := (k.clearSet (inPmu i)).1
  { k with cnt := { k.cnt with clears := k.cnt.clears.filter (· ≠ i), fresh := i :: k.cnt.fresh.filter (· ≠ i) } }.raise
    KReg.PMUi_STATUS_cfg_applied 1 i

section
variable (k : Ktu) (i : Nat)

/-- R150: the counters of the PMU are empty, and all others as they were. -/
theorem Ktu.cntOf_clearPmu (id : Nat) : (k.clearPmu i).cntOf id = if inPmu i id then 0 else k.cntOf id := by
  rw [Ktu.clearPmu, Ktu.cntOf, Ktu.raise_cnt]
  refine (Tbl.get_filter_key 0 id (fun j => !inPmu i j) k.cnt.cnt).trans ?_
  cases inPmu i id <;> rfl

theorem Ktu.clearPmu_clears : (k.clearPmu i).cnt.clears = k.cnt.clears.filter (· ≠ i) := by
  rw [Ktu.clearPmu, Ktu.raise_cnt]
  rfl

theorem Ktu.clearPmu_fresh : (k.clearPmu i).cnt.fresh = i :: k.cnt.fresh.filter (· ≠ i) := by
  rw [Ktu.clearPmu, Ktu.raise_cnt]
  rfl

theorem pmuApplied_key_ne {i j : Nat} (h : j ≠ i) : KReg.PMUi_STATUS_cfg_applied.key j ≠ KReg.PMUi_STATUS_cfg_applied.key i := by
  simp only [Fld.key, Fld.addr, KReg.PMUi_STATUS_cfg_applied]
  omega

theorem pmuApplied_key_pend (i : Nat) : KReg.PMUi_STATUS_cfg_applied.key i ≠ KReg.IRQ_PEND_pend.key 0 := by
  simp only [Fld.key, Fld.addr, KReg.PMUi_STATUS_cfg_applied, KReg.IRQ_PEND_pend]
  omega

theorem Ktu.bit_of_get_odd {k : Ktu} {f : Fld} {i : Nat} (h : k.get f i % 2 = 1) : k.bit f i = true := by
  rw [Ktu.bit_eq_get, bne_iff_ne]
  omega

/-- R158: the clear is reported. -/
theorem Ktu.clearPmu_applied : (k.clearPmu i).bit KReg.PMUi_STATUS_cfg_applied i = true :=
  Ktu.bit_of_get_odd (Ktu.get_raise_odd _ (pmuApplied_key_pend i))

theorem Ktu.clearPmu_applied_other {j : Nat} (h : j ≠ i) :
    (k.clearPmu i).bit KReg.PMUi_STATUS_cfg_applied j = k.bit KReg.PMUi_STATUS_cfg_applied j := by
  rw [Ktu.bit_eq_get, Ktu.clearPmu, Ktu.get_raise_ne _ _ _ _ _ _ (pmuApplied_key_ne h) (pmuApplied_key_pend j), Ktu.bit_eq_get]
  rfl

end

/-! ### Nothing staged but clears -/

/-- Nothing but clears of PMUs waits for the boundary, and no series holds a remainder. -/
structure KCounters.OnlyClears (c : KCounters) : Prop where
  staged : c.staged = []
  smapStaged : c.smapStaged = []
  slotClears : c.slotClears = []
  rem : c.rem = []

section
variable {k : Ktu} (h : k.cnt.OnlyClears)
include h

theorem Ktu.clearPmu_onlyClears (i : Nat) : (k.clearPmu i).cnt.OnlyClears := by
  rw [Ktu.clearPmu, Ktu.raise_cnt]
  exact ⟨h.staged, h.smapStaged, h.slotClears, by simp [Ktu.clearSet, h.rem]⟩

theorem Ktu.stagedIn_none (lo hi : Nat) : k.stagedIn lo hi = [] := by rw [Ktu.stagedIn, h.staged]; rfl

theorem Ktu.staged?_none (f : Fld) (i : Nat) : k.staged? f i = none := by rw [Ktu.staged?, h.staged]; rfl

theorem Ktu.unstage_none (lo hi : Nat) : k.unstage lo hi = k := by
  have hs : k.cnt.staged.filter (fun e => !(decide (lo ≤ e.1 / 32) && decide (e.1 / 32 < hi))) = k.cnt.staged := by
    rw [h.staged, List.filter_nil]
  simp only [Ktu.unstage, hs]

theorem Ktu.holdsRemainder_none (inSet : Nat → Bool) : k.holdsRemainder inSet = false := by rw [Ktu.holdsRemainder, h.rem]; rfl

/-- R159: a PMU changes at a boundary only if a change of it is staged. -/
theorem Ktu.applyPmu_unstaged (a : Applied) {i : Nat} (hi : i ∉ k.cnt.clears) : Ktu.applyPmu (k, a) i = (k, a) := by
  simp [Ktu.applyPmu, Ktu.stagedIn_none h, hi]

/-- R150, R160: a staged clear is done. -/
theorem Ktu.applyPmu_cleared (a : Applied) {i : Nat} (hi : i ∈ k.cnt.clears) : (Ktu.applyPmu (k, a) i).1 = k.clearPmu i := by
  have hnot : ¬ ((([] : List (Nat × Nat)).isEmpty = true ∧ ¬ k.cnt.clears.contains i = true) ∨
      k.holdsRemainder (inPmu i) = true) := by
    simp [Ktu.holdsRemainder_none h, hi]
  simp only [Ktu.applyPmu, Ktu.stagedIn_none h, Ktu.staged?_none h]
  rw [if_neg hnot]
  simp only [Ktu.putStaged, List.foldl_nil, Ktu.unstage_none h, Option.isSome_none, Bool.false_eq_true, if_false]
  rfl

theorem Ktu.applySlot_unstaged (a : Applied) (g : Nat) : Ktu.applySlot (k, a) g = (k, a) := by
  simp [Ktu.applySlot, Ktu.stagedIn_none h, h.slotClears]

theorem Ktu.applySchema_unstaged (a : Applied) : Ktu.applySchema (k, a) = (k, a) := by
  simp [Ktu.applySchema, Ktu.stagedIn_none h]

theorem Ktu.applyCodec_unstaged : k.applyCodec = k.applyTables := by
  have ht : k.applyTables.cnt.OnlyClears := h
  have hid : k.applyTables.applyTableId = k.applyTables := by rw [Ktu.applyTableId, Ktu.staged?_none ht]
  have hratio : k.applyTables.applyRatio = k.applyTables := by rw [Ktu.applyRatio, Ktu.staged?_none ht]
  rw [Ktu.applyCodec_eq, hid, hratio, Ktu.unstage_none ht]

theorem Ktu.applyOthers_unstaged : k.applyOthers = k := by
  rw [Ktu.applyOthers, h.staged]
  exact Ktu.unstage_none h _ _

end

/-! ### The clears of a boundary -/

/-- R150, R158, R160: what a clear that is done leaves of its PMU. -/
structure Ktu.PmuCleared (k : Ktu) (i : Nat) : Prop where
  counters : ∀ c ≤ 8, k.cntOf (cntPmu i c) = 0
  applied : k.bit KReg.PMUi_STATUS_cfg_applied i = true
  done : i ∉ k.cnt.clears
  fresh : i ∈ k.cnt.fresh

/-- Between two KTUs the staged clears are done, and no other counter has moved. -/
structure Ktu.ClearsDone (a b : Ktu) : Prop where
  cleared : ∀ i < 256, i ∈ a.cnt.clears → b.PmuCleared i
  held : ∀ id, (∀ j ∈ a.cnt.clears, inPmu j id = false) → b.cntOf id = a.cntOf id

theorem inPmu_iff {i id : Nat} : inPmu i id = true ↔ 0x1000 + 16 * i ≤ id ∧ id ≤ 0x1000 + 16 * i + 8 := by
  simp only [inPmu, Bool.and_eq_true, decide_eq_true_eq]
  rfl

theorem inPmu_cntPmu {i c : Nat} (h : c ≤ 8) : inPmu i (cntPmu i c) = true := by
  rw [inPmu_iff, cntPmu]
  omega

theorem inPmu_other {i j c : Nat} (hc : c ≤ 8) (h : j ≠ i) : inPmu j (cntPmu i c) = false := by
  rw [Bool.eq_false_iff, ne_eq, inPmu_iff, cntPmu]
  omega

theorem inPmu_alwaysOn {j id : Nat} (h : id < 128) : inPmu j id = false := by
  rw [Bool.eq_false_iff, ne_eq, inPmu_iff]
  omega

section
variable (k : Ktu) {i j : Nat}

theorem Ktu.clearPmu_cleared : (k.clearPmu i).PmuCleared i where
  counters c hc := by rw [Ktu.cntOf_clearPmu, if_pos (inPmu_cntPmu hc)]
  applied := k.clearPmu_applied i
  done := by simp [Ktu.clearPmu_clears]
  fresh := by simp [Ktu.clearPmu_fresh]

variable {k}

/-- What is cleared stays so when another PMU is cleared. -/
theorem Ktu.PmuCleared.clearPmu (h : k.PmuCleared i) (hj : j ≠ i) : (k.clearPmu j).PmuCleared i where
  counters c hc := by rw [Ktu.cntOf_clearPmu, h.counters c hc, ite_self]
  applied := (k.clearPmu_applied_other j hj.symm).trans h.applied
  done := by simp [Ktu.clearPmu_clears, h.done]
  fresh := by simp [Ktu.clearPmu_fresh, h.fresh, hj.symm]

/-- What clears are done turns on the counters and on the reports of the clears. -/
theorem Ktu.ClearsDone.congr {a a' b b' : Ktu} (h : Ktu.ClearsDone a b) (hc : a'.cnt.clears = a.cnt.clears)
    (ha : a'.cnt.cnt = a.cnt.cnt) (hcnt : b'.cnt.cnt = b.cnt.cnt) (hclears : b'.cnt.clears = b.cnt.clears)
    (hfresh : b'.cnt.fresh = b.cnt.fresh)
    (hbit : ∀ i < 256, b'.bit KReg.PMUi_STATUS_cfg_applied i = b.bit KReg.PMUi_STATUS_cfg_applied i) : Ktu.ClearsDone a' b' where
  cleared i hi hm := by
    obtain ⟨hzero, happlied, hdone, hnew⟩ := h.cleared i hi (hc ▸ hm)
    exact ⟨fun c hle => by rw [Ktu.cntOf, hcnt]; exact hzero c hle, (hbit i hi).trans happlied, hclears ▸ hdone, hfresh ▸ hnew⟩
  held id hid := by rw [Ktu.cntOf, hcnt, Ktu.cntOf, ha]; exact h.held id (hc ▸ hid)

end

section
variable {x : Ktu × Applied} (h : x.1.cnt.OnlyClears)
include h

/-- With nothing but clears staged, a PMU is cleared or left alone. -/
theorem Ktu.applyPmu_onlyClears (j : Nat) : (j ∉ x.1.cnt.clears ∧ Ktu.applyPmu x j = x) ∨
    (j ∈ x.1.cnt.clears ∧ (Ktu.applyPmu x j).1 = x.1.clearPmu j) := by
  by_cases hj : j ∈ x.1.cnt.clears
  · exact .inr ⟨hj, Ktu.applyPmu_cleared h x.2 hj⟩
  · exact .inl ⟨hj, Ktu.applyPmu_unstaged h x.2 hj⟩

theorem Ktu.applyPmu_keeps_onlyClears (j : Nat) : (Ktu.applyPmu x j).1.cnt.OnlyClears := by
  rcases Ktu.applyPmu_onlyClears h j with ⟨-, he⟩ | ⟨-, he⟩
  · rwa [he]
  · rw [he]
    exact Ktu.clearPmu_onlyClears h j

/-- R150, R160: the PMUs' changes are their clears. -/
theorem Ktu.applyPmus_cleared {i : Nat} (hi : i < 256) (hm : i ∈ x.1.cnt.clears) :
    ((List.range 256).foldl Ktu.applyPmu x).1.PmuCleared i := by
  refine (foldl_reaches (P := fun y : Ktu × Applied => y.1.cnt.OnlyClears ∧ i ∈ y.1.cnt.clears)
    (Q := fun y : Ktu × Applied => y.1.cnt.OnlyClears ∧ y.1.PmuCleared i) ?_ ?_ ?_ (List.mem_range.2 hi) ⟨h, hm⟩).2
  · rintro y j hj ⟨hy, hin⟩
    refine ⟨Ktu.applyPmu_keeps_onlyClears hy j, ?_⟩
    rcases Ktu.applyPmu_onlyClears hy j with ⟨-, he⟩ | ⟨-, he⟩
    · rwa [he]
    · rw [he, Ktu.clearPmu_clears]
      simpa [hin] using hj.symm
  · rintro y ⟨hy, hin⟩
    refine ⟨Ktu.applyPmu_keeps_onlyClears hy i, ?_⟩
    rw [Ktu.applyPmu_cleared hy y.2 hin]
    exact y.1.clearPmu_cleared
  · rintro y j ⟨hy, hc⟩
    refine ⟨Ktu.applyPmu_keeps_onlyClears hy j, ?_⟩
    rcases Ktu.applyPmu_onlyClears hy j with ⟨-, he⟩ | ⟨hin, he⟩
    · rwa [he]
    · rw [he]
      exact hc.clearPmu fun hji => hc.done (hji ▸ hin)

theorem Ktu.applyPmus_onlyClears (l : List Nat) : (l.foldl Ktu.applyPmu x).1.cnt.OnlyClears :=
  List.foldlRecOn l Ktu.applyPmu (motive := fun y => y.1.cnt.OnlyClears) h fun _ hy j _ => Ktu.applyPmu_keeps_onlyClears hy j

/-- R160: a counter of no PMU with a clear staged holds. -/
theorem Ktu.applyPmus_held {id : Nat} (hid : ∀ j ∈ x.1.cnt.clears, inPmu j id = false) (l : List Nat) :
    (l.foldl Ktu.applyPmu x).1.cntOf id = x.1.cntOf id := by
  refine (List.foldlRecOn l Ktu.applyPmu (motive := fun y => y.1.cnt.OnlyClears ∧ (∀ j ∈ y.1.cnt.clears, inPmu j id = false) ∧
    y.1.cntOf id = x.1.cntOf id) ⟨h, hid, rfl⟩ ?_).2.2
  rintro y ⟨hy, hout, hcnt⟩ j -
  refine ⟨Ktu.applyPmu_keeps_onlyClears hy j, ?_⟩
  rcases Ktu.applyPmu_onlyClears hy j with ⟨-, he⟩ | ⟨hin, he⟩
  · rw [he]
    exact ⟨hout, hcnt⟩
  · rw [he, Ktu.cntOf_clearPmu, hout j hin, Ktu.clearPmu_clears]
    exact ⟨fun e hm => hout e (List.mem_of_mem_filter hm), hcnt⟩

theorem Ktu.applyPmus_done : Ktu.ClearsDone x.1 ((List.range 256).foldl Ktu.applyPmu x).1 :=
  ⟨fun _ hi hm => Ktu.applyPmus_cleared h hi hm, fun _ hid => Ktu.applyPmus_held h hid _⟩

end

/-! ### The boundary -/

theorem codecDrops_key_ne (i : Nat) :
    ∀ x ∈ [(KReg.CODEC_CDROP_drops, 0)], KReg.PMUi_STATUS_cfg_applied.key i ≠ x.1.key x.2 := by
  simp only [List.forall_mem_singleton, Fld.key, Fld.addr, KReg.PMUi_STATUS_cfg_applied, KReg.CODEC_CDROP_drops]
  omega

section
variable {k : Ktu} (h : k.cnt.OnlyClears)
include h

theorem Ktu.applyCounters_onlyClears : k.applyCounters = (List.range 256).foldl Ktu.applyPmu (k, {}) := by
  rw [Ktu.applyCounters, h.smapStaged, Ktu.applySchema_unstaged h]
  exact List.foldlRecOn (List.range 32) Ktu.applySlot (motive := fun y => y = (List.range 256).foldl Ktu.applyPmu (k, {})) rfl
    fun y hy g _ => (Ktu.applySlot_unstaged (hy ▸ Ktu.applyPmus_onlyClears h _) y.2 g).trans hy

/-- R155: with nothing else staged, the staged changes are the clears. -/
theorem Ktu.applyStaged_done : Ktu.ClearsDone k k.applyStaged.1 := by
  have ht : k.applyTables.cnt.OnlyClears := h
  rw [Ktu.applyStaged_eq, Ktu.applyCodec_unstaged h, Ktu.applyOthers_unstaged ht, Ktu.applyCounters_onlyClears ht]
  exact (Ktu.applyPmus_done (x := (k.applyTables, {})) ht).congr rfl rfl rfl rfl rfl fun _ _ => rfl

/-- R24: with no remainder held, a baseline moves the bases alone. -/
theorem Ktu.baseline_cnt : ∃ b, k.baseline.cnt = { k.cnt with base := b } := by
  refine List.foldlRecOn k.seriesList _ (motive := fun m : Ktu => ∃ b, m.cnt = { k.cnt with base := b }) ⟨k.cnt.base, rfl⟩ ?_
  rintro m ⟨b, hm⟩ s -
  split
  · exact ⟨b, hm⟩
  · next id _ => exact ⟨Tbl.set 0 s (Tbl.get 0 id m.cnt.cnt) b, by simp only [hm, h.rem, Tbl.erase]⟩

/-- R24, R155: a baseline does the staged clears. -/
theorem Ktu.takeBaseline_done (n : Nat) : Ktu.ClearsDone k (k.takeBaseline n) := by
  obtain ⟨b, hb⟩ := Ktu.baseline_cnt h
  have honly : k.baseline.cnt.OnlyClears := by rw [hb]; exact ⟨h.staged, h.smapStaged, h.slotClears, h.rem⟩
  have hcnt : k.rebase.cnt = k.baseline.applyStaged.1.cnt := (Ktu.discardCarries_keeps _ _).only .counters (by decide)
  have hbit (i : Nat) :
      k.rebase.bit KReg.PMUi_STATUS_cfg_applied i = k.baseline.applyStaged.1.bit KReg.PMUi_STATUS_cfg_applied i := by
    rw [Ktu.bit_eq_get, Ktu.rebase, Ktu.discardCarries_regsOnly _ _ _ _ (codecDrops_key_ne i), Ktu.bit_eq_get]
  have hdone : Ktu.ClearsDone k k.rebase :=
    (Ktu.applyStaged_done honly).congr (by rw [hb]) (by rw [hb]) (congrArg KCounters.cnt hcnt) (congrArg KCounters.clears hcnt)
      (congrArg KCounters.fresh hcnt) fun i _ => hbit i
  rw [Ktu.takeBaseline_eq]
  generalize k.rebase = m at hdone
  exact hdone.congr rfl rfl rfl rfl rfl fun _ _ => Ktu.bit_of_regs rfl _ _

end

end Sys2Proof.Machine
end

section
/-! SUPPORT. The registers that a firing tick sets after its snapshot (R198, R547 to R550, R682), and the statement on staged
changes (R150, R158, R160). -/

namespace Sys2Proof.Machine

-- One theorem at a time: elaborated side by side, those of this text need more stacks than the check has memory for.
set_option Elab.async false

open Sys2Proof

/-! ### Pattern runs -/

/-- The registers of pattern runs and of the reset command. -/
def lateRegs : List (Fld × Nat) :=
  [(KReg.PAT_EVT_ended, 0), (KReg.PAT_RUNS_count, 0), (KReg.PAT_ID_pattern_id, 0), (KReg.RESET_STATUS_done, 0),
   (KReg.IRQ_PEND_pend, 0)]

/-- What moves no register. -/
theorem Ktu.Keeps.regsOnly {l : List KPart} {ps : List Nat} {a b : Ktu} (h : Ktu.Keeps l ps a b) {rs : List (Fld × Nat)}
    (hl : .regs ∉ l := by decide) : Ktu.regsOnly rs a b :=
  fun f i _ => Ktu.get_of_regs (h.only .regs hl) f i

theorem Ktu.regsOnly_trans {rs : List (Fld × Nat)} {a b c : Ktu} (h : Ktu.regsOnly rs a b) (h' : Ktu.regsOnly rs b c) :
    Ktu.regsOnly rs a c := Ktu.regsOnly_step h h' fun _ hx => hx

section
variable (k : Ktu) (r : PatRun) (n : Nat)

theorem Ktu.endRun_regsOnly (status : Nat) : Ktu.regsOnly lateRegs k (k.endRun r status) := by
  unfold Ktu.endRun
  refine Ktu.regsOnly_step (Ktu.regsOnly_step (k.regsOnly_refl lateRegs)
    (Ktu.regsOnly_raise_of KReg.PAT_EVT_ended (2 ^ status) 0 ?_)) (Ktu.regsOnly_count _ KReg.PAT_RUNS_count 1 0)
  rfl

theorem Ktu.startRun_regsOnly : Ktu.regsOnly lateRegs k (k.startRun r) :=
  Ktu.regsOnly_step (k.setRuns_keeps _).regsOnly (Ktu.regsOnly_put _ KReg.PAT_ID_pattern_id r.run.patternId.toNat 0)

theorem Ktu.startDue_regsOnly : Ktu.regsOnly lateRegs k k.startDue := by
  unfold Ktu.startDue
  split
  · exact k.regsOnly_refl _
  · split
    · exact k.regsOnly_refl _
    · split
      · exact k.endRun_regsOnly _ _
      · exact k.startRun_regsOnly _

theorem Ktu.dueRun_regsOnly : Ktu.regsOnly lateRegs k (k.dueRun n r) := by
  unfold Ktu.dueRun
  split
  · exact k.regsOnly_refl _
  · split
    · exact (k.setRuns_keeps _).regsOnly
    · exact k.endRun_regsOnly _ _

theorem Ktu.stopRun_regsOnly : Ktu.regsOnly lateRegs k (k.stopRun n r) := by
  unfold Ktu.stopRun
  split
  · exact k.endRun_regsOnly _ _
  · exact k.regsOnly_refl _

theorem Ktu.patternTick_regsOnly : Ktu.regsOnly lateRegs k (k.patternTick n) :=
  Ktu.regsOnly_trans (Ktu.regsOnly_trans (Ktu.regsOnly_trans (k.applyWindows_keeps.regsOnly)
    (Ktu.regsOnly_foldl _ _ fun k r _ => k.stopRun_regsOnly r n))
    (Ktu.regsOnly_foldl _ _ fun k r _ => k.dueRun_regsOnly r n)) (Ktu.startDue_regsOnly _)

theorem Ktu.interruptRuns_regsOnly (hit : Nat → Bool) : Ktu.regsOnly lateRegs k (k.interruptRuns hit) := by
  refine Ktu.regsOnly_trans (Ktu.regsOnly_foldl _ k fun k r _ => ?_) (Ktu.startDue_regsOnly _)
  split
  · exact k.endRun_regsOnly _ _
  · exact k.regsOnly_refl _

end

/-! ### The stages -/

section
variable (k : Ktu) (n : Nat)

theorem Ktu.enterHalting_regsOnly (scope h : Nat) : Ktu.regsOnly lateRegs k (k.enterHalting scope h) :=
  Ktu.regsOnly_trans (Ktu.regsOnly_trans (Ktu.regsOnly_trans ((k.setHalt_keeps _ _).regsOnly)
    ((Ktu.freezeRings_keeps _ 5 _).regsOnly)) ((Ktu.haltMarkers_keeps _ _ _).regsOnly)) (Ktu.interruptRuns_regsOnly _ _)

theorem Ktu.haltTick_regsOnly (scope : Nat) : Ktu.regsOnly lateRegs k (Ktu.haltTick n k scope) := by
  rw [Ktu.haltTick_eq]
  split
  · exact (k.actResume_keeps scope).regsOnly
  · split
    · exact k.enterHalting_regsOnly _ _
    · exact k.regsOnly_refl _

theorem Ktu.resetsDone_regsOnly : Ktu.regsOnly lateRegs k k.resetsDone := by
  unfold Ktu.resetsDone
  split
  · exact Ktu.regsOnly_step (k.regsOnly_refl _) (Ktu.regsOnly_raise_of KReg.RESET_STATUS_done 1 0 rfl)
  · exact k.regsOnly_refl _

theorem Ktu.endTick_regsOnly : Ktu.regsOnly lateRegs k (k.endTick n) :=
  Ktu.regsOnly_trans (Ktu.regsOnly_trans (k.patternTick_regsOnly n) ((Ktu.markAllDrops_keeps _).regsOnly))
    (Ktu.resetsDone_regsOnly _)

theorem Ktu.fromSnapshot_regsOnly : Ktu.regsOnly lateRegs k (k.fromSnapshot n) :=
  Ktu.regsOnly_trans (Ktu.regsOnly_trans (Ktu.regsOnly_trans (k.renewAllowances_keeps.regsOnly)
    ((Ktu.openEpochs_keeps _).regsOnly)) (Ktu.regsOnly_foldl _ _ fun k scope _ => k.haltTick_regsOnly n scope))
    (Ktu.endTick_regsOnly _ n)

end

theorem pmuApplied_late {i : Nat} (h : i < 256) : ∀ x ∈ lateRegs, KReg.PMUi_STATUS_cfg_applied.key i ≠ x.1.key x.2 := by
  simp only [lateRegs, List.forall_mem_cons, Fld.key, Fld.addr, KReg.PMUi_STATUS_cfg_applied, KReg.PAT_EVT_ended,
    KReg.PAT_RUNS_count, KReg.PAT_ID_pattern_id, KReg.RESET_STATUS_done, KReg.IRQ_PEND_pend, List.not_mem_nil, false_implies,
    implies_true, and_true]
  omega

/-! ### The firing edge -/

section
variable {k : Ktu} {n : Nat} (hj : k.codec.job = none) (hb : k.time.baselinePending = true) (hc : k.cnt.OnlyClears)
include hj hb hc

/-- R24, R150: the first tick since run rose does the staged clears. -/
theorem Ktu.fire_clearsDone : Ktu.ClearsDone k (k.fire n) := by
  have hbefore : (k.beforeSnapshot n).1.cnt = k.cnt :=
    ((k.beforeSnapshot_keeps_closed n).only .counters (by decide)).trans (Ktu.closed_only hj .counters (by decide))
  have hpending : (k.beforeSnapshot n).1.time.baselinePending = true := by rw [Ktu.beforeSnapshot_time]; exact hb
  have hto : k.toSnapshot n = (k.beforeSnapshot n).1.takeBaseline n := Ktu.takeSnapshot_baseline n _ hpending
  have hdone := Ktu.takeBaseline_done (k := (k.beforeSnapshot n).1) (by rwa [hbefore]) n
  rw [← hto] at hdone
  obtain ⟨-, -, hcnt⟩ := k.fire_snapshot n
  refine hdone.congr (by rw [hbefore]) (by rw [hbefore]) (by rw [hcnt]) (by rw [hcnt]) (by rw [hcnt]) fun i hi => ?_
  rw [Ktu.fire_eq_snapshot, Ktu.bit_eq_get, Ktu.fromSnapshot_regsOnly _ n _ _ (pmuApplied_late hi), Ktu.bit_eq_get]

end

/-! ### The statement -/

/-- R150, R158, R160: what the clears of a boundary leave. -/
theorem Ktu.ClearsDone.leaves {a b : Ktu} (h : Ktu.ClearsDone a b) :
    (∀ i < 256, i ∈ a.cnt.clears → (∀ c ≤ 8, b.cntOf (cntPmu i c) = 0) ∧ b.bit KReg.PMUi_STATUS_cfg_applied i = true ∧
      i ∉ b.cnt.clears ∧ i ∈ b.cnt.fresh) ∧
    (∀ i < 256, i ∉ a.cnt.clears → ∀ c ≤ 8, b.cntOf (cntPmu i c) = a.cntOf (cntPmu i c)) ∧
    (∀ i < 64, b.cntOf (cntU i) = a.cntOf (cntU i) ∧ b.cntOf (cntE i) = a.cntOf (cntE i)) := by
  refine ⟨fun i hi hm => ?_, fun i _ hm c hc => ?_, fun i hi => ?_⟩
  · obtain ⟨hzero, happlied, hdone, hfresh⟩ := h.cleared i hi hm
    exact ⟨hzero, happlied, hdone, hfresh⟩
  · exact h.held _ fun j hj => inPmu_other hc fun hji => hm (hji ▸ hj)
  · exact ⟨h.held _ fun j _ => inPmu_alwaysOn (by simp only [cntU]; omega),
      h.held _ fun j _ => inPmu_alwaysOn (by simp only [cntE]; omega)⟩

/-- Settles O15: the write stages its clear alone, and a baseline does the clears that are staged. -/
theorem stagedChanges : Obligations.StagedChanges := by
  unfold Obligations.StagedChanges
  refine ⟨fun s w i h hr ho => pmuClear_does h hr ho, fun s h hrun hlock hlt hj hb hrem hstaged hmap hslots =>
    tickFire_fires_does h hrun hlock hlt ?_⟩
  have hdone := Ktu.fire_clearsDone (n := s.ktu.boundary) hj hb ⟨hstaged, hmap, hslots, hrem⟩
  exact (hdone.congr rfl rfl (by rw [Ktu.wakeCheck_cnt]) (by rw [Ktu.wakeCheck_cnt]) (by rw [Ktu.wakeCheck_cnt])
    fun i _ => Ktu.bit_of_regs (Ktu.wakeCheck_regs _) _ _).leaves

end Sys2Proof.Machine
end

section
/-! SUPPORT. A word that stores nothing is written: its commands act, and nothing else does (R14, R110, R674). -/

namespace Sys2Proof.Machine

-- One theorem at a time: elaborated side by side, those of this text need more stacks than the check has memory for.
set_option Elab.async false

open Sys2Proof

/-- A field that no write stores: it is read-only, or a command that acts with its word. -/
def Fld.unstored (f : Fld) : Bool := f.acc == .ro || f.acc == .wo

section
variable (k : Ktu) {p : Path} {f : Fld} {i v : Nat}

theorem Fld.unstored_iff : f.unstored = true ↔ f.acc = .ro ∨ f.acc = .wo := by
  rw [Fld.unstored, Bool.or_eq_true, beq_iff_eq, beq_iff_eq]

theorem Ktu.writeField_unstored (h : f.unstored = true) : k.writeField p f v i = k := by
  unfold Ktu.writeField
  rcases Fld.unstored_iff.1 h with h | h <;> rw [h]

/-- A write of a read-only field has no effect, so that it is refused to no one (R674). -/
theorem Ktu.writeEffect_readOnly (h : f.acc = .ro) : k.writeEffect p f i v = false := by
  rw [Ktu.writeEffect, h]

end

section
variable {k : Ktu} {w : Writer} {a v : Nat}

/-- A word of fields that no write stores, of which the writer may write every command: the commands act, and nothing but the latch of
the first error follows. -/
theorem Ktu.writeBy_commands (hr : k.pins.ready = true) (hu : ∀ x ∈ wordFields a, x.1.unstored = true)
    (hm : ∀ x ∈ wordFields a, x.1.acc = .ro ∨ k.mayWrite (ownerOf w) x.1 x.2 = true) :
    ∃ e, k.writeBy w a v = { k.writeCmd (ownerOf w) a v with errHeld := e } := by
  have hrefused : k.writeRefused (pathOf w) (ownerOf w) a v = false := by
    rw [Ktu.writeRefused, List.any_eq_false]
    intro x hx
    rcases hm x hx with h | h
    · simp [k.writeEffect_readOnly h]
    · simp [h]
  have hstored : ((wordFields a).filter fun x => k.mayWrite (ownerOf w) x.1 x.2).foldl
      (fun k x => k.writeField (pathOf w) x.1 (x.1.part v) x.2) k = k :=
    List.foldlRecOn _ _ (motive := fun m => m = k) rfl fun m hm' x hx => by
      rw [Ktu.writeField_unstored m (hu x (List.mem_of_mem_filter hx)), hm']
  obtain ⟨e, he⟩ := (k.writeCmd (ownerOf w) a v).errRearm_eq
  refine ⟨e, ?_⟩
  simp [Ktu.writeBy, hr, Ktu.writeWord, hrefused, hstored, he, Ktu.refusal]

/-- A command that is a write of such a word has every property that the word's commands give. -/
theorem KtuDoes.of_commands {c : Instr} {s : State} {P : Ktu → Prop} {m : Ktu} (hc : exec c s = onKtu (Ktu.writeBy w a v) s)
    (h : s.ktu.runs) (hr : s.ktu.pins.ready = true) (hu : ∀ x ∈ wordFields a, x.1.unstored = true)
    (hm : ∀ x ∈ wordFields a, x.1.acc = .ro ∨ s.ktu.mayWrite (ownerOf w) x.1 x.2 = true)
    (hcmd : s.ktu.writeCmd (ownerOf w) a v = m) (hP : ∀ e, P ({ m with errHeld := e } : Ktu).wakeCheck) : KtuDoes c s P := by
  obtain ⟨e, he⟩ := Ktu.writeBy_commands (v := v) hr hu hm
  refine .of_onKtu _ hc h ?_
  rw [he, hcmd]
  exact hP e

/-- *fleet* may write every field (R110). -/
theorem Ktu.mayWrite_fleet (ho : ownerOf w = fleet) : ∀ x ∈ wordFields a, x.1.acc = .ro ∨ k.mayWrite (ownerOf w) x.1 x.2 = true :=
  fun _ _ => .inr (by rw [ho]; rfl)

/-- What a command leaves alone, seen after the latch of the first error and the wake sources. -/
theorem Ktu.only_commands {l : List KPart} {k m : Ktu} (e : Bool) (hl : .rest ∈ l) (h : Ktu.only l k m) :
    Ktu.only l k ({ m with errHeld := e } : Ktu).wakeCheck := (Ktu.EndsAs.of_errHeld k m e).only hl h

end

end Sys2Proof.Machine
end

section
/-! SUPPORT. The Tail rings (R169 to R175, R202): an event waits, the record writer serves it, and KTU_TAIL_CMD acts on the rings it
names; and the statement on them. -/

namespace Sys2Proof.Machine

-- One theorem at a time: elaborated side by side, those of this text need more stacks than the check has memory for.
set_option Elab.async false

open Sys2Proof

/-! ### An arbiter with one requester (R221) -/

theorem find?_of_unique {α : Type} {p : α → Bool} {l : List α} {a : α} (ha : a ∈ l) (hp : p a = true)
    (hu : ∀ b ∈ l, p b = true → b = a) : l.find? p = some a := by
  cases h : l.find? p with
  | none => exact absurd hp (List.find?_eq_none.1 h a ha)
  | some b => rw [hu b (List.mem_of_find?_eq_some h) (List.find?_some h)]

section
variable {n d : Nat} (hd : d < n)
include hd

/-- The pointer's turn comes to every requester. -/
theorem mem_turns (ptr : Nat) : d ∈ (List.range n).map (fun i => (ptr + i) % n) := by
  refine List.mem_map.2 ⟨(d + (n - ptr % n)) % n, List.mem_range.2 (Nat.mod_lt _ (by omega)), ?_⟩
  have hptr : ptr % n < n := Nat.mod_lt _ (by omega)
  rw [Nat.add_mod_mod, Nat.add_mod, ← Nat.add_mod_mod]
  have hsum : ptr % n + (d + (n - ptr % n)) = d + n := by omega
  simp only [Nat.mod_mod, Nat.add_mod_mod, hsum, Nat.add_mod_right, Nat.mod_eq_of_lt hd]

variable {req : Nat → Bool} (hreq : req d = true) (hother : ∀ i < n, i ≠ d → req i = false) (prio : Nat → Nat)
include hreq hother

theorem roundRobin_single (ptr l : Nat) :
    roundRobin n ptr (fun i => req i && prio i % 4 == l) = if prio d % 4 = l then some d else none := by
  have honly : ∀ b ∈ (List.range n).map (fun i => (ptr + i) % n), req b = true → b = d := by
    intro b hb hr
    obtain ⟨i, -, rfl⟩ := List.mem_map.1 hb
    by_contra hne
    exact Bool.false_ne_true ((hother _ (Nat.mod_lt _ (by omega)) hne).symm.trans hr)
  unfold roundRobin
  split
  · next h => exact find?_of_unique (mem_turns hd ptr) (by simp [hreq, h]) fun b hb hp => honly b hb (Bool.and_eq_true _ _ ▸ hp).1
  · next h =>
    refine List.find?_eq_none.2 fun b hb hp => h ?_
    obtain ⟨hr, hl⟩ := Bool.and_eq_true_iff.1 hp
    rw [← honly b hb hr]
    exact beq_iff_eq.1 hl

/-- The only requester is granted, whatever its priority. -/
theorem arbitrate_single (rr : Tbl Nat) : ∃ rr', arbitrate n prio req rr = some (d, rr') := by
  have hl : prio d % 4 = 0 ∨ prio d % 4 = 1 ∨ prio d % 4 = 2 ∨ prio d % 4 = 3 := by omega
  simp only [arbitrate, roundRobin_single hd hreq hother]
  rcases hl with h | h | h | h <;> simp [h]

end

end Sys2Proof.Machine
end

section
/-! SUPPORT. The Tail rings (R169 to R175, R202): an event waits, the record writer serves it, and KTU_TAIL_CMD acts on the rings it
names; and the statement on them. -/

namespace Sys2Proof.Machine

-- One theorem at a time: elaborated side by side, those of this text need more stacks than the check has memory for.
set_option Elab.async false

open Sys2Proof

/-! ### The Tail unit alone -/

section
variable (k : Ktu)

theorem Ktu.withTail_only (t : KTail) : Ktu.only [.tail] k { k with tail := t } := by
  intro x hx
  cases x <;> simp [Ktu.same] at hx ⊢

theorem Ktu.withErrHeld_ring (e : Bool) (u : Nat) : ({ k with errHeld := e } : Ktu).ring u = k.ring u := rfl

theorem Ktu.tailQueue_congr {a b : Ktu} (h : b.tail.queues = a.tail.queues) (d : Nat) : b.tailQueue d = a.tailQueue d := by
  rw [Ktu.tailQueue, h, Ktu.tailQueue]

@[simp] theorem Ktu.wakeCheck_tailQueue (d : Nat) : k.wakeCheck.tailQueue d = k.tailQueue d :=
  Ktu.tailQueue_congr (by rw [Ktu.wakeCheck_tail]) d

/-- An event waits behind those of its domain. -/
def Ktu.tailWait (k : Ktu) (d t w : Nat) : Ktu :=
  { k with tail := { k.tail with queues := Tbl.set [] d (k.tailQueue d ++ [(t, w)]) k.tail.queues } }

variable (d t w : Nat)

@[simp] theorem Ktu.tailWait_same : (k.tailWait d t w).tailQueue d = k.tailQueue d ++ [(t, w)] := Tbl.get_set_same _ _ _ _

theorem Ktu.tailWait_other {e : Nat} (h : e ≠ d) : (k.tailWait d t w).tailQueue e = k.tailQueue e := Tbl.get_set_ne _ _ h _ _

end

/-! ### An event is taken (R168, R170, R171) -/

section
variable {k : Ktu} {d : Fin 4} {w : BitVec 64} (hm : k.masked d = false) (he : k.bit KReg.TAIL_CTRL_enable = true)
  (hu : w.toNat / 2 ^ 53 / 512 = d.val) (hc : w.toNat / 2 ^ 32 % 256 ≠ 0) (hp : k.unitPresent (w.toNat / 2 ^ 53) = true)
include hm he hu hc hp

/-- An event of a present unit of the domain waits, or is lost where eight wait already. -/
theorem Ktu.tailTake_eq : k.tailTake d w = if (k.tailQueue d.val).length ≥ 8
    then (k.count KReg.TAIL_LOSTd_lost 1 d.val).overrun d.val else k.tailWait d.val k.sampledNs w.toNat := by
  simp only [Ktu.tailTake]
  rw [if_neg (by simp [hm, he]), if_neg (by simp only [hu, hc, ne_eq, not_true, or_self, not_false_eq_true]), if_neg (not_not.2 hp)]
  rfl

theorem Ktu.tailTake_waits (hq : (k.tailQueue d.val).length < 8) : k.tailTake d w = k.tailWait d.val k.sampledNs w.toNat :=
  (Ktu.tailTake_eq hm he hu hc hp).trans (if_neg (by omega))

theorem Ktu.tailTake_lost (hq : 8 ≤ (k.tailQueue d.val).length) :
    k.tailTake d w = (k.count KReg.TAIL_LOSTd_lost 1 d.val).overrun d.val :=
  (Ktu.tailTake_eq hm he hu hc hp).trans (if_pos hq)

end

/-! ### A queue overruns (R211) -/

section
variable (k : Ktu) {id : Nat} (hid : id < 32)
include hid

theorem Ktu.overrun_low : k.overrun id = k.raise KReg.QOVR_LO_ovr (2 ^ id) := if_pos hid

theorem Ktu.overrun_bit : bitOf ((k.overrun id).get KReg.QOVR_LO_ovr) id = true := by
  rw [k.overrun_low hid]
  exact k.bitOf_get_raise hid (by decide)

theorem Ktu.overrun_get_ne {f : Fld} {i : Nat} (h : f.key i ≠ KReg.QOVR_LO_ovr.key 0) (hp : f.key i ≠ KReg.IRQ_PEND_pend.key 0) :
    (k.overrun id).get f i = k.get f i := by
  rw [k.overrun_low hid]
  exact Ktu.get_raise_ne _ _ _ _ _ _ h hp

theorem Ktu.overrun_eq : ∃ r, k.overrun id = { k with regs := r } := by
  rw [k.overrun_low hid]
  exact k.raise_eq _ _ _

end

/-- The count of lost events of a domain lies elsewhere than the overrun bits and the pending bits. -/
theorem tailLost_apart (d : Fin 4) : KReg.TAIL_LOSTd_lost.key d.val ≠ KReg.QOVR_LO_ovr.key 0 ∧
    KReg.TAIL_LOSTd_lost.key d.val ≠ KReg.IRQ_PEND_pend.key 0 := by
  revert d
  decide

/-! ### The record writer (R171 to R174) -/

section
variable {k : Ktu} {d : Fin 4} (hm : k.masked d = false) (hq : ∀ e, k.tailQueue e = []) (t w : Nat)
include hm hq

/-- The only event that waits is written, and nothing waits after it. -/
theorem Ktu.tailServe_only : ∃ x : KTail, (k.tailWait d.val t w).tailServe = Ktu.tailWrite { k with tail := x } t w ∧
    x.rings = k.tail.rings ∧ ∀ e, Tbl.get [] e x.queues = [] := by
  have hoffer : (!((k.tailWait d.val t w).tailQueue d.val).isEmpty && !(k.tailWait d.val t w).masked (Fin.ofNat 4 d.val)) = true := by
    have hmask : (k.tailWait d.val t w).masked (Fin.ofNat 4 d.val) = false := by
      rw [Fin.ofNat_val_eq_self]
      exact hm
    rw [hmask, Ktu.tailWait_same]
    simp
  have hother : ∀ e < 4, e ≠ d.val →
      (!((k.tailWait d.val t w).tailQueue e).isEmpty && !(k.tailWait d.val t w).masked (Fin.ofNat 4 e)) = false := by
    intro e _ hne
    rw [k.tailWait_other _ _ _ hne, hq]
    rfl
  obtain ⟨rr, hrr⟩ := arbitrate_single d.isLt hoffer hother (k.tailWait d.val t w).tailPrio (k.tailWait d.val t w).tail.rr
  refine ⟨{ (k.tailWait d.val t w).tail with
    rr := rr, queues := Tbl.set [] d.val [] (k.tailWait d.val t w).tail.queues }, ?_, rfl, fun e => ?_⟩
  · unfold Ktu.tailServe
    rw [hrr]
    simp only [Ktu.tailWait_same, hq, List.nil_append]
    rfl
  · refine (Tbl.get_set [] e d.val [] _).trans ?_
    split
    · rfl
    · next he => exact (k.tailWait_other _ t w he).trans (hq e)

end

section
variable (k : Ktu) (t : Nat) {w : Nat}

theorem Ktu.tailWrite_frozen (h : (k.ring (w / 2 ^ 53)).frozen = true) : k.tailWrite t w =
    k.setRing (w / 2 ^ 53) { k.ring (w / 2 ^ 53) with lost := min ((k.ring (w / 2 ^ 53)).lost + 1) 0xFFFF } := if_pos h

theorem Ktu.tailWrite_stored (h : (k.ring (w / 2 ^ 53)).frozen = false) (hc : w / 2 ^ 32 % 256 ≠ 0xFF) :
    k.tailWrite t w = k.setRing (w / 2 ^ 53) ((k.ring (w / 2 ^ 53)).store t w) := by
  unfold Ktu.tailWrite
  simp only [h, Bool.false_eq_true, if_false]
  rw [if_neg hc]

end

/-! ### KTU_TAIL_CMD (R175, R202) -/

/-- The rings of a list are each replaced. -/
def Ktu.mapRings (f : TailRing → TailRing) (us : List Nat) (k : Ktu) : Ktu := us.foldl (fun k u => k.setRing u (f (k.ring u))) k

section
variable (f : TailRing → TailRing) (us : List Nat) (k : Ktu)

theorem Ktu.mapRings_only : Ktu.only [.tail] k (Ktu.mapRings f us k) :=
  List.foldlRecOn us _ (motive := Ktu.only [.tail] k) (k.only_refl _) fun m hm u _ => Ktu.only_trans hm (m.setRing_keeps u _).only

/-- A replacement that, made twice, is made once, reaches the rings of the list alone. -/
theorem Ktu.mapRings_ring (hf : ∀ r, f (f r) = f r) (u : Nat) :
    (Ktu.mapRings f us k).ring u = if u ∈ us then f (k.ring u) else k.ring u := by
  induction us generalizing k with
  | nil => rfl
  | cons v us ih =>
    have hstep := ih (k.setRing v (f (k.ring v)))
    have hcons : Ktu.mapRings f (v :: us) k = Ktu.mapRings f us (k.setRing v (f (k.ring v))) := rfl
    rw [hcons, hstep]
    by_cases hv : u = v
    · subst hv
      simp [hf]
    · simp [Ktu.setRing_other _ _ _ hv, hv]

end

theorem TailRing.freeze_freeze (cause : Nat) (r : TailRing) : (r.freeze cause).freeze cause = r.freeze cause := by
  cases h : r.frozen <;> simp [TailRing.freeze, h]

/-- Rings are frozen only by a cause that is armed (R173). -/
theorem Ktu.freezeRings_armed {cause : Nat} (us : List Nat) (k : Ktu)
    (h : bitOf (k.get KReg.TAIL_CTRL_arm) (cause - 1) = true) :
    k.freezeRings cause us = Ktu.mapRings (fun r => r.freeze cause) us k := by
  induction us generalizing k with
  | nil => rfl
  | cons u us ih =>
    have hcons : k.freezeRings cause (u :: us) = (k.freezeRing cause u).freezeRings cause us := rfl
    rw [hcons, k.freezeRing_armed u h]
    exact ih _ h

theorem wordFields_tailCmd : wordFields 0x8014 = [(KReg.TAIL_CMD_op, 0), (KReg.TAIL_CMD_last, 0), (KReg.TAIL_CMD_first, 0)] := by
  decide +kernel

/-- KTU_TAIL_CMD stores nothing, and is anyone's: what it reaches is the writer's blocks (R202). -/
theorem tailCmd_unstored : ∀ x ∈ wordFields 0x8014, x.1.unstored = true := by
  rw [wordFields_tailCmd]
  decide

theorem Ktu.mayWrite_tailCmd (k : Ktu) (o : Nat) : ∀ x ∈ wordFields 0x8014, x.1.acc = .ro ∨ k.mayWrite o x.1 x.2 = true := by
  have hmay {f : Fld} (hs : f ≠ KReg.SCRATCH_data) (hmode : f ≠ KReg.IRQ_CFG_mode) (hb : f.base = 0x8014) :
      k.mayWrite o f 0 = true := by
    simp [Ktu.mayWrite, hs, hmode, hb]
  rw [wordFields_tailCmd]
  simp only [List.forall_mem_cons, List.not_mem_nil, false_implies, implies_true, and_true]
  exact ⟨.inr (hmay (by decide) (by decide) rfl), .inr (hmay (by decide) (by decide) rfl), .inr (hmay (by decide) (by decide) rfl)⟩

/-- What KTU_TAIL_CMD does by its op. -/
def Ktu.tailOp (k : Ktu) (op o first last : Nat) : Ktu :=
  match op with
  | 1 => k.tailFreeze o first last
  | 2 => k.tailRelease o first last
  | 3 => k.tailClear o first last
  | _ => k

section
variable (first last : Fin 2048) {op : Nat} (hop : op < 4)
include hop

/-- The fields of a KTU_TAIL_CMD word. -/
theorem tailCmdWord_parts : KReg.TAIL_CMD_op.part (tailCmdWord op first last) = op ∧
    KReg.TAIL_CMD_first.part (tailCmdWord op first last) = first.val ∧
    KReg.TAIL_CMD_last.part (tailCmdWord op first last) = last.val := by
  have hfirst := first.isLt
  have hlast := last.isLt
  simp only [Fld.part, Fld.width, tailCmdWord, KReg.TAIL_CMD_op, KReg.TAIL_CMD_first, KReg.TAIL_CMD_last]
  refine ⟨?_, ?_, ?_⟩ <;> omega

theorem Ktu.writeCmd_tailCmd (k : Ktu) (o : Nat) : k.writeCmd o 0x8014 (tailCmdWord op first last) =
    k.tailOp op o first.val last.val := by
  obtain ⟨hopp, hfirst, hlast⟩ := tailCmdWord_parts first last hop
  have hcmd : k.writeCmd o 0x8014 (tailCmdWord op first last) = k.tailCmd o (tailCmdWord op first last) := by simp [Ktu.writeCmd]
  rw [hcmd, Ktu.tailCmd, hopp, hfirst, hlast]
  rfl

end

/-! ### The commands -/

section
variable {s : State} (h : s.ktu.runs) {d : Fin 4} {w : BitVec 64} (hm : s.ktu.masked d = false)
  (he : s.ktu.bit KReg.TAIL_CTRL_enable = true) (hu : w.toNat / 2 ^ 53 / 512 = d.val) (hc : w.toNat / 2 ^ 32 % 256 ≠ 0)
  (hp : s.ktu.unitPresent (w.toNat / 2 ^ 53) = true)
include h hm he hu hc hp

theorem tailEvent_waits (hq : (s.ktu.tailQueue d.val).length < 8) : KtuDoes (.tailEvent d w 0) s fun k =>
    k.tailQueue d.val = s.ktu.tailQueue d.val ++ [(s.ktu.sampledNs, w.toNat)] ∧
    (∀ e, e ≠ d.val → k.tailQueue e = s.ktu.tailQueue e) ∧ k.tail.rings = s.ktu.tail.rings ∧ Ktu.only [.tail] s.ktu k := by
  refine .of_onKtu (fun k => k.tailEvent d w 0) rfl h ?_
  have hevent : s.ktu.tailEvent d w 0 = s.ktu.tailWait d.val s.ktu.sampledNs w.toNat := Ktu.tailTake_waits hm he hu hc hp hq
  rw [hevent, Ktu.wakeCheck_tailQueue, Ktu.wakeCheck_tail, Ktu.only_wakeCheck]
  refine ⟨Ktu.tailWait_same _ _ _ _, fun e hne => ?_, rfl, s.ktu.withTail_only _⟩
  rw [Ktu.wakeCheck_tailQueue]
  exact s.ktu.tailWait_other _ _ _ hne

theorem tailEvent_lost (hq : 8 ≤ (s.ktu.tailQueue d.val).length) : KtuDoes (.tailEvent d w 0) s fun k =>
    k.tail = s.ktu.tail ∧ k.get KReg.TAIL_LOSTd_lost d.val = min (s.ktu.get KReg.TAIL_LOSTd_lost d.val + 1) (2 ^ 32 - 1) ∧
    bitOf (k.get KReg.QOVR_LO_ovr) d.val = true ∧ Ktu.only [.regs] s.ktu k := by
  refine .of_onKtu (fun k => k.tailEvent d w 0) rfl h ?_
  have hd : d.val < 32 := by omega
  have hevent : s.ktu.tailEvent d w 0 = (s.ktu.count KReg.TAIL_LOSTd_lost 1 d.val).overrun d.val :=
    Ktu.tailTake_lost hm he hu hc hp hq
  obtain ⟨hlow, hpend⟩ := tailLost_apart d
  obtain ⟨r, hr⟩ := Ktu.overrun_eq (s.ktu.count KReg.TAIL_LOSTd_lost 1 d.val) hd
  have hbit := Ktu.overrun_bit (s.ktu.count KReg.TAIL_LOSTd_lost 1 d.val) hd
  have hcount := (Ktu.overrun_get_ne _ hd hlow hpend).trans (s.ktu.get_count_same KReg.TAIL_LOSTd_lost 1 d.val)
  rw [hevent, Ktu.wakeCheck_tail, Ktu.wakeCheck_get, Ktu.wakeCheck_get, Ktu.only_wakeCheck]
  refine ⟨by rw [hr]; rfl, hcount, hbit, ?_⟩
  rw [hr]
  exact s.ktu.only_regs r

section
variable (hq : ∀ e, s.ktu.tailQueue e = [])
include hq

/-- With nothing waiting, the event is written at the next edge. -/
theorem tailEvent_written {P : Ktu → Prop} (hP : ∀ x : KTail, x.rings = s.ktu.tail.rings → (∀ e, Tbl.get [] e x.queues = []) →
    P (Ktu.tailWrite { s.ktu with tail := x } s.ktu.sampledNs w.toNat).wakeCheck) : KtuDoes (.tailEvent d w 1) s P := by
  refine .of_onKtu (fun k => k.tailEvent d w 1) rfl h ?_
  obtain ⟨x, hx, hrings, hempty⟩ := Ktu.tailServe_only hm hq s.ktu.sampledNs w.toNat
  have hevent : s.ktu.tailEvent d w 1 = Ktu.tailWrite { s.ktu with tail := x } s.ktu.sampledNs w.toNat := by
    have hone : s.ktu.tailEvent d w 1 = (s.ktu.tailTake d w).tailServe := rfl
    rw [hone, Ktu.tailTake_waits hm he hu hc hp (by rw [hq]; exact Nat.zero_lt_succ _), hx]
  rw [hevent]
  exact hP x hrings hempty

theorem tailEvent_stored (hf : (s.ktu.ring (w.toNat / 2 ^ 53)).frozen = false) (hn : w.toNat / 2 ^ 32 % 256 ≠ 0xFF) :
    KtuDoes (.tailEvent d w 1) s fun k =>
      Tbl.get 0 (s.ktu.ring (w.toNat / 2 ^ 53)).next (k.ring (w.toNat / 2 ^ 53)).recs = ((if (s.ktu.ring (w.toNat / 2 ^ 53)).count = 0 ∨
        s.ktu.sampledNs ≥ (s.ktu.ring (w.toNat / 2 ^ 53)).newestNs + 2 ^ 30 then 2 ^ 63 else 0) +
        s.ktu.sampledNs / 256 % 2 ^ 23 * 2 ^ 40 + w.toNat % 2 ^ 40) ∧
      (k.ring (w.toNat / 2 ^ 53)).next = ((s.ktu.ring (w.toNat / 2 ^ 53)).next + 1) % 32 ∧
      (k.ring (w.toNat / 2 ^ 53)).newestNs = s.ktu.sampledNs % 2 ^ 64 ∧
      (k.ring (w.toNat / 2 ^ 53)).count = min ((s.ktu.ring (w.toNat / 2 ^ 53)).count + 1) 32 ∧
      (∀ v, v ≠ w.toNat / 2 ^ 53 → k.ring v = s.ktu.ring v) ∧ (∀ e, k.tailQueue e = []) ∧ Ktu.only [.tail] s.ktu k := by
  refine tailEvent_written h hm he hu hc hp hq fun x hx hempty => ?_
  have hring (v : Nat) : ({ s.ktu with tail := x } : Ktu).ring v = s.ktu.ring v := by rw [Ktu.ring, hx, Ktu.ring]
  rw [Ktu.tailWrite_stored _ _ ((hring _).symm ▸ hf) hn, hring, Ktu.wakeCheck_ring, Ktu.setRing_same, Ktu.only_wakeCheck]
  refine ⟨?_, rfl, rfl, rfl, fun v hv => ?_, fun e => ?_, ?_⟩
  · refine (Tbl.get_set_same _ _ _ _).trans ?_
    split <;> simp
  · rw [Ktu.wakeCheck_ring, Ktu.setRing_other _ _ _ hv, hring]
  · rw [Ktu.wakeCheck_tailQueue]
    exact hempty e
  · exact s.ktu.withTail_only _

theorem tailEvent_frozen (hf : (s.ktu.ring (w.toNat / 2 ^ 53)).frozen = true) : KtuDoes (.tailEvent d w 1) s fun k =>
    k.ring (w.toNat / 2 ^ 53) = { s.ktu.ring (w.toNat / 2 ^ 53) with
      lost := min ((s.ktu.ring (w.toNat / 2 ^ 53)).lost + 1) 0xFFFF } ∧
    (∀ v, v ≠ w.toNat / 2 ^ 53 → k.ring v = s.ktu.ring v) ∧ Ktu.only [.tail] s.ktu k := by
  refine tailEvent_written h hm he hu hc hp hq fun x hx _ => ?_
  have hring (v : Nat) : ({ s.ktu with tail := x } : Ktu).ring v = s.ktu.ring v := by rw [Ktu.ring, hx, Ktu.ring]
  rw [Ktu.tailWrite_frozen _ _ ((hring _).symm ▸ hf), hring, Ktu.wakeCheck_ring, Ktu.setRing_same, Ktu.only_wakeCheck]
  refine ⟨rfl, fun v hv => ?_, s.ktu.withTail_only _⟩
  rw [Ktu.wakeCheck_ring, Ktu.setRing_other _ _ _ hv, hring]

end

end

section
variable {s : State} (h : s.ktu.runs) (hr : s.ktu.pins.ready = true) (w : Writer) (first last : Fin 2048)
include h hr

/-- KTU_TAIL_CMD reaches the rings it names of the writer's blocks alone. -/
theorem tailCmd_does {c : Instr} {op : Nat} (hc : exec c s = onKtu (Ktu.writeBy w 0x8014 (tailCmdWord op first last)) s)
    {f : TailRing → TailRing} (hf : ∀ r, f (f r) = f r) (hcmd : s.ktu.writeCmd (ownerOf w) 0x8014 (tailCmdWord op first last) =
      Ktu.mapRings f (s.ktu.cmdUnits (ownerOf w) first.val last.val) s.ktu) : KtuDoes c s fun k =>
    (∀ u, k.ring u = if u ∈ s.ktu.cmdUnits (ownerOf w) first.val last.val then f (s.ktu.ring u) else s.ktu.ring u) ∧
    Ktu.only [.tail, .rest] s.ktu k := by
  refine .of_commands hc h hr tailCmd_unstored (s.ktu.mayWrite_tailCmd _) hcmd fun e => ⟨fun u => ?_, ?_⟩
  · rw [Ktu.wakeCheck_ring]
    exact (Ktu.withErrHeld_ring _ e u).trans (Ktu.mapRings_ring f _ s.ktu hf u)
  · exact Ktu.only_commands e (by decide) (Ktu.only_mono (Ktu.mapRings_only _ _ _) (by decide))

theorem tailFreeze_does (ha : bitOf (s.ktu.get KReg.TAIL_CTRL_arm) 5 = true) : KtuDoes (.tailFreeze w first last) s fun k =>
    (∀ u, k.ring u = if u ∈ s.ktu.cmdUnits (ownerOf w) first.val last.val then (s.ktu.ring u).freeze 6 else s.ktu.ring u) ∧
    Ktu.only [.tail, .rest] s.ktu k :=
  tailCmd_does h hr w first last (op := 1) rfl (f := fun r => r.freeze 6) (TailRing.freeze_freeze 6)
    ((Ktu.writeCmd_tailCmd first last (by decide) _ _).trans (Ktu.freezeRings_armed _ _ ha))

theorem tailRelease_does : KtuDoes (.tailRelease w first last) s fun k =>
    (∀ u, k.ring u = if u ∈ s.ktu.cmdUnits (ownerOf w) first.val last.val then
      { s.ktu.ring u with frozen := false, cause := 0, lost := 0 } else s.ktu.ring u) ∧ Ktu.only [.tail, .rest] s.ktu k :=
  tailCmd_does h hr w first last (op := 2) rfl (f := TailRing.release) (fun _ => rfl)
    (Ktu.writeCmd_tailCmd first last (by decide) _ _)

theorem tailClear_does : KtuDoes (.tailClear w first last) s fun k =>
    (∀ u, k.ring u = if u ∈ s.ktu.cmdUnits (ownerOf w) first.val last.val then
      { newestNs := (s.ktu.ring u).newestNs } else s.ktu.ring u) ∧ Ktu.only [.tail, .rest] s.ktu k :=
  tailCmd_does h hr w first last (op := 3) rfl (f := TailRing.clear) (fun _ => rfl)
    (Ktu.writeCmd_tailCmd first last (by decide) _ _)

end

/-- Settles O9: an event waits, is lost, is stored or finds its ring frozen; and KTU_TAIL_CMD maps the rings it reaches. -/
theorem tailRings : Obligations.TailRings := by
  unfold Obligations.TailRings
  exact ⟨fun s d w h hm he hu hc hp => ⟨tailEvent_waits h hm he hu hc hp, tailEvent_lost h hm he hu hc hp,
      tailEvent_stored h hm he hu hc hp, tailEvent_frozen h hm he hu hc hp⟩,
    fun s w first last h hr => ⟨tailFreeze_does h hr w first last, tailRelease_does h hr w first last,
      tailClear_does h hr w first last⟩⟩

end Sys2Proof.Machine
end

section
/-! SUPPORT. The trace sources (R181 to R186): a record that waits or is dropped, a generated record, and what each leaves alone. -/

namespace Sys2Proof.Machine

-- One theorem at a time: elaborated side by side, those of this text need more stacks than the check has memory for.
set_option Elab.async false

open Sys2Proof

/-! ### One source -/

section
variable (k : Ktu) (x : Nat)

theorem Ktu.withTrace_only (t : KTrace) : Ktu.only [.trace] k { k with trace := t } := by
  intro y hy
  cases y <;> simp [Ktu.same] at hy ⊢

@[simp] theorem Ktu.wakeCheck_src : k.wakeCheck.src x = k.src x := by rw [Ktu.src, Ktu.wakeCheck_trace, Ktu.src]

theorem Ktu.withErrHeld_trace (e : Bool) : ({ k with errHeld := e } : Ktu).trace = k.trace := rfl

theorem Ktu.withErrHeld_src (e : Bool) : ({ k with errHeld := e } : Ktu).src x = k.src x := rfl

@[simp] theorem Ktu.src_raise (f : Fld) (v i : Nat) : (k.raise f v i).src x = k.src x := by rw [Ktu.src, Ktu.raise_trace, Ktu.src]

variable (t : TraceSource)

@[simp] theorem Ktu.src_setSrc_same : (k.setSrc x t).src x = t := Tbl.get_set_same _ _ _ _

theorem Ktu.src_setSrc_ne {y : Nat} (h : y ≠ x) : (k.setSrc x t).src y = k.src y := Tbl.get_set_ne _ _ h _ _

end

/-! ### A record is dropped (R185) -/

section
variable (k : Ktu) (x prio time : Nat)

/-- A source with one more drop. -/
def TraceSource.dropped (t : TraceSource) (prio time : Nat) : TraceSource :=
  { t with drops := Tbl.set 0 prio (min (Tbl.get 0 prio t.drops + 1) 0xFFFF) t.drops,
           firstDrop := if t.drops.isEmpty then time else t.firstDrop }

theorem Ktu.dropRecord_eq : k.dropRecord x prio time =
    (k.setSrc x ((k.src x).dropped prio time)).count KReg.TRC_DROPs_drops 1 x := rfl

theorem Ktu.dropRecord_src : (k.dropRecord x prio time).src x = (k.src x).dropped prio time := k.src_setSrc_same x _

theorem Ktu.dropRecord_only : Ktu.only [.regs, .trace] k (k.dropRecord x prio time) :=
  Ktu.only_trans (Ktu.only_mono (k.setSrc_keeps x _).only (by decide)) (Ktu.only_mono (Ktu.only_regs _ _) (by decide))

theorem Ktu.dropRecord_count : (k.dropRecord x prio time).get KReg.TRC_DROPs_drops x =
    min (k.get KReg.TRC_DROPs_drops x + 1) (2 ^ 32 - 1) := Ktu.get_count_same _ KReg.TRC_DROPs_drops 1 x

end

/-- The count of a source's drops lies elsewhere than the overrun bits and the pending bits. -/
theorem trcDrops_key_ne (x : Fin 16) : KReg.TRC_DROPs_drops.key x.val ≠ KReg.QOVR_LO_ovr.key 0 ∧
    KReg.TRC_DROPs_drops.key x.val ≠ KReg.IRQ_PEND_pend.key 0 := by
  revert x
  decide

/-! ### A host record is sampled (R181, R185) -/

/-- A source after it has sampled a record: a context is remembered. -/
def TraceSource.seen (t : TraceSource) (c : Bool) (v : BitVec 64) : TraceSource := if c then { t with lastCtx := v } else t

section
variable (t : TraceSource) (c : Bool) (v : BitVec 64)

@[simp] theorem TraceSource.seen_queue : (t.seen c v).queue = t.queue := by cases c <;> rfl

theorem TraceSource.seen_lastCtx : (t.seen c v).lastCtx = if c then v else t.lastCtx := by cases c <;> rfl

end

section
variable {k : Ktu} {x : Fin 16} (he : k.srcEnabled x.val = true) (hg : k.pins.trcPgood.getLsbD x.val = true)
  (hu : k.srcUnmasked x.val = true) {v : BitVec 64} {p : Fin 4} {c : Bool}
include he hg hu

theorem Ktu.traceRecord_waits (hq : (k.src x.val).queue.length < 8) : k.traceRecord x v p c =
    k.setSrc x.val { (k.src x.val).seen c v with
      queue := (k.src x.val).queue ++ [⟨v, p, c, BitVec.ofNat 48 k.sampledNs⟩] } := by
  unfold Ktu.traceRecord
  simp only [he, hg, hu, not_true, or_self, if_false]
  rw [if_neg (by cases c <;> simpa using hq)]
  cases c <;> rfl

theorem Ktu.traceRecord_drops (hq : 8 ≤ (k.src x.val).queue.length) : k.traceRecord x v p false =
    ((k.setSrc x.val (k.src x.val)).dropRecord x.val p.val k.sampledNs).overrun (4 + x.val) := by
  unfold Ktu.traceRecord
  simp only [he, hg, hu, not_true, or_self, if_false]
  exact if_pos hq

end

/-! ### Generated records (R182, R183, R186) -/

theorem Ktu.tickNs_congr {a b : Ktu} (hr : b.regs = a.regs) (ht : b.time = a.time) : b.tickNs = a.tickNs := by
  have hs : b.source = a.source := by rw [Ktu.source, Ktu.bit_of_regs hr, Ktu.source]
  rw [Ktu.tickNs, Ktu.tickTime, hs, Ktu.tb_congr ht, ht, Ktu.tickNs, Ktu.tickTime]

/-- What a generated record is made of, beside its payload, turns on the registers and the clocks alone. -/
theorem genRecord_congr {a b : Ktu} (hr : b.regs = a.regs) (ht : b.time = a.time) (x type payload : Nat) :
    genRecord x type (b.srcOwner x) payload b.tickNs = genRecord x type (a.srcOwner x) payload a.tickNs := by
  rw [Ktu.tickNs_congr hr ht, Ktu.srcOwner, Ktu.get_of_regs hr, Ktu.srcOwner]

section
variable (k : Ktu) (x type payload : Nat)

theorem Ktu.generate_src : (k.generate x type payload).src x =
    { k.src x with gen := (k.src x).gen ++ [genRecord x type (k.srcOwner x) payload k.tickNs] } := k.src_setSrc_same x _

theorem Ktu.generate_src_ne {y : Nat} (h : y ≠ x) : (k.generate x type payload).src y = k.src y := k.src_setSrc_ne x _ h

theorem Ktu.generate_only : Ktu.only [.trace] k (k.generate x type payload) := (k.generate_keeps x type payload).only

theorem Ktu.generate_funnel : (k.generate x type payload).trace.funnel = k.trace.funnel := rfl

end

/-! ### A resync of every source (R183) -/

/-- A resync record of a source that is enabled. -/
def Ktu.resync (k : Ktu) (x : Nat) : Ktu := if k.srcEnabled x then k.generate x 4 (k.src x).lastCtx.toNat else k

/-- A source after a resync. -/
def Ktu.resynced (k : Ktu) (x : Nat) : TraceSource :=
  { k.src x with gen := (k.src x).gen ++ (if k.srcEnabled x = true then
    [genRecord x 4 (k.srcOwner x) (k.src x).lastCtx.toNat k.tickNs] else []) }

theorem Ktu.resyncAll_eq (k : Ktu) : k.resyncAll = (List.range 16).foldl Ktu.resync k := rfl

section
variable (k : Ktu)

theorem Ktu.resync_only (x : Nat) : Ktu.only [.trace] k (k.resync x) := by
  unfold Ktu.resync
  split
  · exact k.generate_only _ _ _
  · exact k.only_refl _

theorem Ktu.resync_src (x : Nat) : (k.resync x).src x = k.resynced x := by
  unfold Ktu.resync Ktu.resynced
  split
  · exact k.generate_src _ _ _
  · rw [List.append_nil]

theorem Ktu.resync_src_ne {x y : Nat} (h : y ≠ x) : (k.resync x).src y = k.src y := by
  unfold Ktu.resync
  split
  · exact k.generate_src_ne _ _ _ h
  · rfl

theorem Ktu.resync_funnel (x : Nat) : (k.resync x).trace.funnel = k.trace.funnel := by
  unfold Ktu.resync
  split <;> rfl

theorem Ktu.resynced_congr {a b : Ktu} (h : Ktu.only [.trace] a b) {x : Nat} (hs : b.src x = a.src x) :
    b.resynced x = a.resynced x := by
  have hr : b.regs = a.regs := h .regs (by decide)
  rw [Ktu.resynced, genRecord_congr hr (h .time (by decide)), Ktu.srcEnabled, Ktu.bit_of_regs hr, hs, Ktu.resynced, Ktu.srcEnabled]

theorem Ktu.resyncAll_only : Ktu.only [.trace] k k.resyncAll :=
  List.foldlRecOn (List.range 16) Ktu.resync (motive := Ktu.only [.trace] k) (k.only_refl _)
    fun m hm x _ => Ktu.only_trans hm (m.resync_only x)

theorem Ktu.resyncAll_funnel : k.resyncAll.trace.funnel = k.trace.funnel := by
  rw [Ktu.resyncAll_eq]
  exact List.foldlRecOn (List.range 16) Ktu.resync (motive := fun m => m.trace.funnel = k.trace.funnel) rfl
    fun m hm x _ => (m.resync_funnel x).trans hm

/-- R183: every source is resynced, by what the KTU held before. -/
theorem Ktu.resyncAll_src {x : Nat} (hx : x < 16) : k.resyncAll.src x = k.resynced x := by
  rw [Ktu.resyncAll_eq]
  refine foldl_once (f := Ktu.resync) (P := fun m => Ktu.only [.trace] k m ∧ m.src x = k.src x)
    (Q := fun m => m.src x = k.resynced x) List.nodup_range (List.mem_range.2 hx) ?_ ?_ ?_ ⟨k.only_refl _, rfl⟩
  · rintro m y - hy ⟨hm, hs⟩
    exact ⟨Ktu.only_trans hm (m.resync_only y), (m.resync_src_ne hy.symm).trans hs⟩
  · rintro m ⟨hm, hs⟩
    exact (m.resync_src x).trans (Ktu.resynced_congr hm hs)
  · intro m y _ hy hs
    exact (m.resync_src_ne hy.symm).trans hs

end

/-! ### The power of a source (R183) -/

section
variable (k : Ktu) (x cause : Nat)

theorem Ktu.statePayload_parts : k.statePayload x cause / 4 = cause ∧
    bitOf (k.statePayload x cause) 1 = k.pins.trcPgood.getLsbD x := by
  have hlow : (if k.srcUnmasked x then 1 else 0) ≤ 1 := by split <;> omega
  unfold Ktu.statePayload bitOf
  generalize (if k.srcUnmasked x then 1 else 0) = b at hlow ⊢
  cases k.pins.trcPgood.getLsbD x
  · refine ⟨by simp only [Bool.false_eq_true, if_false]; omega, ?_⟩
    rw [beq_eq_false_iff_ne]
    simp only [Bool.false_eq_true, if_false]
    omega
  · refine ⟨by simp only [if_true]; omega, ?_⟩
    rw [beq_iff_eq]
    simp only [if_true]
    omega

/-- The pins after a change of a source's power. -/
def KPins.sourcePower (p : KPins) (x : Fin 16) (v : Bool) : KPins :=
  { p with trcPgood := if v then p.trcPgood ||| BitVec.ofNat 16 (2 ^ x.val) else p.trcPgood &&& ~~~BitVec.ofNat 16 (2 ^ x.val) }

theorem KPins.sourcePower_same (p : KPins) (x : Fin 16) (v : Bool) : (p.sourcePower x v).trcPgood.getLsbD x.val = v := by
  cases v
  · exact getLsbD_lowered _ x
  · exact getLsbD_raised _ x

theorem KPins.sourcePower_other (p : KPins) {x y : Fin 16} (h : y ≠ x) (v : Bool) :
    (p.sourcePower x v).trcPgood.getLsbD y.val = p.trcPgood.getLsbD y.val := by
  cases v
  · exact getLsbD_lowered_other _ h
  · exact getLsbD_raised_other _ h

theorem Ktu.trcPgood_changes {k : Ktu} {x : Fin 16} {v : Bool} (h : k.pins.trcPgood.getLsbD x.val ≠ v) :
    k.trcPgood x v = ({ k with pins := k.pins.sourcePower x v } : Ktu).generate x.val 5
      (({ k with pins := k.pins.sourcePower x v } : Ktu).statePayload x.val 2) := if_neg h

end

end Sys2Proof.Machine
end

section
/-! SUPPORT. The funnel's arbiter with one source that offers a record (R184 to R186), and the statement on the funnel. -/

namespace Sys2Proof.Machine

-- One theorem at a time: elaborated side by side, those of this text need more stacks than the check has memory for.
set_option Elab.async false

open Sys2Proof

/-! ### Admission -/

section
variable {k : Ktu} {x : Fin 16} {t : TraceItem} {l : List TraceItem}

/-- What the funnel holds of a host record. -/
def Ktu.hostRec (k : Ktu) (x : Fin 16) (t : TraceItem) : TraceRec :=
  ⟨t.payload, x, t.prio, 0, BitVec.ofNat 5 (k.srcOwner x.val), t.time⟩

/-- R184: a host record below its threshold enters the funnel, where no drop of its source is pending. -/
theorem Ktu.admitHost_enters (hd : (k.src x.val).drops = []) (hc : t.ctx = false) (ht : k.trace.funnel.length < k.funnelThr t.prio) :
    k.admitHost x.val t l = (k.setSrc x.val { k.src x.val with queue := l }).funnelPut (k.hostRec x t) := by
  have hmark : (k.setSrc x.val { k.src x.val with queue := l }).markerFirst x.val =
      k.setSrc x.val { k.src x.val with queue := l } := by
    simp [Ktu.markerFirst, hd]
  have hthr : (k.setSrc x.val { k.src x.val with queue := l }).trace.funnel.length <
      (k.setSrc x.val { k.src x.val with queue := l }).funnelThr t.prio := ht
  have hsource : Fin.ofNat 16 x.val = x := Fin.ofNat_val_eq_self x
  unfold Ktu.admitHost
  simp only [hc, Bool.false_eq_true, if_false]
  rw [if_pos hthr, hmark, hsource]
  rfl

/-- R184, R186: an edge of the arbiter at which one source offers a host record. -/
theorem Ktu.funnelAdmit_single (he : k.bit KReg.TRC_CTRL_enable = true) (hr : k.trace.resyncDue = false)
    (hu : k.srcUnmasked x.val = true) (ho : ∀ y : Fin 16, y ≠ x → (k.src y.val).queue = [] ∧ (k.src y.val).gen = [])
    (hq : (k.src x.val).queue = t :: l) (hg : (k.src x.val).gen = []) :
    ∃ rr, k.funnelAdmit = Ktu.admitHost { k with trace := { k.trace with rr := rr } } x.val t l := by
  have hoffer : k.srcOffers x.val = true := by simp [Ktu.srcOffers, hq, hu]
  have hother : ∀ y < 16, y ≠ x.val → k.srcOffers y = false := by
    intro y hy hne
    obtain ⟨hqueue, hgen⟩ := ho ⟨y, hy⟩ fun h => hne (congrArg Fin.val h)
    simp only at hqueue hgen
    simp [Ktu.srcOffers, hqueue, hgen]
  obtain ⟨rr, hrr⟩ := arbitrate_single x.isLt hoffer hother k.srcPrio k.trace.rr
  refine ⟨rr, ?_⟩
  have hgen : (({ k with trace := { k.trace with rr := rr } } : Ktu).src x.val).gen = [] := hg
  have hqueue : (({ k with trace := { k.trace with rr := rr } } : Ktu).src x.val).queue = t :: l := hq
  unfold Ktu.funnelAdmit
  rw [if_neg (by simp [he]), if_neg (by simp [hr])]
  simp only [hrr, hgen, hqueue]

end

/-! ### The resync command (R203) -/

theorem wordFields_trcCmd : wordFields 0x9090 = [(KReg.TRC_CMD_resync, 0)] := by decide +kernel

theorem trcCmd_unstored : ∀ x ∈ wordFields 0x9090, x.1.unstored = true := by
  rw [wordFields_trcCmd]
  decide

theorem Ktu.writeCmd_resync (k : Ktu) : k.writeCmd fleet 0x9090 1 = k.resyncAll := rfl

/-! ### The commands -/

section
variable {s : State} (h : s.ktu.runs)
include h

section
variable {x : Fin 16} (he : s.ktu.srcEnabled x.val = true) (hg : s.ktu.pins.trcPgood.getLsbD x.val = true)
  (hu : s.ktu.srcUnmasked x.val = true) (v : BitVec 64) (p : Fin 4)
include he hg hu

theorem traceRecord_waits_does (c : Bool) (hq : (s.ktu.src x.val).queue.length < 8) : KtuDoes (.traceRecord x v p c) s fun k =>
    (k.src x.val).queue = (s.ktu.src x.val).queue ++ [⟨v, p, c, BitVec.ofNat 48 s.ktu.sampledNs⟩] ∧
    (c = true → (k.src x.val).lastCtx = v) ∧ (c = false → (k.src x.val).lastCtx = (s.ktu.src x.val).lastCtx) ∧
    (∀ y, y ≠ x.val → k.src y = s.ktu.src y) ∧ k.trace.funnel = s.ktu.trace.funnel ∧ Ktu.only [.trace] s.ktu k := by
  refine .of_onKtu (fun k => k.traceRecord x v p c) rfl h ?_
  rw [Ktu.traceRecord_waits he hg hu hq, Ktu.wakeCheck_src, Ktu.src_setSrc_same, Ktu.wakeCheck_trace, Ktu.only_wakeCheck]
  refine ⟨rfl, fun hc => ?_, fun hc => ?_, fun y hy => ?_, rfl, (s.ktu.setSrc_keeps _ _).only⟩
  · exact (TraceSource.seen_lastCtx _ c v).trans (if_pos hc)
  · exact (TraceSource.seen_lastCtx _ c v).trans (if_neg (by simp [hc]))
  · rw [Ktu.wakeCheck_src, Ktu.src_setSrc_ne _ _ _ hy]

theorem traceRecord_drops_does {c : Bool} (hq : 8 ≤ (s.ktu.src x.val).queue.length) (hc : c = false) :
    KtuDoes (.traceRecord x v p c) s fun k =>
      (k.src x.val).queue = (s.ktu.src x.val).queue ∧
      Tbl.get 0 p.val (k.src x.val).drops = min (Tbl.get 0 p.val (s.ktu.src x.val).drops + 1) 0xFFFF ∧
      ((s.ktu.src x.val).drops = [] → (k.src x.val).firstDrop = s.ktu.sampledNs) ∧
      bitOf (k.get KReg.QOVR_LO_ovr) (4 + x.val) = true ∧
      k.get KReg.TRC_DROPs_drops x.val = min (s.ktu.get KReg.TRC_DROPs_drops x.val + 1) (2 ^ 32 - 1) ∧
      Ktu.only [.regs, .trace] s.ktu k := by
  subst hc
  refine .of_onKtu (fun k => k.traceRecord x v p false) rfl h ?_
  have hid : 4 + x.val < 32 := by omega
  obtain ⟨hlow, hpend⟩ := trcDrops_key_ne x
  rw [Ktu.traceRecord_drops he hg hu hq]
  generalize hm : (s.ktu.setSrc x.val (s.ktu.src x.val)).dropRecord x.val p.val s.ktu.sampledNs = m
  have hsrc : m.src x.val = (s.ktu.src x.val).dropped p.val s.ktu.sampledNs := by
    rw [← hm, Ktu.dropRecord_src, Ktu.src_setSrc_same]
  have hcount : m.get KReg.TRC_DROPs_drops x.val = min (s.ktu.get KReg.TRC_DROPs_drops x.val + 1) (2 ^ 32 - 1) := by
    rw [← hm, Ktu.dropRecord_count]
    rfl
  have honly : Ktu.only [.regs, .trace] s.ktu m := by
    rw [← hm]
    exact Ktu.only_trans (Ktu.only_mono (s.ktu.setSrc_keeps _ _).only (by decide)) (Ktu.dropRecord_only _ _ _ _)
  have hover : (m.overrun (4 + x.val)).src x.val = m.src x.val := by rw [m.overrun_low hid, Ktu.src_raise]
  rw [Ktu.wakeCheck_src, Ktu.wakeCheck_get, Ktu.wakeCheck_get, Ktu.only_wakeCheck, hover, hsrc, m.overrun_get_ne hid hlow hpend, hcount]
  refine ⟨rfl, Tbl.get_set_same _ _ _ _, fun hd => ?_, m.overrun_bit hid, rfl, ?_⟩
  · simp [TraceSource.dropped, hd]
  · rw [m.overrun_low hid]
    exact Ktu.only_trans honly (Ktu.only_mono (m.raise_only_regs _ _ 0) (by decide))

end

theorem traceFunnelAdmit_does {x : Fin 16} {t : TraceItem} {l : List TraceItem} (he : s.ktu.bit KReg.TRC_CTRL_enable = true)
    (hr : s.ktu.trace.resyncDue = false) (hx : s.ktu.src x.val = { s.ktu.src x.val with queue := t :: l, gen := [], drops := [] })
    (hu : s.ktu.srcUnmasked x.val = true)
    (ho : ∀ y : Fin 16, y ≠ x → (s.ktu.src y.val).queue = [] ∧ (s.ktu.src y.val).gen = [])
    (hc : t.ctx = false) (ht : s.ktu.trace.funnel.length < s.ktu.funnelThr t.prio) : KtuDoes .traceFunnelAdmit s fun k =>
      k.trace.funnel = s.ktu.trace.funnel ++ [⟨t.payload, x, t.prio, 0, BitVec.ofNat 5 (s.ktu.srcOwner x.val), t.time⟩] ∧
      (k.src x.val).queue = l ∧ (∀ y, y ≠ x.val → k.src y = s.ktu.src y) ∧ Ktu.only [.trace] s.ktu k := by
  refine .of_onKtu Ktu.funnelAdmit rfl h ?_
  obtain ⟨rr, hrr⟩ := Ktu.funnelAdmit_single he hr hu ho (congrArg TraceSource.queue hx) (congrArg TraceSource.gen hx)
  have hdrops : (s.ktu.src x.val).drops = [] := congrArg TraceSource.drops hx
  generalize hm : ({ s.ktu with trace := { s.ktu.trace with rr := rr } } : Ktu) = m at hrr
  have hsrc (y : Nat) : m.src y = s.ktu.src y := by subst hm; rfl
  have hfunnel : m.trace.funnel = s.ktu.trace.funnel := by subst hm; rfl
  have honly : Ktu.only [.trace] s.ktu m := by subst hm; exact s.ktu.withTrace_only _
  have howner : m.srcOwner x.val = s.ktu.srcOwner x.val := by subst hm; rfl
  have hthr : m.trace.funnel.length < m.funnelThr t.prio := by subst hm; exact ht
  rw [hrr, Ktu.admitHost_enters (by rw [hsrc, hdrops]) hc hthr, Ktu.wakeCheck_trace, Ktu.wakeCheck_src, Ktu.only_wakeCheck]
  refine ⟨?_, ?_, fun y hy => ?_, ?_⟩
  · rw [← howner, ← hfunnel]
    rfl
  · exact congrArg TraceSource.queue (m.src_setSrc_same x.val _)
  · rw [Ktu.wakeCheck_src, ← hsrc]
    exact m.src_setSrc_ne x.val _ hy
  · exact Ktu.only_trans honly (Ktu.only_trans (m.setSrc_keeps _ _).only (Ktu.withTrace_only _ _))

theorem traceResyncTimer_does : KtuDoes .traceResyncTimer s fun k =>
    (∀ y : Fin 16, (k.src y.val).gen = (s.ktu.src y.val).gen ++ (if s.ktu.srcEnabled y.val = true then
      [genRecord y.val 4 (s.ktu.srcOwner y.val) (s.ktu.src y.val).lastCtx.toNat s.ktu.tickNs] else [])) ∧
    (∀ y : Fin 16, (k.src y.val).queue = (s.ktu.src y.val).queue) ∧ k.trace.funnel = s.ktu.trace.funnel ∧
    Ktu.only [.trace] s.ktu k := by
  refine .of_onKtu Ktu.resyncAll rfl h ?_
  rw [Ktu.wakeCheck_trace, Ktu.only_wakeCheck]
  refine ⟨fun y => ?_, fun y => ?_, s.ktu.resyncAll_funnel, s.ktu.resyncAll_only⟩ <;>
    rw [Ktu.wakeCheck_src, s.ktu.resyncAll_src y.isLt, Ktu.resynced]

theorem traceResyncCmd_does {w : Writer} (hr : s.ktu.pins.ready = true) (ho : ownerOf w = fleet) :
    KtuDoes (.traceResyncCmd w) s fun k =>
      (∀ y : Fin 16, (k.src y.val).gen = (s.ktu.src y.val).gen ++ (if s.ktu.srcEnabled y.val = true then
        [genRecord y.val 4 (s.ktu.srcOwner y.val) (s.ktu.src y.val).lastCtx.toNat s.ktu.tickNs] else [])) ∧
      k.trace.funnel = s.ktu.trace.funnel ∧ Ktu.only [.trace, .rest] s.ktu k := by
  refine .of_commands (v := 1) rfl h hr trcCmd_unstored (Ktu.mayWrite_fleet ho) (ho ▸ s.ktu.writeCmd_resync) fun e =>
    ⟨fun y => ?_, ?_, ?_⟩
  · rw [Ktu.wakeCheck_src, Ktu.withErrHeld_src, s.ktu.resyncAll_src y.isLt, Ktu.resynced]
  · rw [Ktu.wakeCheck_trace, Ktu.withErrHeld_trace, s.ktu.resyncAll_funnel]
  · exact Ktu.only_commands e (by decide) (Ktu.only_mono s.ktu.resyncAll_only (by decide))

theorem trcSrcPgoodChange_does {x : Fin 16} {v : Bool} (hv : s.ktu.pins.trcPgood.getLsbD x.val ≠ v) :
    KtuDoes (.trcSrcPgoodChange x v) s fun k =>
      k.pins.trcPgood.getLsbD x.val = v ∧ (∀ y : Fin 16, y ≠ x → k.pins.trcPgood.getLsbD y.val = s.ktu.pins.trcPgood.getLsbD y.val) ∧
      (∃ p, (k.src x.val).gen = (s.ktu.src x.val).gen ++ [genRecord x.val 5 (s.ktu.srcOwner x.val) p s.ktu.tickNs] ∧
        p / 4 = 2 ∧ bitOf p 1 = v) ∧
      (∀ y, y ≠ x.val → k.src y = s.ktu.src y) ∧ Ktu.only [.pins, .trace] s.ktu k := by
  refine .of_onKtu (fun k => k.trcPgood x v) rfl h ?_
  rw [Ktu.trcPgood_changes hv]
  generalize hm : ({ s.ktu with pins := s.ktu.pins.sourcePower x v } : Ktu) = m
  have hsrc (y : Nat) : m.src y = s.ktu.src y := by subst hm; rfl
  have hpins : m.pins = s.ktu.pins.sourcePower x v := by subst hm; rfl
  have honly : Ktu.only [.pins] s.ktu m := by subst hm; exact s.ktu.withPins_only _
  have hrec : genRecord x.val 5 (m.srcOwner x.val) (m.statePayload x.val 2) m.tickNs =
      genRecord x.val 5 (s.ktu.srcOwner x.val) (m.statePayload x.val 2) s.ktu.tickNs := by
    refine genRecord_congr ?_ ?_ _ _ _ <;> subst hm <;> rfl
  obtain ⟨hcause, hpower⟩ := m.statePayload_parts x.val 2
  have hgpins : (m.generate x.val 5 (m.statePayload x.val 2)).pins = s.ktu.pins.sourcePower x v := hpins
  rw [Ktu.wakeCheck_pins_trcPgood, hgpins, Ktu.wakeCheck_src, Ktu.generate_src, hrec, hsrc, Ktu.only_wakeCheck]
  refine ⟨s.ktu.pins.sourcePower_same x v, fun y hy => s.ktu.pins.sourcePower_other hy v, ⟨_, rfl, hcause, ?_⟩, fun y hy => ?_, ?_⟩
  · rw [hpower, hpins, KPins.sourcePower_same]
  · rw [Ktu.wakeCheck_src, Ktu.generate_src_ne _ _ _ _ hy, hsrc]
  · exact Ktu.only_trans (Ktu.only_mono honly (by decide)) (Ktu.only_mono (m.generate_only _ _ _) (by decide))

end

/-- Settles O10: a record waits or is dropped, the arbiter admits it, and the generated records are queued ahead. -/
theorem traceFunnel : Obligations.TraceFunnel := by
  unfold Obligations.TraceFunnel
  exact ⟨fun s x v p c h he hg hu => ⟨traceRecord_waits_does h he hg hu v p c, traceRecord_drops_does h he hg hu v p⟩,
    fun s x t l h he hr hx hu ho hc ht => traceFunnelAdmit_does h he hr hx hu ho hc ht, fun s h => traceResyncTimer_does h,
    fun s w h hr ho => traceResyncCmd_does h hr ho, fun s x v h hv => trcSrcPgoodChange_does h hv⟩

end Sys2Proof.Machine
end

section
/-! SUPPORT. Uncorrectable errors of a Tail ring, of the funnel buffer and of a counter (R162, R180, R189). -/

namespace Sys2Proof.Machine

-- One theorem at a time: elaborated side by side, those of this text need more stacks than the check has memory for.
set_option Elab.async false

open Sys2Proof

/-! ### A Tail ring (R180) -/

section
variable (k : Ktu) (u : Nat)

@[simp] theorem Ktu.raise_ring (f : Fld) (v i : Nat) : (k.raise f v i).ring u = k.ring u := by rw [Ktu.ring, Ktu.raise_tail, Ktu.ring]

/-- A ring after an uncorrectable error in a record, or in its header. -/
def TailRing.damaged (r : TailRing) : Option (Fin 32) → TailRing
  | some i => { r with ue := true, recs := Tbl.erase i.val r.recs }
  | none => { ue := true }

variable (slot : Option (Fin 32))

theorem Ktu.tailUe_eq : k.tailUe u slot = (k.setRing u ((k.ring u).damaged slot)).raise KReg.TAIL_STATUS_ecc_ue := by
  cases slot <;> rfl

theorem Ktu.tailUe_same : (k.tailUe u slot).ring u = (k.ring u).damaged slot := by
  rw [Ktu.tailUe_eq, Ktu.raise_ring, Ktu.setRing_same]

theorem Ktu.tailUe_other {v : Nat} (h : v ≠ u) : (k.tailUe u slot).ring v = k.ring v := by
  rw [Ktu.tailUe_eq, Ktu.raise_ring, Ktu.setRing_other _ _ _ h]

theorem Ktu.tailUe_flag : (k.tailUe u slot).get KReg.TAIL_STATUS_ecc_ue % 2 = 1 := by
  rw [Ktu.tailUe_eq]
  exact Ktu.get_raise_odd _ (by decide)

theorem Ktu.tailUe_only : Ktu.only [.regs, .tail] k (k.tailUe u slot) := by
  rw [Ktu.tailUe_eq]
  exact Ktu.only_trans (Ktu.only_mono (k.setRing_keeps u _).only (by decide)) (Ktu.only_mono (Ktu.raise_only_regs _ _ _ _) (by decide))

theorem Ktu.tailUe_regsOnly : Ktu.regsOnly [(KReg.TAIL_STATUS_ecc_ue, 0), (KReg.IRQ_PEND_pend, 0)] k (k.tailUe u slot) := by
  rw [Ktu.tailUe_eq]
  exact Ktu.regsOnly_raise_of KReg.TAIL_STATUS_ecc_ue 1 0 rfl

end

/-! ### A context is lost (R185) -/

/-- The flag of a lost context, and the pending bits. -/
def ctxLostFields : List (Fld × Nat) := [(KReg.TRC_STATUS_ctx_lost, 0), (KReg.IRQ_PEND_pend, 0)]

section
variable (k : Ktu)

theorem Ktu.ctxLost_trace : k.ctxLost.trace = { k.trace with resyncDue := true } := by rw [Ktu.ctxLost, Ktu.raise_trace]

theorem Ktu.ctxLost_flag : k.ctxLost.get KReg.TRC_STATUS_ctx_lost % 2 = 1 := Ktu.get_raise_odd _ (by decide)

theorem Ktu.ctxLost_only : Ktu.only [.regs, .trace] k k.ctxLost :=
  Ktu.only_trans (Ktu.only_mono (k.withTrace_only _) (by decide)) (Ktu.only_mono (Ktu.raise_only_regs _ _ _ _) (by decide))

theorem Ktu.ctxLost_regsOnly : Ktu.regsOnly ctxLostFields k k.ctxLost :=
  Ktu.regsOnly_raise_of KReg.TRC_STATUS_ctx_lost 1 0 rfl

end

/-! ### The funnel buffer (R189) -/

section
variable (k : Ktu) (i : Nat)

/-- The funnel without the record that is hit, and the error reported. -/
def Ktu.funnelHit (k : Ktu) (i : Nat) : Ktu :=
  ({ k with trace := { k.trace with funnel := k.trace.funnel.eraseIdx i } } : Ktu).raise KReg.TRC_STATUS_ecc_ue

theorem Ktu.funnelUe_eq : k.funnelUe i = (k.funnelHit i).ctxLost := rfl

theorem Ktu.funnelUe_trace : (k.funnelUe i).trace = { k.trace with funnel := k.trace.funnel.eraseIdx i, resyncDue := true } := by
  rw [Ktu.funnelUe_eq, Ktu.ctxLost_trace, Ktu.funnelHit, Ktu.raise_trace]

theorem Ktu.funnelUe_flag : (k.funnelUe i).get KReg.TRC_STATUS_ecc_ue % 2 = 1 := by
  rw [Ktu.funnelUe_eq, (k.funnelHit i).ctxLost_regsOnly _ _ (by decide)]
  exact Ktu.get_raise_odd _ (by decide)

theorem Ktu.funnelUe_only : Ktu.only [.regs, .trace] k (k.funnelUe i) :=
  Ktu.only_trans (Ktu.only_trans (Ktu.only_mono (k.withTrace_only _) (by decide))
    (Ktu.only_mono (Ktu.raise_only_regs _ _ _ _) (by decide))) (k.funnelHit i).ctxLost_only

theorem Ktu.funnelUe_regsOnly : Ktu.regsOnly
    [(KReg.TRC_STATUS_ecc_ue, 0), (KReg.TRC_STATUS_ctx_lost, 0), (KReg.IRQ_PEND_pend, 0)] k (k.funnelUe i) := by
  rw [Ktu.funnelUe_eq]
  have hhit : Ktu.regsOnly [(KReg.TRC_STATUS_ecc_ue, 0), (KReg.IRQ_PEND_pend, 0)] k (k.funnelHit i) :=
    Ktu.regsOnly_raise_of KReg.TRC_STATUS_ecc_ue 1 0 rfl
  exact Ktu.regsOnly_step (Ktu.regsOnly_step (k.regsOnly_refl _) hhit) (k.funnelHit i).ctxLost_regsOnly

end

/-! ### A counter (R162) -/

/-- The counters after an uncorrectable error of one: it and the bases it feeds read zero, and its series are poisoned. -/
def Ktu.counterHit (k : Ktu) (id : Nat) : KCounters :=
  { k.cnt with
    cnt := Tbl.erase id k.cnt.cnt,
    base := k.cnt.base.filter (fun p => !(k.seriesOf id).contains p.1),
    rem := k.cnt.rem.filter (fun p => !(k.seriesOf id).contains p.1),
    poisoned := k.cnt.poisoned ++ (k.seriesOf id).filter (fun s => !k.cnt.poisoned.contains s) }

/-- The first source of a counter error is kept. -/
def Ktu.counterBlame (k : Ktu) (id : Nat) : Ktu :=
  if !k.bit KReg.CNT_STATUS_ecc_ue then
    (k.put KReg.CNT_ERRSRC_class (counterSource id).1).put KReg.CNT_ERRSRC_source (counterSource id).2 else k

theorem counterSource_lt (c : CounterRef) : (counterSource (counterId c)).1 < 4 ∧ (counterSource (counterId c)).2 < 2 ^ 14 := by
  have hrange : counterId c < 0x5000 ∨ (0x8000 ≤ counterId c ∧ counterId c < 0xC000) := by
    cases c <;> simp only [counterId, cntU, cntE, cntPmu, cntSlot] <;> omega
  unfold counterSource
  split_ifs <;> dsimp only <;> omega

section
variable (k : Ktu) (id : Nat)

theorem Ktu.counterUe_eq : k.counterUe id =
    (({ k with cnt := k.counterHit id } : Ktu).counterBlame id).raise KReg.CNT_STATUS_ecc_ue := rfl

theorem Ktu.counterBlame_eq : ∃ r, k.counterBlame id = { k with regs := r } := by
  unfold Ktu.counterBlame
  split
  · exact ⟨_, rfl⟩
  · exact ⟨k.regs, rfl⟩

theorem Ktu.counterBlame_first (h : k.bit KReg.CNT_STATUS_ecc_ue = false) : k.counterBlame id =
    (k.put KReg.CNT_ERRSRC_class (counterSource id).1).put KReg.CNT_ERRSRC_source (counterSource id).2 := by
  rw [Ktu.counterBlame, h]
  rfl

theorem Ktu.counterBlame_kept (h : k.bit KReg.CNT_STATUS_ecc_ue = true) : k.counterBlame id = k := by
  rw [Ktu.counterBlame, h]
  rfl

theorem Ktu.counterUe_cnt : (k.counterUe id).cnt = k.counterHit id := by
  obtain ⟨r, hr⟩ := Ktu.counterBlame_eq { k with cnt := k.counterHit id } id
  rw [Ktu.counterUe_eq, Ktu.raise_cnt, hr]

theorem Ktu.counterUe_only : Ktu.only [.regs, .counters] k (k.counterUe id) := by
  obtain ⟨r, hr⟩ := Ktu.counterBlame_eq { k with cnt := k.counterHit id } id
  rw [Ktu.counterUe_eq, hr]
  exact Ktu.only_trans (Ktu.only_trans (Ktu.only_mono (k.withCnt_keeps _).only (by decide))
    (Ktu.only_mono (Ktu.only_regs _ r) (by decide))) (Ktu.only_mono (Ktu.raise_only_regs _ _ _ _) (by decide))

theorem Ktu.counterHit_base {x : Nat} (hx : x ∈ k.seriesOf id) : Tbl.get 0 x (k.counterHit id).base = 0 := by
  refine (Tbl.get_filter_key 0 x (fun j => !(k.seriesOf id).contains j) k.cnt.base).trans (if_neg ?_)
  simp [hx]

theorem Ktu.counterHit_poisoned {x : Nat} (hx : x ∈ k.seriesOf id) : x ∈ (k.counterHit id).poisoned := by
  by_cases hp : x ∈ k.cnt.poisoned <;> simp [Ktu.counterHit, hp, hx]

/-- A field that is not the error flag reads as the blame leaves it. -/
theorem Ktu.counterUe_get {f : Fld} (hf : f ∈ [KReg.CNT_ERRSRC_class, KReg.CNT_ERRSRC_source]) :
    (k.counterUe id).get f = (k.counterBlame id).get f := by
  have hkeys : ∀ f ∈ [KReg.CNT_ERRSRC_class, KReg.CNT_ERRSRC_source],
      f.key 0 ≠ KReg.CNT_STATUS_ecc_ue.key 0 ∧ f.key 0 ≠ KReg.IRQ_PEND_pend.key 0 := by decide
  obtain ⟨hflag, hpend⟩ := hkeys f hf
  rw [Ktu.counterUe_eq, Ktu.get_raise_ne _ _ _ _ _ _ hflag hpend]
  unfold Ktu.counterBlame
  cases hb : k.bit KReg.CNT_STATUS_ecc_ue <;> simp only [Ktu.bit, Ktu.get] at hb ⊢ <;> simp only [hb] <;> rfl

end

/-! ### The error commands on a runnable KTU -/

section
variable {s : State} (hr : s.ktu.runs)
include hr

theorem tailEccUe_damages {P : Ktu → Prop} (u : Fin 2048) (slot : Option (Fin 32))
    (hP : P (s.ktu.tailUe u.val slot).wakeCheck) : KtuDoes (.tailEccUe u slot) s P :=
  .of_onKtu (fun k => k.tailUe u.val slot) rfl hr hP

theorem tailEccUe_record (u : Fin 2048) (i : Fin 32) : KtuDoes (.tailEccUe u (some i)) s fun k =>
    (k.ring u.val).ue = true ∧ Tbl.get 0 i.val (k.ring u.val).recs = 0 ∧
    (∀ j, j ≠ i.val → Tbl.get 0 j (k.ring u.val).recs = Tbl.get 0 j (s.ktu.ring u.val).recs) ∧
    (k.ring u.val).count = (s.ktu.ring u.val).count ∧ (k.ring u.val).next = (s.ktu.ring u.val).next ∧
    (∀ v, v ≠ u.val → k.ring v = s.ktu.ring v) ∧ k.get KReg.TAIL_STATUS_ecc_ue % 2 = 1 ∧
    Ktu.only [.regs, .tail] s.ktu k ∧ Ktu.regsOnly [(KReg.TAIL_STATUS_ecc_ue, 0), (KReg.IRQ_PEND_pend, 0)] s.ktu k := by
  refine tailEccUe_damages hr u (some i) ?_
  simp only [Ktu.wakeCheck_ring, Ktu.wakeCheck_get, Ktu.only_wakeCheck, Ktu.regsOnly_congr (Ktu.wakeCheck_regs _), Ktu.tailUe_same,
    TailRing.damaged]
  exact ⟨trivial, Tbl.get_erase_same _ _ _, fun j hj => Tbl.get_erase_ne _ hj _, trivial, trivial,
    fun v hv => s.ktu.tailUe_other _ _ hv, s.ktu.tailUe_flag _ _, s.ktu.tailUe_only _ _, s.ktu.tailUe_regsOnly _ _⟩

theorem tailEccUe_header (u : Fin 2048) : KtuDoes (.tailEccUe u none) s fun k =>
    (k.ring u.val).ue = true ∧ (k.ring u.val).count = 0 ∧ (k.ring u.val).records = [] ∧ (k.ring u.val).wrapped = false ∧
    (∀ v, v ≠ u.val → k.ring v = s.ktu.ring v) ∧ k.get KReg.TAIL_STATUS_ecc_ue % 2 = 1 ∧ Ktu.only [.regs, .tail] s.ktu k := by
  refine tailEccUe_damages hr u none ?_
  simp only [Ktu.wakeCheck_ring, Ktu.wakeCheck_get, Ktu.only_wakeCheck, Ktu.tailUe_same, TailRing.damaged]
  exact ⟨trivial, trivial, rfl, trivial, fun v hv => s.ktu.tailUe_other _ _ hv, s.ktu.tailUe_flag _ _, s.ktu.tailUe_only _ _⟩

theorem funnelEccUe_drops (i : Fin 4096) : KtuDoes (.funnelEccUe i) s fun k =>
    k.trace.funnel = s.ktu.trace.funnel.eraseIdx i.val ∧ k.get KReg.TRC_STATUS_ecc_ue % 2 = 1 ∧
    k.get KReg.TRC_STATUS_ctx_lost % 2 = 1 ∧ k.trace.resyncDue = true ∧ k.trace.srcs = s.ktu.trace.srcs ∧
    Ktu.only [.regs, .trace] s.ktu k ∧
    Ktu.regsOnly [(KReg.TRC_STATUS_ecc_ue, 0), (KReg.TRC_STATUS_ctx_lost, 0), (KReg.IRQ_PEND_pend, 0)] s.ktu k := by
  refine .of_onKtu (fun k => k.funnelUe i.val) rfl hr ?_
  simp only [Ktu.wakeCheck_trace, Ktu.wakeCheck_get, Ktu.only_wakeCheck, Ktu.regsOnly_congr (Ktu.wakeCheck_regs _), Ktu.funnelUe_trace]
  exact ⟨trivial, s.ktu.funnelUe_flag _, Ktu.ctxLost_flag _, trivial, trivial, s.ktu.funnelUe_only _, s.ktu.funnelUe_regsOnly _⟩

theorem counterEccUe_poisons (c : CounterRef) : KtuDoes (.counterEccUe c) s fun k =>
    k.cntOf (counterId c) = 0 ∧ (∀ i, i ≠ counterId c → k.cntOf i = s.ktu.cntOf i) ∧
    (∀ x ∈ s.ktu.seriesOf (counterId c), Tbl.get 0 x k.cnt.base = 0 ∧ x ∈ k.cnt.poisoned) ∧
    k.get KReg.CNT_STATUS_ecc_ue % 2 = 1 ∧
    (s.ktu.bit KReg.CNT_STATUS_ecc_ue = false →
      (k.get KReg.CNT_ERRSRC_class, k.get KReg.CNT_ERRSRC_source) = counterSource (counterId c)) ∧
    (s.ktu.bit KReg.CNT_STATUS_ecc_ue = true → k.get KReg.CNT_ERRSRC_class = s.ktu.get KReg.CNT_ERRSRC_class ∧
      k.get KReg.CNT_ERRSRC_source = s.ktu.get KReg.CNT_ERRSRC_source) ∧
    Ktu.only [.regs, .counters] s.ktu k := by
  refine .of_onKtu (fun k => k.counterUe (counterId c)) rfl hr ?_
  simp only [Ktu.wakeCheck_cnt, Ktu.wakeCheck_get, Ktu.only_wakeCheck, Ktu.cntOf, Ktu.counterUe_cnt,
    Ktu.counterUe_get _ _ (List.mem_cons_self ..), Ktu.counterUe_get _ _ (List.mem_cons_of_mem _ (List.mem_cons_self ..))]
  refine ⟨Tbl.get_erase_same _ _ _, fun i hi => Tbl.get_erase_ne _ hi _, fun x hx => ⟨s.ktu.counterHit_base _ hx,
    s.ktu.counterHit_poisoned _ hx⟩, Ktu.get_raise_odd _ (by decide), fun hb => ?_, fun hb => ?_, s.ktu.counterUe_only _⟩
  · obtain ⟨hclass, hsource⟩ := counterSource_lt c
    rw [Ktu.counterBlame_first _ _ hb, Ktu.get_put_ne _ _ _ _ _ _ (by decide), Ktu.get_put_same, Ktu.get_put_same]
    exact Prod.ext (Nat.mod_eq_of_lt hclass) (Nat.mod_eq_of_lt hsource)
  · rw [Ktu.counterBlame_kept _ _ hb]
    exact ⟨rfl, rfl⟩

end

end Sys2Proof.Machine
end

section
/-! SUPPORT. The queue instances of a KTU (R214, R217, R231): a discard leaves one empty; and the statement on memory errors. -/

namespace Sys2Proof.Machine

-- One theorem at a time: elaborated side by side, those of this text need more stacks than the check has memory for.
set_option Elab.async false

open Sys2Proof

/-! ### What a queue's occupancy depends on -/

/-- Two KTUs hold the same in the instances that are not receive buffers and not the digests that wait. -/
structure Ktu.SameQueues (a b : Ktu) : Prop where
  tail : b.tail = a.tail
  trace : b.trace = a.trace
  codec : b.codec = a.codec
  check : b.check = a.check
  upReplay : b.fife.up.replay = a.fife.up.replay
  dnReplay : b.fife.dn.replay = a.fife.dn.replay
  upAlarms : b.fife.up.alarms = a.fife.up.alarms
  dnAlarms : b.fife.dn.alarms = a.fife.dn.alarms

/-- A queue that is neither a receive buffer nor the digests that wait. -/
def plainQueue (id : Nat) : Prop := ¬ (22 ≤ id ∧ id ≤ 29) ∧ id ≠ 42

section
variable {id : Nat} {a b : Ktu}

theorem rxQueue_of_plain (hid : plainQueue id) : rxQueue id = none := by
  obtain ⟨hrx, -⟩ := hid
  rw [rxQueue, if_neg (by omega), if_neg (by omega)]

theorem Ktu.midPacket_of_plain (hid : plainQueue id) : a.midPacket id = false := by
  rw [Ktu.midPacket, rxQueue_of_plain hid]

theorem Ktu.SameQueues.queueLen (h : Ktu.SameQueues a b) (hid : plainQueue id) : b.queueLen id = a.queueLen id := by
  obtain ⟨htail, htrace, hcodec, hcheck, hup, hdn, hupAlarms, hdnAlarms⟩ := h
  simp only [Ktu.queueLen, Ktu.tailQueue, Ktu.src, rxQueue_of_plain hid, hid.2, if_false, htail, htrace, hcodec, hcheck, hup, hdn,
    hupAlarms, hdnAlarms]

theorem Ktu.SameQueues.trans {c : Ktu} (h : Ktu.SameQueues a b) (h' : Ktu.SameQueues b c) : Ktu.SameQueues a c :=
  ⟨h'.tail.trans h.tail, h'.trace.trans h.trace, h'.codec.trans h.codec, h'.check.trans h.check, h'.upReplay.trans h.upReplay,
    h'.dnReplay.trans h.dnReplay, h'.upAlarms.trans h.upAlarms, h'.dnAlarms.trans h.dnAlarms⟩

theorem Ktu.sameQueues_wakeCheck (a : Ktu) : Ktu.SameQueues a a.wakeCheck := by constructor <;> simp

theorem Ktu.sameQueues_withErrHeld (a : Ktu) (e : Bool) : Ktu.SameQueues a { a with errHeld := e } := by constructor <;> rfl

end

/-! ### A discard (R214, R217, R232) -/

/-- A queue is discarded: it is empty, and all that moves is what held its entries; losing the funnel is losing a context. -/
structure Ktu.Discards (id : Nat) (a b : Ktu) : Prop where
  empty : b.queueLen id = 0
  only : Ktu.only [.regs, .tail, .trace, .codec, .check] a b
  regsOnly : Ktu.regsOnly ctxLostFields a b
  pins : b.pins = a.pins

section
variable (k : Ktu)

theorem Ktu.setLink_only (up : Bool) (e : LinkEnd) : Ktu.only [] k (k.setLink up e) := by
  intro x _
  cases up <;> cases x <;> simp [Ktu.same, Ktu.setLink]

theorem Ktu.Discards.of_regs {l : List KPart} {id : Nat} {a b : Ktu} (he : b.queueLen id = 0) (ho : Ktu.only l a b)
    (hr : b.regs = a.regs) (hp : b.pins = a.pins) (hl : ∀ x ∈ l, x ∈ [KPart.regs, .tail, .trace, .codec, .check] := by decide) :
    Ktu.Discards id a b :=
  ⟨he, Ktu.only_mono ho hl, (Ktu.regsOnly_congr hr).2 (a.regsOnly_refl _), hp⟩

theorem Ktu.discardQueue_discards {id : Nat} (hid : plainQueue id) : Ktu.Discards id k (k.discardQueue id) := by
  obtain ⟨hrx, hdigest⟩ := hid
  unfold Ktu.discardQueue
  split
  next h => exact .of_regs (by simp [Ktu.queueLen, h, Ktu.tailQueue]) (k.withTail_only _) rfl rfl
  split
  next h4 h => exact .of_regs (by simp [Ktu.queueLen, h4, h]) (k.setSrc_keeps _ _).only rfl rfl
  split
  next h =>
    subst h
    exact ⟨by simp [Ktu.queueLen, Ktu.ctxLost_trace], Ktu.only_trans (Ktu.only_mono (k.withTrace_only _) (by decide))
      (Ktu.only_mono (Ktu.ctxLost_only _) (by decide)), Ktu.regsOnly_raise_of KReg.TRC_STATUS_ctx_lost 1 0 rfl, Ktu.raise_pins _ _ _ _⟩
  split
  next h => subst h; exact .of_regs rfl (k.withTail_only _) rfl rfl
  split
  next h => subst h; exact .of_regs rfl (k.setLink_only _ _) rfl rfl
  split
  next h => subst h; exact .of_regs rfl (k.setLink_only _ _) rfl rfl
  split
  next h => subst h; exact .of_regs rfl (k.withCodec_keeps _).only rfl rfl
  split
  next h => subst h; exact .of_regs rfl (Ktu.only_trans (k.setLink_only _ _) (Ktu.setLink_only _ _ _)) rfl rfl
  split
  next h => subst h; exact .of_regs (by simp [Ktu.queueLen, Ktu.setRuns]) (k.setRuns_keeps _).only rfl rfl
  next => exact .of_regs (l := []) (by simp only [Ktu.queueLen, *, if_false]; split_ifs <;> [skip; rfl]; omega) (k.only_refl _) rfl rfl

end

/-! ### A flush (R214, R231) -/

theorem Ktu.flushQueue_plain {id : Nat} (hn : queueNamed id = true) (hid : plainQueue id) (k : Ktu) :
    k.flushQueue id = k.discardQueue id := by
  simp [Ktu.flushQueue, hn, Ktu.midPacket_of_plain hid]

/-- The word that flushes a queue: KTU_QFLUSH.go, and its ID. -/
theorem flushWord_fields : ∀ id : Fin 64, bitOf (2 ^ 31 + id.val) 31 = true ∧ KReg.QFLUSH_id.part (2 ^ 31 + id.val) = id.val := by
  decide

section
variable {s : State} {id : Fin 64} (hr : s.ktu.runs) (hn : queueNamed id.val = true) (hid : plainQueue id.val)
include hr hn hid

theorem queueFlush_empties {w : Writer} (hready : s.ktu.pins.ready = true) (ho : ownerOf w = fleet) : KtuDoes (.queueFlush w id) s fun k =>
    k.queueLen id.val = 0 ∧ k.pins.units = s.ktu.pins.units ∧ Ktu.only [.regs, .tail, .trace, .codec, .check, .rest] s.ktu k ∧
    Ktu.regsOnly [(KReg.TRC_STATUS_ctx_lost, 0), (KReg.IRQ_PEND_pend, 0)] s.ktu k := by
  obtain ⟨hgo, hpart⟩ := flushWord_fields id
  have hcmd : s.ktu.writeCmd (ownerOf w) 0xD018 (2 ^ 31 + id.val) = s.ktu.discardQueue id.val := by
    simp [-Nat.reducePow, Ktu.writeCmd, ho, Ktu.mayWrite, hgo, hpart, Ktu.flushQueue_plain hn hid]
  obtain ⟨hempty, honly, hregs, hpins⟩ := s.ktu.discardQueue_discards hid
  refine .of_commands rfl hr hready (by decide +kernel) (Ktu.mayWrite_fleet ho) hcmd fun e => ?_
  have hsame := (Ktu.sameQueues_withErrHeld (s.ktu.discardQueue id.val) e).trans (Ktu.sameQueues_wakeCheck _)
  refine ⟨(hsame.queueLen hid).trans hempty, ?_, Ktu.only_commands e (by decide) (Ktu.only_mono honly (by decide)),
    (Ktu.regsOnly_congr (Ktu.wakeCheck_regs _)).2 hregs⟩
  rw [Ktu.wakeCheck_pins_units, ← hpins]

end

/-! ### A check failure (R217, R231) -/

/-- The queue is discarded and forgets what its control waited for. -/
def Ktu.checkReset (k : Ktu) (id : Nat) : Ktu := (k.discardQueue id).setQueueCtl id { flushPending := false, awaitStart := false }

/-- The first check failure names its queue. -/
def Ktu.checkBlame (k : Ktu) (id : Nat) : Ktu :=
  if k.bit KReg.Q_STATUS_chk_err then k else k.put KReg.Q_STATUS_chk_id id

/-- The fields of a check failure are none of those a discard moves. -/
theorem checkFields_apart : ∀ f ∈ [KReg.Q_STATUS_chk_err, KReg.Q_STATUS_chk_id, KReg.Q_CHKCNT_count],
    ∀ x ∈ ctxLostFields, f.key 0 ≠ x.1.key x.2 := by decide

section
variable (k : Ktu) {id : Nat}

theorem Ktu.checkFailure_eq (hn : queueNamed id = true) (hid : plainQueue id) : k.checkFailure id =
    (((k.checkReset id).checkBlame id).raise KReg.Q_STATUS_chk_err).count KReg.Q_CHKCNT_count := by
  simp only [Ktu.checkFailure, hn, Ktu.midPacket_of_plain hid, not_true_eq_false, if_false, Bool.false_eq_true]
  rfl

theorem Ktu.checkBlame_eq : ∃ r, k.checkBlame id = { k with regs := r } := by
  unfold Ktu.checkBlame
  split
  · exact ⟨k.regs, rfl⟩
  · exact ⟨_, rfl⟩

theorem Ktu.checkReset_only (hid : plainQueue id) :
    Ktu.only [.regs, .tail, .trace, .queues, .codec, .check] k (k.checkReset id) :=
  Ktu.only_trans (Ktu.only_mono (k.discardQueue_discards hid).only (by decide))
    (Ktu.only_mono (l := [.queues]) (fun x hx => by cases x <;> simp [Ktu.same, Ktu.checkReset] at hx ⊢) (by decide))

theorem Ktu.checkReset_get (hid : plainQueue id) {f : Fld}
    (hf : f ∈ [KReg.Q_STATUS_chk_err, KReg.Q_STATUS_chk_id, KReg.Q_CHKCNT_count]) : (k.checkReset id).get f = k.get f :=
  (k.discardQueue_discards hid).regsOnly f 0 (checkFields_apart f hf)

theorem Ktu.checkReset_flag (hid : plainQueue id) : (k.checkReset id).bit KReg.Q_STATUS_chk_err = k.bit KReg.Q_STATUS_chk_err := by
  rw [Ktu.bit_eq_get, k.checkReset_get hid (by decide), Ktu.bit_eq_get]

theorem Ktu.checkBlame_get {f : Fld} (hf : f.key 0 ≠ KReg.Q_STATUS_chk_id.key 0) : (k.checkBlame id).get f = k.get f := by
  unfold Ktu.checkBlame
  split
  · rfl
  · exact Ktu.get_put_ne _ _ _ _ _ _ hf

theorem Ktu.checkBlame_first (hid : id < 64) (h : k.bit KReg.Q_STATUS_chk_err = false) :
    (k.checkBlame id).get KReg.Q_STATUS_chk_id = id := by
  rw [Ktu.checkBlame, h, if_neg Bool.false_ne_true, Ktu.get_put_same]
  exact Nat.mod_eq_of_lt hid

theorem Ktu.checkBlame_kept (h : k.bit KReg.Q_STATUS_chk_err = true) : k.checkBlame id = k := by
  rw [Ktu.checkBlame, if_pos h]

section
variable (hn : queueNamed id = true) (hid : plainQueue id)
include hn hid

theorem Ktu.checkFailure_queueLen : (k.checkFailure id).queueLen id = 0 := by
  obtain ⟨r, hr⟩ := (k.checkReset id).checkBlame_eq (id := id)
  obtain ⟨r', hr'⟩ := Ktu.raise_eq { k.checkReset id with regs := r } KReg.Q_STATUS_chk_err 1 0
  have hsame : Ktu.SameQueues (k.discardQueue id) (k.checkFailure id) := by
    rw [k.checkFailure_eq hn hid, hr, hr']
    constructor <;> rfl
  exact (hsame.queueLen hid).trans (k.discardQueue_discards hid).empty

theorem Ktu.checkFailure_only : Ktu.only [.regs, .tail, .trace, .queues, .codec, .check] k (k.checkFailure id) := by
  obtain ⟨r, hr⟩ := (k.checkReset id).checkBlame_eq (id := id)
  rw [k.checkFailure_eq hn hid, hr]
  exact Ktu.only_trans (Ktu.only_trans (Ktu.only_trans (k.checkReset_only hid) (Ktu.only_mono (Ktu.only_regs _ r) (by decide)))
    (Ktu.only_mono (Ktu.raise_only_regs _ _ _ _) (by decide))) (Ktu.only_mono (Ktu.only_regs _ _) (by decide))

theorem Ktu.checkFailure_flag : (k.checkFailure id).get KReg.Q_STATUS_chk_err % 2 = 1 := by
  rw [k.checkFailure_eq hn hid, Ktu.get_count_ne _ _ _ _ _ _ (by decide)]
  exact Ktu.get_raise_odd _ (by decide)

theorem Ktu.checkFailure_count :
    (k.checkFailure id).get KReg.Q_CHKCNT_count = min (k.get KReg.Q_CHKCNT_count + 1) KReg.Q_CHKCNT_count.max := by
  rw [k.checkFailure_eq hn hid, Ktu.get_count_same, Ktu.get_raise_ne _ _ _ _ _ _ (by decide) (by decide),
    Ktu.checkBlame_get _ (by decide), k.checkReset_get hid (by decide)]

/-- The ID of the queue stands as the first failure wrote it. -/
theorem Ktu.checkFailure_id :
    (k.checkFailure id).get KReg.Q_STATUS_chk_id = ((k.checkReset id).checkBlame id).get KReg.Q_STATUS_chk_id := by
  rw [k.checkFailure_eq hn hid, Ktu.get_count_ne _ _ _ _ _ _ (by decide), Ktu.get_raise_ne _ _ _ _ _ _ (by decide) (by decide)]

end

end

theorem queueCheckFailure_resets {s : State} {id : Fin 64} (hr : s.ktu.runs) (hn : queueNamed id.val = true) (hid : plainQueue id.val) :
    KtuDoes (.queueCheckFailure (.ktu id)) s fun k =>
      k.queueLen id.val = 0 ∧ k.get KReg.Q_STATUS_chk_err % 2 = 1 ∧
      (s.ktu.bit KReg.Q_STATUS_chk_err = false → k.get KReg.Q_STATUS_chk_id = id.val) ∧
      (s.ktu.bit KReg.Q_STATUS_chk_err = true → k.get KReg.Q_STATUS_chk_id = s.ktu.get KReg.Q_STATUS_chk_id) ∧
      k.get KReg.Q_CHKCNT_count = min (s.ktu.get KReg.Q_CHKCNT_count + 1) KReg.Q_CHKCNT_count.max ∧
      Ktu.only [.regs, .tail, .trace, .queues, .codec, .check] s.ktu k := by
  refine .of_onKtu (fun k => k.checkFailure id.val) rfl hr ?_
  simp only [Ktu.wakeCheck_get, Ktu.only_wakeCheck, Ktu.checkFailure_id _ hn hid]
  refine ⟨((Ktu.sameQueues_wakeCheck _).queueLen hid).trans (s.ktu.checkFailure_queueLen hn hid), s.ktu.checkFailure_flag hn hid,
    fun hb => ?_, fun hb => ?_, s.ktu.checkFailure_count hn hid, s.ktu.checkFailure_only hn hid⟩
  · exact Ktu.checkBlame_first _ id.isLt ((s.ktu.checkReset_flag hid).trans hb)
  · rw [Ktu.checkBlame_kept _ ((s.ktu.checkReset_flag hid).trans hb), s.ktu.checkReset_get hid (by decide)]

/-- Settles O11: the errors of a Tail ring, of the funnel and of a counter each by what its report leaves of them, a flush and a check
failure by the discard of the queue. -/
theorem ktuMemoryErrors : Obligations.KtuMemoryErrors := by
  refine ⟨fun s u hr => ⟨tailEccUe_record hr u, tailEccUe_header hr u⟩, fun s i hr => funnelEccUe_drops hr i,
    fun s c hr => counterEccUe_poisons hr c, ?_, ?_⟩
  · intro s w id hr hready ho hn hrx hdigest
    exact queueFlush_empties hr hn ⟨hrx, hdigest⟩ hready ho
  · intro s id hr hn hrx hdigest
    exact queueCheckFailure_resets hr hn ⟨hrx, hdigest⟩

end Sys2Proof.Machine
end

section
/-! SUPPORT. A halt begins (R192, R193, R195): a breakpoint halts its core and asks for a halt of its scope; and the statement on a
breakpoint before any tick. -/

namespace Sys2Proof.Machine

-- One theorem at a time: elaborated side by side, those of this text need more stacks than the check has memory for.
set_option Elab.async false

open Sys2Proof

theorem bitOf_setBit (v i : Nat) : bitOf (setBit v i) i = true := by
  rw [bitOf_eq_testBit, setBit, Nat.testBit_or, Nat.testBit_two_pow_self, Bool.or_true]

/-! ### The halt request lines (R192) -/

section
variable (k : Ktu)

/-- The cores whose request lines a scope holds high. -/
def Ktu.haltLines (k : Ktu) (sc : Nat) : Nat :=
  match (k.halt sc).state with
  | .halting => maskOf (k.haltCores sc) ||| (k.halt sc).localCores
  | .halted => maskOf (k.haltCores sc) ||| (k.halt sc).localCores
  | .incomplete => maskOf (k.haltCores sc) ||| (k.halt sc).localCores
  | _ => (k.halt sc).localCores

theorem Ktu.haltReq_eq : k.haltReq = (List.range 17).foldl (fun m sc => m ||| k.haltLines sc) 0 := by
  unfold Ktu.haltReq
  refine congrArg (fun f => (List.range 17).foldl f 0) (funext fun m => funext fun sc => ?_)
  simp only [Ktu.haltLines]
  cases (k.halt sc).state <;> simp only [Nat.or_assoc]

theorem Ktu.haltLines_local {sc c : Nat} (h : bitOf (k.halt sc).localCores c = true) : (k.haltLines sc).testBit c = true := by
  rw [bitOf_eq_testBit] at h
  unfold Ktu.haltLines
  split <;> simp [Nat.testBit_or, h]

/-- A core that a scope halts locally is asked to halt. -/
theorem Ktu.haltReq_local {sc c : Nat} (hsc : sc < 17) (h : bitOf (k.halt sc).localCores c = true) : bitOf k.haltReq c = true := by
  rw [bitOf_eq_testBit, Ktu.haltReq_eq]
  exact foldl_reaches (P := fun _ => True) (Q := fun m : Nat => m.testBit c = true) (fun _ _ _ _ => trivial)
    (fun m _ => by rw [Nat.testBit_or, k.haltLines_local h, Bool.or_true]) (fun m y hm => by rw [Nat.testBit_or, hm, Bool.true_or])
    (List.mem_range.2 hsc) trivial

end

/-! ### A breakpoint (R192, R193) -/

@[simp] theorem Ktu.raise_halt (k : Ktu) (f : Fld) (v i sc : Nat) : (k.raise f v i).halt sc = k.halt sc := by
  rw [Ktu.halt, Ktu.raise_halts, Ktu.halt]

/-- A context whose core breakpoints; over a resume the core is kept for the context that follows, too. -/
def HaltCtx.broke (x : HaltCtx) (c : Nat) : HaltCtx :=
  if x.state = .resuming then { x with heldCores := setBit x.heldCores c, localCores := setBit x.localCores c }
  else { x with localCores := setBit x.localCores c }

section
variable (x : HaltCtx) (c : Nat)

theorem HaltCtx.broke_state : (x.broke c).state = x.state := by unfold HaltCtx.broke; split <;> rfl

theorem HaltCtx.broke_h : (x.broke c).h = x.h := by unfold HaltCtx.broke; split <;> rfl

theorem HaltCtx.broke_local : bitOf (x.broke c).localCores c = true := by
  unfold HaltCtx.broke
  split <;> exact bitOf_setBit _ _

end

/-- The registers that say what a core's breakpoint does are none of those that it reports in. -/
theorem bkptFields_apart : ∀ c : Fin 8, ∀ f ∈ [KReg.HALT_COREc_bkpt_en, KReg.HALT_COREc_halt_en, KReg.HALT_COREc_owner],
    f.key c.val ≠ KReg.HALT_BKPT_bkpt_seen.key 0 ∧ f.key c.val ≠ KReg.IRQ_PEND_pend.key 0 := by decide

section
variable (k : Ktu) (c : Fin 8)

/-- A breakpoint is seen, and its core halted locally. -/
def Ktu.bkptLocal (k : Ktu) (c : Fin 8) : Ktu :=
  (k.raise KReg.HALT_BKPT_bkpt_seen (2 ^ c.val)).setHalt (k.get KReg.HALT_COREc_owner c.val)
    ((k.halt (k.get KReg.HALT_COREc_owner c.val)).broke c.val)

theorem Ktu.get_bkptSeen {f : Fld} (hf : f ∈ [KReg.HALT_COREc_bkpt_en, KReg.HALT_COREc_halt_en, KReg.HALT_COREc_owner]) :
    (k.raise KReg.HALT_BKPT_bkpt_seen (2 ^ c.val)).get f c.val = k.get f c.val := by
  obtain ⟨hseen, hpend⟩ := bkptFields_apart c f hf
  exact Ktu.get_raise_ne _ _ _ _ _ _ hseen hpend

/-- A breakpoint of a core whose scope is not halting asks for a halt of the scope. -/
theorem Ktu.breakpoint_starts (hmask : k.masked k.pins.straps.dbgDom = false) (hc : c.val < k.pins.straps.nCores.val)
    (hb : k.bit KReg.HALT_COREc_bkpt_en c.val = true) (hh : k.bit KReg.HALT_COREc_halt_en c.val = true)
    (hst : (k.halt (k.get KReg.HALT_COREc_owner c.val)).state ∈ [HaltState.idle, .armed, .resuming]) :
    k.breakpoint c = (k.bkptLocal c).startHalt (k.get KReg.HALT_COREc_owner c.val) c.val := by
  have hbit {f : Fld} (hf : f ∈ [KReg.HALT_COREc_bkpt_en, KReg.HALT_COREc_halt_en, KReg.HALT_COREc_owner]) :
      (k.raise KReg.HALT_BKPT_bkpt_seen (2 ^ c.val)).bit f c.val = k.bit f c.val := by
    rw [Ktu.bit_eq_get, k.get_bkptSeen c hf, Ktu.bit_eq_get]
  simp only [Ktu.breakpoint, hmask, Nat.not_le.2 hc, Bool.false_eq_true, or_self, if_false, hbit (f := KReg.HALT_COREc_bkpt_en) (by simp),
    hbit (f := KReg.HALT_COREc_halt_en) (by simp), hb, hh, and_self, not_true_eq_false, k.get_bkptSeen c (f := KReg.HALT_COREc_owner) (by simp),
    Ktu.raise_halt, Ktu.bkptLocal, HaltCtx.broke]
  generalize hx : k.halt (k.get KReg.HALT_COREc_owner c.val) = x at hst ⊢
  cases hs : x.state <;> simp_all

theorem Ktu.bkptLocal_halt_ne {sc : Nat} (h : sc ≠ k.get KReg.HALT_COREc_owner c.val) : (k.bkptLocal c).halt sc = k.halt sc := by
  rw [Ktu.bkptLocal, Ktu.halt_setHalt_ne _ h, Ktu.raise_halt]

theorem Ktu.bkptLocal_halt : (k.bkptLocal c).halt (k.get KReg.HALT_COREc_owner c.val) =
    (k.halt (k.get KReg.HALT_COREc_owner c.val)).broke c.val := Ktu.halt_setHalt_same _ _ _

theorem Ktu.bkptLocal_seen : bitOf ((k.bkptLocal c).get KReg.HALT_BKPT_bkpt_seen) c.val = true :=
  Ktu.bitOf_get_raise k c.isLt (by decide)

theorem Ktu.bkptLocal_only : Ktu.only [.regs, .halts] k (k.bkptLocal c) :=
  Ktu.only_trans (Ktu.only_mono (Ktu.raise_only_regs _ _ _ _) (by decide)) (Ktu.only_mono (Ktu.setHalt_keeps _ _ _).only (by decide))

theorem Ktu.bkptLocal_regsOnly : Ktu.regsOnly [(KReg.HALT_BKPT_bkpt_seen, 0), (KReg.IRQ_PEND_pend, 0)] k (k.bkptLocal c) :=
  Ktu.regsOnly_raise_of KReg.HALT_BKPT_bkpt_seen (2 ^ c.val) 0 rfl

theorem Ktu.bkptLocal_time : (k.bkptLocal c).time = k.time := by rw [Ktu.bkptLocal, Ktu.setHalt_time, Ktu.raise_time]

theorem Ktu.bkptLocal_fife : (k.bkptLocal c).fife = k.fife := by rw [Ktu.bkptLocal, Ktu.setHalt_fife, Ktu.raise_fife]

theorem Ktu.bkptLocal_pins : (k.bkptLocal c).pins = k.pins := by rw [Ktu.bkptLocal, Ktu.setHalt_pins, Ktu.raise_pins]

end

/-- R193: before any tick no H is computed. -/
theorem Ktu.startHalt_noTick {k : Ktu} (h : k.time.lastFired = none) (sc core : Nat) :
    k.startHalt sc core = k.raise KReg.HALT_BKPT_no_tick := by rw [Ktu.startHalt, h]

/-- Settles O12: with no tick fired the request that the breakpoint makes ends in no_tick, and only the core's own halt stands. -/
theorem breakpointBeforeTicks : Obligations.BreakpointBeforeTicks := by
  intro s c hr hmask hc hb hh hst hfired
  have hend : s.ktu.breakpoint c = (s.ktu.bkptLocal c).raise KReg.HALT_BKPT_no_tick := by
    rw [s.ktu.breakpoint_starts c hmask hc hb hh hst, Ktu.startHalt_noTick (by rw [Ktu.bkptLocal_time, hfired])]
  refine .of_onKtu (fun k => k.breakpoint c) rfl hr ?_
  simp only [hend, Ktu.wakeCheck_get, Ktu.wakeCheck_halt, Ktu.only_wakeCheck, Ktu.regsOnly_congr (Ktu.wakeCheck_regs _),
    Ktu.wakeCheck_up_alarms, Ktu.wakeCheck_dn_alarms, Ktu.raise_halt, Ktu.raise_fife, Ktu.bkptLocal_fife, Ktu.bkptLocal_halt]
  refine ⟨Ktu.get_raise_odd _ (by decide), ?_, HaltCtx.broke_h _ _, HaltCtx.broke_state _ _, HaltCtx.broke_local _ _, fun hsc => ?_,
    fun sc hsc => s.ktu.bkptLocal_halt_ne c hsc, trivial, trivial, ?_, ?_⟩
  · rw [Ktu.get_raise_ne _ _ _ _ _ _ (by decide) (by decide)]
    exact s.ktu.bkptLocal_seen c
  · refine Ktu.haltReq_local _ hsc ?_
    rw [Ktu.wakeCheck_halt, Ktu.raise_halt, Ktu.bkptLocal_halt]
    exact HaltCtx.broke_local _ _
  · exact Ktu.only_trans (s.ktu.bkptLocal_only c) (Ktu.only_mono (Ktu.raise_only_regs _ _ _ _) (by decide))
  · exact Ktu.regsOnly_step (Ktu.regsOnly_step (s.ktu.regsOnly_refl _) (s.ktu.bkptLocal_regsOnly c))
      (Ktu.regsOnly_raise_of KReg.HALT_BKPT_no_tick 1 0 rfl)

end Sys2Proof.Machine
end

section
/-! SUPPORT. The halt contexts (R192, R195, R198, R199, R302): a request is taken, its scope halts, times out and resumes; and the
statement on them. -/

namespace Sys2Proof.Machine

-- One theorem at a time: elaborated side by side, those of this text need more stacks than the check has memory for.
set_option Elab.async false

open Sys2Proof

/-! ### A request for a tick that has not come (R192, R195) -/

/-- A context armed by a request. -/
def HaltCtx.armedBy (x : HaltCtx) (h origin core : Nat) : HaltCtx :=
  { x with state := .armed, h := h, origin := origin, originCore := core }

/-- The ALARM of a halt request. -/
def Ktu.haltPair (k : Ktu) (sc core h : Nat) : BitVec 112 := alarmPair 2 k.fife.addr (scopeOf sc) (if core < 8 then core else 0) 0 h

section
variable (k : Ktu) {sc core n h : Nat}

/-- A core of the scope that takes part in halts makes the KTU take part. -/
theorem Ktu.takesPart_of_core {c : Nat} (hc : c < k.pins.straps.nCores.val) (hh : k.bit KReg.HALT_COREc_halt_en c = true)
    (ho : k.get KReg.HALT_COREc_owner c = sc) : k.takesPart sc = true := by
  have hmem : c ∈ k.haltCores sc := by simp [Ktu.haltCores, hc, hh, ho]
  rw [Ktu.takesPart, List.isEmpty_eq_false_iff.2 (List.ne_nil_of_mem hmem)]
  rfl

theorem Ktu.takeHalt_idle (origin : Nat) (hp : k.takesPart sc = true) (hi : (k.halt sc).state = .idle) (hn : k.time.lastFired = some n)
    (hlt : n < h) : k.takeHalt sc h origin core = k.setHalt sc ((k.halt sc).armedBy h origin core) := by
  simp [Ktu.takeHalt, hp, hi, hn, Nat.not_le.2 hlt, HaltCtx.armedBy]

/-- A KTU that asks for a halt of a scope, its ALARM sent and the scope armed. -/
def Ktu.haltAsked (k : Ktu) (sc core h : Nat) : Ktu :=
  (k.sendAlarm (k.haltPair sc core h)).setHalt sc ((k.halt sc).armedBy h k.fife.addr core)

theorem Ktu.startHalt_arms (hp : k.takesPart sc = true) (hi : (k.halt sc).state = .idle) (hn : k.time.lastFired = some n)
    (hh : h = n + max (k.get KReg.HALT_CFG_lead_ticks) 2) (hlt : h < 2 ^ 48) : k.startHalt sc core = k.haltAsked sc core h := by
  obtain ⟨u, d, l, hsend⟩ := k.sendAlarm_eq (k.haltPair sc core h)
  have hstart : k.startHalt sc core =
      (k.sendAlarm (k.haltPair sc core h)).takeHalt sc h (k.sendAlarm (k.haltPair sc core h)).fife.addr core := by
    have hmod : (n + max (k.get KReg.HALT_CFG_lead_ticks) 2) % 2 ^ 48 = h := hh ▸ Nat.mod_eq_of_lt (hh ▸ hlt)
    simp only [Ktu.startHalt, hn, hmod]
    rfl
  rw [hstart, Ktu.haltAsked, hsend]
  exact Ktu.takeHalt_idle _ _ hp hi hn (by omega)

variable (sc core h)

theorem Ktu.haltAsked_halt : (k.haltAsked sc core h).halt sc = (k.halt sc).armedBy h k.fife.addr core := Ktu.halt_setHalt_same _ _ _

theorem Ktu.haltAsked_halt_ne {x : Nat} (hx : x ≠ sc) : (k.haltAsked sc core h).halt x = k.halt x := by
  obtain ⟨u, d, l, hsend⟩ := k.sendAlarm_eq (k.haltPair sc core h)
  rw [Ktu.haltAsked, Ktu.halt_setHalt_ne _ hx, hsend]
  rfl

theorem Ktu.haltAsked_regs : (k.haltAsked sc core h).regs = k.regs := by
  obtain ⟨u, d, l, hsend⟩ := k.sendAlarm_eq (k.haltPair sc core h)
  rw [Ktu.haltAsked, Ktu.setHalt_regs, hsend]

theorem Ktu.haltAsked_sent (ha : k.fife.addrValid = true) : k.haltPair sc core h ∈ (k.haltAsked sc core h).fife.up.alarms := by
  rw [Ktu.haltAsked, Ktu.setHalt_fife, Ktu.sendAlarm_sent _ _ ha]
  simp [LinkEnd.sendPair]

theorem Ktu.haltAsked_only : Ktu.only [.halts, .fife] k (k.haltAsked sc core h) := by
  obtain ⟨u, d, l, hsend⟩ := k.sendAlarm_eq (k.haltPair sc core h)
  rw [Ktu.haltAsked, hsend]
  exact fun x hx => by cases x <;> simp [Ktu.same] at hx ⊢

end

section
variable {s : State} {n h : Nat} (hr : s.ktu.runs) (hn : s.ktu.time.lastFired = some n)
  (hh : h = n + max (s.ktu.get KReg.HALT_CFG_lead_ticks) 2) (hlt : h < 2 ^ 48)
include hr hn hh hlt

/-- A breakpoint of a core whose scope is Idle arms the scope. -/
theorem breakpoint_arms (c : Fin 8) {sc : Nat} (hmask : s.ktu.masked s.ktu.pins.straps.dbgDom = false)
    (hc : c.val < s.ktu.pins.straps.nCores.val) (hb : s.ktu.bit KReg.HALT_COREc_bkpt_en c.val = true)
    (hen : s.ktu.bit KReg.HALT_COREc_halt_en c.val = true) (hsc : sc = s.ktu.get KReg.HALT_COREc_owner c.val)
    (hi : (s.ktu.halt sc).state = .idle) : KtuDoes (.breakpoint c) s fun k =>
      (k.halt sc).state = .armed ∧ (k.halt sc).h = h ∧ (k.halt sc).origin = s.ktu.fife.addr ∧ (k.halt sc).originCore = c.val ∧
      bitOf (k.halt sc).localCores c.val = true ∧ (∀ x, x ≠ sc → k.halt x = s.ktu.halt x) ∧
      (s.ktu.fife.addrValid = true → alarmPair 2 s.ktu.fife.addr (scopeOf sc) c.val 0 h ∈ k.fife.up.alarms) ∧
      bitOf (k.get KReg.HALT_BKPT_bkpt_seen) c.val = true ∧ Ktu.only [.regs, .halts, .fife] s.ktu k := by
  subst hsc
  have hend : s.ktu.breakpoint c = (s.ktu.bkptLocal c).haltAsked (s.ktu.get KReg.HALT_COREc_owner c.val) c.val h := by
    have hlead : (s.ktu.bkptLocal c).get KReg.HALT_CFG_lead_ticks = s.ktu.get KReg.HALT_CFG_lead_ticks :=
      s.ktu.bkptLocal_regsOnly c _ _ (by decide)
    rw [s.ktu.breakpoint_starts c hmask hc hb hen (by rw [hi]; decide)]
    refine Ktu.startHalt_arms _ (Ktu.takesPart_of_core _ (c := c.val) ?_ ?_ ?_) ?_ ?_ (hlead ▸ hh) hlt
    · rw [Ktu.bkptLocal_pins]; exact hc
    · exact (congrArg (· != 0) (s.ktu.get_bkptSeen c (by simp))).trans hen
    · exact s.ktu.get_bkptSeen c (by simp)
    · rw [Ktu.bkptLocal_halt, HaltCtx.broke_state, hi]
    · rw [Ktu.bkptLocal_time, hn]
  refine .of_onKtu (fun k => k.breakpoint c) rfl hr ?_
  simp only [hend, Ktu.wakeCheck_get, Ktu.wakeCheck_halt, Ktu.only_wakeCheck, Ktu.wakeCheck_up_alarms, Ktu.haltAsked_halt,
    Ktu.bkptLocal_fife, Ktu.bkptLocal_halt, Ktu.get_of_regs (Ktu.haltAsked_regs _ _ _ _)]
  refine ⟨rfl, rfl, rfl, rfl, HaltCtx.broke_local _ _, fun x hx => ?_, fun ha => ?_, s.ktu.bkptLocal_seen c, ?_⟩
  · rw [Ktu.haltAsked_halt_ne _ _ _ _ hx, s.ktu.bkptLocal_halt_ne c hx]
  · have hsent := (s.ktu.bkptLocal c).haltAsked_sent (s.ktu.get KReg.HALT_COREc_owner c.val) c.val h (by rw [Ktu.bkptLocal_fife, ha])
    rwa [Ktu.haltPair, Ktu.bkptLocal_fife, if_pos c.isLt] at hsent
  · exact Ktu.only_trans (Ktu.only_mono (s.ktu.bkptLocal_only c) (by decide)) (Ktu.only_mono (Ktu.haltAsked_only _ _ _ _) (by decide))

/-- KTU_HALT_CMD arms the Idle scope of its writer. -/
theorem haltReq_arms {w : Writer} (hready : s.ktu.pins.ready = true) (hp : s.ktu.takesPart (ownerOf w) = true)
    (hi : (s.ktu.halt (ownerOf w)).state = .idle) : KtuDoes (.haltReq w) s fun k =>
      (k.halt (ownerOf w)).state = .armed ∧ (k.halt (ownerOf w)).h = h ∧ (k.halt (ownerOf w)).originCore = 0x1F ∧
      (∀ x, x ≠ ownerOf w → k.halt x = s.ktu.halt x) ∧
      (s.ktu.fife.addrValid = true → alarmPair 2 s.ktu.fife.addr (scopeOf (ownerOf w)) 0 0 h ∈ k.fife.up.alarms) ∧
      Ktu.only [.halts, .fife, .rest] s.ktu k := by
  have hword : ∀ x ∈ wordFields 0xA200, x.1.acc = .ro ∨ x.1 = KReg.HALT_CMD_req := by decide +kernel
  have hmay (i : Nat) : s.ktu.mayWrite (ownerOf w) KReg.HALT_CMD_req i = true :=
    (show s.ktu.mayWrite (ownerOf w) KReg.HALT_CMD_req i = if ownerOf w = fleet then true else true from rfl).trans (ite_self _)
  have hcmd : s.ktu.writeCmd (ownerOf w) 0xA200 1 = s.ktu.haltAsked (ownerOf w) 0x1F h :=
    (show s.ktu.writeCmd (ownerOf w) 0xA200 1 = s.ktu.startHalt (ownerOf w) 0x1F from rfl).trans
      (s.ktu.startHalt_arms hp hi hn hh hlt)
  refine .of_commands rfl hr hready (fun x hx => ?_) (fun x hx => ?_) hcmd fun e => ?_
  · rcases hword x hx with hro | hreq
    · exact Fld.unstored_iff.2 (.inl hro)
    · rw [hreq]; rfl
  · rcases hword x hx with hro | hreq
    · exact .inl hro
    · exact .inr (hreq ▸ hmay x.2)
  · have hhalt (x : Nat) : ({ s.ktu.haltAsked (ownerOf w) 0x1F h with errHeld := e } : Ktu).wakeCheck.halt x =
        (s.ktu.haltAsked (ownerOf w) 0x1F h).halt x := by rw [Ktu.wakeCheck_halt, Ktu.halt, Ktu.halt]
    simp only [hhalt, Ktu.wakeCheck_up_alarms, Ktu.haltAsked_halt]
    exact ⟨rfl, rfl, rfl, fun x hx => s.ktu.haltAsked_halt_ne _ _ _ hx, fun ha => s.ktu.haltAsked_sent (ownerOf w) 0x1F h ha,
      Ktu.only_commands e (by decide) (Ktu.only_mono (s.ktu.haltAsked_only _ _ _) (by decide))⟩

end

end Sys2Proof.Machine
end

section
/-! SUPPORT. A halt completes, times out and is resumed (R198, R302); and the statement on the halt contexts. -/

namespace Sys2Proof.Machine

-- One theorem at a time: elaborated side by side, those of this text need more stacks than the check has memory for.
set_option Elab.async false

open Sys2Proof

/-! ### What a scope's participants depend on -/

section
variable {a b : Ktu} (hpins : Ktu.same a b .pins)
include hpins

theorem Ktu.dbgHalted_of_same : b.pins.dbgHalted = a.pins.dbgHalted := by
  have hp := congrArg KPins.dbgHalted hpins
  simpa only using hp

theorem Ktu.engDrained_of_same : b.pins.engDrained = a.pins.engDrained := by
  have hp := congrArg KPins.engDrained hpins
  simpa only using hp

variable (hregs : b.regs = a.regs) (sc : Nat)
include hregs

theorem Ktu.haltCores_congr : b.haltCores sc = a.haltCores sc := by
  rw [Ktu.haltCores, Ktu.haltCores, Ktu.straps_of_same hpins]
  simp only [Ktu.bit_of_regs hregs, Ktu.get_of_regs hregs]

theorem Ktu.missingCores_congr : b.missingCores sc = a.missingCores sc := by
  have hhalted (c : Nat) : b.coreHalted c = a.coreHalted c := by
    rw [Ktu.coreHalted, Ktu.coreHalted, Ktu.straps_of_same hpins, Ktu.masked_congr hpins, Ktu.dbgHalted_of_same hpins]
  simp only [Ktu.missingCores, Ktu.haltCores_congr hpins hregs, hhalted]

theorem Ktu.missingDomains_congr : b.missingDomains sc = a.missingDomains sc := by
  have hdrained (d : Nat) : b.domDrained d = a.domDrained d := by
    rw [Ktu.domDrained, Ktu.domDrained, Ktu.masked_congr hpins, Ktu.engDrained_of_same hpins]
  simp only [Ktu.missingDomains, Ktu.haltDomains, Ktu.get_of_regs hregs, hdrained]

end

/-! ### A scope's answer (R302) -/

/-- What an answer on a halt context says beside its status. -/
def Ktu.haltDetail (k : Ktu) (sc : Nat) : Nat :=
  sc + k.missingCores sc * 2 ^ 8 + k.missingDomains sc * 2 ^ 16 + (k.halt sc).h % 2 ^ 32 * 2 ^ 32

section
variable (k : Ktu) (sc status : Nat)

theorem Ktu.haltAck_waits : (k.haltAck sc status).fife.up.waits
    (.cmdAck ⟨k.addr, 0, 4, BitVec.ofNat 8 status, false, BitVec.ofNat 64 (k.haltDetail sc)⟩) := Ktu.sendUp_waits _ _

theorem Ktu.haltAck_keeps_waits {m : Msg} (h : k.fife.up.waits m) : (k.haltAck sc status).fife.up.waits m :=
  LinkEnd.waits_queue h _ _ _

theorem Ktu.haltAck_halt (x : Nat) : (k.haltAck sc status).halt x = k.halt x := rfl

theorem Ktu.haltAck_only : Ktu.only [] k (k.haltAck sc status) := (k.sendUp_keeps _).only

/-- A context that is reported: its state is moved, and the answer waits upstream. -/
def Ktu.haltReported (k : Ktu) (sc status : Nat) (x : HaltState) : Ktu :=
  (k.setHalt sc { k.halt sc with state := x, acked := true }).haltAck sc status

variable (x : HaltState)

theorem Ktu.haltReported_halt : (k.haltReported sc status x).halt sc = { k.halt sc with state := x, acked := true } := by
  rw [Ktu.haltReported, Ktu.haltAck_halt, Ktu.halt_setHalt_same]

theorem Ktu.haltReported_halt_ne {y : Nat} (h : y ≠ sc) : (k.haltReported sc status x).halt y = k.halt y := by
  rw [Ktu.haltReported, Ktu.haltAck_halt, Ktu.halt_setHalt_ne _ h]

theorem Ktu.haltReported_only : Ktu.only [.halts] k (k.haltReported sc status x) :=
  Ktu.only_trans (k.setHalt_keeps _ _).only (Ktu.only_mono (Ktu.haltAck_only _ _ _) (by decide))

theorem Ktu.haltReported_keeps_waits {m : Msg} (h : k.fife.up.waits m) : (k.haltReported sc status x).fife.up.waits m :=
  Ktu.haltAck_keeps_waits _ _ _ h

theorem Ktu.haltReported_waits : (k.haltReported sc status x).fife.up.waits
    (.cmdAck ⟨k.addr, 0, 4, BitVec.ofNat 8 status, false, BitVec.ofNat 64 (k.haltDetail sc)⟩) := by
  have hsame : (k.setHalt sc { k.halt sc with state := x, acked := true }).haltDetail sc = k.haltDetail sc := by
    rw [Ktu.haltDetail, Ktu.halt_setHalt_same]
    rfl
  rw [← hsame]
  exact Ktu.haltAck_waits _ _ _

end

/-! ### The lines complete a halt (R198) -/

section
variable (k : Ktu)

theorem Ktu.haltDone_eq (sc : Nat) : k.haltDone sc =
    if ((k.halt sc).state = .halting ∨ (k.halt sc).state = .incomplete) ∧ k.missingCores sc = 0 ∧ k.missingDomains sc = 0 then
      k.haltReported sc 5 .halted else k := rfl

theorem Ktu.haltDone_only (sc : Nat) : Ktu.only [.halts] k (k.haltDone sc) := by
  rw [Ktu.haltDone_eq]
  split
  · exact k.haltReported_only _ _ _
  · exact k.only_refl _

theorem Ktu.haltDone_halt_ne {y sc : Nat} (h : y ≠ sc) : (k.haltDone sc).halt y = k.halt y := by
  rw [Ktu.haltDone_eq]
  split
  · exact k.haltReported_halt_ne _ _ _ h
  · rfl

theorem Ktu.haltDone_keeps_waits {m : Msg} (h : k.fife.up.waits m) (sc : Nat) : (k.haltDone sc).fife.up.waits m := by
  rw [Ktu.haltDone_eq]
  split
  · exact k.haltReported_keeps_waits _ _ _ h
  · exact h

/-- Every context is looked at once, so that a halting one whose participants have all stopped is Halted, and reported. -/
theorem Ktu.haltDones_halted {sc : Nat} (hsc : sc < 17) (hst : (k.halt sc).state = .halting) (hcores : k.missingCores sc = 0)
    (hdoms : k.missingDomains sc = 0) :
    Ktu.only [.halts] k ((List.range 17).foldl Ktu.haltDone k) ∧
    ((List.range 17).foldl Ktu.haltDone k).halt sc = { k.halt sc with state := .halted, acked := true } ∧
    ((List.range 17).foldl Ktu.haltDone k).fife.up.waits
      (.cmdAck ⟨k.addr, 0, 4, 5, false, BitVec.ofNat 64 (sc + (k.halt sc).h % 2 ^ 32 * 2 ^ 32)⟩) := by
  refine foldl_once (P := fun b => Ktu.only [.halts] k b ∧ b.halt sc = k.halt sc) (Q := fun b : Ktu => Ktu.only [.halts] k b ∧
    b.halt sc = { k.halt sc with state := .halted, acked := true } ∧
    b.fife.up.waits (.cmdAck ⟨k.addr, 0, 4, 5, false, BitVec.ofNat 64 (sc + (k.halt sc).h % 2 ^ 32 * 2 ^ 32)⟩))
    List.nodup_range (List.mem_range.2 hsc) ?_ ?_ ?_ ⟨k.only_refl _, rfl⟩
  · rintro b y - hy ⟨honly, hb⟩
    exact ⟨Ktu.only_trans honly (b.haltDone_only y), (b.haltDone_halt_ne (Ne.symm hy)).trans hb⟩
  · rintro b ⟨honly, hb⟩
    have hpins := honly .pins (by decide)
    have hregs : b.regs = k.regs := honly .regs (by decide)
    have hcores' := (Ktu.missingCores_congr hpins hregs sc).trans hcores
    have hdoms' := (Ktu.missingDomains_congr hpins hregs sc).trans hdoms
    have hdetail : b.haltDetail sc = sc + (k.halt sc).h % 2 ^ 32 * 2 ^ 32 := by
      rw [Ktu.haltDetail, hcores', hdoms', hb]
      omega
    rw [Ktu.haltDone_eq, if_pos ⟨.inl (by rw [hb, hst]), hcores', hdoms'⟩]
    refine ⟨Ktu.only_trans honly (b.haltReported_only _ _ _), by rw [Ktu.haltReported_halt, hb], ?_⟩
    rw [← hdetail, ← Ktu.addr_of_same (honly .fife (by decide))]
    exact b.haltReported_waits sc 5 .halted
  · rintro b y - hy ⟨honly, hb, hw⟩
    exact ⟨Ktu.only_trans honly (b.haltDone_only y), (b.haltDone_halt_ne (Ne.symm hy)).trans hb, b.haltDone_keeps_waits hw y⟩

end

/-! ### A resume completes (R198, R199) -/

section
variable (k : Ktu)

theorem Ktu.toIdle_free {sc : Nat} (h : (k.halt sc).held = none) :
    k.toIdle sc = k.setHalt sc { localCores := (k.halt sc).heldCores } := by simp [Ktu.toIdle, h]

/-- The contexts that resumed contexts leave: none holds a request, and those that do not resume are as they were. -/
structure Ktu.Resumes (a b : Ktu) : Prop where
  only : Ktu.only [.halts] a b
  held : ∀ x, (b.halt x).held = none
  others : ∀ x, (a.halt x).state ≠ .resuming → b.halt x = a.halt x

variable {k} {b : Ktu} (h : Ktu.Resumes k b) (sc : Nat)
include h

/-- A resuming context returns to Idle. -/
theorem Ktu.Resumes.toIdle (hst : (k.halt sc).state = .resuming) :
    Ktu.Resumes k (b.toIdle sc) ∧ (b.toIdle sc).halt sc = { localCores := (b.halt sc).heldCores } ∧
      ∀ x, x ≠ sc → (b.toIdle sc).halt x = b.halt x := by
  rw [Ktu.toIdle_free b (h.held sc)]
  have hne {x : Nat} (hx : x ≠ sc) (c : HaltCtx) : (b.setHalt sc c).halt x = b.halt x := b.halt_setHalt_ne hx c
  refine ⟨⟨Ktu.only_trans h.only (b.setHalt_keeps _ _).only, fun x => ?_, fun x hx => ?_⟩, Ktu.halt_setHalt_same _ _ _,
    fun x hx => hne hx _⟩
  · by_cases hx : x = sc
    · rw [hx, Ktu.halt_setHalt_same]
    · rw [hne hx, h.held]
  · rw [hne (fun he : x = sc => hx (he ▸ hst)), h.others x hx]

theorem Ktu.Resumes.resumeDone :
    Ktu.Resumes k (b.resumeDone sc) ∧ ∀ x, x ≠ sc → (b.resumeDone sc).halt x = b.halt x := by
  unfold Ktu.resumeDone
  split
  · next hst =>
    have hk : (k.halt sc).state = .resuming := by
      by_contra hne
      exact hne (h.others sc hne ▸ hst.1)
    obtain ⟨hres, -, hother⟩ := h.toIdle sc hk
    exact ⟨hres, hother⟩
  · exact ⟨h, fun _ _ => rfl⟩

end

/-- Every context is looked at once, so that a resuming one whose cores run is Idle. -/
theorem Ktu.resumeDones_idle {k : Ktu} {sc : Nat} (hsc : sc < 17) (hst : (k.halt sc).state = .resuming)
    (hheld : ∀ x, (k.halt x).held = none) (hcores : ∀ c ∈ k.haltCores sc, k.pins.dbgHalted.getLsbD c = false) :
    Ktu.Resumes k ((List.range 17).foldl Ktu.resumeDone k) ∧ (((List.range 17).foldl Ktu.resumeDone k).halt sc).state = .idle := by
  refine foldl_once (P := fun b => Ktu.Resumes k b ∧ b.halt sc = k.halt sc)
    (Q := fun b : Ktu => Ktu.Resumes k b ∧ (b.halt sc).state = .idle)
    List.nodup_range (List.mem_range.2 hsc) ?_ ?_ ?_ ⟨⟨k.only_refl _, hheld, fun _ _ => rfl⟩, rfl⟩
  · rintro b y - hy ⟨hres, hb⟩
    obtain ⟨hres', hother⟩ := hres.resumeDone y
    exact ⟨hres', (hother sc (Ne.symm hy)).trans hb⟩
  · rintro b ⟨hres, hb⟩
    have hpins := hres.only .pins (by decide)
    have hrun : (b.haltCores sc).all (fun c => !b.pins.dbgHalted.getLsbD c) = true := by
      rw [Ktu.haltCores_congr hpins (hres.only .regs (by decide)), Ktu.dbgHalted_of_same hpins, List.all_eq_true]
      exact fun c hc => by rw [hcores c hc]; rfl
    obtain ⟨hres', hidle, -⟩ := hres.toIdle sc hst
    rw [Ktu.resumeDone, if_pos ⟨by rw [hb, hst], hrun⟩]
    exact ⟨hres', by rw [hidle]⟩
  · rintro b y - hy ⟨hres, hb⟩
    obtain ⟨hres', hother⟩ := hres.resumeDone y
    exact ⟨hres', by rw [hother sc (Ne.symm hy), hb]⟩

/-! ### The commands -/

section
variable {s : State} (hr : s.ktu.runs)
include hr

/-- The KTU with the host's lines as sampled. -/
def Ktu.withLines (k : Ktu) (hl : BitVec 8) (dr : BitVec 4) : Ktu := { k with pins := { k.pins with dbgHalted := hl, engDrained := dr } }

theorem drainComplete_halts (sc : Fin 17) (hl : BitVec 8) (dr : BitVec 4) (hst : (s.ktu.halt sc.val).state = .halting)
    (hcores : (s.ktu.withLines hl dr).missingCores sc.val = 0) (hdoms : (s.ktu.withLines hl dr).missingDomains sc.val = 0) :
    KtuDoes (.drainComplete hl dr) s fun k =>
      (k.halt sc.val).state = .halted ∧ (k.halt sc.val).h = (s.ktu.halt sc.val).h ∧ k.pins.dbgHalted = hl ∧ k.pins.engDrained = dr ∧
      k.fife.up.waits (.cmdAck ⟨s.ktu.addr, 0, 4, 5, false, BitVec.ofNat 64 (sc.val + (s.ktu.halt sc.val).h % 2 ^ 32 * 2 ^ 32)⟩) ∧
      Ktu.only [.pins, .halts] s.ktu k := by
  obtain ⟨honly, hhalt, hw⟩ := (s.ktu.withLines hl dr).haltDones_halted sc.isLt hst hcores hdoms
  have hpins := honly .pins (by decide)
  refine .of_onKtu (fun k => k.drain hl dr) rfl hr ?_
  rw [show s.ktu.drain hl dr = (List.range 17).foldl Ktu.haltDone (s.ktu.withLines hl dr) from rfl,
    Ktu.wakeCheck_halt, hhalt, Ktu.only_wakeCheck, Ktu.wakeCheck_pins_dbgHalted, Ktu.wakeCheck_pins_engDrained,
    Ktu.dbgHalted_of_same hpins, Ktu.engDrained_of_same hpins]
  exact ⟨rfl, rfl, rfl, rfl, Ktu.waits_up_wakeCheck hw,
    Ktu.only_trans (Ktu.only_mono (s.ktu.withPins_only _) (by decide)) (Ktu.only_mono honly (by decide))⟩

variable (sc : Fin 17)

/-- The timeout of a halt leaves it Incomplete. -/
theorem haltTimeout_incomplete (hst : (s.ktu.halt sc.val).state = .halting) : KtuDoes (.haltTimeout sc) s fun k =>
    (k.halt sc.val).state = .incomplete ∧ (k.halt sc.val).h = (s.ktu.halt sc.val).h ∧
    (∃ d, k.fife.up.waits (.cmdAck ⟨s.ktu.addr, 0, 4, 6, false, d⟩)) ∧
    (∀ x, x ≠ sc.val → k.halt x = s.ktu.halt x) ∧ Ktu.only [.halts] s.ktu k := by
  refine .of_onKtu (fun k => k.haltTimeout sc.val) rfl hr ?_
  rw [show s.ktu.haltTimeout sc.val = s.ktu.haltReported sc.val 6 .incomplete from if_pos hst]
  simp only [Ktu.wakeCheck_halt, Ktu.only_wakeCheck, Ktu.haltReported_halt]
  exact ⟨trivial, trivial, ⟨_, Ktu.waits_up_wakeCheck (s.ktu.haltReported_waits sc.val 6 .incomplete)⟩,
    fun x hx => s.ktu.haltReported_halt_ne _ _ _ hx, s.ktu.haltReported_only _ _ _⟩

/-- The timeout of a resume ends it. -/
theorem haltTimeout_idle (hst : (s.ktu.halt sc.val).state = .resuming) (hheld : (s.ktu.halt sc.val).held = none) :
    KtuDoes (.haltTimeout sc) s fun k =>
      (k.halt sc.val).state = .idle ∧ k.get KReg.HALT_Sk_MISSING_resume_incomplete sc.val % 2 = 1 ∧
      (∀ x, x ≠ sc.val → k.halt x = s.ktu.halt x) ∧ Ktu.only [.regs, .halts] s.ktu k := by
  have hend : s.ktu.haltTimeout sc.val = (s.ktu.raise KReg.HALT_Sk_MISSING_resume_incomplete 1 sc.val).setHalt sc.val
      { localCores := (s.ktu.halt sc.val).heldCores } := by
    rw [Ktu.haltTimeout]
    simp only [hst, if_true, reduceCtorEq, if_false]
    rw [Ktu.toIdle_free _ (by rw [Ktu.raise_halt, hheld]), Ktu.raise_halt]
  have hkeys : ∀ sc : Fin 17, KReg.HALT_Sk_MISSING_resume_incomplete.key sc.val ≠ KReg.IRQ_PEND_pend.key 0 := by decide
  refine .of_onKtu (fun k => k.haltTimeout sc.val) rfl hr ?_
  simp only [hend, Ktu.wakeCheck_halt, Ktu.wakeCheck_get, Ktu.only_wakeCheck, Ktu.halt_setHalt_same]
  refine ⟨trivial, Ktu.get_raise_odd _ (hkeys sc), fun x hx => ?_, ?_⟩
  · rw [Ktu.halt_setHalt_ne _ hx, Ktu.raise_halt]
  · exact Ktu.only_trans (Ktu.only_mono (Ktu.raise_only_regs _ _ _ _) (by decide)) (Ktu.only_mono (Ktu.setHalt_keeps _ _ _).only (by decide))

theorem resumeComplete_idle (hl : BitVec 8) (hst : (s.ktu.halt sc.val).state = .resuming) (hheld : ∀ x, (s.ktu.halt x).held = none)
    (hcores : ∀ c ∈ s.ktu.haltCores sc.val, hl.getLsbD c = false) : KtuDoes (.resumeComplete hl) s fun k =>
      (k.halt sc.val).state = .idle ∧ k.pins.dbgHalted = hl ∧
      (∀ x, (s.ktu.halt x).state ≠ .resuming → k.halt x = s.ktu.halt x) ∧ Ktu.only [.pins, .halts] s.ktu k := by
  obtain ⟨⟨honly, -, hothers⟩, hidle⟩ := Ktu.resumeDones_idle (k := s.ktu.withLines hl s.ktu.pins.engDrained) sc.isLt hst hheld hcores
  refine .of_onKtu (fun k => k.resumed hl) rfl hr ?_
  rw [show s.ktu.resumed hl = (List.range 17).foldl Ktu.resumeDone (s.ktu.withLines hl s.ktu.pins.engDrained) from rfl,
    Ktu.wakeCheck_halt, Ktu.only_wakeCheck, Ktu.wakeCheck_pins_dbgHalted, Ktu.dbgHalted_of_same (honly .pins (by decide))]
  exact ⟨hidle, rfl, fun x hx => (Ktu.wakeCheck_halt _ _).trans (hothers x hx),
    Ktu.only_trans (Ktu.only_mono (s.ktu.withPins_only _) (by decide)) (Ktu.only_mono honly (by decide))⟩

end

/-- Settles O13: a request arms its scope by the equation of a halt that begins, and the scopes that end are found by looking at each
context once. -/
theorem haltContexts : Obligations.HaltContexts := by
  refine ⟨?_, ?_, ?_, ?_, ?_⟩
  · intro s c n sc h hr hmask hc hb hen hsc hi hn hh hlt
    exact breakpoint_arms hr hn hh hlt c hmask hc hb hen hsc hi
  · intro s w n h hr hready hp hi hn hh hlt
    exact haltReq_arms hr hn hh hlt hready hp hi
  · intro s sc hl dr hr hst hcores hdoms
    exact drainComplete_halts hr sc hl dr hst hcores hdoms
  · intro s sc hr
    exact ⟨fun hst => haltTimeout_incomplete hr sc hst, fun hst hheld => haltTimeout_idle hr sc hst hheld⟩
  · intro s sc hl hr hst hheld hcores
    exact resumeComplete_idle hr sc hl hst hheld hcores

end Sys2Proof.Machine
end

section
/-! SUPPORT. What an operation of Naloder moves: the parts and the register fields it may touch, and how both are read after what follows
a change. -/

namespace Sys2Proof.Machine

-- One theorem at a time: elaborated side by side, those of this text need more stacks than the check has memory for.
set_option Elab.async false

open Sys2Proof

/-! ### The relation -/

/-- Between two Naloders only the parts in `l` have moved, and of the registers only the fields in `w`. -/
structure Nld.Moves (l : List NPart) (w : List (Fld × Nat)) (a b : Nld) : Prop where
  only : Nld.only l a b
  regsOnly : Nld.regsOnly w a b

/-- A copy of a field lies apart from the fields in `w` and from NLD_IRQ_PEND. -/
abbrev Fld.clearOf (w : List (Fld × Nat)) (f : Fld) (i : Nat) : Prop :=
  f.key i ≠ NReg.IRQ_PEND_pend.key 0 ∧ ∀ x ∈ w, f.key i ≠ x.1.key x.2

section
variable {l l' : List NPart} {w w' : List (Fld × Nat)} {a b c : Nld}

theorem Nld.Moves.refl (l : List NPart) (w : List (Fld × Nat)) (n : Nld) : Nld.Moves l w n n := ⟨n.only_refl l, n.regsOnly_refl w⟩

theorem Nld.Moves.mono (h : Nld.Moves l' w' a b) (hl : ∀ p ∈ l', p ∈ l := by decide) (hw : ∀ x ∈ w', x ∈ w := by decide) :
    Nld.Moves l w a b :=
  ⟨Nld.only_mono h.only hl, fun f i hp hf => h.regsOnly f i hp fun x hx => hf x (hw x hx)⟩

/-- A further operation that moves no more. -/
theorem Nld.Moves.step (h : Nld.Moves l w a b) (h' : Nld.Moves l' w' b c) (hl : ∀ p ∈ l', p ∈ l := by decide)
    (hw : ∀ x ∈ w', x ∈ w := by decide) : Nld.Moves l w a c where
  only := Nld.only_trans h.only (Nld.only_mono h'.only hl)
  regsOnly f i hp hf := (h'.regsOnly f i hp fun x hx => hf x (hw x hx)).trans (h.regsOnly f i hp hf)

theorem Nld.Moves.ite {p : Prop} [Decidable p] (h : Nld.Moves l w a b) (h' : Nld.Moves l w a c) :
    Nld.Moves l w a (if p then b else c) := by
  split
  · exact h
  · exact h'

/-- An operation that touches no register. -/
theorem Nld.Moves.of_only (h : Nld.only l a b) (hr : b.regs = a.regs) : Nld.Moves l [] a b :=
  ⟨h, fun f i _ _ => by rw [Nld.get, hr, Nld.get]⟩

section
variable (h : Nld.Moves l w a b)
include h

theorem Nld.Moves.get {f : Fld} {i : Nat} (hf : f.clearOf w i := by decide) : b.get f i = a.get f i := h.regsOnly f i hf.1 hf.2

theorem Nld.Moves.bit {f : Fld} {i : Nat} (hf : f.clearOf w i := by decide) : b.bit f i = a.bit f i := Nld.bit_congr (h.get hf)

theorem Nld.Moves.pkg (hl : NPart.pkg ∉ l := by decide) : b.pkg = a.pkg := h.only .pkg hl

end

/-! ### What follows a change -/

section
variable (h : Nld.Moves l w a b) (hrun : NReg.TICK_CTRL_run.clearOf w 0)
include h hrun

theorem Nld.Moves.after_only : Nld.only l a (Nld.after a b) := (Nld.only_after (h.bit hrun) l a).2 h.only

theorem Nld.Moves.after_pkg : (Nld.after a b).pkg = b.pkg := Nld.after_pkg (h.bit hrun)

theorem Nld.Moves.after_get {f : Fld} {i : Nat} (hf : f.key i ≠ NReg.IRQ_PEND_pend.key 0 := by decide) :
    (Nld.after a b).get f i = b.get f i := Nld.after_get (h.bit hrun) f i hf

theorem Nld.Moves.after_bit {f : Fld} {i : Nat} (hf : f.key i ≠ NReg.IRQ_PEND_pend.key 0 := by decide) :
    (Nld.after a b).bit f i = b.bit f i := Nld.bit_congr (h.after_get hrun hf)

end

end

/-! ### Registers -/

/-- The registers of the error ring, each with its one copy. -/
def errorRing : List (Fld × Nat) := ringFields.map fun f => (f, 0)

section
variable (n : Nld) (f : Fld) (v i : Nat)

theorem Nld.put_moves : Nld.Moves [.regs] [(f, i)] n (n.put f v i) :=
  ⟨Nld.only_put (n.only_refl _) (List.mem_singleton_self _) f v i, Nld.regsOnly_put (n.regsOnly_refl _) (List.mem_singleton_self _) v⟩

/-- Counting in a field sets it. -/
theorem Nld.count_moves : Nld.Moves [.regs] [(f, i)] n (n.count f v i) := n.put_moves f _ i

theorem Nld.raise_moves : Nld.Moves [.regs, .hwErr] ((f, i) :: errorRing) n (n.raise f v i) where
  only := by
    obtain ⟨r, h, e⟩ := n.raise_eq f v i
    rw [e]
    intro p hp
    cases p <;> simp [Nld.same] at hp ⊢
  regsOnly g j _ hg := by
    simp only [errorRing, ringFields, List.map, List.forall_mem_cons] at hg
    obtain ⟨hflag, hseq, hlost, -⟩ := hg
    exact Nld.get_raise_ne _ _ _ _ _ _ hflag hseq hlost

end

/-! ### Parts -/

section
variable (n : Nld)

theorem Nld.withPkg_moves (p : NPkg) : Nld.Moves [.pkg] [] n { n with pkg := p } :=
  .of_only (fun x hx => by cases x <;> simp [Nld.same] at hx ⊢; exact fun _ _ _ => rfl) rfl

theorem Nld.withHeld_moves (t : NTick) (s : NSeries) (h : NHost) :
    Nld.Moves [.tick, .series, .host] [] n { n with tick := t, series := s, host := h } :=
  .of_only (fun x hx => by cases x <;> simp [Nld.same] at hx ⊢; exact fun _ _ _ => rfl) rfl

theorem Nld.withRecorder_moves (r : NRecorder) : Nld.Moves [.recorder] [] n { n with recorder := r } :=
  .of_only (fun x hx => by cases x <;> simp [Nld.same] at hx ⊢; exact fun _ _ _ => rfl) rfl

theorem Nld.withRdma_moves (d : NRdma) : Nld.Moves [.rdma] [] n { n with rdma := d } :=
  .of_only (fun x hx => by cases x <;> simp [Nld.same] at hx ⊢; exact fun _ _ _ => rfl) rfl

end

/-! ### An event that is counted and raised -/

section
variable (n : Nld) {c e : Fld}

theorem Nld.countRaise_moves : Nld.Moves [.regs, .hwErr] ((c, 0) :: (e, 0) :: errorRing) n ((n.count c).raise e) :=
  ((n.count_moves c 1 0).mono (by decide) (by simp)).step (Nld.raise_moves _ e 1 0) (by decide) fun _ => List.mem_cons_of_mem _

theorem Nld.countRaise_count (hc : c.clearOf ((e, 0) :: errorRing) 0) :
    ((n.count c).raise e).get c = min (n.get c + 1) c.max :=
  ((n.count c).raise_moves e 1 0 |>.get hc).trans (n.get_count_same c 1 0)

end

end Sys2Proof.Machine
end

section
/-! SUPPORT. Errors of Naloder's memories and of the die-to-die link (R322 to R325, R702, R703): the first uncorrectable error is kept,
its granule is marked, and every error is counted and raises its event. -/

namespace Sys2Proof.Machine

-- One theorem at a time: elaborated side by side, those of this text need more stacks than the check has memory for.
set_option Elab.async false

open Sys2Proof

/-! ### The first uncorrectable error (R702) -/

/-- Where the first uncorrectable error is described. -/
def firstUeFields : List (Fld × Nat) := [(NReg.MEM_FIRST_structure, 0), (NReg.MEM_ADDR_LO_addr_lo, 0), (NReg.MEM_ADDR_HI_addr_hi, 0)]

/-- The first uncorrectable error since ue was last cleared names its structure and its address. -/
def Nld.blameUe (n : Nld) (structure_ addr : Nat) : Nld :=
  if n.bit NReg.MEM_EVT_ue then n
  else ((n.put NReg.MEM_FIRST_structure structure_).put NReg.MEM_ADDR_LO_addr_lo (addr % 2 ^ 32)).put NReg.MEM_ADDR_HI_addr_hi
    (addr / 2 ^ 32)

section
variable (n : Nld) (structure_ addr : Nat)

theorem Nld.noteUe_eq : n.noteUe structure_ addr = (n.blameUe structure_ addr).raise NReg.MEM_EVT_ue := rfl

theorem Nld.blameUe_moves : Nld.Moves [.regs] firstUeFields n (n.blameUe structure_ addr) :=
  .ite (.refl _ _ n) ((((n.put_moves _ _ 0).mono).step (Nld.put_moves _ _ _ 0)).step (Nld.put_moves _ _ _ 0))

theorem Nld.blameUe_first (h : n.bit NReg.MEM_EVT_ue = false) :
    (n.blameUe structure_ addr).get NReg.MEM_FIRST_structure = structure_ % 16 ∧
    (n.blameUe structure_ addr).get NReg.MEM_ADDR_LO_addr_lo = addr % 2 ^ 32 := by
  rw [Nld.blameUe, h, if_neg Bool.false_ne_true]
  constructor
  · rw [Nld.get_put_ne _ _ _ _ _ _ (by decide), Nld.get_put_ne _ _ _ _ _ _ (by decide), Nld.get_put_same]
    rfl
  · rw [Nld.get_put_ne _ _ _ _ _ _ (by decide), Nld.get_put_same]
    exact Nat.mod_mod _ _

theorem Nld.blameUe_kept (h : n.bit NReg.MEM_EVT_ue = true) : n.blameUe structure_ addr = n := by rw [Nld.blameUe, if_pos h]

end

/-! ### A granule is marked, and what it held is poisoned (R325) -/

/-- What is reported of an uncorrectable HBM error after it has been counted. -/
def markFields : List (Fld × Nat) :=
  [(NReg.HBM_MARKED_granules, 0), (NReg.MEM_EVT_marked, 0), (NReg.REC_LOST_count, 0), (NReg.REC_STATUS_queue_full, 0)] ++ errorRing

section
variable (n : Nld)

theorem Nld.markGranule_moves (key : Nat) : Nld.Moves [.regs, .pkg, .hwErr] markFields n (n.markGranule key) :=
  .ite (.refl _ _ n) (((n.withPkg_moves _).mono.step (Nld.put_moves _ _ _ 0)).step (Nld.raise_moves _ _ 1 0))

theorem Nld.mem_markGranule (key : Nat) : key ∈ (n.markGranule key).pkg.marked := by
  unfold Nld.markGranule
  split
  next h => simpa using h
  next => simp

theorem Nld.poisonHit_eq (hit : HbmHit) : ∃ t s h, n.poisonHit hit = { n with tick := t, series := s, host := h } := by
  cases hit with
  | other => exact ⟨n.tick, n.series, n.host, rfl⟩
  | pool g => exact ⟨n.tick, n.series, n.host, rfl⟩
  | history ctx seg => exact ⟨n.tick, _, n.host, rfl⟩
  | staged order => exact ⟨n.tick, n.series, _, rfl⟩
  | tick t pos series =>
    simp only [Nld.poisonHit]
    split
    · exact ⟨n.tick, n.series, n.host, rfl⟩
    split
    · exact ⟨n.tick, n.series, n.host, rfl⟩
    · exact ⟨_, n.series, n.host, rfl⟩

theorem Nld.poisonHit_moves (hit : HbmHit) : Nld.Moves [.tick, .series, .host] [] n (n.poisonHit hit) := by
  obtain ⟨t, s, h, e⟩ := n.poisonHit_eq hit
  rw [e]
  exact n.withHeld_moves t s h

/-! ### The error is recorded (R653, R656) -/

theorem Nld.recLose_moves : Nld.Moves [.regs, .recorder] [(NReg.REC_LOST_count, 0)] n n.recLose :=
  (n.withRecorder_moves _).mono.step (Nld.count_moves _ _ 1 0)

theorem Nld.submit_moves (type source : Nat) (items : List Nat) :
    Nld.Moves [.regs, .hwErr, .recorder] markFields n (n.submit type source items) :=
  .ite n.recLose_moves.mono (.ite (n.recLose_moves.mono.step (Nld.raise_moves _ _ 1 0)) (n.withRecorder_moves _).mono)

/-! ### An uncorrectable error of HBM (R325, R702) -/

/-- The granule that an uncorrectable HBM error marks, by region and number. -/
def hbmKey (addr : Nat) : HbmHit → Nat
  | .pool g => granuleKey poolRegion g
  | _ => addr / 256

/-- An uncorrectable HBM error is noted and counted. -/
def Nld.countUe (n : Nld) (addr : Nat) : Nld :=
  (n.noteUe (if addr / 256 % 64 < 32 then 6 else 7) addr).count NReg.MEM_UE_HBM_count

/-- The counted error's granule is marked, what it held poisoned, and the error recorded. -/
def Nld.markUe (n : Nld) (addr : Nat) (hit : HbmHit) : Nld :=
  ((n.markGranule (hbmKey addr hit)).poisonHit hit).submit 0x0009 5 [addr / 256 * 256]

/-- The fields that an uncorrectable HBM error may move. -/
def hbmUeFields : List (Fld × Nat) := firstUeFields ++ [(NReg.MEM_EVT_ue, 0), (NReg.MEM_UE_HBM_count, 0)] ++ markFields

section
variable (addr : Nat) (hit : HbmHit)

theorem Nld.hbmUe_eq : n.hbmUe addr hit = (n.countUe addr).markUe addr hit := by cases hit <;> rfl

theorem Nld.countUe_moves : Nld.Moves [.regs, .hwErr] hbmUeFields n (n.countUe addr) :=
  ((n.blameUe_moves _ addr).mono.step (Nld.raise_moves _ _ 1 0)).step (Nld.count_moves _ _ 1 0)

theorem Nld.markUe_moves : Nld.Moves [.regs, .pkg, .hwErr, .tick, .series, .host, .recorder] markFields n (n.markUe addr hit) :=
  ((n.markGranule_moves _).mono.step (Nld.poisonHit_moves _ hit)).step (Nld.submit_moves _ _ _ _)

theorem Nld.markUe_marked : hbmKey addr hit ∈ (n.markUe addr hit).pkg.marked := by
  rw [Nld.markUe, (Nld.submit_moves _ _ _ _).pkg, (Nld.poisonHit_moves _ hit).pkg]
  exact n.mem_markGranule _

theorem Nld.hbmUe_moves : Nld.Moves [.regs, .pkg, .hwErr, .tick, .series, .host, .recorder] hbmUeFields n (n.hbmUe addr hit) := by
  rw [Nld.hbmUe_eq]
  exact (n.countUe_moves addr).mono.step (Nld.markUe_moves _ addr hit)

/-- Marking and recording leave what was noted and counted. -/
theorem Nld.hbmUe_get {f : Fld} (hf : f.clearOf markFields 0 := by decide) : (n.hbmUe addr hit).get f = (n.countUe addr).get f := by
  rw [Nld.hbmUe_eq, (Nld.markUe_moves _ addr hit).get hf]

theorem Nld.countUe_flag : (n.countUe addr).bit NReg.MEM_EVT_ue = true := by
  rw [Nld.countUe, (Nld.count_moves _ _ 1 0).bit]
  exact Nld.bit_raise _ rfl (by decide) (by decide)

theorem Nld.countUe_count :
    (n.countUe addr).get NReg.MEM_UE_HBM_count = min (n.get NReg.MEM_UE_HBM_count + 1) NReg.MEM_UE_HBM_count.max := by
  rw [Nld.countUe, Nld.get_count_same, Nld.noteUe_eq, (Nld.raise_moves _ _ 1 0).get, (n.blameUe_moves _ _).get]

/-- Raising and counting leave the description of the first error. -/
theorem Nld.countUe_blame {f : Fld} (hf : f.clearOf ((NReg.MEM_UE_HBM_count, 0) :: (NReg.MEM_EVT_ue, 0) :: errorRing) 0 := by decide) :
    (n.countUe addr).get f = (n.blameUe (if addr / 256 % 64 < 32 then 6 else 7) addr).get f := by
  obtain ⟨hpend, hw⟩ := hf
  obtain ⟨hcount, hring⟩ := List.forall_mem_cons.1 hw
  rw [Nld.countUe, Nld.get_count_ne _ _ _ _ _ _ hcount, Nld.noteUe_eq, (Nld.raise_moves _ _ 1 0).get ⟨hpend, hring⟩]

end

/-! ### Correctable errors, the scrub and the die-to-die link (R322 to R325, R703) -/

/-- The counter of a memory's correctable errors. -/
def ceCounter : NldMem → Fld
  | .sram => NReg.MEM_CE_SRAM_count
  | .network => NReg.MEM_CE_NOC_count
  | .hbm => NReg.MEM_CE_HBM_count

theorem Nld.correctable_eq (m : NldMem) : n.correctable m = (n.count (ceCounter m)).raise NReg.MEM_EVT_ce := by cases m <;> rfl

/-- The counters of correctable errors lie apart from their event, and NLD_TICK_CTRL.run from both. -/
theorem ceCounter_apart (m : NldMem) : (ceCounter m).clearOf ((NReg.MEM_EVT_ce, 0) :: errorRing) 0 ∧
    NReg.TICK_CTRL_run.clearOf ((ceCounter m, 0) :: (NReg.MEM_EVT_ce, 0) :: errorRing) 0 := by
  cases m <;> decide

/-- The fields that a pass of the scrub may move. -/
def scrubFields : List (Fld × Nat) := [(NReg.HBM_SCRUB_progress, 0), (NReg.MEM_EVT_scrub_pass, 0)] ++ errorRing

theorem Nld.scrubPass_on (h : n.bit NReg.HBM_SCRUB_enable = true) :
    n.scrubPass = (n.put NReg.HBM_SCRUB_progress 0).raise NReg.MEM_EVT_scrub_pass := by rw [Nld.scrubPass, if_pos h]

theorem Nld.scrubPass_off (h : n.bit NReg.HBM_SCRUB_enable = false) : n.scrubPass = n := by
  rw [Nld.scrubPass, h, if_neg Bool.false_ne_true]

theorem Nld.scrubPass_moves : Nld.Moves [.regs, .hwErr] scrubFields n n.scrubPass :=
  .ite ((n.put_moves _ _ 0).mono.step (Nld.raise_moves _ _ 1 0)) (.refl _ _ n)

/-- The fields that a replayed transfer may move. -/
def replayFields : List (Fld × Nat) :=
  [(NReg.D2D_REPLAY_count, 0), (NReg.D2D_MAXNS_max_ns, 0), (NReg.D2D_EVT_replay, 0)] ++ errorRing

theorem Nld.d2dReplay_moves (ns : Nat) : Nld.Moves [.regs, .hwErr] replayFields n (n.d2dReplay ns) :=
  ((n.count_moves _ 1 0).mono.step (Nld.put_moves _ _ _ 0)).step (Nld.raise_moves _ _ 1 0)

theorem Nld.d2dReplay_count (ns : Nat) :
    (n.d2dReplay ns).get NReg.D2D_REPLAY_count = min (n.get NReg.D2D_REPLAY_count + 1) NReg.D2D_REPLAY_count.max := by
  rw [Nld.d2dReplay, (Nld.raise_moves _ _ 1 0).get, (Nld.put_moves _ _ _ 0).get, Nld.get_count_same]

theorem Nld.d2dReplay_maxNs (ns : Nat) :
    (n.d2dReplay ns).get NReg.D2D_MAXNS_max_ns = min 65535 (max ns (n.get NReg.D2D_MAXNS_max_ns)) := by
  rw [Nld.d2dReplay, (Nld.raise_moves _ _ 1 0).get, Nld.get_put_same]
  exact Nat.mod_eq_of_lt (Nat.lt_succ_of_le (Nat.min_le_left _ _))

end

/-! ### The error commands on a running Naloder -/

section
variable {s : State} (hr : s.nld.runs)
include hr

theorem hbmUe_does (addr : BitVec 37) (hit : HbmHit) : NldDoes (.hbmUe addr hit) s fun n =>
    n.bit NReg.MEM_EVT_ue = true ∧
    n.get NReg.MEM_UE_HBM_count = min (s.nld.get NReg.MEM_UE_HBM_count + 1) NReg.MEM_UE_HBM_count.max ∧
    (hit = .other → addr.toNat / 256 ∈ n.pkg.marked) ∧
    (s.nld.bit NReg.MEM_EVT_ue = false → n.get NReg.MEM_FIRST_structure = (if addr.toNat / 256 % 64 < 32 then 6 else 7) ∧
      n.get NReg.MEM_ADDR_LO_addr_lo = addr.toNat % 2 ^ 32) ∧
    (s.nld.bit NReg.MEM_EVT_ue = true → n.get NReg.MEM_FIRST_structure = s.nld.get NReg.MEM_FIRST_structure) ∧
    Nld.only [.regs, .pkg, .hwErr, .tick, .series, .host, .recorder] s.nld n := by
  have hm := s.nld.hbmUe_moves addr.toNat hit
  have hrun : NReg.TICK_CTRL_run.clearOf hbmUeFields 0 := by decide
  refine .of_onNld (fun n => n.hbmUe addr.toNat hit) rfl hr ⟨?_, ?_, fun ho => ?_, fun hb => ?_, fun hb => ?_, hm.after_only hrun⟩
  · rw [hm.after_bit hrun, Nld.bit_congr (s.nld.hbmUe_get _ _), s.nld.countUe_flag]
  · rw [hm.after_get hrun, s.nld.hbmUe_get, s.nld.countUe_count]
  · subst ho
    rw [hm.after_pkg hrun, Nld.hbmUe_eq]
    exact Nld.markUe_marked _ addr.toNat .other
  · obtain ⟨hstruct, haddr⟩ := s.nld.blameUe_first (if addr.toNat / 256 % 64 < 32 then 6 else 7) addr.toNat hb
    rw [hm.after_get hrun, hm.after_get hrun, s.nld.hbmUe_get, s.nld.hbmUe_get, s.nld.countUe_blame, s.nld.countUe_blame, hstruct]
    exact ⟨by split <;> rfl, haddr⟩
  · rw [hm.after_get hrun, s.nld.hbmUe_get, s.nld.countUe_blame, s.nld.blameUe_kept _ _ hb]

theorem scrubPass_on_does (hen : s.nld.bit NReg.HBM_SCRUB_enable = true) : NldDoes .scrubPassComplete s fun n =>
    n.bit NReg.MEM_EVT_scrub_pass = true ∧ n.get NReg.HBM_SCRUB_progress = 0 ∧ Nld.only [.regs, .hwErr] s.nld n := by
  have hm := s.nld.scrubPass_moves
  have hrun : NReg.TICK_CTRL_run.clearOf scrubFields 0 := by decide
  refine .of_onNld Nld.scrubPass rfl hr ⟨?_, ?_, hm.after_only hrun⟩
  · rw [hm.after_bit hrun, s.nld.scrubPass_on hen]
    exact Nld.bit_raise _ rfl (by decide) (by decide)
  · rw [hm.after_get hrun, s.nld.scrubPass_on hen, (Nld.raise_moves _ _ 1 0).get]
    exact s.nld.get_put_same _ _ _

theorem scrubPass_off_does (hen : s.nld.bit NReg.HBM_SCRUB_enable = false) :
    NldDoes .scrubPassComplete s fun n => Nld.only [] s.nld n := by
  refine .of_onNld Nld.scrubPass rfl hr ?_
  rw [s.nld.scrubPass_off hen]
  exact (Nld.Moves.refl [] [] s.nld).after_only (by decide)

/-- A command that counts in a field and raises an event. -/
theorem NldDoes.of_countRaise {c : Instr} {f : Nld → Nld} {cnt evt : Fld} (hc : exec c s = onNld f s)
    (hf : f s.nld = (s.nld.count cnt).raise evt) (hcnt : cnt.clearOf ((evt, 0) :: errorRing) 0)
    (hrun : NReg.TICK_CTRL_run.clearOf ((cnt, 0) :: (evt, 0) :: errorRing) 0) (hw : evt.width = 1) (hevt : evt.clearOf errorRing 0) :
    NldDoes c s fun n => n.get cnt = min (s.nld.get cnt + 1) cnt.max ∧ n.bit evt = true ∧ Nld.only [.regs, .hwErr] s.nld n := by
  have hm := s.nld.countRaise_moves (c := cnt) (e := evt)
  obtain ⟨hpend, hring⟩ := hevt
  refine .of_onNld f hc hr ?_
  rw [hf]
  refine ⟨?_, ?_, hm.after_only hrun⟩
  · rw [hm.after_get hrun hcnt.1, s.nld.countRaise_count hcnt]
  · rw [hm.after_bit hrun hpend]
    exact Nld.bit_raise _ hw (hring (NReg.HWERR_PROD_seq, 0) (by decide)) (hring (NReg.HWERR_LOST_count, 0) (by decide))

theorem correctableError_does (m : NldMem) : NldDoes (.correctableError (some m)) s fun n =>
    n.get (ceCounter m) = min (s.nld.get (ceCounter m) + 1) (ceCounter m).max ∧ n.bit NReg.MEM_EVT_ce = true ∧
    Nld.only [.regs, .hwErr] s.nld n := by
  obtain ⟨hcnt, hrun⟩ := ceCounter_apart m
  exact .of_countRaise hr (f := fun n => n.correctable m) rfl (s.nld.correctable_eq m) hcnt hrun rfl (by decide)

theorem d2dReplayLimit_does : NldDoes .d2dReplayLimit s fun n =>
    n.get NReg.D2D_UNC_count = min (s.nld.get NReg.D2D_UNC_count + 1) NReg.D2D_UNC_count.max ∧
    n.bit NReg.D2D_EVT_unc = true ∧ Nld.only [.regs, .hwErr] s.nld n :=
  .of_countRaise hr (f := Nld.d2dLimit) rfl rfl (by decide) (by decide) rfl (by decide)

theorem d2dReplay_does (ns : Nat) : NldDoes (.d2dReplay ns) s fun n =>
    n.get NReg.D2D_REPLAY_count = min (s.nld.get NReg.D2D_REPLAY_count + 1) NReg.D2D_REPLAY_count.max ∧
    n.get NReg.D2D_MAXNS_max_ns = min 65535 (max ns (s.nld.get NReg.D2D_MAXNS_max_ns)) ∧
    n.bit NReg.D2D_EVT_replay = true ∧ Nld.only [.regs, .hwErr] s.nld n := by
  have hm := s.nld.d2dReplay_moves ns
  have hrun : NReg.TICK_CTRL_run.clearOf replayFields 0 := by decide
  refine .of_onNld (fun n => n.d2dReplay ns) rfl hr ⟨?_, ?_, ?_, hm.after_only hrun⟩
  · rw [hm.after_get hrun, s.nld.d2dReplay_count]
  · rw [hm.after_get hrun, s.nld.d2dReplay_maxNs]
  · rw [hm.after_bit hrun]
    exact Nld.bit_raise _ rfl (by decide) (by decide)

end

end Sys2Proof.Machine
end

section
/-! SUPPORT. Check failures of Naloder's queues (R217, R218, R230, R233, R373, R492): what discarding a queue moves, and the
report; and the statement on Naloder's errors. -/

namespace Sys2Proof.Machine

-- One theorem at a time: elaborated side by side, those of this text need more stacks than the check has memory for.
set_option Elab.async false

open Sys2Proof

/-! ### A discard (R217, R218, R492) -/

/-- The fields that discarding a queue of port p, or the shared receive queue, may move. -/
def dropFields (p : Nat) : List (Fld × Nat) :=
  (NReg.FIFEp_MSGDROP_count, p) :: (NReg.HORNp_MSGDROP_count, p) :: (NReg.RDMA_SRQ_free, 0) :: (NReg.RDMA_EVT_srq_limit, 0) :: errorRing

/-- A check reset of a link end reports at most a message cut short. -/
theorem LinkEnd.checkReset_acts (e : LinkEnd) (i : Nat) : ∃ t, (e.checkReset i).2 = { trunc := t } := by
  unfold LinkEnd.checkReset
  split_ifs
  · exact ⟨_, rfl⟩
  all_goals exact ⟨false, rfl⟩

section
variable (n : Nld) (p : Nat)

theorem Nld.fifeActs_trunc (t : Bool) :
    n.fifeActs p { trunc := t } = if t then n.count NReg.FIFEp_MSGDROP_count 1 p else n := rfl

theorem Nld.hornActs_trunc (t : Bool) :
    n.hornActs p { trunc := t } = if t then n.count NReg.HORNp_MSGDROP_count 1 p else n := rfl

/-- A link operation on a Fife port that reports at most a message cut short. -/
theorem Nld.fifeOp_moves {f : LinkEnd → LinkEnd × LinkActs} (hf : ∀ e, ∃ t, (f e).2 = { trunc := t }) :
    Nld.Moves [.regs, .chains] (dropFields p) n (n.fifeOp p f) := by
  obtain ⟨t, ht⟩ := hf (n.fife p).link
  have hport (x : NFife) : Nld.Moves [.regs, .chains] (dropFields p) n (n.setFife p x) :=
    .mono (.of_only (l := [.chains]) (n.withChains_only _) rfl) (by decide) (by simp)
  rw [Nld.fifeOp, ht, Nld.fifeActs_trunc]
  exact .ite ((hport _).step (Nld.count_moves _ _ 1 p) (by decide) (by simp [dropFields])) (hport _)

theorem Nld.hornOp_moves {f : LinkEnd → LinkEnd × LinkActs} (hf : ∀ e, ∃ t, (f e).2 = { trunc := t }) :
    Nld.Moves [.regs, .group] (dropFields p) n (n.hornOp p f) := by
  obtain ⟨t, ht⟩ := hf (n.horn p).link
  have hport (x : NHorn) : Nld.Moves [.regs, .group] (dropFields p) n (n.setHorn p x) :=
    .mono (.of_only (l := [.group]) (n.withGroup_only _) rfl) (by decide) (by simp)
  rw [Nld.hornOp, ht, Nld.hornActs_trunc]
  exact .ite ((hport _).step (Nld.count_moves _ _ 1 p) (by decide) (by simp [dropFields])) (hport _)

theorem Nld.setSrq_moves (used : Nat) : Nld.Moves [.regs, .hwErr, .rdma]
    ((NReg.RDMA_SRQ_free, 0) :: (NReg.RDMA_EVT_srq_limit, 0) :: errorRing) n (n.setSrq used) :=
  have hfree := (n.withRdma_moves { n.rdma with srqUsed := used }).mono.step (Nld.put_moves _ NReg.RDMA_SRQ_free (512 - used) 0)
  .ite (hfree.step (Nld.raise_moves _ _ 1 0)) hfree

/-- The parts that a discard may move. -/
def dropParts : List NPart := [.regs, .hwErr, .chains, .group, .rdma]

theorem Nld.discardQueue_moves (id : Nat) : Nld.Moves dropParts (dropFields (id % 256 / 16)) n (n.discardQueue id) := by
  have hreset (e : LinkEnd) := e.checkReset_acts (id % 16)
  unfold Nld.discardQueue
  refine .ite ((n.fifeOp_moves _ hreset).mono (by decide) fun _ h => h) (.ite (.ite ?_ ?_) (.ite ?_ (.refl _ _ n)))
  · exact (n.hornOp_moves _ fun _ => ⟨false, rfl⟩).mono (by decide) fun _ h => h
  · exact (n.hornOp_moves _ hreset).mono (by decide) fun _ h => h
  · exact (n.setSrq_moves 512).mono (by decide) fun _ h => List.mem_cons_of_mem _ (List.mem_cons_of_mem _ h)

end

/-! ### A check failure (R217, R233) -/

/-- The fields of the report of a check failure. -/
def checkReports : List Fld := [NReg.QCHK_STATUS_chk_err, NReg.QCHK_STATUS_first_id, NReg.QCHK_COUNT_count]

/-- The report, and NLD_TICK_CTRL.run, lie apart from what a discard moves. -/
theorem dropFields_apart : ∀ p < 16, ∀ f ∈ NReg.TICK_CTRL_run :: checkReports, f.clearOf (dropFields p) 0 := by decide

/-- The fields that a check failure of a queue may move. -/
def checkFields (id : Nat) : List (Fld × Nat) := checkReports.map (fun f => (f, 0)) ++ dropFields (id % 256 / 16)

theorem checkFields_run (id : Nat) : NReg.TICK_CTRL_run.clearOf (checkFields id) 0 := by
  have hreport : NReg.TICK_CTRL_run.clearOf (checkReports.map (fun f => (f, 0))) 0 := by decide
  obtain ⟨hpend, hdrop⟩ := dropFields_apart (id % 256 / 16) (by omega) _ List.mem_cons_self
  exact ⟨hpend, fun x hx => (List.mem_append.1 hx).elim (hreport.2 x) (hdrop x)⟩

/-- The first check failure names its queue. -/
def Nld.checkBlame (n : Nld) (id : Nat) : Nld :=
  if n.bit NReg.QCHK_STATUS_chk_err then n else n.put NReg.QCHK_STATUS_first_id id

section
variable (n : Nld) (id : Nat)

theorem Nld.checkBlame_moves : Nld.Moves [.regs] [(NReg.QCHK_STATUS_first_id, 0)] n (n.checkBlame id) :=
  .ite (.refl _ _ n) (n.put_moves _ _ 0)

theorem Nld.checkBlame_id : (n.checkBlame id).get NReg.QCHK_STATUS_first_id = if n.bit NReg.QCHK_STATUS_chk_err = true
    then n.get NReg.QCHK_STATUS_first_id else id % 2 ^ NReg.QCHK_STATUS_first_id.width := by
  unfold Nld.checkBlame
  split
  · rfl
  · exact n.get_put_same _ _ _

/-- A discard leaves the report alone. -/
theorem Nld.discardQueue_get {f : Fld} (hf : f ∈ checkReports) : (n.discardQueue id).get f = n.get f :=
  (n.discardQueue_moves id).get (dropFields_apart _ (by omega) f (List.mem_cons_of_mem _ hf))

theorem Nld.checkFailure_unnamed (h : nldQueueNamed id = false) : n.checkFailure id = n := by
  rw [Nld.checkFailure, h, if_pos Bool.false_ne_true]

variable (h : nldQueueNamed id = true)
include h

theorem Nld.checkFailure_eq : n.checkFailure id =
    (((n.discardQueue id).checkBlame id).raise NReg.QCHK_STATUS_chk_err).count NReg.QCHK_COUNT_count := by
  rw [Nld.checkFailure, if_neg (not_not_intro h)]
  rfl

theorem Nld.checkFailure_moves : Nld.Moves dropParts (checkFields id) n (n.checkFailure id) := by
  have hmem {f : Fld} (hf : f ∈ checkReports) : (f, 0) ∈ checkFields id := List.mem_append_left _ (List.mem_map_of_mem hf)
  have hring : ∀ x ∈ errorRing, x ∈ checkFields id := by simp +contextual [checkFields, dropFields]
  rw [n.checkFailure_eq id h]
  refine ((((n.discardQueue_moves id).mono (fun _ h => h) fun _ => List.mem_append_right _).step
    (Nld.checkBlame_moves _ id) (by decide) ?_).step (Nld.raise_moves _ _ 1 0) (by decide) ?_).step (Nld.count_moves _ _ 1 0) (by decide) ?_
  · exact List.forall_mem_singleton.2 (hmem (by decide))
  · exact List.forall_mem_cons.2 ⟨hmem (by decide), hring⟩
  · exact List.forall_mem_singleton.2 (hmem (by decide))

theorem Nld.checkFailure_flag : (n.checkFailure id).bit NReg.QCHK_STATUS_chk_err = true := by
  rw [n.checkFailure_eq id h, (Nld.count_moves _ _ 1 0).bit]
  exact Nld.bit_raise _ rfl (by decide) (by decide)

theorem Nld.checkFailure_count :
    (n.checkFailure id).get NReg.QCHK_COUNT_count = min (n.get NReg.QCHK_COUNT_count + 1) NReg.QCHK_COUNT_count.max := by
  rw [n.checkFailure_eq id h, Nld.get_count_same, (Nld.raise_moves _ _ 1 0).get, (Nld.checkBlame_moves _ id).get,
    n.discardQueue_get id (by decide)]

theorem Nld.checkFailure_id : (n.checkFailure id).get NReg.QCHK_STATUS_first_id = if n.bit NReg.QCHK_STATUS_chk_err = true
    then n.get NReg.QCHK_STATUS_first_id else id % 2 ^ NReg.QCHK_STATUS_first_id.width := by
  rw [n.checkFailure_eq id h, (Nld.count_moves _ _ 1 0).get, (Nld.raise_moves _ _ 1 0).get, Nld.checkBlame_id,
    n.discardQueue_get id (by decide), Nld.bit_congr (n.discardQueue_get id (by decide))]

end

section
variable {s : State} {id : BitVec 16} (hr : s.nld.runs)
include hr

theorem nldCheckFailure_does (hn : nldQueueNamed id.toNat = true) : NldDoes (.queueCheckFailure (.nld id)) s fun n =>
    n.bit NReg.QCHK_STATUS_chk_err = true ∧
    n.get NReg.QCHK_COUNT_count = min (s.nld.get NReg.QCHK_COUNT_count + 1) NReg.QCHK_COUNT_count.max ∧
    n.get NReg.QCHK_STATUS_first_id = (if s.nld.bit NReg.QCHK_STATUS_chk_err = true
      then s.nld.get NReg.QCHK_STATUS_first_id else id.toNat % 2 ^ NReg.QCHK_STATUS_first_id.width) ∧
    Nld.only [.regs, .hwErr, .chains, .group, .rdma] s.nld n := by
  have hm := s.nld.checkFailure_moves id.toNat hn
  have hrun := checkFields_run id.toNat
  refine .of_onNld (fun n => n.checkFailure id.toNat) rfl hr ⟨?_, ?_, ?_, hm.after_only hrun⟩
  · rw [hm.after_bit hrun, s.nld.checkFailure_flag _ hn]
  · rw [hm.after_get hrun, s.nld.checkFailure_count _ hn]
  · rw [hm.after_get hrun, s.nld.checkFailure_id _ hn]

theorem nldCheckFailure_unnamed_does (hn : nldQueueNamed id.toNat = false) :
    NldDoes (.queueCheckFailure (.nld id)) s fun n => Nld.only [] s.nld n := by
  refine .of_onNld (fun n => n.checkFailure id.toNat) rfl hr ?_
  rw [s.nld.checkFailure_unnamed _ hn]
  exact (Nld.Moves.refl [] [] s.nld).after_only (by decide)

end

/-! ### The statement -/

/-- Settles O51: each error by the fields and parts it moves, and by its own report read after the rest of the report. -/
theorem nldErrors : Obligations.NldErrors := by
  refine ⟨fun s addr hit hr => hbmUe_does hr addr hit, fun s hr => ⟨scrubPass_on_does hr, scrubPass_off_does hr, ?_,
    d2dReplay_does hr, d2dReplayLimit_does hr⟩, fun s id hr => ⟨nldCheckFailure_does hr, nldCheckFailure_unnamed_does hr⟩⟩
  have hcounter : ∀ x ∈ [(NldMem.sram, NReg.MEM_CE_SRAM_count), (.network, NReg.MEM_CE_NOC_count), (.hbm, NReg.MEM_CE_HBM_count)],
      x.2 = ceCounter x.1 := by decide
  intro x hx
  rw [hcounter x hx]
  exact correctableError_does hr x.1

end Sys2Proof.Machine
end

section
/-! SUPPORT. Completions (R564, R573, R576, R588): what completing a descriptor writes to the host, and what it leaves of a Naloder. -/

namespace Sys2Proof.Machine

-- One theorem at a time: elaborated side by side, those of this text need more stacks than the check has memory for.
set_option Elab.async false

open Sys2Proof

/-! ### Rings -/

section
variable (n : Nld) (key : Nat) (r : RingRt)

@[simp] theorem Nld.setRing_ring_same : (n.setRing key r).ring key = r := Tbl.get_set_same _ _ _ _

theorem Nld.setRing_ring_other {k : Nat} (h : k ≠ key) : (n.setRing key r).ring k = n.ring k := Tbl.get_set_ne _ _ h _ _

theorem Nld.ring_of_rings {a b : Nld} (h : b.host.rings = a.host.rings) (k : Nat) : b.ring k = a.ring k := by
  rw [Nld.ring, h, Nld.ring]

end

/-! ### What only writes to the host -/

/-- Between two Naloders nothing has changed but rings, pending vectors and what went out to the host, and of the descriptors that the
rings hold none is new. -/
structure Nld.Wrote (a b : Nld) : Prop where
  parts : ∃ r p l, b = { a with host := { a.host with rings := r, pba := p }, out := a.out ++ l }
  held : ∀ k, ∀ d ∈ (b.ring k).held, d ∈ (a.ring k).held

section
variable {a b c : Nld}

theorem Nld.Wrote.refl (a : Nld) : Nld.Wrote a a := ⟨⟨a.host.rings, a.host.pba, [], by simp⟩, fun _ _ h => h⟩

theorem Nld.Wrote.trans (h : Nld.Wrote a b) (h' : Nld.Wrote b c) : Nld.Wrote a c where
  parts := by
    obtain ⟨r, p, l, rfl⟩ := h.parts
    obtain ⟨r', p', l', rfl⟩ := h'.parts
    exact ⟨r', p', l ++ l', by simp⟩
  held k d hd := h.held k d (h'.held k d hd)

theorem Nld.Wrote.ite {p : Prop} [Decidable p] (h : Nld.Wrote a b) (h' : Nld.Wrote a c) : Nld.Wrote a (if p then b else c) := by
  split
  · exact h
  · exact h'

theorem Nld.Wrote.of_signalled (h : Nld.signalled a b) : Nld.Wrote a b := by
  obtain ⟨p, l, rfl⟩ := h
  exact ⟨⟨a.host.rings, p, l, rfl⟩, fun _ _ hd => hd⟩

theorem Nld.emit_wrote (n : Nld) (o : HostOut) : Nld.Wrote n (n.emit o) := .of_signalled ⟨n.host.pba, [o], rfl⟩

/-- Bytes go out to a buffer of the host, if there are any. -/
def Nld.emitBytes (n : Nld) (dst : Nat) (bs : List Byte) : Nld := if bs.isEmpty then n else n.emit (.buffer dst bs)

theorem Nld.emitBytes_wrote (n : Nld) (dst : Nat) (bs : List Byte) : Nld.Wrote n (n.emitBytes dst bs) :=
  .ite (.refl n) (n.emit_wrote _)

theorem Nld.emitBytes_rings (n : Nld) (dst : Nat) (bs : List Byte) : (n.emitBytes dst bs).host.rings = n.host.rings := by
  unfold Nld.emitBytes
  split <;> rfl

/-- A ring that holds no new descriptor. -/
theorem Nld.setRing_wrote (n : Nld) {key : Nat} {r : RingRt} (h : ∀ d ∈ r.held, d ∈ (n.ring key).held) :
    Nld.Wrote n (n.setRing key r) where
  parts := ⟨_, n.host.pba, [], by rw [List.append_nil]; rfl⟩
  held k d hd := by
    by_cases hk : k = key
    · subst hk
      rw [Nld.setRing_ring_same] at hd
      exact h d hd
    · rwa [n.setRing_ring_other key r hk] at hd

section
variable (h : Nld.Wrote a b)
include h

theorem Nld.Wrote.host : ∃ r p, b.host = { a.host with rings := r, pba := p } := by
  obtain ⟨r, p, l, rfl⟩ := h.parts
  exact ⟨r, p, rfl⟩

theorem Nld.Wrote.out : ∃ l, b.out = a.out ++ l := by
  obtain ⟨r, p, l, rfl⟩ := h.parts
  exact ⟨l, rfl⟩

theorem Nld.Wrote.moves : Nld.Moves [.host] [] a b := by
  obtain ⟨r, p, l, rfl⟩ := h.parts
  exact .of_only (fun x hx => by cases x <;> simp [Nld.same] at hx ⊢; exact fun _ _ _ => rfl) rfl

end

end

/-! ### One completion (R564, R573, R588) -/

section
variable (n : Nld) (key : Nat)

theorem Nld.writeStatus_wrote : Nld.Wrote n (n.writeStatus key) := n.emit_wrote _

theorem Nld.ringSignal_wrote : Nld.Wrote n (n.ringSignal key) :=
  (n.setRing_wrote (r := { n.ring key with unsignalled := 0 }) fun _ h => h).trans (.of_signalled (Nld.signal_signalled _ _ _))

/-- A completion's words go out, the last with its phase; what else is done for it only writes to the host. -/
theorem Nld.pushCompletion_wrote (ws : List Nat) (irq : Bool) : ∃ at_ last,
    Nld.Wrote (n.emit (.write (key / 32) (key % 32) at_ (ws.take 7 ++ [last]))) (n.pushCompletion key ws irq) := by
  refine ⟨(n.ring key).compProd % n.ringSlots key,
    ws.getD 7 0 % 2 ^ 31 + phaseOf (n.ringSlots key) (n.ring key).compProd * 2 ^ 31, ?_⟩
  have hindex (m : Nld) (r : RingRt) (hr : ∀ d ∈ r.held, d ∈ (m.ring key).held) : Nld.Wrote m ((m.setRing key r).writeStatus key) :=
    (m.setRing_wrote hr).trans (Nld.writeStatus_wrote _ key)
  have hw (o : HostOut) := hindex (n.emit o)
    { n.ring key with compProd := (n.ring key).compProd + 1, unsignalled := (n.ring key).unsignalled + 1 } fun _ h => h
  exact .ite ((hw _).trans (Nld.ringSignal_wrote _ key)) (hw _)

/-- A ring without the descriptors of a slot. -/
def Nld.dropHeld (n : Nld) (key slot : Nat) : Nld :=
  n.setRing key { n.ring key with held := (n.ring key).held.filter (fun x => x.slot ≠ slot) }

theorem Nld.dropHeld_wrote (slot : Nat) : Nld.Wrote n (n.dropHeld key slot) :=
  n.setRing_wrote fun _ h => List.mem_of_mem_filter h

theorem Nld.dropHeld_held (slot : Nat) : ∀ d ∈ ((n.dropHeld key slot).ring key).held, d.slot ≠ slot := by
  intro d hd
  rw [Nld.dropHeld, Nld.setRing_ring_same] at hd
  simpa using List.of_mem_filter hd

/-- R573: the first words of a completion that goes out. -/
theorem Completion.words_taken (c : Completion) (last : Nat) : (c.words.take 7 ++ [last]).getD 0 0 = c.tag % 2 ^ 32 ∧
    (c.words.take 7 ++ [last]).getD 2 0 % 256 = c.status % 256 := by
  refine ⟨rfl, ?_⟩
  change (c.status % 256 + c.flags % 256 * 256 + c.detail % 2 ^ 16 * 2 ^ 16) % 256 = c.status % 256
  omega

section
variable (slot status flags detail : Nat) (result : List Byte)

theorem Nld.complete_wrote : Nld.Wrote n (n.complete key slot status flags detail result) := by
  unfold Nld.complete
  simp only
  split
  · exact .refl n
  · refine (n.dropHeld_wrote key slot).trans ?_
    split
    · obtain ⟨at_, last, h⟩ := (n.dropHeld key slot).pushCompletion_wrote key (Completion.words _) _
      exact (Nld.emit_wrote _ _).trans h
    · exact .refl _

/-- R573: a descriptor that a ring without error holds completes with its tag and a status. -/
theorem Nld.complete_completes (herr : (n.ring key).error = 0) (hheld : ∃ d ∈ (n.ring key).held, d.slot = slot) (hst : status < 256) :
    n.completes (n.complete key slot status flags detail result) key slot status := by
  obtain ⟨d, hd⟩ : ∃ d, (n.ring key).held.find? (fun d => d.slot = slot) = some d :=
    Option.isSome_iff_exists.1 (List.find?_isSome.2 (by simpa using hheld))
  have hslot : d.slot = slot := by simpa using List.find?_some hd
  have hpush : ∃ c : Completion, c.tag = d.tag ∧ c.status = status ∧
      n.complete key slot status flags detail result = (n.dropHeld key slot).pushCompletion key c.words d.irq := by
    refine ⟨⟨d.tag, slot, d.gen, status, flags ||| d.again.toNat, detail, result⟩, rfl, rfl, ?_⟩
    simp only [Nld.complete, hd, herr, if_true, Nld.dropHeld]
  obtain ⟨c, htag, hstatus, hpush⟩ := hpush
  obtain ⟨at_, last, hw⟩ := (n.dropHeld key slot).pushCompletion_wrote key c.words d.irq
  obtain ⟨l, hl⟩ := hw.out
  obtain ⟨hw0, hw2⟩ := c.words_taken last
  have hemit : n.emits ((n.dropHeld key slot).pushCompletion key c.words d.irq)
      (.write (key / 32) (key % 32) at_ (c.words.take 7 ++ [last])) := by
    refine ⟨.write (key / 32) (key % 32) at_ (c.words.take 7 ++ [last]) :: l, ?_, List.mem_cons_self⟩
    rw [hl, Nld.emit, List.append_assoc]
    rfl
  rw [hpush]
  exact ⟨⟨at_, _, hemit, by rw [hw2, hstatus, Nat.mod_eq_of_lt hst], d, List.mem_of_find?_eq_some hd, hslot, by rw [hw0, htag]⟩,
    fun x hx => n.dropHeld_held key slot x (hw.held key x hx)⟩

end

/-- R578: flushing unknown opcodes completes descriptors and does nothing else. -/
theorem Nld.flushUnknown_wrote (k : Nat) : Nld.Wrote n (Nld.flushUnknown key k n) := by
  induction k generalizing n with
  | zero => exact .refl n
  | succ k ih =>
    unfold Nld.flushUnknown
    split
    · split
      · exact .refl n
      · exact (n.complete_wrote key _ 3 0 0 []).trans (ih _)
    · exact .refl n

end

/-! ### A completion among other changes -/

section
variable {a b c : Nld} {key slot status : Nat}

/-- What Naloder did before, where it left the ring alone. -/
theorem Nld.completes.prepend (h : b.completes c key slot status) (hring : b.ring key = a.ring key) (hout : ∃ l, b.out = a.out ++ l) :
    a.completes c key slot status := by
  obtain ⟨⟨at_, ws, ⟨l', hl', hmem⟩, hst, hd⟩, hheld⟩ := h
  obtain ⟨l, hl⟩ := hout
  refine ⟨⟨at_, ws, ⟨l ++ l', ?_, List.mem_append_right _ hmem⟩, hst, hring ▸ hd⟩, hheld⟩
  rw [hl', hl, List.append_assoc]

/-- What Naloder does after, where its ring takes no new descriptor. -/
theorem Nld.completes.append (h : a.completes b key slot status) (hheld : ∀ d ∈ (c.ring key).held, d ∈ (b.ring key).held)
    (hout : ∃ l, c.out = b.out ++ l) : a.completes c key slot status := by
  obtain ⟨⟨at_, ws, ⟨l', hl', hmem⟩, hst, hd⟩, hgone⟩ := h
  obtain ⟨l, hl⟩ := hout
  refine ⟨⟨at_, ws, ⟨l' ++ l, ?_, List.mem_append_left _ hmem⟩, hst, hd⟩, fun d hd => hgone d (hheld d hd)⟩
  rw [hl, hl', List.append_assoc]

theorem Nld.completes.wrote (h : a.completes b key slot status) (hw : Nld.Wrote b c) : a.completes c key slot status :=
  h.append (hw.held key) hw.out

end

/-! ### What follows a change -/

section
variable {b n : Nld} (h : n.bit NReg.TICK_CTRL_run = b.bit NReg.TICK_CTRL_run)
include h

/-- Of the host engine only the pending vectors may move. -/
theorem Nld.after_host : ∃ p, (Nld.after b n).host = { n.host with pba := p } := by
  obtain ⟨r, p, o, c, l, e, -⟩ := Nld.after_eq b n h
  exact ⟨p, by rw [e]⟩

theorem Nld.completes.after {a : Nld} {key slot status : Nat} (hc : a.completes n key slot status) :
    a.completes (Nld.after b n) key slot status := by
  obtain ⟨p, hp⟩ := Nld.after_host h
  have hring : (Nld.after b n).ring key = n.ring key := Nld.ring_of_rings (by rw [hp]) key
  exact hc.append (fun d hd => hring ▸ hd) (Nld.after_out h)

end

end Sys2Proof.Machine
end

section
/-! SUPPORT. The descriptors that the queue engine takes itself (R431, R579, R580): their turn and their completion; content taps and
history reads. -/

namespace Sys2Proof.Machine

-- One theorem at a time: elaborated side by side, those of this text need more stacks than the check has memory for.
set_option Elab.async false

open Sys2Proof

/-! ### A descriptor whose turn it is -/

section
variable {n : Nld} {h : DescHdr}

/-- The next descriptor of a ring is held in its slot. -/
theorem Nld.isNext_held (hnext : n.isNext h = true) : n.holds h = true ∧ ∃ d ∈ (n.ring h.key).held, d.slot = h.slot := by
  unfold Nld.isNext at hnext
  split at hnext
  case h_1 d hd =>
    have hmem := List.mem_of_find?_eq_some hd
    obtain ⟨hslot, hgen⟩ : d.slot = h.slot ∧ d.gen = h.gen.toNat := by simpa using hnext
    exact ⟨List.any_eq_true.2 ⟨d, hmem, by simp [hslot, hgen]⟩, d, hmem, hslot⟩
  case h_2 => exact absurd hnext Bool.false_ne_true

/-- No poll has to stand for a descriptor that is held. -/
theorem Nld.present_held (hh : n.holds h = true) (op : Nat) : n.present h op = n := if_pos (.inl hh)

/-- The queue engine acts on a descriptor whose turn it is. -/
theorem Nld.onDevice_turn {type : Nat} (ht : n.deviceTurn h type) (op : Nat) (f : Nld → Nld) :
    n.onDevice h type op f = Nld.flushUnknown h.key 16 (f n) := by
  obtain ⟨htype, hnext, -⟩ := ht
  unfold Nld.onDevice
  rw [Nld.present_held (Nld.isNext_held hnext).1 op]
  exact if_pos ⟨htype, hnext⟩

end

/-- A command of the queue engine that prepares a state `m` without touching the ring, and completes its descriptor from there. -/
theorem NldDoes.of_done {c : Instr} {s : State} {P : Nld → Prop} {h : DescHdr} {type op st detail flags : Nat} {result : List Byte}
    {f : Nld → Nld} (m : Nld) (hc : exec c s = onNld (fun n => n.onDevice h type op f) s) (hr : s.nld.runs)
    (ht : s.nld.deviceTurn h type) (hf : f s.nld = m.done h st detail result flags) (hm : Nld.Moves [.host] [] s.nld m)
    (hring : m.ring h.key = s.nld.ring h.key) (hout : ∃ l, m.out = s.nld.out ++ l) (hst : st < 256)
    (hP : ∀ n, s.nld.completes n h.key h.slot st → (∃ r p, n.host = { m.host with rings := r, pba := p }) →
      Nld.only [.host] s.nld n → P n) : NldDoes c s P := by
  have hw : Nld.Wrote (m.done h st detail result flags) (Nld.flushUnknown h.key 16 (m.done h st detail result flags)) :=
    Nld.flushUnknown_wrote _ _ _
  have hmw := (m.complete_wrote h.key h.slot st flags detail result).trans hw
  have hmoves := hm.step hmw.moves
  have hrun : NReg.TICK_CTRL_run.clearOf [] 0 := by decide
  obtain ⟨htype, hnext, herr⟩ := id ht
  have hdone := (m.complete_completes h.key h.slot st flags detail result (hring ▸ herr)
    (hring ▸ (Nld.isNext_held hnext).2) hst).prepend hring hout
  refine .of_onNld _ hc hr ?_
  rw [Nld.onDevice_turn ht, hf]
  refine hP _ ((hdone.wrote hw).after (hmoves.bit hrun)) ?_ (hmoves.after_only hrun)
  obtain ⟨r, p, hhost⟩ := hmw.host
  obtain ⟨p', hp'⟩ := Nld.after_host (hmoves.bit hrun)
  exact ⟨r, p', by rw [hp', hhost]⟩

/-- A command that is refused completes its descriptor with a status and does nothing else. -/
theorem NldDoes.of_refused {c : Instr} {s : State} {h : DescHdr} {type op st : Nat} {f : Nld → Nld}
    (hc : exec c s = onNld (fun n => n.onDevice h type op f) s) (hr : s.nld.runs) (ht : s.nld.deviceTurn h type)
    (hf : f s.nld = s.nld.done h st) (hst : st < 256) : NldDoes c s fun n =>
      s.nld.completes n h.key h.slot st ∧ n.host.staged = s.nld.host.staged ∧ Nld.only [.host] s.nld n := by
  refine .of_done s.nld hc hr ht hf (.refl _ _ _) rfl ⟨[], (List.append_nil _).symm⟩ hst fun n hdone hhost honly => ?_
  obtain ⟨r, p, hhost⟩ := hhost
  exact ⟨hdone, by rw [hhost], honly⟩

/-! ### Parts moved alone -/

section
variable (n : Nld)

/-- A change of the host engine, and what goes out to the host, which is no part. -/
theorem Nld.withHost_moves (x : NHost) (o : List HostOut) : Nld.Moves [.host] [] n { n with host := x, out := o } :=
  .of_only (fun p hp => by cases p <;> simp [Nld.same] at hp ⊢; exact fun _ _ _ => rfl) rfl

theorem Nld.withSeries_moves (x : NSeries) : Nld.Moves [.series] [] n { n with series := x } :=
  .of_only (fun p hp => by cases p <;> simp [Nld.same] at hp ⊢; exact fun _ _ _ => rfl) rfl

end

/-! ### Content taps (R431, R579) -/

section
variable {s : State} {h : DescHdr} {tap : Fin 16} {q : BitVec 28} {bs : List Byte} (hr : s.nld.runs) (ht : s.nld.deviceTurn h 4)
include hr ht

theorem tapSubmit_staged_does (ho : s.nld.tapOwner tap.val = h.owner) (h1 : 1 ≤ bs.length) (h2 : bs.length ≤ 65536) :
    NldDoes (.contentTapSubmit h tap q bs) s fun n =>
      s.nld.completes n h.key h.slot 0 ∧ n.host.staged = s.nld.host.staged ++
        [⟨tap.val, q.toNat, 0, s.nld.now, s.nld.host.tapCount, words64 bs⟩] ∧
      n.host.tapCount = s.nld.host.tapCount + 1 ∧ Nld.only [.host] s.nld n := by
  have hlen : ¬ (bs.length = 0 ∨ bs.length > 65536) := by omega
  refine .of_done (s.nld.stage tap.val q.toNat 0 bs) rfl hr ht ((if_neg (not_not_intro ho)).trans (if_neg hlen))
    (s.nld.withHost_moves _ _) rfl ⟨[], (List.append_nil _).symm⟩ (by decide) fun n hdone hhost honly => ?_
  obtain ⟨r, p, hhost⟩ := hhost
  exact ⟨hdone, by rw [hhost]; rfl, by rw [hhost]; rfl, honly⟩

theorem tapSubmit_malformed_does (ho : s.nld.tapOwner tap.val = h.owner) (hlen : bs.length = 0 ∨ 65536 < bs.length) :
    NldDoes (.contentTapSubmit h tap q bs) s fun n =>
      s.nld.completes n h.key h.slot 3 ∧ n.host.staged = s.nld.host.staged ∧ Nld.only [.host] s.nld n :=
  .of_refused rfl hr ht ((if_neg (not_not_intro ho)).trans (if_pos hlen)) (by decide)

theorem tapSubmit_foreign_does (ho : s.nld.tapOwner tap.val ≠ h.owner) : NldDoes (.contentTapSubmit h tap q bs) s fun n =>
    s.nld.completes n h.key h.slot 2 ∧ n.host.staged = s.nld.host.staged ∧ Nld.only [.host] s.nld n :=
  .of_refused rfl hr ht (if_pos ho) (by decide)

end

/-- Where the sequences that expire for an owner's function are counted. -/
def tapDrop (fn : Nat) : Fld × Nat := hqField NReg.HQ_TAPDROP_count NReg.VHQ_TAPDROP_count fn

/-- The copies of NLD_HQ_TAPDROP lie apart from NLD_TICK_CTRL.run. -/
theorem tapDrop_apart (fn : Nat) : NReg.TICK_CTRL_run.clearOf [tapDrop fn] 0 := by
  refine ⟨by decide, List.forall_mem_singleton.2 ?_⟩
  unfold tapDrop hqField
  split
  · decide
  · change 0xC8000 * 32 + 0 ≠ (0x1010028 + 0x10000 * (fn - 1)) * 32 + 0
    omega

/-- A sequence leaves content-tap staging. -/
def Nld.unstage (n : Nld) (order : Nat) : Nld :=
  { n with host := { n.host with staged := n.host.staged.filter (fun x => x.order ≠ order) } }

section
variable {n : Nld} {o : Nat} {q : StagedSeq} (hq : n.host.staged.find? (fun q => q.order = o) = some q) (hfree : n.tapTaken q = false)
include hq hfree

theorem Nld.tapExpire_free : n.tapExpire o =
    (n.unstage o).count (tapDrop (ownerFn (n.tapOwner q.tap))).1 1 (tapDrop (ownerFn (n.tapOwner q.tap))).2 := by
  unfold Nld.tapExpire
  simp only [hq, hfree, Bool.false_eq_true, if_false]
  rfl

theorem Nld.tapExpire_moves : Nld.Moves [.regs, .host] [tapDrop (ownerFn (n.tapOwner q.tap))] n (n.tapExpire o) := by
  rw [Nld.tapExpire_free hq hfree]
  exact ((n.withHost_moves _ n.out).mono (by decide) (by simp)).step (Nld.count_moves _ _ 1 _) (by decide) fun _ hx => hx

theorem Nld.tapExpire_staged : (n.tapExpire o).host.staged = n.host.staged.filter (fun x => x.order ≠ o) := by
  rw [Nld.tapExpire_free hq hfree]
  rfl

end

section
variable {s : State} {o : Nat} (hr : s.nld.runs)
include hr

theorem tapExpiry_does {q : StagedSeq} (hq : s.nld.host.staged.find? (fun q => q.order = o) = some q)
    (hfree : s.nld.tapTaken q = false) : NldDoes (.tapSequenceExpiry o) s fun n =>
      (∀ x ∈ n.host.staged, x.order ≠ o) ∧ (∀ x ∈ s.nld.host.staged, x.order ≠ o → x ∈ n.host.staged) ∧
      Nld.only [.regs, .host] s.nld n := by
  have hm := Nld.tapExpire_moves hq hfree
  have hrun := tapDrop_apart (ownerFn (s.nld.tapOwner q.tap))
  obtain ⟨p, hp⟩ := Nld.after_host (hm.bit hrun)
  refine .of_onNld (fun n => n.tapExpire o) rfl hr ?_
  rw [hp, Nld.tapExpire_staged hq hfree]
  refine ⟨fun x hx => ?_, fun x hx hne => ?_, hm.after_only hrun⟩
  · simpa using List.of_mem_filter hx
  · exact List.mem_filter.2 ⟨hx, by simpa using hne⟩

theorem tapExpiry_gone_does (hq : s.nld.host.staged.find? (fun q => q.order = o) = none) :
    NldDoes (.tapSequenceExpiry o) s fun n => Nld.only [] s.nld n := by
  refine .of_onNld (fun n => n.tapExpire o) rfl hr ?_
  unfold Nld.tapExpire
  simp only [hq]
  exact (Nld.Moves.refl [] [] s.nld).after_only (by decide)

end

/-! ### History reads (R366, R580) -/

/-- The bytes of a history read: as many whole entries as the destination takes. -/
def historyBytes (vals : List TElem) (dstLen : Nat) : List Byte :=
  (vals.flatMap (fun v => leBytes 8 v.bits ++ leBytes 1 v.status)).take (dstLen / 9 * 9)

section
variable {s : State} {h : DescHdr} {c : Nat} {first : BitVec 48} {k : Nat} {dst : BitVec 64} {len : Nat} (hr : s.nld.runs)
  (ht : s.nld.deviceTurn h 5) (hc : c < 262144) (h1 : 1 ≤ k) (h2 : k ≤ 65536)
include hr ht hc h1 h2

theorem historyRead_foreign_does (ho : (Tbl.get ({} : SerCtx) c s.nld.series.ctx).owner ≠ h.owner) :
    NldDoes (.historyRead h c first k dst len) s fun n => s.nld.completes n h.key h.slot 2 ∧ Nld.only [.host] s.nld n := by
  have hgood : ¬ (c ≥ 262144 ∨ k = 0 ∨ k > 65536) := by omega
  obtain ⟨n, hn, hdone, -, honly⟩ := NldDoes.of_refused (c := .historyRead h c first k dst len) rfl hr ht
    ((if_neg hgood).trans (if_pos ho)) (by decide)
  exact ⟨n, hn, hdone, honly⟩

/-- The bytes read go out, if there are any, before the descriptor completes. -/
theorem historyRead_owned_does (ho : (Tbl.get ({} : SerCtx) c s.nld.series.ctx).owner = h.owner) :
    NldDoes (.historyRead h c first k dst len) s fun n =>
      (∃ st ≤ 1, s.nld.completes n h.key h.slot st) ∧ Nld.only [.host] s.nld n := by
  have hgood : ¬ (c ≥ 262144 ∨ k = 0 ∨ k > 65536) := by omega
  rcases hv : s.nld.historyRead c first.toNat k (Tbl.get ({} : SerCtx) c s.nld.series.ctx).bp with ⟨tier, vals⟩
  have hst : (if (historyBytes vals len).length < 9 * k then 1 else 0) ≤ 1 := by split <;> decide
  have hw := s.nld.emitBytes_wrote dst.toNat (historyBytes vals len)
  exact .of_done (s.nld.emitBytes dst.toNat (historyBytes vals len)) rfl hr ht
    ((if_neg hgood).trans ((if_neg (not_not_intro ho)).trans (by rw [hv]; rfl))) hw.moves
    (Nld.ring_of_rings (s.nld.emitBytes_rings _ _) _) hw.out (Nat.lt_of_le_of_lt hst (by decide))
    fun n hdone _ honly => ⟨⟨_, hst, hdone⟩, honly⟩

end

end Sys2Proof.Machine
end

section
/-! SUPPORT. The lanes of the bulk codec (R234, R266): what a lane that looks for a job may do, and that no job is lost. -/

namespace Sys2Proof.Machine

-- One theorem at a time: elaborated side by side, those of this text need more stacks than the check has memory for.
set_option Elab.async false

open Sys2Proof

/-- A job waits for a lane, or a lane runs it. -/
def Nld.hasJob (n : Nld) (j : BulkJob) : Prop := j ∈ n.host.waiting ∨ j ∈ n.lane 0 ∨ j ∈ n.lane 1

/-- Jobs are those of the queue and of the lanes. -/
theorem Nld.hasJob_congr {a b : Nld} {j : BulkJob} (hw : b.host.waiting = a.host.waiting) (hl : b.host.lanes = a.host.lanes) :
    b.hasJob j ↔ a.hasJob j := by
  simp only [Nld.hasJob, Nld.lane, hw, hl]

/-! ### A lane -/

section
variable (n : Nld) (l : Nat) (js : List BulkJob)

@[simp] theorem Nld.setLane_lane_same : (n.setLane l js).lane l = js := Tbl.get_set_same _ _ _ _

theorem Nld.setLane_lane_other {m : Nat} (h : m ≠ l) : (n.setLane l js).lane m = n.lane m := Tbl.get_set_ne _ _ h _ _

theorem Nld.setLane_moves : Nld.Moves [.regs, .host] [(NReg.BULK_STATUS_busy, 0)] n (n.setLane l js) :=
  (n.withHost_moves { n.host with lanes := Tbl.set [] l js n.host.lanes } n.out).mono.step (Nld.put_moves _ _ _ 0)

end

/-! ### A lane looks for a job -/

section
variable (n : Nld) (l : Nat)

/-- R234, R266: a lane takes nothing, or, where it is enabled and free, one of the jobs that wait. -/
theorem Nld.dispatch_cases : Nld.dispatch l n = n ∨ (bitOf (n.get NReg.BULK_CTRL_lane_en) l = true ∧ n.lane l = [] ∧
    ∃ j rr, Nld.dispatch l n =
      Nld.setLane { n with host := { n.host with bulkRr := rr, waiting := n.host.waiting.erase j } } l [j]) := by
  unfold Nld.dispatch
  split
  · exact .inl rfl
  next hfree =>
    split
    · exact .inl rfl
    next i rr _ =>
      split
      · exact .inl rfl
      next j _ => exact .inr ⟨by simpa using fun h => hfree (.inl h), by simpa using fun h => hfree (.inr h), j, rr, rfl⟩

theorem Nld.dispatch_moves : Nld.Moves [.regs, .host] [(NReg.BULK_STATUS_busy, 0)] n (Nld.dispatch l n) := by
  obtain h | ⟨-, -, j, rr, h⟩ := n.dispatch_cases l
  · rw [h]
    exact .refl _ _ n
  · rw [h]
    exact (n.withHost_moves _ n.out).mono.step (Nld.setLane_moves _ l [j])

theorem Nld.dispatch_rings : (Nld.dispatch l n).host.rings = n.host.rings ∧ (Nld.dispatch l n).out = n.out := by
  obtain h | ⟨-, -, j, rr, h⟩ := n.dispatch_cases l
  all_goals rw [h]; exact ⟨rfl, rfl⟩

/-- A lane that is not enabled takes nothing. -/
theorem Nld.dispatch_off (h : bitOf (n.get NReg.BULK_CTRL_lane_en) l = false) : Nld.dispatch l n = n := by
  obtain he | ⟨hon, -⟩ := n.dispatch_cases l
  · exact he
  · exact absurd (h.symm.trans hon) Bool.false_ne_true

variable {n l}

theorem Nld.setLane_hasJob {j : BulkJob} (h : n.hasJob j) (hl : l < 2) (hfree : n.lane l = []) (x : BulkJob) (rr : Tbl Nat) :
    (Nld.setLane { n with host := { n.host with bulkRr := rr, waiting := n.host.waiting.erase x } } l [x]).hasJob j := by
  generalize hm : ({ n with host := { n.host with bulkRr := rr, waiting := n.host.waiting.erase x } } : Nld) = m
  have hlane (i : Nat) : m.lane i = n.lane i := by subst hm; rfl
  have hwait : (m.setLane l [x]).host.waiting = n.host.waiting.erase x := by subst hm; rfl
  have hkeep {i : Nat} (hj : j ∈ n.lane i) : j ∈ (m.setLane l [x]).lane i := by
    have hi : i ≠ l := by
      rintro rfl
      rw [hfree] at hj
      exact absurd hj List.not_mem_nil
    rwa [m.setLane_lane_other l [x] hi, hlane]
  obtain hj | hj | hj := h
  · by_cases hx : j = x
    · have hjx : j ∈ (m.setLane l [x]).lane l := by
        rw [Nld.setLane_lane_same]
        exact List.mem_singleton.2 hx
      obtain rfl | rfl : l = 0 ∨ l = 1 := by omega
      · exact .inr (.inl hjx)
      · exact .inr (.inr hjx)
    · rw [Nld.hasJob, hwait]
      exact .inl ((List.mem_erase_of_ne hx).2 hj)
  · exact .inr (.inl (hkeep hj))
  · exact .inr (.inr (hkeep hj))

/-- A job that a lane takes leaves the queue for the lane, and no other job moves. -/
theorem Nld.dispatch_hasJob {j : BulkJob} (h : n.hasJob j) (hl : l < 2) : (Nld.dispatch l n).hasJob j := by
  obtain he | ⟨-, hfree, x, rr, he⟩ := n.dispatch_cases l
  · rwa [he]
  · rw [he]
    exact Nld.setLane_hasJob h hl hfree x rr

end

/-! ### Both lanes -/

section
variable (n : Nld)

theorem Nld.dispatchAll_moves : Nld.Moves [.regs, .host] [(NReg.BULK_STATUS_busy, 0)] n n.dispatchAll :=
  (n.dispatch_moves 0).step (Nld.dispatch_moves _ 1)

theorem Nld.dispatchAll_rings : n.dispatchAll.host.rings = n.host.rings ∧ n.dispatchAll.out = n.out := by
  obtain ⟨hr0, ho0⟩ := n.dispatch_rings 0
  obtain ⟨hr1, ho1⟩ := (Nld.dispatch 0 n).dispatch_rings 1
  exact ⟨hr1.trans hr0, ho1.trans ho0⟩

theorem Nld.dispatchAll_hasJob {j : BulkJob} (h : n.hasJob j) : n.dispatchAll.hasJob j :=
  Nld.dispatch_hasJob (Nld.dispatch_hasJob h (by decide)) (by decide)

theorem Nld.dispatchAll_off (h : n.get NReg.BULK_CTRL_lane_en = 0) : n.dispatchAll = n := by
  have hoff (l : Nat) : bitOf (n.get NReg.BULK_CTRL_lane_en) l = false := by simp [h, bitOf]
  rw [Nld.dispatchAll, n.dispatch_off 0 (hoff 0), n.dispatch_off 1 (hoff 1)]

end

end Sys2Proof.Machine
end

section
/-! SUPPORT. Bulk jobs (R259 to R266, R580): a job submitted, a job completed, the lanes enabled; and the statement on the host's
devices. -/

namespace Sys2Proof.Machine

-- One theorem at a time: elaborated side by side, those of this text need more stacks than the check has memory for.
set_option Elab.async false

open Sys2Proof

/-! ### A job is submitted (R580) -/

theorem busy_apart : NReg.TICK_CTRL_run.clearOf [(NReg.BULK_STATUS_busy, 0)] 0 := by decide

/-- The job of a descriptor. -/
def bulkJobOf (h : DescHdr) (d : HeldDesc) (decompress : Bool) (o : BulkOperands) : BulkJob :=
  { fn := h.fn.val, ring := h.ring.val, hdr := d, decompress := decompress, cont := o.cont, input := o.input,
    poisonAt := o.poisonAt, dst := o.dst, origLen := o.origLen, dstLen := o.dstLen, crcState := o.crcState.toNat,
    table := o.table.val, gen := o.gen.toNat }

/-- A job joins the queue, its descriptor begun. -/
def Nld.enqueue (n : Nld) (h : DescHdr) (j : BulkJob) : Nld :=
  { n.journal h [] with host := { (n.journal h []).host with waiting := n.host.waiting ++ [j] } }

section
variable {n : Nld} {h : DescHdr}

theorem Nld.bulkSubmit_turn (ht : n.deviceTurn h 5) (decompress : Bool) (o : BulkOperands) : ∃ d : HeldDesc, d.slot = h.slot ∧
    n.bulkSubmit h decompress o = Nld.flushUnknown h.key 16 (n.enqueue h (bulkJobOf h d decompress o)).dispatchAll := by
  obtain ⟨-, hnext, -⟩ := id ht
  obtain ⟨d, hd⟩ : ∃ d, (n.ring h.key).held.find? (fun d => d.slot = h.slot) = some d :=
    Option.isSome_iff_exists.1 (List.find?_isSome.2 (by simpa using (Nld.isNext_held hnext).2))
  refine ⟨d, by simpa using List.find?_some hd, ?_⟩
  unfold Nld.bulkSubmit
  rw [Nld.onDevice_turn ht]
  simp only [hd]
  rfl

theorem Nld.enqueue_hasJob (n : Nld) (h : DescHdr) (j : BulkJob) : (n.enqueue h j).hasJob j :=
  .inl (List.mem_append_right _ (List.mem_singleton_self j))

end

/-- A submitted job waits for a lane or has taken one. -/
theorem bulkSubmit_does {s : State} {h : DescHdr} {c : Instr} {decompress : Bool} {o : BulkOperands}
    (hc : exec c s = onNld (fun n => n.bulkSubmit h decompress o) s) (hr : s.nld.runs) (ht : s.nld.deviceTurn h 5) :
    NldDoes c s fun n => (∃ j, (j ∈ n.host.waiting ∨ j ∈ n.lane 0 ∨ j ∈ n.lane 1) ∧ j.fn = h.fn.val ∧ j.ring = h.ring.val ∧
      j.hdr.slot = h.slot ∧ j.decompress = decompress ∧ j.input = o.input ∧ j.dst = o.dst) ∧ Nld.only [.regs, .host] s.nld n := by
  obtain ⟨d, hslot, he⟩ := Nld.bulkSubmit_turn ht decompress o
  generalize hj : bulkJobOf h d decompress o = j at he
  have hw := Nld.flushUnknown_wrote (s.nld.enqueue h j).dispatchAll h.key 16
  have hm : Nld.Moves [.regs, .host] [(NReg.BULK_STATUS_busy, 0)] s.nld (s.nld.bulkSubmit h decompress o) := by
    rw [he]
    exact ((s.nld.withHost_moves _ s.nld.out).mono.step (Nld.dispatchAll_moves (s.nld.enqueue h j))).step hw.moves
  refine .of_onNld _ hc hr ⟨⟨j, ?_, ?_⟩, hm.after_only busy_apart⟩
  · obtain ⟨p, hp⟩ := Nld.after_host (hm.bit busy_apart)
    obtain ⟨r, p', hp'⟩ := hw.host
    rw [← he] at hp'
    have hjob := Nld.dispatchAll_hasJob _ (s.nld.enqueue_hasJob h j)
    exact (Nld.hasJob_congr (by rw [hp, hp']) (by rw [hp, hp'])).2 hjob
  · subst hj
    exact ⟨rfl, rfl, hslot, rfl, rfl, rfl⟩

/-! ### The status of a job (R261, R262) -/

theorem bulkStatus_ite {p : Prop} [Decidable p] {x y : BulkResult} (hx : x.status ≤ 6) (hy : y.status ≤ 6) :
    (if p then x else y).status ≤ 6 := by
  split
  · exact hx
  · exact hy

/-- A result given a status. -/
theorem BulkResult.set_status (r : BulkResult) {k : Nat} (hk : k ≤ 6 := by decide) :
    ({ r with status := k } : BulkResult).status ≤ 6 := hk

theorem compressBlocks_status (lens : List Nat) (room : Nat) (poisonAt : Option Nat) (blocks : List (List Nat)) (left : Nat)
    (r : BulkResult) (h : r.status ≤ 6) : (compressBlocks lens room poisonAt blocks left r).status ≤ 6 := by
  induction blocks generalizing left r with
  | nil => exact bulkStatus_ite h h
  | cons ws rest ih => exact bulkStatus_ite r.set_status (bulkStatus_ite r.set_status (ih _ _ h))

theorem decompressBlocks_status (lens : List Nat) (origLen limit room : Nat) (poisonAt : Option Nat) (fuel : Nat) (bs : List Byte)
    (made : Nat) (r : BulkResult) (h : r.status ≤ 6) :
    (decompressBlocks lens origLen limit room poisonAt fuel bs made r).status ≤ 6 := by
  induction fuel generalizing bs made r with
  | zero => exact h
  | succ fuel ih =>
    have hcheck : (if fieldAt bs 0 4 = crcCheck r.crc then 0 else 4) ≤ 6 := by split <;> decide
    refine bulkStatus_ite (bulkStatus_ite r.set_status (bulkStatus_ite r.set_status hcheck)) ?_
    simp only
    split
    · exact r.set_status
    · exact bulkStatus_ite r.set_status (bulkStatus_ite r.set_status (bulkStatus_ite r.set_status
        (bulkStatus_ite r.set_status (ih _ _ _ h))))

theorem Nld.runCompress_status (n : Nld) (j : BulkJob) : (n.runCompress j).1.status ≤ 6 := by
  unfold Nld.runCompress
  simp only
  split
  · exact Nat.le_succ 5
  · exact compressBlocks_status _ _ _ _ _ _ (Nat.zero_le 6)

theorem Nld.runDecompress_status (n : Nld) (j : BulkJob) : (n.runDecompress j).1.status ≤ 6 := by
  unfold Nld.runDecompress
  simp only
  split
  · split
    · exact Nat.le_succ 5
    · exact decompressBlocks_status _ _ _ _ _ _ _ _ _ (Nat.zero_le 6)
  · split
    · exact Nat.le_refl 6
    · split
      · exact Nat.le_add_right 3 3
      · split
        · exact Nat.le_add_right 2 4
        · split
          · exact Nat.le_succ 5
          · exact decompressBlocks_status _ _ _ _ _ _ _ _ _ (Nat.zero_le 6)

/-! ### A job completes (R263, R266) -/

/-- What a job has done, and what its ring keeps of its stream. -/
def Nld.jobResult (n : Nld) (j : BulkJob) : BulkResult × List Nat := if j.decompress then n.runDecompress j else n.runCompress j

/-- A lane gives up its job: the stream is kept. -/
def Nld.leaveLane (n : Nld) (l : Nat) (rest : List BulkJob) (j : BulkJob) : Nld :=
  (n.setLane l rest).setStream (ringKey j.fn j.ring) (n.jobResult j).2

/-- What a job has made goes out, and a failure is counted. -/
def Nld.writeOut (n : Nld) (j : BulkJob) (r : BulkResult) : Nld :=
  if r.status ≤ 1 then n.emitBytes j.dst r.bytes else (n.emitBytes j.dst r.bytes).count NReg.BULK_STATUS_failed

/-- A job's descriptor completes, after what it has made. -/
def Nld.jobDone (n : Nld) (j : BulkJob) (r : BulkResult) : Nld :=
  (n.writeOut j r).complete (ringKey j.fn j.ring) j.hdr.slot r.status 0 0 (bulkResultBytes r)

/-- The fields that a completed job may move. -/
def jobFields : List (Fld × Nat) := [(NReg.BULK_STATUS_busy, 0), (NReg.BULK_STATUS_failed, 0)]

section
variable (n : Nld) (j : BulkJob)

theorem Nld.jobResult_status : (n.jobResult j).1.status ≤ 6 := by
  unfold Nld.jobResult
  split
  · exact n.runDecompress_status j
  · exact n.runCompress_status j

theorem Nld.leaveLane_moves (l : Nat) (rest : List BulkJob) : Nld.Moves [.regs, .host] jobFields n (n.leaveLane l rest j) :=
  (n.setLane_moves l rest).mono.step (Nld.withHost_moves _ (n.leaveLane l rest j).host n.out)

section
variable (r : BulkResult)

theorem Nld.writeOut_moves : Nld.Moves [.regs, .host] jobFields n (n.writeOut j r) :=
  have hbytes := (n.emitBytes_wrote j.dst r.bytes).moves.mono (l := [.regs, .host]) (w := jobFields)
  .ite hbytes (hbytes.step (Nld.count_moves _ _ 1 0))

theorem Nld.writeOut_rings : (n.writeOut j r).host.rings = n.host.rings ∧ ∃ o, (n.writeOut j r).out = n.out ++ o := by
  unfold Nld.writeOut
  split
  all_goals exact ⟨n.emitBytes_rings j.dst r.bytes, (n.emitBytes_wrote j.dst r.bytes).out⟩

theorem Nld.jobDone_moves : Nld.Moves [.regs, .host] jobFields n (n.jobDone j r) :=
  (n.writeOut_moves j r).step (Nld.complete_wrote _ _ _ _ _ _ _).moves

theorem Nld.jobDone_completes (herr : (n.ring (ringKey j.fn j.ring)).error = 0)
    (hheld : ∃ d ∈ (n.ring (ringKey j.fn j.ring)).held, d.slot = j.hdr.slot) (hst : r.status < 256) :
    n.completes (n.jobDone j r) (ringKey j.fn j.ring) j.hdr.slot r.status := by
  obtain ⟨hrings, hout⟩ := n.writeOut_rings j r
  have hring := Nld.ring_of_rings hrings (ringKey j.fn j.ring)
  exact (Nld.complete_completes _ _ _ _ _ _ _ (hring ▸ herr) (hring ▸ hheld) hst).prepend hring hout

end

variable {n j} {l : Nat} {rest : List BulkJob} (h : n.lane l = j :: rest)
include h

theorem Nld.bulkComplete_eq : n.bulkComplete l = ((n.leaveLane l rest j).jobDone j (n.jobResult j).1).dispatchAll := by
  unfold Nld.bulkComplete
  rw [h]
  rfl

theorem Nld.bulkComplete_moves : Nld.Moves [.regs, .host] jobFields n (n.bulkComplete l) := by
  rw [Nld.bulkComplete_eq h]
  exact ((n.leaveLane_moves j l rest).step (Nld.jobDone_moves _ j _)).step (Nld.dispatchAll_moves _)

theorem Nld.bulkComplete_completes (herr : (n.ring (ringKey j.fn j.ring)).error = 0)
    (hheld : ∃ d ∈ (n.ring (ringKey j.fn j.ring)).held, d.slot = j.hdr.slot) :
    n.completes (n.bulkComplete l) (ringKey j.fn j.ring) j.hdr.slot (n.jobResult j).1.status := by
  have hst : (n.jobResult j).1.status < 256 := Nat.lt_of_le_of_lt (n.jobResult_status j) (by decide)
  have hdone := Nld.jobDone_completes (n.leaveLane l rest j) j _ herr hheld hst
  obtain ⟨hrings, hout⟩ := ((n.leaveLane l rest j).jobDone j (n.jobResult j).1).dispatchAll_rings
  rw [Nld.bulkComplete_eq h]
  refine (hdone.prepend rfl ⟨[], (List.append_nil _).symm⟩).append (fun d hd => ?_) ⟨[], by rw [hout, List.append_nil]⟩
  rwa [Nld.ring_of_rings hrings] at hd

end

section
variable {s : State} {l : Fin 2} (hr : s.nld.runs)
include hr

theorem bulkJobComplete_idle_does (h : s.nld.lane l.val = []) : NldDoes (.bulkJobComplete l) s fun n => Nld.only [] s.nld n := by
  refine .of_onNld (fun n => n.bulkComplete l.val) rfl hr ?_
  unfold Nld.bulkComplete
  rw [h]
  exact (Nld.Moves.refl [] [] s.nld).after_only (by decide)

theorem bulkJobComplete_does {j : BulkJob} {rest : List BulkJob} (h : s.nld.lane l.val = j :: rest)
    (herr : (s.nld.ring (ringKey j.fn j.ring)).error = 0)
    (hheld : ∃ d ∈ (s.nld.ring (ringKey j.fn j.ring)).held, d.slot = j.hdr.slot) : NldDoes (.bulkJobComplete l) s fun n =>
      (∃ st ≤ 6, s.nld.completes n (ringKey j.fn j.ring) j.hdr.slot st) ∧ Nld.only [.regs, .host] s.nld n := by
  have hm := Nld.bulkComplete_moves h
  have hrun : NReg.TICK_CTRL_run.clearOf jobFields 0 := by decide
  exact .of_onNld (fun n => n.bulkComplete l.val) rfl hr
    ⟨⟨_, s.nld.jobResult_status j, (Nld.bulkComplete_completes h herr hheld).after (hm.bit hrun)⟩, hm.after_only hrun⟩

end

/-! ### The lanes are enabled (R266) -/

theorem bulkLaneEnable_does {s : State} (hw : s.nld.writable) (v : BitVec 2) : NldDoes (.bulkLaneEnable v) s fun n =>
    n.get NReg.BULK_CTRL_lane_en = v.toNat ∧ (v = 0 → n.host.waiting = s.nld.host.waiting ∧ n.host.lanes = s.nld.host.lanes) ∧
    Nld.only [.regs, .host] s.nld n := by
  have hset : (s.nld.put NReg.BULK_CTRL_lane_en v.toNat).get NReg.BULK_CTRL_lane_en = v.toNat :=
    (s.nld.get_put_same _ _ _).trans (Nat.mod_eq_of_lt v.isLt)
  have hd := (s.nld.put NReg.BULK_CTRL_lane_en v.toNat).dispatchAll_moves
  have hm : Nld.Moves [.regs, .host] [(NReg.BULK_CTRL_lane_en, 0), (NReg.BULK_STATUS_busy, 0)] s.nld (s.nld.laneEnable v.toNat) :=
    (s.nld.put_moves _ _ 0).mono.step hd
  have hrun : NReg.TICK_CTRL_run.clearOf [(NReg.BULK_CTRL_lane_en, 0), (NReg.BULK_STATUS_busy, 0)] 0 := by decide
  refine .of_onNldWrite (fun n => n.laneEnable v.toNat) rfl hw ⟨?_, fun h0 => ?_, hm.after_only hrun⟩
  · rw [hm.after_get hrun, Nld.laneEnable, hd.get, hset]
  · obtain ⟨p, hp⟩ := Nld.after_host (hm.bit hrun)
    have hoff : s.nld.laneEnable v.toNat = s.nld.put NReg.BULK_CTRL_lane_en v.toNat :=
      Nld.dispatchAll_off _ (hset.trans (by rw [h0]; rfl))
    rw [hp, hoff]
    exact ⟨rfl, rfl⟩

/-! ### The statement -/

/-- Settles O35: a device descriptor whose turn it is completes from the state its command prepares, and a job that is submitted stays
in the queue or on a lane. -/
theorem hostDevices : Obligations.HostDevices :=
  ⟨fun _ _ _ _ _ hr ht => ⟨tapSubmit_staged_does hr ht, tapSubmit_malformed_does hr ht, tapSubmit_foreign_does hr ht⟩,
    fun _ _ hr => ⟨fun _ => tapExpiry_does hr, tapExpiry_gone_does hr⟩,
    fun _ _ _ hr ht => ⟨bulkSubmit_does rfl hr ht, bulkSubmit_does rfl hr ht⟩,
    fun _ _ hr => ⟨bulkJobComplete_idle_does hr, fun _ _ => bulkJobComplete_does hr⟩,
    fun _ v hw => bulkLaneEnable_does hw v,
    fun _ _ _ _ _ _ _ hr ht => ⟨fun hc h1 h2 => historyRead_owned_does hr ht hc h1 h2,
      fun hc h1 h2 => historyRead_foreign_does hr ht hc h1 h2⟩⟩

end Sys2Proof.Machine
end

section
/-! SUPPORT. Owner maps, the position table, contexts and codec tables (R265, R350, R353, R361, R376), and the statement on them. -/

namespace Sys2Proof.Machine

-- One theorem at a time: elaborated side by side, those of this text need more stacks than the check has memory for.
set_option Elab.async false

open Sys2Proof

/-! ### Parts moved alone -/

section
variable (n : Nld)

theorem Nld.withOwn_moves (t : Tbl OwnMap) : Nld.Moves [.own] [] n { n with own := t } :=
  .of_only (fun x hx => by cases x <;> simp [Nld.same] at hx ⊢; exact fun _ _ _ => rfl) rfl

theorem Nld.withTables_moves (t : Tbl (CodeTable × CodeTable)) : Nld.Moves [.tables] [] n { n with tables := t } :=
  .of_only (fun x hx => by cases x <;> simp [Nld.same] at hx ⊢; exact fun _ _ _ => rfl) rfl

end

/-! ### Codec tables (R248) -/

/-- A table number with a current and a previous generation. -/
def Nld.setTable (n : Nld) (t : Nat) (cur prev : CodeTable) : Nld :=
  { n with tables := Tbl.set (({} : CodeTable), ({} : CodeTable)) t (cur, prev) n.tables }

/-- Code lengths rest on the tables. -/
theorem Nld.codeLens_congr {a b : Nld} (h : b.tables = a.tables) (t g : Nat) : b.codeLens t g = a.codeLens t g := by
  rw [Nld.codeLens, h, Nld.codeLens]

section
variable (n : Nld) {t : Nat} (cur prev : CodeTable)

/-- The current generation of a table that is not built in gives its lengths. -/
theorem Nld.codeLens_setTable_newest {cur prev} (ht : 2 ≤ t) (hg : cur.gen ≠ 0) :
    (n.setTable t cur prev).codeLens t cur.gen = some cur.lens := by
  have h0 : t ≠ 0 := by omega
  have h1 : t ≠ 1 := by omega
  simp [Nld.codeLens, Nld.setTable, h0, h1, hg]

theorem Nld.codeLens_setTable_other {u : Nat} (hu : u ≠ t) (g : Nat) : (n.setTable t cur prev).codeLens u g = n.codeLens u g := by
  simp only [Nld.codeLens, Nld.setTable, Tbl.get_set_ne _ _ hu]

end

/-- NLD_TICK_CTRL.run lies apart from no field at all. -/
theorem run_apart_nil : NReg.TICK_CTRL_run.clearOf [] 0 := by decide

/-- R361: an epoch begins at the tick after the newest that is sealed. -/
theorem Nld.ctxEpoch_first (n : Nld) (c : Nat) : (n.ctxEpoch c 0).1 = { n with series := { n.series with
    epochs := n.series.epochs ++ [(c, (n.tick.newestSealed.map (· + 1)).getD 0)] } } := by
  unfold Nld.ctxEpoch
  cases n.tick.newestSealed with
  | none => rfl
  | some t => simp

section
variable {c : Instr} {s : State} (hw : s.nld.writable)
include hw

/-- A register write that sets the series part alone. -/
theorem NldDoes.of_series {f : Nld → Nld} {x : NSeries} (hc : exec c s = onNldWrite f s) (hf : f s.nld = { s.nld with series := x }) :
    NldDoes c s fun n => n.series = x ∧ Nld.only [.series] s.nld n := by
  have hm : Nld.Moves [.series] [] s.nld (f s.nld) := hf ▸ s.nld.withSeries_moves x
  refine .of_onNldWrite f hc hw ⟨?_, hm.after_only run_apart_nil⟩
  rw [Nld.after_series (hm.bit run_apart_nil), hf]

/-- A register write that raises a refusal and does nothing else. -/
theorem NldDoes.of_refusal {f : Nld → Nld} {e : Fld} (hc : exec c s = onNldWrite f s) (hf : f s.nld = s.nld.raise e)
    (hwidth : e.width = 1) (hevt : e.clearOf errorRing 0) (hrun : NReg.TICK_CTRL_run.clearOf ((e, 0) :: errorRing) 0) :
    NldDoes c s fun n => n.bit e = true ∧ n.tables = s.nld.tables ∧ Nld.only [.regs, .hwErr] s.nld n := by
  have hm := s.nld.raise_moves e 1 0
  obtain ⟨hpend, hring⟩ := hevt
  refine .of_onNldWrite f hc hw ?_
  rw [hf]
  refine ⟨?_, ?_, hm.after_only hrun⟩
  · rw [hm.after_bit hrun hpend]
    exact Nld.bit_raise _ hwidth (hring (NReg.HWERR_PROD_seq, 0) (by decide)) (hring (NReg.HWERR_LOST_count, 0) (by decide))
  · rw [Nld.after_tables (hm.bit hrun), Nld.raise_tables]

end

section
variable {s : State} (hw : s.nld.writable)
include hw

/-! ### Owner maps (R350) -/

theorem ownMapArm_does (pos : Fin 512) : NldDoes (.ownMapArm pos) s fun n =>
    n.ownMap pos.val = { s.nld.ownMap pos.val with armedAt := some s.nld.elapsed } ∧
    (∀ q, q ≠ pos.val → n.ownMap q = s.nld.ownMap q) ∧ Nld.only [.own] s.nld n := by
  have hm : Nld.Moves [.own] [] s.nld (s.nld.armOwners pos.val) := s.nld.withOwn_moves _
  have hmap (q : Nat) : (Nld.after s.nld (s.nld.armOwners pos.val)).ownMap q = (s.nld.armOwners pos.val).ownMap q := by
    rw [Nld.ownMap, Nld.after_own (hm.bit run_apart_nil), Nld.ownMap]
  refine .of_onNldWrite (fun n => n.armOwners pos.val) rfl hw ⟨?_, fun q hq => ?_, hm.after_only run_apart_nil⟩
  · rw [hmap]
    exact Tbl.get_set_same _ _ _ _
  · rw [hmap]
    exact Tbl.get_set_ne _ _ hq _ _

/-! ### The position table (R353, R376) -/

theorem positionCommit_does (hok : s.nld.positionsOk = true) : NldDoes .positionTableCommit s fun n =>
    n.series = { s.nld.series with committed := some s.nld.series.staged } ∧ Nld.only [.series] s.nld n :=
  .of_series hw rfl (if_pos hok)

theorem positionCommit_refused_does (hok : s.nld.positionsOk = false) : NldDoes .positionTableCommit s fun n =>
    n.bit NReg.SER_EVT_alloc_refused = true ∧ Nld.only [.regs, .hwErr] s.nld n := by
  have hno : ¬ s.nld.positionsOk = true := by rw [hok]; exact Bool.false_ne_true
  obtain ⟨n, hn, hbit, -, honly⟩ := NldDoes.of_refusal (c := .positionTableCommit) hw rfl (if_neg hno) rfl (by decide) (by decide)
  exact ⟨n, hn, hbit, honly⟩

/-! ### Contexts (R361) -/

theorem ctxCfg_does (c : BitVec 18) {bp : BitVec 7} (k : BitVec 4) (hbp : bp.toNat ≤ 96) : NldDoes (.ctxCfgApply c bp k) s fun n =>
    n.series = { s.nld.series with
      cfgs := s.nld.series.cfgs.filter (fun e => e.1 ≠ c.toNat) ++ [(c.toNat, bp.toNat, k.toNat)] } ∧
    Nld.only [.series] s.nld n :=
  .of_series hw rfl (if_neg (Nat.not_lt.2 hbp))

theorem ctxCfg_ignored_does (c : BitVec 18) {bp : BitVec 7} (k : BitVec 4) (hbp : 96 < bp.toNat) :
    NldDoes (.ctxCfgApply c bp k) s fun n => Nld.only [] s.nld n := by
  refine .of_onNldWrite (fun n => n.ctxCfg c.toNat bp.toNat k.toNat) rfl hw ?_
  rw [show s.nld.ctxCfg c.toNat bp.toNat k.toNat = s.nld from if_pos hbp]
  exact (Nld.Moves.refl [] [] s.nld).after_only run_apart_nil

theorem ctxEpoch_does (c : BitVec 18) : NldDoes (.ctxEpochStart c) s fun n =>
    n.series = { s.nld.series with
      epochs := s.nld.series.epochs ++ [(c.toNat, (s.nld.tick.newestSealed.map (· + 1)).getD 0)] } ∧
    Nld.only [.series] s.nld n :=
  .of_series hw rfl (s.nld.ctxEpoch_first c.toNat)

/-! ### Codec tables (R265) -/

theorem tableCommit_does {t : Fin 16} {gen : BitVec 16} (ht : 2 ≤ t.val) (hg : gen ≠ 0) (hv : tableValid s.nld.stagedLens = true) :
    NldDoes (.codecTableCommit t gen) s fun n => n.codeLens t.val gen.toNat = some s.nld.stagedLens ∧
      (∀ u g, u ≠ t.val → n.codeLens u g = s.nld.codeLens u g) ∧ Nld.only [.tables] s.nld n := by
  have hg0 : gen.toNat ≠ 0 := fun h => hg (BitVec.eq_of_toNat_eq h)
  have hgood : ¬ (t.val < 2 ∨ gen.toNat = 0 ∨ ¬ tableValid s.nld.stagedLens = true) := by
    rintro (h | h | h)
    · omega
    · exact hg0 h
    · exact h hv
  obtain ⟨cur, hset⟩ : ∃ cur, s.nld.commitTable t.val gen.toNat = s.nld.setTable t.val ⟨gen.toNat, s.nld.stagedLens⟩ cur :=
    ⟨_, if_neg hgood⟩
  have hm : Nld.Moves [.tables] [] s.nld (s.nld.commitTable t.val gen.toNat) := hset ▸ s.nld.withTables_moves _
  have hlens (u g : Nat) : (Nld.after s.nld (s.nld.commitTable t.val gen.toNat)).codeLens u g =
      (s.nld.setTable t.val ⟨gen.toNat, s.nld.stagedLens⟩ cur).codeLens u g :=
    hset ▸ Nld.codeLens_congr (Nld.after_tables (hm.bit run_apart_nil)) u g
  refine .of_onNldWrite (fun n => n.commitTable t.val gen.toNat) rfl hw ⟨?_, fun u g hu => ?_, hm.after_only run_apart_nil⟩
  · rw [hlens, Nld.codeLens_setTable_newest _ ht hg0]
  · rw [hlens, Nld.codeLens_setTable_other _ _ _ hu]

theorem tableCommit_refused_does {t : Fin 16} {gen : BitVec 16} (hno : t.val < 2 ∨ gen = 0 ∨ tableValid s.nld.stagedLens = false) :
    NldDoes (.codecTableCommit t gen) s fun n =>
      n.bit NReg.CODEC_DECSTAT_tbl_refused = true ∧ n.tables = s.nld.tables ∧ Nld.only [.regs, .hwErr] s.nld n := by
  have hbad : t.val < 2 ∨ gen.toNat = 0 ∨ ¬ tableValid s.nld.stagedLens = true :=
    hno.imp_right (.imp (fun h => by rw [h]; rfl) fun h => by rw [h]; exact Bool.false_ne_true)
  exact .of_refusal hw rfl (if_pos hbad) rfl (by decide) (by decide)

end

/-- Settles O41: a commit that may be made sets the part it names, and one that may not be made raises its refusal. -/
theorem seriesAndTables : Obligations.SeriesAndTables :=
  ⟨fun _ pos hw => ownMapArm_does hw pos,
    fun _ hw => ⟨positionCommit_does hw, positionCommit_refused_does hw⟩,
    fun _ c _ k hw => ⟨ctxCfg_does hw c k, ctxCfg_ignored_does hw c k, ctxEpoch_does hw c⟩,
    fun _ _ _ hw => ⟨tableCommit_does hw, tableCommit_refused_does hw⟩⟩

end Sys2Proof.Machine
end

section
/-! SUPPORT. The check of the wake sources leaves no link of the KTU asleep beside a pending source (R306, R309), and the statement that
every step does. -/

namespace Sys2Proof.Machine

-- One theorem at a time: elaborated side by side, those of this text need more stacks than the check has memory for.
set_option Elab.async false

open Sys2Proof

/-- R309: no link of a KTU stays in L0q or L1 while a wake source is pending. -/
def Ktu.awake (k : Ktu) : Prop := k.wakeSources ≠ 0 → k.fife.up.lp = 0 ∧ k.fife.dn.lp = 0

theorem State.awake_iff (s : State) : s.awake ↔ s.ktu.awake := Iff.rfl

/-! ### The check -/

/-- R121, R306: sending WAKE clears sources. What it hands to the upstream port is no source: that link is in L0. -/
theorem Ktu.sendWake_wakeSources_le (k : Ktu) : k.sendWake.wakeSources ≤ k.wakeSources := by
  unfold Ktu.sendWake
  split
  · next h =>
    obtain ⟨-, hlp, -⟩ := h
    have hup (x : Bool) (n : Nat) : (if (decide (k.fife.up.lp ≠ 0) && x) = true then n else 0) = 0 := by simp [hlp]
    unfold Ktu.wakeSources
    refine Nat.add_le_add (Nat.add_le_add (Nat.add_le_add_right ?_ _) ?_) (Nat.zero_le _)
    · exact Nat.add_le_add_right (Nat.add_le_add_right (Nat.zero_le _) _) _
    · exact (hup _ _).le.trans (Nat.zero_le _)
  · exact le_rfl

/-- With no source pending the check leaves none; with one pending it brings both links to L0. -/
theorem Ktu.wakeCheck_awake (k : Ktu) : k.wakeCheck.awake := by
  intro hsrc
  by_cases h : k.wakeSources = 0
  · have hle := k.sendWake_wakeSources_le
    rw [Ktu.wakeCheck, if_pos h] at hsrc
    omega
  · obtain ⟨hup, hdn, -⟩ := k.wakeCheck_wakes h
    exact ⟨hup, hdn⟩

/-! ### Power and reset -/

theorem Ktu.porAssert_awake (k : Ktu) : k.porAssert.awake := fun _ => ⟨rfl, rfl⟩

/-- Capturing the straps moves neither a source nor a power state. -/
theorem Ktu.captured_awake {k : Ktu} (h : k.awake) (st : Straps) (ran : Bool) : (k.captured st ran).awake := by
  unfold Ktu.captured
  cases st.leaf <;> exact h

theorem Ktu.porDeassert_awake {k : Ktu} (h : k.awake) (st : Straps) (ran : Bool) : (k.porDeassert st ran).awake := by
  obtain ⟨r, hr⟩ := (k.captured st ran).loadIncr_eq
  rw [Ktu.porDeassert_eq, hr]
  exact k.captured_awake h st ran

/-! ### Every step -/

/-- A meaning that answers no state in which a link sleeps beside a pending source, from none such. -/
def KeepsAwake (m : State → Out) : Prop := ∀ s t : State, s.awake → m s = .next t → t.awake

theorem keepsAwake_onKtu (f : Ktu → Ktu) : KeepsAwake (onKtu f) := by
  intro s t hs ht
  obtain ⟨-, e⟩ | ⟨-, -, e⟩ | ⟨-, e⟩ := onKtu_cases f s <;> rw [e] at ht <;> cases ht
  · exact hs
  · exact Ktu.wakeCheck_awake _

theorem keepsAwake_onNld (f : Nld → Nld) : KeepsAwake (onNld f) := by
  intro s t hs ht
  obtain ⟨-, e⟩ | ⟨-, e⟩ := onNld_cases f s <;> rw [e] at ht <;> cases ht <;> exact hs

theorem Acts.keepsAwake {b : Bool} {m : State → Out} (h : Acts b m) : KeepsAwake m := by
  cases h with
  | ktu f => exact keepsAwake_onKtu f
  | nld f => exact keepsAwake_onNld f

theorem ktuPower_keepsAwake {c : Instr} (hk : ktuPower c = true) : KeepsAwake (exec c) := by
  intro s t hs ht
  cases c with
  | ktuPorAssert => cases ht; exact s.ktu.porAssert_awake
  | ktuPorDeassert st ran =>
    change (if s.ktu.pins.porLow then _ else _) = _ at ht
    split at ht <;> cases ht
    · exact Ktu.porDeassert_awake hs st ran
    · exact hs
  | ktuClockStop =>
    change (if s.ktu.pins.porLow then _ else _) = _ at ht
    split at ht <;> cases ht <;> exact hs
  | hostDomainChange d rst pg =>
    change (if s.ktu.pins.porLow then _ else onKtu _ s) = _ at ht
    split at ht
    · cases ht; exact hs
    · exact keepsAwake_onKtu _ s t hs ht
  | _ => cases hk

theorem nldPower_keepsAwake {c : Instr} (hn : nldPower c = true) : KeepsAwake (exec c) := by
  intro s t hs ht
  cases c with
  | nldPorAssert | nldPor => cases ht; exact hs
  | _ => cases hn

theorem exec_keepsAwake (c : Instr) : KeepsAwake (exec c) := by
  cases hk : ktuPower c with
  | true => exact ktuPower_keepsAwake hk
  | false =>
    cases hn : nldPower c with
    | true => exact nldPower_keepsAwake hn
    | false => exact (exec_acts c hk hn).keepsAwake

/-- A clock edge of a running KTU ends with the same check. -/
theorem State.idle_awake {s : State} (h : s.awake) : s.idle.awake := by
  change s.ktu.idle.awake
  unfold Ktu.idle
  split
  · exact h
  · exact Ktu.wakeCheck_awake _

/-- Settles O59: every command on the KTU and every clock edge ends with the check of the wake sources; the others move neither a
source nor a power state, or reset the KTU whole. -/
theorem awakeIsKept : Obligations.AwakeIsKept := by
  unfold Obligations.AwakeIsKept
  intro s t hs ht
  unfold step at ht
  split at ht
  · cases ht
    exact State.idle_awake hs
  · next c rest _ => exact exec_keepsAwake c { s with pending := rest } t hs ht

end Sys2Proof.Machine
end

section
/-! SUPPORT. What an operation of a link end does on each side (R267 to R311): the end it leaves, what the reports and the check of the
wake sources leave of it, and what else moves. -/

namespace Sys2Proof.Machine

-- One theorem at a time: elaborated side by side, those of this text need more stacks than the check has memory for.
set_option Elab.async false

open Sys2Proof

/-! ### Link ends alike -/

/-- Two link ends differ at most in the power state of the link and in what waits in the transmit queues. -/
def LinkEnd.Alike (a b : LinkEnd) : Prop :=
  ∃ tx lp se ge rl ps, b = { a with tx := tx, lp := lp, sentEnter := se, gotEnter := ge, relocking := rl, pairs := ps }

section
variable {a b c : LinkEnd} (e : LinkEnd)

theorem LinkEnd.Alike.refl : e.Alike e := ⟨_, _, _, _, _, _, rfl⟩

theorem LinkEnd.Alike.of_eq (h : b = a) : a.Alike b := h ▸ .refl a

theorem LinkEnd.Alike.trans (h : a.Alike b) (h' : b.Alike c) : a.Alike c := by
  obtain ⟨_, _, _, _, _, _, rfl⟩ := h
  obtain ⟨_, _, _, _, _, _, rfl⟩ := h'
  exact ⟨_, _, _, _, _, _, rfl⟩

theorem LinkEnd.queue_alike (r : Nat) (gc : Bool) (m : Msg) : e.Alike (e.queue r gc m) := ⟨_, _, _, _, _, _, rfl⟩

theorem LinkEnd.stamp_alike (t : BitVec 80) : e.Alike (e.stamp t) := ⟨_, _, _, _, _, _, rfl⟩

theorem LinkEnd.sendState_alike (code : Nat) : e.Alike (e.sendState code) := by
  unfold LinkEnd.sendState
  simp only []
  split_ifs <;> exact ⟨_, _, _, _, _, _, rfl⟩

theorem LinkEnd.retrainWakes_alike : e.Alike e.retrainWakes := by
  unfold LinkEnd.retrainWakes
  split_ifs <;> exact ⟨_, _, _, _, _, _, rfl⟩

end

/-! ### The two ends of a KTU -/

section
variable (k : Ktu) (up : Bool) (e : LinkEnd)

@[simp] theorem Ktu.link_setLink : (k.setLink up e).link up = e := by cases up <;> rfl

@[simp] theorem Ktu.setLink_link : k.setLink up (k.link up) = k := by cases up <;> rfl

@[simp] theorem Ktu.link_setLink_not : (k.setLink (!up) e).link up = k.link up := by cases up <;> rfl

@[simp] theorem Ktu.link_not_setLink : (k.setLink up e).link (!up) = k.link (!up) := by cases up <;> rfl

theorem Ktu.link_of_fife {k k' : Ktu} (h : k'.fife = k.fife) : k'.link up = k.link up := by rw [Ktu.link, h, Ktu.link]

theorem Ktu.setLink_fife_only : Ktu.only [.fife] k (k.setLink up e) := Ktu.only_mono (k.setLink_only up e) (by decide)

theorem Ktu.withFife_only (f : KFife) : Ktu.only [.fife] k { k with fife := f } := by
  intro x hx
  cases x <;> simp [Ktu.same] at hx ⊢

/-! ### The check of the wake sources -/

/-- Only what waits upstream changes as WAKE is sent. -/
theorem Ktu.sendWake_link : ∃ tx, k.sendWake.link up = { k.link up with tx := tx } := by
  unfold Ktu.sendWake
  split
  · cases up <;> exact ⟨_, rfl⟩
  · exact ⟨_, rfl⟩

theorem Ktu.stayAwake_link :
    k.stayAwake.link up = if (k.link up).lp = 0 then k.link up else (k.link up).sendState 2 := by
  unfold Ktu.stayAwake
  cases up <;> by_cases hu : k.fife.up.lp = 0 <;> by_cases hd : k.fife.dn.lp = 0 <;> simp [Ktu.link, Ktu.setLink, hu, hd]

/-- R309: the check leaves a link end that is in L0, and otherwise may send a stay pair on it. -/
theorem Ktu.wakeCheck_link_cases : ∃ tx, k.wakeCheck.link up = { k.link up with tx := tx } ∨
    k.wakeCheck.link up = { (if (k.link up).lp = 0 then k.link up else (k.link up).sendState 2) with tx := tx } := by
  unfold Ktu.wakeCheck
  split
  · obtain ⟨tx, h⟩ := k.sendWake_link up
    exact ⟨tx, .inl h⟩
  · simp only []
    generalize hm : ({ k.stayAwake with fife := _ } : Ktu) = m
    obtain ⟨tx, h⟩ := m.sendWake_link up
    have hlink : m.link up = k.stayAwake.link up := by subst hm; cases up <;> rfl
    rw [hlink, Ktu.stayAwake_link] at h
    exact ⟨tx, .inr h⟩

theorem Ktu.wakeCheck_alike : (k.link up).Alike (k.wakeCheck.link up) := by
  obtain ⟨tx, h | h⟩ := k.wakeCheck_link_cases up
  · exact ⟨_, _, _, _, _, _, h⟩
  · rw [h]
    split
    · exact ⟨_, _, _, _, _, _, rfl⟩
    · exact ((k.link up).sendState_alike 2).trans ⟨_, _, _, _, _, _, rfl⟩

/-- A link end in L0 stays as it is, but for what waits upstream. -/
theorem Ktu.wakeCheck_link_inL0 {k : Ktu} {up : Bool} (h : (k.link up).lp = 0) :
    ∃ tx, k.wakeCheck.link up = { k.link up with tx := tx } := by
  obtain ⟨tx, hl | hl⟩ := k.wakeCheck_link_cases up
  · exact ⟨tx, hl⟩
  · exact ⟨tx, hl.trans (by rw [if_pos h])⟩

end

/-! ### Registers of a KTU that are counted or raised -/

/-- Between two KTUs only registers have moved, and of those only the fields in `w`. -/
def Ktu.Reported (w : List (Fld × Nat)) (a b : Ktu) : Prop := (∃ r, b = { a with regs := r }) ∧ Ktu.regsOnly w a b

section
variable {w : List (Fld × Nat)} {a b c : Ktu}

theorem Ktu.Reported.refl (w : List (Fld × Nat)) (k : Ktu) : Ktu.Reported w k k := ⟨⟨_, rfl⟩, k.regsOnly_refl w⟩

theorem Ktu.Reported.trans (h : Ktu.Reported w a b) (h' : Ktu.Reported w b c) : Ktu.Reported w a c := by
  refine ⟨?_, Ktu.regsOnly_trans h.2 h'.2⟩
  obtain ⟨⟨r, rfl⟩, -⟩ := h
  obtain ⟨⟨r', rfl⟩, -⟩ := h'
  exact ⟨r', rfl⟩

theorem Ktu.Reported.ite {p : Prop} [Decidable p] (h : Ktu.Reported w a b) (h' : Ktu.Reported w a c) :
    Ktu.Reported w a (if p then b else c) := iteInduction (fun _ => h) fun _ => h'

theorem Ktu.Reported.only (h : Ktu.Reported w a b) : Ktu.only [.regs] a b := by
  obtain ⟨⟨r, rfl⟩, -⟩ := h
  exact a.only_regs r

theorem Ktu.Reported.fife (h : Ktu.Reported w a b) : b.fife = a.fife := by
  obtain ⟨⟨r, rfl⟩, -⟩ := h
  rfl

theorem Ktu.Reported.pins (h : Ktu.Reported w a b) : b.pins = a.pins := by
  obtain ⟨⟨r, rfl⟩, -⟩ := h
  rfl

theorem Ktu.Reported.codec (h : Ktu.Reported w a b) : b.codec = a.codec := by
  obtain ⟨⟨r, rfl⟩, -⟩ := h
  rfl

theorem Ktu.Reported.count (h : Ktu.Reported w a b) {f : Fld} (n : Nat) (hf : (f, 0) ∈ w := by decide) :
    Ktu.Reported w a (b.count f n) :=
  h.trans ⟨⟨_, rfl⟩, Ktu.regsOnly_step (b.regsOnly_refl w) (b.regsOnly_count f n 0) (by simpa using hf)⟩

theorem Ktu.Reported.raise (h : Ktu.Reported w a b) {f : Fld} (v : Nat) (hf : (f, 0) ∈ w := by decide)
    (hp : (KReg.IRQ_PEND_pend, 0) ∈ w := by decide) : Ktu.Reported w a (b.raise f v) :=
  h.trans ⟨b.raise_eq f v 0, Ktu.regsOnly_step (b.regsOnly_refl w) (b.regsOnly_raise f v 0) (by simpa using ⟨hf, hp⟩)⟩

end

/-! ### An operation on a link end of a KTU -/

/-- The registers that report what a link operation did, and what follows a flit (R280, R313, R314). -/
def linkReports : List (Fld × Nat) :=
  [KReg.FIFE_CRCERR_UP_count, KReg.FIFE_CRCERR_DN_count, KReg.FIFE_REPLAY_UP_count, KReg.FIFE_REPLAY_DN_count, KReg.FIFE_EVT_retry,
   KReg.FIFE_EVT_retrain, KReg.FIFE_RETRAIN_up, KReg.FIFE_RETRAIN_dn, KReg.FIFE_EVT_reset, KReg.FIFE_RESETS_up, KReg.FIFE_RESETS_dn,
   KReg.FIFE_EVT_trunc, KReg.FIFE_EVT_malformed, KReg.FIFE_MSGDROP_count, KReg.IRQ_PEND_pend].map fun f => (f, 0)

section
variable (k : Ktu) (up : Bool)

/-- The reports move registers; what a flit acknowledges upstream leaves the frame store. -/
theorem Ktu.linkActs_reports (a : LinkActs) : ∃ m, Ktu.Reported linkReports k m ∧
    (k.linkActs up a = m ∨ a.ackedTicks ≠ [] ∧ ∃ c, k.linkActs up a = { m with codec := c }) := by
  unfold Ktu.linkActs
  extract_lets bit k1 k2 k3 k4 k5 k6
  have h1 : Ktu.Reported linkReports k k1 := .ite (by cases up <;> exact (Ktu.Reported.refl _ k).count 1) (.refl _ k)
  have h2 : Ktu.Reported linkReports k k2 := .ite (by cases up <;> exact h1.count _) h1
  have h3 : Ktu.Reported linkReports k k3 := .ite (h2.raise _) h2
  have h4 : Ktu.Reported linkReports k k4 := .ite (by cases up <;> exact (h3.raise _).count 1) h3
  have h5 : Ktu.Reported linkReports k k5 := .ite (by cases up <;> exact (h4.raise _).count 1) h4
  have h6 : Ktu.Reported linkReports k k6 := .ite ((h5.raise 1).count 1) h5
  refine ⟨k6, h6, ?_⟩
  split
  next h =>
    obtain ⟨-, hacked⟩ := h
    exact .inr ⟨by simpa using hacked, _, rfl⟩
  next => exact .inl rfl

theorem Ktu.linkActs_fife (a : LinkActs) : (k.linkActs up a).fife = k.fife := by
  obtain ⟨m, hm, e | ⟨-, c, e⟩⟩ := k.linkActs_reports up a <;> rw [e] <;> exact hm.fife

theorem Ktu.linkActs_pins (a : LinkActs) : (k.linkActs up a).pins = k.pins := by
  obtain ⟨m, hm, e | ⟨-, c, e⟩⟩ := k.linkActs_reports up a <;> rw [e] <;> exact hm.pins

theorem Ktu.linkActs_only (a : LinkActs) : Ktu.only [.regs, .codec] k (k.linkActs up a) := by
  obtain ⟨m, hm, e | ⟨-, c, e⟩⟩ := k.linkActs_reports up a <;> rw [e]
  · exact Ktu.only_mono hm.only (by decide)
  · exact Ktu.only_trans (Ktu.only_mono hm.only (by decide)) (Ktu.only_mono (m.withCodec_keeps c).only (by decide))

/-- An operation that acknowledges no frame is reported in registers alone. -/
theorem Ktu.linkActs_reported {a : LinkActs} (h : a.ackedTicks = []) : Ktu.Reported linkReports k (k.linkActs up a) := by
  obtain ⟨m, hm, e | ⟨hne, -⟩⟩ := k.linkActs_reports up a
  · rw [e]; exact hm
  · exact absurd h hne

variable (f : LinkEnd → LinkEnd × LinkActs)

/-- R279: an upstream end that a Reset or Down reaches loses what it may forward. -/
def Ktu.forwardsAfter (k : Ktu) (up : Bool) (f : LinkEnd → LinkEnd × LinkActs) : Bool :=
  if up ∧ ((f (k.link up)).2.reset ∨ (f (k.link up)).1.state = .down) then false else k.fife.mayForward

theorem Ktu.onLink_eq : k.onLink up f = { (k.setLink up (f (k.link up)).1).linkActs up (f (k.link up)).2 with
    fife := { (k.setLink up (f (k.link up)).1).fife with mayForward := k.forwardsAfter up f } } := by
  have hsame : (k.setLink up (f (k.link up)).1).fife.mayForward = k.fife.mayForward := by cases up <;> rfl
  have hacts := (k.setLink up (f (k.link up)).1).linkActs_fife up (f (k.link up)).2
  unfold Ktu.onLink Ktu.forwardsAfter
  simp only []
  split
  · rw [hacts]
  · rw [← hsame, ← hacts]

theorem Ktu.onLink_link : (k.onLink up f).link up = (f (k.link up)).1 := by
  rw [Ktu.onLink_eq]
  exact k.link_setLink up _

theorem Ktu.onLink_other : (k.onLink up f).link (!up) = k.link (!up) := by
  rw [Ktu.onLink_eq]
  exact k.link_not_setLink up _

theorem Ktu.onLink_pins : (k.onLink up f).pins = k.pins := by
  rw [Ktu.onLink_eq]
  exact (Ktu.linkActs_pins _ _ _).trans (k.setLink_pins up _)

theorem Ktu.onLink_only : Ktu.only [.regs, .codec, .fife] k (k.onLink up f) := by
  rw [Ktu.onLink_eq]
  exact Ktu.only_trans (Ktu.only_trans (Ktu.only_mono (k.setLink_only up _) (by decide))
    (Ktu.only_mono (Ktu.linkActs_only _ up _) (by decide))) (Ktu.only_mono (Ktu.withFife_only _ _) (by decide))

/-- R311: an operation on a link end; where it ends in Retrain it brings both links back to L0, the other by a stay pair. -/
theorem Ktu.linkOp_eq : ∃ e, (e = k.link (!up) ∨ e = (k.link (!up)).sendState 2) ∧
    k.linkOp up f = ((k.onLink up f).setLink up (f (k.link up)).1.retrainWakes).setLink (!up) e := by
  have hother := k.onLink_other up f
  unfold Ktu.linkOp LinkEnd.retrainWakes
  simp only [Ktu.onLink_link]
  split
  next h =>
    split
    · exact ⟨_, .inl rfl, by rw [← hother, ← Ktu.link_not_setLink, Ktu.setLink_link]⟩
    · exact ⟨_, .inr rfl, by rw [Ktu.link_not_setLink, hother]⟩
  next h => exact ⟨_, .inl rfl, by rw [← hother, ← Ktu.onLink_link, Ktu.setLink_link, Ktu.setLink_link]⟩

theorem Ktu.linkOp_link : (k.linkOp up f).link up = (f (k.link up)).1.retrainWakes := by
  obtain ⟨e, -, h⟩ := k.linkOp_eq up f
  rw [h, Ktu.link_setLink_not, Ktu.link_setLink]

theorem Ktu.linkOp_other_cases : (k.linkOp up f).link (!up) = k.link (!up) ∨
    (k.linkOp up f).link (!up) = (k.link (!up)).sendState 2 := by
  obtain ⟨e, he, h⟩ := k.linkOp_eq up f
  rw [h, Ktu.link_setLink]
  exact he

theorem Ktu.linkOp_other : (k.link (!up)).Alike ((k.linkOp up f).link (!up)) := by
  obtain h | h := k.linkOp_other_cases up f <;> rw [h]
  · exact .refl _
  · exact LinkEnd.sendState_alike _ 2

theorem Ktu.linkOp_pins : (k.linkOp up f).pins = k.pins := by
  obtain ⟨e, -, h⟩ := k.linkOp_eq up f
  rw [h, Ktu.setLink_pins, Ktu.setLink_pins, Ktu.onLink_pins]

theorem Ktu.linkOp_regs : (k.linkOp up f).regs = (k.onLink up f).regs := by
  obtain ⟨e, -, h⟩ := k.linkOp_eq up f
  rw [h, Ktu.setLink_regs, Ktu.setLink_regs]

theorem Ktu.linkOp_only_onLink : Ktu.only [] (k.onLink up f) (k.linkOp up f) := by
  obtain ⟨e, -, h⟩ := k.linkOp_eq up f
  rw [h]
  exact Ktu.only_trans (Ktu.setLink_only _ _ _) (Ktu.setLink_only _ _ _)

theorem Ktu.linkOp_only : Ktu.only [.regs, .codec, .fife] k (k.linkOp up f) :=
  Ktu.only_trans (k.onLink_only up f) (Ktu.only_mono (k.linkOp_only_onLink up f) (by decide))

end

/-! ### What a link command moves -/

/-- The parts of a KTU that the commands of its links may move. -/
def linkParts : List KPart := [.regs, .tail, .trace, .queues, .codec, .fife]

/-- Between two KTUs only those parts have moved, and the end of one link is as `e`, but for its power state and what waits there. -/
structure Ktu.Linked (up : Bool) (e : LinkEnd) (a b : Ktu) : Prop where
  only : Ktu.only linkParts a b
  link : e.Alike (b.link up)

theorem Ktu.linkOp_linked (k : Ktu) (up : Bool) (f : LinkEnd → LinkEnd × LinkActs) :
    Ktu.Linked up (f (k.link up)).1 k (k.linkOp up f) :=
  ⟨Ktu.only_mono (k.linkOp_only up f) (by decide), by rw [Ktu.linkOp_link]; exact LinkEnd.retrainWakes_alike _⟩

/-- A further operation that does the end no more. -/
theorem Ktu.Linked.step {up : Bool} {e : LinkEnd} {a b c : Ktu} {l : List KPart} (h : Ktu.Linked up e a b) (ho : Ktu.only l b c)
    (hl : (b.link up).Alike (c.link up)) (hm : ∀ x ∈ l, x ∈ linkParts := by decide) : Ktu.Linked up e a c :=
  ⟨Ktu.only_trans h.only (Ktu.only_mono ho hm), h.link.trans hl⟩

/-- The end of a KTU's link that a side names. -/
def ktuLink : Bool → LinkId
  | true => .ktuUp
  | false => .ktuDn

section
variable {c : Instr} {s : State} {P : LinkEnd → Prop} {f : Ktu → Ktu} {e : LinkEnd} {up : Bool}
variable (hc : exec c s = onKtu f s) (hr : s.ktu.runs)
include hc hr

theorem LinkDoes.of_ktuEnd (ho : Ktu.only linkParts s.ktu (f s.ktu)) (hP : P ((f s.ktu).wakeCheck.link up)) :
    LinkDoes c s (ktuLink up) P := by
  have hend (t : State) : endOf t (ktuLink up) = t.ktu.link up := by cases up <;> rfl
  have hside : linkOfKtu (ktuLink up) = true := by cases up <;> rfl
  refine ⟨_, hc.trans (onKtu_run f s hr), rfl, rfl, fun _ => ⟨rfl, (Ktu.only_wakeCheck _ _ _).2 ho⟩, fun h => ?_, ?_⟩
  · rw [hside] at h
    cases h
  · rw [hend]
    exact hP

theorem LinkDoes.of_ktu (hm : Ktu.Linked up e s.ktu (f s.ktu)) (hP : ∀ e', e.Alike e' → P e') : LinkDoes c s (ktuLink up) P :=
  .of_ktuEnd hc hr hm.only (hP _ (hm.link.trans (Ktu.wakeCheck_alike _ up)))

end

/-- The parts of Naloder that the commands of its links may move. -/
def portParts : List NPart := [.regs, .hwErr, .chains, .group]

section
variable {c : Instr} {s : State} {P : LinkEnd → Prop} {f : Nld → Nld} {e : LinkEnd} {w : List (Fld × Nat)}
variable (hc : exec c s = onNld f s) (hr : s.nld.runs) (hm : Nld.Moves portParts w s.nld (f s.nld))
variable (hw : NReg.TICK_CTRL_run.clearOf w 0)
include hc hr hm hw

theorem LinkDoes.of_fife {p : Fin 16} (hP : P ((f s.nld).fife p.val).link) : LinkDoes c s (.nldFife p) P := by
  refine ⟨_, hc.trans (onNld_run f s hr), rfl, rfl, fun h => (nomatch h), fun _ => ⟨rfl, hm.after_only hw⟩, ?_⟩
  rw [endOf, Nld.after_fife (hm.bit hw)]
  exact hP

theorem LinkDoes.of_horn {p : Fin 8} (hP : P ((f s.nld).horn p.val).link) : LinkDoes c s (.nldHorn p) P := by
  refine ⟨_, hc.trans (onNld_run f s hr), rfl, rfl, fun h => (nomatch h), fun _ => ⟨rfl, hm.after_only hw⟩, ?_⟩
  rw [endOf, Nld.after_horn (hm.bit hw)]
  exact hP

end

/-! ### An operation on a port of Naloder -/

/-- The fields of a port that report what its link did (R315, R494). -/
structure PortFields where
  crcErr : Fld
  replay : Fld
  retry : Fld
  retrain : Fld
  retrains : Fld
  reset : Fld
  resets : Fld
  drop : Fld

def fifeFields : PortFields :=
  ⟨NReg.FIFEp_CRCERR_count, NReg.FIFEp_REPLAY_count, NReg.FIFEp_EVT_retry, NReg.FIFEp_EVT_retrain, NReg.FIFEp_RETRAIN_retrains,
    NReg.FIFEp_EVT_reset, NReg.FIFEp_RETRAIN_resets, NReg.FIFEp_MSGDROP_count⟩

def hornFields : PortFields :=
  ⟨NReg.HORNp_CRCERR_count, NReg.HORNp_REPLAY_count, NReg.HORNp_EVT_retry, NReg.HORNp_EVT_retrain, NReg.HORNp_RETRAIN_retrains,
    NReg.HORNp_EVT_reset, NReg.HORNp_RETRAIN_resets, NReg.HORNp_MSGDROP_count⟩

/-- What a report at port `p` may move. -/
def PortFields.reports (x : PortFields) (p : Nat) : List (Fld × Nat) :=
  [(x.crcErr, p), (x.replay, p), (x.retry, p), (x.retrain, p), (x.retrains, p), (x.reset, p), (x.resets, p), (x.drop, p)] ++ errorRing

/-- Raise the events and count the counts of an operation on a port's link: what both kinds of port do, each with its own fields. -/
def Nld.portActs (x : PortFields) (n : Nld) (p : Nat) (a : LinkActs) : Nld :=
  let n := if a.crcErr then n.count x.crcErr 1 p else n
  let n := if a.replays > 0 then n.count x.replay a.replays p else n
  let n := if a.retry then n.raise x.retry 1 p else n
  let n := if a.retrain then (n.raise x.retrain 1 p).count x.retrains 1 p else n
  let n := if a.reset then (n.raise x.reset 1 p).count x.resets 1 p else n
  if a.trunc then n.count x.drop 1 p else n

section
variable {w : List (Fld × Nat)} {a b : Nld} {f : Fld} {p : Nat} (h : Nld.Moves [.regs, .hwErr] w a b) (hf : (f, p) ∈ w)
include h hf

theorem Nld.Moves.count (n : Nat) : Nld.Moves [.regs, .hwErr] w a (b.count f n p) :=
  h.step (b.count_moves f n p) (by decide) (by simpa using hf)

theorem Nld.Moves.raise (v : Nat) (hring : ∀ x ∈ errorRing, x ∈ w) : Nld.Moves [.regs, .hwErr] w a (b.raise f v p) :=
  h.step (b.raise_moves f v p) (by decide) (List.forall_mem_cons.2 ⟨hf, hring⟩)

end

section
variable (n : Nld) (p : Nat) (a : LinkActs)

theorem Nld.fifeActs_eq : n.fifeActs p a = n.portActs fifeFields p a := rfl

theorem Nld.hornActs_eq : n.hornActs p a = n.portActs hornFields p a := rfl

theorem Nld.portActs_moves (x : PortFields) : Nld.Moves [.regs, .hwErr] (x.reports p) n (n.portActs x p a) := by
  have hring : ∀ y ∈ errorRing, y ∈ x.reports p := fun _ => List.mem_append_right _
  have hmem : ∀ f ∈ [x.crcErr, x.replay, x.retry, x.retrain, x.retrains, x.reset, x.resets, x.drop], (f, p) ∈ x.reports p :=
    fun f hf => List.mem_append_left _ (List.mem_map_of_mem (f := fun f => (f, p)) hf)
  simp only [List.forall_mem_cons, List.not_mem_nil, false_implies, implies_true, and_true] at hmem
  obtain ⟨hcrc, hreplay, hretry, hretrain, hretrains, hreset, hresets, hdrop⟩ := hmem
  unfold Nld.portActs
  extract_lets n1 n2 n3 n4 n5
  have h0 : Nld.Moves [.regs, .hwErr] (x.reports p) n n := .refl _ _ n
  have h1 : Nld.Moves [.regs, .hwErr] (x.reports p) n n1 := .ite (h0.count hcrc 1) h0
  have h2 : Nld.Moves [.regs, .hwErr] (x.reports p) n n2 := .ite (h1.count hreplay _) h1
  have h3 : Nld.Moves [.regs, .hwErr] (x.reports p) n n3 := .ite (h2.raise hretry 1 hring) h2
  have h4 : Nld.Moves [.regs, .hwErr] (x.reports p) n n4 := .ite ((h3.raise hretrain 1 hring).count hretrains 1) h3
  have h5 : Nld.Moves [.regs, .hwErr] (x.reports p) n n5 := .ite ((h4.raise hreset 1 hring).count hresets 1) h4
  exact .ite (h5.count hdrop 1) h5

/-- The fields that a Fife port may move: the reports of its link, and of guaranteed flits beyond an allowance (R290). -/
def fifeReports (p : Nat) : List (Fld × Nat) :=
  (NReg.FIFEp_GCX_count, p) :: (NReg.FIFEp_EVT_gc_excess, p) :: fifeFields.reports p

/-- NLD_TICK_CTRL.run lies elsewhere than the reports. -/
theorem fifeReports_run (p : Fin 16) : NReg.TICK_CTRL_run.clearOf (fifeReports p.val) 0 := by revert p; decide

theorem hornReports_run (p : Fin 8) : NReg.TICK_CTRL_run.clearOf (hornFields.reports p.val) 0 := by revert p; decide

@[simp] theorem Nld.fife_setFife (x : NFife) : (n.setFife p x).fife p = x := Tbl.get_set_same _ _ _ _

@[simp] theorem Nld.horn_setHorn (x : NHorn) : (n.setHorn p x).horn p = x := Tbl.get_set_same _ _ _ _

theorem Nld.fife_of_chains {m : Nld} (h : m.chains = n.chains) : m.fife p = n.fife p := by rw [Nld.fife, h, Nld.fife]

theorem Nld.horn_of_group {m : Nld} (h : m.group = n.group) : m.horn p = n.horn p := by rw [Nld.horn, h, Nld.horn]

theorem Nld.setFife_moves (x : NFife) : Nld.Moves [.chains] [] n (n.setFife p x) := .of_only (n.withChains_only _) rfl

theorem Nld.setHorn_moves (x : NHorn) : Nld.Moves [.group] [] n (n.setHorn p x) := .of_only (n.withGroup_only _) rfl

variable (f : LinkEnd → LinkEnd × LinkActs)

theorem Nld.fifeOp_reports : Nld.Moves portParts (fifeReports p) n (n.fifeOp p f) :=
  ((n.setFife_moves p _).mono (by decide) (by simp)).step (Nld.portActs_moves _ p _ fifeFields) (by decide)
    fun _ h => List.mem_cons_of_mem _ (List.mem_cons_of_mem _ h)

theorem Nld.hornOp_reports : Nld.Moves portParts (hornFields.reports p) n (n.hornOp p f) :=
  ((n.setHorn_moves p _).mono (by decide) (by simp)).step (Nld.portActs_moves _ p _ hornFields) (by decide) fun _ h => h

theorem Nld.fifeOp_link : ((n.fifeOp p f).fife p).link = (f (n.fife p).link).1.retrainWakes := by
  have hacts := Nld.fife_of_chains _ p ((Nld.portActs_moves (n.setFife p { n.fife p with link := (f (n.fife p).link).1.retrainWakes }) p
    (f (n.fife p).link).2 fifeFields).only .chains (by decide))
  rw [Nld.fife_setFife] at hacts
  exact congrArg NFife.link hacts

theorem Nld.hornOp_link : ((n.hornOp p f).horn p).link = (f (n.horn p).link).1 := by
  have hacts := Nld.horn_of_group _ p ((Nld.portActs_moves (n.setHorn p { n.horn p with link := (f (n.horn p).link).1 }) p
    (f (n.horn p).link).2 hornFields).only .group (by decide))
  rw [Nld.horn_setHorn] at hacts
  exact congrArg NHorn.link hacts

end

/-! ### An operation on a link end, wherever it stands -/

/-- What an operation makes of a link end, seen by what neither the power state nor what waits decides. -/
theorem LinkDoes.of_onEnd {c : Instr} {s : State} {l : LinkId} {P : LinkEnd → Prop} {f : LinkKind → LinkEnd → LinkEnd × LinkActs}
    (hc : exec c s = onEnd l f s) (hr : s.runsAt l) (hP : ∀ e, (f (kindOf l) (endOf s l)).1.Alike e → P e) : LinkDoes c s l P := by
  cases l with
  | ktuUp => exact .of_ktu (up := true) (f := fun k => k.linkOp true (f fifeKind)) hc hr (s.ktu.linkOp_linked true _) hP
  | ktuDn => exact .of_ktu (up := false) (f := fun k => k.linkOp false (f fifeKind)) hc hr (s.ktu.linkOp_linked false _) hP
  | nldFife p =>
    refine .of_fife (f := fun n => n.fifeOp p.val (f fifeKind)) hc hr (s.nld.fifeOp_reports p.val _) (fifeReports_run p) (hP _ ?_)
    rw [Nld.fifeOp_link]
    exact LinkEnd.retrainWakes_alike _
  | nldHorn p =>
    refine .of_horn (f := fun n => n.hornOp p.val (f hornKind)) hc hr (s.nld.hornOp_reports p.val _) (hornReports_run p) (hP _ ?_)
    rw [Nld.hornOp_link]
    exact .refl _

end Sys2Proof.Machine
end

section
/-! SUPPORT. What each operation of a link end makes of it (R267 to R288): the state it leaves, the numbers, what is kept for replay,
and the credits. -/

namespace Sys2Proof.Machine

-- One theorem at a time: elaborated side by side, those of this text need more stacks than the check has memory for.
set_option Elab.async false

open Sys2Proof

/-! ### Training and recovery (R277, R279) -/

section
variable {a b : LinkEnd} (e : LinkEnd)

theorem LinkEnd.sameLayer_refl : e.sameLayer e := ⟨rfl, rfl, rfl, rfl, rfl⟩

theorem LinkEnd.sameLayer_alike {x : LinkEnd} (h : x.sameLayer a) (h' : a.Alike b) : x.sameLayer b := by
  obtain ⟨_, _, _, _, _, _, rfl⟩ := h'
  exact h

theorem LinkEnd.anew_alike (h : a.anew) (h' : a.Alike b) : b.anew := by
  obtain ⟨_, _, _, _, _, _, rfl⟩ := h'
  exact h

theorem LinkEnd.state_alike (h : a.Alike b) : b.state = a.state := by
  obtain ⟨_, _, _, _, _, _, rfl⟩ := h
  rfl

theorem LinkEnd.toReset_reset : e.toReset.1.state = .reset ∧ e.toReset.1.anew := ⟨rfl, rfl, rfl, rfl, rfl, rfl, rfl⟩

variable {e}

theorem LinkEnd.toDown_running (h : e.state = .active ∨ e.state = .retry ∨ e.state = .retrain) :
    e.toDown.1.state = .down ∧ e.toDown.1.anew := by
  unfold LinkEnd.toDown
  rw [if_pos h]
  exact ⟨rfl, rfl, rfl, rfl, rfl, rfl, rfl⟩

theorem LinkEnd.toRetrain_eq (h : e.carries = true) : e.toRetrain.1 = { e with state := .retrain, episode := none, resend := [] } := by
  unfold LinkEnd.toRetrain
  rw [if_pos h]

theorem LinkEnd.toRetrain_carries (h : e.carries = true) : e.toRetrain.1.state = .retrain ∧ e.sameLayer e.toRetrain.1 := by
  rw [e.toRetrain_eq h]
  exact ⟨rfl, e.sameLayer_refl⟩

theorem LinkEnd.signal_down (h : e.state = .down) : e.signal = { e with state := .training } := if_pos h

theorem LinkEnd.trainTimeout_training (h : e.state = .training) : e.trainTimeout = { e with state := .down } := if_pos h

theorem LinkEnd.resetEnd_reset (h : e.state = .reset) : e.resetEnd = { e with state := .training } := if_pos h

theorem LinkEnd.retrainTimeout_retrain (h : e.state = .retrain) : e.retrainTimeout = e.toReset := if_pos h

theorem LinkEnd.lossOfSignal_running (h : e.state = .active ∨ e.state = .retry ∨ e.state = .retrain) : e.lossOfSignal = e.toDown :=
  if_pos h

variable (nxt : Nat) (mine theirs : Bool)

theorem LinkEnd.linkUp_training (h : e.state = .training) : e.linkUp nxt mine theirs = ({ e with state := .active }, {}) := if_pos h

theorem LinkEnd.linkUp_refused (h : e.state = .retrain) : e.linkUp nxt mine false = e.toReset := by
  simp [LinkEnd.linkUp, h]

/-- R278: a link that resumes goes on from the number its partner expects next. -/
theorem LinkEnd.linkUp_resumed {nxt i : Nat} (h : e.state = .retrain) (hi : e.replay.findIdx? (fun f => f.seq = nxt) = some i) :
    (e.linkUp nxt true true).1 =
      { e with state := .active, replay := e.replay.drop i, resend := e.replay.drop i, nakOut := false } := by
  simp [LinkEnd.linkUp, h, hi]

end

/-! ### Flits (R271 to R276, R282) -/

section
variable (e : LinkEnd) (lk : LinkKind)

theorem LinkEnd.takeAck_eq (ack : Nat) : ∃ rp rs ep st, (e.takeAck ack).1 = { e with replay := rp, resend := rs, episode := ep, state := st } := by
  unfold LinkEnd.takeAck
  simp only []
  split_ifs <;> exact ⟨_, _, _, _, rfl⟩

variable {e} {f : Flit}

/-- R275: a good data flit with the expected number is taken and its unit freed. -/
theorem LinkEnd.receive_expected (hc : e.carries = true) (hcrc : f.crcOk = true) (hs : f.stomped = false) (ht : f.ftype = 0)
    (hn : f.nak = false) (hq : seqPlace lk.modulus e.rxExp f.seq.toNat = 0) :
    (e.receive lk f).1.rxExp = (e.rxExp + 1) % lk.modulus ∧ (e.receive lk f).1.ackDue = true ∧ (e.receive lk f).1.nakOut = false ∧
    Tbl.get 0 f.vc.val (e.receive lk f).1.freed = Tbl.get 0 f.vc.val e.freed + 1 ∧ (e.receive lk f).1.txSeq = e.txSeq := by
  obtain ⟨rp, rs, ep, st, ha⟩ := e.takeAck_eq f.ack.toNat
  have htake : (e.receive lk f).1 = ((e.takeAck f.ack.toNat).1.takeData lk f).1 := by
    simp [LinkEnd.receive, hc, hcrc, hs, ht, hn]
  rw [htake, ha]
  simp [LinkEnd.takeData, hq, LinkEnd.takeCredit, LinkEnd.free]

theorem LinkEnd.askNak_asks : e.askNak.nakOut = true ∧ (e.nakOut = false → e.askNak.nakDue = true) ∧ e.sameLayer e.askNak := by
  unfold LinkEnd.askNak
  cases h : e.nakOut with
  | true => exact ⟨h, fun h => (nomatch h), e.sameLayer_refl⟩
  | false => exact ⟨rfl, fun _ => rfl, e.sameLayer_refl⟩

/-- R275: a damaged flit is answered by a NAK. -/
theorem LinkEnd.receive_damaged (hc : e.carries = true) (hcrc : f.crcOk = false) (hs : f.stomped = false) :
    e.receive lk f = (e.askNak, { crcErr := true }) := by
  simp [LinkEnd.receive, hc, hcrc, hs]

/-- A stomped flit frees its unit and no more. -/
theorem LinkEnd.receive_stomped (hc : e.carries = true) (hs : f.stomped = true) : e.receive lk f = (e.free f.vc.val, {}) := by
  simp [LinkEnd.receive, hc, hs]

theorem LinkEnd.free_freed (vc : Nat) : Tbl.get 0 vc (e.free vc).freed = Tbl.get 0 vc e.freed + 1  := by
  simp [LinkEnd.free]

/-- R459: on Horn it is a damaged one. -/
theorem hornSeen_stomped (hs : f.stomped = true) : hornSeen f = { f with stomped := false, crcOk := false } := if_pos hs

theorem hornSeen_whole (hs : f.stomped = false) : hornSeen f = f := if_neg (by simp [hs])

/-! ### Replay (R276) -/

theorem LinkEnd.ackTimeout_first (hc : e.carries = true) (hr : e.replay ≠ []) (he : e.episode = none) :
    e.ackTimeout.1.state = .retry ∧ e.ackTimeout.1.resend = e.replay ∧ e.sameLayer e.ackTimeout.1 := by
  obtain ⟨x, r, hx⟩ := List.exists_cons_of_ne_nil hr
  simp [LinkEnd.ackTimeout, hc, LinkEnd.startReplay, hx, he, LinkEnd.sameLayer]

/-- The ninth replay of an episode enters Retrain instead. -/
theorem LinkEnd.ackTimeout_again {q n : Nat} (hc : e.carries = true) (hr : e.replay ≠ []) (he : e.episode = some (q, n)) :
    (if n ≥ 8 then e.ackTimeout.1.state = .retrain else e.ackTimeout.1.state = e.state ∧ e.ackTimeout.1.resend = e.replay) ∧
    e.sameLayer e.ackTimeout.1 := by
  obtain ⟨x, r, hx⟩ := List.exists_cons_of_ne_nil hr
  have hstart : e.ackTimeout = if n ≥ 8 then e.toRetrain else ({ e with episode := some (q, n + 1), resend := e.replay }, { replays := 1 }) := by
    simp [LinkEnd.ackTimeout, hc, LinkEnd.startReplay, hx, he]
  rw [hstart]
  split
  · exact e.toRetrain_carries hc
  · exact ⟨⟨rfl, rfl⟩, e.sameLayer_refl⟩

theorem LinkEnd.nakAgain_out (h : e.nakOut = true) : e.nakAgain = { e with nakDue := true } := if_pos h

theorem LinkEnd.episodeEnd_open (hs : e.state = .retry) (he : e.episode ≠ none) : e.episodeEnd = e.toRetrain :=
  if_pos ⟨hs, Option.isSome_iff_ne_none.2 he⟩

/-- R273: a control flit reports credits and what is due, and consumes no number. -/
theorem LinkEnd.controlOut_layer (hc : e.carries = true) :
    (e.controlOut lk).ackDue = false ∧ (e.controlOut lk).nakDue = false ∧ e.sameLayer (e.controlOut lk) := by
  unfold LinkEnd.controlOut
  rw [if_pos hc]
  exact ⟨rfl, rfl, rfl, rfl, rfl, rfl, rfl⟩

end

/-! ### Data flits (R276, R282, R288) -/

section
variable {e : LinkEnd} (lk : LinkKind) (may : Bool → Msg → Bool) (gcOf : Nat → Bool)

theorem LinkEnd.sendReplay_layer {x : SentFlit} {r : List SentFlit} (h : e.resend = x :: r) :
    ∃ e' f, e.sendReplay lk = (e', some f) ∧ e'.resend = r ∧ e.sameLayer e' := by
  unfold LinkEnd.sendReplay
  rw [h]
  exact ⟨_, _, rfl, rfl, rfl, rfl, rfl, rfl, rfl⟩

/-- R276: a flit of a replay goes first. -/
theorem LinkEnd.transmit_resend {x : SentFlit} {r : List SentFlit} (hc : e.carries = true) (h : e.resend = x :: r) :
    ∃ e', e.transmit lk may gcOf = (e', none) ∧ e'.resend = r ∧ e.sameLayer e' := by
  obtain ⟨e', f, hsend, hlayer⟩ := e.sendReplay_layer lk h
  refine ⟨e', ?_, hlayer⟩
  unfold LinkEnd.transmit
  rw [if_neg (not_not_intro hc), hsend]

/-- R276, R282: a data flit takes the next number, a place in the replay buffer and a credit of its channel. -/
theorem LinkEnd.sendFlit_layer {r : Nat} {g : Bool} {m : Msg} {rest : List (Bool × Msg)} (gc : Bool) (hm : (e.txq r).msgs = (g, m) :: rest) :
    ∃ e' x, LinkEnd.sendFlit lk e gc r = (e', some x) ∧ e'.txSeq = (e.txSeq + 1) % lk.modulus ∧
      e'.replay.length = e.replay.length + 1 ∧ Tbl.get 0 (reqVc r) e'.used = Tbl.get 0 (reqVc r) e.used + 1 ∧ e'.rxExp = e.rxExp := by
  simp only [LinkEnd.sendFlit, hm]
  exact ⟨_, _, rfl, rfl, List.length_append, by simp, rfl⟩

/-- Messages wait in one queue alone, whose first message has not begun. -/
def LinkEnd.OneWaits (e : LinkEnd) (r : Nat) (g : Bool) (m : Msg) : Prop :=
  (e.txq r).msgs = [(g, m)] ∧ (e.txq r).sent = 0 ∧ ∀ x, x ≠ r → e.txq x = {}

/-- R282, R288: the only message that waits sends its first flit: a number, a place in the replay buffer and a credit go with it. -/
theorem LinkEnd.transmit_waiting {r : Nat} {g : Bool} {m : Msg} (hc : e.carries = true) (hs : e.resend = []) (hr : r < 9)
    (hw : e.OneWaits r g m) (hcred : e.credit lk (reqVc r) = true) (hlen : e.replay.length < lk.replayMax) (hlp : e.lp = 0)
    (hmay : may (reqOwn r) m = true) :
    ∃ e' x, e.transmit lk may gcOf = (e', some x) ∧ e'.txSeq = (e.txSeq + 1) % lk.modulus ∧
      e'.replay.length = e.replay.length + 1 ∧ Tbl.get 0 (reqVc r) e'.used = Tbl.get 0 (reqVc r) e.used + 1 ∧ e'.rxExp = e.rxExp := by
  obtain ⟨hm, -, hothers⟩ := hw
  have hheld : e.vcHeld r = false := by
    simp only [LinkEnd.vcHeld, List.any_eq_false]
    intro x _
    by_cases hx : x = r
    · simp [hx]
    · simp [hothers x hx]
  have hel : e.eligible lk may r = true := by simp [LinkEnd.eligible, hm, hcred, hlen, hheld, hlp, hmay]
  have hno : ∀ x < 9, x ≠ r → e.eligible lk may x = false := fun x _ hx => by simp [LinkEnd.eligible, hothers x hx]
  obtain ⟨rr, hrr⟩ := arbitrate_single hr hel hno (fun r => if gcOf r then gcPrio (reqVc r) else 0) e.rrTx
  have hsend : e.transmit lk may gcOf = LinkEnd.sendFlit lk { e with rrTx := rr } (gcOf r) r := by
    unfold LinkEnd.transmit LinkEnd.sendReplay
    rw [if_neg (not_not_intro hc), hs]
    simp only [hrr]
  rw [hsend]
  exact LinkEnd.sendFlit_layer lk (e := { e with rrTx := rr }) _ hm

end

end Sys2Proof.Machine
end

section
/-! SUPPORT. The commands of a link's training and recovery and of the flits that arrive (R267 to R279), at whichever of the four kinds
of end. -/

namespace Sys2Proof.Machine

-- One theorem at a time: elaborated side by side, those of this text need more stacks than the check has memory for.
set_option Elab.async false

open Sys2Proof

/-! ### What a claim says of the state and of the link layer -/

section
variable {c : Instr} {s : State} {l : LinkId} {f : LinkKind → LinkEnd → LinkEnd × LinkActs} {st : LinkState}
variable (hc : exec c s = onEnd l f s) (hr : s.runsAt l)
include hc hr

theorem LinkDoes.of_keeps (h : (f (kindOf l) (endOf s l)).1.state = st ∧ (endOf s l).sameLayer (f (kindOf l) (endOf s l)).1) :
    LinkDoes c s l fun e => e.state = st ∧ (endOf s l).sameLayer e :=
  .of_onEnd hc hr fun _ he => ⟨(LinkEnd.state_alike he).trans h.1, LinkEnd.sameLayer_alike h.2 he⟩

theorem LinkDoes.of_anew (h : (f (kindOf l) (endOf s l)).1.state = st ∧ (f (kindOf l) (endOf s l)).1.anew) :
    LinkDoes c s l fun e => e.state = st ∧ e.anew :=
  .of_onEnd hc hr fun _ he => ⟨(LinkEnd.state_alike he).trans h.1, LinkEnd.anew_alike h.2 he⟩

end

/-! ### Training and recovery (R267, R277, R279) -/

theorem onKtu_congr {f g : Ktu → Ktu} {s : State} (h : f s.ktu = g s.ktu) : onKtu f s = onKtu g s := by
  simp only [onKtu, h]

theorem onNld_congr {f g : Nld → Nld} {s : State} (h : f s.nld = g s.nld) : onNld f s = onNld g s := by
  simp only [onNld, h]

theorem Ktu.signalOn_ready {k : Ktu} (h : k.pins.ready = true) (up : Bool) :
    k.signalOn up = k.linkOp up (fun e => (e.signal, {})) := if_pos h

/-- An end that may train takes a signal as any other operation. -/
theorem exec_signalDetect {s : State} {l : LinkId} (h : s.trains l) :
    exec (.signalDetect l) s = onEnd l (fun _ e => (e.signal, {})) s := by
  change execSignalDetect l s = _
  cases l with
  | ktuUp =>
    change onKtu (fun k => k.signalOn true) s = onKtu (fun k => k.linkOp true (fun e => (e.signal, {}))) s
    exact onKtu_congr (Ktu.signalOn_ready h true)
  | ktuDn =>
    change onKtu (fun k => k.signalOn false) s = onKtu (fun k => k.linkOp false (fun e => (e.signal, {}))) s
    exact onKtu_congr (Ktu.signalOn_ready h false)
  | nldFife p =>
    change onNld (fun n => n.fifeSignal p.val) s = onNld (fun n => n.fifeOp p.val (fun e => (e.signal, {}))) s
    exact onNld_congr (if_pos h)
  | nldHorn p =>
    change onNld (fun n => n.hornSignal p.val) s = onNld (fun n => n.hornOp p.val (fun e => (e.signal, {}))) s
    exact onNld_congr (if_pos h)

section
variable {s : State} {l : LinkId} (hr : s.runsAt l)
include hr

theorem signalDetect_does (ht : s.trains l) (hd : (endOf s l).state = .down) : LinkDoes (.signalDetect l) s l fun e =>
    e.state = .training ∧ (endOf s l).sameLayer e :=
  .of_keeps (f := fun _ e => (e.signal, {})) (exec_signalDetect ht) hr
    (by rw [LinkEnd.signal_down hd]; exact ⟨rfl, LinkEnd.sameLayer_refl _⟩)

theorem trainingTimeout_does (ht : (endOf s l).state = .training) : LinkDoes (.trainingTimeout l) s l fun e =>
    e.state = .down ∧ (endOf s l).sameLayer e :=
  .of_keeps (f := fun _ e => (e.trainTimeout, {})) rfl hr
    (by rw [LinkEnd.trainTimeout_training ht]; exact ⟨rfl, LinkEnd.sameLayer_refl _⟩)

theorem resetSlotEnd_does (ht : (endOf s l).state = .reset) : LinkDoes (.resetSlotEnd l) s l fun e =>
    e.state = .training ∧ (endOf s l).sameLayer e :=
  .of_keeps (f := fun _ e => (e.resetEnd, {})) rfl hr
    (by rw [LinkEnd.resetEnd_reset ht]; exact ⟨rfl, LinkEnd.sameLayer_refl _⟩)

theorem retrainTimeout_does (ht : (endOf s l).state = .retrain) : LinkDoes (.retrainTimeout l) s l fun e => e.state = .reset ∧ e.anew :=
  .of_anew (f := fun _ e => e.retrainTimeout) rfl hr (by rw [LinkEnd.retrainTimeout_retrain ht]; exact LinkEnd.toReset_reset _)

theorem lossOfSignal_does (ht : (endOf s l).state = .active ∨ (endOf s l).state = .retry ∨ (endOf s l).state = .retrain) :
    LinkDoes (.lossOfSignal l) s l fun e => e.state = .down ∧ e.anew :=
  .of_anew (f := fun _ e => e.lossOfSignal) rfl hr (by rw [LinkEnd.lossOfSignal_running ht]; exact LinkEnd.toDown_running ht)

theorem hiBer_does (hcar : (endOf s l).carries = true) : LinkDoes (.hiBer l) s l fun e =>
    e.state = .retrain ∧ (endOf s l).sameLayer e :=
  .of_keeps (f := fun _ e => e.toRetrain) rfl hr (LinkEnd.toRetrain_carries hcar)

theorem trainingPair_does (hcar : (endOf s l).carries = true) : LinkDoes (.trainingPair l) s l fun e =>
    e.state = .retrain ∧ (endOf s l).sameLayer e :=
  .of_keeps (f := fun _ e => e.toRetrain) rfl hr (LinkEnd.toRetrain_carries hcar)

end

/-! ### Link-up (R270, R277, R278, R291) -/

/-- A further operation on a KTU that leaves its Fife side. -/
theorem Ktu.Linked.step_fife {up : Bool} {e : LinkEnd} {a b c : Ktu} {l : List KPart} (h : Ktu.Linked up e a b) (ho : Ktu.only l b c)
    (hf : c.fife = b.fife) (hm : ∀ x ∈ l, x ∈ linkParts := by decide) : Ktu.Linked up e a c :=
  h.step ho (.of_eq (Ktu.link_of_fife up hf)) hm

section
variable (k : Ktu)

theorem Ktu.resyncAll_fife : k.resyncAll.fife = k.fife :=
  List.foldlRecOn (List.range 16) Ktu.resync (motive := fun m => m.fife = k.fife) rfl fun m hm x _ => by
    unfold Ktu.resync
    split
    · exact hm
    · exact hm

/-- ENUM that goes on downstream waits at that end, or the chain is marked too long. -/
theorem Ktu.enumDown_cases : k.enumDown = k ∨ k.enumDown = { k with fife := { k.fife with overlong := true } } ∨
    k.enumDown = k.sendDn (.enumReq (BitVec.ofNat 20 (k.fife.addr + 1))) := by
  unfold Ktu.enumDown
  split
  · exact .inl rfl
  · split
    · exact .inr (.inl rfl)
    · exact .inr (.inr rfl)

theorem Ktu.sendDn_only (m : Msg) : Ktu.only [] k (k.sendDn m) := by
  intro x _
  cases x <;> simp [Ktu.same, Ktu.sendDn]

theorem Ktu.enumDown_only : Ktu.only [.fife] k k.enumDown := by
  obtain h | h | h := k.enumDown_cases <;> rw [h]
  · exact k.only_refl _
  · exact k.withFife_only _
  · exact Ktu.only_mono (k.sendDn_only _) (by decide)

theorem Ktu.enumDown_link (up : Bool) : (k.link up).Alike (k.enumDown.link up) := by
  obtain h | h | h := k.enumDown_cases <;> rw [h] <;> cases up <;> exact ⟨_, _, _, _, _, _, rfl⟩

theorem Ktu.linkUp_linked (up : Bool) (nxt : Nat) (resume : Bool) :
    Ktu.Linked up ((k.link up).linkUp nxt true resume).1 k (k.linkUp up nxt resume) := by
  have hop := k.linkOp_linked up (fun e => e.linkUp nxt true resume)
  unfold Ktu.linkUp
  simp only []
  split_ifs
  · exact hop.step_fife (Ktu.resyncAll_only _) (Ktu.resyncAll_fife _)
  · exact hop
  · exact hop.step (Ktu.enumDown_only _) (Ktu.enumDown_link _ up)
  · exact hop
  · exact hop

end

section
variable (n : Nld) (p : Nat) (m : Msg)

theorem Nld.sendFife_moves : Nld.Moves [.chains] [] n (n.sendFife p m) := n.setFife_moves p _

theorem Nld.sendFife_link : (n.fife p).link.Alike ((n.sendFife p m).fife p).link := by
  unfold Nld.sendFife
  rw [Nld.fife_setFife]
  exact LinkEnd.queue_alike _ _ _ _

variable (nxt : Nat) (resume : Bool)

theorem Nld.fifeUp_moves : Nld.Moves portParts (fifeReports p) n (n.fifeUp p nxt resume) :=
  .ite ((n.fifeOp_reports p _).step (Nld.sendFife_moves _ p _) (by decide) (by simp)) (n.fifeOp_reports p _)

theorem Nld.fifeUp_link : ((n.fife p).link.linkUp nxt true resume).1.Alike ((n.fifeUp p nxt resume).fife p).link := by
  have hop : ((n.fife p).link.linkUp nxt true resume).1.Alike ((n.fifeOp p (fun e => e.linkUp nxt true resume)).fife p).link := by
    rw [Nld.fifeOp_link]
    exact LinkEnd.retrainWakes_alike _
  unfold Nld.fifeUp
  simp only []
  split
  · exact hop.trans (Nld.sendFife_link _ p _)
  · exact hop

end

section
variable {s : State} {l : LinkId} (hr : s.runsAt l) (hl : ∀ p, l ≠ .nldHorn p) {nxt : BitVec 8} {r : Bool}
include hr hl

theorem linkUp_does {P : LinkEnd → Prop} (hP : ∀ e, ((endOf s l).linkUp nxt.toNat true r).1.Alike e → P e) :
    LinkDoes (.linkUp l nxt r) s l P := by
  cases l with
  | ktuUp => exact .of_ktu (up := true) (f := fun k => k.linkUp true nxt.toNat r) rfl hr (s.ktu.linkUp_linked true _ _) hP
  | ktuDn => exact .of_ktu (up := false) (f := fun k => k.linkUp false nxt.toNat r) rfl hr (s.ktu.linkUp_linked false _ _) hP
  | nldFife p =>
    have hc : exec (.linkUp (.nldFife p) nxt r) s = onNld (fun n => n.fifeUp p.val nxt.toNat r) s := rfl
    exact .of_fife hc hr (s.nld.fifeUp_moves p.val _ _) (fifeReports_run p) (hP _ (s.nld.fifeUp_link p.val _ _))
  | nldHorn p => exact absurd rfl (hl p)

theorem linkUp_training_does (ht : (endOf s l).state = .training) : LinkDoes (.linkUp l nxt r) s l fun e =>
    e.state = .active ∧ (endOf s l).sameLayer e :=
  linkUp_does hr hl fun e he => by
    rw [LinkEnd.linkUp_training _ _ _ ht] at he
    obtain ⟨_, _, _, _, _, _, rfl⟩ := he
    exact ⟨rfl, rfl, rfl, rfl, rfl, rfl⟩

theorem linkUp_refused_does (ht : (endOf s l).state = .retrain) : LinkDoes (.linkUp l nxt false) s l fun e =>
    e.state = .reset ∧ e.anew :=
  linkUp_does hr hl fun e he => by
    rw [LinkEnd.linkUp_refused _ _ ht] at he
    obtain ⟨hst, hnew⟩ := LinkEnd.toReset_reset (endOf s l)
    exact ⟨(LinkEnd.state_alike he).trans hst, LinkEnd.anew_alike hnew he⟩

theorem linkUp_resumed_does {i : Nat} (ht : (endOf s l).state = .retrain)
    (hi : (endOf s l).replay.findIdx? (fun f => f.seq = nxt.toNat) = some i) : LinkDoes (.linkUp l nxt true) s l fun e =>
      e.state = .active ∧ e.replay = (endOf s l).replay.drop i ∧ e.resend = (endOf s l).replay.drop i ∧
      e.txSeq = (endOf s l).txSeq ∧ e.rxExp = (endOf s l).rxExp :=
  linkUp_does hr hl fun e he => by
    rw [LinkEnd.linkUp_resumed ht hi] at he
    obtain ⟨_, _, _, _, _, _, rfl⟩ := he
    exact ⟨rfl, rfl, rfl, rfl, rfl⟩

end

/-! ### Flits that arrive (R275, R276) -/

section
variable (k : Ktu) (up : Bool)

theorem Ktu.malformed_reported : Ktu.Reported linkReports k k.malformed := ((Ktu.Reported.refl _ k).raise 1).count 1

theorem Ktu.packetEnd_only (id : Nat) : Ktu.only [.queues] k (k.packetEnd id).1 := by
  intro x hx
  cases x <;> simp [Ktu.same, Ktu.packetEnd] at hx ⊢

theorem Ktu.Linked.malformed {up : Bool} {e : LinkEnd} {a b : Ktu} (h : Ktu.Linked up e a b) : Ktu.Linked up e a b.malformed :=
  h.step_fife b.malformed_reported.only b.malformed_reported.fife

theorem Ktu.flitIn_linked (f : Flit) (m : Option Msg) : Ktu.Linked up ((k.link up).receive fifeKind f).1 k (k.flitIn up f m) := by
  have hop := k.linkOp_linked up (fun e => e.receive fifeKind f)
  unfold Ktu.flitIn
  simp only []
  generalize k.linkOp up (fun e => e.receive fifeKind f) = b at hop
  have hend : Ktu.Linked up ((k.link up).receive fifeKind f).1 k (b.packetEnd (rxQueueId up f.vc.val)).1 :=
    hop.step_fife (b.packetEnd_only _) rfl
  generalize (b.packetEnd (rxQueueId up f.vc.val)).1 = d at hend
  split
  · split
    · exact hend.step_fife ((Ktu.Reported.refl linkReports d).count 1).only rfl
    · split
      · exact hend
      · cases up
        · exact hend
        · exact hend.malformed
      · cases up
        · simp only [Bool.false_eq_true, if_false]
          split
          · exact hend.step ((Ktu.only_forwardUp _ _ _ [] _).2 (d.only_refl _)) (.refl _)
          · exact hend.malformed
        · simp only [if_true]
          split
          · exact hend.malformed
          · exact hend
  · exact hop

end

end Sys2Proof.Machine
end

section
/-! SUPPORT. The flits that arrive at a link end and leave it, at whichever of the four kinds of end (R271 to R276, R282, R288), and the
statement on the link layer. -/

namespace Sys2Proof.Machine

-- One theorem at a time: elaborated side by side, those of this text need more stacks than the check has memory for.
set_option Elab.async false

open Sys2Proof

/-! ### Flits that arrive at Naloder (R290, R459) -/

section
variable (n : Nld) (p : Nat)

theorem Nld.countGc_moves (i flits : Nat) : Nld.Moves portParts (fifeReports p) n (n.countGc p i flits) := by
  have hport (x : NFife) : Nld.Moves portParts (fifeReports p) n (n.setFife p x) := (n.setFife_moves p x).mono (by decide) (by simp)
  refine .ite (hport _) (((hport _).step (Nld.count_moves _ NReg.FIFEp_GCX_count _ p) (by decide) (by simp [fifeReports])).step
    (Nld.raise_moves _ NReg.FIFEp_EVT_gc_excess 1 p) (by decide) ?_)
  simp +contextual [fifeReports, PortFields.reports]

theorem Nld.countGc_link (i flits : Nat) : ((n.countGc p i flits).fife p).link = (n.fife p).link := by
  have hport : (n.countGc p i flits).chains =
      (n.setFife p { n.fife p with gcNow := Tbl.set 0 i (Tbl.get 0 i (n.fife p).gcNow + flits) (n.fife p).gcNow }).chains := by
    unfold Nld.countGc
    simp only []
    split
    · rfl
    · exact Nld.raise_chains _ _ _ _
  rw [Nld.fife_of_chains _ _ hport, Nld.fife_setFife]

variable (f : Flit) (m : Option Msg)

theorem Nld.fifeFlit_cases : n.fifeFlit p f m = n.fifeOp p (fun e => e.receive fifeKind f) ∨
    ∃ i, n.fifeFlit p f m = (n.fifeOp p (fun e => e.receive fifeKind f)).countGc p i 1 := by
  unfold Nld.fifeFlit
  simp only []
  split
  · split
    · exact .inr ⟨_, rfl⟩
    · exact .inl rfl
  · exact .inl rfl

theorem Nld.fifeFlit_moves : Nld.Moves portParts (fifeReports p) n (n.fifeFlit p f m) := by
  have hop := n.fifeOp_reports p (fun e => e.receive fifeKind f)
  obtain h | ⟨i, h⟩ := n.fifeFlit_cases p f m <;> rw [h]
  · exact hop
  · exact hop.step (Nld.countGc_moves _ p i 1) (by decide) fun _ h => h

theorem Nld.fifeFlit_link : ((n.fife p).link.receive fifeKind f).1.Alike ((n.fifeFlit p f m).fife p).link := by
  have hop : ((n.fife p).link.receive fifeKind f).1.Alike ((n.fifeOp p (fun e => e.receive fifeKind f)).fife p).link := by
    rw [Nld.fifeOp_link]
    exact LinkEnd.retrainWakes_alike _
  obtain h | ⟨i, h⟩ := n.fifeFlit_cases p f m <;> rw [h]
  · exact hop
  · rw [Nld.countGc_link]
    exact hop

end

/-- The flit that the receiver of an end sees (R459). -/
def seenAt : LinkId → Flit → Flit
  | .nldHorn _ => hornSeen
  | _ => id

theorem seenAt_whole {f : Flit} (h : f.stomped = false) (l : LinkId) : seenAt l f = f := by
  cases l with
  | nldHorn p => exact hornSeen_whole h
  | _ => rfl

theorem seenAt_fife {l : LinkId} (hl : ∀ p, l ≠ .nldHorn p) (f : Flit) : seenAt l f = f := by
  cases l with
  | nldHorn p => exact absurd rfl (hl p)
  | _ => rfl

section
variable {s : State} {l : LinkId} (hr : s.runsAt l)
include hr

/-- A flit does to an end what the receiver makes of it. -/
theorem flitReceive_does {f : Flit} {m : Option Msg} {P : LinkEnd → Prop}
    (hP : ∀ e, ((endOf s l).receive (kindOf l) (seenAt l f)).1.Alike e → P e) : LinkDoes (.flitReceive l f m) s l P := by
  cases l with
  | ktuUp => exact .of_ktu (up := true) (f := fun k => k.flitIn true f m) rfl hr (s.ktu.flitIn_linked true f m) hP
  | ktuDn => exact .of_ktu (up := false) (f := fun k => k.flitIn false f m) rfl hr (s.ktu.flitIn_linked false f m) hP
  | nldFife p =>
    have hc : exec (.flitReceive (.nldFife p) f m) s = onNld (fun n => n.fifeFlit p.val f m) s := rfl
    exact .of_fife hc hr (s.nld.fifeFlit_moves p.val f m) (fifeReports_run p) (hP _ (s.nld.fifeFlit_link p.val f m))
  | nldHorn p =>
    have hc : exec (.flitReceive (.nldHorn p) f m) s = onNld (fun n => n.hornOp p.val (fun e => e.receive hornKind (hornSeen f))) s := rfl
    exact .of_horn hc hr (s.nld.hornOp_reports p.val _) (hornReports_run p)
      (hP _ (.of_eq (s.nld.hornOp_link p.val (fun e => e.receive hornKind (hornSeen f)))))

variable (hcar : (endOf s l).carries = true) {f : Flit} {m : Option Msg}
include hcar

theorem flitReceive_expected_does (hcrc : f.crcOk = true) (hs : f.stomped = false) (ht : f.ftype = 0) (hn : f.nak = false)
    (hq : seqPlace (kindOf l).modulus (endOf s l).rxExp f.seq.toNat = 0) : LinkDoes (.flitReceive l f m) s l fun e =>
      e.rxExp = ((endOf s l).rxExp + 1) % (kindOf l).modulus ∧ e.ackDue = true ∧ e.nakOut = false ∧
      Tbl.get 0 f.vc.val e.freed = Tbl.get 0 f.vc.val (endOf s l).freed + 1 ∧ e.txSeq = (endOf s l).txSeq :=
  flitReceive_does hr fun e he => by
    have htaken := LinkEnd.receive_expected (kindOf l) hcar hcrc hs ht hn hq
    rw [seenAt_whole hs] at he
    obtain ⟨_, _, _, _, _, _, rfl⟩ := he
    exact htaken

theorem flitReceive_damaged_does (hcrc : f.crcOk = false) (hs : f.stomped = false) : LinkDoes (.flitReceive l f m) s l fun e =>
    e.nakOut = true ∧ ((endOf s l).nakOut = false → e.nakDue = true) ∧ (endOf s l).sameLayer e :=
  flitReceive_does hr fun e he => by
    have hasked := LinkEnd.askNak_asks (e := endOf s l)
    rw [seenAt_whole hs, LinkEnd.receive_damaged _ hcar hcrc hs] at he
    obtain ⟨_, _, _, _, _, _, rfl⟩ := he
    exact hasked

theorem flitReceive_stomped_does (hs : f.stomped = true) (hl : ∀ p, l ≠ .nldHorn p) : LinkDoes (.flitReceive l f m) s l fun e =>
    e.rxExp = (endOf s l).rxExp ∧ e.nakOut = (endOf s l).nakOut ∧
    Tbl.get 0 f.vc.val e.freed = Tbl.get 0 f.vc.val (endOf s l).freed + 1 :=
  flitReceive_does hr fun e he => by
    rw [seenAt_fife hl, LinkEnd.receive_stomped _ hcar hs] at he
    obtain ⟨_, _, _, _, _, _, rfl⟩ := he
    exact ⟨rfl, rfl, LinkEnd.free_freed _⟩

/-- R459: a Horn end asks for a stomped flit again. -/
theorem flitReceive_stomped_horn_does {p : Fin 8} (hs : f.stomped = true) (hl : l = .nldHorn p) : LinkDoes (.flitReceive l f m) s l fun e =>
    e.nakOut = true ∧ (endOf s l).sameLayer e :=
  flitReceive_does hr fun e he => by
    obtain ⟨hout, -, hlayer⟩ := LinkEnd.askNak_asks (e := endOf s l)
    have hseen : seenAt l f = { f with stomped := false, crcOk := false } := by rw [hl]; exact hornSeen_stomped hs
    rw [hseen, LinkEnd.receive_damaged _ hcar rfl rfl] at he
    obtain ⟨_, _, _, _, _, _, rfl⟩ := he
    exact ⟨hout, hlayer⟩

/-! ### Replay (R273, R275, R276) -/

theorem ackTimeout_first_does (hre : (endOf s l).replay ≠ []) (hep : (endOf s l).episode = none) : LinkDoes (.ackTimeout l) s l fun e =>
    e.state = .retry ∧ e.resend = (endOf s l).replay ∧ (endOf s l).sameLayer e :=
  .of_onEnd (f := fun _ e => e.ackTimeout) rfl hr fun e he => by
    have hfirst := LinkEnd.ackTimeout_first hcar hre hep
    obtain ⟨_, _, _, _, _, _, rfl⟩ := he
    exact hfirst

theorem ackTimeout_again_does {q n : Nat} (hre : (endOf s l).replay ≠ []) (hep : (endOf s l).episode = some (q, n)) :
    LinkDoes (.ackTimeout l) s l fun e =>
      (if n ≥ 8 then e.state = .retrain else e.state = (endOf s l).state ∧ e.resend = (endOf s l).replay) ∧ (endOf s l).sameLayer e :=
  .of_onEnd (f := fun _ e => e.ackTimeout) rfl hr fun e he => by
    have hagain := LinkEnd.ackTimeout_again hcar hre hep
    obtain ⟨_, _, _, _, _, _, rfl⟩ := he
    exact hagain

omit hcar in
theorem nakResendTimeout_does (hn : (endOf s l).nakOut = true) : LinkDoes (.nakResendTimeout l) s l fun e =>
    e.nakDue = true ∧ (endOf s l).sameLayer e :=
  .of_onEnd (f := fun _ e => (e.nakAgain, {})) rfl hr fun e he => by
    rw [LinkEnd.nakAgain_out hn] at he
    obtain ⟨_, _, _, _, _, _, rfl⟩ := he
    exact ⟨rfl, LinkEnd.sameLayer_refl _⟩

theorem retryEpisodeTimeout_does (hst : (endOf s l).state = .retry) (hep : (endOf s l).episode ≠ none) :
    LinkDoes (.retryEpisodeTimeout l) s l fun e => e.state = .retrain ∧ (endOf s l).sameLayer e :=
  .of_keeps (f := fun _ e => e.episodeEnd) rfl hr (by rw [LinkEnd.episodeEnd_open hst hep]; exact LinkEnd.toRetrain_carries hcar)

theorem controlFlitTimer_does : LinkDoes (.controlFlitTimer l) s l fun e =>
    e.ackDue = false ∧ e.nakDue = false ∧ (endOf s l).sameLayer e :=
  .of_onEnd (f := fun lk e => (e.controlOut lk, {})) rfl hr fun e he => by
    have hout := LinkEnd.controlOut_layer (kindOf l) hcar
    obtain ⟨_, _, _, _, _, _, rfl⟩ := he
    exact hout

end

end Sys2Proof.Machine
end

section
/-! SUPPORT. The flits that leave a link end, at whichever of the four kinds of end (R276, R282, R288), and the statement on the link
layer. -/

namespace Sys2Proof.Machine

-- One theorem at a time: elaborated side by side, those of this text need more stacks than the check has memory for.
set_option Elab.async false

open Sys2Proof

/-! ### An end made ready to send -/

/-- Ends alike carry flits alike: the same replay, credits and numbers. -/
theorem LinkEnd.Alike.flits {a b : LinkEnd} (h : a.Alike b) : b.carries = a.carries ∧ b.resend = a.resend ∧
    (∀ lk vc, b.credit lk vc = a.credit lk vc) ∧ a.sameLayer b := by
  obtain ⟨_, _, _, _, _, _, rfl⟩ := h
  exact ⟨rfl, rfl, fun _ _ => rfl, a.sameLayer_refl⟩

theorem LinkEnd.sameLayer_trans {a b c : LinkEnd} (h : a.sameLayer b) (h' : b.sameLayer c) : a.sameLayer c := by
  obtain ⟨h1, h2, h3, h4, h5⟩ := h
  obtain ⟨h1', h2', h3', h4', h5'⟩ := h'
  exact ⟨h1'.trans h1, h2'.trans h2, h3'.trans h3, h4'.trans h4, h5'.trans h5⟩

/-- Before Naloder's port sends, a link that its traffic wakes leaves its power state (R309), and what may leave is stamped (R75). -/
def LinkEnd.Readied (a x : LinkEnd) : Prop :=
  ∃ b, (b = a ∨ a.lp ≠ 0 ∧ b = a.sendState 2) ∧ (x = b ∨ ∃ t, x = b.stamp t)

section
variable {a x : LinkEnd}

theorem LinkEnd.Readied.refl (a : LinkEnd) : a.Readied a := ⟨a, .inl rfl, .inl rfl⟩

theorem LinkEnd.Readied.alike (h : a.Readied x) : a.Alike x := by
  obtain ⟨b, hb, hx⟩ := h
  have hab : a.Alike b := by
    obtain rfl | ⟨-, rfl⟩ := hb
    · exact .refl _
    · exact a.sendState_alike 2
  obtain rfl | ⟨t, rfl⟩ := hx
  · exact hab
  · exact hab.trans (b.stamp_alike t)

/-- Stamping the queues stamps each. -/
theorem LinkEnd.txq_stamp (e : LinkEnd) (t : BitVec 80) (r : Nat) : (e.stamp t).txq r = (e.txq r).stamp t := by
  unfold LinkEnd.txq LinkEnd.stamp
  induction e.tx with
  | nil => rfl
  | cons q tx ih =>
    obtain ⟨k, v⟩ := q
    simp only [List.map_cons, Tbl.get_cons]
    split
    · rfl
    · exact ih

/-- One message that waits still waits when it is stamped. -/
theorem LinkEnd.OneWaits.stamp {r : Nat} {g : Bool} {m : Msg} (h : a.OneWaits r g m) (t : BitVec 80) :
    (a.stamp t).OneWaits r g (stampMsg t m) := by
  obtain ⟨hm, hsent, hothers⟩ := h
  refine ⟨?_, ?_, fun x hx => ?_⟩
  · simp [LinkEnd.txq_stamp, TxVc.stamp, hm, hsent]
  · simp [LinkEnd.txq_stamp, TxVc.stamp, hm, hsent]
  · rw [LinkEnd.txq_stamp, hothers x hx]
    rfl

/-- An end in L0 in which one message waits is made ready as that end, one message waiting. -/
theorem LinkEnd.Readied.oneWaits (h : a.Readied x) (hlp : a.lp = 0) {r : Nat} {g : Bool} {m : Msg} (hw : a.OneWaits r g m) :
    x.lp = 0 ∧ ∃ m', x.OneWaits r g m' := by
  obtain ⟨b, hb, hx⟩ := h
  obtain rfl : b = a := by
    obtain rfl | ⟨hne, -⟩ := hb
    · rfl
    · exact absurd hlp hne
  obtain rfl | ⟨t, rfl⟩ := hx
  · exact ⟨hlp, m, hw⟩
  · exact ⟨hlp, _, hw.stamp t⟩

end

/-! ### Transmission at a KTU -/

section
variable {k : Ktu}

/-- With no frame, trace record or dump elsewhere, nothing is handed to the upstream port. -/
theorem Ktu.offer_none (hs : k.codec.store = []) (hf : k.trace.funnel = []) (hd : k.tail.dumps = []) : k.offer = k := by
  have hframe : k.offerFrame = k := by simp [Ktu.offerFrame, hs]
  have htrace : k.formTrace = k := by simp [Ktu.formTrace, hf]
  have hdump : k.dumpStep = k := by
    rw [Ktu.dumpStep, Ktu.nextDump, hd]
    exact congrArg (fun d => { k with tail := { k.tail with dumps := d } }) hd.symm
  simp only [Ktu.offer, hframe, htrace, hdump, ite_self]

theorem Ktu.spend_only (r : Nat) : Ktu.only [.fife] k (k.spend r) := by
  obtain ⟨f, h⟩ : ∃ f, k.spend r = { k with fife := f } := by
    unfold Ktu.spend
    split_ifs <;> exact ⟨_, rfl⟩
  rw [h]
  exact k.withFife_only f

theorem Ktu.spend_link (r : Nat) (up : Bool) : (k.spend r).link up = k.link up := by
  unfold Ktu.spend
  split_ifs <;> cases up <;> rfl

theorem Ktu.dumpSent_only (u : Nat) : Ktu.only [.tail] k (k.dumpSent u) := by
  unfold Ktu.dumpSent
  split
  · exact Ktu.only_trans (k.withTail_only _) (Ktu.setRing_keeps _ _ _).only
  · exact k.only_refl _

theorem Ktu.dumpSent_fife (u : Nat) : (k.dumpSent u).fife = k.fife := by
  unfold Ktu.dumpSent
  split <;> rfl

/-- R177, R289: a flit sent upstream uses its allowance, and the last one of a dump may release a ring. -/
theorem Ktu.transmitUp_linked (hc : k.fife.up.carries = true) (ho : k.offer = k) :
    Ktu.Linked true (k.fife.up.transmit fifeKind k.mayUp k.gcUp).1 k k.transmitUp := by
  have hset (e : LinkEnd) : Ktu.Linked true e k (k.setLink true e) :=
    ⟨Ktu.only_mono (k.setLink_only true e) (by decide), .of_eq (k.link_setLink true e)⟩
  unfold Ktu.transmitUp
  rw [if_neg (not_not_intro hc), ho]
  simp only []
  generalize k.fife.up.transmit fifeKind k.mayUp k.gcUp = x
  obtain ⟨e, o⟩ := x
  cases o with
  | none => exact hset e
  | some sent =>
    have hspent := (hset e).step (Ktu.spend_only sent.req) (.of_eq (Ktu.spend_link sent.req true))
    simp only []
    split
    · split
      · exact hspent.step_fife (Ktu.dumpSent_only _) (Ktu.dumpSent_fife _)
      · exact hspent
    · exact hspent

end

/-! ### Transmission at Naloder -/

section
variable (n : Nld) (p dt : Nat)

theorem Nld.wakeChain_cases : n.wakeChain p = n ∨ (n.fife p).link.lp ≠ 0 ∧
    n.wakeChain p = n.setFife p { n.fife p with link := (n.fife p).link.sendState 2 } := by
  by_cases h : (n.fife p).link.lp = 0
  · exact .inl (if_pos h)
  · exact .inr ⟨h, if_neg h⟩

theorem Nld.fifeTransmit_ready : Nld.Moves [.chains] [] n (n.fifeTransmit p dt) ∧ ∃ x, (n.fife p).link.Readied x ∧
    ((n.fifeTransmit p dt).fife p).link = (x.transmit fifeKind (fun _ _ => true) (fun _ => true)).1 := by
  have hwoken : ∃ m, (if (n.fife p).link.stuck then n.wakeChain p else n) = m ∧ Nld.Moves [.chains] [] n m ∧
      ((m.fife p).link = (n.fife p).link ∨ (n.fife p).link.lp ≠ 0 ∧ (m.fife p).link = (n.fife p).link.sendState 2) := by
    refine ⟨_, rfl, ?_⟩
    split
    · obtain h | ⟨hlp, h⟩ := n.wakeChain_cases p <;> rw [h]
      · exact ⟨.refl _ _ n, .inl rfl⟩
      · exact ⟨n.setFife_moves p _, .inr ⟨hlp, by rw [Nld.fife_setFife]⟩⟩
    · exact ⟨.refl _ _ n, .inl rfl⟩
  obtain ⟨m, hm, hmoves, hlink⟩ := hwoken
  unfold Nld.fifeTransmit
  simp only [hm]
  refine ⟨hmoves.step (m.setFife_moves p _), (m.fife p).link.stamp (m.sendTime dt), ⟨_, hlink, .inr ⟨_, rfl⟩⟩, ?_⟩
  rw [Nld.fife_setFife]

theorem Nld.hornTransmit_ready : Nld.Moves [.group] [] n (n.hornTransmit p dt) ∧ ∃ x, (n.horn p).link.Readied x ∧
    ((n.hornTransmit p dt).horn p).link = (x.transmit hornKind (fun _ _ => true) (fun _ => true)).1 := by
  refine ⟨n.setHorn_moves p _, (n.horn p).link.stamp (n.sendTime dt), ⟨_, .inl rfl, .inr ⟨_, rfl⟩⟩, ?_⟩
  unfold Nld.hornTransmit
  rw [Nld.horn_setHorn]

end

/-! ### Transmission at any end -/

section
variable {s : State} {l : LinkId} (hr : s.runsAt l) (hcar : (endOf s l).carries = true) (hsend : s.sendsOnly l) (dt : Nat)
include hr hcar hsend

/-- A data flit is sent by the end made ready, which its port keeps from nothing that waits. -/
theorem flitTransmit_does {P : LinkEnd → Prop} (hP : ∀ x may gcOf, (endOf s l).Readied x → (∀ own m, may own m = true) →
    ∀ e, (x.transmit (kindOf l) may gcOf).1.Alike e → P e) : LinkDoes (.flitTransmit l dt) s l P := by
  cases l with
  | ktuUp =>
    obtain ⟨hmay, hstore, hfunnel, hdumps⟩ := hsend
    exact .of_ktu (up := true) (f := fun k => k.transmit true) rfl hr (Ktu.transmitUp_linked hcar (Ktu.offer_none hstore hfunnel hdumps))
      (hP _ s.ktu.mayUp s.ktu.gcUp (.refl _) fun own m => by simp [Ktu.mayUp, hmay])
  | ktuDn =>
    have hdn : s.ktu.transmit false = s.ktu.transmitDn := if_neg (Bool.eq_false_iff.1 hsend)
    have hlinked (e : LinkEnd) : Ktu.Linked false e s.ktu (s.ktu.setLink false e) :=
      ⟨Ktu.only_mono (s.ktu.setLink_only false e) (by decide), .of_eq (s.ktu.link_setLink false e)⟩
    have hsent : Ktu.Linked false (s.ktu.fife.dn.transmit fifeKind (fun _ _ => true)
        (fun r => ((s.ktu.fife.dn.txq r).msgs.head?.map Prod.fst).getD false)).1 s.ktu (s.ktu.transmit false) := by
      rw [hdn]
      exact hlinked _
    exact .of_ktu (up := false) (f := fun k => k.transmit false) rfl hr hsent (hP _ (fun _ _ => true) _ (.refl _) fun _ _ => rfl)
  | nldFife p =>
    have hc : exec (.flitTransmit (.nldFife p) dt) s = onNld (fun n => n.fifeTransmit p.val dt) s := rfl
    obtain ⟨hmoves, x, hx, hlink⟩ := s.nld.fifeTransmit_ready p.val dt
    exact .of_fife hc hr hmoves.mono run_apart_nil (hP x _ _ hx (fun _ _ => rfl) _ (.of_eq hlink))
  | nldHorn p =>
    have hc : exec (.flitTransmit (.nldHorn p) dt) s = onNld (fun n => n.hornTransmit p.val dt) s := rfl
    obtain ⟨hmoves, x, hx, hlink⟩ := s.nld.hornTransmit_ready p.val dt
    exact .of_horn hc hr hmoves.mono run_apart_nil (hP x _ _ hx (fun _ _ => rfl) _ (.of_eq hlink))

theorem flitTransmit_resend_does {x : SentFlit} {r : List SentFlit} (hre : (endOf s l).resend = x :: r) :
    LinkDoes (.flitTransmit l dt) s l fun e => e.resend = r ∧ (endOf s l).sameLayer e :=
  flitTransmit_does hr hcar hsend dt fun y may gcOf hy _ e he => by
    obtain ⟨hc, hrs, -, hlayer⟩ := hy.alike.flits
    obtain ⟨e', ht, hrest, hlayer'⟩ := LinkEnd.transmit_resend (kindOf l) may gcOf (hc.trans hcar) (hrs.trans hre)
    rw [ht] at he
    obtain ⟨-, hrs', -⟩ := he.flits
    exact ⟨hrs'.trans hrest, LinkEnd.sameLayer_alike (LinkEnd.sameLayer_trans hlayer hlayer') he⟩

theorem flitTransmit_waiting_does {r : Nat} {g : Bool} {m : Msg} (hre : (endOf s l).resend = []) (hr9 : r < 9)
    (hw : (endOf s l).OneWaits r g m) (hcred : (endOf s l).credit (kindOf l) (reqVc r) = true)
    (hlen : (endOf s l).replay.length < (kindOf l).replayMax) (hlp : (endOf s l).lp = 0) : LinkDoes (.flitTransmit l dt) s l fun e =>
      e.txSeq = ((endOf s l).txSeq + 1) % (kindOf l).modulus ∧ e.replay.length = (endOf s l).replay.length + 1 ∧
      Tbl.get 0 (reqVc r) e.used = Tbl.get 0 (reqVc r) (endOf s l).used + 1 ∧ e.rxExp = (endOf s l).rxExp :=
  flitTransmit_does hr hcar hsend dt fun y may gcOf hy hmay e he => by
    obtain ⟨hlp', m', hw'⟩ := hy.oneWaits hlp hw
    obtain ⟨hc, hrs, hcr, htx, hrx, hrep, hused, -⟩ := hy.alike.flits
    obtain ⟨e', sent, ht, hlayer⟩ := LinkEnd.transmit_waiting (kindOf l) may gcOf (hc.trans hcar) (hrs.trans hre) hr9 hw'
      ((hcr _ _).trans hcred) (hrep ▸ hlen) hlp' (hmay _ _)
    rw [ht] at he
    rw [htx, hrx, hrep, hused] at hlayer
    obtain ⟨_, _, _, _, _, _, rfl⟩ := he
    exact hlayer

end

/-! ### The statement -/

/-- Settles O21: each command is one operation of the end it names, and what follows it on that side touches neither the numbers, the
replay nor the credits. -/
theorem linkLayer : Obligations.LinkLayer := by
  unfold Obligations.LinkLayer
  constructor
  · intro s l hr
    exact ⟨signalDetect_does hr, trainingTimeout_does hr, resetSlotEnd_does hr, retrainTimeout_does hr, lossOfSignal_does hr,
      fun hcar => ⟨hiBer_does hr hcar, trainingPair_does hr hcar⟩,
      fun nxt hl => ⟨fun ht r => linkUp_training_does hr hl ht, linkUp_refused_does hr hl, fun i => linkUp_resumed_does hr hl⟩⟩
  · intro s l hr hcar
    exact ⟨fun f m => flitReceive_expected_does hr hcar, fun f m => flitReceive_damaged_does hr hcar,
      fun f m => flitReceive_stomped_does hr hcar, fun f m p => flitReceive_stomped_horn_does hr hcar,
      ackTimeout_first_does hr hcar, fun q n => ackTimeout_again_does hr hcar, nakResendTimeout_does hr,
      retryEpisodeTimeout_does hr hcar, controlFlitTimer_does hr hcar, fun dt x r hs => flitTransmit_resend_does hr hcar hs dt,
      fun dt r g m hs hre hr9 hm hsent hothers hcred hlen hlp =>
        flitTransmit_waiting_does hr hcar hs dt hre hr9 ⟨hm, hsent, hothers⟩ hcred hlen hlp⟩

end Sys2Proof.Machine
end

section
/-! SUPPORT. Link-state pairs and the sleep handshake (R307 to R309, R311), and the statement on the power states of Fife links. -/

namespace Sys2Proof.Machine

-- One theorem at a time: elaborated side by side, those of this text need more stacks than the check has memory for.
set_option Elab.async false

open Sys2Proof

/-! ### A link-state pair at an end (R308) -/

section
variable (e : LinkEnd)

/-- Stay leaves the link in L0, with nothing waiting to enter another state. -/
theorem LinkEnd.gotState_stay : e.gotState 2 =
    { e with lp := 0, relocking := e.relocking || e.lp == 2, sentEnter := none, gotEnter := none } := rfl

variable {e} {c : Nat} (hc : c ≠ 2)
include hc

/-- An enter pair that answers the end's own puts the link into its state. -/
theorem LinkEnd.gotState_answer (h : e.sentEnter = some c) : e.gotState c = { e with lp := c + 1, sentEnter := none, gotEnter := none } :=
  (if_neg hc).trans (if_pos h)

theorem LinkEnd.gotState_first (h : e.sentEnter ≠ some c) : e.gotState c = { e with gotEnter := some c } :=
  (if_neg hc).trans (if_neg h)

end

theorem LinkEnd.retrainWakes_inL0 {e : LinkEnd} (h : e.lp = 0) : e.retrainWakes = e := if_neg fun hr => hr.2 h

theorem LinkEnd.retrainWakes_trained {e : LinkEnd} (h : e.state ≠ .retrain) : e.retrainWakes = e := if_neg fun hr => h hr.1

/-- An operation that leaves a link in L0 does to its end what it does, but for what waits to be sent. -/
theorem LinkDoes.of_onEnd_inL0 {c : Instr} {s : State} {l : LinkId} {P : LinkEnd → Prop} {f : LinkKind → LinkEnd → LinkEnd × LinkActs}
    (hc : exec c s = onEnd l f s) (hr : s.runsAt l) (hl : (f (kindOf l) (endOf s l)).1.lp = 0)
    (hP : ∀ tx, P { (f (kindOf l) (endOf s l)).1 with tx := tx }) : LinkDoes c s l P := by
  have hktu (up : Bool) (hl : (f fifeKind (s.ktu.link up)).1.lp = 0) : ∃ tx,
      (s.ktu.linkOp up (f fifeKind)).wakeCheck.link up = { (f fifeKind (s.ktu.link up)).1 with tx := tx } := by
    have hlink := s.ktu.linkOp_link up (f fifeKind)
    rw [LinkEnd.retrainWakes_inL0 hl] at hlink
    obtain ⟨tx, h⟩ := Ktu.wakeCheck_link_inL0 ((congrArg LinkEnd.lp hlink).trans hl)
    exact ⟨tx, by rw [h, hlink]⟩
  cases l with
  | ktuUp =>
    obtain ⟨tx, h⟩ := hktu true hl
    refine .of_ktuEnd (up := true) (f := fun k => k.linkOp true (f fifeKind)) hc hr (s.ktu.linkOp_linked true _).only ?_
    rw [h]
    exact hP tx
  | ktuDn =>
    obtain ⟨tx, h⟩ := hktu false hl
    refine .of_ktuEnd (up := false) (f := fun k => k.linkOp false (f fifeKind)) hc hr (s.ktu.linkOp_linked false _).only ?_
    rw [h]
    exact hP tx
  | nldFife p =>
    refine .of_fife (f := fun n => n.fifeOp p.val (f fifeKind)) hc hr (s.nld.fifeOp_reports p.val _) (fifeReports_run p) ?_
    have hport : (f fifeKind (s.nld.fife p.val).link).1.lp = 0 := hl
    rw [Nld.fifeOp_link, LinkEnd.retrainWakes_inL0 hport]
    exact hP _
  | nldHorn p =>
    refine .of_horn (f := fun n => n.hornOp p.val (f hornKind)) hc hr (s.nld.hornOp_reports p.val _) (hornReports_run p) ?_
    rw [Nld.hornOp_link]
    exact hP _

/-! ### A link-state pair at a KTU -/

section
variable (k : Ktu) (up : Bool) (code : Nat)

/-- R308: the end takes the pair; stay goes on over the other link. -/
theorem Ktu.statePair_eq : ∃ e, k.statePair up code = (k.setLink up ((k.link up).gotState code)).setLink (!up) e ∧
    (code = 2 → k.pins.straps.leaf = false → e = (k.link (!up)).sendState 2) := by
  unfold Ktu.statePair
  simp only []
  split
  · exact ⟨_, rfl, fun _ _ => by rw [Ktu.link_not_setLink]⟩
  next h =>
    refine ⟨k.link (!up), ?_, fun hc hl => absurd ⟨hc, ?_⟩ h⟩
    · rw [← k.link_not_setLink up ((k.link up).gotState code), Ktu.setLink_link]
    · rw [Ktu.setLink_pins, hl]
      exact Bool.false_ne_true

theorem Ktu.statePair_link : (k.statePair up code).link up = (k.link up).gotState code := by
  obtain ⟨e, h, -⟩ := k.statePair_eq up code
  rw [h, Ktu.link_setLink_not, Ktu.link_setLink]

theorem Ktu.statePair_only : Ktu.only [] k (k.statePair up code) := by
  obtain ⟨e, h, -⟩ := k.statePair_eq up code
  rw [h]
  exact Ktu.only_trans (Ktu.setLink_only _ _ _) (Ktu.setLink_only _ _ _)

end

section
variable {s : State}

/-- What a stay pair leaves of the end it reaches. -/
theorem statePair_stay_ktu_does (up : Bool) (hr : s.ktu.runs) {P : LinkEnd → Prop}
    (hP : ∀ tx, P { (s.ktu.link up).gotState 2 with tx := tx })
    (hc : exec (.linkStatePair (ktuLink up) 2) s = onKtu (fun k => k.statePair up 2) s) :
    LinkDoes (.linkStatePair (ktuLink up) 2) s (ktuLink up) P := by
  have hlink := s.ktu.statePair_link up 2
  obtain ⟨tx, h⟩ := Ktu.wakeCheck_link_inL0 (congrArg LinkEnd.lp hlink)
  refine .of_ktuEnd hc hr (Ktu.only_mono (s.ktu.statePair_only up 2) (by decide)) ?_
  rw [h, hlink]
  exact hP tx

theorem statePair_stay_does {l : LinkId} (hr : s.runsAt l) (hl : ∀ p, l ≠ .nldHorn p) : LinkDoes (.linkStatePair l 2) s l fun e =>
    e.lp = 0 ∧ e.sentEnter = none ∧ e.gotEnter = none ∧ e.state = (endOf s l).state ∧ (endOf s l).sameLayer e := by
  cases l with
  | ktuUp => exact statePair_stay_ktu_does true hr (fun _ => ⟨rfl, rfl, rfl, rfl, LinkEnd.sameLayer_refl _⟩) rfl
  | ktuDn => exact statePair_stay_ktu_does false hr (fun _ => ⟨rfl, rfl, rfl, rfl, LinkEnd.sameLayer_refl _⟩) rfl
  | nldFife p =>
    refine .of_fife (f := fun n => n.fifeOp p.val (fun e => (e.gotState 2, {}))) rfl hr (s.nld.fifeOp_reports p.val _) (fifeReports_run p) ?_
    rw [Nld.fifeOp_link, LinkEnd.retrainWakes_inL0 rfl]
    exact ⟨rfl, rfl, rfl, rfl, LinkEnd.sameLayer_refl _⟩
  | nldHorn p => exact absurd rfl (hl p)

/-- R309: a link in L0 whose lane 1 has relocked waits for nothing. -/
theorem laneRelock_does {l : LinkId} (hr : s.runsAt l) (hlp : (endOf s l).lp = 0) : LinkDoes (.laneRelock l) s l fun e =>
    e.relocking = false ∧ (endOf s l).sameLayer e :=
  .of_onEnd_inL0 (f := fun _ e => (e.relocked, {})) rfl hr hlp fun _ => ⟨rfl, LinkEnd.sameLayer_refl _⟩

/-- What an enter pair leaves of a port of Naloder that is not in Retrain. -/
theorem statePair_enter_does {p : Fin 16} {c : Fin 3} {P : LinkEnd → Prop} (hr : s.nld.runs) (hst : (endOf s (.nldFife p)).state ≠ .retrain)
    {e : LinkEnd} (he : (endOf s (.nldFife p)).gotState c.val = e) (hs : e.state = (endOf s (.nldFife p)).state) (hP : P e) :
    LinkDoes (.linkStatePair (.nldFife p) c) s (.nldFife p) P := by
  refine .of_fife (f := fun n => n.fifeOp p.val (fun e => (e.gotState c.val, {}))) rfl hr (s.nld.fifeOp_reports p.val _) (fifeReports_run p) ?_
  have hgot : (s.nld.fife p.val).link.gotState c.val = e := he
  rw [Nld.fifeOp_link, hgot, LinkEnd.retrainWakes_trained (hs ▸ hst)]
  exact hP

theorem statePair_enter_both_does {p : Fin 16} {c : Fin 3} (hr : s.nld.runs) (hc : c ≠ 2) (hst : (endOf s (.nldFife p)).state ≠ .retrain) :
    ((endOf s (.nldFife p)).sentEnter = some c.val → LinkDoes (.linkStatePair (.nldFife p) c) s (.nldFife p) fun e =>
      e.lp = c.val + 1 ∧ e.sentEnter = none) ∧
    ((endOf s (.nldFife p)).sentEnter ≠ some c.val → LinkDoes (.linkStatePair (.nldFife p) c) s (.nldFife p) fun e =>
      e.lp = (endOf s (.nldFife p)).lp ∧ e.gotEnter = some c.val) := by
  have hne : c.val ≠ 2 := fun h => hc (Fin.ext h)
  exact ⟨fun h => statePair_enter_does hr hst (LinkEnd.gotState_answer hne h) rfl ⟨rfl, rfl⟩,
    fun h => statePair_enter_does hr hst (LinkEnd.gotState_first hne h) rfl ⟨rfl, rfl⟩⟩

/-- R308: a KTU in chain mode sends stay on over its other link. -/
theorem statePair_stay_chain_does (hr : s.ktu.runs) (hl : s.ktu.pins.straps.leaf = false) : KtuDoes (.linkStatePair .ktuUp 2) s fun k =>
    k.fife.up.lp = 0 ∧ k.fife.dn.lp = 0 ∧ k.fife.dn.pairs = s.ktu.fife.dn.pairs ++ [2] := by
  refine .of_onKtu (fun k => k.statePair true 2) rfl hr ?_
  obtain ⟨e, heq, he⟩ := s.ktu.statePair_eq true 2
  have hup : (s.ktu.statePair true 2).link true = (s.ktu.link true).gotState 2 := s.ktu.statePair_link true 2
  have hdn : (s.ktu.statePair true 2).link false = (s.ktu.link false).sendState 2 := by
    rw [heq, he rfl hl]
    exact Ktu.link_setLink _ false _
  obtain ⟨tx, htx⟩ := Ktu.wakeCheck_link_inL0 (congrArg LinkEnd.lp hup)
  obtain ⟨tx', htx'⟩ := Ktu.wakeCheck_link_inL0 (congrArg LinkEnd.lp hdn)
  rw [hup] at htx
  rw [hdn] at htx'
  exact ⟨congrArg LinkEnd.lp htx, congrArg LinkEnd.lp htx', congrArg LinkEnd.pairs htx'⟩

end

/-! ### The sleep handshake (R307, R311) -/

section
variable (k : Ktu)

/-- R307: a pending source ends a sleep phase, and nothing else does. -/
theorem Ktu.wakeCheck_sleepPhase : k.wakeCheck.fife.sleepPhase = if k.wakeSources = 0 then k.fife.sleepPhase else 0 := by
  split
  next h => rw [Ktu.wakeCheck, if_pos h, Ktu.sendWake_sleepPhase]
  next h => exact (k.wakeCheck_wakes h).2.2

/-- Handing on a message downstream moves no wake source. -/
theorem Ktu.forwardDn_wakeSources (m : Msg) : (k.forwardDn m).wakeSources = k.wakeSources := by
  obtain ⟨d, h⟩ := k.forwardDn_eq m
  rw [h]
  rfl

theorem Ktu.forwardDn_addr (m : Msg) : (k.forwardDn m).addr = k.addr := by
  obtain ⟨d, h⟩ := k.forwardDn_eq m
  rw [h]
  rfl

/-- Nor does an answer to a proposal: it is no message that wakes (R306). -/
theorem Ktu.sendUp_sleepAgree_wakeSources (a : BitVec 20) (r : Bool) (b : BitVec 8) (t : BitVec 48) :
    (k.sendUp (.sleepAgree a r b t)).wakeSources = k.wakeSources := by
  have hq : (Tbl.get ({} : TxVc) 2 (k.sendUp (.sleepAgree a r b t)).fife.up.tx).msgs =
      (Tbl.get ({} : TxVc) 2 k.fife.up.tx).msgs ++ [(false, .sleepAgree a r b t)] := by
    simp [Ktu.sendUp, LinkEnd.queue, Msg.ownReq, Msg.vc]
  unfold Ktu.wakeSources
  rw [hq, List.any_append, List.any_cons, List.any_nil, Bool.or_false]
  simp only [Bool.or_false]
  rfl

variable (tg : BitVec 8) (t : BitVec 48)

/-- A KTU that has taken a proposal: it has agreed, or refused for its sources. -/
def Ktu.proposed (k : Ktu) (tg : BitVec 8) (t : BitVec 48) : Ktu :=
  { k.forwardDn (.sleepPropose 0 tg t) with fife := { (k.forwardDn (.sleepPropose 0 tg t)).fife with
      sleepPhase := if k.wakeSources = 0 then 1 else 0, sleepTarget := tg.toNat, sleepTick := t.toNat } }

theorem Ktu.sleepPropose_ask : k.sleepPropose 0 tg t =
    (k.proposed tg t).sendUp (.sleepAgree k.addr (!decide (k.wakeSources = 0)) (BitVec.ofNat 8 k.wakeSources) t) := by
  unfold Ktu.sleepPropose Ktu.proposed
  rw [if_pos rfl]
  simp only [Ktu.forwardDn_wakeSources, decide_eq_true_eq]
  rw [← k.forwardDn_addr (.sleepPropose 0 tg t)]
  rfl

theorem Ktu.proposed_only : Ktu.only [.fife] k (k.proposed tg t) :=
  Ktu.only_trans ((Ktu.only_forwardDn _ _ _ _).2 (k.only_refl _)) (Ktu.withFife_only _ _)

theorem Ktu.proposed_wakeSources : (k.proposed tg t).wakeSources = k.wakeSources := k.forwardDn_wakeSources _

end

section
variable {s : State} (hr : s.ktu.runs) (tg : BitVec 8) (t : BitVec 48)
include hr

/-- What a proposal leaves, whether the KTU agrees or refuses. -/
theorem sleepPropose_ask_does : KtuDoes (.sleepPropose 0 tg t) s fun k =>
    k.fife.sleepPhase = (if s.ktu.wakeSources = 0 then 1 else 0) ∧ k.fife.sleepTarget = tg.toNat ∧ k.fife.sleepTick = t.toNat ∧
    k.fife.up.waits (.sleepAgree s.ktu.addr (!decide (s.ktu.wakeSources = 0)) (BitVec.ofNat 8 s.ktu.wakeSources) t) ∧
    (s.ktu.pins.straps.leaf = false → k.fife.dn.waits (.sleepPropose 0 tg t)) ∧ Ktu.only [.fife] s.ktu k := by
  refine .of_onKtu (fun k => k.sleepPropose 0 tg t) rfl hr ?_
  simp only [Ktu.sleepPropose_ask, Ktu.wakeCheck_fife_sleepTarget, Ktu.wakeCheck_fife_sleepTick, Ktu.only_wakeCheck, Ktu.only_sendUp]
  refine ⟨?_, rfl, rfl, Ktu.waits_up_wakeCheck (LinkEnd.waits_queue_same _ _ _ _), fun hl => ?_, s.ktu.proposed_only tg t⟩
  · rw [Ktu.wakeCheck_sleepPhase, Ktu.sendUp_sleepAgree_wakeSources, Ktu.proposed_wakeSources]
    split
    next h => exact if_pos h
    next h => rfl
  · exact Ktu.waits_dn_wakeCheck (k := (s.ktu.proposed tg t).sendUp _) (Ktu.forwardDn_waits _ hl)

/-- R307: the commit of the proposal agreed to. -/
theorem sleepPropose_commit_does (hw : s.ktu.wakeSources = 0) (hp : s.ktu.fife.sleepPhase = 1) (ht : s.ktu.fife.sleepTick = t.toNat) :
    KtuDoes (.sleepPropose 1 tg t) s fun k => k.fife.sleepPhase = 2 ∧ Ktu.only [] s.ktu k := by
  refine .of_onKtu (fun k => k.sleepPropose 1 tg t) rfl hr ?_
  obtain ⟨d, hd⟩ := s.ktu.forwardDn_eq (.sleepPropose 1 tg t)
  have hcommit : s.ktu.sleepPropose 1 tg t = { s.ktu with fife := { s.ktu.fife with dn := d, sleepPhase := 2 } } := by
    unfold Ktu.sleepPropose
    rw [hd, if_neg (by decide), if_pos rfl]
    exact if_pos ⟨hp, ht⟩
  rw [hcommit, Ktu.wakeCheck_sleepPhase, Ktu.only_wakeCheck]
  refine ⟨if_pos hw, fun x _ => ?_⟩
  cases x <;> simp [Ktu.same]

theorem sleepPropose_cancel_does : KtuDoes (.sleepPropose 2 tg t) s fun k =>
    k.fife.sleepPhase = 0 ∧ k.fife.sleepTick = 0 ∧ Ktu.only [.fife] s.ktu k := by
  refine .of_onKtu (fun k => k.sleepPropose 2 tg t) rfl hr ?_
  obtain ⟨d, hd⟩ := s.ktu.forwardDn_eq (.sleepPropose 2 tg t)
  have hcancel : s.ktu.sleepPropose 2 tg t = { s.ktu with fife := { s.ktu.fife with dn := d, sleepPhase := 0, sleepTick := 0 } } := by
    unfold Ktu.sleepPropose
    rw [hd, if_neg (by decide), if_neg (by decide), if_pos rfl]
  rw [hcancel, Ktu.wakeCheck_sleepPhase, Ktu.wakeCheck_fife_sleepTick, Ktu.only_wakeCheck]
  exact ⟨ite_self _, rfl, s.ktu.withFife_only _⟩

end

/-! ### The statement -/

/-- Settles O22: a pair is one operation of the end it reaches, which the check of the wake sources leaves in L0 where it is; and each
phase of a proposal is one equation. -/
theorem linkPower : Obligations.LinkPower := by
  unfold Obligations.LinkPower
  refine ⟨fun s l hr hl => ⟨statePair_stay_does hr hl, laneRelock_does hr⟩, fun s p c hr hc hst => statePair_enter_both_does hr hc hst,
    fun s hr hl => statePair_stay_chain_does hr hl, fun s tg t hr => ?_⟩
  obtain ⟨k, hk, hphase, htarget, htick, hup, hdn, honly⟩ := sleepPropose_ask_does hr tg t
  refine ⟨fun hw => ⟨k, hk, ?_⟩, fun hw => ⟨k, hk, ?_⟩, sleepPropose_commit_does hr tg t, sleepPropose_cancel_does hr tg t,
    fun hl => ⟨k, hk, hdn hl⟩⟩
  · rw [if_pos hw] at hphase
    simp only [hw, decide_true, Bool.not_true] at hup
    exact ⟨hphase, htarget, htick, hup, honly⟩
  · rw [if_neg hw] at hphase
    simp only [hw, decide_false, Bool.not_false] at hup
    exact ⟨hphase, hup, honly⟩

end Sys2Proof.Machine
end

section
/-! SUPPORT. The command bits and the downstream enable of KTU_FIFE_CTRL (R277, R306, R309, R313). -/

namespace Sys2Proof.Machine

-- One theorem at a time: elaborated side by side, those of this text need more stacks than the check has memory for.
set_option Elab.async false

open Sys2Proof

/-! ### An operation of a KTU's link end that acknowledges no frame -/

/-- Between two KTUs only the Fife side and the reports of its links have moved, and the address is the same. -/
structure Ktu.LinkMoves (a b : Ktu) : Prop where
  only : Ktu.only [.regs, .fife] a b
  regs : Ktu.regsOnly linkReports a b
  addr : b.fife.addr = a.fife.addr

theorem Ktu.LinkMoves.refl (k : Ktu) : Ktu.LinkMoves k k := ⟨k.only_refl _, k.regsOnly_refl _, rfl⟩

theorem Ktu.LinkMoves.trans {a b c : Ktu} (h : Ktu.LinkMoves a b) (h' : Ktu.LinkMoves b c) : Ktu.LinkMoves a c :=
  ⟨Ktu.only_trans h.only h'.only, Ktu.regsOnly_trans h.regs h'.regs, h'.addr.trans h.addr⟩

section
variable (k : Ktu) (up : Bool) (f : LinkEnd → LinkEnd × LinkActs)

theorem Ktu.setLink_moves (e : LinkEnd) : Ktu.LinkMoves k (k.setLink up e) :=
  ⟨Ktu.only_mono (k.setLink_fife_only up e) (by decide), (Ktu.regsOnly_congr (k.setLink_regs up e)).2 (k.regsOnly_refl _),
    by cases up <;> rfl⟩

/-- R279: what may be forwarded after an operation is decided as it reaches the end. -/
theorem Ktu.linkOp_mayForward : (k.linkOp up f).fife.mayForward = k.forwardsAfter up f := by
  obtain ⟨e, -, h⟩ := k.linkOp_eq up f
  rw [h, Ktu.onLink_eq]
  cases up <;> rfl

variable {f}

theorem Ktu.onLink_moves (h : (f (k.link up)).2.ackedTicks = []) : Ktu.LinkMoves k (k.onLink up f) := by
  rw [Ktu.onLink_eq]
  have hset := k.setLink_moves up (f (k.link up)).1
  have hacts := Ktu.linkActs_reported (k.setLink up (f (k.link up)).1) up h
  exact hset.trans ⟨Ktu.only_trans (Ktu.only_mono hacts.only (by decide)) (Ktu.only_mono (Ktu.withFife_only _ _) (by decide)),
    hacts.2, rfl⟩

theorem Ktu.linkOp_moves (h : (f (k.link up)).2.ackedTicks = []) : Ktu.LinkMoves k (k.linkOp up f) := by
  obtain ⟨e, -, heq⟩ := k.linkOp_eq up f
  rw [heq]
  exact ((k.onLink_moves up h).trans (Ktu.setLink_moves _ _ _)).trans (Ktu.setLink_moves _ _ _)

/-- An operation that does not end in Retrain leaves the other end as it is (R311). -/
theorem Ktu.linkOp_trained (h : (f (k.link up)).1.state ≠ .retrain) : k.linkOp up f = k.onLink up f := by
  unfold Ktu.linkOp
  simp only [Ktu.onLink_link]
  exact if_neg fun hr => h hr.1

end

section
variable (e : LinkEnd)

theorem LinkEnd.toDown_state : e.toDown.1.state = .down := by
  unfold LinkEnd.toDown
  split <;> rfl

theorem LinkEnd.toDown_unacked : e.toDown.2.ackedTicks = [] := by
  unfold LinkEnd.toDown
  split <;> rfl

theorem LinkEnd.toRetrain_unacked : e.toRetrain.2.ackedTicks = [] := by
  unfold LinkEnd.toRetrain
  split <;> rfl

/-- R313: an enabled link leaves Off for Down. -/
def LinkEnd.enable (e : LinkEnd) : LinkEnd := if e.state = .off then { e with state := .down } else e

/-- R277, R313: a Reset reaches a link that is not held in Down. -/
def LinkEnd.commandReset (e : LinkEnd) : LinkEnd × LinkActs := if e.state = .off ∨ e.state = .down then (e, {}) else e.toReset

theorem LinkEnd.commandReset_unacked : e.commandReset.2.ackedTicks = [] := by
  unfold LinkEnd.commandReset
  split <;> rfl

variable {e}

theorem LinkEnd.commandReset_held (ho : e.state ≠ .off) (hd : e.state ≠ .down) : e.commandReset = e.toReset :=
  if_neg (not_or.2 ⟨ho, hd⟩)

theorem LinkEnd.not_held_of_carries (h : e.carries = true) : e.state ≠ .off ∧ e.state ≠ .down := by
  constructor <;> intro hs <;> simp [LinkEnd.carries, hs] at h

end

/-! ### The downstream enable (R313) -/

section
variable (k : Ktu)

theorem Ktu.dnEnable_leaf (h : k.pins.straps.leaf = true) (v : Bool) : k.dnEnable v = k.put KReg.FIFE_CTRL_dn_enable v.toNat := if_pos h

/-- The link is enabled. -/
theorem Ktu.dnEnable_on (h : k.pins.straps.leaf = false) :
    k.dnEnable true = (k.put KReg.FIFE_CTRL_dn_enable 1).linkOp false (fun e => (e.enable, {})) :=
  (if_neg (by rw [Ktu.put_pins, h]; decide)).trans (if_pos rfl)

/-- The link goes down, and is then held there. -/
theorem Ktu.dnEnable_off (h : k.pins.straps.leaf = false) : k.dnEnable false =
    (((k.put KReg.FIFE_CTRL_dn_enable 0).linkOp false (fun e => e.toDown)).linkOp false (fun e => ({ e with state := .off }, {}))) :=
  (if_neg (by rw [Ktu.put_pins, h]; decide)).trans (if_neg Bool.false_ne_true)

theorem Ktu.dnEnable_moves (v : Bool) : Ktu.LinkMoves (k.put KReg.FIFE_CTRL_dn_enable v.toNat) (k.dnEnable v) := by
  cases hl : k.pins.straps.leaf with
  | true => rw [k.dnEnable_leaf hl]; exact .refl _
  | false =>
    cases v with
    | true => rw [k.dnEnable_on hl]; exact Ktu.linkOp_moves _ _ rfl
    | false => rw [k.dnEnable_off hl]; exact (Ktu.linkOp_moves _ _ (LinkEnd.toDown_unacked _)).trans (Ktu.linkOp_moves _ _ rfl)

theorem Ktu.dnEnable_only (v : Bool) : Ktu.only [.regs, .fife] k (k.dnEnable v) :=
  Ktu.only_trans (Ktu.only_mono (k.only_regs _) (by decide)) (k.dnEnable_moves v).only

theorem Ktu.dnEnable_get (v : Bool) : (k.dnEnable v).get KReg.FIFE_CTRL_dn_enable = v.toNat := by
  rw [(k.dnEnable_moves v).regs _ _ (by decide), Ktu.get_put_same]
  cases v <;> rfl

/-- The upstream end at most gets a stay pair. -/
theorem Ktu.dnEnable_up (v : Bool) : (k.dnEnable v).fife.up = k.fife.up ∨ (k.dnEnable v).fife.up = k.fife.up.sendState 2 := by
  cases hl : k.pins.straps.leaf with
  | true => rw [k.dnEnable_leaf hl]; exact .inl rfl
  | false =>
    cases v with
    | true => rw [k.dnEnable_on hl]; exact Ktu.linkOp_other_cases _ false _
    | false =>
      rw [k.dnEnable_off hl, Ktu.linkOp_trained _ _ (by simp), Ktu.linkOp_trained _ _ (by rw [LinkEnd.toDown_state]; decide)]
      exact .inl ((Ktu.onLink_other _ false _).trans (Ktu.onLink_other _ false _))

theorem Ktu.dnEnable_up_alike (v : Bool) : k.fife.up.Alike (k.dnEnable v).fife.up := by
  obtain h | h := k.dnEnable_up v <;> rw [h]
  · exact .refl _
  · exact LinkEnd.sendState_alike _ 2

theorem Ktu.dnEnable_on_dn (h : k.pins.straps.leaf = false) : k.fife.dn.enable.Alike (k.dnEnable true).fife.dn := by
  rw [k.dnEnable_on h]
  exact (Ktu.linkOp_linked _ false _).link

theorem Ktu.dnEnable_off_dn (h : k.pins.straps.leaf = false) : (k.dnEnable false).fife.dn.state = .off := by
  rw [k.dnEnable_off h]
  exact LinkEnd.state_alike (Ktu.linkOp_linked _ false _).link

end

/-! ### The command bits (R313) -/

theorem bitOf_command : ∀ bit < 6, 0 < bit → ∀ x < 2, ∀ i < 6, 0 < i → bitOf (2 ^ bit + x) i = decide (i = bit) := by decide

theorem Ktu.resetLink_eq (k : Ktu) (up : Bool) : k.resetLink up = k.linkOp up LinkEnd.commandReset := rfl

section
variable (k : Ktu) {x : Nat} (hx : x < 2)
include hx

theorem Ktu.fifeCtrl_upReset : k.fifeCtrl (2 ^ 5 + x) = k.linkOp true LinkEnd.commandReset := by
  simp [-Nat.reducePow, Ktu.fifeCtrl, Ktu.resetLink_eq, bitOf_command 5 (by decide) (by decide) x hx]

theorem Ktu.fifeCtrl_dnReset : k.fifeCtrl (2 ^ 4 + x) = k.linkOp false LinkEnd.commandReset := by
  simp [-Nat.reducePow, Ktu.fifeCtrl, Ktu.resetLink_eq, bitOf_command 4 (by decide) (by decide) x hx]

theorem Ktu.fifeCtrl_upRetrain : k.fifeCtrl (2 ^ 3 + x) = k.linkOp true LinkEnd.toRetrain := by
  simp [-Nat.reducePow, Ktu.fifeCtrl, bitOf_command 3 (by decide) (by decide) x hx]

theorem Ktu.fifeCtrl_dnRetrain : k.fifeCtrl (2 ^ 2 + x) = k.linkOp false LinkEnd.toRetrain := by
  simp [-Nat.reducePow, Ktu.fifeCtrl, bitOf_command 2 (by decide) (by decide) x hx]

theorem Ktu.fifeCtrl_wake : k.fifeCtrl (2 ^ 1 + x) = k.wakeOnce := by
  have hbit := bitOf_command 1 (by decide) (by decide) x hx
  generalize 2 ^ 1 + x = v at hbit
  simp [Ktu.fifeCtrl, hbit]

end

theorem wordFields_fifeCtrl : wordFields 0xC000 =
    [(KReg.FIFE_CTRL_up_reset, 0), (KReg.FIFE_CTRL_dn_reset, 0), (KReg.FIFE_CTRL_up_retrain, 0), (KReg.FIFE_CTRL_dn_retrain, 0),
      (KReg.FIFE_CTRL_wake, 0), (KReg.FIFE_CTRL_dn_enable, 0)] := by decide +kernel

/-- What the enable bit of KTU_FIFE_CTRL says, as a command bit beside it writes it again. -/
def Ktu.dnEnabled (k : Ktu) : Bool := k.get KReg.FIFE_CTRL_dn_enable % 2 != 0

/-- A command bit reaches a downstream link that is enabled and carries flits as it is. -/
theorem Ktu.dnEnabled_alike {k : Ktu} (hl : k.pins.straps.leaf = false) (hen : k.get KReg.FIFE_CTRL_dn_enable = 1)
    (hcar : k.fife.dn.carries = true) : k.fife.dn.Alike (k.dnEnable k.dnEnabled).fife.dn := by
  have hon : k.dnEnabled = true := by rw [Ktu.dnEnabled, hen]; rfl
  have henable : k.fife.dn.enable = k.fife.dn := if_neg (LinkEnd.not_held_of_carries hcar).1
  have halike := k.dnEnable_on_dn hl
  rw [henable] at halike
  rw [hon]
  exact halike

/-- For *fleet* a command bit writes the enable again and acts, and nothing but the latch of the first error follows. -/
theorem Ktu.fifeCtrlBy_fleet {k : Ktu} {w : Writer} (hr : k.pins.ready = true) (ho : ownerOf w = fleet) {bit : Nat} (hb : 0 < bit) :
    ∃ e, k.fifeCtrlBy w bit =
      { (k.dnEnable k.dnEnabled).fifeCtrl (2 ^ bit + k.get KReg.FIFE_CTRL_dn_enable % 2) with errHeld := e } := by
  generalize hv : 2 ^ bit + k.get KReg.FIFE_CTRL_dn_enable % 2 = v
  have hpart : KReg.FIFE_CTRL_dn_enable.part v = k.get KReg.FIFE_CTRL_dn_enable % 2 := by
    obtain ⟨m, rfl⟩ := Nat.exists_eq_add_of_lt hb
    have hpow : 2 ^ (0 + m + 1) = 2 ^ m * 2 := by rw [Nat.zero_add, Nat.pow_succ]
    show v / 1 % 2 = _
    omega
  have hmay (f : Fld) (i : Nat) : k.mayWrite fleet f i = true := rfl
  have hcmd (m : Ktu) : m.writeCmd fleet 0xC000 v = m.fifeCtrl v := rfl
  have hstored (p : Path) : (wordFields 0xC000).foldl (fun m x => m.writeField p x.1 (x.1.part v) x.2) k =
      k.dnEnable k.dnEnabled := by
    rw [wordFields_fifeCtrl, Ktu.dnEnabled, ← hpart]
    rfl
  obtain ⟨e, he⟩ := ((k.dnEnable k.dnEnabled).fifeCtrl v).errRearm_eq
  refine ⟨e, ?_⟩
  simp [Ktu.fifeCtrlBy, hv, Ktu.writeBy, hr, ho, Ktu.writeWord, Ktu.writeRefused, hmay, hstored, hcmd, Ktu.refusal, he]

section
variable {c : Instr} {s : State} {w : Writer} {bit : Nat} {P : Ktu → Prop}
variable (hc : exec c s = onKtu (Ktu.fifeCtrlBy w bit) s) (hb : 0 < bit) (h : s.ktu.runs) (hr : s.ktu.pins.ready = true)
variable (ho : ownerOf w = fleet)
include hc hb h hr ho

/-- A command bit has every property that what it does after the enable gives. -/
theorem KtuDoes.of_fifeCtrl {g : Ktu → Ktu} (hg : ∀ (k : Ktu) {x : Nat}, x < 2 → k.fifeCtrl (2 ^ bit + x) = g k)
    (hP : ∀ e, P ({ g (s.ktu.dnEnable s.ktu.dnEnabled) with errHeld := e } : Ktu).wakeCheck) : KtuDoes c s P := by
  obtain ⟨e, he⟩ := Ktu.fifeCtrlBy_fleet hr ho hb
  refine .of_onKtu (Ktu.fifeCtrlBy w bit) hc h ?_
  rw [he, hg _ (Nat.mod_lt _ (by decide))]
  exact hP e

/-- A command bit that is an operation of a link end. -/
theorem KtuDoes.of_fifeCtrlLink {up : Bool} {f : LinkEnd → LinkEnd × LinkActs} (hf : ∀ e, (f e).2.ackedTicks = [])
    (hg : ∀ (k : Ktu) {x : Nat}, x < 2 → k.fifeCtrl (2 ^ bit + x) = k.linkOp up f)
    (hP : ∀ k, (f ((s.ktu.dnEnable s.ktu.dnEnabled).link up)).1.Alike (k.link up) →
      k.fife.mayForward = (s.ktu.dnEnable s.ktu.dnEnabled).forwardsAfter up f → Ktu.only [.regs, .fife, .rest] s.ktu k → P k) :
    KtuDoes c s P := by
  refine .of_fifeCtrl hc hb h hr ho hg fun e => hP _ ?_ ?_ (Ktu.only_commands e (by decide) ?_)
  · exact (Ktu.linkOp_linked _ up f).link.trans (Ktu.wakeCheck_alike _ up)
  · exact (Ktu.wakeCheck_fife_mayForward _).trans (Ktu.linkOp_mayForward _ up f)
  · exact Ktu.only_mono (Ktu.only_trans (s.ktu.dnEnable_only _) (Ktu.linkOp_moves _ up (hf _)).only) (by decide)

end

/-! ### WAKE (R306, R309) -/

/-- The one-time source is no part that a frame names. -/
theorem Ktu.wakeOnce_only (k : Ktu) (l : List KPart) : Ktu.only l k k.wakeOnce := by
  intro x _
  cases x <;> simp [Ktu.same, Ktu.wakeOnce]

/-- A one-time source with the upstream link in L0 or L0q, lane 1 locked: WAKE is sent. -/
theorem Ktu.wakeCheck_sendsWake {k : Ktu} (h : k.pins.wakeOnce = true) (hlp : k.fife.up.lp ≠ 2) (hrl : k.fife.up.relocking = false) :
    ∃ src t, k.wakeCheck.fife.up.waits (.wake k.addr src t) := by
  have hsrc : k.wakeSources ≠ 0 := by simp [Ktu.wakeSources, h]
  have haddr : k.stayAwake.addr = k.addr := by
    obtain ⟨u, d, he⟩ := k.stayAwake_eq
    rw [he]
    rfl
  have hup : k.stayAwake.fife.up.relocking = false := by
    have hlink := k.stayAwake_link true
    split at hlink
    · exact (congrArg LinkEnd.relocking hlink).trans hrl
    · refine (congrArg LinkEnd.relocking hlink).trans ?_
      simp [LinkEnd.sendState, Ktu.link, hlp, hrl]
  unfold Ktu.wakeCheck
  rw [if_neg hsrc, ← haddr]
  simp only [h, or_true, decide_true, Bool.or_true]
  unfold Ktu.sendWake
  rw [if_pos ⟨rfl, k.stayAwake_lp.1, by simp [hup]⟩]
  exact ⟨_, _, Ktu.sendUp_waits _ _⟩

/-! ### The commands -/

section
variable {s : State} {w : Writer} (h : s.ktu.runs) (hr : s.ktu.pins.ready = true) (ho : ownerOf w = fleet)
include h hr ho

theorem fifeUpReset_does (hoff : s.ktu.fife.up.state ≠ .off) (hdown : s.ktu.fife.up.state ≠ .down) : KtuDoes (.fifeUpReset w) s fun k =>
    k.fife.up.state = .reset ∧ k.fife.up.anew ∧ k.fife.mayForward = false ∧ Ktu.only [.regs, .fife, .rest] s.ktu k := by
  have hstate := LinkEnd.state_alike (s.ktu.dnEnable_up_alike s.ktu.dnEnabled)
  have hreset := LinkEnd.commandReset_held (hstate.symm ▸ hoff) (hstate.symm ▸ hdown)
  refine .of_fifeCtrlLink (bit := 5) rfl (by decide) h hr ho (up := true) LinkEnd.commandReset_unacked
    (fun k _ hx => k.fifeCtrl_upReset hx) fun k hend hmay honly => ?_
  rw [show (s.ktu.dnEnable s.ktu.dnEnabled).link true = (s.ktu.dnEnable s.ktu.dnEnabled).fife.up from rfl, hreset] at hend
  obtain ⟨hst, hanew⟩ := LinkEnd.toReset_reset (s.ktu.dnEnable s.ktu.dnEnabled).fife.up
  refine ⟨(LinkEnd.state_alike hend).trans hst, LinkEnd.anew_alike hanew hend, hmay.trans (if_pos ⟨rfl, .inl ?_⟩), honly⟩
  exact congrArg (fun x => x.2.reset) hreset

theorem fifeUpRetrain_does (hcar : s.ktu.fife.up.carries = true) : KtuDoes (.fifeUpRetrain w) s fun k =>
    k.fife.up.state = .retrain ∧ s.ktu.fife.up.sameLayer k.fife.up ∧ Ktu.only [.regs, .fife, .rest] s.ktu k := by
  obtain ⟨hcarries, -, -, hlayer⟩ := (s.ktu.dnEnable_up_alike s.ktu.dnEnabled).flits
  obtain ⟨hst, hkeeps⟩ := LinkEnd.toRetrain_carries (hcarries.trans hcar)
  exact .of_fifeCtrlLink (bit := 3) rfl (by decide) h hr ho (up := true) LinkEnd.toRetrain_unacked
    (fun k _ hx => k.fifeCtrl_upRetrain hx) fun k hend _ honly =>
      ⟨(LinkEnd.state_alike hend).trans hst, LinkEnd.sameLayer_alike (LinkEnd.sameLayer_trans hlayer hkeeps) hend, honly⟩

section
variable (hl : s.ktu.pins.straps.leaf = false) (hen : s.ktu.get KReg.FIFE_CTRL_dn_enable = 1) (hcar : s.ktu.fife.dn.carries = true)
include hl hen hcar

theorem fifeDnReset_does : KtuDoes (.fifeDnReset w) s fun k =>
    k.fife.dn.state = .reset ∧ k.fife.dn.anew ∧ Ktu.only [.regs, .fife, .rest] s.ktu k := by
  obtain ⟨hcarries, -⟩ := (Ktu.dnEnabled_alike hl hen hcar).flits
  obtain ⟨hoff, hdown⟩ := LinkEnd.not_held_of_carries (hcarries.trans hcar)
  obtain ⟨hst, hanew⟩ := LinkEnd.toReset_reset (s.ktu.dnEnable s.ktu.dnEnabled).fife.dn
  rw [← LinkEnd.commandReset_held hoff hdown] at hst hanew
  exact .of_fifeCtrlLink (bit := 4) rfl (by decide) h hr ho (up := false) LinkEnd.commandReset_unacked
    (fun k _ hx => k.fifeCtrl_dnReset hx) fun k hend _ honly =>
      ⟨(LinkEnd.state_alike hend).trans hst, LinkEnd.anew_alike hanew hend, honly⟩

theorem fifeDnRetrain_does : KtuDoes (.fifeDnRetrain w) s fun k =>
    k.fife.dn.state = .retrain ∧ s.ktu.fife.dn.sameLayer k.fife.dn ∧ Ktu.only [.regs, .fife, .rest] s.ktu k := by
  obtain ⟨hcarries, -, -, hlayer⟩ := (Ktu.dnEnabled_alike hl hen hcar).flits
  obtain ⟨hst, hkeeps⟩ := LinkEnd.toRetrain_carries (hcarries.trans hcar)
  exact .of_fifeCtrlLink (bit := 2) rfl (by decide) h hr ho (up := false) LinkEnd.toRetrain_unacked
    (fun k _ hx => k.fifeCtrl_dnRetrain hx) fun k hend _ honly =>
      ⟨(LinkEnd.state_alike hend).trans hst, LinkEnd.sameLayer_alike (LinkEnd.sameLayer_trans hlayer hkeeps) hend, honly⟩

end

/-- The one-time source brings both links to L0, and WAKE goes out once lane 1 needs no relock. -/
theorem fifeWake_does : KtuDoes (.fifeWake w) s fun k =>
    k.fife.up.lp = 0 ∧ k.fife.dn.lp = 0 ∧ k.fife.sleepPhase = 0 ∧
    (s.ktu.fife.up.lp ≠ 2 → s.ktu.fife.up.relocking = false → ∃ src t, k.fife.up.waits (.wake s.ktu.addr src t)) ∧
    Ktu.only [.regs, .fife, .rest] s.ktu k := by
  refine .of_fifeCtrl (bit := 1) rfl (by decide) h hr ho (fun k _ hx => k.fifeCtrl_wake hx) fun e => ?_
  generalize hm : ({ (s.ktu.dnEnable s.ktu.dnEnabled).wakeOnce with errHeld := e } : Ktu) = m
  have honce : m.pins.wakeOnce = true := by rw [← hm]; rfl
  have hup : m.fife.up = s.ktu.fife.up ∨ m.fife.up = s.ktu.fife.up.sendState 2 := by
    rw [← hm]
    exact s.ktu.dnEnable_up _
  have haddr : m.addr = s.ktu.addr := by
    rw [← hm]
    exact congrArg (BitVec.ofNat 20) (s.ktu.dnEnable_moves s.ktu.dnEnabled).addr
  obtain ⟨hupl, hdnl, hphase⟩ := m.wakeCheck_wakes (by simp [Ktu.wakeSources, honce])
  refine ⟨hupl, hdnl, hphase, fun hlp hrl => ?_, ?_⟩
  · rw [← haddr]
    obtain hu | hu := hup
    · exact Ktu.wakeCheck_sendsWake honce (hu ▸ hlp) (hu ▸ hrl)
    · refine Ktu.wakeCheck_sendsWake honce ?_ ?_ <;> rw [hu]
      · exact Nat.zero_ne_add_one 1
      · simp [LinkEnd.sendState, hlp, hrl]
  · rw [← hm]
    refine Ktu.only_commands e (by decide) (Ktu.only_trans (Ktu.only_mono (s.ktu.dnEnable_only s.ktu.dnEnabled) (by decide)) ?_)
    exact Ktu.wakeOnce_only _ _

/-- What a write of the enable leaves, seen at the state of the downstream end. -/
theorem fifeDnEnable_does {v : Bool} {st : LinkState} (hst : (s.ktu.dnEnable v).fife.dn.state = st) : KtuDoes (.fifeDnEnable w v) s fun k =>
    k.fife.dn.state = st ∧ k.get KReg.FIFE_CTRL_dn_enable = v.toNat ∧ Ktu.only [.regs, .fife, .rest] s.ktu k := by
  have hwrite : s.ktu.writeField (pathOf w) KReg.FIFE_CTRL_dn_enable (v.toNat % 2 ^ KReg.FIFE_CTRL_dn_enable.width) 0 =
      s.ktu.dnEnable v := by cases v <;> rfl
  obtain ⟨e, he⟩ := Ktu.fieldBy_fleet hr ho KReg.FIFE_CTRL_dn_enable 0 v.toNat
  refine .of_onKtu (Ktu.fieldBy w KReg.FIFE_CTRL_dn_enable 0 v.toNat) rfl h ?_
  rw [he, hwrite]
  refine ⟨(Ktu.wakeCheck_dn_state _).trans hst, (Ktu.wakeCheck_get _ _ _).trans (s.ktu.dnEnable_get v), ?_⟩
  exact Ktu.only_commands e (by decide) (Ktu.only_mono (s.ktu.dnEnable_only v) (by decide))

end

end Sys2Proof.Machine
end

section
/-! SUPPORT. Enumeration and ALARM pairs at a KTU (R114, R279, R284, R285, R291, R292), and the statement on a KTU's Fife control. -/

namespace Sys2Proof.Machine

-- One theorem at a time: elaborated side by side, those of this text need more stacks than the check has memory for.
set_option Elab.async false

open Sys2Proof

/-! ### ENUM (R279, R291, R292) -/

section
variable (k : Ktu)

/-- A KTU with other pairs waiting at its links, and none held for an address. -/
def Ktu.withAlarms (k : Ktu) (up dn : List (BitVec 112)) : Ktu :=
  { k with fife := { k.fife with
      up := { k.fife.up with alarms := up }, dn := { k.fife.dn with alarms := dn }, heldAlarms := [] } }

theorem Ktu.sendAlarm_withAlarms {k : Ktu} (h : k.fife.addrValid = true) (u d : List (BitVec 112)) (p : BitVec 112) :
    ∃ u' d', (k.withAlarms u d).sendAlarm p = k.withAlarms u' d' := by
  rw [Ktu.sendAlarm_sent (k.withAlarms u d) p h]
  split <;> exact ⟨_, _, rfl⟩

/-- R284: with the address valid the held pairs leave; nothing else of the Fife side moves. -/
theorem Ktu.releaseAlarms_eq {k : Ktu} (h : k.fife.addrValid = true) : ∃ u d, k.releaseAlarms = k.withAlarms u d := by
  unfold Ktu.releaseAlarms
  refine List.foldlRecOn k.fife.heldAlarms _ (motive := fun m => ∃ u d, m = k.withAlarms u d)
    ⟨k.fife.up.alarms, k.fife.dn.alarms, rfl⟩ fun m hm p _ => ?_
  obtain ⟨u, d, rfl⟩ := hm
  exact Ktu.sendAlarm_withAlarms h u d _

theorem Ktu.enumDown_eq : ∃ d o, k.enumDown = { k with fife := { k.fife with dn := d, overlong := o } } := by
  obtain h | h | h := k.enumDown_cases <;> exact ⟨_, _, h⟩

theorem Ktu.enumDown_sends {k : Ktu} (hl : k.pins.straps.leaf = false) (hv : k.fife.addrValid = true) (hc : k.fife.dn.carries = true)
    (hn : addrN k.fife.addr ≠ 31) : k.enumDown = k.sendDn (.enumReq (BitVec.ofNat 20 (k.fife.addr + 1))) := by
  unfold Ktu.enumDown
  rw [if_neg (by simp [hl, hv, hc]), if_neg hn]

/-- What becomes of the stored frames as ENUM is accepted (R279, R292). -/
def Ktu.enumFrames (k : Ktu) (a : Nat) : Ktu := if k.fife.addrEver ∧ k.fife.addr ≠ a then k.discardFrames else k.resendStored

/-- The frames that wait upstream are taken back; the store and registers apart, nothing else moves. -/
theorem Ktu.enumFrames_eq (a : Nat) : ∃ c r, k.enumFrames a =
    { k with codec := c, regs := r, fife := { k.fife with up := { k.fife.up with tx := Tbl.erase 4 k.fife.up.tx } } } := by
  unfold Ktu.enumFrames
  split
  · obtain ⟨r, hr⟩ := Ktu.raise_eq ((k.setStore []).setLink true { k.fife.up with tx := Tbl.erase 4 k.fife.up.tx })
      KReg.FIFE_EVT_addr_changed 1 0
    unfold Ktu.discardFrames
    exact ⟨_, _, congrArg (fun m => m.count KReg.FIFE_MSGDROP_count k.codec.store.length) hr⟩
  · exact ⟨_, _, rfl⟩

/-- R292: a change of address discards the stored frames and is recorded. -/
theorem Ktu.enumFrames_changed {a : Nat} (he : k.fife.addrEver = true) (ha : k.fife.addr ≠ a) :
    (k.enumFrames a).codec.store = [] ∧ (k.enumFrames a).get KReg.FIFE_EVT_addr_changed % 2 = 1 := by
  unfold Ktu.enumFrames
  rw [if_pos ⟨he, ha⟩]
  unfold Ktu.discardFrames
  simp only []
  rw [Ktu.get_count_ne _ _ _ _ _ _ (by decide), Ktu.count_codec, Ktu.raise_codec]
  exact ⟨rfl, Ktu.get_raise_odd _ (by decide)⟩

/-- R279: at a first address every stored frame is to be sent again. -/
theorem Ktu.enumFrames_first {a : Nat} (he : k.fife.addrEver = false) :
    (k.enumFrames a).codec.store = k.codec.store.map (fun f => { f with sent := false }) := by
  unfold Ktu.enumFrames
  rw [if_neg (by simp [he])]
  rfl

/-- A KTU that has its address and has handed its answer to the upstream port. -/
def Ktu.enumAnswered (k : Ktu) (a : BitVec 20) : Ktu :=
  let m := { k.enumFrames a.toNat with
    fife := { (k.enumFrames a.toNat).fife with addr := a.toNat, addrValid := true, addrEver := true, mayForward := true } }
  m.sendUp (.enumResp m.enumInfo)

variable (a : BitVec 20)

theorem Ktu.acceptEnum_eq : k.acceptEnum a = (k.enumAnswered a).releaseAlarms.enumDown := rfl

theorem Ktu.enumAnswered_fife : ∃ u, (k.enumAnswered a).fife =
    { k.fife with up := u, addr := a.toNat, addrValid := true, addrEver := true, mayForward := true } := by
  obtain ⟨c, r, h⟩ := k.enumFrames_eq a.toNat
  unfold Ktu.enumAnswered
  rw [h]
  exact ⟨_, rfl⟩

theorem Ktu.enumAnswered_pins : (k.enumAnswered a).pins = k.pins := by
  obtain ⟨c, r, h⟩ := k.enumFrames_eq a.toNat
  unfold Ktu.enumAnswered
  rw [h]
  rfl

theorem Ktu.enumAnswered_only : Ktu.only [.regs, .codec, .fife] k (k.enumAnswered a) := by
  obtain ⟨c, r, h⟩ := k.enumFrames_eq a.toNat
  unfold Ktu.enumAnswered
  rw [h]
  intro x hx
  cases x <;> simp [Ktu.same, Ktu.sendUp] at hx ⊢

theorem Ktu.enumAnswered_waits : ∃ e, (k.enumAnswered a).fife.up.waits (.enumResp e) ∧
    e.addr = a ∧ e.uid = k.pins.straps.uid ∧ e.leaf = k.pins.straps.leaf := by
  have hpins : (k.enumFrames a.toNat).pins = k.pins := by
    obtain ⟨c, r, h⟩ := k.enumFrames_eq a.toNat
    rw [h]
  refine ⟨_, Ktu.sendUp_waits _ _, BitVec.ofNat_toNat 20 a |>.trans (BitVec.setWidth_eq a), ?_, ?_⟩
  · exact congrArg (fun p : KPins => p.straps.uid) hpins
  · exact congrArg (fun p : KPins => p.straps.leaf) hpins

/-- After the answer only held pairs and the downstream port move. -/
theorem Ktu.acceptEnum_after : ∃ au d o, k.acceptEnum a = { k.enumAnswered a with fife := { (k.enumAnswered a).fife with
    up := { (k.enumAnswered a).fife.up with alarms := au }, dn := d, overlong := o, heldAlarms := [] } } := by
  obtain ⟨u, hfife⟩ := k.enumAnswered_fife a
  obtain ⟨au, ad, hrel⟩ := Ktu.releaseAlarms_eq (k := k.enumAnswered a) (by rw [hfife])
  obtain ⟨d, o, hdn⟩ := (k.enumAnswered a).releaseAlarms.enumDown_eq
  rw [Ktu.acceptEnum_eq, hdn, hrel]
  exact ⟨au, d, o, rfl⟩

/-- R291: ENUM goes on with the next address. -/
theorem Ktu.acceptEnum_next (hl : k.pins.straps.leaf = false) (hc : k.fife.dn.carries = true) (hn : addrN a.toNat ≠ 31) :
    (k.acceptEnum a).fife.dn.waits (.enumReq (a + 1)) := by
  obtain ⟨u, hfife⟩ := k.enumAnswered_fife a
  obtain ⟨au, ad, hrel⟩ := Ktu.releaseAlarms_eq (k := k.enumAnswered a) (by rw [hfife])
  have hnext : BitVec.ofNat 20 (a.toNat + 1) = a + 1 := BitVec.eq_of_toNat_eq (by simp)
  have hpins : (k.enumAnswered a).releaseAlarms.pins = k.pins := (congrArg Ktu.pins hrel).trans (k.enumAnswered_pins a)
  have haddr : (k.enumAnswered a).releaseAlarms.fife.addr = a.toNat := by rw [hrel, Ktu.withAlarms, hfife]
  have hvalid : (k.enumAnswered a).releaseAlarms.fife.addrValid = true := by rw [hrel, Ktu.withAlarms, hfife]
  have hcarries : (k.enumAnswered a).releaseAlarms.fife.dn.carries = true := by
    rw [hrel, Ktu.withAlarms, hfife]
    exact hc
  rw [Ktu.acceptEnum_eq, Ktu.enumDown_sends (by rw [hpins, hl]) hvalid hcarries (by rwa [haddr]), haddr, hnext]
  exact LinkEnd.waits_queue_same _ _ _ _

end

theorem enum_does {s : State} (h : s.ktu.runs) (a : BitVec 20) : KtuDoes (.enum a) s fun k =>
    k.fife.addr = a.toNat ∧ k.fife.addrValid = true ∧ k.fife.mayForward = true ∧ k.fife.heldAlarms = [] ∧
    (∃ e, k.fife.up.waits (.enumResp e) ∧ e.addr = a ∧ e.uid = s.ktu.pins.straps.uid ∧ e.leaf = s.ktu.pins.straps.leaf) ∧
    (s.ktu.pins.straps.leaf = false → s.ktu.fife.dn.carries = true → addrN a.toNat ≠ 31 → k.fife.dn.waits (.enumReq (a + 1))) ∧
    (s.ktu.fife.addrEver = true → s.ktu.fife.addr ≠ a.toNat → k.codec.store = [] ∧
      k.get KReg.FIFE_EVT_addr_changed % 2 = 1) ∧
    (s.ktu.fife.addrEver = false → k.codec.store = s.ktu.codec.store.map (fun f => { f with sent := false })) ∧
    Ktu.only [.regs, .codec, .fife] s.ktu k := by
  refine .of_onKtu (fun k => k.acceptEnum a) rfl h ?_
  obtain ⟨au, d, o, hafter⟩ := s.ktu.acceptEnum_after a
  obtain ⟨u, hfife⟩ := s.ktu.enumAnswered_fife a
  have haddr : (s.ktu.acceptEnum a).fife.addr = a.toNat := by rw [hafter, hfife]
  have hvalid : (s.ktu.acceptEnum a).fife.addrValid = true := by rw [hafter, hfife]
  have hmay : (s.ktu.acceptEnum a).fife.mayForward = true := by rw [hafter, hfife]
  have hheld : (s.ktu.acceptEnum a).fife.heldAlarms = [] := by rw [hafter]
  have hcodec : (s.ktu.acceptEnum a).codec = (s.ktu.enumFrames a.toNat).codec := by rw [hafter]; rfl
  have hregs : (s.ktu.acceptEnum a).regs = (s.ktu.enumFrames a.toNat).regs := by rw [hafter]; rfl
  have hanswer : ∀ m, (s.ktu.enumAnswered a).fife.up.waits m → (s.ktu.acceptEnum a).fife.up.waits m := by
    intro m hm
    rw [hafter]
    exact hm
  have honly : Ktu.only [.regs, .codec, .fife] s.ktu (s.ktu.acceptEnum a) := by
    rw [hafter]
    exact Ktu.only_trans (s.ktu.enumAnswered_only a) (Ktu.only_mono (Ktu.withFife_only _ _) (by decide))
  simp only [Ktu.wakeCheck_fife_addr, Ktu.wakeCheck_fife_addrValid, Ktu.wakeCheck_fife_mayForward, Ktu.wakeCheck_fife_heldAlarms,
    Ktu.wakeCheck_codec, Ktu.wakeCheck_get, Ktu.only_wakeCheck, hcodec, Ktu.get_of_regs hregs]
  obtain ⟨e, hwaits, hinfo⟩ := s.ktu.enumAnswered_waits a
  exact ⟨haddr, hvalid, hmay, hheld, ⟨e, Ktu.waits_up_wakeCheck (hanswer _ hwaits), hinfo⟩,
    fun hl hc hn => Ktu.waits_dn_wakeCheck (s.ktu.acceptEnum_next a hl hc hn), s.ktu.enumFrames_changed, s.ktu.enumFrames_first, honly⟩

/-! ### ALARM pairs (R114, R284, R285) -/

/-- The table of recent pairs holds one with this pair's kind, originator, scope and argument. -/
def Ktu.sawAlarm (k : Ktu) (p : BitVec 112) : Bool :=
  (recentAlarms k.time.elapsed k.fife.seen).any fun a =>
    a.kind = (alarmFields p).kind ∧ a.origin = (alarmFields p).origin ∧ a.scope = (alarmFields p).scope ∧ a.arg = (alarmFields p).arg

/-- A pair goes on, twice, out of the other port. -/
def Ktu.passAlarm (k : Ktu) (up : Bool) (p : BitVec 112) : Ktu :=
  if up then (if k.pins.straps.leaf then k else k.setLink false (k.fife.dn.sendPair p)) else k.setLink true (k.fife.up.sendPair p)

section
variable (k : Ktu) (up : Bool) {p : BitVec 112}

theorem Ktu.alarmIn_damaged (h : (alarmFields p).crcOk = false) : k.alarmIn up p = k.raise KReg.FIFE_EVT_alarm_bad :=
  if_pos (by simp [h])

variable (hcrc : (alarmFields p).crcOk = true)
include hcrc

theorem Ktu.alarmIn_repeated (hk : (alarmFields p).kind < 4) (hs : k.sawAlarm p = true) :
    k.alarmIn up p = k.count KReg.FIFE_ALARM_DUP_count :=
  (if_neg (by simp [hcrc])).trans ((if_neg (Nat.not_le.2 hk)).trans (if_pos hs))

/-- R285: a new abort pair is noted, acted on and passed on. -/
theorem Ktu.alarmIn_abort (hk : (alarmFields p).kind = 1) (hs : k.sawAlarm p = false) : ∃ l, k.alarmIn up p =
    (({ k with fife := { k.fife with seen := l } } : Ktu).abort (alarmFields p).scope).passAlarm up p := by
  unfold Ktu.alarmIn
  simp only []
  rw [if_neg (by simp [hcrc]), if_neg (by rw [hk]; decide), if_neg (by rw [← Ktu.sawAlarm, hs]; decide), if_pos hk]
  exact ⟨_, rfl⟩

end

/-- ktu_abort is up, for these partitions as well. -/
def Ktu.withAbort (k : Ktu) (bits : BitVec 17) : Ktu :=
  { k with pins := { k.pins with abort := true, abortPart := k.pins.abortPart ||| bits } }

/-- R114: ktu_abort rises with the partitions of the die that an abort names. -/
theorem Ktu.abort_raises {k : Ktu} {scope : Nat} (hb : BitVec.ofNat 17 (scope &&& k.get KReg.FIFE_MEMBER_member) ≠ 0)
    (ha : k.pins.abortAck = false) :
    k.abort scope = Ktu.pend k (k.withAbort (BitVec.ofNat 17 (scope &&& k.get KReg.FIFE_MEMBER_member))) :=
  (if_neg hb).trans (if_neg (by simp [ha]))

/-- What a new abort leaves of a KTU, before the pair goes on. -/
structure Ktu.Aborted (scope : Nat) (a b : Ktu) : Prop where
  abort : b.pins.abort = true
  part : b.pins.abortPart = a.pins.abortPart ||| BitVec.ofNat 17 (scope &&& a.get KReg.FIFE_MEMBER_member)
  straps : b.pins.straps = a.pins.straps
  up : b.fife.up = a.fife.up
  dn : b.fife.dn = a.fife.dn
  only : Ktu.only [.pins, .regs, .fife] a b
  regs : Ktu.regsOnly [(KReg.IRQ_PEND_pend, 0)] a b

theorem Ktu.alarmIn_aborted (k : Ktu) (up : Bool) {p : BitVec 112} (hcrc : (alarmFields p).crcOk = true) (hk : (alarmFields p).kind = 1)
    (hs : k.sawAlarm p = false) (ha : k.pins.abortAck = false)
    (hb : BitVec.ofNat 17 ((alarmFields p).scope &&& k.get KReg.FIFE_MEMBER_member) ≠ 0) :
    ∃ m, k.alarmIn up p = m.passAlarm up p ∧ Ktu.Aborted (alarmFields p).scope k m := by
  obtain ⟨l, hin⟩ := k.alarmIn_abort up hcrc hk hs
  generalize hm : ({ k with fife := { k.fife with seen := l } } : Ktu) = m at hin
  rw [Ktu.abort_raises (by subst hm; exact hb) (by subst hm; exact ha)] at hin
  refine ⟨_, hin, ?_⟩
  generalize hbits : BitVec.ofNat 17 ((alarmFields p).scope &&& m.get KReg.FIFE_MEMBER_member) = bits
  obtain ⟨r, hr⟩ := Ktu.pend_eq m (m.withAbort bits)
  have hregs := Ktu.regsOnly_pend (m.withAbort bits) m
  rw [hr] at hregs ⊢
  subst hm hbits
  refine ⟨rfl, rfl, rfl, rfl, rfl, fun x hx => ?_, hregs⟩
  cases x <;> simp [Ktu.same, Ktu.withAbort] at hx ⊢

section
variable {s : State} {p : BitVec 112} (h : s.ktu.runs)
include h

/-- A pair that reaches a link of the KTU has every property that its arrival gives. -/
theorem KtuDoes.of_alarm {up : Bool} {P : Ktu → Prop} (hP : P (s.ktu.alarmIn up p).wakeCheck) : KtuDoes (.alarm (ktuLink up) p) s P :=
  .of_onKtu (fun k => k.alarmIn up p) (by cases up <;> rfl) h hP

theorem KtuDoes.of_alarm_either {l : LinkId} (hl : linkOfKtu l = true) {P : Ktu → Prop} (hP : ∀ up, P (s.ktu.alarmIn up p).wakeCheck) :
    KtuDoes (.alarm l p) s P := by
  cases l with
  | ktuUp => exact .of_alarm (up := true) h (hP true)
  | ktuDn => exact .of_alarm (up := false) h (hP false)
  | nldFife _ => cases hl
  | nldHorn _ => cases hl

theorem alarm_damaged_does (hcrc : (alarmFields p).crcOk = false) {l : LinkId} (hl : linkOfKtu l = true) : KtuDoes (.alarm l p) s fun k =>
    k.get KReg.FIFE_EVT_alarm_bad % 2 = 1 ∧ k.fife.up.alarms = s.ktu.fife.up.alarms ∧ k.fife.dn.alarms = s.ktu.fife.dn.alarms ∧
    Ktu.only [.regs] s.ktu k ∧ Ktu.regsOnly [(KReg.FIFE_EVT_alarm_bad, 0), (KReg.IRQ_PEND_pend, 0)] s.ktu k := by
  refine .of_alarm_either h hl fun up => ?_
  rw [Ktu.alarmIn_damaged _ _ hcrc, Ktu.wakeCheck_get, Ktu.wakeCheck_up_alarms, Ktu.wakeCheck_dn_alarms, Ktu.only_wakeCheck,
    Ktu.regsOnly_congr (Ktu.wakeCheck_regs _), Ktu.raise_fife]
  exact ⟨Ktu.get_raise_odd _ (by decide), rfl, rfl, s.ktu.raise_only_regs _ _ _, s.ktu.regsOnly_raise _ _ _⟩

section
variable (hcrc : (alarmFields p).crcOk = true)
include hcrc

theorem alarm_repeated_does (hk : (alarmFields p).kind < 4) (hs : s.ktu.sawAlarm p = true) {l : LinkId} (hl : linkOfKtu l = true) :
    KtuDoes (.alarm l p) s fun k =>
      k.get KReg.FIFE_ALARM_DUP_count = min (s.ktu.get KReg.FIFE_ALARM_DUP_count + 1) KReg.FIFE_ALARM_DUP_count.max ∧
      k.fife.up.alarms = s.ktu.fife.up.alarms ∧ k.fife.dn.alarms = s.ktu.fife.dn.alarms ∧ Ktu.only [.regs] s.ktu k := by
  refine .of_alarm_either h hl fun up => ?_
  rw [Ktu.alarmIn_repeated _ _ hcrc hk hs, Ktu.wakeCheck_get, Ktu.wakeCheck_up_alarms, Ktu.wakeCheck_dn_alarms, Ktu.only_wakeCheck,
    Ktu.count_fife]
  exact ⟨Ktu.get_count_same _ _ _ _, rfl, rfl, s.ktu.only_regs _⟩

variable (hk : (alarmFields p).kind = 1) (hs : s.ktu.sawAlarm p = false) (ha : s.ktu.pins.abortAck = false)
variable (hb : BitVec.ofNat 17 ((alarmFields p).scope &&& s.ktu.get KReg.FIFE_MEMBER_member) ≠ 0)
include hk hs ha hb

theorem alarm_abort_up_does (hl : s.ktu.pins.straps.leaf = false) : KtuDoes (.alarm .ktuUp p) s fun k =>
    k.pins.abort = true ∧ k.pins.abortPart = s.ktu.pins.abortPart |||
      BitVec.ofNat 17 ((alarmFields p).scope &&& s.ktu.get KReg.FIFE_MEMBER_member) ∧
    k.fife.dn.alarms = s.ktu.fife.dn.alarms ++ [p, p] ∧ k.fife.up.alarms = s.ktu.fife.up.alarms ∧
    Ktu.only [.pins, .regs, .fife] s.ktu k ∧ Ktu.regsOnly [(KReg.IRQ_PEND_pend, 0)] s.ktu k := by
  refine .of_alarm (up := true) h ?_
  obtain ⟨m, hin, hm⟩ := s.ktu.alarmIn_aborted true hcrc hk hs ha hb
  have hpass : m.passAlarm true p = m.setLink false (m.fife.dn.sendPair p) := (if_pos rfl).trans (if_neg (by rw [hm.straps, hl]; decide))
  rw [hin, hpass, Ktu.wakeCheck_pins_abort, Ktu.wakeCheck_pins_abortPart, Ktu.wakeCheck_dn_alarms, Ktu.wakeCheck_up_alarms,
    Ktu.only_wakeCheck, Ktu.regsOnly_congr ((Ktu.wakeCheck_regs _).trans (m.setLink_regs _ _)), Ktu.setLink_pins]
  exact ⟨hm.abort, hm.part, congrArg (fun e => LinkEnd.alarms e ++ [p, p]) hm.dn, congrArg LinkEnd.alarms hm.up,
    Ktu.only_trans hm.only (Ktu.only_mono (m.setLink_only _ _) (by decide)), hm.regs⟩

theorem alarm_abort_dn_does : KtuDoes (.alarm .ktuDn p) s fun k =>
    k.pins.abort = true ∧ k.fife.up.alarms = s.ktu.fife.up.alarms ++ [p, p] ∧ k.fife.dn.alarms = s.ktu.fife.dn.alarms ∧
    Ktu.only [.pins, .regs, .fife] s.ktu k := by
  refine .of_alarm (up := false) h ?_
  obtain ⟨m, hin, hm⟩ := s.ktu.alarmIn_aborted false hcrc hk hs ha hb
  have hpass : m.passAlarm false p = m.setLink true (m.fife.up.sendPair p) := if_neg Bool.false_ne_true
  rw [hin, hpass, Ktu.wakeCheck_pins_abort, Ktu.wakeCheck_dn_alarms, Ktu.wakeCheck_up_alarms, Ktu.only_wakeCheck, Ktu.setLink_pins]
  exact ⟨hm.abort, congrArg (fun e => LinkEnd.alarms e ++ [p, p]) hm.up, congrArg LinkEnd.alarms hm.dn,
    Ktu.only_trans hm.only (Ktu.only_mono (m.setLink_only _ _) (by decide))⟩

end

end

/-! ### The statement -/

/-- Settles O23: a control bit writes the enable again and is then one operation of a link end, or the one-time wake source; ENUM is
followed through the stored frames, the answer, the held pairs and the downstream port; and a pair has one equation per case. -/
theorem ktuFifeControl : Obligations.KtuFifeControl := by
  unfold Obligations.KtuFifeControl
  refine ⟨fun s w h hr ho => ⟨fifeUpReset_does h hr ho, fifeUpRetrain_does h hr ho,
    fun hl hen hcar => ⟨fifeDnReset_does h hr ho hl hen hcar, fifeDnRetrain_does h hr ho hl hen hcar⟩, fifeWake_does h hr ho,
    fun hl => fifeDnEnable_does (v := false) h hr ho (s.ktu.dnEnable_off_dn hl), fun hl hoff => ?_⟩,
    fun s a h => enum_does h a, fun s p h hcrc l hl => alarm_damaged_does h hcrc hl,
    fun s p h hcrc hk => ⟨fun hs l hl => alarm_repeated_does h hcrc hk hs hl, fun hs hkind ha hb =>
      ⟨fun hl => alarm_abort_up_does h hcrc hkind hs ha hb hl, alarm_abort_dn_does h hcrc hkind hs ha hb⟩⟩⟩
  have henable : s.ktu.fife.dn.enable.state = .down := congrArg LinkEnd.state (if_pos hoff)
  exact fifeDnEnable_does (v := true) h hr ho ((LinkEnd.state_alike (s.ktu.dnEnable_on_dn hl)).trans henable)

end Sys2Proof.Machine
end

section
/-! SUPPORT. What a side in reset or after a stop answers, and the statement that nothing acts there (R334, R679, R697, R714). -/

namespace Sys2Proof.Machine

-- One theorem at a time: elaborated side by side, those of this text need more stacks than the check has memory for.
set_option Elab.async false

open Sys2Proof

/-- R679: a function on a KTU in ktu_por_n does nothing. -/
theorem Acts.ktu_inReset {m : State → Out} (h : Acts true m) {s : State} (hp : s.ktu.pins.porLow = true)
    (hc : s.ktu.pins.clkStopped = false) : m s = .next s := by
  cases h with
  | ktu f =>
    obtain ⟨hstop, -⟩ | ⟨-, -, e⟩ | ⟨hrun, -⟩ := onKtu_cases f s
    · exact absurd (hc.symm.trans hstop) Bool.false_ne_true
    · exact e
    · exact absurd (hrun.1.symm.trans hp) Bool.false_ne_true

/-- R334, R697, R714: a function on a Naloder in nld_por_n, or after a stop, does nothing. -/
theorem Acts.nld_inReset {m : State → Out} (h : Acts false m) {s : State} (hp : s.nld.pkg.porLow = true ∨ s.nld.pkg.stopped = true) :
    m s = .next s := by
  cases h with
  | nld f => exact if_pos hp

/-- The commands that move nld_por_n act on Naloder, and those that move the KTU's reset and clock on the KTU. -/
theorem nldPower_actsOnNld {c : Instr} (ha : actsOnKtu c = true) : nldPower c = false := by
  cases c with
  | nldPorAssert | nldPor => cases ha
  | _ => rfl

theorem ktuPower_actsOnKtu {c : Instr} (ha : actsOnKtu c = false) : ktuPower c = false := by
  cases c with
  | ktuPorAssert | ktuPorDeassert | ktuClockStop | hostDomainChange => cases ha
  | _ => rfl

/-- With both sides in reset a clock edge changes nothing. -/
theorem State.idle_inReset {s : State} (hk : s.ktu.pins.porLow = true) (hn : s.nld.pkg.porLow = true) : s.idle = s := by
  have hktu : s.ktu.idle = s.ktu := if_pos (.inr hk)
  have hnld : s.nld.idle = s.nld := if_pos (.inl hn)
  rw [State.idle, hktu, hnld]

/-- Settles O57: outside power and reset a command is a function on its side, and the wrapper of that side holds it back. -/
theorem nothingActsInReset : Obligations.NothingActsInReset := by
  unfold Obligations.NothingActsInReset
  refine fun s c => ⟨fun ha hk hp hc => ?_, fun ha hn hp => ?_, fun hq hk hn => ?_⟩
  · have hacts := exec_acts c hk (nldPower_actsOnNld ha)
    rw [ha] at hacts
    exact hacts.ktu_inReset hp hc
  · have hacts := exec_acts c (ktuPower_actsOnKtu ha) hn
    rw [ha] at hacts
    exact hacts.nld_inReset hp
  · have hstep : step s = .next s.idle := by
      unfold step
      rw [hq]
    rw [hstep, State.idle_inReset hk hn]

end Sys2Proof.Machine
end

section
/-! SUPPORT. Which commands are writes of Naloder's registers outside its reset and power block, and the statement on such a write
before boot stage 5 (R336, R689, R704). -/

namespace Sys2Proof.Machine

-- One theorem at a time: elaborated side by side, those of this text need more stacks than the check has memory for.
set_option Elab.async false

open Sys2Proof

/-- Every such command goes through the wrapper of these writes. -/
theorem exec_pfWriteRow {c : Instr} (h : pfWriteRow c = true) : ∃ f, exec c = onNldWrite f := by
  cases c with
  | stepApply w | stepAcceptPending w | timeBaseHold w | timeBaseEnable w | tickSrcWrite w =>
    cases w with
    | ktu => cases h
    | nld => exact ⟨_, rfl⟩
  | qpAlloc | qpInit | qpErrorCmd | qpResetFree | recorderClear | attest | enrolRevoke | provisioningBundle | generateIdentity
    | installChain | sleepGo | nldFifeReset | nldFifeRetrain | nldFifeWake | nldFifeEnable | hornReset | hornRetrain
    | schedTableCommit | liveClear | liveQuery | abortCmd | nldTickRun | tickSetpointWrite | ownMapArm | positionTableCommit
    | ctxCfgApply | ctxEpochStart | codecTableCommit | bulkLaneEnable => exact ⟨_, rfl⟩
  | _ => cases h

/-- Before boot stage 5 such a write is ignored, and that is reported. -/
theorem Nld.pfWrite_early {n : Nld} (hp : n.pkg.resetting = false) (h5 : n.bootStage < 5) (f : Nld → Nld) :
    Nld.pfWrite f n = n.ignoredWrite 2 := by
  rw [Nld.pfWrite, hp, if_neg Bool.false_ne_true, if_pos h5]

/-- The report of an early write does not touch the event bit of a partial one. -/
theorem Nld.ignoredWrite_early_get_ne (n : Nld) {g : Fld} {j : Nat} (hflag : g.key j ≠ NReg.ACC_EVT_early_write.key 0)
    (hreason : g.key j ≠ NReg.ACC_EVT_reason.key 0) (hcount : g.key j ≠ NReg.ACC_IGNORED_count.key 0)
    (hseq : g.key j ≠ NReg.HWERR_PROD_seq.key 0) (hlost : g.key j ≠ NReg.HWERR_LOST_count.key 0) :
    (n.ignoredWrite 2).get g j = n.get g j := by
  rw [Nld.ignoredWrite_eq]
  exact (Nld.get_raise_ne _ _ _ _ _ _ hflag hseq hlost).trans (n.countIgnored_get_ne 2 hcount hreason)

/-- Settles O54: the wrapper ignores the write, and of an ignored write nothing is left but its report. -/
theorem earlyWritesIgnored : Obligations.EarlyWritesIgnored := by
  unfold Obligations.EarlyWritesIgnored
  intro s c hc hr hp h5
  obtain ⟨f, hf⟩ := exec_pfWriteRow hc
  have hrun := s.nld.ignoredWrite_run 2
  refine .of_onNld (Nld.pfWrite f) (congrFun hf s) hr ?_
  rw [Nld.pfWrite_early hp h5]
  refine ⟨?_, ?_, (Nld.only_after hrun _ _).2 (s.nld.ignoredWrite_only 2), (Nld.regsOnly_after hrun _ _).2 fun g j hpend hg => ?_⟩
  · exact (Nld.bit_congr (Nld.after_get hrun _ _ (by decide))).trans (s.nld.ignoredWrite_flag 2)
  · exact (Nld.after_get hrun _ _ (by decide)).trans (s.nld.ignoredWrite_count 2)
  · simp only [List.forall_mem_cons] at hg
    obtain ⟨hflag, hreason, hcount, hseq, hlost, -⟩ := hg
    exact s.nld.ignoredWrite_early_get_ne hflag hreason hcount hseq hlost

end Sys2Proof.Machine
end

section
/-! SUPPORT. Links of Naloder's ports taken Down, and the stop of every clock outside the always-on domain (R334, R694, R697). -/

namespace Sys2Proof.Machine

-- One theorem at a time: elaborated side by side, those of this text need more stacks than the check has memory for.
set_option Elab.async false

open Sys2Proof

/-! ### Folds -/

/-- What one operation makes true of its argument, and every other keeps, holds of all arguments in the end. -/
theorem foldl_forall_mem {σ α : Type} {f : σ → α → σ} {P : σ → α → Prop} (hmake : ∀ m x, P (f m x) x)
    (hkeep : ∀ m x y, P m y → P (f m x) y) (xs : List α) (m : σ) : ∀ x ∈ xs, P (xs.foldl f m) x := by
  induction xs generalizing m with
  | nil => exact fun x hx => absurd hx List.not_mem_nil
  | cons a xs ih =>
    have hrest (y : α) (hy : P (f m a) y) : P (xs.foldl f (f m a)) y :=
      List.foldlRecOn xs f (motive := fun m => P m y) hy fun m hm x _ => hkeep m x y hm
    exact List.forall_mem_cons.2 ⟨hrest a (hmake m a), ih (f m a)⟩

theorem Nld.Moves.foldl {α : Type} {l : List NPart} {w : List (Fld × Nat)} {f : Nld → α → Nld} (xs : List α) (n : Nld)
    (h : ∀ m, ∀ x ∈ xs, Nld.Moves l w m (f m x)) : Nld.Moves l w n (xs.foldl f n) :=
  List.foldlRecOn xs f (motive := Nld.Moves l w n) (.refl l w n) fun m hm x hx => hm.step (h m x hx) (fun _ h => h) fun _ h => h

/-! ### Ports taken Down -/

/-- A link end taken Down reports at most a message cut short. -/
theorem LinkEnd.toDown_acts (e : LinkEnd) : ∃ t, e.toDown.2 = { trunc := t } := by
  unfold LinkEnd.toDown
  split
  · exact ⟨_, rfl⟩
  · exact ⟨false, rfl⟩

/-- R334: a Fife port goes Down, unless it is Off. -/
def Nld.fifeDown (n : Nld) (p : Nat) : Nld := if (n.fife p).link.state = .off then n else n.fifeOp p LinkEnd.toDown

/-- R334: a Horn port goes Down. -/
def Nld.hornDown (n : Nld) (p : Nat) : Nld := n.hornOp p LinkEnd.toDown

/-- R334: the Fife ports, the Horn ports, and the Ethernet ports go Down. -/
def Nld.fifesDown (n : Nld) : Nld := (List.range 16).foldl Nld.fifeDown n

def Nld.hornsDown (n : Nld) : Nld := (List.range 8).foldl Nld.hornDown n

def Nld.ethsDown (n : Nld) : Nld := (n.ethLink 0 false).ethLink 1 false

theorem Nld.portsDown_eq (n : Nld) (fife horn eth : Bool) : n.portsDown fife horn eth =
    (fun m : Nld => if eth then m.ethsDown else m) ((fun m : Nld => if horn then m.hornsDown else m) (if fife then n.fifesDown else n)) :=
  rfl

/-- The fields that Ethernet ports going Down may move. -/
def ethFields : List (Fld × Nat) := [(NReg.ETHe_CFG_link_up, 0), (NReg.ETHe_CFG_link_up, 1), (NReg.RDMA_EVT_port_failover, 0)] ++ errorRing

/-- The fields that ports going Down may move. -/
def downFields : List (Fld × Nat) := ethFields ++ (List.range 16).flatMap dropFields

theorem dropFields_downFields {p : Nat} (hp : p < 16) : ∀ x ∈ dropFields p, x ∈ downFields := fun _ hx =>
  List.mem_append_right _ (List.mem_flatMap.2 ⟨p, List.mem_range.2 hp, hx⟩)

/-- The fields that tell of stops, of clocks and of power, and NLD_TICK_CTRL.run. -/
def clockFields : List Fld :=
  [NReg.TICK_CTRL_run, NReg.RST_CAUSE_last_fault, NReg.CLK_STATUS_ref_sys, NReg.CLK_STATUS_pll_io, NReg.CLK_STATUS_pll_cmp,
   NReg.CLK_STATUS_pll_hbm, NReg.CLK_STATUS_ref_pcie, NReg.CLK_STATUS_ref_eth, NReg.CLK_STATUS_ref_horn, NReg.CLK_STATUS_ref_fife]

/-- They lie apart from what ports going Down move. -/
theorem clockFields_apart : ∀ f ∈ clockFields, f.clearOf downFields 0 := by decide +kernel

section
variable (n : Nld) (p : Nat)

theorem Nld.fifeDown_moves (hp : p < 16) : Nld.Moves [.regs, .chains] downFields n (n.fifeDown p) :=
  .ite (.refl _ _ n) ((n.fifeOp_moves p LinkEnd.toDown_acts).mono (fun _ h => h) (dropFields_downFields hp))

theorem Nld.hornDown_moves (hp : p < 16) : Nld.Moves [.regs, .group] downFields n (n.hornDown p) :=
  (n.hornOp_moves p LinkEnd.toDown_acts).mono (fun _ h => h) (dropFields_downFields hp)

theorem Nld.ethLink_moves (up : Bool) (hp : p < 2) : Nld.Moves [.regs, .hwErr] ethFields n (n.ethLink p up) := by
  have hmem : (NReg.ETHe_CFG_link_up, p) ∈ ethFields := by
    obtain rfl | rfl : p = 0 ∨ p = 1 := by omega
    all_goals decide
  have hput : Nld.Moves [.regs, .hwErr] ethFields n (n.put NReg.ETHe_CFG_link_up up.toNat p) :=
    (n.put_moves _ _ p).mono (by decide) (List.forall_mem_singleton.2 hmem)
  exact .ite (hput.raise (by decide) 1 (by decide)) hput

theorem Nld.fifesDown_moves : Nld.Moves [.regs, .chains] downFields n n.fifesDown :=
  .foldl _ n fun m p hp => m.fifeDown_moves p (List.mem_range.1 hp)

theorem Nld.hornsDown_moves : Nld.Moves [.regs, .group] downFields n n.hornsDown :=
  .foldl _ n fun m p hp => m.hornDown_moves p (Nat.lt_trans (List.mem_range.1 hp) (by decide))

theorem Nld.ethsDown_moves : Nld.Moves [.regs, .hwErr] downFields n n.ethsDown :=
  ((n.ethLink_moves 0 false (by decide)).step (Nld.ethLink_moves _ 1 false (by decide))).mono (by decide) fun _ =>
    List.mem_append_left _

end

/-! ### Where a port's link stands then -/

/-- A Fife port whose link is Down, or which is Off. -/
def Nld.fifeOut (n : Nld) (p : Nat) : Prop := (n.fife p).link.state = .down ∨ (n.fife p).link.state = .off

/-- A Horn port whose link is Down. -/
def Nld.hornOut (n : Nld) (p : Nat) : Prop := (n.horn p).link.state = .down

section
variable (n : Nld) (p q : Nat)

theorem Nld.fifeOut_congr {m : Nld} (h : m.chains = n.chains) : m.fifeOut p ↔ n.fifeOut p := by
  rw [Nld.fifeOut, n.fife_of_chains p h, Nld.fifeOut]

theorem Nld.hornOut_congr {m : Nld} (h : m.group = n.group) : m.hornOut p ↔ n.hornOut p := by
  rw [Nld.hornOut, n.horn_of_group p h, Nld.hornOut]

theorem Nld.fifeOp_fife_ne (f : LinkEnd → LinkEnd × LinkActs) (h : q ≠ p) : (n.fifeOp p f).fife q = n.fife q := by
  rw [Nld.fifeOp, Nld.fifeActs_eq, Nld.fife_of_chains _ q ((Nld.portActs_moves _ p _ fifeFields).only .chains (by decide))]
  exact Tbl.get_set_ne _ _ h _ _

theorem Nld.hornOp_horn_ne (f : LinkEnd → LinkEnd × LinkActs) (h : q ≠ p) : (n.hornOp p f).horn q = n.horn q := by
  rw [Nld.hornOp, Nld.hornActs_eq, Nld.horn_of_group _ q ((Nld.portActs_moves _ p _ hornFields).only .group (by decide))]
  exact Tbl.get_set_ne _ _ h _ _

theorem Nld.fifeDown_out : (n.fifeDown p).fifeOut p := by
  unfold Nld.fifeDown
  split
  next h => exact .inr h
  next =>
    refine .inl ?_
    rw [Nld.fifeOp_link, LinkEnd.state_alike (LinkEnd.retrainWakes_alike _), LinkEnd.toDown_state]

theorem Nld.hornDown_out : (n.hornDown p).hornOut p := by
  rw [Nld.hornOut, Nld.hornDown, Nld.hornOp_link, LinkEnd.toDown_state]

theorem Nld.fifeDown_keeps (h : n.fifeOut q) : (n.fifeDown p).fifeOut q := by
  by_cases hq : q = p
  · exact hq ▸ n.fifeDown_out q
  · unfold Nld.fifeDown
    split
    · exact h
    · rwa [Nld.fifeOut, Nld.fifeOp_fife_ne _ _ _ _ hq]

theorem Nld.hornDown_keeps (h : n.hornOut q) : (n.hornDown p).hornOut q := by
  by_cases hq : q = p
  · exact hq ▸ n.hornDown_out q
  · rwa [Nld.hornOut, Nld.hornDown, Nld.hornOp_horn_ne _ _ _ _ hq]

end

section
variable (n : Nld)

theorem Nld.fifesDown_out : ∀ p < 16, n.fifesDown.fifeOut p := fun p hp =>
  foldl_forall_mem (P := Nld.fifeOut) Nld.fifeDown_out Nld.fifeDown_keeps _ n p (List.mem_range.2 hp)

theorem Nld.hornsDown_out : ∀ p < 8, n.hornsDown.hornOut p := fun p hp =>
  foldl_forall_mem (P := Nld.hornOut) Nld.hornDown_out Nld.hornDown_keeps _ n p (List.mem_range.2 hp)

theorem Nld.portsDown_all : n.portsDown true true true = n.fifesDown.hornsDown.ethsDown := by
  simp only [Nld.portsDown_eq, if_true]

/-- R334: with every port taken Down, each stands there. -/
theorem Nld.portsDown_out :
    (∀ p < 16, (n.portsDown true true true).fifeOut p) ∧ ∀ p < 8, (n.portsDown true true true).hornOut p := by
  have hhorns := n.fifesDown.hornsDown_moves
  have heths := n.fifesDown.hornsDown.ethsDown_moves
  rw [Nld.portsDown_all]
  refine ⟨fun p hp => ?_, fun p hp => ?_⟩
  · exact (Nld.fifeOut_congr _ p ((heths.only .chains (by decide)).trans (hhorns.only .chains (by decide)))).2 (n.fifesDown_out p hp)
  · exact (Nld.hornOut_congr _ p (heths.only .group (by decide))).2 (n.fifesDown.hornsDown_out p hp)

theorem Nld.portsDown_moves : Nld.Moves portParts downFields n (n.portsDown true true true) := by
  rw [Nld.portsDown_all]
  exact ((n.fifesDown_moves.mono (by decide) fun _ h => h).step (Nld.hornsDown_moves _) (by decide) fun _ h => h).step
    (Nld.ethsDown_moves _) (by decide) fun _ h => h

/-! ### The stop (R334, R694, R697) -/

/-- What a stop may move beside the recorder. -/
def stopParts : List NPart := [.regs, .pkg, .hwErr, .chains, .group]

/-- The fields that a stop may move. -/
def stopFields : List (Fld × Nat) := (NReg.RST_CAUSE_last_fault, 0) :: downFields

theorem stopFields_apart : ∀ f ∈ clockFields, f ≠ NReg.RST_CAUSE_last_fault → f.clearOf stopFields 0 := fun f hf hne =>
  have ⟨hpend, hdown⟩ := clockFields_apart f hf
  ⟨hpend, List.forall_mem_cons.2 ⟨(by decide : ∀ f ∈ clockFields, f ≠ NReg.RST_CAUSE_last_fault →
    f.key 0 ≠ NReg.RST_CAUSE_last_fault.key 0) f hf hne, hdown⟩⟩

/-- R334, R694: the stop itself: last_fault tells of it. -/
def Nld.stop (n : Nld) (fault : Nat) : Nld :=
  let n := n.put NReg.RST_CAUSE_last_fault fault
  { n with pkg := { n.pkg with stopped := true } }

theorem Nld.stopPackage_eq (fault : Nat) : n.stopPackage fault = (n.portsDown true true true).stop fault := rfl

theorem Nld.stop_moves (fault : Nat) : Nld.Moves [.regs, .pkg] [(NReg.RST_CAUSE_last_fault, 0)] n (n.stop fault) :=
  (n.put_moves _ _ 0).mono.step (Nld.withPkg_moves _ _)

theorem Nld.stopPackage_moves (fault : Nat) : Nld.Moves stopParts stopFields n (n.stopPackage fault) :=
  (n.portsDown_moves.mono (by decide) fun _ => List.mem_cons_of_mem _).step (Nld.stop_moves _ fault) (by decide)
    (by simp)

/-- What a stop leaves, seen after what follows it: the package has stopped, last_fault tells of it, and no link is up. -/
structure Nld.Stopped (n : Nld) (fault : Nat) : Prop where
  stopped : n.pkg.stopped = true
  told : n.get NReg.RST_CAUSE_last_fault = fault
  fifes : ∀ p < 16, n.fifeOut p
  horns : ∀ p < 8, n.hornOut p

theorem Nld.stopPackage_stopped {fault : Nat} (hf : fault < 4) : (n.stopPackage fault).Stopped fault := by
  have hwidth : fault % 2 ^ NReg.RST_CAUSE_last_fault.width = fault := Nat.mod_eq_of_lt (Nat.lt_of_lt_of_le hf (by decide))
  obtain ⟨hfifes, hhorns⟩ := n.portsDown_out
  rw [Nld.stopPackage_eq]
  generalize n.portsDown true true true = m at hfifes hhorns ⊢
  exact ⟨rfl, (m.get_put_same _ _ _).trans hwidth, hfifes, hhorns⟩

end

end Sys2Proof.Machine
end

section
/-! SUPPORT. The event recorder commits what waits (R656): every record in its queue, and the record that tells of those lost. -/

namespace Sys2Proof.Machine

-- One theorem at a time: elaborated side by side, those of this text need more stacks than the check has memory for.
set_option Elab.async false

open Sys2Proof

/-- How many commits empty the queue: one for each record in it, and one for the record of those lost, where some were. -/
def Nld.toCommit (n : Nld) : Nat :=
  if n.recorder.queue = [] then 0 else n.recorder.queue.length + n.recorder.lost.isSome.toNat

section
variable (n : Nld)

theorem Nld.toCommit_le : n.toCommit ≤ n.recorder.queue.length + n.recorder.lost.isSome.toNat := by
  unfold Nld.toCommit
  split
  · exact Nat.zero_le _
  · exact Nat.le_refl _

theorem Nld.queue_of_toCommit (h : n.toCommit = 0) : n.recorder.queue = [] := by
  unfold Nld.toCommit at h
  split at h
  next hq => exact hq
  next hq => exact absurd (List.length_eq_zero_iff.1 (Nat.eq_zero_of_add_eq_zero_right h)) hq

/-- R654: writing a record to its slot leaves the queue, and what is known of the records lost. -/
theorem Nld.recCommit_eq (e : RecEntry) : ∃ r, n.recCommit e = { n with recorder := r } ∧ r.queue = n.recorder.queue ∧
    r.lost = n.recorder.lost := by
  refine ⟨(n.recCommit e).recorder, ?_⟩
  unfold Nld.recCommit Nld.recAdvance
  simp only
  split <;> exact ⟨rfl, rfl, rfl⟩

/-- R656: a commit takes the head of the queue; the record of those lost takes its place at most once. -/
theorem Nld.recNext_cons {e : RecEntry} {rest : List RecEntry} (hq : n.recorder.queue = e :: rest) :
    ∃ r, n.recNext = { n with recorder := r } ∧
      r.queue.length + r.lost.isSome.toNat ≤ rest.length + n.recorder.lost.isSome.toNat := by
  obtain ⟨r, hr, hqueue, hlost⟩ := ({ n with recorder := { n.recorder with queue := rest } } : Nld).recCommit_eq e
  simp only at hqueue hlost
  unfold Nld.recNext
  rw [hq]
  simp only [hr]
  cases hl : n.recorder.lost with
  | none =>
    rw [hl] at hlost
    simp only [hlost]
    exact ⟨r, rfl, by rw [hqueue, hlost]⟩
  | some x =>
    obtain ⟨c, f, l⟩ := x
    rw [hl] at hlost
    simp only [hlost]
    split
    · exact ⟨_, rfl, Nat.le_refl _⟩
    · exact ⟨r, rfl, by rw [hqueue, hlost]⟩

theorem Nld.recNext_nil (hq : n.recorder.queue = []) : n.recNext = n := by
  unfold Nld.recNext
  rw [hq]

theorem Nld.recNext_eq : ∃ r, n.recNext = { n with recorder := r } := by
  cases hq : n.recorder.queue with
  | nil => exact ⟨_, n.recNext_nil hq⟩
  | cons e rest =>
    obtain ⟨r, hr, -⟩ := n.recNext_cons hq
    exact ⟨r, hr⟩

theorem Nld.recNext_toCommit : n.recNext.toCommit ≤ n.toCommit - 1 := by
  cases hq : n.recorder.queue with
  | nil =>
    rw [n.recNext_nil hq, Nld.toCommit, if_pos hq]
  | cons e rest =>
    obtain ⟨r, hr, hle⟩ := n.recNext_cons hq
    have hn : n.toCommit = rest.length + 1 + n.recorder.lost.isSome.toNat := by
      rw [Nld.toCommit, hq, if_neg (List.cons_ne_nil _ _), List.length_cons]
    have hnext := Nld.toCommit_le { n with recorder := r }
    rw [hr, hn]
    simp only at hnext
    omega

theorem Nld.recordCommit_moves : Nld.Moves [.regs, .recorder] [(NReg.REC_STATUS_queued, 0)] n n.recordCommit := by
  obtain ⟨r, hr⟩ := n.recNext_eq
  unfold Nld.recordCommit
  rw [hr]
  exact (n.withRecorder_moves r).mono.step (Nld.put_moves _ _ _ 0)

theorem Nld.commitAll_moves : Nld.Moves [.regs, .recorder] [(NReg.REC_STATUS_queued, 0)] n n.commitAll :=
  .foldl _ n fun m _ _ => m.recordCommit_moves

theorem Nld.foldl_recordCommit_toCommit (xs : List Nat) :
    (xs.foldl (fun (n : Nld) _ => n.recordCommit) n).toCommit ≤ n.toCommit - xs.length := by
  induction xs generalizing n with
  | nil => exact Nat.le_refl _
  | cons x xs ih =>
    have hcommit : n.recordCommit.toCommit ≤ n.toCommit - 1 := n.recNext_toCommit
    have hrest := ih n.recordCommit
    rw [List.foldl_cons, List.length_cons]
    omega

/-- R656: nothing waits once everything that waited has committed. -/
theorem Nld.commitAll_queue : n.commitAll.recorder.queue = [] := by
  refine Nld.queue_of_toCommit _ (Nat.le_zero.1 ?_)
  have hall := n.foldl_recordCommit_toCommit (List.range (n.recorder.queue.length + 1))
  have hle := n.toCommit_le
  have hlost : n.recorder.lost.isSome.toNat ≤ 1 := Bool.toNat_le _
  rw [List.length_range] at hall
  rw [Nld.commitAll]
  omega

end

end Sys2Proof.Machine
end

section
/-! SUPPORT. What stops Naloder, and its clocks (R333, R334, R694, R697): each command's stop, and the port references. -/

namespace Sys2Proof.Machine

-- One theorem at a time: elaborated side by side, those of this text need more stacks than the check has memory for.
set_option Elab.async false

open Sys2Proof

/-! ### What follows a stop -/

section
variable {l : List NPart} {w : List (Fld × Nat)} {a b : Nld} (h : Nld.Moves l w a b) (hrun : NReg.TICK_CTRL_run.clearOf w 0)
include h hrun

theorem Nld.Moves.after_fifeOut (p : Nat) : (Nld.after a b).fifeOut p ↔ b.fifeOut p :=
  Nld.fifeOut_congr _ p (Nld.after_chains (h.bit hrun))

theorem Nld.Moves.after_hornOut (p : Nat) : (Nld.after a b).hornOut p ↔ b.hornOut p :=
  Nld.hornOut_congr _ p (Nld.after_group (h.bit hrun))

theorem Nld.Moves.after_stopped {fault : Nat} (hs : b.Stopped fault) : (Nld.after a b).Stopped fault where
  stopped := by rw [h.after_pkg hrun, hs.stopped]
  told := (h.after_get hrun).trans hs.told
  fifes p hp := (h.after_fifeOut hrun p).2 (hs.fifes p hp)
  horns p hp := (h.after_hornOut hrun p).2 (hs.horns p hp)

end

/-- Several fields of a register file set, each to its value. -/
def Regs.setAll (r : Regs) (fs : List Fld) (v : Fld → Nat) : Regs := fs.foldl (fun acc f => acc.set f (v f)) r

theorem Regs.get_setAll_ne {fs : List Fld} {f : Fld} {i : Nat} (h : ∀ g ∈ fs, f.key i ≠ g.key 0) (v : Fld → Nat) (r : Regs) :
    (r.setAll fs v).get f i = r.get f i :=
  List.foldlRecOn fs _ (motive := fun x => Regs.get x f i = r.get f i) rfl fun x hx g hg =>
    (x.get_set_ne g f (v g) 0 i (h g hg)).trans hx

/-- A field whose place no other field has holds its value then. -/
theorem Regs.get_setAll_mem {fs : List Fld} {f : Fld} (hf : f ∈ fs) (hkeys : ∀ g ∈ fs, g.key 0 = f.key 0 → g = f) (v : Fld → Nat)
    (r : Regs) : (r.setAll fs v).get f = v f % 2 ^ f.width := by
  obtain ⟨xs, ys, rfl⟩ := List.append_of_mem hf
  rw [Regs.setAll, List.foldl_append, List.foldl_cons]
  refine List.foldlRecOn ys _ (motive := fun x => Regs.get x f = v f % 2 ^ f.width) (Regs.get_set_same _ _ _ _) fun x hx g hg => ?_
  by_cases hk : g.key 0 = f.key 0
  · rw [hkeys g (by simp [hg]) hk, Regs.get_set_same]
  · rw [Regs.get_set_ne _ _ _ _ _ _ fun h => hk h.symm, hx]

/-- A field reads as 0 once 0 has been written. -/
theorem Nld.bit_of_get_zero {n : Nld} {f : Fld} {i : Nat} (h : n.get f i = 0) : n.bit f i = false := by
  unfold Nld.get at h
  simp only [Nld.bit, Regs.bit, h, bne_self_eq_false]

theorem Nld.bit_of_get_one {n : Nld} {f : Fld} {i : Nat} (h : n.get f i = 1) : n.bit f i = true := by
  unfold Nld.get at h
  simp only [Nld.bit, Regs.bit, h]
  rfl

/-! ### The commands that stop it -/

/-- The clocks' fields that are put out when the system reference, or a core PLL, is lost. -/
def lossFields : List (Fld × Nat) :=
  [(NReg.CLK_STATUS_ref_sys, 0), (NReg.CLK_STATUS_pll_io, 0), (NReg.CLK_STATUS_pll_cmp, 0), (NReg.CLK_STATUS_pll_hbm, 0)] ++ stopFields

/-- The fields that a thermal trip may move. -/
def tripFields : List (Fld × Nat) := (NReg.REC_STATUS_queued, 0) :: markFields ++ stopFields

theorem lossFields_run : NReg.TICK_CTRL_run.clearOf lossFields 0 := by decide +kernel

theorem tripFields_run : NReg.TICK_CTRL_run.clearOf tripFields 0 := by decide +kernel

section
variable (n : Nld)

theorem Nld.thermalTrip_moves (sensor temp : Nat) : Nld.Moves [.regs, .pkg, .hwErr, .chains, .group, .recorder] tripFields n
    (n.thermalTrip sensor temp) :=
  ((n.submit_moves _ _ _).mono (by decide) fun _ h => List.mem_append_left _ (List.mem_cons_of_mem _ h)).step
    (Nld.commitAll_moves _) (by decide) (by simp) |>.step (Nld.stopPackage_moves _ 1) (by decide)
    fun _ => List.mem_append_right _

theorem Nld.thermalTrip_recorder (sensor temp : Nat) : (n.thermalTrip sensor temp).recorder.queue = [] := by
  rw [Nld.thermalTrip, (Nld.stopPackage_moves _ 1).only .recorder (by decide)]
  exact Nld.commitAll_queue _

/-- The bit of a core PLL in NLD_CLK_STATUS. -/
def pllBit (pll : Nat) : Fld :=
  if pll = 0 then NReg.CLK_STATUS_pll_io else if pll = 1 then NReg.CLK_STATUS_pll_cmp else NReg.CLK_STATUS_pll_hbm

theorem pllBit_lossFields (pll : Nat) : (pllBit pll, 0) ∈ lossFields := by
  unfold pllBit
  split
  · simp [lossFields]
  · split <;> simp [lossFields]

theorem Nld.pllLoss_seen (pll : Nat) (h : n.pkg.pllSeen = true) : n.pllLoss pll = (n.put (pllBit pll) 0).stopPackage 2 := if_pos h

theorem Nld.pllLoss_unseen (pll : Nat) (h : n.pkg.pllSeen = false) : n.pllLoss pll = n.put (pllBit pll) 0 :=
  if_neg (by rw [Nld.put_pkg, h]; exact Bool.false_ne_true)

/-- The same value in several fields. -/
def Nld.putAll (n : Nld) (fs : List Fld) (v : Nat) : Nld := fs.foldl (fun n f => n.put f v) n

theorem Nld.putAll_eq (fs : List Fld) (v : Nat) : n.putAll fs v = { n with regs := n.regs.setAll fs fun _ => v } := by
  induction fs generalizing n with
  | nil => rfl
  | cons f fs ih => exact ih (n.put f v)

theorem Nld.putAll_moves (fs : List Fld) (v : Nat) : Nld.Moves [.regs] (fs.map fun f => (f, 0)) n (n.putAll fs v) :=
  .foldl fs n fun m f hf => (m.put_moves f v 0).mono (fun _ h => h) (List.forall_mem_singleton.2 (List.mem_map_of_mem hf))

theorem Nld.putAll_get {fs : List Fld} {f : Fld} (hf : f ∈ fs) (hkeys : ∀ g ∈ fs, g.key 0 = f.key 0 → g = f) (v : Nat) :
    (n.putAll fs v).get f = v % 2 ^ f.width := by
  rw [Nld.putAll_eq]
  exact Regs.get_setAll_mem hf hkeys _ _

/-- What the core PLLs and the system reference are shown by. -/
def sysFields : List Fld := [NReg.CLK_STATUS_ref_sys, NReg.CLK_STATUS_pll_io, NReg.CLK_STATUS_pll_cmp, NReg.CLK_STATUS_pll_hbm]

theorem Nld.sysRefLoss_eq : n.sysRefLoss = (n.putAll sysFields 0).stopPackage 2 := rfl

theorem Nld.sysRefLoss_moves : Nld.Moves stopParts lossFields n n.sysRefLoss :=
  ((n.putAll_moves sysFields 0).mono (by decide) fun _ => List.mem_append_left _).step (Nld.stopPackage_moves _ 2) (fun _ h => h)
    fun _ => List.mem_append_right _

theorem sysFields_apart : ∀ f ∈ sysFields, f.clearOf stopFields 0 ∧ ∀ g ∈ sysFields, g.key 0 = f.key 0 → g = f := by decide +kernel

theorem Nld.sysRefLoss_out : ∀ f ∈ sysFields, n.sysRefLoss.get f = 0 := by
  intro f hf
  obtain ⟨happart, hkeys⟩ := sysFields_apart f hf
  rw [Nld.sysRefLoss_eq, (Nld.stopPackage_moves _ 2).get happart, n.putAll_get hf hkeys, Nat.zero_mod]

theorem Nld.pllLoss_moves (pll : Nat) (h : n.pkg.pllSeen = true) : Nld.Moves stopParts lossFields n (n.pllLoss pll) := by
  rw [n.pllLoss_seen pll h]
  exact ((n.put_moves _ _ 0).mono (by decide) (List.forall_mem_singleton.2 (pllBit_lossFields pll))).step (Nld.stopPackage_moves _ 2)
    (fun _ h => h) fun _ => List.mem_append_right _

end

section
variable {s : State} (hr : s.nld.runs)
include hr

theorem thermalTrip_does (sensor temp : BitVec 8) : NldDoes (.thermalTrip sensor temp) s fun n =>
    n.pkg.stopped = true ∧ n.get NReg.RST_CAUSE_last_fault = 1 ∧ n.recorder.queue = [] ∧ (∀ p < 16, n.fifeOut p) ∧
    (∀ p < 8, n.hornOut p) ∧ Nld.only [.regs, .pkg, .hwErr, .chains, .group, .recorder] s.nld n := by
  have hm := s.nld.thermalTrip_moves sensor.toNat temp.toNat
  obtain ⟨hstop, htold, hfifes, hhorns⟩ := hm.after_stopped tripFields_run (Nld.stopPackage_stopped _ (by decide))
  refine .of_onNld (fun n => n.thermalTrip sensor.toNat temp.toNat) rfl hr
    ⟨hstop, htold, ?_, hfifes, hhorns, hm.after_only tripFields_run⟩
  rw [Nld.after_recorder (hm.bit tripFields_run), s.nld.thermalTrip_recorder]

theorem supplyTrip_does : NldDoes .supplyMonitorTrip s fun n =>
    n.pkg.stopped = true ∧ n.get NReg.RST_CAUSE_last_fault = 3 ∧ (∀ p < 16, n.fifeOut p) ∧ (∀ p < 8, n.hornOut p) ∧
    n.recorder = s.nld.recorder ∧ Nld.only [.regs, .pkg, .hwErr, .chains, .group] s.nld n := by
  have hrun := stopFields_apart NReg.TICK_CTRL_run (by decide) (by decide)
  have hm := s.nld.stopPackage_moves 3
  obtain ⟨hstop, htold, hfifes, hhorns⟩ := hm.after_stopped hrun (s.nld.stopPackage_stopped (by decide))
  exact .of_onNld Nld.supplyTrip rfl hr
    ⟨hstop, htold, hfifes, hhorns, hm.after_only hrun .recorder (by decide), hm.after_only hrun⟩

theorem sysRefLoss_does : NldDoes (.pllLockLoss none) s fun n =>
    n.pkg.stopped = true ∧ n.get NReg.RST_CAUSE_last_fault = 2 ∧ n.bit NReg.CLK_STATUS_ref_sys = false ∧
    n.bit NReg.CLK_STATUS_pll_io = false ∧ n.bit NReg.CLK_STATUS_pll_cmp = false ∧ n.bit NReg.CLK_STATUS_pll_hbm = false ∧
    Nld.only [.regs, .pkg, .hwErr, .chains, .group] s.nld n := by
  have hm := s.nld.sysRefLoss_moves
  obtain ⟨hstop, htold, -, -⟩ := hm.after_stopped lossFields_run (Nld.stopPackage_stopped _ (by decide))
  have hout : ∀ f ∈ sysFields, (Nld.after s.nld s.nld.sysRefLoss).bit f = false := fun f hf =>
    Nld.bit_of_get_zero ((hm.after_get lossFields_run (sysFields_apart f hf).1.1).trans (s.nld.sysRefLoss_out f hf))
  exact .of_onNld Nld.sysRefLoss rfl hr ⟨hstop, htold, hout _ (by decide), hout _ (by decide), hout _ (by decide), hout _ (by decide),
    hm.after_only lossFields_run⟩

theorem pllLoss_seen_does (hseen : s.nld.pkg.pllSeen = true) (p : Fin 3) : NldDoes (.pllLockLoss (some p)) s fun n =>
    n.pkg.stopped = true ∧ n.get NReg.RST_CAUSE_last_fault = 2 ∧ Nld.only [.regs, .pkg, .hwErr, .chains, .group] s.nld n := by
  have hm := s.nld.pllLoss_moves p.val hseen
  obtain ⟨hstop, htold, -, -⟩ := hm.after_stopped lossFields_run
    (s.nld.pllLoss_seen p.val hseen ▸ Nld.stopPackage_stopped _ (by decide))
  exact .of_onNld (fun n => n.pllLoss p.val) rfl hr ⟨hstop, htold, hm.after_only lossFields_run⟩

theorem pllLoss_unseen_does (hseen : s.nld.pkg.pllSeen = false) : NldDoes (.pllLockLoss (some 1)) s fun n =>
    n.bit NReg.CLK_STATUS_pll_cmp = false ∧ Nld.only [.regs] s.nld n ∧ Nld.regsOnly [(NReg.CLK_STATUS_pll_cmp, 0)] s.nld n := by
  refine .of_onNld (fun n => n.pllLoss 1) rfl hr ?_
  rw [s.nld.pllLoss_unseen 1 hseen]
  obtain ⟨hget, honly, hregs⟩ := Nld.after_put (Nld.signalled_refl (s.nld.put (pllBit 1) 0)) (by decide) (by decide)
  exact ⟨Nld.bit_of_get_zero hget, honly, hregs⟩

end

/-! ### The port references (R697) -/

/-- The parts of the links that run from a port reference. -/
def refParts : PortRef → List NPart
  | .fife => [.chains]
  | .horn => [.group]
  | _ => []

/-- A port reference is lost: its own links go Down. -/
def Nld.refDown (n : Nld) (r : PortRef) : Nld := n.portsDown (r == .fife) (r == .horn) (r == .eth)

/-- The fields that the loss of a port reference may move. -/
def refFields (r : PortRef) : List (Fld × Nat) := (refBit r, 0) :: (NReg.PKG_EVT_ref_lost, 0) :: downFields

theorem refFields_run (r : PortRef) : NReg.TICK_CTRL_run.clearOf (refFields r) 0 := by cases r <;> decide +kernel

/-- The bit of a reference lies apart from what else its loss moves. -/
theorem refBit_apart (r : PortRef) : (refBit r).clearOf downFields 0 ∧ (refBit r).clearOf ((NReg.PKG_EVT_ref_lost, 0) :: errorRing) 0 := by
  cases r <;> decide +kernel

/-- What the loss of a reference may move beside the registers is its own links. -/
theorem refParts_spec (r : PortRef) : (r ≠ .fife → NPart.chains ∉ [.regs, .hwErr] ++ refParts r) ∧
    (r ≠ .horn → NPart.group ∉ [.regs, .hwErr] ++ refParts r) ∧ NPart.pkg ∉ [.regs, .hwErr] ++ refParts r ∧
    ∀ p ∈ [.regs, .hwErr] ++ refParts r, p ∈ portParts := by
  cases r <;> decide

section
variable (n : Nld)

theorem Nld.refDown_moves (r : PortRef) : Nld.Moves ([.regs, .hwErr] ++ refParts r) downFields n (n.refDown r) := by
  cases r with
  | pcie => exact .refl _ _ n
  | eth => exact n.ethsDown_moves
  | horn => exact n.hornsDown_moves.mono (by decide) fun _ h => h
  | fife => exact n.fifesDown_moves.mono (by decide) fun _ h => h

theorem Nld.refLoss_eq (r : PortRef) : n.refLoss r = ((n.put (refBit r) 0).refDown r).raise NReg.PKG_EVT_ref_lost := rfl

theorem Nld.refLoss_moves (r : PortRef) : Nld.Moves ([.regs, .hwErr] ++ refParts r) (refFields r) n (n.refLoss r) :=
  (((n.put_moves _ _ 0).mono (by simp) (List.forall_mem_singleton.2 List.mem_cons_self)).step (Nld.refDown_moves _ r) (fun _ h => h)
    fun _ h => List.mem_cons_of_mem _ (List.mem_cons_of_mem _ h)).step (Nld.raise_moves _ _ 1 0) (by simp)
    (List.forall_mem_cons.2 ⟨by simp, fun _ h => by simp [downFields, ethFields, h]⟩)

/-- R697: the links of the reference are Down. -/
theorem Nld.refLoss_out (r : PortRef) :
    (r = .fife → ∀ p < 16, (n.refLoss r).fifeOut p) ∧ (r = .horn → ∀ p < 8, (n.refLoss r).hornOut p) := by
  rw [Nld.refLoss_eq]
  generalize n.put (refBit r) 0 = m
  have hraise := (m.refDown r).raise_moves NReg.PKG_EVT_ref_lost 1 0
  refine ⟨fun h p hp => ?_, fun h p hp => ?_⟩
  · refine (Nld.fifeOut_congr _ p (hraise.only .chains (by decide))).2 ?_
    subst h
    exact m.fifesDown_out p hp
  · refine (Nld.hornOut_congr _ p (hraise.only .group (by decide))).2 ?_
    subst h
    exact m.hornsDown_out p hp

theorem Nld.refLoss_bits (r : PortRef) : (n.refLoss r).get (refBit r) = 0 ∧ (n.refLoss r).bit NReg.PKG_EVT_ref_lost = true := by
  obtain ⟨hdown, hraise⟩ := refBit_apart r
  refine ⟨?_, Nld.bit_raise _ rfl (by decide) (by decide)⟩
  rw [Nld.refLoss_eq, (Nld.raise_moves _ _ 1 0).get hraise, (Nld.refDown_moves _ r).get hdown, Nld.get_put_same, Nat.zero_mod]

end

section
variable {s : State} (hr : s.nld.runs)
include hr

theorem referenceLoss_does (r : PortRef) : NldDoes (.referenceLoss r) s fun n =>
    n.bit (refBit r) = false ∧ n.bit NReg.PKG_EVT_ref_lost = true ∧ (r = .fife → ∀ p < 16, n.fifeOut p) ∧
    (r ≠ .fife → n.chains = s.nld.chains) ∧ (r = .horn → ∀ p < 8, n.hornOut p) ∧ (r ≠ .horn → n.group = s.nld.group) ∧
    n.pkg = s.nld.pkg ∧ Nld.only [.regs, .hwErr, .chains, .group] s.nld n := by
  have hrun := refFields_run r
  have hm := s.nld.refLoss_moves r
  obtain ⟨hbit, hevt⟩ := s.nld.refLoss_bits r
  obtain ⟨hfifes, hhorns⟩ := s.nld.refLoss_out r
  obtain ⟨hchains, hgroup, hpkg, hparts⟩ := refParts_spec r
  have honly := hm.after_only hrun
  refine .of_onNld (fun n => n.refLoss r) rfl hr ⟨?_, (hm.after_bit hrun).trans hevt, fun h p hp => ?_,
    fun h => honly .chains (hchains h), fun h p hp => ?_, fun h => honly .group (hgroup h), honly .pkg hpkg, Nld.only_mono honly hparts⟩
  · exact Nld.bit_of_get_zero ((hm.after_get hrun (refBit_apart r).1.1).trans hbit)
  · exact (hm.after_fifeOut hrun p).2 (hfifes h p hp)
  · exact (hm.after_hornOut hrun p).2 (hhorns h p hp)

theorem referenceReturn_does (r : PortRef) : NldDoes (.referenceReturn r) s fun n =>
    n.bit (refBit r) = true ∧ Nld.only [.regs] s.nld n ∧ Nld.regsOnly [(refBit r, 0)] s.nld n := by
  have hrun := (refFields_run r).2 _ List.mem_cons_self
  obtain ⟨-, honly, hregs⟩ := Nld.after_put (Nld.signalled_refl (s.nld.put (refBit r) 1)) hrun (refBit_apart r).1.1
  refine .of_onNld (fun n => n.refReturn r) rfl hr ⟨?_, honly, hregs⟩
  have hm := s.nld.put_moves (refBit r) 1 0
  have hb : (s.nld.put (refBit r) 1).bit (refBit r) = true := by
    rw [Nld.bit_put_same]
    cases r <;> rfl
  exact (Nld.bit_congr (Nld.after_get (s.nld.put_run 1 hrun) _ _ (refBit_apart r).1.1)).trans hb

omit hr in
/-- R696: out of a package reset a write of the reset and power block is taken. -/
theorem Nld.rstWrite_taken {n : Nld} (hp : n.pkg.resetting = false) (f : Nld → Nld) : Nld.rstWrite f n = f n :=
  if_neg (by rw [hp]; exact Bool.false_ne_true)

theorem clearFault_does (hp : s.nld.pkg.resetting = false) : NldDoes .clearFault s fun n =>
    n.get NReg.RST_CAUSE_last_fault = 0 ∧ Nld.only [.regs] s.nld n ∧ Nld.regsOnly [(NReg.RST_CAUSE_last_fault, 0)] s.nld n := by
  refine .of_onNld (Nld.rstWrite Nld.clearFault) rfl hr ?_
  rw [Nld.rstWrite_taken hp]
  exact Nld.after_put (Nld.signalled_refl _) (by decide) (by decide)

end

end Sys2Proof.Machine
end

section
/-! SUPPORT. Naloder's power (R333, R339, R340): the throttle level, and the statement on stops and power. -/

namespace Sys2Proof.Machine

-- One theorem at a time: elaborated side by side, those of this text need more stacks than the check has memory for.
set_option Elab.async false

open Sys2Proof

/-! ### The throttle level (R333) -/

/-- The fields that a rise of the throttle level may move. -/
def throttleFields : List (Fld × Nat) :=
  [(NReg.PWR_STATUS_level, 0), (NReg.PWR_STATUS_cause, 0), (NReg.PWR_STATUS_thr_event, 0)] ++ errorRing

/-- The fields that show the sensors. -/
def sensorFields : List (Fld × Nat) := [(NReg.PWR_STATUS_power_w, 0), (NReg.PWR_STATUS_tj_c, 0)]

/-- No evaluation is calm since. -/
def Nld.uncalm (n : Nld) : Nld := { n with pkg := { n.pkg with calm := 0 } }

/-- The sensors as an evaluation finds them. -/
def Nld.sensed (n : Nld) (watts tj : Nat) : Nld :=
  (n.put NReg.PWR_STATUS_power_w (min watts 1023)).put NReg.PWR_STATUS_tj_c (min tj 255)

section
variable (n : Nld)

theorem Nld.throttleUp_full (k cause : Nat) (h : 7 ≤ n.get NReg.PWR_STATUS_level) : n.throttleUp k cause = n.uncalm := if_pos h

theorem Nld.throttleUp_eq (k cause : Nat) (h : n.get NReg.PWR_STATUS_level < 7) : n.throttleUp k cause =
    ((n.uncalm.put NReg.PWR_STATUS_level (min 7 (n.get NReg.PWR_STATUS_level + k))).put NReg.PWR_STATUS_cause cause).raise
      NReg.PWR_STATUS_thr_event := if_neg (Nat.not_le.2 h)

section
variable (k cause : Nat) (h : n.get NReg.PWR_STATUS_level < 7)
include h

theorem Nld.throttleUp_moves : Nld.Moves [.regs, .pkg, .hwErr] throttleFields n (n.throttleUp k cause) := by
  rw [n.throttleUp_eq k cause h]
  exact (((n.withPkg_moves _).mono.step (Nld.put_moves _ _ _ 0)).step (Nld.put_moves _ _ _ 0)).step (Nld.raise_moves _ _ 1 0)

theorem Nld.throttleUp_pkg : (n.throttleUp k cause).pkg = { n.pkg with calm := 0 } := by
  rw [n.throttleUp_eq k cause h, Nld.raise_pkg]
  rfl

theorem Nld.throttleUp_shows (hc : cause < 8) : (n.throttleUp k cause).get NReg.PWR_STATUS_level =
      min 7 (n.get NReg.PWR_STATUS_level + k) ∧
    (n.throttleUp k cause).get NReg.PWR_STATUS_cause = cause ∧ (n.throttleUp k cause).bit NReg.PWR_STATUS_thr_event = true := by
  have hlevel : min 7 (n.get NReg.PWR_STATUS_level + k) < 8 := Nat.lt_succ_of_le (Nat.min_le_left _ _)
  rw [n.throttleUp_eq k cause h]
  refine ⟨?_, ?_, Nld.bit_raise _ rfl (by decide) (by decide)⟩
  · rw [(Nld.raise_moves _ _ 1 0).get, (Nld.put_moves _ _ _ 0).get, Nld.get_put_same]
    exact Nat.mod_eq_of_lt hlevel
  · rw [(Nld.raise_moves _ _ 1 0).get, Nld.get_put_same]
    exact Nat.mod_eq_of_lt hc

end

/-! ### An evaluation (R333, R339) -/

section
variable (watts tj : Nat)

theorem Nld.sensed_moves : Nld.Moves [.regs] sensorFields n (n.sensed watts tj) :=
  (n.put_moves _ _ 0).mono.step (Nld.put_moves _ _ _ 0)

theorem Nld.sensed_shows : (n.sensed watts tj).get NReg.PWR_STATUS_power_w = min watts 1023 ∧
    (n.sensed watts tj).get NReg.PWR_STATUS_tj_c = min tj 255 := by
  constructor
  · rw [Nld.sensed, (Nld.put_moves _ _ _ 0).get, Nld.get_put_same]
    exact Nat.mod_eq_of_lt (Nat.lt_succ_of_le (Nat.min_le_right _ _))
  · rw [Nld.sensed, Nld.get_put_same]
    exact Nat.mod_eq_of_lt (Nat.lt_succ_of_le (Nat.min_le_right _ _))

/-- The limits in force do not depend on what the sensors show. -/
theorem Nld.sensed_limits :
    (n.sensed watts tj).powerLimit = n.powerLimit ∧ (n.sensed watts tj).throttleTemp = n.throttleTemp := by
  have hm := n.sensed_moves watts tj
  rw [Nld.powerLimit, Nld.throttleTemp, hm.get, hm.get]
  exact ⟨rfl, rfl⟩

/-- R333: too much power at a temperature below the throttle's. -/
theorem Nld.powerEval_above (hw : n.powerLimit < watts) (ht : tj < n.throttleTemp) :
    n.powerEval watts tj = (n.sensed watts tj).throttleUp 1 1 := by
  obtain ⟨hlimit, htemp⟩ := n.sensed_limits watts tj
  rw [← hlimit] at hw
  rw [← htemp] at ht
  unfold Nld.powerEval
  rw [← Nld.sensed]
  simp only [hw, Nat.not_le.2 ht, decide_true, decide_false, true_or, if_true, Bool.toNat_true, Bool.toNat_false, Nat.mul_zero]

/-- R333: an evaluation is calm below 95 % of the power limit and 3 °C below the throttle temperature. -/
theorem Nld.powerEval_calm (hw : watts * 100 < n.powerLimit * 95) (ht : tj + 3 ≤ n.throttleTemp) : n.powerEval watts tj =
    if n.pkg.calm + 1 ≥ 100 then
      ((n.sensed watts tj).put NReg.PWR_STATUS_level (n.get NReg.PWR_STATUS_level - 1)).uncalm
    else { n.sensed watts tj with pkg := { n.pkg with calm := n.pkg.calm + 1 } } := by
  obtain ⟨hlimit, htemp⟩ := n.sensed_limits watts tj
  have hlevel : (n.sensed watts tj).get NReg.PWR_STATUS_level = n.get NReg.PWR_STATUS_level := (n.sensed_moves watts tj).get
  have hcool : ¬ n.throttleTemp ≤ tj := by omega
  have hlow : ¬ n.powerLimit < watts := by omega
  unfold Nld.powerEval
  rw [← Nld.sensed]
  simp only [hlimit, htemp, hlevel, hcool, hlow, hw, ht, decide_false, Bool.false_eq_true, or_self, if_false, and_self, if_true]
  rfl

end

end

section
variable {s : State} (hr : s.nld.runs)
include hr

theorem droop_does (h : s.nld.get NReg.PWR_STATUS_level < 7) : NldDoes .droopTrip s fun n =>
    n.get NReg.PWR_STATUS_level = min 7 (s.nld.get NReg.PWR_STATUS_level + 2) ∧ n.get NReg.PWR_STATUS_cause = 4 ∧
    n.bit NReg.PWR_STATUS_thr_event = true ∧ n.pkg = { s.nld.pkg with calm := 0 } ∧ Nld.only [.regs, .pkg, .hwErr] s.nld n := by
  have hm := s.nld.throttleUp_moves 2 4 h
  have hrun : NReg.TICK_CTRL_run.clearOf throttleFields 0 := by decide
  obtain ⟨hlevel, hcause, hevt⟩ := s.nld.throttleUp_shows 2 4 h (by decide)
  exact .of_onNld Nld.droop rfl hr ⟨(hm.after_get hrun).trans hlevel, (hm.after_get hrun).trans hcause, (hm.after_bit hrun).trans hevt,
    (hm.after_pkg hrun).trans (s.nld.throttleUp_pkg 2 4 h), hm.after_only hrun⟩

theorem droop_full_does (h : 7 ≤ s.nld.get NReg.PWR_STATUS_level) : NldDoes .droopTrip s fun n =>
    n.pkg = { s.nld.pkg with calm := 0 } ∧ Nld.only [.pkg] s.nld n := by
  have hm : Nld.Moves [.pkg] [] s.nld s.nld.uncalm := s.nld.withPkg_moves _
  refine .of_onNld Nld.droop rfl hr ?_
  rw [Nld.droop, s.nld.throttleUp_full 2 4 h]
  exact ⟨hm.after_pkg run_apart_nil, hm.after_only run_apart_nil⟩

variable {watts tj : Nat}

theorem powerEval_above_does (hw : s.nld.powerLimit < watts) (ht : tj < s.nld.throttleTemp)
    (h : s.nld.get NReg.PWR_STATUS_level < 7) : NldDoes (.powerEvaluation watts tj) s fun n =>
      n.get NReg.PWR_STATUS_level = min 7 (s.nld.get NReg.PWR_STATUS_level + 1) ∧ n.get NReg.PWR_STATUS_cause = 1 ∧
      n.get NReg.PWR_STATUS_power_w = min watts 1023 ∧ n.get NReg.PWR_STATUS_tj_c = min tj 255 ∧
      n.bit NReg.PWR_STATUS_thr_event = true ∧ Nld.only [.regs, .pkg, .hwErr] s.nld n := by
  have hsense := s.nld.sensed_moves watts tj
  have hsame : (s.nld.sensed watts tj).get NReg.PWR_STATUS_level = s.nld.get NReg.PWR_STATUS_level := hsense.get
  have hup := (s.nld.sensed watts tj).throttleUp_moves 1 1 (hsame ▸ h)
  have hm : Nld.Moves [.regs, .pkg, .hwErr] (sensorFields ++ throttleFields) s.nld ((s.nld.sensed watts tj).throttleUp 1 1) :=
    hsense.mono.step hup
  have hrun : NReg.TICK_CTRL_run.clearOf (sensorFields ++ throttleFields) 0 := by decide
  obtain ⟨hlevel, hcause, hevt⟩ := (s.nld.sensed watts tj).throttleUp_shows 1 1 (hsame ▸ h) (by decide)
  obtain ⟨hwatts, htemp⟩ := s.nld.sensed_shows watts tj
  refine .of_onNld (fun n => n.powerEval watts tj) rfl hr ?_
  rw [s.nld.powerEval_above watts tj hw ht]
  exact ⟨(hm.after_get hrun).trans (hlevel.trans (by rw [hsame])), (hm.after_get hrun).trans hcause,
    (hm.after_get hrun).trans (hup.get.trans hwatts), (hm.after_get hrun).trans (hup.get.trans htemp), (hm.after_bit hrun).trans hevt,
    hm.after_only hrun⟩

variable (hw : watts * 100 < s.nld.powerLimit * 95) (ht : tj + 3 ≤ s.nld.throttleTemp)
include hw ht

theorem powerEval_calm_does (h : s.nld.pkg.calm < 99) : NldDoes (.powerEvaluation watts tj) s fun n =>
    n.get NReg.PWR_STATUS_level = s.nld.get NReg.PWR_STATUS_level ∧ n.pkg = { s.nld.pkg with calm := s.nld.pkg.calm + 1 } ∧
    Nld.only [.regs, .pkg] s.nld n ∧ Nld.regsOnly [(NReg.PWR_STATUS_power_w, 0), (NReg.PWR_STATUS_tj_c, 0)] s.nld n := by
  have hm : Nld.Moves [.regs, .pkg] sensorFields s.nld (s.nld.powerEval watts tj) := by
    rw [s.nld.powerEval_calm watts tj hw ht, if_neg (by omega)]
    exact (s.nld.sensed_moves watts tj).mono.step (Nld.withPkg_moves _ _)
  have hrun : NReg.TICK_CTRL_run.clearOf sensorFields 0 := by decide
  refine .of_onNld (fun n => n.powerEval watts tj) rfl hr
    ⟨(hm.after_get hrun).trans hm.get, ?_, hm.after_only hrun, (Nld.regsOnly_after (hm.bit hrun) _ _).2 hm.regsOnly⟩
  rw [hm.after_pkg hrun, s.nld.powerEval_calm watts tj hw ht, if_neg (by omega)]

theorem powerEval_falls_does (h : 99 ≤ s.nld.pkg.calm) (h7 : s.nld.get NReg.PWR_STATUS_level ≤ 7) :
    NldDoes (.powerEvaluation watts tj) s fun n =>
      n.get NReg.PWR_STATUS_level = s.nld.get NReg.PWR_STATUS_level - 1 ∧ n.pkg = { s.nld.pkg with calm := 0 } ∧
      Nld.only [.regs, .pkg] s.nld n := by
  have he := s.nld.powerEval_calm watts tj hw ht
  rw [if_pos (by omega)] at he
  have hm : Nld.Moves [.regs, .pkg] ((NReg.PWR_STATUS_level, 0) :: sensorFields) s.nld (s.nld.powerEval watts tj) := by
    rw [he]
    exact ((s.nld.sensed_moves watts tj).mono.step (Nld.put_moves _ _ _ 0)).step (Nld.withPkg_moves _ _)
  have hrun : NReg.TICK_CTRL_run.clearOf ((NReg.PWR_STATUS_level, 0) :: sensorFields) 0 := by decide
  refine .of_onNld (fun n => n.powerEval watts tj) rfl hr ⟨(hm.after_get hrun).trans ?_, ?_, hm.after_only hrun⟩
  · rw [he]
    exact (Nld.get_put_same _ _ _ _).trans (Nat.mod_eq_of_lt (show _ < 8 by omega))
  · rw [hm.after_pkg hrun, he]
    rfl

end

/-! ### The statement -/

/-- Settles O49: a stop is the same for each of its grounds, and what it takes Down stays Down; the loss of a port reference moves the
links of that reference alone; and the throttle level by what an evaluation finds. -/
theorem packagePower : Obligations.PackagePower := by
  unfold Obligations.PackagePower
  exact ⟨fun s hr => ⟨fun sensor temp => thermalTrip_does hr sensor temp, supplyTrip_does hr, sysRefLoss_does hr,
      fun hseen p => pllLoss_seen_does hr hseen p, pllLoss_unseen_does hr, fun r => ⟨referenceLoss_does hr r, referenceReturn_does hr r⟩,
      clearFault_does hr⟩,
    fun s hr => ⟨droop_does hr, droop_full_does hr, fun watts tj => ⟨powerEval_above_does hr, powerEval_calm_does hr,
      powerEval_falls_does hr⟩⟩⟩

end Sys2Proof.Machine
end

section
/-! SUPPORT. What a reset of Naloder leaves (R335, R655, R692, R694, R696): the registers kept over it, the power-up, and a package
reset. -/

namespace Sys2Proof.Machine

-- One theorem at a time: elaborated side by side, those of this text need more stacks than the check has memory for.
set_option Elab.async false

open Sys2Proof

/-! ### What follows a change that leaves tick running off -/

/-- No queue pairs are created, whatever tick running was before. -/
theorem Nld.after_only_of_halted {b n : Nld} (h : n.bit NReg.TICK_CTRL_run = false) : Nld.only [] n (Nld.after b n) := by
  obtain ⟨c, l, hlock⟩ : ∃ c l, n.lockCheck = { n with tick := { n.tick with crossed := c, everLocked := l } } := by
    unfold Nld.lockCheck
    simp only
    split
    · exact ⟨_, _, rfl⟩
    · exact ⟨n.tick.crossed, _, rfl⟩
  have hrun : Nld.runCheck b n.lockCheck = n.lockCheck := by
    have hbit : n.lockCheck.bit NReg.TICK_CTRL_run = false := by rw [hlock]; exact h
    rw [Nld.runCheck, hbit]
    exact if_neg fun h => Bool.false_ne_true h.1
  obtain ⟨r, p, o, hsettle, hr⟩ := Nld.settle_eq b n.lockCheck
  rw [Nld.after, hrun, hsettle, hlock]
  rw [hlock] at hr
  intro x _
  cases x with
  | regs => exact hr
  | log => exact ⟨rfl, rfl⟩
  | _ => rfl

/-! ### Registers kept over a reset (R692, R693) -/

/-- A field at a place of its own that no reset touches keeps its value. -/
theorem Nld.reborn_get_kept (n : Nld) {f : Fld} (hf : f ∈ keptFields) (hkeys : ∀ g ∈ keptFields, g.key 0 = f.key 0 → g = f) :
    n.reborn.get f = n.get f % 2 ^ f.width := Regs.get_setAll_mem hf hkeys (fun f => n.get f) []

/-- Every other field is at its reset value. -/
theorem Nld.reborn_get_reset (n : Nld) {f : Fld} (hf : ∀ g ∈ keptFields, f.key 0 ≠ g.key 0) : n.reborn.get f = f.reset 0 :=
  Regs.get_setAll_ne hf (fun f => n.get f) []

/-! ### nld_por_n (R335, R655, R694, R697) -/

theorem porAssert_does (s : State) : NldDoes .nldPorAssert s fun n =>
    n.pkg = { elapsed := s.nld.pkg.elapsed, porLow := true } ∧ n.bootStage = 0 ∧ n.chains = {} ∧ n.group = {} ∧ n.host = {} ∧
    n.sched = {} ∧ n.rdma = {} ∧ n.sec.keys = s.nld.sec.keys ∧ n.sec.identity = s.nld.sec.identity ∧
    n.recorder.slots = s.nld.recorder.slots ∧ n.recorder.queue = [] ∧
    n.get NReg.RST_CAUSE_last_fault = s.nld.get NReg.RST_CAUSE_last_fault % 2 ^ NReg.RST_CAUSE_last_fault.width ∧
    n.bit NReg.CLK_STATUS_ref_sys = false :=
  ⟨s.nld.porAssert, rfl, rfl, s.nld.reborn_get_reset (by decide), rfl, rfl, rfl, rfl, rfl, rfl, rfl, rfl, rfl,
    s.nld.reborn_get_kept (by decide) (by decide), Nld.bit_of_get_zero (s.nld.reborn_get_reset (by decide))⟩

/-- What shows the clock sources and the core PLLs. -/
def sourceFields : List Fld :=
  [NReg.CLK_STATUS_pll_io, NReg.CLK_STATUS_pll_cmp, NReg.CLK_STATUS_pll_hbm, NReg.CLK_STATUS_ref_sys, NReg.CLK_STATUS_ref_pcie,
   NReg.CLK_STATUS_ref_eth, NReg.CLK_STATUS_ref_horn, NReg.CLK_STATUS_ref_fife]

section
variable (n : Nld)

theorem Nld.clocksUp_eq : n.clocksUp = n.putAll sourceFields 1 := rfl

/-- The power cycle is counted, and the sequence number goes on past what was persisted. -/
def Nld.powerCycle (n : Nld) : Nld :=
  { n with pkg := { n.pkg with porLow := false, pllSeen := true },
           recorder := { n.recorder with cycles := (n.recorder.cycles + 1) % 2 ^ 32,
                                         nextSeq := n.recorder.nextSeq / 4096 * 4096 + 4096 } }

theorem Nld.porDeassert_low (h : n.pkg.porLow = true) : n.porDeassert = n.powerCycle.clocksUp.showKeys :=
  if_neg (not_not_intro h)

theorem Nld.porDeassert_high (h : n.pkg.porLow = false) : n.porDeassert = n := if_pos (by rw [h]; exact Bool.false_ne_true)

theorem Nld.withPkgRecorder_moves (p : NPkg) (r : NRecorder) : Nld.Moves [.pkg, .recorder] [] n { n with pkg := p, recorder := r } :=
  .of_only (fun x hx => by cases x <;> simp [Nld.same] at hx ⊢; exact fun _ _ _ => rfl) rfl

theorem Nld.powerCycle_moves : Nld.Moves [.pkg, .recorder] [] n n.powerCycle := n.withPkgRecorder_moves _ _

/-- The clock sources shown present, and the keys counted. -/
theorem Nld.clocksShown_moves : Nld.Moves [.regs] ((NReg.SEC_STATUS_keys, 0) :: sourceFields.map fun f => (f, 0)) n
    n.clocksUp.showKeys := by
  rw [Nld.clocksUp_eq]
  exact ((n.putAll_moves sourceFields 1).mono (fun _ h => h) fun _ => List.mem_cons_of_mem _).step (Nld.put_moves _ _ _ 0)

theorem Nld.clocksShown_refSys : n.clocksUp.showKeys.bit NReg.CLK_STATUS_ref_sys = true := by
  have hput : n.clocksUp.get NReg.CLK_STATUS_ref_sys = 1 := n.putAll_get (fs := sourceFields) (by decide) (by decide) 1
  exact Nld.bit_of_get_one (((n.clocksUp.put_moves _ _ 0).get).trans hput)

end

theorem nldPor_low_does {s : State} (h : s.nld.pkg.porLow = true) : NldDoes .nldPor s fun n =>
    n.pkg = { s.nld.pkg with porLow := false, pllSeen := true } ∧
    n.recorder.cycles = (s.nld.recorder.cycles + 1) % 2 ^ 32 ∧
    n.recorder.nextSeq = s.nld.recorder.nextSeq / 4096 * 4096 + 4096 ∧ n.bit NReg.CLK_STATUS_ref_sys = true ∧
    n.recorder.slots = s.nld.recorder.slots ∧ Nld.only [.regs, .pkg, .recorder] s.nld n := by
  have hcycle := s.nld.powerCycle_moves
  have hshow := s.nld.powerCycle.clocksShown_moves
  have hm : Nld.Moves [.regs, .pkg, .recorder] _ s.nld s.nld.powerCycle.clocksUp.showKeys :=
    (hcycle.mono (w := (NReg.SEC_STATUS_keys, 0) :: sourceFields.map fun f => (f, 0)) (by decide) (by simp)).step hshow
  have hrec : s.nld.powerCycle.clocksUp.showKeys.recorder = s.nld.powerCycle.recorder := hshow.only .recorder (by decide)
  refine ⟨_, rfl, ?_⟩
  rw [s.nld.porDeassert_low h]
  simp only [hrec]
  exact ⟨hshow.pkg, rfl, rfl, Nld.clocksShown_refSys _, rfl, hm.only⟩

theorem nldPor_high_does {s : State} (h : s.nld.pkg.porLow = false) : NldDoes .nldPor s fun n => Nld.only [] s.nld n := by
  refine ⟨_, rfl, ?_⟩
  rw [s.nld.porDeassert_high h]
  exact s.nld.only_refl []

/-! ### A package reset (R696) -/

/-- The fields that a package reset leaves beside those that no reset touches. -/
def resetKept : List Fld :=
  [NReg.CLK_STATUS_ref_pcie, NReg.CLK_STATUS_ref_eth, NReg.CLK_STATUS_ref_horn, NReg.CLK_STATUS_ref_fife, NReg.SEC_STATUS_opened,
   NReg.SEC_STATUS_puf_off, NReg.RST_CAUSE_pkg_resets]

/-- R696: a package in a package reset, before the reset is counted and shown. -/
def Nld.resetPackage (n : Nld) : Nld :=
  { n.reborn with
    regs := n.reborn.clocksUp.regs.setAll resetKept fun f => n.get f,
    pkg := { elapsed := n.elapsed, resetting := true, pllSeen := true }, host := { msix := n.host.msix },
    sec := { n.sec with held := [], down := false },
    recorder := { n.reborn.recorder with clear := n.recorder.clear, lost := n.recorder.lost } }

/-- An erasure that was under way goes on. -/
def Nld.showClearing (n : Nld) : Nld :=
  if n.recorder.clear.isSome then (n.put NReg.REC_STATUS_clearing 1).put NReg.REC_CLR_STAT_busy 1 else n

/-- The reset is counted and its cause shown. -/
def Nld.showReset (n : Nld) : Nld :=
  (((n.count NReg.RST_CAUSE_pkg_resets).put NReg.RST_CAUSE_by_cmd 1).put NReg.RST_CAUSE_por 0).showKeys

/-- The fields that show a package reset. -/
def resetFields : List (Fld × Nat) :=
  [(NReg.REC_STATUS_clearing, 0), (NReg.REC_CLR_STAT_busy, 0), (NReg.RST_CAUSE_pkg_resets, 0), (NReg.RST_CAUSE_by_cmd, 0),
   (NReg.RST_CAUSE_por, 0), (NReg.SEC_STATUS_keys, 0)]

section
variable (n : Nld)

theorem Nld.packageReset_eq (h14 : n.bootStage ≠ 14) (h15 : n.bootStage ≠ 15) :
    n.packageReset = n.resetPackage.showClearing.showReset := if_neg (not_or.2 ⟨h14, h15⟩)

theorem Nld.packageReset_refused (h : n.bootStage = 14 ∨ n.bootStage = 15) : n.packageReset = n.raise NReg.PKG_EVT_reset_refused :=
  if_pos h

theorem Nld.showReset_moves : Nld.Moves [.regs] resetFields n n.showReset :=
  (((n.count_moves _ 1 0).mono.step (Nld.put_moves _ _ _ 0)).step (Nld.put_moves _ _ _ 0)).step (Nld.put_moves _ _ _ 0)

theorem Nld.showClearing_moves : Nld.Moves [.regs] resetFields n n.showClearing :=
  .ite ((n.put_moves _ _ 0).mono.step (Nld.put_moves _ _ _ 0)) (.refl _ _ n)

theorem Nld.showReset_cause : n.showReset.get NReg.RST_CAUSE_by_cmd = 1 ∧ n.showReset.get NReg.RST_CAUSE_por = 0 := by
  constructor
  · rw [Nld.showReset, Nld.showKeys, (Nld.put_moves _ _ _ 0).get, (Nld.put_moves _ _ _ 0).get, Nld.get_put_same]
    rfl
  · rw [Nld.showReset, Nld.showKeys, (Nld.put_moves _ _ _ 0).get, Nld.get_put_same]
    rfl

/-- A field that is neither kept, nor shows a clock, is at its reset value. -/
theorem Nld.resetPackage_get {f : Fld} (hf : ∀ g ∈ keptFields ++ sourceFields ++ resetKept, f.key 0 ≠ g.key 0) :
    n.resetPackage.get f = f.reset 0 := by
  simp only [List.mem_append] at hf
  have hclocks : n.reborn.clocksUp.regs.get f = n.reborn.get f := by
    rw [Nld.clocksUp_eq, Nld.putAll_eq]
    exact Regs.get_setAll_ne (fun g hg => hf g (.inl (.inr hg))) (fun _ => 1) n.reborn.regs
  have hkept : n.resetPackage.get f = n.reborn.clocksUp.regs.get f  :=
    Regs.get_setAll_ne (fun g hg => hf g (.inr hg)) (fun f => n.get f) _
  rw [hkept, hclocks, n.reborn_get_reset fun g hg => hf g (.inl (.inl hg))]

end

theorem packageReset_refused_does {s : State} (hr : s.nld.runs) (hp : s.nld.pkg.resetting = false)
    (h : s.nld.bootStage = 14 ∨ s.nld.bootStage = 15) : NldDoes .packageReset s fun n =>
      n.bit NReg.PKG_EVT_reset_refused = true ∧ Nld.only [.regs, .hwErr] s.nld n := by
  have hm := s.nld.raise_moves NReg.PKG_EVT_reset_refused 1 0
  have hrun : NReg.TICK_CTRL_run.clearOf ((NReg.PKG_EVT_reset_refused, 0) :: errorRing) 0 := by decide
  refine .of_onNld (Nld.rstWrite Nld.packageReset) rfl hr ?_
  rw [Nld.rstWrite_taken hp, s.nld.packageReset_refused h]
  exact ⟨(hm.after_bit hrun).trans (Nld.bit_raise _ rfl (by decide) (by decide)), hm.after_only hrun⟩

theorem packageReset_does {s : State} (hr : s.nld.runs) (hp : s.nld.pkg.resetting = false) (h14 : s.nld.bootStage ≠ 14)
    (h15 : s.nld.bootStage ≠ 15) : NldDoes .packageReset s fun n =>
      n.pkg.resetting = true ∧ n.pkg.portsOn = false ∧ n.bootStage = 0 ∧ n.bit NReg.RST_CAUSE_by_cmd = true ∧
      n.bit NReg.RST_CAUSE_por = false ∧ n.chains = {} ∧ n.group = {} ∧ n.host.rings = [] ∧ n.host.msix = s.nld.host.msix ∧
      n.sched = {} ∧ n.rdma = {} ∧ n.sec.keys = s.nld.sec.keys ∧ n.recorder.slots = s.nld.recorder.slots ∧
      n.recorder.queue = [] := by
  have hm : Nld.Moves [.regs] resetFields s.nld.resetPackage s.nld.resetPackage.showClearing.showReset :=
    (Nld.showClearing_moves _).step (Nld.showReset_moves _) (fun _ h => h) fun _ h => h
  have hreset {f : Fld} (hf : f.clearOf resetFields 0) (hg : ∀ g ∈ keptFields ++ sourceFields ++ resetKept, f.key 0 ≠ g.key 0) :
      s.nld.resetPackage.showClearing.showReset.get f = f.reset 0 := (hm.get hf).trans (s.nld.resetPackage_get hg)
  obtain ⟨hcmd, hpor⟩ := s.nld.resetPackage.showClearing.showReset_cause
  have hafter := Nld.after_only_of_halted (b := s.nld) (Nld.bit_of_get_zero (hreset (f := NReg.TICK_CTRL_run) (by decide) (by decide)))
  have honly := Nld.only_trans hm.only (Nld.only_mono hafter (by simp))
  have hregs := hafter .regs (by decide)
  refine .of_onNld (Nld.rstWrite Nld.packageReset) rfl hr ?_
  rw [Nld.rstWrite_taken hp, s.nld.packageReset_eq h14 h15]
  generalize Nld.after s.nld s.nld.resetPackage.showClearing.showReset = n at honly hregs ⊢
  have hpkg : n.pkg = s.nld.resetPackage.pkg := honly .pkg (by decide)
  have hhost : { n.host with pba := s.nld.resetPackage.host.pba } = s.nld.resetPackage.host := honly .host (by decide)
  have hsec : n.sec = s.nld.resetPackage.sec := honly .sec (by decide)
  have hrec : n.recorder = s.nld.resetPackage.recorder := honly .recorder (by decide)
  exact ⟨by rw [hpkg]; rfl, by rw [hpkg]; rfl, (hregs _ 0 (by decide)).trans (hreset (by decide) (by decide)),
    Nld.bit_of_get_one ((hregs _ 0 (by decide)).trans hcmd), Nld.bit_of_get_zero ((hregs _ 0 (by decide)).trans hpor),
    honly .chains (by decide), honly .group (by decide), (congrArg NHost.rings hhost :), (congrArg NHost.msix hhost :),
    honly .sched (by decide), honly .rdma (by decide), by rw [hsec]; rfl, by rw [hrec]; rfl, by rw [hrec]; rfl⟩

end Sys2Proof.Machine
end

section
/-! SUPPORT. Boot stages 0 to 3 of Naloder (R335, R338, R657): what the end of a stage shows, and a stage that fails. -/

namespace Sys2Proof.Machine

-- One theorem at a time: elaborated side by side, those of this text need more stacks than the check has memory for.
set_option Elab.async false

open Sys2Proof

/-! ### What boot stage 0 leaves (R657, R661, R666) -/

/-- The fields that boot stage 0 may move. -/
def stage0Fields : List (Fld × Nat) :=
  [(NReg.REC_STATUS_torn, 0), (NReg.REC_NONCEw_nonce, 0), (NReg.REC_NONCEw_nonce, 1), (NReg.REC_NONCEw_nonce, 2),
   (NReg.REC_NONCEw_nonce, 3), (NReg.BOOT_STATUS_puf_ok, 0), (NReg.BOOT_STATUS_nv_ok, 0), (NReg.SEC_STATUS_provisioned, 0),
   (NReg.BOOT_STATUS_stage, 0)] ++ markFields

section
variable (n : Nld)

theorem Nld.withSec_moves (x : NSecurity) : Nld.Moves [.sec] [] n { n with sec := x } :=
  .of_only (fun p hp => by cases p <;> simp [Nld.same] at hp ⊢; exact fun _ _ _ => rfl) rfl

theorem Nld.recRepair_moves : Nld.Moves [.recorder] [] n n.recRepair.1 :=
  .foldl _ n fun m p _ => m.withRecorder_moves (m.recWrite p.1 emptyBody).recorder

theorem Nld.newNonce_moves : Nld.Moves [.regs, .sec] stage0Fields n n.newNonce := by
  have hmem : ∀ w ∈ List.range 4, (NReg.REC_NONCEw_nonce, w) ∈ stage0Fields := by decide
  exact ((n.withSec_moves _).mono).step (l' := [.regs]) (w' := stage0Fields) (.foldl _ _ fun m w hw => (m.put_moves _ _ w).mono
    (fun _ h => h) (List.forall_mem_singleton.2 (hmem w hw))) (by decide) fun _ h => h

/-- Torn slots are told of. -/
def Nld.tellTorn (n : Nld) (torn : Nat) : Nld := if torn = 0 then n else n.raise NReg.REC_STATUS_torn

/-- Test access opened since is told of. -/
def Nld.tellOpened (n : Nld) : Nld :=
  if n.recorder.recordedOpens < n.get NReg.SEC_OPENCNT_opened then
    ({ n with recorder := { n.recorder with recordedOpens := n.get NReg.SEC_OPENCNT_opened } }).submit 0x0101 4
      [n.get NReg.SEC_OPENCNT_opened]
  else n

/-- What boot stage 0 finds: torn slots repaired, its records submitted, a fresh nonce. -/
def Nld.stage0Found (n : Nld) : Nld :=
  (((n.recRepair.1.tellTorn n.recRepair.2).submit 0x0001 4 [n.recRepair.2]).tellOpened).newNonce

theorem Nld.stage0_eq : n.stage0 = (((n.stage0Found.put NReg.BOOT_STATUS_puf_ok 1).put NReg.BOOT_STATUS_nv_ok 1).showProvisioned).put
    NReg.BOOT_STATUS_stage 1 := rfl

theorem Nld.tellTorn_moves (torn : Nat) : Nld.Moves [.regs, .hwErr] ((NReg.REC_STATUS_torn, 0) :: errorRing) n (n.tellTorn torn) :=
  .ite (.refl _ _ n) (n.raise_moves _ 1 0)

theorem Nld.tellOpened_moves : Nld.Moves [.regs, .hwErr, .recorder] markFields n n.tellOpened :=
  .ite ((n.withRecorder_moves _).mono.step (Nld.submit_moves _ _ _ _) (fun _ h => h) fun _ h => h) (.refl _ _ n)

/-- The parts that boot stage 0 may move. -/
def stage0Parts : List NPart := [.regs, .hwErr, .recorder, .sec]

theorem Nld.stage0Found_moves : Nld.Moves stage0Parts stage0Fields n n.stage0Found :=
  (((n.recRepair_moves.mono.step (Nld.tellTorn_moves _ _)).step (Nld.submit_moves _ _ _ _)).step (Nld.tellOpened_moves _)).step
    (Nld.newNonce_moves _) (by decide) fun _ h => h

theorem Nld.stage0_moves : Nld.Moves stage0Parts stage0Fields n n.stage0 :=
  (((n.stage0Found_moves.step (Nld.put_moves _ _ _ 0)).step (Nld.put_moves _ _ _ 0)).step (Nld.put_moves _ _ _ 0)).step
    (Nld.put_moves _ _ _ 0)

theorem Nld.stage0_shows : n.stage0.get NReg.BOOT_STATUS_stage = 1 ∧ n.stage0.get NReg.BOOT_STATUS_puf_ok = 1 ∧
    n.stage0.get NReg.BOOT_STATUS_nv_ok = 1 := by
  rw [Nld.stage0_eq, Nld.showProvisioned]
  refine ⟨(Nld.get_put_same _ _ _ _).trans rfl, ?_, ?_⟩
  · rw [(Nld.put_moves _ _ _ 0).get, (Nld.put_moves _ _ _ 0).get, (Nld.put_moves _ _ _ 0).get, Nld.get_put_same]
    rfl
  · rw [(Nld.put_moves _ _ _ 0).get, (Nld.put_moves _ _ _ 0).get, Nld.get_put_same]
    rfl

/-! ### A stage that fails (R335, R338) -/

/-- The fields that a failed stage may move. -/
def failFields : List (Fld × Nat) := [(NReg.BOOT_STATUS_stage, 0), (NReg.BOOT_STATUS_fail_code, 0)] ++ markFields

theorem Nld.bootFail_moves (stage code : Nat) : Nld.Moves [.regs, .hwErr, .recorder] failFields n (n.bootFail stage code) :=
  ((n.put_moves _ _ 0).mono.step (Nld.put_moves _ _ _ 0)).step (Nld.submit_moves _ _ _ _)

theorem Nld.bootFail_shows {stage code : Nat} (hs : stage < 16) (hc : code < 256) :
    (n.bootFail stage code).get NReg.BOOT_STATUS_stage = stage ∧ (n.bootFail stage code).get NReg.BOOT_STATUS_fail_code = code := by
  constructor
  · rw [Nld.bootFail, (Nld.submit_moves _ _ _ _).get, (Nld.put_moves _ _ _ 0).get, Nld.get_put_same]
    exact Nat.mod_eq_of_lt hs
  · rw [Nld.bootFail, (Nld.submit_moves _ _ _ _).get, Nld.get_put_same]
    exact Nat.mod_eq_of_lt hc

/-! ### Where the end of a stage leads -/

theorem Nld.bootStarts_moves : Nld.Moves [.pkg] [] n n.bootStarts := n.withPkg_moves _

theorem Nld.stageEnds_ok_0 (h : n.bootStage = 0) (hp : n.bit NReg.SEC_STATUS_puf_off = false) :
    n.stageEnds .ok = n.bootStarts.stage0 :=
  (if_pos h).trans (if_neg fun hoff => Bool.false_ne_true (hp.symm.trans hoff))

theorem Nld.stageEnds_ok_off (h : n.bootStage = 0) (hp : n.bit NReg.SEC_STATUS_puf_off = true) :
    n.stageEnds .ok = n.bootStarts.bootFail 15 3 := (if_pos h).trans (if_pos hp)

variable {n}

theorem Nld.bootStage_ne {a b : Nat} (h : n.bootStage = a) (hab : a ≠ b := by decide) : ¬ n.bootStarts.bootStage = b :=
  fun hb => hab (h.symm.trans hb)

theorem Nld.stageEnds_ok_1 (h : n.bootStage = 1) :
    n.stageEnds .ok = (n.bootStarts.put NReg.BOOT_STATUS_hbm_ok 1).put NReg.BOOT_STATUS_stage 2 :=
  (if_neg (Nld.bootStage_ne h)).trans (if_pos h)

theorem Nld.stageEnds_ok_4 (h : n.bootStage = 4) : n.stageEnds .ok = n.bootStarts.stage4 :=
  (if_neg (Nld.bootStage_ne h)).trans ((if_neg (Nld.bootStage_ne h)).trans (if_pos h))

theorem Nld.stageEnds_failed_early (code : BitVec 8) (h : n.bootStage = 0 ∨ n.bootStage = 1) :
    n.stageEnds (.failed code) = n.bootStarts.bootFail 15 code.toNat := if_pos h

/-- Stages 2 and 3 end by a load; 5 and above are no stages that end. -/
theorem Nld.stageEnds_none (e : StageEnd) (h : n.bootStage = 2 ∨ n.bootStage = 3 ∨ 5 ≤ n.bootStage) : n.stageEnds e = n.bootStarts := by
  have h0 : ¬ n.bootStarts.bootStage = 0 := fun hb => by change n.bootStage = 0 at hb; omega
  have h1 : ¬ n.bootStarts.bootStage = 1 := fun hb => by change n.bootStage = 1 at hb; omega
  have h4 : ¬ n.bootStarts.bootStage = 4 := fun hb => by change n.bootStage = 4 at hb; omega
  cases e with
  | ok => exact (if_neg h0).trans ((if_neg h1).trans (if_neg h4))
  | failed code => exact (if_neg (not_or.2 ⟨h0, h1⟩)).trans (if_neg h4)

end

/-! ### The ends of stages 0 to 3 on a running Naloder -/

section
variable {s : State} (hr : s.nld.runs)
include hr

theorem bootStage_ok_0_does (h : s.nld.bootStage = 0) (hp : s.nld.bit NReg.SEC_STATUS_puf_off = false) :
    NldDoes (.bootStageComplete .ok) s fun n =>
      n.bootStage = 1 ∧ n.bit NReg.BOOT_STATUS_puf_ok = true ∧ n.bit NReg.BOOT_STATUS_nv_ok = true ∧
      n.pkg = { s.nld.pkg with resetting := false } ∧ Nld.only [.regs, .pkg, .hwErr, .recorder, .sec] s.nld n := by
  have hstage := s.nld.bootStarts.stage0_moves
  have hm : Nld.Moves [.regs, .pkg, .hwErr, .recorder, .sec] stage0Fields s.nld s.nld.bootStarts.stage0 :=
    s.nld.bootStarts_moves.mono.step hstage (by decide) fun _ h => h
  have hrun : NReg.TICK_CTRL_run.clearOf stage0Fields 0 := by decide
  obtain ⟨hone, hpuf, hnv⟩ := s.nld.bootStarts.stage0_shows
  refine .of_onNld (fun n => n.stageEnds .ok) rfl hr ?_
  rw [s.nld.stageEnds_ok_0 h hp]
  exact ⟨(hm.after_get hrun).trans hone, (hm.after_bit hrun).trans (Nld.bit_of_get_one hpuf),
    (hm.after_bit hrun).trans (Nld.bit_of_get_one hnv), (hm.after_pkg hrun).trans hstage.pkg, hm.after_only hrun⟩

/-- A command that ends a stage in a failure. -/
theorem NldDoes.of_bootFail {e : StageEnd} {code : Nat} (he : s.nld.stageEnds e = s.nld.bootStarts.bootFail 15 code) (hc : code < 256) :
    NldDoes (.bootStageComplete e) s fun n =>
      n.bootStage = 15 ∧ n.get NReg.BOOT_STATUS_fail_code = code ∧ Nld.only [.regs, .pkg, .hwErr, .recorder] s.nld n := by
  have hm : Nld.Moves [.regs, .pkg, .hwErr, .recorder] failFields s.nld (s.nld.bootStarts.bootFail 15 code) :=
    s.nld.bootStarts_moves.mono.step (Nld.bootFail_moves _ 15 code)
  have hrun : NReg.TICK_CTRL_run.clearOf failFields 0 := by decide
  obtain ⟨hstage, hcode⟩ := s.nld.bootStarts.bootFail_shows (stage := 15) (by decide) hc
  refine .of_onNld (fun n => n.stageEnds e) rfl hr ?_
  rw [he]
  exact ⟨(hm.after_get hrun).trans hstage, (hm.after_get hrun).trans hcode, hm.after_only hrun⟩

theorem bootStage_ok_1_does (h : s.nld.bootStage = 1) : NldDoes (.bootStageComplete .ok) s fun n =>
    n.bootStage = 2 ∧ n.bit NReg.BOOT_STATUS_hbm_ok = true ∧ Nld.only [.regs, .pkg] s.nld n ∧
    Nld.regsOnly [(NReg.BOOT_STATUS_stage, 0), (NReg.BOOT_STATUS_hbm_ok, 0)] s.nld n := by
  have hm : Nld.Moves [.regs, .pkg] [(NReg.BOOT_STATUS_stage, 0), (NReg.BOOT_STATUS_hbm_ok, 0)] s.nld
      ((s.nld.bootStarts.put NReg.BOOT_STATUS_hbm_ok 1).put NReg.BOOT_STATUS_stage 2) :=
    (s.nld.bootStarts_moves.mono.step (Nld.put_moves _ _ _ 0)).step (Nld.put_moves _ _ _ 0)
  have hrun : NReg.TICK_CTRL_run.clearOf [(NReg.BOOT_STATUS_stage, 0), (NReg.BOOT_STATUS_hbm_ok, 0)] 0 := by decide
  refine .of_onNld (fun n => n.stageEnds .ok) rfl hr ?_
  rw [Nld.stageEnds_ok_1 h]
  refine ⟨(hm.after_get hrun).trans ((Nld.get_put_same _ _ _ _).trans rfl), (hm.after_bit hrun).trans ?_, hm.after_only hrun,
    (Nld.regsOnly_after (hm.bit hrun) _ _).2 hm.regsOnly⟩
  rw [(Nld.put_moves _ _ _ 0).bit, Nld.bit_put_same]
  rfl

theorem bootStage_none_does (e : StageEnd) (h : s.nld.bootStage = 2 ∨ s.nld.bootStage = 3 ∨ 5 ≤ s.nld.bootStage) :
    NldDoes (.bootStageComplete e) s fun n => n.pkg = { s.nld.pkg with resetting := false } ∧ Nld.only [.pkg] s.nld n := by
  have hm := s.nld.bootStarts_moves
  refine .of_onNld (fun n => n.stageEnds e) rfl hr ?_
  rw [Nld.stageEnds_none e h]
  exact ⟨hm.after_pkg run_apart_nil, hm.after_only run_apart_nil⟩

end

end Sys2Proof.Machine
end

section
/-! SUPPORT. What the start of an image leaves alone, and the end of boot stage 4 (R335, R589, R630, R637, R639). -/

namespace Sys2Proof.Machine

-- One theorem at a time: elaborated side by side, those of this text need more stacks than the check has memory for.
set_option Elab.async false

open Sys2Proof

/-! ### The relation -/

/-- The fields that boot stage 4 sets, and NLD_TICK_CTRL.run. -/
def bootFields : List Fld :=
  [NReg.TICK_CTRL_run, NReg.BOOT_STATUS_stage, NReg.BOOT_STATUS_compute_on, NReg.FW_LOAD_STAT_restored, NReg.FW_STATUS_state]

/-- Between two Naloders the boot's fields, the package, the time domains and the recorder's slots have stayed. -/
structure Nld.Rests (a b : Nld) : Prop where
  get : ∀ f ∈ bootFields, b.get f = a.get f
  pkg : b.pkg = a.pkg
  doms : b.doms = a.doms
  slots : b.recorder.slots = a.recorder.slots

section
variable {a b c : Nld}

theorem Nld.Rests.refl (n : Nld) : Nld.Rests n n := ⟨fun _ _ => rfl, rfl, rfl, rfl⟩

theorem Nld.Rests.trans (h : Nld.Rests a b) (h' : Nld.Rests b c) : Nld.Rests a c :=
  ⟨fun f hf => (h'.get f hf).trans (h.get f hf), h'.pkg.trans h.pkg, h'.doms.trans h.doms, h'.slots.trans h.slots⟩

theorem Nld.Rests.ite {p : Prop} [Decidable p] (h : p → Nld.Rests a b) (h' : ¬ p → Nld.Rests a c) :
    Nld.Rests a (if p then b else c) := by
  split
  · exact h ‹_›
  · exact h' ‹_›

theorem Nld.Rests.foldl {α : Type} {f : Nld → α → Nld} (xs : List α) (n : Nld) (h : ∀ m, ∀ x ∈ xs, Nld.Rests m (f m x)) :
    Nld.Rests n (xs.foldl f n) :=
  List.foldlRecOn xs f (motive := Nld.Rests n) (.refl n) fun m hm x hx => hm.trans (h m x hx)

/-- A change of other parts. -/
theorem Nld.Rests.of_parts (hr : b.regs = a.regs) (hp : b.pkg = a.pkg) (hd : b.doms = a.doms)
    (hs : b.recorder.slots = a.recorder.slots) : Nld.Rests a b :=
  ⟨fun f _ => by rw [Nld.get, hr, Nld.get], hp, hd, hs⟩

theorem Nld.Moves.slots {l : List NPart} {w : List (Fld × Nat)} (h : Nld.Moves l w a b) (hr : NPart.recorder ∉ l := by decide) :
    b.recorder.slots = a.recorder.slots := congrArg NRecorder.slots (h.only .recorder hr)

theorem Nld.Rests.of_moves {l : List NPart} {w : List (Fld × Nat)} (h : Nld.Moves l w a b) (hf : ∀ f ∈ bootFields, f.clearOf w 0)
    (hp : NPart.pkg ∉ l := by decide) (hd : NPart.doms ∉ l := by decide) (hr : NPart.recorder ∉ l := by decide) : Nld.Rests a b :=
  ⟨fun f hm => h.get (hf f hm), h.pkg hp, h.only .doms hd, h.slots hr⟩

theorem Nld.Rests.of_wrote (h : Nld.Wrote a b) : Nld.Rests a b := .of_moves h.moves (by decide)

end

/-! ### Records, requests and completions (R637, R643, R656) -/

section
variable (n : Nld)

theorem Nld.submit_slots (type source : Nat) (items : List Nat) : (n.submit type source items).recorder.slots = n.recorder.slots := by
  unfold Nld.submit
  split
  · rfl
  · split
    · exact (n.recLose.raise_moves NReg.REC_STATUS_queue_full 1 0).slots
    · rfl

theorem Nld.submit_rests (type source : Nat) (items : List Nat) : Nld.Rests n (n.submit type source items) := by
  have hm := n.submit_moves type source items
  have hclear : ∀ f ∈ bootFields, f.clearOf markFields 0 := by decide
  exact ⟨fun f hf => hm.get (hclear f hf), hm.pkg, hm.only .doms (by decide), n.submit_slots type source items⟩

theorem Nld.flushStaged_rests : Nld.Rests n n.flushStaged :=
  (Nld.Rests.of_parts (a := n) (b := { n with recorder := { n.recorder with staged := [] } }) rfl rfl rfl rfl).trans
    (.foldl _ _ fun m e _ => m.submit_rests e.1 e.2.1 e.2.2)

theorem Nld.sendFife_rests (p : Nat) (m : Msg) : Nld.Rests n (n.sendFife p m) := .of_moves (n.sendFife_moves p m) (by decide)

theorem Nld.sendRequest_rests (q : PendReq) : Nld.Rests n (n.sendRequest q) := by
  unfold Nld.sendRequest
  split
  · exact .ite (fun _ => .foldl _ _ fun m a _ => m.sendFife_rests _ _) fun _ => n.sendFife_rests _ _
  · exact n.sendFife_rests _ _

theorem Nld.sendReg_rests (write : Bool) (addr issuer count offset : Nat) (words : List Word) (who : Requester) :
    Nld.Rests n (n.sendReg write addr issuer count offset words who) := .of_parts rfl rfl rfl rfl

/-- The journalled descriptors of a ring are marked as executed again. -/
def Nld.markAgain (n : Nld) (key : Nat) : Nld :=
  n.setRing key { n.ring key with held := (n.ring key).held.map fun d => if d.phase.isSome then { d with again := true } else d }

/-- The recorded completion of a descriptor is written, if it has one. -/
def Nld.writeRecorded (n : Nld) (key : Nat) (d : HeldDesc) : Nld :=
  match d.done with
  | some c => n.complete key d.slot c.status c.flags c.detail c.result
  | none => n

theorem Nld.writeRecorded_rests (key : Nat) (d : HeldDesc) : Nld.Rests n (n.writeRecorded key d) := by
  unfold Nld.writeRecorded
  split
  · exact .of_wrote (n.complete_wrote key _ _ _ _ _)
  · exact .refl n

theorem Nld.resumeHeld_rests : Nld.Rests n n.resumeHeld := by
  have hmark (xs : List Nat) (m : Nld) : Nld.Rests m (xs.foldl Nld.markAgain m) :=
    .foldl _ _ fun _ _ _ => .of_parts rfl rfl rfl rfl
  have hwrite (xs : List Nat) (m : Nld) :
      Nld.Rests m (xs.foldl (fun m key => (m.ring key).held.foldl (fun m d => m.writeRecorded key d) m) m) :=
    .foldl _ _ fun m key _ => .foldl _ _ fun m d _ => m.writeRecorded_rests key d
  have hsend (xs : List PendReq) (m : Nld) :
      Nld.Rests m (xs.foldl (fun m q => if q.who = .firmware then m else m.sendRequest q) m) :=
    .foldl _ _ fun m q _ => .ite (fun _ => .refl m) fun _ => m.sendRequest_rests q
  exact ((hmark _ n).trans (hwrite _ _)).trans (hsend _ _)

/-! ### The manifest (R630, R631) -/

/-- The fields that looking a position up may move. -/
def obsvFields : List (Fld × Nat) := (List.range 16).map fun w => (NReg.FW_OBSVw_obsv, w)

theorem Nld.setObsv_rests {pos : Nat} (hpos : pos < 512) (v : Bool) : Nld.Rests n (n.setObsv pos v) := by
  have hmem : (NReg.FW_OBSVw_obsv, pos / 32) ∈ obsvFields := List.mem_map.2 ⟨_, List.mem_range.2 (by omega), rfl⟩
  exact .of_moves ((n.put_moves _ _ (pos / 32)).mono (l := [.regs]) (w := obsvFields) (fun _ h => h)
    (List.forall_mem_singleton.2 hmem)) (by decide)

theorem Nld.readHalts_rests (pos : Nat) : Nld.Rests n (n.readHalts pos) :=
  (n.sendReg_rests _ _ _ _ _ _ _).trans (Nld.sendReg_rests _ _ _ _ _ _ _ _)

theorem Nld.firmwareWrite_rests (pos offset value : Nat) : Nld.Rests n (n.firmwareWrite pos offset value) :=
  n.sendReg_rests _ _ _ _ _ _ _

theorem Nld.zeroHalts_rests (pos offset count : Nat) : Nld.Rests n (n.zeroHalts pos offset count) := n.sendReg_rests _ _ _ _ _ _ _

theorem Nld.setUpObsv_rests (pos : Nat) : Nld.Rests n (n.setUpObsv pos) :=
  (((((n.firmwareWrite_rests _ _ _).trans (Nld.firmwareWrite_rests _ _ _ _)).trans (Nld.firmwareWrite_rests _ _ _ _)).trans
    (Nld.firmwareWrite_rests _ _ _ _)).trans (Nld.zeroHalts_rests _ _ _ _)).trans (Nld.zeroHalts_rests _ _ _ _)

theorem Nld.lookUp_rests {pos : Nat} (hpos : pos < 512) : Nld.Rests n (n.lookUp pos) := by
  unfold Nld.lookUp
  refine .ite (fun _ => .refl n) fun _ => .ite (fun _ => n.setObsv_rests hpos true) fun _ =>
    .ite (fun _ => n.setObsv_rests hpos false) fun _ => .ite (fun _ => ?_) fun _ => ?_
  · exact (n.setObsv_rests hpos true).trans (Nld.readHalts_rests _ pos)
  · exact ((n.setObsv_rests hpos true).trans (Nld.setUpObsv_rests _ pos)).trans (Nld.readHalts_rests _ pos)

theorem Nld.lookUpAll_rests : Nld.Rests n n.lookUpAll := .foldl _ _ fun m _ hpos => m.lookUp_rests (List.mem_range.1 hpos)

/-! ### The emulated window (R589, R590) -/

theorem bootFields_outside : ∀ f ∈ bootFields, f.key 0 / 32 < 0x20000 ∨ 0x40000 ≤ f.key 0 / 32 := by decide

/-- A plain write of a word leaves the fields of other words. -/
theorem Regs.get_writePlain_ne (r : Regs) {a i : Nat} {f : Fld} (h : f.key i / 32 ≠ a) (v : Nat) :
    (r.writePlain NReg.table a v).get f i = r.get f i := by
  refine List.foldlRecOn _ _ (motive := fun q : Regs => q.get f i = r.get f i) rfl fun q hq x hx => ?_
  have hne : f.key i ≠ x.1.key x.2 := fun he => h (by rw [he]; exact nldFields_key hx)
  split
  · rw [Regs.get_set_ne _ _ _ _ _ _ hne, hq]
  · exact hq

theorem Nld.setShare_rests (o units : Nat) : Nld.Rests n (n.setShare o units) :=
  .ite (fun _ => .of_parts rfl rfl rfl rfl) fun _ => .refl n

theorem Nld.applyEmulated_rests (fn a v : Nat) : Nld.Rests n (n.applyEmulated fn a v) := by
  unfold Nld.applyEmulated
  refine .ite (fun _ => .refl n) fun hout => .ite (fun _ => .ite (fun _ => .refl n) fun _ => ?_) fun _ =>
    .ite (fun _ => .ite (fun _ => .refl n) fun _ => n.setShare_rests _ _) fun _ => ?_
  · exact (Nld.Rests.of_moves (n.put_moves _ _ 0) (by decide)).trans (.of_parts rfl rfl rfl rfl)
  · refine ⟨fun f hf => Regs.get_writePlain_ne _ ?_ v, rfl, rfl, rfl⟩
    have := bootFields_outside f hf
    omega

theorem Nld.serveEmulated_rests : Nld.Rests n n.serveEmulated := by
  have hwrites (xs : List (Nat × Nat × Nat)) (m : Nld) : Nld.Rests m (xs.foldl (fun m w => m.applyEmulated w.1 w.2.1 w.2.2) m) :=
    .foldl _ _ fun m w _ => m.applyEmulated_rests _ _ _
  have hreads (xs : List (Nat × Nat)) (m : Nld) :
      Nld.Rests m (xs.foldl (fun m r => m.emit (.readData r.1 r.2 (m.emulatedValue r.1 r.2))) m) :=
    .foldl _ _ fun _ _ _ => .of_parts rfl rfl rfl rfl
  exact ((hwrites _ n).trans (hreads _ _)).trans (.of_parts rfl rfl rfl rfl)

/-! ### An image starts (R630, R636, R637, R643, R698) -/

/-- The fields that a change of the firmware state may move. -/
def fwStateFields : List (Fld × Nat) :=
  [(NReg.FW_STATUS_state, 0), (NReg.PKG_EVT_fw_state, 0)] ++ (List.range 16).map (fun p => (NReg.VF_EVT_fw_state, p)) ++ errorRing

/-- A new firmware state is told of. -/
def Nld.tellFwState (n : Nld) : Nld :=
  (List.range 16).foldl (fun n p => n.raise NReg.VF_EVT_fw_state 1 p) (n.raise NReg.PKG_EVT_fw_state)

theorem Nld.setFwState_eq (v : Nat) : n.setFwState v =
    if n.get NReg.FW_STATUS_state = v then n else (n.put NReg.FW_STATUS_state v).tellFwState := rfl

theorem Nld.tellFwState_moves : Nld.Moves [.regs, .hwErr] (fwStateFields.drop 1) n n.tellFwState := by
  have hmem : ∀ p ∈ List.range 16, ∀ x ∈ (NReg.VF_EVT_fw_state, p) :: errorRing, x ∈ fwStateFields.drop 1 := by decide
  exact ((n.raise_moves NReg.PKG_EVT_fw_state 1 0).mono).step
    (.foldl _ _ fun m p hp => (m.raise_moves _ 1 p).mono (fun _ h => h) (hmem p hp)) (fun _ h => h) fun _ h => h

theorem Nld.setFwState_moves (v : Nat) : Nld.Moves [.regs, .hwErr] fwStateFields n (n.setFwState v) :=
  .ite (.refl _ _ n) (((n.put_moves _ _ 0).mono).step (Nld.tellFwState_moves _) (fun _ h => h) fun _ => List.mem_of_mem_drop)

theorem Nld.setFwState_get {v : Nat} (hv : v < 4) : (n.setFwState v).get NReg.FW_STATUS_state = v := by
  rw [Nld.setFwState_eq]
  split
  next h => exact h
  next =>
    rw [(Nld.tellFwState_moves _).get, Nld.get_put_same]
    exact Nat.mod_eq_of_lt hv

/-- What an image does once it runs. -/
def Nld.imageRuns (n : Nld) : Nld := (n.resumeCmdIds.lookUpAll.flushStaged.resumeHeld).serveEmulated

theorem Nld.startImage_eq : n.startImage = ((n.setFw { n.fw with kicks := [] }).setFwState 1).imageRuns := rfl

theorem Nld.setFw_rests (x : NFw) : Nld.Rests n (n.setFw x) := .of_parts rfl rfl rfl rfl

theorem Nld.imageRuns_rests : Nld.Rests n n.imageRuns :=
  ((((n.setFw_rests _).trans (Nld.lookUpAll_rests _)).trans (Nld.flushStaged_rests _)).trans
    (Nld.resumeHeld_rests _)).trans (Nld.serveEmulated_rests _)

theorem Nld.startImage_fwState : n.startImage.get NReg.FW_STATUS_state = 1 := by
  rw [n.startImage_eq, (Nld.imageRuns_rests _).get _ (by decide)]
  exact Nld.setFwState_get _ (by decide)

/-- Beside the firmware state an image's start leaves alone what boot stage 4 sets. -/
theorem Nld.startImage_keeps : (∀ f ∈ bootFields.dropLast, n.startImage.get f = n.get f) ∧ n.startImage.pkg = n.pkg ∧
    n.startImage.doms = n.doms ∧ n.startImage.recorder.slots = n.recorder.slots := by
  have hclear : ∀ f ∈ bootFields.dropLast, f.clearOf fwStateFields 0 := by decide
  have hkicks := n.setFw_rests { n.fw with kicks := [] }
  rw [n.startImage_eq]
  generalize n.setFw { n.fw with kicks := [] } = m at hkicks
  have hstate := m.setFwState_moves 1
  have hrun := (m.setFwState 1).imageRuns_rests
  refine ⟨fun f hf => ?_, hrun.pkg.trans (hstate.pkg.trans hkicks.pkg), hrun.doms.trans ?_, hrun.slots.trans ?_⟩
  · have hmem := List.mem_of_mem_dropLast hf
    exact (hrun.get f hmem).trans ((hstate.get (hclear f hf)).trans (hkicks.get f hmem))
  · rw [hstate.only .doms (by decide), hkicks.doms]
  · rw [hstate.slots, hkicks.slots]

/-! ### Boot stage 4 (R335, R354, R627, R639) -/

theorem Nld.emptyConfig_rests : Nld.Rests n n.emptyConfig := by
  unfold Nld.emptyConfig
  refine Nld.Rests.trans ?_ (.of_moves (Nld.put_moves _ NReg.GRP_CFG_role 0 0) (by decide))
  exact .of_parts rfl rfl rfl rfl

theorem Nld.withSeries_rests (x : NSeries) : Nld.Rests n { n with series := x } := .of_parts rfl rfl rfl rfl

theorem Nld.commitPositions_rests : Nld.Rests n n.commitPositions :=
  .ite (fun _ => n.withSeries_rests _) fun _ => .of_moves (n.raise_moves NReg.SER_EVT_alloc_refused 1 0) (by decide)

theorem Nld.trackAtStart_rests : Nld.Rests n n.trackAtStart :=
  (n.withSeries_rests _).trans (Nld.commitPositions_rests _)

theorem Nld.setSec_rests (x : NSecurity) : Nld.Rests n (n.setSec x) := .of_parts rfl rfl rfl rfl

theorem Nld.raiseSvn_rests : Nld.Rests n n.raiseSvn := by
  unfold Nld.raiseSvn
  split
  · exact .ite (fun _ => (n.setSec_rests _).trans (Nld.submit_rests _ _ _ _)) fun _ => .refl n
  · exact .refl n

/-- The state from which the image starts: its configuration empty unless it reads the copy. -/
def Nld.stage4Config (n : Nld) : Nld := if n.copyReadable then n else n.emptyConfig

/-- The compute domain is up, the ports run, and the stage is told of. -/
def Nld.stage4Up (n : Nld) (restored : Bool) : Nld :=
  ((({ n.put NReg.BOOT_STATUS_compute_on 1 with pkg := { n.pkg with portsOn := true } } : Nld).put NReg.FW_LOAD_STAT_restored
    restored.toNat).put NReg.BOOT_STATUS_stage 5)

/-- The image has started; without a state copy it tracks every position. -/
def Nld.stage4Start (n : Nld) (restored : Bool) : Nld := if restored then n.startImage else n.startImage.trackAtStart

theorem Nld.stage4_eq : n.stage4 = ((n.stage4Config.stage4Up n.copyReadable).stage4Start n.copyReadable).commitCopy.raiseSvn := rfl

theorem Nld.stage4Config_rests : Nld.Rests n n.stage4Config := .ite (fun _ => .refl n) fun _ => n.emptyConfig_rests

theorem Nld.stage4End_rests (restored : Bool) : Nld.Rests n.startImage (n.stage4Start restored).commitCopy.raiseSvn :=
  have hstart : Nld.Rests n.startImage (n.stage4Start restored) := .ite (fun _ => .refl _) fun _ => Nld.trackAtStart_rests _
  (hstart.trans (Nld.setFw_rests _ _)).trans (Nld.raiseSvn_rests _)

/-- The fields that boot stage 4 sets itself. -/
def stage4Fields : List (Fld × Nat) :=
  [(NReg.BOOT_STATUS_compute_on, 0), (NReg.FW_LOAD_STAT_restored, 0), (NReg.BOOT_STATUS_stage, 0)]

theorem Nld.stage4Up_moves (restored : Bool) : Nld.Moves [.regs, .pkg] stage4Fields n (n.stage4Up restored) :=
  (((n.put_moves NReg.BOOT_STATUS_compute_on 1 0).mono.step (Nld.withPkg_moves _ _)).step (Nld.put_moves _ _ _ 0)).step
    (Nld.put_moves _ _ _ 0)

theorem Nld.stage4Up_shows (restored : Bool) : (n.stage4Up restored).get NReg.BOOT_STATUS_stage = 5 ∧
    (n.stage4Up restored).get NReg.BOOT_STATUS_compute_on = 1 ∧
    (n.stage4Up restored).get NReg.FW_LOAD_STAT_restored = restored.toNat ∧ (n.stage4Up restored).pkg.portsOn = true := by
  refine ⟨(Nld.get_put_same _ _ _ _).trans rfl, ?_, ?_, rfl⟩
  · rw [Nld.stage4Up, (Nld.put_moves _ _ _ 0).get, (Nld.put_moves _ _ _ 0).get, (Nld.withPkg_moves _ _).get, Nld.get_put_same]
    rfl
  · rw [Nld.stage4Up, (Nld.put_moves _ _ _ 0).get, Nld.get_put_same]
    cases restored <;> rfl

theorem Nld.stage4_shows : n.stage4.get NReg.BOOT_STATUS_stage = 5 ∧ n.stage4.get NReg.BOOT_STATUS_compute_on = 1 ∧
    n.stage4.pkg.portsOn = true ∧ n.stage4.get NReg.FW_STATUS_state = 1 ∧
    n.stage4.get NReg.FW_LOAD_STAT_restored = n.copyReadable.toNat ∧ n.stage4.doms = n.doms ∧
    n.stage4.recorder.slots = n.recorder.slots ∧ n.stage4.get NReg.TICK_CTRL_run = n.get NReg.TICK_CTRL_run := by
  have hcfg := n.stage4Config_rests
  have hup := n.stage4Config.stage4Up_moves n.copyReadable
  obtain ⟨hstage, hon, hrestored, hports⟩ := n.stage4Config.stage4Up_shows n.copyReadable
  obtain ⟨hget, hpkg, hdoms, hslots⟩ := (n.stage4Config.stage4Up n.copyReadable).startImage_keeps
  have hend := (n.stage4Config.stage4Up n.copyReadable).stage4End_rests n.copyReadable
  rw [← n.stage4_eq] at hend
  have hfield (f : Fld) (hf : f ∈ bootFields.dropLast := by decide) :
      n.stage4.get f = (n.stage4Config.stage4Up n.copyReadable).get f :=
    (hend.get f (List.mem_of_mem_dropLast hf)).trans (hget f hf)
  refine ⟨(hfield _).trans hstage, (hfield _).trans hon, ?_, ?_, (hfield _).trans hrestored, ?_, ?_, ?_⟩
  · rw [hend.pkg, hpkg, hports]
  · rw [hend.get _ (by decide), Nld.startImage_fwState]
  · rw [hend.doms, hdoms, hup.only .doms (by decide), hcfg.doms]
  · rw [hend.slots, hslots, hup.slots, hcfg.slots]
  · rw [hfield _, hup.get, hcfg.get _ (by decide)]

end

/-- A field that holds a bit shows it. -/
theorem Nld.bit_of_get_toNat {n : Nld} {f : Fld} {i : Nat} {v : Bool} (h : n.get f i = v.toNat) : n.bit f i = v := by
  cases v
  · exact Nld.bit_of_get_zero h
  · exact Nld.bit_of_get_one h

theorem bootStage_ok_4_does {s : State} (hr : s.nld.runs) (h : s.nld.bootStage = 4) : NldDoes (.bootStageComplete .ok) s fun n =>
    n.bootStage = 5 ∧ n.bit NReg.BOOT_STATUS_compute_on = true ∧ n.pkg.portsOn = true ∧ n.get NReg.FW_STATUS_state = 1 ∧
    n.bit NReg.FW_LOAD_STAT_restored = s.nld.copyReadable ∧ n.doms = s.nld.doms ∧ n.recorder.slots = s.nld.recorder.slots := by
  obtain ⟨hstage, hon, hports, hstate, hrestored, hdoms, hslots, hrun⟩ := s.nld.bootStarts.stage4_shows
  have hbit : s.nld.bootStarts.stage4.bit NReg.TICK_CTRL_run = s.nld.bit NReg.TICK_CTRL_run := Nld.bit_congr hrun
  have hafter (f : Fld) (hf : f.key 0 ≠ NReg.IRQ_PEND_pend.key 0 := by decide) := Nld.after_get hbit f 0 hf
  refine .of_onNld (fun n => n.stageEnds .ok) rfl hr ?_
  rw [Nld.stageEnds_ok_4 h]
  refine ⟨(hafter _).trans hstage, Nld.bit_of_get_one ((hafter _).trans hon), ?_, (hafter _).trans hstate, ?_, ?_, ?_⟩
  · rw [Nld.after_pkg hbit, hports]
  · exact (Nld.bit_congr (hafter _)).trans (Nld.bit_of_get_toNat hrestored)
  · exact (Nld.after_doms hbit).trans hdoms
  · exact (congrArg NRecorder.slots (Nld.after_recorder hbit)).trans hslots

end Sys2Proof.Machine
end

section
/-! SUPPORT. A reset of Naloder's PCIe port (R561, R565, R692), and the statement on power-up, boot and resets. -/

namespace Sys2Proof.Machine

-- One theorem at a time: elaborated side by side, those of this text need more stacks than the check has memory for.
set_option Elab.async false

open Sys2Proof

/-! ### The registers of a block of addresses -/

section
variable (n : Nld)

theorem Nld.resetRange_get {lo hi : Nat} {f : Fld} {i : Nat} (h : f.key i / 32 < lo ∨ hi ≤ f.key i / 32) :
    (n.resetRange lo hi).get f i = n.get f i := by
  have hout : (!(decide (lo ≤ f.key i / 32) && decide (f.key i / 32 < hi))) = true := by
    simp only [Bool.not_eq_true', Bool.and_eq_false_iff, decide_eq_false_iff_not]
    omega
  exact (Tbl.get_filter_key (f.reset i) (f.key i) (fun k => !(decide (lo ≤ k / 32) && decide (k / 32 < hi))) n.regs).trans
    (if_pos hout)

theorem Nld.withRegs_only (r : Regs) : Nld.only [.regs] n { n with regs := r } := by
  intro p hp
  cases p <;> simp [Nld.same] at hp ⊢

theorem Nld.resetRange_only (lo hi : Nat) : Nld.only [.regs] n (n.resetRange lo hi) := n.withRegs_only _

/-! ### One function reset (R565, R692) -/

/-- The registers of a function's queue engine, and its interrupt or partition registers, return to their reset values. -/
def Nld.flrRegs (n : Nld) (fn : Nat) : Nld :=
  if fn = 0 then (n.resetRange 0x40000 0x40030).resetRange 0x340004 0x34000C
  else (n.resetRange (0x1000000 + 0x10000 * fn) (0x1000030 + 0x10000 * fn)).resetRange (0x1001020 + 0x10000 * fn)
    (0x1001028 + 0x10000 * fn)

/-- A ring's entry after a reset of a function: one that is the function's is stopped. -/
def flrRing (fn : Nat) (e : Nat × RingRt) : Nat × RingRt := if e.1 / 32 == fn then (e.1, { restarted := true }) else e

/-- The rings that a reset of a function leaves. -/
def flrRings (fn : Nat) (rings : Tbl RingRt) : Tbl RingRt :=
  (rings.filter fun e => !(e.1 / 32 == fn) || e.2.restarted).map (flrRing fn)

/-- A function reset sets the rings so, and moves no part but the host engine and the registers. -/
theorem Nld.flr_eq (fn : Nat) : ∃ h : NHost, h.rings = flrRings fn n.host.rings ∧ n.flr fn = ({ n with host := h }).flrRegs fn :=
  ⟨_, rfl, rfl⟩

theorem Nld.flrRegs_only (fn : Nat) : Nld.only [.regs] n (n.flrRegs fn) := by
  unfold Nld.flrRegs
  split
  · exact Nld.only_trans (n.resetRange_only _ _) (Nld.resetRange_only _ _ _)
  · exact Nld.only_trans (n.resetRange_only _ _) (Nld.resetRange_only _ _ _)

theorem Nld.flrRegs_host (fn : Nat) : (n.flrRegs fn).host = n.host := by
  unfold Nld.flrRegs
  split <;> rfl

theorem Nld.flrRegs_run (fn : Nat) : (n.flrRegs fn).get NReg.TICK_CTRL_run = n.get NReg.TICK_CTRL_run := by
  have haddr : NReg.TICK_CTRL_run.key 0 / 32 = 0xC8000 := rfl
  unfold Nld.flrRegs
  split
  · rw [Nld.resetRange_get _ (by omega), n.resetRange_get (by omega)]
  · rw [Nld.resetRange_get _ (by omega), n.resetRange_get (by omega)]

theorem Nld.flr_only (fn : Nat) : Nld.only [.regs, .host] n (n.flr fn) := by
  obtain ⟨h, -, e⟩ := n.flr_eq fn
  rw [e]
  exact Nld.only_trans (Nld.only_mono (n.withHost_moves h n.out).only (by decide)) (Nld.only_mono (Nld.flrRegs_only _ fn) (by decide))

theorem Nld.flr_run (fn : Nat) : (n.flr fn).get NReg.TICK_CTRL_run = n.get NReg.TICK_CTRL_run := by
  obtain ⟨h, -, e⟩ := n.flr_eq fn
  rw [e, Nld.flrRegs_run]
  rfl

theorem Nld.flr_rings (fn : Nat) : (n.flr fn).host.rings = flrRings fn n.host.rings := by
  obtain ⟨h, hr, e⟩ := n.flr_eq fn
  rw [e, Nld.flrRegs_host, ← hr]

/-! ### The rings of a function -/

/-- A ring that neither runs nor holds a descriptor. -/
def RingRt.halted (r : RingRt) : Prop := r.enabled = false ∧ r.held = []

/-- Every ring of a function is halted. -/
def Nld.ringsHalted (n : Nld) (fn : Nat) : Prop := ∀ e ∈ n.host.rings, e.1 / 32 = fn → e.2.halted

theorem Tbl.get_default_or_mem {β : Type} (d : β) (k : Nat) (t : Tbl β) : Tbl.get d k t = d ∨ (k, Tbl.get d k t) ∈ t := by
  induction t with
  | nil => exact .inl rfl
  | cons e t ih =>
    obtain ⟨j, v⟩ := e
    rw [Tbl.get_cons]
    split
    next h => exact .inr (h ▸ List.mem_cons_self)
    next => exact ih.imp_right (List.mem_cons_of_mem _)

theorem Nld.ringsHalted_ring {n : Nld} {key : Nat} (h : n.ringsHalted (key / 32)) : (n.ring key).halted := by
  obtain hd | hm := Tbl.get_default_or_mem ({} : RingRt) key n.host.rings
  · rw [Nld.ring, hd]
    exact ⟨rfl, rfl⟩
  · exact h _ hm rfl

theorem flrRing_cases (fn : Nat) (e : Nat × RingRt) :
    flrRing fn e = (e.1, { restarted := true }) ∨ (flrRing fn e = e ∧ e.1 / 32 ≠ fn) := by
  unfold flrRing
  split
  · exact .inl rfl
  next h => exact .inr ⟨rfl, by simpa using h⟩

theorem Nld.flr_halts (fn : Nat) : (n.flr fn).ringsHalted fn := by
  intro e he hfn
  rw [n.flr_rings] at he
  obtain ⟨x, -, rfl⟩ := List.mem_map.1 he
  obtain h | ⟨h, hne⟩ := flrRing_cases fn x
  · rw [h]
    exact ⟨rfl, rfl⟩
  · exact absurd (h ▸ hfn) hne

theorem Nld.flr_keepsHalted {n : Nld} {g : Nat} (fn : Nat) (h : n.ringsHalted g) : (n.flr fn).ringsHalted g := by
  intro e he hg
  rw [n.flr_rings] at he
  obtain ⟨x, hx, rfl⟩ := List.mem_map.1 he
  obtain hx' | ⟨hx', -⟩ := flrRing_cases fn x
  · rw [hx']
    exact ⟨rfl, rfl⟩
  · rw [hx'] at hg ⊢
    exact h x (List.mem_of_mem_filter hx) hg

/-! ### All functions -/

/-- Every function is reset. -/
def Nld.flrAll (n : Nld) : Nld := (List.range 17).foldl Nld.flr n

theorem Nld.pcieReset_eq : n.pcieReset = { n.flrAll with host := { n.flrAll.host with reads := [], writes := [] } } := rfl

theorem Nld.pcieReset_moves : Nld.Moves [.host] [] n.flrAll n.pcieReset := Nld.withHost_moves _ _ _

theorem Nld.flrAll_halts : ∀ fn ∈ List.range 17, n.flrAll.ringsHalted fn :=
  foldl_forall_mem (P := Nld.ringsHalted) (fun m fn => m.flr_halts fn) (fun _ fn _ h => Nld.flr_keepsHalted fn h) _ n

theorem Nld.flrAll_only : Nld.only [.regs, .host] n n.flrAll :=
  List.foldlRecOn _ Nld.flr (motive := Nld.only [.regs, .host] n) (n.only_refl _) fun m hm fn _ => Nld.only_trans hm (m.flr_only fn)

theorem Nld.flrAll_run : n.flrAll.get NReg.TICK_CTRL_run = n.get NReg.TICK_CTRL_run :=
  List.foldlRecOn _ Nld.flr (motive := fun m : Nld => m.get NReg.TICK_CTRL_run = n.get NReg.TICK_CTRL_run) rfl fun m hm fn _ =>
    (m.flr_run fn).trans hm

end

theorem pcieReset_does {s : State} (hr : s.nld.runs) : NldDoes .pcieReset s fun n =>
    (∀ key, key / 32 < 17 → (n.ring key).enabled = false ∧ (n.ring key).held = []) ∧ n.host.reads = [] ∧ n.host.writes = [] ∧
    Nld.only [.regs, .host] s.nld n := by
  have hend := s.nld.pcieReset_moves
  have hrun : s.nld.pcieReset.bit NReg.TICK_CTRL_run = s.nld.bit NReg.TICK_CTRL_run :=
    Nld.bit_congr (hend.get.trans s.nld.flrAll_run)
  have honly : Nld.only [.regs, .host] s.nld s.nld.pcieReset :=
    Nld.only_trans s.nld.flrAll_only (Nld.only_mono hend.only (by decide))
  obtain ⟨p, hp⟩ := Nld.after_host hrun
  have hring (key : Nat) : (Nld.after s.nld s.nld.pcieReset).ring key = s.nld.flrAll.ring key :=
    Nld.ring_of_rings (by rw [hp, s.nld.pcieReset_eq]) key
  refine .of_onNld Nld.pcieReset rfl hr ⟨fun key hkey => ?_, ?_, ?_, (Nld.only_after hrun _ _).2 honly⟩
  · rw [hring]
    exact Nld.ringsHalted_ring (s.nld.flrAll_halts _ (List.mem_range.2 hkey))
  · rw [hp, s.nld.pcieReset_eq]
  · rw [hp, s.nld.pcieReset_eq]

/-! ### The statement -/

/-- Settles O50: each clause is a lemma about one reset or about the end of one boot stage. -/
theorem packageBoot : Obligations.PackageBoot := by
  unfold Obligations.PackageBoot
  refine ⟨porAssert_does, fun s => ⟨nldPor_low_does, nldPor_high_does⟩,
    fun s hr hp => ⟨packageReset_refused_does hr hp, packageReset_does hr hp⟩, fun s hr => ?_, fun s hr => pcieReset_does hr⟩
  refine ⟨bootStage_ok_0_does hr, fun h hp => ?_, bootStage_ok_1_does hr, bootStage_ok_4_does hr, fun code h => ?_,
    bootStage_none_does hr⟩
  · exact .of_bootFail hr (s.nld.stageEnds_ok_off h hp) (by decide)
  · exact .of_bootFail hr (Nld.stageEnds_failed_early code h) code.isLt

end Sys2Proof.Machine
end

section
/-! SUPPORT. A command that firmware executes from a command ring (R562, R577, R633, R635): its turn, its completion, and what it leaves. -/

namespace Sys2Proof.Machine

-- One theorem at a time: elaborated side by side, those of this text need more stacks than the check has memory for.
set_option Elab.async false

open Sys2Proof

/-- Firmware executes the descriptor whose turn it is, and writes a state copy. -/
theorem Nld.onDesc_turn {n : Nld} {h : DescHdr} (ht : n.turn h) (op : Nat) (f : Nld → Nld) :
    n.onDesc h op f = Nld.flushUnknown h.key 16 (f n).commitCopy := by
  obtain ⟨htype, hnext, hfw, hhold, -⟩ := ht
  unfold Nld.onDesc
  rw [Nld.present_held (Nld.isNext_held hnext).1 op]
  exact if_pos ⟨htype, hnext, hfw, by rw [hhold]; exact Bool.false_ne_true⟩

section
variable (n : Nld)

theorem Nld.withFw_moves (x : NFw) : Nld.Moves [.fw] [] n { n with fw := x } :=
  .of_only (fun p hp => by cases p <;> simp [Nld.same] at hp ⊢; exact fun _ _ _ => rfl) rfl

theorem Nld.withSched_moves (x : NSched) : Nld.Moves [.sched] [] n { n with sched := x } :=
  .of_only (fun p hp => by cases p <;> simp [Nld.same] at hp ⊢; exact fun _ _ _ => rfl) rfl

theorem Nld.commitCopy_moves : Nld.Moves [.fw] [] n n.commitCopy := n.withFw_moves _

end

/-- A part that is as it was need not be named among those that moved. -/
theorem Nld.Moves.drop {l : List NPart} {w : List (Fld × Nat)} {a b : Nld} {p : NPart} (h : Nld.Moves (p :: l) w a b)
    (hp : Nld.same a b p) : Nld.Moves l w a b := by
  refine ⟨fun q hq => ?_, h.regsOnly⟩
  by_cases hqp : q = p
  · exact hqp ▸ hp
  · exact h.only q (by simp [hqp, hq])

/-- A command that prepares a state `m` without touching its ring, and completes its descriptor from there. -/
theorem NldDoes.of_executed {c : Instr} {s : State} {P : Nld → Prop} {h : DescHdr} {op st detail flags : Nat} {result : List Byte}
    {f : Nld → Nld} {l : List NPart} {w : List (Fld × Nat)} (m : Nld) (hc : exec c s = onNld (fun n => n.onDesc h op f) s)
    (hr : s.nld.runs) (ht : s.nld.turn h) (hf : f s.nld = m.done h st detail result flags) (hm : Nld.Moves l w s.nld m)
    (hrun : NReg.TICK_CTRL_run.clearOf w 0) (hring : m.ring h.key = s.nld.ring h.key) (hout : ∃ o, m.out = s.nld.out ++ o)
    (hst : st < 256)
    (hP : ∀ n, s.nld.completes n h.key h.slot st → (∃ r p, n.host = { m.host with rings := r, pba := p }) →
      Nld.only [.host, .fw] m n → Nld.only (.host :: .fw :: l) s.nld n → P n) : NldDoes c s P := by
  obtain ⟨-, hnext, -, -, herr⟩ := id ht
  have hdone := m.complete_wrote h.key h.slot st flags detail result
  have hflush := (m.done h st detail result flags).commitCopy.flushUnknown_wrote h.key 16
  have hmoves : Nld.Moves [.host, .fw] [] m (Nld.flushUnknown h.key 16 (m.done h st detail result flags).commitCopy) :=
    (hdone.moves.mono.step (Nld.commitCopy_moves _)).step hflush.moves
  have hbit : (Nld.flushUnknown h.key 16 (m.done h st detail result flags).commitCopy).bit NReg.TICK_CTRL_run =
      s.nld.bit NReg.TICK_CTRL_run := hmoves.bit.trans (hm.bit hrun)
  have hcompletes : s.nld.completes (m.done h st detail result flags) h.key h.slot st :=
    (m.complete_completes h.key h.slot st flags detail result (hring ▸ herr) (hring ▸ (Nld.isNext_held hnext).2) hst).prepend
      hring hout
  have hcopied : s.nld.completes (m.done h st detail result flags).commitCopy h.key h.slot st :=
    hcompletes.append (fun _ hd => hd) ⟨[], (List.append_nil _).symm⟩
  have honly := (Nld.only_after hbit [.host, .fw] m).2 hmoves.only
  refine .of_onNld _ hc hr ?_
  rw [Nld.onDesc_turn ht, hf]
  refine hP _ ((hcopied.wrote hflush).after hbit) ?_ honly
    (Nld.only_trans (Nld.only_mono hm.only fun _ hp => .tail _ (.tail _ hp)) (Nld.only_mono honly ?_))
  · obtain ⟨r, p, hhost⟩ := hdone.host
    obtain ⟨r', p', hhost'⟩ := hflush.host
    obtain ⟨q, hq⟩ := Nld.after_host hbit
    exact ⟨r', q, by rw [hq, hhost', show (m.done h st detail result flags).commitCopy.host = _ from hhost]⟩
  · rintro x hx
    simp only [List.mem_cons, List.not_mem_nil, or_false] at hx ⊢
    exact hx.imp_right .inl

section
variable {c : Instr} {s : State} {h : DescHdr} {op st detail flags : Nat} {result : List Byte} {f : Nld → Nld}
  (hc : exec c s = onNld (fun n => n.onDesc h op f) s) (hr : s.nld.runs) (ht : s.nld.turn h)
include hc hr ht

/-- A command that only completes its descriptor. -/
theorem NldDoes.of_answered (hf : f s.nld = s.nld.done h st detail result flags) (hst : st < 256) : NldDoes c s fun n =>
    s.nld.completes n h.key h.slot st ∧ Nld.only [.host, .fw] s.nld n :=
  .of_executed s.nld hc hr ht hf (.refl [] [] _) run_apart_nil rfl ⟨[], (List.append_nil _).symm⟩ hst fun _ hdone _ honly _ =>
    ⟨hdone, honly⟩

/-- A command that sets the series part, and completes with status 0. -/
theorem NldDoes.of_executedSeries (x : NSeries) (hf : f s.nld = ({ s.nld with series := x }).done h 0 detail result flags) :
    NldDoes c s fun n => s.nld.completes n h.key h.slot 0 ∧ n.series = x ∧ Nld.only [.series, .host, .fw] s.nld n :=
  .of_executed _ hc hr ht hf (s.nld.withSeries_moves x) run_apart_nil rfl ⟨[], (List.append_nil _).symm⟩ (by decide)
    fun _ hdone _ hm honly => ⟨hdone, hm .series (by decide), Nld.only_mono honly (by decide)⟩

/-- A command that sets the scheduler's part, and completes with status 0. -/
theorem NldDoes.of_executedSched (x : NSched) (hf : f s.nld = ({ s.nld with sched := x }).done h 0 detail result flags) :
    NldDoes c s fun n => s.nld.completes n h.key h.slot 0 ∧ n.sched = x ∧ Nld.only [.host, .sched, .fw] s.nld n :=
  .of_executed _ hc hr ht hf (s.nld.withSched_moves x) run_apart_nil rfl ⟨[], (List.append_nil _).symm⟩ (by decide)
    fun _ hdone _ hm honly => ⟨hdone, hm .sched (by decide), Nld.only_mono honly (by decide)⟩

end

end Sys2Proof.Machine
end

section
/-! SUPPORT. The host's commands for model programs and series (R327, R353, R354, R361, R444, R445, R577, R579), and the statement on
them. -/

namespace Sys2Proof.Machine

-- One theorem at a time: elaborated side by side, those of this text need more stacks than the check has memory for.
set_option Elab.async false

open Sys2Proof

/-! ### LOAD (R325, R327) -/

/-- Bytes written one after another from an address. -/
def writeBytes (o : Nat) (l : List (Byte × Nat)) (t : Tbl Nat) : Tbl Nat :=
  l.foldl (fun (t : Tbl Nat) b => Tbl.set 0 (o + b.2) b.1.toNat t) t

theorem get_writeBytes_outside (o : Nat) (bs : List Byte) (k : Nat) (t : Tbl Nat) {a : Nat} (ha : a < o + k ∨ o + k + bs.length ≤ a) :
    Tbl.get 0 a (writeBytes o (bs.zipIdx k) t) = Tbl.get 0 a t := by
  induction bs generalizing k t with
  | nil => rfl
  | cons b bs ih =>
    rw [List.length_cons] at ha
    exact (ih (k + 1) _ (by omega)).trans (Tbl.get_set_ne _ _ (by omega) _ _)

theorem get_writeBytes_inside (o : Nat) (bs : List Byte) (k : Nat) (t : Tbl Nat) {j : Nat} (hj : j < bs.length) :
    Tbl.get 0 (o + k + j) (writeBytes o (bs.zipIdx k) t) = (bs.getD j 0).toNat := by
  induction bs generalizing k t j with
  | nil => exact absurd hj (Nat.not_lt_zero j)
  | cons b bs ih =>
    cases j with
    | zero => exact (get_writeBytes_outside o bs (k + 1) _ (by omega)).trans (Tbl.get_set_same _ _ _ _)
    | succ j =>
      rw [show o + k + (j + 1) = o + (k + 1) + j by omega]
      exact ih (k + 1) _ (Nat.lt_of_succ_lt_succ hj)

/-- The model pool after a buffer's bytes have been copied into it. -/
def Nld.fillPool (n : Nld) (o : Nat) (bs : List Byte) : Nld :=
  { n with sched := { n.sched with pool := writeBytes o bs.zipIdx n.sched.pool } }

theorem Nld.fillPool_moves (n : Nld) (o : Nat) (bs : List Byte) : Nld.Moves [.sched] [] n (n.fillPool o bs) := n.withSched_moves _

theorem Nld.unmark_moves (n : Nld) (at_ len : Nat) : Nld.Moves [.regs, .pkg] [(NReg.HBM_MARKED_granules, 0)] n (n.unmark at_ len) :=
  .ite ((n.withPkg_moves _).mono.step (Nld.put_moves _ _ _ 0)) (.refl _ _ n)

theorem Nld.unmark_host_out (n : Nld) (at_ len : Nat) : (n.unmark at_ len).host = n.host ∧ (n.unmark at_ len).out = n.out := by
  unfold Nld.unmark
  simp only
  split <;> exact ⟨rfl, rfl⟩

/-! ### WITHDRAW and ADMIT (R444, R445) -/

theorem Nld.withdraw_found {n : Nld} {o im : Nat} (h : ∃ p ∈ n.sched.programs, p.owner = o ∧ p.image = im ∧ p.withdrawn = false) :
    n.withdraw o im = ({ n with sched := { n.sched with programs := n.sched.programs.map (fun p =>
      if p.owner = o ∧ p.image = im then { p with withdrawn := true } else p) } }, true) := by
  obtain ⟨p, hp, ho, hi, hw⟩ := h
  exact if_pos (List.any_eq_true.2 ⟨p, List.mem_filter.2 ⟨hp, by simp [ho, hw]⟩, by simp [hi]⟩)

theorem Nld.withdraw_missing {n : Nld} {o im : Nat} (h : ∀ p ∈ n.sched.programs, p.owner = o → p.image = im → p.withdrawn = true) :
    n.withdraw o im = (n, false) := by
  refine if_neg fun hany => ?_
  obtain ⟨p, hp, hi⟩ := List.any_eq_true.1 hany
  obtain ⟨hp, hmine⟩ := List.mem_filter.1 hp
  obtain ⟨ho, hw⟩ : p.owner = o ∧ p.withdrawn = false := by simpa using hmine
  exact Bool.false_ne_true (hw.symm.trans (h p hp ho (by simpa using hi)))

/-- The program that an image in the pool describes. -/
def Nld.programAt (n : Nld) (o len : Nat) (ps : List OpParams) : Program :=
  programOf (n.poolBytes o len) o n.sched.admissions
    (n.firstTick (fieldAt (n.poolBytes o len) 20 2) (fieldAt (n.poolBytes o len) 22 2)) ps

section
variable {n : Nld} {fn o len : Nat} {ps : List OpParams} {sg : Bool}

theorem Nld.takeImage_admits (h : (n.takeImage fn o len ps sg).2 = 0) : n.takeImage fn o len ps sg =
    ({ n with sched := { n.sched with programs := n.sched.programs ++ [n.programAt o len ps],
                                      admissions := n.sched.admissions + 1 } }, 0) := by
  unfold Nld.takeImage at h ⊢
  simp only at h ⊢
  split at h
  next hcode => exact absurd h hcode
  next hcode => exact if_neg hcode

theorem Nld.takeImage_refuses (h : (n.takeImage fn o len ps sg).2 ≠ 0) : (n.takeImage fn o len ps sg).1 = n := by
  unfold Nld.takeImage at h ⊢
  simp only at h ⊢
  split at h
  next hcode => rw [if_pos hcode]
  next => exact absurd rfl h

end

/-! ### TRACK (R353, R354, R376) -/

/-- Words of the staged position table are written one after another. -/
def Nld.stageWords (n : Nld) (ws : List TrackWord) : Nld :=
  ws.foldl (fun m w => m.stageWord w.pos.val w.word.val w.value.toNat) n

/-- The staged table replaced. -/
def Nld.staging (n : Nld) (t : Tbl TrackRow) : Nld := { n with series := { n.series with staged := t } }

/-- They change nothing but the staged table. -/
theorem Nld.stageWords_staging (n : Nld) (ws : List TrackWord) : ∃ t, n.stageWords ws = n.staging t := by
  refine List.foldlRecOn ws _ (motive := fun m : Nld => ∃ t, m = n.staging t) ⟨n.series.staged, rfl⟩ ?_
  rintro _ ⟨t, rfl⟩ w -
  exact ⟨_, rfl⟩

/-- A table that may not be committed: the refusal is told of, and the staged table is as it was. -/
def Nld.refuseTable (n : Nld) (t : Tbl TrackRow) : Nld := ((n.staging t).raise NReg.SER_EVT_alloc_refused).staging n.series.staged

section
variable (n : Nld) (t : Tbl TrackRow)

theorem Nld.staging_moves : Nld.Moves [.series] [] n (n.staging t) := n.withSeries_moves _

theorem Nld.refuseTable_series : (n.refuseTable t).series = n.series := by
  have hraise : ((n.staging t).raise NReg.SER_EVT_alloc_refused).series = (n.staging t).series := Nld.raise_series ..
  rw [Nld.refuseTable]
  generalize (n.staging t).raise NReg.SER_EVT_alloc_refused = m at hraise
  rw [Nld.staging, hraise]
  rfl

theorem Nld.refuseTable_moves : Nld.Moves [.regs, .hwErr] ((NReg.SER_EVT_alloc_refused, 0) :: errorRing) n (n.refuseTable t) := by
  have hraise := (n.staging t).raise_moves NReg.SER_EVT_alloc_refused 1 0
  have hm : Nld.Moves [.series, .regs, .hwErr] ((NReg.SER_EVT_alloc_refused, 0) :: errorRing) n (n.refuseTable t) :=
    ((n.staging_moves t).mono.step hraise).step (Nld.staging_moves _ _)
  exact hm.drop (n.refuseTable_series t)

theorem Nld.refuseTable_tells : (n.refuseTable t).bit NReg.SER_EVT_alloc_refused = true :=
  (n.staging t).bit_raise (f := NReg.SER_EVT_alloc_refused) rfl (by decide) (by decide)

theorem Nld.refuseTable_host : (n.refuseTable t).host = n.host := Nld.raise_host (n.staging t) ..

theorem Nld.refuseTable_out : (n.refuseTable t).out = n.out := Nld.raise_out (n.staging t) ..

end

/-- Every word of a TRACK concerns series of its owner alone. -/
def Nld.wordsOwned (n : Nld) (o : Nat) (ws : List TrackWord) : Bool :=
  ws.all fun w => n.rowOwned o w.pos.val (n.stagedRow w.pos.val) ((n.stageWords ws).stagedRow w.pos.val)

/-- What firmware does with the words of a TRACK. -/
def Nld.trackWords (h : DescHdr) (ws : List TrackWord) (n : Nld) : Nld :=
  if ¬ n.wordsOwned h.owner ws then n.done h 2
  else if (n.stageWords ws).positionsOk then (n.stageWords ws).commitPositions.done h 0
  else ({ (n.stageWords ws).commitPositions with
          series := { (n.stageWords ws).commitPositions.series with staged := n.series.staged } }).refuse h 0x05

theorem track_exec (h : DescHdr) (ws : List TrackWord) (s : State) : exec (.track h ws) s = onNld (fun n => n.onDesc h 0x05 (Nld.trackWords h ws)) s := rfl

/-! ### CTX_CFG (R361) -/

/-- The settings of a context from the next sweep. -/
def Nld.settingCtx (n : Nld) (c bp k : Nat) : NSeries :=
  { n.series with cfgs := n.series.cfgs.filter (fun e => e.1 ≠ c) ++ [(c, bp, k)] }

theorem Nld.ctxCfg_sets (n : Nld) (c k : Nat) {bp : Nat} (hbp : bp ≤ 96) : n.ctxCfg c bp k = { n with series := n.settingCtx c bp k } :=
  if_neg (Nat.not_lt.2 hbp)

theorem Nld.mem_settingCtx (n : Nld) (c bp k : Nat) : (c, bp, k) ∈ (n.settingCtx c bp k).cfgs :=
  List.mem_append_right _ (List.mem_singleton_self _)

/-- An epoch of a context begins at the sweep of the tick asked for, or of the tick after the newest that is sealed. -/
theorem Nld.ctxEpoch_starts (n : Nld) (c e : Nat) : ∃ first,
    n.ctxEpoch c e = ({ n with series := { n.series with epochs := n.series.epochs ++ [(c, first)] } }, first) ∧
    (n.tick.newestSealed = none → first = e) ∧ (∀ t, n.tick.newestSealed = some t → first = max e (t + 1)) := by
  refine ⟨_, rfl, fun h => by rw [h], fun t h => by rw [h]⟩

/-! ### The commands -/

section
variable {s : State} {h : DescHdr} (hr : s.nld.runs) (ht : s.nld.turn h)
include hr ht

theorem query_does : NldDoes (.query h) s fun n => s.nld.completes n h.key h.slot 0 ∧ Nld.only [.host, .fw] s.nld n :=
  .of_answered rfl hr ht rfl (by decide)

theorem load_does {o : Nat} {bs : List Byte} (hin : s.nld.inShare h.owner o bs.length = true) : NldDoes (.load h o bs) s fun n =>
    s.nld.completes n h.key h.slot 0 ∧ (∀ j < bs.length, Tbl.get 0 (o + j) n.sched.pool = (bs.getD j 0).toNat) ∧
    (∀ a, a < o ∨ o + bs.length ≤ a → Tbl.get 0 a n.sched.pool = Tbl.get 0 a s.nld.sched.pool) ∧
    n.sched.programs = s.nld.sched.programs ∧ Nld.only [.regs, .pkg, .host, .sched, .fw] s.nld n := by
  have hmark := (s.nld.fillPool o bs).unmark_moves o bs.length
  have hmoves : Nld.Moves [.regs, .pkg, .sched] [(NReg.HBM_MARKED_granules, 0)] s.nld ((s.nld.fillPool o bs).unmark o bs.length) :=
    (s.nld.fillPool_moves o bs).mono.step hmark
  obtain ⟨hhost, hout⟩ := (s.nld.fillPool o bs).unmark_host_out o bs.length
  refine .of_executed _ rfl hr ht (if_neg (not_not_intro hin)) hmoves (by decide)
    (Nld.ring_of_rings (congrArg NHost.rings hhost) _) ⟨[], hout.trans (List.append_nil _).symm⟩ (by decide)
    fun n hdone _ hm honly => ?_
  have hsched : n.sched = (s.nld.fillPool o bs).sched := (hm .sched (by decide)).trans (hmark.only .sched (by decide))
  refine ⟨hdone, fun j hj => ?_, fun a ha => ?_, by rw [hsched]; rfl, Nld.only_mono honly (by decide)⟩
  · rw [hsched]
    exact get_writeBytes_inside o bs 0 _ hj
  · rw [hsched]
    exact get_writeBytes_outside o bs 0 _ ha

theorem load_refused_does {o : Nat} {bs : List Byte} (hin : s.nld.inShare h.owner o bs.length = false) :
    NldDoes (.load h o bs) s fun n => s.nld.completes n h.key h.slot 1 ∧ Nld.only [.host, .fw] s.nld n :=
  .of_answered rfl hr ht (if_pos (by rw [hin]; exact Bool.false_ne_true)) (by decide)

theorem admit_does {o len : Nat} {ps : List OpParams} {sg : Bool} (hdown : s.nld.sec.down = false) (hopen : s.nld.opened = false)
    (hcode : (s.nld.takeImage h.fn.val o len ps sg).2 = 0) : NldDoes (.admitImage h o len ps sg) s fun n =>
      s.nld.completes n h.key h.slot 0 ∧ (∃ p, n.sched.programs = s.nld.sched.programs ++ [p] ∧ p.at_ = o ∧
        p.first = s.nld.firstTick (fieldAt (s.nld.poolBytes o len) 20 2) (fieldAt (s.nld.poolBytes o len) 22 2)) ∧
      n.sched.pool = s.nld.sched.pool ∧ Nld.only [.host, .sched, .fw] s.nld n := by
  obtain ⟨n, hn, hdone, hsched, honly⟩ := NldDoes.of_executedSched (c := .admitImage h o len ps sg) (detail := 0) (flags := 0)
    (result := []) rfl hr ht { s.nld.sched with programs := s.nld.sched.programs ++ [s.nld.programAt o len ps],
                                                admissions := s.nld.sched.admissions + 1 }
    (by simp only [hdown, hopen, Nld.takeImage_admits hcode, Bool.false_eq_true, if_false, Nat.zero_ne_one, if_true])
  exact ⟨n, hn, hdone, ⟨_, by rw [hsched], rfl, rfl⟩, by rw [hsched], honly⟩

theorem admit_refused_does {o len : Nat} {ps : List OpParams} {sg : Bool} (hdown : s.nld.sec.down = false)
    (hopen : s.nld.opened = false) (hcode : 1 < (s.nld.takeImage h.fn.val o len ps sg).2) :
    NldDoes (.admitImage h o len ps sg) s fun n => s.nld.completes n h.key h.slot 1 ∧ Nld.only [.host, .fw] s.nld n := by
  have h0 : (s.nld.takeImage h.fn.val o len ps sg).2 ≠ 0 := by omega
  have h1 : (s.nld.takeImage h.fn.val o len ps sg).2 ≠ 1 := by omega
  refine .of_answered (detail := (s.nld.takeImage h.fn.val o len ps sg).2) (flags := 0) (result := []) rfl hr ht ?_ (by decide)
  simp only [hdown, hopen, Bool.false_eq_true, if_false, h0, h1, Nld.takeImage_refuses h0]

theorem withdraw_does {im : BitVec 64}
    (hp : ∃ p ∈ s.nld.sched.programs, p.owner = h.owner ∧ p.image = im.toNat ∧ p.withdrawn = false) :
    NldDoes (.withdraw h im) s fun n => s.nld.completes n h.key h.slot 0 ∧
      n.sched.programs = s.nld.sched.programs.map (fun p =>
        if p.owner = h.owner ∧ p.image = im.toNat then { p with withdrawn := true } else p) ∧
      n.sched.pool = s.nld.sched.pool ∧ Nld.only [.host, .sched, .fw] s.nld n := by
  obtain ⟨n, hn, hdone, hsched, honly⟩ := NldDoes.of_executedSched (c := .withdraw h im) (detail := 0) (flags := 0) (result := [])
    rfl hr ht { s.nld.sched with programs := s.nld.sched.programs.map (fun p =>
      if p.owner = h.owner ∧ p.image = im.toNat then { p with withdrawn := true } else p) }
    (by simp only [Nld.withdraw_found hp, if_true])
  exact ⟨n, hn, hdone, by rw [hsched], by rw [hsched], honly⟩

theorem withdraw_refused_does {im : BitVec 64}
    (hp : ∀ p ∈ s.nld.sched.programs, p.owner = h.owner → p.image = im.toNat → p.withdrawn = true) :
    NldDoes (.withdraw h im) s fun n => s.nld.completes n h.key h.slot 1 ∧ Nld.only [.host, .fw] s.nld n := by
  refine .of_answered (detail := Config.refusalDetail 0x04 % 65536) (flags := 0) (result := []) rfl hr ht ?_ (by decide)
  simp only [Nld.withdraw_missing hp, Bool.false_eq_true, if_false]
  rfl

section
variable {ws : List TrackWord}

theorem track_does (hown : s.nld.wordsOwned h.owner ws = true) (hok : (s.nld.stageWords ws).positionsOk = true) :
    NldDoes (.track h ws) s fun n => s.nld.completes n h.key h.slot 0 ∧ n.series.staged = (s.nld.stageWords ws).series.staged ∧
      n.series.committed = some (s.nld.stageWords ws).series.staged ∧ n.series.table = s.nld.series.table ∧
      n.series.ctx = s.nld.series.ctx ∧ Nld.only [.series, .host, .fw] s.nld n := by
  obtain ⟨t, hstage⟩ := s.nld.stageWords_staging ws
  obtain ⟨n, hn, hdone, hseries, honly⟩ := NldDoes.of_executedSeries (c := .track h ws) (detail := 0) (flags := 0) (result := [])
    (track_exec h ws s) hr ht { s.nld.series with staged := t, committed := some t } (by
      rw [Nld.trackWords, if_neg (not_not_intro hown), if_pos hok, Nld.commitPositions, if_pos hok, hstage]
      rfl)
  rw [hstage]
  exact ⟨n, hn, hdone, by rw [hseries]; rfl, by rw [hseries]; rfl, by rw [hseries], by rw [hseries], honly⟩

theorem track_refused_does (hown : s.nld.wordsOwned h.owner ws = true) (hok : (s.nld.stageWords ws).positionsOk = false) :
    NldDoes (.track h ws) s fun n => s.nld.completes n h.key h.slot 1 ∧ n.bit NReg.SER_EVT_alloc_refused = true ∧
      Nld.only [.regs, .hwErr, .host, .fw] s.nld n := by
  obtain ⟨t, hstage⟩ := s.nld.stageWords_staging ws
  have hno : ¬ (s.nld.stageWords ws).positionsOk = true := by rw [hok]; exact Bool.false_ne_true
  refine .of_executed (detail := Config.refusalDetail 0x05 % 65536) (flags := 0) (result := []) (s.nld.refuseTable t) (track_exec h ws s) hr ht
    ?_ (s.nld.refuseTable_moves t) (by decide) (Nld.ring_of_rings (congrArg NHost.rings (s.nld.refuseTable_host t)) _)
    ⟨[], (s.nld.refuseTable_out t).trans (List.append_nil _).symm⟩ (by decide) fun n hdone _ hm honly =>
      ⟨hdone, ?_, Nld.only_mono honly (by decide)⟩
  · rw [Nld.trackWords, if_neg (not_not_intro hown), if_neg hno, Nld.commitPositions, if_neg hno, hstage]
    rfl
  · rw [Nld.bit_congr (hm .regs (by decide) NReg.SER_EVT_alloc_refused 0 (by decide)), Nld.refuseTable_tells]

theorem track_foreign_does (hown : s.nld.wordsOwned h.owner ws = false) : NldDoes (.track h ws) s fun n =>
    s.nld.completes n h.key h.slot 2 ∧ Nld.only [.host, .fw] s.nld n :=
  .of_answered (track_exec h ws s) hr ht (if_pos (by rw [hown]; exact Bool.false_ne_true)) (by decide)

end

section
variable {c : Nat} {bp k : BitVec 8}

theorem ctxCfg_owned_does (hbp : bp.toNat ≤ 96) (hk : k.toNat ≤ 15) (hc : c < 262144)
    (hown : (Tbl.get ({} : SerCtx) c s.nld.series.ctx).owner = h.owner) : NldDoes (.ctxCfg h c bp k none) s fun n =>
      s.nld.completes n h.key h.slot 0 ∧ (c, bp.toNat, k.toNat) ∈ n.series.cfgs ∧ n.series.ctx = s.nld.series.ctx ∧
      n.series.epochs = s.nld.series.epochs ∧ Nld.only [.series, .host, .fw] s.nld n := by
  have hgood : ¬ (bp.toNat > 96 ∨ k.toNat > 15 ∨ c ≥ 262144) := by omega
  obtain ⟨n, hn, hdone, hseries, honly⟩ := NldDoes.of_executedSeries (c := .ctxCfg h c bp k none) (detail := 0) (flags := 0)
    (result := []) rfl hr ht (s.nld.settingCtx c bp.toNat k.toNat)
    ((if_neg hgood).trans ((if_neg (not_not_intro hown)).trans (by rw [Nld.ctxCfg_sets _ _ _ hbp]; rfl)))
  exact ⟨n, hn, hdone, by rw [hseries]; exact s.nld.mem_settingCtx _ _ _, by rw [hseries]; rfl, by rw [hseries]; rfl, honly⟩

theorem ctxCfg_epoch_does (hbp : bp.toNat ≤ 96) (hk : k.toNat ≤ 15) (hc : c < 262144)
    (hown : (Tbl.get ({} : SerCtx) c s.nld.series.ctx).owner = h.owner) (e : BitVec 48) :
    NldDoes (.ctxCfg h c bp k (some e)) s fun n =>
      s.nld.completes n h.key h.slot 0 ∧ n.series.ctx = s.nld.series.ctx ∧
      (s.nld.tick.newestSealed = none → n.series.epochs = s.nld.series.epochs ++ [(c, e.toNat)]) ∧
      (∀ t, s.nld.tick.newestSealed = some t → n.series.epochs = s.nld.series.epochs ++ [(c, max e.toNat (t + 1))]) ∧
      Nld.only [.series, .host, .fw] s.nld n := by
  have hgood : ¬ (bp.toNat > 96 ∨ k.toNat > 15 ∨ c ≥ 262144) := by omega
  obtain ⟨first, hepoch, hnone, hsome⟩ :=
    Nld.ctxEpoch_starts { s.nld with series := s.nld.settingCtx c bp.toNat k.toNat } c e.toNat
  obtain ⟨n, hn, hdone, hseries, honly⟩ := NldDoes.of_executedSeries (c := .ctxCfg h c bp k (some e)) (detail := 0) (flags := 0)
    (result := resultOf 0x06 [first]) rfl hr ht
    { s.nld.settingCtx c bp.toNat k.toNat with epochs := s.nld.series.epochs ++ [(c, first)] }
    ((if_neg hgood).trans ((if_neg (not_not_intro hown)).trans (by
      simp only [Nld.ctxCfg_sets _ _ _ hbp, Option.map_some, hepoch]
      rfl)))
  exact ⟨n, hn, hdone, by rw [hseries]; rfl, fun ht => by rw [hseries, hnone ht], fun t ht => by rw [hseries, hsome t ht], honly⟩

theorem ctxCfg_foreign_does (hbp : bp.toNat ≤ 96) (hk : k.toNat ≤ 15) (hc : c < 262144)
    (hown : (Tbl.get ({} : SerCtx) c s.nld.series.ctx).owner ≠ h.owner) (e : Option (BitVec 48)) :
    NldDoes (.ctxCfg h c bp k e) s fun n => s.nld.completes n h.key h.slot 2 ∧ Nld.only [.host, .fw] s.nld n := by
  have hgood : ¬ (bp.toNat > 96 ∨ k.toNat > 15 ∨ c ≥ 262144) := by omega
  exact .of_answered (detail := 0) (flags := 0) (result := []) rfl hr ht ((if_neg hgood).trans (if_pos hown)) (by decide)

end

theorem tapOwner_does {tap : Fin 16} {o : BitVec 8} (hf : h.owner = fleet) (ho : o.toNat ≤ 16) : NldDoes (.tapOwner h tap o) s fun n =>
    s.nld.completes n h.key h.slot 0 ∧ n.tapOwner tap.val = o.toNat ∧ (∀ u, u ≠ tap.val → n.tapOwner u = s.nld.tapOwner u) ∧
    Nld.only [.host, .fw] s.nld n := by
  have hgood : ¬ (tap.val ≥ 16 ∨ o.toNat > fleet) := not_or.2 ⟨Nat.not_le.2 tap.isLt, Nat.not_lt.2 ho⟩
  refine .of_executed (detail := 0) (flags := 0) (result := []) _ rfl hr ht ((if_neg (not_not_intro hf)).trans (if_neg hgood))
    (s.nld.withHost_moves _ s.nld.out) run_apart_nil rfl ⟨[], (List.append_nil _).symm⟩ (by decide) fun n hdone hhost _ honly => ?_
  obtain ⟨r, p, hhost⟩ := hhost
  refine ⟨hdone, ?_, fun u hu => ?_, Nld.only_mono honly (by decide)⟩
  · rw [Nld.tapOwner, hhost]
    exact Tbl.get_set_same _ _ _ _
  · rw [Nld.tapOwner, hhost]
    exact Tbl.get_set_ne _ _ hu _ _

theorem tapOwner_refused_does {tap : Fin 16} {o : BitVec 8} (hf : h.owner ≠ fleet) : NldDoes (.tapOwner h tap o) s fun n =>
    s.nld.completes n h.key h.slot 2 ∧ n.host.taps = s.nld.host.taps ∧ Nld.only [.host, .fw] s.nld n := by
  refine .of_executed (detail := 0) (flags := 0) (result := []) s.nld rfl hr ht (if_pos hf) (.refl [] [] _) run_apart_nil rfl
    ⟨[], (List.append_nil _).symm⟩ (by decide) fun n hdone hhost honly _ => ?_
  obtain ⟨r, p, hhost⟩ := hhost
  exact ⟨hdone, by rw [hhost], honly⟩

end

/-! ### The statement -/

theorem Nld.wordsOwned_iff {n : Nld} {o : Nat} {ws : List TrackWord} : n.wordsOwned o ws = true ↔
    ∀ w ∈ ws, n.rowOwned o w.pos.val (n.stagedRow w.pos.val) ((n.stageWords ws).stagedRow w.pos.val) = true := List.all_eq_true

theorem Nld.wordsOwned_false_iff {n : Nld} {o : Nat} {ws : List TrackWord} : n.wordsOwned o ws = false ↔
    ∃ w ∈ ws, n.rowOwned o w.pos.val (n.stagedRow w.pos.val) ((n.stageWords ws).stagedRow w.pos.val) = false := by
  simp only [Nld.wordsOwned, List.all_eq_false, Bool.not_eq_true]

/-- Settles O30: each clause is a lemma about one command, executed or refused. -/
theorem hostPrograms : Obligations.HostPrograms := by
  unfold Obligations.HostPrograms
  intro s h hr ht
  refine ⟨query_does hr ht, fun o bs => ⟨load_does hr ht, load_refused_does hr ht⟩,
    fun o len ps sg hdown hopen => ⟨admit_does hr ht hdown hopen, admit_refused_does hr ht hdown hopen⟩,
    fun im => ⟨withdraw_does hr ht, withdraw_refused_does hr ht⟩, ?_, fun c bp k hbp hk hc => ⟨fun hown => ?_, fun hown => ?_⟩,
    fun tap o => ⟨tapOwner_does hr ht, tapOwner_refused_does hr ht⟩⟩
  · rintro ws _ rfl
    refine ⟨fun hown => ?_, fun hown => track_foreign_does hr ht (Nld.wordsOwned_false_iff.2 hown)⟩
    exact ⟨track_does hr ht (Nld.wordsOwned_iff.2 hown), track_refused_does hr ht (Nld.wordsOwned_iff.2 hown)⟩
  · exact ⟨ctxCfg_owned_does hr ht hbp hk hc hown, ctxCfg_epoch_does hr ht hbp hk hc hown⟩
  · exact ctxCfg_foreign_does hr ht hbp hk hc hown

end Sys2Proof.Machine
end
